-- ==== Sys2Proof/Word.lean ====
section
/-!
DEFINITION. The plainest types of the SR16K model: octets, little-endian values of any width, and the
saturating and wrapping arithmetic that counters and fixed-point values share.
-/

namespace Sys2Proof

/-- One octet. -/
abbrev Byte := BitVec 8

/-- A master ID (R385, R411). -/
abbrev Master := BitVec 8

/-- `n` wrapped to `w` bits. -/
def wrap (w n : Nat) : Nat := n % 2 ^ w

/-- Saturating increment of an unsigned value of `w` bits, by `k`. Entry 18, DEDUCED. -/
def satAdd (w n k : Nat) : Nat := min (n + k) (2 ^ w - 1)

/-- The two's complement pattern of `z` in `w` bits. -/
def ofInt (w : Nat) (z : Int) : Nat := (z % (2 ^ w : Nat)).toNat

/-- The two's complement value of the low `w` bits of `n`. -/
def toSigned (w n : Nat) : Int :=
  let m := n % 2 ^ w
  if m < 2 ^ (w - 1) then (m : Int) else (m : Int) - (2 ^ w : Nat)

/-- `z` held between `lo` and `hi`. -/
def clampInt (lo hi z : Int) : Int := max lo (min hi z)

/-- Floor division of an integer by a positive power of two: truncation toward minus infinity (R12). -/
def shrFloor (z : Int) (k : Nat) : Int := Int.fdiv z (2 ^ k : Nat)

/-- Bit `i` of `n`. -/
def bit (n i : Nat) : Bool := n.testBit i

/-- The field `[hi:lo]` of `n` (R9). -/
def bits (n hi lo : Nat) : Nat := (n / 2 ^ lo) % 2 ^ (hi + 1 - lo)

/-- `n` with bit `i` made `b`. -/
def withBit (n i : Nat) (b : Bool) : Nat :=
  if n.testBit i = b then n else if b then n + 2 ^ i else n - 2 ^ i

/-- The little-endian value of a list of octets (R417). -/
def leNat : List Byte → Nat
  | [] => 0
  | b :: bs => b.toNat + 256 * leNat bs

/-- The `n` octets of `v`, least significant first (R417). -/
def leBytes : Nat → Nat → List Byte
  | 0, _ => []
  | n + 1, v => BitVec.ofNat 8 v :: leBytes n (v / 256)

/-- `n` zero octets. -/
def zeros (n : Nat) : List Byte := List.replicate n 0

/-- Octets `off` to `off + n - 1` of a value; octets past its end read 0. -/
def slice (bs : List Byte) (off n : Nat) : List Byte :=
  let t := (bs.drop off).take n
  t ++ zeros (n - t.length)

/-- The little-endian field of `n` octets at offset `off` of an image (R10, R417). -/
def field (bs : List Byte) (off n : Nat) : Nat := leNat ((bs.drop off).take n)

/-- The signed little-endian field of `n` octets at offset `off`. -/
def sfield (bs : List Byte) (off n : Nat) : Int := toSigned (8 * n) (field bs off n)

/-- `bs` with `v` written over it at `off`, its length kept. -/
def patch (bs : List Byte) (off : Nat) (v : List Byte) : List Byte :=
  (bs.take off ++ v ++ bs.drop (off + v.length)).take (max bs.length (off + v.length))

end Sys2Proof
end

