-- ==== Sys2Proof/Syntax.lean ====
section
/-!
DEFINITION. The commands of the SR16K: one constructor per row of spec/opcode_table.json, and the types of
their operands.  What comes from outside the part (a path a request arrives by, sampled values, received
octets, the outcome of a training or of a drive command) is an operand (entry 5, DESIGN CHOICE).
-/

namespace Sys2Proof

/-- The path a dictionary request arrives by (R422). Entry 34, DESIGN CHOICE. -/
inductive Path
  /-- mailbox `m` of tenant `t` (R407) -/
  | mailbox (t : Fin 16) (m : Fin 4)
  /-- a BAR0 register access by the function of tenant `t` (R391) -/
  | bar (t : Fin 16)
  /-- CAN controller `c`, source node, in CAN FD format or CAN XL (R434, R435) -/
  | can (c : Fin 2) (node : Byte) (fd : Bool)
  /-- forwarded over the chain by a chip, with the acting master there and ANON (R432) -/
  | chain (chip : Byte) (origin : Byte) (anon : Bool)
  /-- the Kolef monitor (R422) -/
  | kolef
  deriving DecidableEq, Repr

/-- Who asks, and with which TXN (R425). -/
structure Req where
  path : Path
  txn : BitVec 16
  deriving DecidableEq, Repr

/-- A Nerlil request message (R425): STATUS and FLAGS as they stand in it are `reserved`. -/
structure Msg where
  op : BitVec 8
  txn : BitVec 16
  object : BitVec 32
  offset : BitVec 32
  dst : Byte
  reserved : BitVec 16
  data : List Byte
  deriving DecidableEq, Repr

/-- A Trowel thread: its core and its number in the core (R140). -/
structure Thr where
  core : Fin 256
  thread : Fin 4
  deriving DecidableEq, Repr

/-- The fields of Format M (R174): MAC with a parallel move. -/
structure MacFields where
  ad : BitVec 2
  xa : BitVec 4
  xb : BitVec 4
  pm : BitVec 2
  pp : BitVec 3
  xd : BitVec 4
  u : Bool
  reserved : BitVec 7
  deriving DecidableEq, Repr

/-- The fields of Format A (R178): accumulator operations. -/
structure AccFields where
  ad : BitVec 2
  as_ : BitVec 2
  xs : BitVec 4
  cond : BitVec 4
  sh : BitVec 6
  reserved : BitVec 6
  deriving DecidableEq, Repr

/-- The fields of Format X (R180): X register ALU. -/
structure AluFields where
  xd : BitVec 4
  xa : BitVec 4
  xb : BitVec 4
  shn : BitVec 4
  reserved : BitVec 5
  deriving DecidableEq, Repr

/-- The fields of Format I (R181): immediates. -/
structure ImmFields where
  reg : BitVec 4
  reserved : BitVec 6
  imm : BitVec 16
  deriving DecidableEq, Repr

/-- The fields of Format L (R182): loads and stores. -/
structure MemFields where
  ptr : BitVec 3
  u : Bool
  reg : BitVec 4
  ns : Bool
  disp : BitVec 13
  deriving DecidableEq, Repr

/-- How an NVMe read ends (R290, R293): the extent's octets with its tag table entry, or an error completion. -/
inductive ReadResult
  | data (extent : List Byte) (tag : List Byte)
  | error
  deriving DecidableEq, Repr

/-- What a mount reads from a namespace (R275, R282): both superblocks, the key table, the directory and the extent map. -/
structure MountData where
  primary : List Byte
  backup : List Byte
  keyTable : List Byte
  directory : List Byte
  extentMap : List Byte
  deriving DecidableEq, Repr

/-- An NVMe controller that enumeration finds (R39, R272, R273). -/
structure FoundDrive where
  port : Fin 4
  link : Fin 4
  /-- the switch's downstream port, 0xF without a switch -/
  down : Fin 16
  /-- it is an NVMe controller with every required command -/
  meets : Bool
  isNvme : Bool
  width : Fin 16
  generation : Fin 16
  serial : List Byte
  deriving DecidableEq, Repr

/-- A codeword as a port receives it (R324): its header, the symbols corrected on each lane, whether more than 15 were
wrong, and its 20 slots of 32 octets. -/
structure Codeword where
  seq : BitVec 8
  ack : BitVec 8
  nak : Bool
  rpl : Bool
  corrected : List (BitVec 16)
  uncorrectable : Bool
  slots : List Byte
  deriving DecidableEq, Repr

/-- A frame seen on a CAN bus (R433, R434): format 0 XL, 1 FD, 2 CC. -/
structure CanRx where
  format : Fin 3
  id : BitVec 29
  extended : Bool
  sec : Bool
  remote : Bool
  sdt : Byte
  vcid : Byte
  af : BitVec 32
  data : List Byte
  deriving DecidableEq, Repr

/-- A character as a UART's receiver samples it: a BREAK, its tags, and the length of its start bit in 100 MHz cycles
(R509, R513). -/
structure RxChar where
  data : BitVec 9
  parity : Bool
  framing : Bool
  noise : Bool
  brk : Bool
  low : Nat
  deriving DecidableEq, Repr

/-- The far island of a crossing that is dead (R31, R33). -/
inductive Island
  | core (n : Fin 256)
  | gang (n : Fin 16)
  | screed
  | lathPort (p : Fin 2)
  | can (k : Fin 2)
  /-- any other island -/
  | other
  deriving DecidableEq, Repr

/-- What wakes the chip from STANDBY (R548). -/
inductive WakeSource
  | pin
  | uart (u : Fin 4)
  | can (k : Fin 2)
  | lath (p : Fin 2)
  deriving DecidableEq, Repr


/-- The commands: one constructor per row of spec/opcode_table.json, in its order. Entry 5, DESIGN CHOICE. -/
inductive Instr
  /-- SAMPLE_TICK (R24): The tick strobe of each sample period drives one step of the Skim, Screed and output stages of the frame pipeline. -/
  | sampleTick (tdm : List (Fin 128 × BitVec 32))
  /-- SKIM_OVERRUN (R479): A Skim pass still incomplete at its deadline repeats the previous pass's external values. -/
  | skimOverrun
  /-- FRAME_BOUNDARY (R24): The frame strobe at tick kB starts the boundary work of every block for frame k. -/
  | frameBoundary (selfCheck : List (Fin 256))
  /-- LOOKAHEAD_PASS (R24): During frame k-1 Hawk places events accepted earlier whose onsets fall in frame k. -/
  | lookaheadPass
  /-- MAX_RELEASE (R73): MAX_RELEASE elapsed since the release tick starts the voice's feather. -/
  | maxRelease
  /-- FEATHER_END (R73): FEATHER_LEFT reaching 0 frees the voice and returns its slots at the next boundary. -/
  | featherEnd
  /-- STIPPLE_FRAME (R108): A Stipple cluster computes the frame values of all bound generators and delivers control outputs. -/
  | stippleFrame (cluster : Fin 4)
  /-- STIPPLE_LATE (R477): A cluster that misses its window leaves every mod block holding the previous frame's last value. -/
  | stippleLate (cluster : Fin 4)
  /-- FRAME_DEADLINE (R478): At tick (k+1)B the task board ends thread 0's frame-k work. -/
  | frameDeadline
  /-- USER_OVERRUN (R165): A voice's USER instances spending their USER_COST times B allowance abandon the pass. -/
  | userOverrun (core : Fin 256)
  /-- INSTANCE_ENTRY (R193): Once earlier instructions complete and the far-store queue drains, the task board enters the next instance. -/
  | instanceEntry (core : Fin 256)
  /-- EXCHANGE_COPY (R255): The gang DMA copies a send frame into its buffer and sets EF9 on the task's threads. -/
  | exchangeCopy (x : Fin 512)
  /-- EXCHANGE_RETURN_COPY (R255): The gang DMA copies a completed return buffer to the exchange RAM. -/
  | exchangeReturnCopy (x : Fin 512)
  /-- WINDOW_FILL (R289): Hod writes stream frames of each cursor's window for frame k. -/
  | windowFill
  /-- AUDIO_IN_FRAME (R405): At tick kB plus B/2 the audio-in entry for frame k is taken, or the frame is marked missing. -/
  | audioInFrame (t : Fin 16) (q : Fin 4) (fetched : List (List Byte))
  /-- AUDIO_OUT_FRAME (R406): The audio-out or stem-out entry for a frame is written, or dropped when the ring has no slot. -/
  | audioOutFrame (t : Fin 16) (q : Fin 8)
  /-- CAN_HEARTBEAT (R137): A lapsed slot heartbeat queues the slot's frame. -/
  | canHeartbeat (slot : Fin 128)
  /-- DMX_PACKET (R521): Each PeriodUs a DMX_TX UART sends a break, mark, start code and slots. -/
  | dmxPacket (u : Fin 4)
  /-- CV_LOAD (R526): A group load strobe loads one code per channel from its load queue. -/
  | cvLoad (group : Fin 4)
  /-- CV_READBACK (R529): The monitoring ADC converts one channel and reloads the code on a mismatch. -/
  | cvReadback (ch : Fin 32) (code : BitVec 16) (moved : Bool)
  /-- CV_FAULT_TIMEOUT (R530): One second continuously in FAULT retires the channel. -/
  | cvFaultTimeout (ch : Fin 32)
  /-- SENSE_SAMPLE (R531): All sense inputs are sampled together and smoothed. -/
  | senseSample (codes : List (BitVec 16))
  /-- PREFETCH (R400): An enabled ESQ is prefetched up to 8 entries ahead when a doorbell shows them. -/
  | prefetch (t : Fin 16) (q : Fin 8) (fetched : List (List Byte))
  /-- DISPATCH (R398): The queue dispatcher chooses an entry, checks it and journals an accepted entry. -/
  | dispatch (fails : Nat)
  /-- MIGRATE_GO (R103): Writing Hawk.Migrate.Go requests an operator migration. -/
  | migrateGo (r : Req)
  /-- MIGRATION_CUTOFF (R100): A target with neither COMMIT nor ABORT by (k+1)B plus B/2 discards the voice and sends ABORT. -/
  | migrationCutoff
  /-- MIGRATION_QUERY_TIMER (R101): A source still unresolved by (k+4)B sends QUERY and repeats it every 4 frames. -/
  | migrationQueryTimer
  /-- MIGRATION_RETRY (R104): An aborted migration is tried again with a new target 8 frames later, up to 3 attempts. -/
  | migrationRetry
  /-- STEAL_RESERVE (R106): A write of Hawk.StealReserve is checked against SlotMin and takes effect at the next boundary. -/
  | stealReserve (r : Req) (v : Byte)
  /-- STAGING_IMAGE_WRITE (R53): A write of a template, layer, modulation set or control template Image fills that handle's staging image. -/
  | stagingImageWrite (r : Req) (k : Fin 4) (n : Fin 4096) (image : List Byte)
  /-- TEMPLATE_COMMIT (R54): Template.Commit 1 checks the staging image and commits it or refuses it. -/
  | templateCommit (r : Req) (n : Fin 4096)
  /-- TEMPLATE_WITHDRAW (R53): Template.Commit 2 withdraws the handle. -/
  | templateWithdraw (r : Req) (n : Fin 4096)
  /-- LAYER_COMMIT (R54): Layer.Commit 1 checks and commits the staging layer, replicating a chain-wide layer. -/
  | layerCommit (r : Req) (n : Fin 4096)
  /-- LAYER_WITHDRAW (R53): Layer.Commit 2 withdraws the layer handle. -/
  | layerWithdraw (r : Req) (n : Fin 4096)
  /-- MODSET_COMMIT (R110): Stipple.ModSet.Commit 1 checks and commits a modulation set. -/
  | modsetCommit (r : Req) (n : Fin 4096)
  /-- MODSET_WITHDRAW (R110): Stipple.ModSet.Commit 2 withdraws a modulation set. -/
  | modsetWithdraw (r : Req) (n : Fin 4096)
  /-- CONTROL_COMMIT (R132): Stipple.Control.Commit 1 checks and commits a control template. -/
  | controlCommit (r : Req) (n : Fin 4096)
  /-- CONTROL_WITHDRAW (R132): Stipple.Control.Commit 2 withdraws a control template. -/
  | controlWithdraw (r : Req) (n : Fin 4096)
  /-- VERSION_SWITCH (R55): At the first boundary after a commit the new version becomes the one events bind to. -/
  | versionSwitch
  /-- VERSION_RELEASE (R19): A withdrawn version is released once no accepted event or voice refers to it. -/
  | versionRelease
  /-- GLOBAL_ENABLE (R129): Setting Stipple.Global.Enable checks the definition and cluster units and starts the generator. -/
  | globalEnable (r : Req) (n : Fin 4096)
  /-- TASK_ENABLE (R167): Trowel.Task.Enable 1 commits an effects task and assigns its bases, or is refused. -/
  | taskEnable (r : Req) (t : Fin 1024)
  /-- TASK_DISABLE (R167): Trowel.Task.Enable 0 disables the task and its threads. -/
  | taskDisable (r : Req) (t : Fin 1024)
  /-- CODE_LOAD (R169): Trowel.Code.Load 1 starts writing the image into the program memory of selected cores, or refuses. -/
  | codeLoad (r : Req)
  /-- CODE_LOAD_DONE (R169): The code load completes and Status reads DONE. -/
  | codeLoadDone
  /-- THREAD_MODE (R230): A write of Trowel.Thread.Mode turns a thread OFF or into FRAME or EVENT mode. -/
  | threadMode (r : Req) (core : Fin 256) (thread : Fin 3) (mode : Fin 3)
  /-- THREAD_SWITCH (R203): A READY higher thread preempts the running thread, discarding the instruction in ID. -/
  | threadSwitch (core : Fin 256)
  /-- INTERRUPT_ENTRY (R213): A pending enabled flag enters its handler, saving PC, ST and loop state in the shadow. -/
  | interruptEntry (t : Thr)
  /-- SEMAPHORE_REVOKE (R220): A gang semaphore lease past its expiry is revoked and granted to the next waiter. -/
  | semaphoreRevoke
  /-- ALL_WAIT_DETECTOR (R223): The gang detector fires after 256 cycles of all threads blocked and breaks the deadlock. -/
  | allWaitDetector (gang : Fin 16)
  /-- CORE_REINSTATE (R228): Trowel.Core.Retired written 0 runs a full self-check and restores a passing core. -/
  | coreReinstate (r : Req) (core : Fin 256) (passed : Bool)
  /-- THERMAL_STEP_DOWN (R565): A gang at Warn or above steps its core clocks down after Hawk removes excess voices. -/
  | thermalStepDown (gang : Fin 16) (reading : BitVec 8)
  /-- THERMAL_STEP_UP (R564): A gang below Warn minus 5 °C steps its clocks up every 100 ms. -/
  | thermalStepUp (gang : Fin 16) (reading : BitVec 8)
  /-- THERMAL_TRIP (R566): A gang at 115 °C is gated at the next boundary and its voices end. -/
  | thermalTrip (gang : Fin 16) (reading : BitVec 8)
  /-- THERMAL_UNGATE (R566): A tripped gang is ungated at 0.80 GHz once it reads 100 °C or below. -/
  | thermalUngate (gang : Fin 16) (reading : BitVec 8)
  /-- MAC (R176): Multiply XA by XB and add to AD. -/
  | mac (t : Thr) (f : MacFields)
  /-- MSU (R176): Multiply and subtract from AD. -/
  | msu (t : Thr) (f : MacFields)
  /-- MPY (R176): Multiply into AD. -/
  | mpy (t : Thr) (f : MacFields)
  /-- MACR (R176): Multiply-accumulate with a rounding constant. -/
  | macr (t : Thr) (f : MacFields)
  /-- MPYSU (R176): Multiply signed by unsigned into AD. -/
  | mpysu (t : Thr) (f : MacFields)
  /-- MACSU (R176): Multiply signed by unsigned and accumulate. -/
  | macsu (t : Thr) (f : MacFields)
  /-- MACSH (R176): Shift AD right 16 and add the product. -/
  | macsh (t : Thr) (f : MacFields)
  /-- MSUSH (R176): Shift AD right 16 and subtract the product. -/
  | msush (t : Thr) (f : MacFields)
  /-- ADDA (R178): Add AS to AD. -/
  | adda (t : Thr) (f : AccFields)
  /-- SUBA (R178): Subtract AS from AD. -/
  | suba (t : Thr) (f : AccFields)
  /-- MOVA (R178): Copy AS to AD. -/
  | mova (t : Thr) (f : AccFields)
  /-- NEGA (R178): Negate AS into AD. -/
  | nega (t : Thr) (f : AccFields)
  /-- ABSA (R178): Absolute value of AS into AD. -/
  | absa (t : Thr) (f : AccFields)
  /-- CLRA (R178): Clear AD. -/
  | clra (t : Thr) (f : AccFields)
  /-- CMPA (R178): Set flags of AD minus AS. -/
  | cmpa (t : Thr) (f : AccFields)
  /-- MAXA (R178): Signed maximum of AD and AS. -/
  | maxa (t : Thr) (f : AccFields)
  /-- MINA (R178): Signed minimum of AD and AS. -/
  | mina (t : Thr) (f : AccFields)
  /-- SHA (R178): Shift AS by the immediate SH into AD. -/
  | sha (t : Thr) (f : AccFields)
  /-- SHAX (R178): Shift AS by the signed count in XS into AD. -/
  | shax (t : Thr) (f : AccFields)
  /-- LSRA (R178): Logical shift right of AS into AD. -/
  | lsra (t : Thr) (f : AccFields)
  /-- SATA (R178): Saturate AS to Q1.31 into AD. -/
  | sata (t : Thr) (f : AccFields)
  /-- ADDAX (R178): Add XS times 2^16 to AD. -/
  | addax (t : Thr) (f : AccFields)
  /-- MOVAX (R178): Load XS times 2^16 into AD. -/
  | movax (t : Thr) (f : AccFields)
  /-- MOVAXP (R178): Load an X pair into AD. -/
  | movaxp (t : Thr) (f : AccFields)
  /-- RNDA (R178): Add the rounding constant to AS into AD. -/
  | rnda (t : Thr) (f : AccFields)
  /-- CMOVA (R178): Copy AS to AD when COND holds. -/
  | cmova (t : Thr) (f : AccFields)
  /-- NORM (R179): Normalise AD and write its shift count to XS. -/
  | normA (t : Thr) (f : AccFields)
  /-- EXP (R179): Write the exponent of AS to XS. -/
  | expA (t : Thr) (f : AccFields)
  /-- MOVXA (R178): Narrow AS[31:16] into XS. -/
  | movxa (t : Thr) (f : AccFields)
  /-- MOVXAP (R178): Narrow AS[31:0] into an X pair. -/
  | movxap (t : Thr) (f : AccFields)
  /-- MOVXR (R178): Move a named part of AS into XS without narrowing. -/
  | movxr (t : Thr) (f : AccFields)
  /-- MOVRX (R178): Move XS into a named part of AD. -/
  | movrx (t : Thr) (f : AccFields)
  /-- MOVX (R180): Copy XA to XD. -/
  | movx (t : Thr) (f : AluFields)
  /-- ADDX (R180): Add X registers modulo 2^16. -/
  | addx (t : Thr) (f : AluFields)
  /-- SUBX (R180): Subtract X registers modulo 2^16. -/
  | subx (t : Thr) (f : AluFields)
  /-- ADDSX (R180): Saturating add of X registers. -/
  | addsx (t : Thr) (f : AluFields)
  /-- SUBSX (R180): Saturating subtract of X registers. -/
  | subsx (t : Thr) (f : AluFields)
  /-- ANDX (R180): Bitwise AND of X registers. -/
  | andx (t : Thr) (f : AluFields)
  /-- ORX (R180): Bitwise OR of X registers. -/
  | orx (t : Thr) (f : AluFields)
  /-- XORX (R180): Bitwise XOR of X registers. -/
  | xorx (t : Thr) (f : AluFields)
  /-- NOTX (R180): Bitwise NOT of XA. -/
  | notx (t : Thr) (f : AluFields)
  /-- NEGX (R180): Negate XA modulo 2^16. -/
  | negx (t : Thr) (f : AluFields)
  /-- ABSX (R180): Absolute value of XA. -/
  | absx (t : Thr) (f : AluFields)
  /-- SHLX (R180): Shift XA left by SHN. -/
  | shlx (t : Thr) (f : AluFields)
  /-- SHRX (R180): Arithmetic shift XA right by SHN. -/
  | shrx (t : Thr) (f : AluFields)
  /-- LSRX (R180): Logical shift XA right by SHN. -/
  | lsrx (t : Thr) (f : AluFields)
  /-- MAXX (R180): Signed maximum of X registers. -/
  | maxx (t : Thr) (f : AluFields)
  /-- MINX (R180): Signed minimum of X registers. -/
  | minx (t : Thr) (f : AluFields)
  /-- CMPX (R180): Set flags from comparing two X registers. -/
  | cmpx (t : Thr) (f : AluFields)
  /-- MOVI (R181): Load an immediate into X. -/
  | movi (t : Thr) (f : ImmFields)
  /-- ADDI (R181): Add an immediate to X. -/
  | addi (t : Thr) (f : ImmFields)
  /-- ANDI (R181): AND X with an immediate. -/
  | andi (t : Thr) (f : ImmFields)
  /-- ORI (R181): OR X with an immediate. -/
  | ori (t : Thr) (f : ImmFields)
  /-- XORI (R181): XOR X with an immediate. -/
  | xori (t : Thr) (f : ImmFields)
  /-- CMPI (R181): Set flags comparing X with an immediate. -/
  | cmpi (t : Thr) (f : ImmFields)
  /-- MOVML (R181): Load the low half of an M register. -/
  | movml (t : Thr) (f : ImmFields)
  /-- MOVMH (R181): Load the high half of an M register. -/
  | movmh (t : Thr) (f : ImmFields)
  /-- MOVIA (R181): Load an immediate times 2^16 into an accumulator. -/
  | movia (t : Thr) (f : ImmFields)
  /-- ADDIP (R181): Add a signed immediate to a pointer. -/
  | addip (t : Thr) (f : ImmFields)
  /-- MOVILC (R181): Load an immediate into LC. -/
  | movilc (t : Thr) (f : ImmFields)
  /-- MOVIP (R181): Load a 24-bit address into a pointer. -/
  | movip (t : Thr) (pd : BitVec 3) (imm : BitVec 24)
  /-- LDH (R183): Load a halfword into X. -/
  | ldh (t : Thr) (f : MemFields)
  /-- LDW (R183): Load a word into an X pair. -/
  | ldw (t : Thr) (f : MemFields)
  /-- LDD (R183): Load two words into an X quad. -/
  | ldd (t : Thr) (f : MemFields)
  /-- LDA (R183): Load a word into an accumulator. -/
  | lda (t : Thr) (f : MemFields)
  /-- LDAH (R183): Load a halfword into the H part of an accumulator. -/
  | ldah (t : Thr) (f : MemFields)
  /-- LDP (R183): Load a pointer from memory. -/
  | ldp (t : Thr) (f : MemFields)
  /-- LDM (R183): Load a modifier from memory. -/
  | ldm (t : Thr) (f : MemFields)
  /-- LDG (R183): Load the guard bits of an accumulator. -/
  | ldg (t : Thr) (f : MemFields)
  /-- STH (R183): Store X as a halfword. -/
  | sth (t : Thr) (f : MemFields)
  /-- STW (R183): Store an X pair as a word. -/
  | stw (t : Thr) (f : MemFields)
  /-- STD (R183): Store an X quad as two words. -/
  | std (t : Thr) (f : MemFields)
  /-- STAW (R183): Store an accumulator narrowed to Q1.31. -/
  | staw (t : Thr) (f : MemFields)
  /-- STAH (R183): Store an accumulator narrowed to Q1.15. -/
  | stah (t : Thr) (f : MemFields)
  /-- STA23 (R183): Store an accumulator narrowed to Q23. -/
  | sta23 (t : Thr) (f : MemFields)
  /-- STPM (R183): Store a pointer or modifier. -/
  | stpm (t : Thr) (f : MemFields)
  /-- STG (R183): Store the guard bits of an accumulator. -/
  | stg (t : Thr) (f : MemFields)
  /-- B (R184): Conditional branch with two delay slots, optional link and indirect target. -/
  | branch (t : Thr) (cond : BitVec 4) (l : Bool) (ind : Bool) (xr : BitVec 4) (target : BitVec 16)
  /-- DBNZ (R186): Decrement XD and branch if nonzero. -/
  | dbnz (t : Thr) (xd : BitVec 4) (reserved : BitVec 3) (target : BitVec 16)
  /-- LOOP (R188): Open a hardware loop with the count in LC. -/
  | loopLc (t : Thr) (reserved : BitVec 12) (ofs : BitVec 11)
  /-- LOOPI (R188): Open a hardware loop with an immediate count. -/
  | loopi (t : Thr) (count : BitVec 12) (ofs : BitVec 11)
  /-- RPTI (R191): Repeat the next instruction an immediate number of times. -/
  | rpti (t : Thr) (reserved : BitVec 14) (count : BitVec 9)
  /-- RPTX (R191): Repeat the next instruction the number of times in XS. -/
  | rptx (t : Thr) (xs : BitVec 4) (reserved : BitVec 19)
  /-- MOVE_INTO_SREG (R192): Move X into P, M, LC, BX or ST. -/
  | moveIntoSreg (t : Thr) (sreg : BitVec 5) (xr : BitVec 4) (reserved : BitVec 16)
  /-- MOVE_OUT_OF_SREG (R192): Move P, M, LC, BX or ST into X. -/
  | moveOutOfSreg (t : Thr) (sreg : BitVec 5) (xr : BitVec 4) (reserved : BitVec 16)
  /-- BLKEXP (R198): Find the minimum block exponent over N words, resumable through BX. -/
  | blkexp (t : Thr) (xd : BitVec 4) (ps : BitVec 3) (xc : BitVec 4) (w : Bool) (reserved : BitVec 12) (stopAt : Option (BitVec 13))
  /-- BMOV (R198): Copy N words, resumable through BX. -/
  | bmov (t : Thr) (pd : BitVec 3) (ps : BitVec 3) (xc : BitVec 4) (reserved : BitVec 14) (stopAt : Option (BitVec 13))
  /-- TAPM (R197): Read a delay-line halfword, shift it up and accumulate its product. -/
  | tapm (t : Thr) (ad : BitVec 2) (xc : BitVec 4) (ps : BitVec 3) (r : Bool) (reserved : BitVec 14)
  /-- NOP (R174): No operation. -/
  | nopI (t : Thr) (opnd : BitVec 20)
  /-- SYNC_P (R200): Discard and refetch the following instructions so new program stores are seen. -/
  | syncP (t : Thr) (opnd : BitVec 20)
  /-- DONE (R193): End the running kernel instance, effects task or thread. -/
  | doneI (t : Thr) (opnd : BitVec 20)
  /-- ROTW (R194): Rotate the register window base. -/
  | rotw (t : Thr) (opnd : BitVec 20)
  /-- STSET (R194): Set masked bits of ST. -/
  | stset (t : Thr) (opnd : BitVec 20)
  /-- STCLR (R194): Clear masked bits of ST. -/
  | stclr (t : Thr) (opnd : BitVec 20)
  /-- WAITE (R209): Take matching event flags or park the thread until one is set. -/
  | waite (t : Thr) (opnd : BitVec 20)
  /-- SIGE (R210): Set an event flag on a thread of this gang. -/
  | sige (t : Thr) (opnd : BitVec 20)
  /-- RTI (R215): Return from interrupt, restoring the shadow. -/
  | rti (t : Thr) (opnd : BitVec 20)
  /-- SEMA (R219): Acquire or renew a gang semaphore, or park or return on a held one. -/
  | sema (t : Thr) (opnd : BitVec 20)
  /-- SEMR (R219): Release a gang semaphore and grant it to the next waiter. -/
  | semr (t : Thr) (opnd : BitVec 20)
  /-- COAT_COMMIT (R245): Skim.Coat.Commit 1 checks the staging coat and writes the next coat or refuses. -/
  | coatCommit (r : Req)
  /-- COAT_CLEAR (R246): Skim.Coat.Commit 2 clears the next coat. -/
  | coatClear (r : Req)
  /-- SAFE_LOAD_COMMIT (R249): SafeLoad.Commit 1 checks a set and makes it PENDING. -/
  | safeLoadCommit (r : Req) (slot : Fin 256)
  /-- SAFE_LOAD_CANCEL (R250): SafeLoad.Commit 2 returns a PENDING set to STAGED or answers TOO_LATE. -/
  | safeLoadCancel (r : Req) (slot : Fin 256)
  /-- SAFE_LOAD_TAKEN (R250): A pending set is taken at the start of the tick before its apply pass. -/
  | safeLoadTaken
  /-- SCREED_PARAMETER_WRITE (R269): A dictionary write to an RWS Screed object is applied as a one-entry safe-load set. -/
  | screedParameterWrite (r : Req) (unit : Fin 1536) (param : Fin 8) (value : BitVec 32)
  /-- EXCHANGE_DIR (R254): A write of Skim.Exchange.Dir binds or unbinds a channel's buffers. -/
  | exchangeDir (r : Req) (x : Fin 512) (dir : Fin 3)
  /-- WET_EDGE_GO (R469): Skim.WetEdge.Go 1 checks, computes the changed set and schedules a wet edge. -/
  | wetEdgeGo (r : Req)
  /-- WET_EDGE_CANCEL (R474): Skim.WetEdge.Go 2 cancels a wet edge before its first affected pass. -/
  | wetEdgeCancel (r : Req)
  /-- CROSSFADE_START (R471): At sample S both coats run on their own bus banks and destinations crossfade. -/
  | crossfadeStart
  /-- CROSSFADE_END (R471): After F passes the next coat becomes current and COAT is raised. -/
  | crossfadeEnd
  /-- DIP_OUT_START (R472): At S minus D changed destinations begin to dip toward 0. -/
  | dipOutStart
  /-- STAGE_SWITCH (R472): At the stage sample the next coat becomes current and the dip rises. -/
  | stageSwitch
  /-- DIP_END (R472): The dip-in completes and the wet edge is DONE. -/
  | dipEnd
  /-- EXTENT_READ_COMPLETE (R290): An NVMe read completion is verified and the extent enters the stream cache, or is retried. -/
  | extentReadComplete (volume : Fin 65536) (object : BitVec 32) (index : BitVec 32) (result : ReadResult)
  /-- READ_TIMEOUT (R293): A read not complete within 50 ms is aborted and reissued. -/
  | readTimeout
  /-- ROOT_LINK_DOWN (R293): A root link down starts port reset and retrain. -/
  | rootLinkDown (port : Fin 4) (link : Fin 4)
  /-- CONTROLLER_FATAL (R293): Controller fatal status resets the controller once, then retires the drive. -/
  | controllerFatal (drive : Fin 12)
  /-- MOUNT (R282): Hod.Volume.Mount MOUNT reads and checks the superblock and loads metadata. -/
  | hodMount (r : Req) (slot : Fin 16)
  /-- MOUNT_DONE (R282): Mount checks complete and the slot becomes MOUNTED or FAILED. -/
  | mountDone (slot : Fin 16) (found : Option MountData)
  /-- UNMOUNT (R282): Hod.Volume.Mount UNMOUNT unmounts a volume or is refused BUSY. -/
  | hodUnmount (r : Req) (slot : Fin 16)
  /-- FORMAT (R282): Hod.Volume.Mount FORMAT writes an empty volume to the namespace. -/
  | hodFormat (r : Req) (slot : Fin 16)
  /-- FORMAT_DONE (R282): A completed format mounts the volume, a failed one leaves it FAILED. -/
  | formatDone (slot : Fin 16) (superblock : Option (List Byte))
  /-- PRELOAD (R283): Setting Hod.Volume.Preload pins head extents of every valid object. -/
  | hodPreload (r : Req) (slot : Fin 16) (on : Bool)
  /-- REMOTE_TIMEOUT (R295): A remote extent read without reply in 2 ms asks the next server. -/
  | remoteTimeout
  /-- IMPORT_BEGIN (R297): Hod.Import.Commit 1 opens an import. -/
  | importBegin (r : Req)
  /-- IMPORT_DATA (R297): A write of Hod.Import.Data appends sample data. -/
  | importData (r : Req) (data : List Byte)
  /-- IMPORT_FINISH (R289): Hod.Import.Commit 2 writes extents, flushes and updates metadata. -/
  | importFinish (r : Req)
  /-- IMPORT_DELETE (R297): Hod.Import.Commit 3 deletes an object and deallocates its extents. -/
  | importDelete (r : Req)
  /-- DRIVE_REINSTATE (R293): Hod.Drive.Retired written 0 reinstates a drive. -/
  | driveReinstate (r : Req) (drive : Fin 12)
  /-- PATROL_SCRUB (R301): The patrol scrubber reads and corrects memory words in idle bank cycles. -/
  | patrolScrub (inst : Fin 531) (word : BitVec 19) (double : Bool)
  /-- DRAM_SCRUB (R316): The DRAM patrol scrub reads every usable block and handles errors. -/
  | dramScrub (found : Option (BitVec 26 × Bool))
  /-- CONFLICT_CLEAR (R310): Memory.Conflict.Clear 1 clears every conflict table at the next boundary. -/
  | conflictClear (r : Req)
  /-- JOURNAL_REINSTATE (R309): Memory.Journal.Reinstate tests and returns retired journal rows. -/
  | journalReinstate (r : Req) (failing : List (Fin 8192))
  /-- DRAM_REINSTATE (R315): Memory.Dram.Reinstate returns all retired DRAM pages. -/
  | dramReinstate (r : Req)
  /-- WIPE_TRIGGER (R318): A tamper cause latches and starts a Dust Sheet wipe. -/
  | wipeTrigger (cause : Fin 5)
  /-- WIPE_COMPLETE (R319): The cleared Dust Sheet passes verify and the state becomes WIPED. -/
  | wipeComplete (verified : Bool)
  /-- CODEWORD (R337): A received codeword is decoded, checked in sequence and its flits taken. -/
  | codeword (port : Fin 2) (cw : Codeword)
  /-- REPLAY_TIMEOUT (R337): With no ACK advance for 2 µs the transmitter resends. -/
  | replayTimeout (port : Fin 2)
  /-- SYNC (R343): A received SYNC disciplines chain time and is relayed with correction. -/
  | lathSync (port : Fin 2) (fields : List Nat) (residence : BitVec 64) (offsetPs : BitVec 32)
  /-- PDELAY_REQ (R341): A PDELAY_REQ is answered with PDELAY_RESP. -/
  | pdelayReq (port : Fin 2) (seq : BitVec 16) (t2 : BitVec 64) (t3 : BitVec 64)
  /-- PDELAY_RESP (R341): A PDELAY_RESP completes a link-delay measurement. -/
  | pdelayResp (port : Fin 2) (seq : BitVec 16) (t2 : BitVec 64) (t3 : BitVec 64) (t4 : BitVec 64)
  /-- HELLO (R344): A HELLO gives the peer role, version, width and serial. -/
  | lathHello (port : Fin 2) (role : Byte) (version : Byte) (width : Byte) (serial : List Byte)
  /-- CREDIT (R331): A CREDIT flit returns slot credits per class. -/
  | lathCredit (port : Fin 2) (counts : List (BitVec 16))
  /-- HEARTBEAT (R359): A HEARTBEAT gives neighbour liveness and may carry a loss report. -/
  | heartbeat (port : Fin 2) (fields : List Nat)
  /-- EVENT_MIRROR (R500): A holder writes a mirrored record or applies a retire list and returns MIRROR_ACK. -/
  | eventMirror (chip : Byte) (tag : BitVec 32) (fields : List Nat) (fails : Nat)
  /-- MIRROR_ACK (R500): A MIRROR_ACK releases the waiting completion. -/
  | mirrorAck (chip : Byte) (tag : BitVec 32) (free : Nat)
  /-- EVENT_FORWARD (R91): A home receives an event naming its chain-wide layer. -/
  | eventForward (chip : Byte) (fields : List Nat)
  /-- PLACEMENT (R95): A target receives a placement order and places the voice. -/
  | placement (chip : Byte) (fields : List Nat)
  /-- PLACE_REFUSE (R94): A home re-places a voice refused by its target. -/
  | placeRefuse (chip : Byte) (fields : List Nat)
  /-- HOLDER_REPORT (R96): A home receives a steal, end, switch report or inventory. -/
  | holderReport (chip : Byte) (tag : BitVec 32) (fields : List Nat)
  /-- RELEASE (R96): A holder receives a release for a chain-wide voice. -/
  | homeRelease (chip : Byte) (fields : List Nat)
  /-- CONTROLLER_FWD (R127): A holder receives forwarded controller events. -/
  | controllerFwd (chip : Byte) (fields : List Nat)
  /-- RECORD (R100): A target receives a migration record and renders shadows. -/
  | migRecord (chip : Byte) (fields : List Nat)
  /-- READY (R100): A source receives READY from the target. -/
  | migReady (chip : Byte) (fields : List Nat)
  /-- COMMIT (R100): A target receives COMMIT and answers COMMITTED. -/
  | migCommit (chip : Byte) (fields : List Nat)
  /-- MIGRATION_ABORT (R101): A migration ABORT message aborts the migration. -/
  | migrationAbort (chip : Byte) (fields : List Nat)
  /-- COMMITTED (R100): A source receives COMMITTED. -/
  | migCommitted (chip : Byte) (fields : List Nat)
  /-- QUERY (R101): A target answers QUERY with QUERY_REPLY. -/
  | migQuery (chip : Byte) (fields : List Nat)
  /-- QUERY_REPLY (R101): A source resolves a migration from QUERY_REPLY. -/
  | migQueryReply (chip : Byte) (fields : List Nat)
  /-- BUS_RISING (R251): A rising bus packet is received, added to and forwarded. -/
  | busRising (m : BitVec 64) (contrib : Byte) (origin : Byte) (epoch : BitVec 32) (values : List (BitVec 64))
  /-- BUS_FALLING (R251): A falling bus packet is received, added to and forwarded. -/
  | busFalling (m : BitVec 64) (contrib : Byte) (origin : Byte) (epoch : BitVec 32) (values : List (BitVec 64))
  /-- STEM_RISING (R336): A rising stem packet is merged and forwarded. -/
  | stemRising (m : BitVec 64) (contrib : Byte) (origin : Byte) (epoch : BitVec 32) (values : List (BitVec 32))
  /-- STEM_FALLING (R336): A falling stem packet is merged and forwarded. -/
  | stemFalling (m : BitVec 64) (contrib : Byte) (origin : Byte) (epoch : BitVec 32) (values : List (BitVec 32))
  /-- DIGEST (R92): A member's capacity digest is received. -/
  | hawkDigest (chip : Byte) (octets : List Byte)
  /-- EXTENT_REQ (R295): A server receives a remote extent request. -/
  | extentReq (chip : Byte) (fields : List Nat)
  /-- EXTENT_DATA (R295): A requester receives a remote extent. -/
  | extentData (chip : Byte) (fields : List Nat)
  /-- VOLUME_OFFER (R294): A volume offer is received and checked for conflict. -/
  | volumeOffer (chip : Byte) (fields : List Nat)
  /-- NDP (R432): A forwarded Nerlil message arrives over the chain. -/
  | chainNdp (chip : Byte) (tag : BitVec 32) (message : List Byte)
  /-- CENSUS (R352): A census record is received and relayed. -/
  | chainCensus (port : Fin 2) (fields : List Nat)
  /-- VIEW_VOTE (R353): A view vote is received; a full match lets the master send VIEW_APPLY. -/
  | viewVote (port : Fin 2) (fields : List Nat)
  /-- VIEW_APPLY (R353): A VIEW_APPLY names the view and its apply boundary. -/
  | viewApply (port : Fin 2) (fields : List Nat)
  /-- CONFIG_PROPOSE (R374): A member receives a chain-write proposal and votes. -/
  | configPropose (chip : Byte) (fields : List Nat)
  /-- CONFIG_VOTE (R374): The anchor receives a member's vote. -/
  | configVote (chip : Byte) (fields : List Nat)
  /-- CONFIG_APPLY (R374): A member receives CONFIG_APPLY for apply tick A. -/
  | configApply (chip : Byte) (fields : List Nat)
  /-- CONFIG_FETCH (R380): The anchor answers with chain-scope values and rebase point. -/
  | configFetch (chip : Byte) (fields : List Nat)
  /-- CONFIG_DATA (R380): A member applies fetched chain-scope values. -/
  | configData (chip : Byte) (fields : List Nat)
  /-- REPLICATE (R376): A member commits replicated images and returns REPLICATE_ACK. -/
  | replicate (chip : Byte) (fields : List Nat)
  /-- REPLICATE_ACK (R377): A home updates its holder bitmap from a REPLICATE_ACK. -/
  | replicateAck (chip : Byte) (fields : List Nat)
  /-- AUDIT (R382): A holder compares an AUDIT and returns an inventory on mismatch. -/
  | chainAudit (chip : Byte) (fields : List Nat)
  /-- AUDIT_TIMER (R382): Every second a home sends an AUDIT to each holder. -/
  | auditTimer
  /-- SYNC_TIMER (R343): The time master sends a SYNC out of each port every 8 µs. -/
  | syncTimer (ns : BitVec 64) (frac : BitVec 16)
  /-- PDELAY_TIMER (R341): Each port sends a PDELAY_REQ every 64 µs. -/
  | pdelayTimer (port : Fin 2) (t1 : BitVec 64)
  /-- HELLO_TIMER (R344): A port sends a HELLO every 1 µs in ALIGN and 100 µs in UP. -/
  | helloTimer (port : Fin 2)
  /-- HEARTBEAT_TIMER (R359): Every 100 µs a chip sends a HEARTBEAT out of each UP port. -/
  | heartbeatTimer
  /-- PORT_ENABLE (R344): Lath.Port.Enable 1 turns the transmitter on and enters DETECT. -/
  | portEnable (r : Req) (port : Fin 2)
  /-- PORT_DISABLE (R344): Lath.Port.Enable 0 squelches the port. -/
  | portDisable (r : Req) (port : Fin 2)
  /-- SIGNAL_DETECTED (R344): Signal on a lane moves a port to TRAIN. -/
  | signalDetected (port : Fin 2)
  /-- LANES_LOCK (R344): Lanes lock at both ends and the port enters ALIGN at a chosen width. -/
  | lanesLock (port : Fin 2) (lanes : BitVec 4)
  /-- TRAIN_TIMEOUT (R344): No lane locks within 10 ms and the port returns to DETECT. -/
  | trainTimeout (port : Fin 2)
  /-- ALIGN_LOCK (R344): Markers, deskew and RS lock and HELLO roles decide UP or MISWIRED. -/
  | alignLock (port : Fin 2)
  /-- LANE_FAILURE (R346): A lane failure sends the port to RETRAIN and may retire the lane. -/
  | laneFailure (port : Fin 2) (lane : Fin 4)
  /-- RETRAIN_LOCK (R345): A RETRAIN locks on the same or fewer lanes and the port returns to UP. -/
  | retrainLock (port : Fin 2) (lanes : BitVec 4)
  /-- SIGNAL_LOST (R344): Signal lost on every lane puts the port DOWN. -/
  | signalLost (port : Fin 2)
  /-- PORT_RESET (R351): Lath.Port.Reset 1 retrains the port now. -/
  | portReset (r : Req) (port : Fin 2)
  /-- PORT_REINSTATE (R344): Lath.Port.Retired written 0 returns the port to DETECT. -/
  | portReinstate (r : Req) (port : Fin 2)
  /-- LANE_REINSTATE (R346): Lath.Lane.Retired written 0 returns the lane at the next RETRAIN. -/
  | laneReinstate (r : Req) (lane : Fin 8)
  /-- CENSUS_SETTLE (R353): With no new record for 20 ms the chip computes the view and floods a vote. -/
  | censusSettle
  /-- VIEW_APPLY_TIMEOUT (R353): No VIEW_APPLY within 100 ms of settling starts a new census. -/
  | viewApplyTimeout
  /-- APPLY_BOUNDARY (R357): At the apply boundary numbers, roles, cut and Admit take effect. -/
  | applyBoundary
  /-- REMIRROR_DONE (R501): The transfer to the new holder completes and completions resume. -/
  | remirrorDone
  /-- HEARTBEAT_MISS (R360): Missing heartbeats for HeartbeatMiss periods declare the neighbour lost. -/
  | heartbeatMiss (port : Fin 2)
  /-- LOSS_SWITCH (R362): Packets built from tick SWITCH follow the new arrangement. -/
  | lossSwitch
  /-- LOSS_EFFECTIVE (R363): At EFFECTIVE members remove the lost chip, recompute cut and H and re-elect roles. -/
  | lossEffective
  /-- INVENTORY_WAIT_END (R367): The new home stops holding events when inventories arrive or at E plus B/2. -/
  | inventoryWaitEnd
  /-- TIME_MASTER_ELECTION (R365): A new election result that has held for 1 s takes effect. -/
  | timeMasterElection
  /-- CHAIN_WRITE (R374): A write to a chain-scope object on a MEMBER is forwarded to the anchor and proposed. -/
  | chainWrite (r : Req) (o : BitVec 32) (data : List Byte)
  /-- CONFIG_APPLY_TIMER (R374): At A minus 5 ms the anchor broadcasts CONFIG_APPLY. -/
  | configApplyTimer
  /-- CHAIN_WRITE_APPLY (R374): At A every member that received CONFIG_APPLY applies the write. -/
  | chainWriteApply
  /-- QUARANTINE_REQUEST (R378): A write of Chain.Quarantine.Request sets or clears cause REQUESTED. -/
  | quarantineRequest (r : Req) (on : Bool)
  /-- RESYNC (R380): Chain.Quarantine.Resync 1 fetches the anchor's values and applies them. -/
  | resync (r : Req)
  /-- MIRROR_RESEND (R500): An EVENT_MIRROR without ACK in 1 ms is sent again. -/
  | mirrorResend
  /-- TENANT_ENABLE (R386): A write of Tenant.Enable enables a tenant or is refused. -/
  | tenantEnable (r : Req) (t : Fin 16) (on : Bool)
  /-- FLR (R389): A function-level reset resets its tenant without discard. -/
  | flr (t : Fin 16)
  /-- LINK_DOWN (R389): Link down or hot reset on port 0 halts every ring queue with LINK_DOWN. -/
  | linkDown
  /-- DMA_ERROR (R390): A third failed ring transfer halts the queue with DMA_ERROR. -/
  | dmaError (t : Fin 16) (q : Fin 28)
  /-- QUEUE_ENABLE (R392): Q_CFG.ENABLE 1 checks the configuration and runs the queue, or halts with BAD_CONFIG. -/
  | queueEnable (r : Req) (q : Fin 512) (fields : BitVec 31)
  /-- QUEUE_DISABLE (R392): Q_CFG.ENABLE 0 disables the queue and resets HEAD, TAIL and ERROR. -/
  | queueDisable (r : Req) (q : Fin 512) (fields : BitVec 31)
  /-- DOORBELL (R395): A Q_DOORBELL write advances TAIL or returns entries by HEAD. -/
  | doorbell (t : Fin 16) (q : Fin 28) (v : BitVec 32)
  /-- QUEUE_SEQ (R416): A write of Q_SEQ sets the expected SEQ and ends duplicate suppression below it. -/
  | queueSeq (r : Req) (q : Fin 512) (v : BitVec 32)
  /-- COAL_TIME (R408): COAL_TIME after the first unsignalled entry raises the NQ source. -/
  | coalTime (t : Fin 16) (q : Fin 8)
  /-- TENANT_RESET (R488): Tenant.Reset 1 or FN_CTL.RESET resets a tenant and keeps its accepted events. -/
  | tenantReset (r : Req) (t : Fin 16)
  /-- RESET_WITH_DISCARD (R489): Tenant.Reset 2 or RESET with DISCARD frees pending records with CANCELLED notifications. -/
  | resetWithDiscard (r : Req) (t : Fin 16)
  /-- RESET_DONE (R488): The tenant reset completes and RESET_DONE is raised. -/
  | resetDone (t : Fin 16)
  /-- STC_LO_READ (R455): A read of STC_LO returns ticks and latches STC_HI and STC_FRAC. -/
  | stcLoRead (t : Fin 16) (frac : Byte)
  /-- PENDING_READ (R415): A read of Tenant.Events.Pending returns and clears the bits read. -/
  | pendingRead (r : Req) (t : Fin 16)
  /-- EVT_STATUS_CLEAR (R409): Writing 1 to an EVT_STATUS bit clears it. -/
  | evtStatusClear (t : Fin 16) (w : Fin 4) (v : BitVec 32)
  /-- EVT_ENABLE (R409): A write of EVT_ENABLE may send an MSI-X message for a pending source. -/
  | evtEnable (t : Fin 16) (w : Fin 4) (v : BitVec 32)
  /-- MAILBOX_DOORBELL (R407): A doorbell on queue 28 plus m sets the mailbox to REQUEST. -/
  | mailboxDoorbell (t : Fin 16) (m : Fin 4) (tag : BitVec 32) (request : List Byte)
  /-- MAILBOX_TAKE (R407): The supervisor takes a REQUEST to BUSY and serves it. -/
  | mailboxTake
  /-- MAILBOX_WITHDRAW (R407): Writing IDLE to a REQUEST mailbox withdraws the request. -/
  | mailboxWithdraw (t : Fin 16) (m : Fin 4)
  /-- ACCESS_APPLY (R413): Access.Write 1 applies the table to every selected unit. -/
  | accessApply (r : Req)
  /-- ACCESS_APPLY_STORE (R413): Access.Write 2 applies and stores the table. -/
  | accessApplyStore (r : Req)
  /-- READ (R426): A Nerlil READ returns value bytes from OFFSET. -/
  | ndpRead (r : Req) (object : BitVec 32) (offset : BitVec 32) (dst : Byte)
  /-- WRITE (R418): A Nerlil WRITE, or a register write, to an object with no row of its own. -/
  | ndpWrite (r : Req) (object : BitVec 32) (dst : Byte) (data : List Byte)
  /-- WRITE_BEGIN (R428): Opens a segmented write session. -/
  | writeBegin (r : Req) (object : BitVec 32) (dst : Byte) (total : BitVec 32)
  /-- WRITE_DATA (R428): Appends data to an open session. -/
  | writeData (r : Req) (object : BitVec 32) (offset : BitVec 32) (dst : Byte) (data : List Byte)
  /-- WRITE_END (R428): Checks the CRC and writes the session value as one WRITE. -/
  | writeEnd (r : Req) (object : BitVec 32) (dst : Byte) (crc : BitVec 32)
  /-- ABORT (R428): Closes a write session without writing. -/
  | ndpAbort (r : Req) (object : BitVec 32) (dst : Byte)
  /-- IDENTIFY (R426): Returns the identity block. -/
  | ndpIdentify (r : Req) (dst : Byte)
  /-- QUEUE_PUT (R431): Appends whole entries to a RUNNING ESQ or audio-in queue. -/
  | queuePut (r : Req) (q : Fin 512) (dst : Byte) (data : List Byte)
  /-- QUEUE_GET (R431): Returns whole entries from an NQ, audio-out or stem-out queue. -/
  | queueGet (r : Req) (q : Fin 512) (dst : Byte)
  /-- PING (R426): Returns the same data. -/
  | ndpPing (r : Req) (dst : Byte) (data : List Byte)
  /-- NOTIFY (R431): The SR16K sends a NOTIFY for a pending enabled source of a tenant with no function. -/
  | ndpNotify
  /-- SESSION_EXPIRY (R428): A session closes 1 s after its last message. -/
  | sessionExpiry
  /-- FORWARD_TIMEOUT (R432): A forwarded request with no response in 200 ms is answered TIMEOUT. -/
  | forwardTimeout
  /-- FLASH_RECORD_WRITTEN (R419): The flash record of a STORED write completes and the response is sent. -/
  | flashRecordWritten (ok : Bool)
  /-- CAN_FRAME_RECEIVED (R434): A received CAN frame is taken as Nerlil when its fields match. -/
  | canFrameReceived (ctl : Fin 2) (frame : CanRx)
  /-- CAN_FRAME_SENT (R437): A queued frame completes transmission. -/
  | canFrameSent (ctl : Fin 2)
  /-- CAN_BUS_ERROR (R438): A bus error updates TEC and REC and may enter ERROR_PASSIVE or BUS_OFF. -/
  | canBusError (ctl : Fin 2) (transmitter : Bool) (dominant : Bool)
  /-- BUS_OFF_RECOVERY (R438): Recovery completes and the controller returns to ERROR_ACTIVE. -/
  | busOffRecovery (ctl : Fin 2)
  /-- COLLISION (R439): A recessive bit sampled dominant after arbitration is counted as a collision. -/
  | collision (ctl : Fin 2)
  /-- CAN_ABORT (R440): Can.Abort 1 aborts every queued frame. -/
  | canAbort (r : Req) (ctl : Fin 2)
  /-- SLOT_ENABLE (R440): A write of Can.Slot.Enable; 0 aborts the slot's frame. -/
  | slotEnable (r : Req) (slot : Fin 128) (on : Bool)
  /-- CAN_RESTART (R441): Can.Restart 1 leaves ID_CONFLICT. -/
  | canRestart (r : Req) (ctl : Fin 2)
  /-- CAN_MODE (R441): A write of Can.Mode sets OFF, NORMAL or LISTEN_ONLY. -/
  | canMode (r : Req) (ctl : Fin 2) (mode : Fin 3)
  /-- CAN_REINSTATE (R441): Can.Retired written 0 reinstates the controller. -/
  | canReinstate (r : Req) (ctl : Fin 2)
  /-- WCLK_WINDOW (R448): A predicted WCLK window closes and its edge is accepted or an anomaly recorded. -/
  | wclkWindow (after : Option (BitVec 64))
  /-- LOCK (R450): SLEWING reaches a phase error below 1 ns and the reference is LOCKED. -/
  | plumbLock
  /-- HOLDOVER (R450): The 64th tick after loss switches to the crystal at the held frequency. -/
  | holdover
  /-- HOLDOVER_TIMEOUT (R450): After 10 s in HOLDOVER the clock slews to nominal and becomes FREE. -/
  | holdoverTimeout
  /-- CLOCK_SOURCE (R450): A write of Plumb.ClockSource selects WCLK or INTERNAL. -/
  | clockSource (r : Req) (source : Fin 2)
  /-- CHAIN_HOLDOVER (R454): No SYNC for 64 µs puts a member in chain holdover. -/
  | chainHoldover
  /-- REALIGNMENT (R460): A chip quarantined for TIME runs a same-rate transition to the chain's rebase point. -/
  | realignment
  /-- SAMPLE_RATE (R456): A write of Plumb.SampleRate schedules a rate transition. -/
  | sampleRate (r : Req) (rate : Fin 6)
  /-- RATE_TRANSITION (R457): At boundary X outputs start to feather out and voices are refitted. -/
  | rateTransition
  /-- RENDER_STOP (R457): At Y frames are no longer dispatched and control outputs hold. -/
  | renderStop
  /-- CLOCK_STOP (R457): At Z the sample clock stops and master clocks are held low. -/
  | clockStop
  /-- RATE_TRANSITION_RESUME (R457): 5 ms after Z the new rate starts with a new rebase point. -/
  | rateTransitionResume
  /-- BLOCK_SIZE (R41): A write of Plumb.BlockSize schedules a change of B. -/
  | blockSize (r : Req) (b : Byte)
  /-- BLOCK_SIZE_CHANGE (R41): At a multiple of 64 samples B changes with a 2 ms feather. -/
  | blockSizeChange
  /-- TEMPO (R462): Plumb.Tempo.Go 1 schedules a tempo change. -/
  | tempoSet (r : Req)
  /-- RELOCATE (R462): Plumb.Tempo.Go 2 schedules a relocation. -/
  | tempoRelocate (r : Req)
  /-- TEMPO_AND_RELOCATE (R462): Plumb.Tempo.Go 3 schedules both. -/
  | tempoAndRelocate (r : Req)
  /-- TEMPO_APPLY (R462): At the apply step the new tempo anchor is set. -/
  | tempoApply
  /-- TIMER_COUNT (R464): A timer unit counts, copies valid preloads at wrap and tests its compares. -/
  | timerCount (u : Fin 16)
  /-- LEASE_EXPIRY (R491): A lease lapses at the strobe after its expiry and its resource is reset. -/
  | leaseExpiry
  /-- POWER_FAIL (R487): Main supply loss runs the power-fail sequence on VBAK. -/
  | powerFail
  /-- POWER_FAIL_RESTART (R487): Main supply restored with VBAK held resumes the STC after the outage. -/
  | powerFailRestart (cycles : Nat)
  /-- WARM_RESET (R486): Reset.Request 1 resets VOLATILE state. -/
  | warmReset (r : Req)
  /-- COLD_RESET (R486): Reset.Request 2 resets everything except STORED objects. -/
  | coldReset (r : Req)
  /-- RESET_N (R560): RESET_N release or a qualified low pulse starts a cold reset or power-fail restart. -/
  | resetN (low : Nat) (supplies : Bool) (ignored : Bool) (cycles : Nat)
  /-- GANG_RESET (R490): Reset.Gang 1 migrates voices and resets a gang. -/
  | gangReset (r : Req) (gang : Fin 16)
  /-- CORE_RESET (R490): Reset.Core 1 migrates voices and resets a core. -/
  | coreReset (r : Req) (core : Fin 256)
  /-- SUPERVISOR_RESTART (R494): A missed watchdog or fatal exception reloads the supervisor firmware. -/
  | supervisorRestart
  /-- SUPERVISOR_RESTART_DONE (R21): The restart completes and queued dictionary requests are served. -/
  | supervisorRestartDone
  /-- CROSSING_DEAD (R33): A crossing unacknowledged for 1,024 cycles is declared dead. -/
  | crossingDead (island : Island)
  /-- REPLAY_GO (R502): Fault.Tenant.ReplayGo 1 replays the tenant's live journal records. -/
  | replayGo (r : Req) (t : Fin 16)
  /-- CHARACTER_RECEIVED (R509): A UART character is received and stored with its tags. -/
  | characterReceived (u : Fin 4) (x : RxChar)
  /-- RX_TIMEOUT (R511): An idle line for 4 character times with entries queued raises the receive source. -/
  | rxTimeout (u : Fin 4)
  /-- CHARACTER_SENT (R510): A transmit character completes, or collides in HALF_DUPLEX. -/
  | characterSent (u : Fin 4) (collision : Bool)
  /-- RETRY_BACKOFF (R516): After the idle backoff the UART resends a collided character. -/
  | retryBackoff (u : Fin 4)
  /-- UART_TX (R510): A write of Uart.Tx queues transmit entries or is refused. -/
  | uartTx (r : Req) (u : Fin 4) (entries : List (BitVec 16))
  /-- UART_RX_READ (R510): A read of Uart.Rx removes the entries returned. -/
  | uartRxRead (r : Req) (u : Fin 4) (offset : BitVec 32)
  /-- UART_MODE (R512): A write of Mode, Divider or Format takes effect after the character in progress. -/
  | uartMode (r : Req) (u : Fin 4) (object : Fin 3) (v : BitVec 32)
  /-- MUTE (R515): Writing 1 to Uart.Mute mutes the MULTIDROP receiver. -/
  | uartMute (r : Req) (u : Fin 4)
  /-- MIDI_BIND (R519): A write of Uart.Midi.Tenant or Queue binds the UART to an ESQ. -/
  | midiBind (r : Req) (u : Fin 4) (queue : Bool) (v : Byte)
  /-- DMX_BREAK (R522): A break in DMX_RX copies the previous packet to RxData. -/
  | dmxBreak (u : Fin 4)
  /-- DMX_IDLE (R522): 1 ms of idle line ends a received DMX packet. -/
  | dmxIdle (u : Fin 4)
  /-- RDM_REQUEST (R523): A write of Uart.Rdm.Request sends an RDM request after the current packet. -/
  | rdmRequest (r : Req) (u : Fin 4) (message : List Byte)
  /-- RDM_TIMEOUT (R523): No reply within 2,800 µs reports TIMEOUT. -/
  | rdmTimeout (u : Fin 4)
  /-- RDM_RESPONSE (R524): 200 µs after a request the responder sends its answer. -/
  | rdmResponse (u : Fin 4)
  /-- RDM_OUTBOX (R524): A write of Uart.Rdm.Outbox queues a responder response or is discarded as late. -/
  | rdmOutbox (r : Req) (u : Fin 4) (message : List Byte)
  /-- CV_ENABLE (R530): A write of Cv.Enable enables or disables a channel. -/
  | cvEnable (r : Req) (ch : Fin 32) (on : Bool)
  /-- CV_REINSTATE (R530): Cv.Retired written 0 returns the channel to ACTIVE. -/
  | cvReinstate (r : Req) (ch : Fin 32)
  /-- TDM_MODE (R583): A write of Tdm.Mode or Framing takes effect at the next boundary. -/
  | tdmMode (r : Req) (port : Fin 8) (framing : Bool) (v : Byte)
  /-- TDM_REALIGNMENT (R572): Two frame starts outside the window make a slave port adopt the external phase. -/
  | tdmRealignment (port : Fin 8)
  /-- TDM_NO_CLOCK (R572): No frame start for 2 sample periods puts the port in NO_CLOCK. -/
  | tdmNoClock (port : Fin 8)
  /-- KEY_COAT (R540): The key coat reads fuses, trains DRAM, verifies an image and starts the supervisor. -/
  | keyCoat (rate : Option (BitVec 16))
  /-- ALWAYS_ON_WATCHDOG (R541): A boot not READY after 2 s is ended by a warm reset. -/
  | alwaysOnWatchdog
  /-- BOOT_READY (R543): Bring-up completes and Boot.State reads READY. -/
  | bootReady (ms : BitVec 16)
  /-- UPDATE_COMMIT (R539): Boot.Update.Commit 1 checks the other slot and marks it preferred. -/
  | updateCommit (r : Req)
  /-- COMMIT_ROLLBACK (R539): Boot.CommitRollback raises the fuse rollback floor. -/
  | commitRollback (r : Req)
  /-- REVOKE_KEY_SLOT (R539): Boot.RevokeKeySlot revokes a fuse key slot, or is refused for the running one. -/
  | revokeKeySlot (r : Req) (slot : Fin 4)
  /-- QUIET_ENTRY (R547): After QuietDelayMs with nothing running the chip enters QUIET. -/
  | quietEntry
  /-- STANDBY (R548): Power.Request STANDBY enters STANDBY or is refused BUSY. -/
  | powerStandby (r : Req)
  /-- WAKE (R548): A wake source brings the chip out of STANDBY. -/
  | powerWake (source : WakeSource) (cycles : Nat) (tables : List (List Byte))
  /-- ADVANCE (R550): Lifecycle.Advance fuses the next state, wipes and warm resets. -/
  | lifeAdvance (r : Req) (next : Fin 5)
  /-- KEY_INSTALL (R551): Key.Install unwraps and stores a key and returns its KCV. -/
  | keyInstall (r : Req) (id : BitVec 32) (wrapped : List Byte)
  /-- KEY_REMOVE (R551): Key.Remove deletes a key. -/
  | keyRemove (r : Req) (id : BitVec 32)
  /-- ID (R555): Kolef ID returns the identity and life-cycle state. -/
  | kolefId
  /-- RD (R555): Kolef RD reads an object. -/
  | kolefRd (object : BitVec 32)
  /-- WR (R555): Kolef WR writes an object. -/
  | kolefWr (object : BitVec 32) (data : List Byte)
  /-- LOG (R555): Kolef LOG lists snag entries newest first. -/
  | kolefLog (tenant : Option (Fin 16)) (count : BitVec 7)
  /-- STC (R555): Kolef STC returns ticks, fraction and chain time. -/
  | kolefStc (frac : Byte)
  /-- RESET (R555): Kolef RESET performs a warm or cold reset. -/
  | kolefReset (cold : Bool)
  /-- IMG (R555): Kolef IMG receives raw image bytes into a slot and checks it. -/
  | kolefImg (slotB : Bool) (length : BitVec 32)
  /-- IMG_TIMEOUT (R555): 2 s with no byte ends an IMG transfer with TIMEOUT. -/
  | kolefImgTimeout
  /-- LC (R555): Kolef LC returns the life-cycle state and Boot.Error. -/
  | kolefLc
  /-- HELP (R555): Kolef HELP lists the commands allowed at this level. -/
  | kolefHelp
  /-- DRIVE_ENUMERATED (R39): A PCI Express root link finishes training and Hod enumerates its NVMe controllers, bringing each drive from TRAINING to READY or EXCESS or leaving it untrained. -/
  | driveEnumerated (found : FoundDrive)
  /-- VF_ENABLE (R387): The host enables or disables a tenant's virtual function through the SR-IOV capability, so the tenant gains or loses its function. -/
  | vfEnable (t : Fin 16) (on : Bool)
  /-- IMPORT_DONE (R289): The last extent write, the flush and the metadata and superblock writes of an import complete, and Hod.Import.Status reads DONE. -/
  | importDone
  /-- GANG_RESET_DONE (R490): A gang or core reset completes with its table partition reloaded, and its cores take placements again with S restored. -/
  | gangResetDone (gang : Bool) (n : Fin 256) (table : List Byte)
  /-- TDM_FRAME_START (R572): An external frame start inside the window returns a slave TDM port from NO_CLOCK to RUNNING. -/
  | tdmFrameStart (port : Fin 8)
  /-- RDM_REPLY_IDLE (R523): After 88 µs of idle line, the capture of an RDM discovery reply ends and Uart.Rdm.Status is set. -/
  | rdmReplyIdle (u : Fin 4)
  /-- VBAK_LOSS (R561): VBAK falls below 1.6 V while the main supply is absent, and the always-on domain, journal and Dust Sheet are lost, so the next power-on is a cold reset. -/
  | vbakLoss
  /-- CHAIN_CLOCK_CLASS_EXPIRY (R451): 10 s after a WCLK_IN loss on a chain member in state CHAIN, Chain.ClockClass changes from 1 to 2. -/
  | chainClockClassExpiry
  deriving DecidableEq, Repr

end Sys2Proof
end

