-- ==== Sys2Proof/Config.lean ====
section
/-!
DEFINITION. What a part or an image fixes (R5, R556, R583) and the values the spec leaves open.  Every constant
here is opaque: nothing in Lean can evaluate it or prove a value of it, so a statement that mentions one
holds whatever it is.  The log entry that names each constant stands in its docstring.
-/

namespace Sys2Proof.Config

/-! ### What the part and its image fix (entry 12, DESIGN CHOICE) -/

/-- Which grade the part is (R5; entry 12, DESIGN CHOICE). -/
opaque gradeE : Bool
/-- Identity.Grade, 0 for C1 and 1 for E1 (R5). -/
def grade : Nat := gradeE.toNat
/-- Identity.Serial, 16 octets (R5; entry 12, DESIGN CHOICE). -/
opaque serial : List Byte
/-- Identity.FirmwareVersion of the running image (R5; entry 12, DESIGN CHOICE). -/
opaque firmwareVersion : Nat
/-- Chain.ProtocolLevel (R384; entry 12, DESIGN CHOICE). -/
opaque protocolLevel : Nat
/-- Chain.LowestLevel (R384; entry 12, DESIGN CHOICE). -/
opaque lowestLevel : Nat
/-- Pcie.VendorId (R415; entry 12, DESIGN CHOICE). -/
opaque pcieVendor : Nat
/-- The state of its life cycle in which the part is delivered (R549, R556; entry 12, DESIGN CHOICE). -/
opaque lifecycleDelivered : Fin 5
/-- Lifecycle.State as the part is delivered (R556). -/
def lifecycleState : Nat := lifecycleDelivered.val
/-- The fused VDD_CORE target in millivolts (R583; entry 12, DESIGN CHOICE). -/
opaque avsFusedMv : Nat
/-- Is the DRAM of 16, 32 or 64 GiB (R311; entry 12, DESIGN CHOICE)? -/
opaque dramSize : Fin 3
/-- The DRAM octets that training finds (R311, R321). -/
def dramBytes : Nat := 2 ^ (34 + dramSize.val)

/-- The image in a firmware slot of the part as delivered, 0 A and 1 B (R536; entry 12, DESIGN CHOICE). -/
opaque deliveredImage : Nat → List Byte
/-- The hash of a public key that a fuse key slot holds (R538; entry 12, DESIGN CHOICE). -/
opaque fuseKeyHash : Nat → List Byte
/-- The public key of a production key slot (R538, R550; entry 12, DESIGN CHOICE). -/
opaque productionKey : Nat → List Byte
/-- Is a 32.768 kHz crystal fitted (R487, R582; entry 12, DESIGN CHOICE)? -/
opaque slowCrystal : Bool

/-! ### Values the spec leaves open (entry 6, DESIGN CHOICE) -/

/-- A sense smoother after a sample: Filter, sense rate in Hz, its memory, the sample (R531; entry 20, DESIGN CHOICE). -/
opaque senseSmoother : Nat → Nat → Int → Int → Int
/-- Its output (R531; entry 20, DESIGN CHOICE). -/
opaque senseOutput : Int → Int

/-- A fresh open value: the `n`-th draw (entry 6, DESIGN CHOICE). -/
opaque freeValue : Nat → Nat
/-- The first 64 bits of the SHA-384 hash of a string of octets (R584; entry 7, DESIGN CHOICE). -/
opaque sha384 : List Byte → Nat
/-- Does an ECDSA P-384 signature verify: public key, SHA-384 digest, signature (R537, R538, R550; entry 7, DESIGN CHOICE)? -/
opaque signatureOk : List Byte → List Byte → List Byte → Bool
/-- The SHA-384 digest of octets, all 48 of them (R536, R550; entry 7, DESIGN CHOICE). -/
opaque sha384Digest : List Byte → List Byte

/-- AES-256-GCM: key, IV, associated data, ciphertext, tag; the plaintext where the tag matches (R281, R290; entry 7, DESIGN CHOICE). -/
opaque gcmOpen : List Byte → List Byte → List Byte → List Byte → List Byte → Option (List Byte)
/-- AES-256: the encryption of one block under a key (R277; entry 7, DESIGN CHOICE). -/
opaque aes256 : List Byte → List Byte → List Byte
/-- Unwrap a key under the key-encryption key of a life-cycle state; none where it does not verify (R551; entry 7, DESIGN CHOICE). -/
opaque unwrapKey : Nat → List Byte → Option (List Byte)

/-- One octet of the kernel ROM (R67, R149, R150; entry 10, DESIGN CHOICE). -/
opaque romByte : Nat → Byte

/-- What a ROM kernel instance reads (R66 to R70). -/
structure KernelIn where
  /-- its descriptor, the sample rate, B and the first sample to render -/
  desc : Nat
  fs : Nat
  block : Nat
  first : Nat
  frame : List Byte
  work : List Byte
  /-- the table partition by relative address -/
  tables : List (Nat × Byte)
  line : List Byte
  window : List Int

/-- What a ROM kernel leaves (R66 to R70; entry 10), by part: 0 its state area, 1 its output buffer, 2 a second output
buffer, 3 the modulation lanes, 4 and 5 the voice output left and right, 6 its COMB line. -/
opaque kernel : Nat → KernelIn → List Byte

/-- Stage length in steps where VEL_TIME or KEY_TIME scales it: TIME, VEL_TIME, velocity, KEY_TIME, note, Hz (R114; entry 20, DESIGN CHOICE). -/
opaque scaledSteps : Nat → Int → Nat → Int → Nat → Nat → Nat
/-- The same for a stage in beats, in 1/(15,360,000 fs) beat (R114; entry 20, DESIGN CHOICE). -/
opaque scaledBeats : Nat → Int → Nat → Int → Nat → Nat → Nat
/-- The level a curved stage has reached: CURVE, entry level, TARGET, progress as a fraction (R114; entry 20, DESIGN CHOICE). -/
opaque curveLevel : Int → Int → Int → Nat → Nat → Int
/-- Sine at a phase given as a fraction of a cycle, Q15 (R116; entry 20, DESIGN CHOICE). -/
opaque sine : Nat → Nat → Int
/-- The value of an LFO with FREE and without SYNC: its definition and step (R116, R128; entry 21, DESIGN CHOICE). -/
opaque lfoUnlocked : List Byte → Nat → Int
/-- The `n`-th draw of a RAND by its seed (R116; entry 21, DESIGN CHOICE). -/
opaque rand : Nat → Nat → Int
/-- The value of a FOLLOW or PITCH generator: its number and step (R130, R131; entry 21, DESIGN CHOICE). -/
opaque measured : Nat → Nat → Int
/-- Curve EXP on a magnitude in Q15 (R120; entry 20, DESIGN CHOICE). -/
opaque expCurve : Nat → Nat
/-- ONSET_RANDOM drawn from a VOICE_ID (R118; entry 21, DESIGN CHOICE). -/
opaque onsetRandom : Nat → Int
/-- A controller source after one step of smoothing: SLEW, last value, source value (R117; entry 21, DESIGN CHOICE).
Entry 20, DESIGN CHOICE. -/
opaque smoothed : Nat → Int → Int → Int
/-- The value a gliding SEQ moves from in its first step (R113; entry 21, DESIGN CHOICE). -/
opaque seqFirst : List Byte → Int

/-- GEN_BASE of a voice that binds no generator (R63, R122; entry 6, DESIGN CHOICE). -/
opaque noGenBase : Nat

/-- SOURCE of a system snag code whose source has no number in the spec (R410, R484; entry 6, DESIGN CHOICE).
Entry 42, DEDUCED. -/
opaque snagSource : Nat → BitVec 8

/-- The directory entry of an object on a volume mounted only by another chip: volume number and object (R294; entry 22, DESIGN CHOICE). -/
opaque remoteEntry : Nat → Nat → List Byte

/-- Directory slots of a volume mounted only by another chip (R295; entry 22, DESIGN CHOICE). -/
opaque remoteSlots : Nat → Nat

/-- A lane's ACC before the first LD of a pass: sample and lane (R239, R242; entry 6, DESIGN CHOICE). -/
opaque laneAcc : Nat → Nat → Int
/-- Level of a Screed detector in the order of single precision: detector, sample, mean square (R260; entry 26, DESIGN CHOICE). -/
opaque screedLevel : Nat → Int → Nat → Int
/-- The mean square after a sample: fs, mean square, sample (R260; entry 26, DESIGN CHOICE). -/
opaque screedAverage : Nat → Nat → Int → Nat
/-- The target gain change of a level other than that of a 0 sample: level, Threshold, Ratio, Knee (R260; entry 26, DESIGN CHOICE). -/
opaque screedTarget : Int → Int → Nat → Nat → Int
/-- The smoother where t and r differ: fs, Attack, Release, t, r (R261; entry 26, DESIGN CHOICE). -/
opaque screedSmooth : Nat → Nat → Nat → Int → Int → Int
/-- The linear gain in Q4.28: r, Makeup (R261; entry 26, DESIGN CHOICE). -/
opaque screedGain : Int → Int → Nat
/-- A gain change in 0.1 dB, truncated (R271; entry 26, DESIGN CHOICE). -/
opaque screedTenths : Int → Int
/-- A final limiter's gain released toward a larger one: fs, Release, gain, target as fractions (R266; entry 26, DESIGN CHOICE). -/
opaque limiterRelease : Nat → Nat → Nat × Nat → Nat × Nat → Nat × Nat

/-- An entry of Trowel.Gang.SemTable: 1 when held, the holder's core, thread and tenant, the expiry, and the revoked mark
(R230 names what the 16 octets hold and not where; entry 29, DESIGN CHOICE). -/
opaque semEntry : List Nat → List Byte

end Sys2Proof.Config
end

