-- ==== Sys2Proof/Machine/Maps.lean ====
section
/-!
DEFINITION. Sparse tables: a list of (key, value) pairs whose keys rise strictly and which lists no value
equal to what an unlisted key reads as, so that equal tables are equal lists.  Every memory, register file
and per-unit record of the model is one of these.
-/

/-- Put `x` before the first element that it does not come after. -/
def List.insertBy {α : Type} (le : α → α → Bool) (x : α) : List α → List α
  | [] => [x]
  | y :: ys => if le x y then x :: y :: ys else y :: List.insertBy le x ys

/-- A list in the order of `le`, equals in the order they stood in. -/
def List.sortBy {α : Type} (le : α → α → Bool) : List α → List α
  | [] => []
  | x :: xs => List.insertBy le x (List.sortBy le xs)

namespace Sys2Proof.Machine

/-- A sparse table by number. -/
abbrev Table (α : Type) := List (Nat × α)

/-- What key `k` reads as, `d` when it is not listed. -/
def tget {α : Type} (d : α) : Table α → Nat → α
  | [], _ => d
  | (k', v) :: t, k => if k' = k then v else tget d t k

/-- Remove key `k`. -/
def tdel {α : Type} : Table α → Nat → Table α
  | [], _ => []
  | (k', v) :: t, k => if k' = k then tdel t k else (k', v) :: tdel t k

/-- List `v` at key `k`. -/
def tput {α : Type} : Table α → Nat → α → Table α
  | [], k, v => [(k, v)]
  | (k', v') :: t, k, v =>
    if k' = k then (k, v) :: t else if k < k' then (k, v) :: (k', v') :: t else (k', v') :: tput t k v

/-- Write `v` at key `k`; writing the value an unlisted key reads as removes the entry. -/
def tset {α : Type} [DecidableEq α] (d : α) (t : Table α) (k : Nat) (v : α) : Table α :=
  if v = d then tdel t k else tput t k v

/-- The record at `k` replaced by its image under `f`. -/
def tmod {α : Type} [DecidableEq α] (d : α) (t : Table α) (k : Nat) (f : α → α) : Table α :=
  tset d t k (f (tget d t k))

/-- The keys rise strictly, all above `lo`. -/
def tsorted {α : Type} : Option Nat → Table α → Bool
  | _, [] => true
  | none, (k, _) :: t => tsorted (some k) t
  | some lo, (k, _) :: t => decide (lo < k) && tsorted (some k) t

/-- The canonical form: keys rise strictly and no entry holds the default. -/
def twf {α : Type} [DecidableEq α] (d : α) (t : Table α) : Bool :=
  tsorted none t && t.all (fun e => decide (e.2 ≠ d))

/-- The keys listed from `lo` up to and not including `hi`. -/
def tkeys {α : Type} (t : Table α) (lo hi : Nat) : List Nat :=
  (t.filter (fun e => decide (lo ≤ e.1) && decide (e.1 < hi))).map Prod.fst

/-- Write the values of a list at consecutive keys from `k` on. -/
def tsets {α : Type} [DecidableEq α] (d : α) (t : Table α) (k : Nat) : List α → Table α
  | [] => t
  | v :: vs => tsets d (tset d t k v) (k + 1) vs

/-- Read `n` consecutive keys from `k` on. -/
def tgets {α : Type} (d : α) (t : Table α) (k : Nat) : Nat → List α
  | 0 => []
  | n + 1 => tget d t k :: tgets d t (k + 1) n

/-- Drop every listed key from `lo` up to and not including `hi`. -/
def tclear {α : Type} (t : Table α) (lo hi : Nat) : Table α :=
  t.filter (fun e => decide (e.1 < lo) || decide (hi ≤ e.1))

/-- The numbers below `n`, in order. -/
def upTo (n : Nat) : List Nat := List.range n

/-- The first element that meets `p`, with its place. -/
def findFrom {α : Type} (p : α → Bool) : Nat → List α → Option (Nat × α)
  | _, [] => none
  | i, x :: xs => if p x then some (i, x) else findFrom p (i + 1) xs

/-- A list with its element at place `i` replaced. -/
def setAt {α : Type} (l : List α) (i : Nat) (x : α) : List α := l.set i x

end Sys2Proof.Machine
end

