-- ==== Sys2Proof/Machine/Objects.lean ====
section
/-!
DEFINITION. The object dictionary as the tables of the spec list it (R5, R57, R105, R139, R170, R230, R258,
R271, R297, R321, R351, R384, R415, R416, R443, R444, R466, R480, R507, R534, R535, R556, R583): every object's
number, type, access, persistence, default and stated range, and a name for each number.
-/

namespace Sys2Proof.Machine

/-- The access values of R8. -/
inductive Access | ro | rw | wo | rws | const
  deriving DecidableEq, Repr

/-- The persistence values of R8. -/
inductive Persistence | volatile | retained | stored
  deriving DecidableEq, Repr

/-- The accepted length of an OCTETS or DOMAIN value (R417). -/
inductive Length
  | readOnly
  | exact (n : Nat)
  | upTo (n : Nat)
  | entries (size max : Nat)
  deriving DecidableEq, Repr

/-- How a value is carried (R417): a number of so many octets, signed or not, or a string of octets. -/
inductive ObjKind
  | num (octets : Nat) (signed : Bool)
  | bytes (len : Length)
  deriving DecidableEq, Repr

/-- The valid values of a type or the range its Meaning states (R417, R427). -/
inductive Check
  | any
  | oneOf (vs : List Int)
  | range (lo hi : Int) (also : List Int)
  | multiple (k max : Int)
  | notCC
  | warn
  deriving DecidableEq, Repr

/-- One row of an object table: the index range and sub-index it covers and what it says of them. -/
structure ObjDesc where
  lo : Nat
  hi : Nat
  sub : Nat
  kind : ObjKind
  acc : Access
  per : Persistence
  dflt : Nat
  dbytes : List Byte
  chk : Check
  deriving DecidableEq, Repr

/-- The rows of area 0x00. -/
def objArea00 : List ObjDesc := 
  [
    ⟨0x0000, 0x0000, 0x00, .num 4 false, .const, .stored, 1129664580, [], .any⟩,
    ⟨0x0001, 0x0001, 0x00, .num 4 false, .const, .stored, 1460993, [], .any⟩,
    ⟨0x0002, 0x0002, 0x00, .num 1 false, .const, .stored, 161, [], .any⟩,
    ⟨0x0003, 0x0003, 0x00, .num 1 false, .const, .stored, Config.grade, [], .oneOf [0, 1]⟩,
    ⟨0x0004, 0x0004, 0x00, .bytes .readOnly, .const, .stored, 0, Config.serial, .any⟩,
    ⟨0x0005, 0x0005, 0x00, .num 4 false, .ro, .volatile, Config.firmwareVersion, [], .any⟩,
    ⟨0x0006, 0x0006, 0x00, .num 1 false, .ro, .volatile, 255, [], .range 0 127 []⟩]

/-- The rows of area 0x01. -/
def objArea01 : List ObjDesc := 
  [
    ⟨0x1000, 0x1000, 0x00, .num 4 false, .rw, .stored, 655360, [], .multiple 65536 1048576⟩,
    ⟨0x1001, 0x1001, 0x00, .num 4 false, .rw, .stored, 262144, [], .multiple 65536 1048576⟩,
    ⟨0x1002, 0x1002, 0x00, .num 4 false, .ro, .volatile, 131072, [], .any⟩,
    ⟨0x1100, 0x11FF, 0x00, .num 2 false, .ro, .volatile, 1600, [], .any⟩,
    ⟨0x1200, 0x1200, 0x01, .bytes (.upTo 49152), .rw, .volatile, 0, [], .any⟩,
    ⟨0x1200, 0x1200, 0x02, .num 2 false, .rw, .volatile, 0, [], .range 0 12287 []⟩,
    ⟨0x1200, 0x1200, 0x03, .bytes (.exact 32), .rw, .volatile, 0, zeros 32, .any⟩,
    ⟨0x1200, 0x1200, 0x04, .num 1 false, .wo, .volatile, 0, [], .oneOf [1]⟩,
    ⟨0x1200, 0x1200, 0x05, .num 1 false, .ro, .volatile, 0, [], .oneOf [0, 1, 2, 3, 4, 5]⟩,
    ⟨0x1200, 0x1200, 0x06, .num 8 false, .ro, .volatile, 0, [], .any⟩,
    ⟨0x1400, 0x17FF, 0x01, .num 2 false, .rw, .volatile, 0, [], .any⟩,
    ⟨0x1400, 0x17FF, 0x02, .num 1 false, .rw, .volatile, 0, [], .range 0 255 []⟩,
    ⟨0x1400, 0x17FF, 0x03, .num 1 false, .rw, .volatile, 8, [], .range 0 15 []⟩,
    ⟨0x1400, 0x17FF, 0x04, .num 4 false, .rw, .volatile, 0, [], .any⟩,
    ⟨0x1400, 0x17FF, 0x05, .num 2 false, .rw, .volatile, 0, [], .any⟩,
    ⟨0x1400, 0x17FF, 0x06, .num 4 false, .rw, .volatile, 0, [], .any⟩,
    ⟨0x1400, 0x17FF, 0x07, .num 1 false, .rw, .volatile, 0, [], .range 0 1 []⟩,
    ⟨0x1400, 0x17FF, 0x08, .num 1 false, .ro, .volatile, 255, [], .any⟩,
    ⟨0x1400, 0x17FF, 0x09, .num 4 false, .ro, .volatile, 0, [], .any⟩,
    ⟨0x1400, 0x17FF, 0x0A, .num 4 false, .ro, .volatile, 0, [], .any⟩,
    ⟨0x1400, 0x17FF, 0x0B, .num 4 false, .ro, .volatile, 0, [], .any⟩,
    ⟨0x1400, 0x17FF, 0x0C, .num 2 false, .rw, .volatile, 0, [], .any⟩,
    ⟨0x1400, 0x17FF, 0x0D, .num 2 false, .rw, .volatile, 0, [], .any⟩,
    ⟨0x1800, 0x1BFF, 0x01, .num 2 false, .rw, .volatile, 65535, [], .range 0 1023 [65535]⟩,
    ⟨0x1800, 0x1BFF, 0x02, .num 2 false, .rw, .volatile, 0, [], .any⟩,
    ⟨0x1800, 0x1BFF, 0x03, .num 1 false, .rw, .volatile, 0, [], .oneOf [0, 1, 2]⟩,
    ⟨0x1800, 0x1BFF, 0x04, .num 2 false, .rw, .volatile, 0, [], .any⟩,
    ⟨0x1800, 0x1BFF, 0x05, .num 2 false, .rw, .volatile, 0, [], .any⟩,
    ⟨0x1800, 0x1BFF, 0x06, .num 2 false, .rw, .volatile, 0, [], .any⟩,
    ⟨0x1800, 0x1BFF, 0x07, .num 1 false, .ro, .volatile, 0, [], .oneOf [0, 1, 2, 3, 4]⟩] ++
  [
    ⟨0x1800, 0x1BFF, 0x08, .num 4 false, .ro, .volatile, 0, [], .any⟩,
    ⟨0x1C00, 0x1C0F, 0x01, .num 2 false, .rw, .stored, 64, [], .range 1 65535 []⟩,
    ⟨0x1C00, 0x1C0F, 0x02, .bytes .readOnly, .ro, .volatile, 0, [], .any⟩,
    ⟨0x1C00, 0x1C0F, 0x03, .num 4 false, .ro, .volatile, 0, [], .any⟩,
    ⟨0x1D00, 0x1DFF, 0x01, .num 4 false, .ro, .retained, 0, [], .any⟩,
    ⟨0x1D00, 0x1DFF, 0x02, .num 1 false, .rw, .retained, 0, [], .range 0 1 []⟩,
    ⟨0x1D00, 0x1DFF, 0x03, .num 4 false, .ro, .retained, 0, [], .any⟩,
    ⟨0x2000, 0x2000, 0x00, .num 8 false, .ro, .volatile, Config.dramBytes, [], .any⟩,
    ⟨0x2001, 0x2001, 0x00, .num 8 false, .ro, .volatile, 0, [], .any⟩,
    ⟨0x2002, 0x2002, 0x00, .num 2 false, .ro, .volatile, 0, [], .any⟩,
    ⟨0x2003, 0x2003, 0x00, .num 2 false, .rw, .stored, 8533, [], .oneOf [6400, 7500, 8533]⟩,
    ⟨0x2004, 0x2004, 0x00, .num 1 false, .rw, .stored, 24, [], .range 1 168 []⟩,
    ⟨0x2005, 0x2005, 0x01, .num 4 false, .ro, .volatile, 0, [], .any⟩,
    ⟨0x2005, 0x2005, 0x02, .num 4 false, .ro, .volatile, 0, [], .any⟩,
    ⟨0x2005, 0x2005, 0x03, .num 4 false, .ro, .volatile, 0, [], .any⟩,
    ⟨0x2006, 0x2006, 0x00, .bytes .readOnly, .ro, .retained, 0, [], .any⟩,
    ⟨0x2007, 0x2007, 0x00, .num 1 false, .wo, .volatile, 0, [], .oneOf [1]⟩,
    ⟨0x2010, 0x2010, 0x01, .bytes .readOnly, .ro, .volatile, 0, [], .any⟩,
    ⟨0x2010, 0x2010, 0x02, .bytes .readOnly, .ro, .volatile, 0, [], .any⟩,
    ⟨0x2020, 0x2020, 0x00, .num 2 false, .ro, .retained, 0, [], .any⟩,
    ⟨0x2021, 0x2021, 0x00, .bytes .readOnly, .ro, .retained, 0, zeros 1024, .any⟩,
    ⟨0x2022, 0x2022, 0x00, .num 1 false, .wo, .volatile, 0, [], .oneOf [1]⟩,
    ⟨0x2100, 0x21FF, 0x00, .bytes .readOnly, .ro, .volatile, 0, [], .any⟩,
    ⟨0x2200, 0x220F, 0x00, .bytes .readOnly, .ro, .volatile, 0, [], .any⟩,
    ⟨0x2300, 0x2300, 0x00, .bytes .readOnly, .ro, .volatile, 0, [], .any⟩,
    ⟨0x2301, 0x2301, 0x00, .bytes .readOnly, .ro, .volatile, 0, [], .any⟩,
    ⟨0x2302, 0x2302, 0x00, .bytes .readOnly, .ro, .volatile, 0, [], .any⟩,
    ⟨0x2310, 0x2310, 0x00, .num 1 false, .wo, .volatile, 0, [], .oneOf [1]⟩,
    ⟨0x3000, 0x3000, 0x00, .num 1 false, .rw, .stored, 0, [], .oneOf [0, 1]⟩,
    ⟨0x3001, 0x3001, 0x01, .num 1 false, .rw, .stored, 0, [], .oneOf [0, 1, 2]⟩,
    ⟨0x3001, 0x3001, 0x02, .num 1 false, .rw, .stored, 0, [], .oneOf [0, 1, 2]⟩,
    ⟨0x3001, 0x3001, 0x03, .num 1 false, .rw, .stored, 0, [], .oneOf [0, 1, 2]⟩] ++
  [
    ⟨0x3002, 0x3002, 0x00, .num 2 false, .const, .stored, Config.pcieVendor, [], .any⟩,
    ⟨0x4000, 0x4000, 0x00, .bytes (.entries 8 512), .rw, .stored, 0, [3, 255, 16, 16] ++ zeros 508, .any⟩,
    ⟨0x4001, 0x4001, 0x00, .num 1 false, .ro, .volatile, 0, [], .any⟩,
    ⟨0x4002, 0x4002, 0x01, .num 4 false, .ro, .volatile, 0, [], .any⟩,
    ⟨0x4002, 0x4002, 0x02, .num 4 false, .ro, .volatile, 0, [], .any⟩,
    ⟨0x4002, 0x4002, 0x03, .num 4 false, .ro, .volatile, 0, [], .any⟩,
    ⟨0x4002, 0x4002, 0x04, .num 4 false, .ro, .volatile, 0, [], .any⟩,
    ⟨0x4002, 0x4002, 0x05, .num 4 false, .ro, .volatile, 0, [], .any⟩,
    ⟨0x1E00, 0x1E0F, 0x01, .num 4 false, .ro, .volatile, 0, [], .any⟩,
    ⟨0x1400, 0x17FF, 0x0E, .num 4 false, .ro, .volatile, 0, [], .any⟩,
    ⟨0x5000, 0x5000, 0x00, .num 1 false, .ro, .volatile, 0, [], .oneOf [0, 1, 2]⟩,
    ⟨0x5001, 0x5001, 0x00, .num 1 false, .ro, .retained, 0, [], .oneOf [0, 1, 2, 3]⟩,
    ⟨0x5002, 0x5002, 0x00, .num 1 false, .ro, .volatile, 0, [], .oneOf [0, 1]⟩,
    ⟨0x5003, 0x5003, 0x00, .num 2 false, .ro, .volatile, 0, [], .any⟩,
    ⟨0x5004, 0x5004, 0x00, .num 2 false, .ro, .stored, 0, [], .any⟩,
    ⟨0x5005, 0x5005, 0x00, .num 1 false, .wo, .volatile, 0, [], .oneOf [1]⟩,
    ⟨0x5006, 0x5006, 0x00, .num 1 false, .wo, .volatile, 0, [], .range 0 3 []⟩,
    ⟨0x5010, 0x5010, 0x01, .bytes (.upTo 8389120), .rw, .volatile, 0, [], .any⟩,
    ⟨0x5010, 0x5010, 0x02, .num 1 false, .wo, .volatile, 0, [], .oneOf [1]⟩,
    ⟨0x5010, 0x5010, 0x03, .num 1 false, .ro, .volatile, 0, [], .oneOf [0, 1, 2, 3, 4, 5]⟩,
    ⟨0x6000, 0x6000, 0x00, .num 1 false, .ro, .volatile, 0, [], .oneOf [0, 1, 2]⟩,
    ⟨0x6001, 0x6001, 0x00, .num 1 false, .wo, .volatile, 0, [], .oneOf [2]⟩,
    ⟨0x6002, 0x6002, 0x00, .num 1 false, .rw, .stored, 1, [], .range 0 1 []⟩,
    ⟨0x6003, 0x6003, 0x00, .num 2 false, .rw, .stored, 1000, [], .range 10 60000 []⟩,
    ⟨0x6004, 0x6004, 0x00, .num 1 false, .rw, .stored, 0, [], .range 0 1 []⟩,
    ⟨0x6010, 0x6010, 0x00, .num 1 true, .rw, .stored, (if Config.grade = 1 then 105 else 95), [], .warn⟩,
    ⟨0x6011, 0x6011, 0x00, .bytes .readOnly, .ro, .volatile, 0, [], .any⟩,
    ⟨0x6012, 0x6012, 0x00, .num 1 true, .ro, .retained, 128, [], .any⟩,
    ⟨0x6013, 0x6013, 0x00, .num 4 false, .ro, .volatile, 0, [], .any⟩,
    ⟨0x6014, 0x6014, 0x00, .num 4 false, .ro, .retained, 0, [], .any⟩] ++
  [
    ⟨0x6015, 0x6015, 0x00, .num 2 false, .ro, .volatile, 800, [], .any⟩,
    ⟨0x6016, 0x6016, 0x00, .num 2 false, .const, .stored, Config.avsFusedMv, [], .any⟩]

/-- The rows of area 0x10. -/
def objArea10 : List ObjDesc := 
  [
    ⟨0x0000, 0x0000, 0x01, .num 1 false, .rw, .stored, 1, [], .range 0 1 []⟩,
    ⟨0x0001, 0x000F, 0x01, .num 1 false, .rw, .stored, 0, [], .range 0 1 []⟩,
    ⟨0x0000, 0x000F, 0x02, .num 1 false, .ro, .volatile, 0, [], .oneOf [0, 1, 2]⟩,
    ⟨0x0000, 0x000F, 0x03, .num 1 false, .ro, .volatile, 255, [], .range 1 15 []⟩,
    ⟨0x0000, 0x000F, 0x04, .num 1 false, .wo, .volatile, 0, [], .oneOf [1, 2]⟩,
    ⟨0x0000, 0x000F, 0x05, .num 4 false, .rw, .stored, 4294967295, [], .any⟩,
    ⟨0x0000, 0x000F, 0x06, .num 2 false, .rw, .stored, 1024, [], .any⟩,
    ⟨0x0000, 0x000F, 0x07, .num 2 false, .rw, .stored, 512, [], .any⟩,
    ⟨0x0000, 0x000F, 0x08, .num 4 false, .rw, .stored, 65536, [], .any⟩,
    ⟨0x0000, 0x000F, 0x09, .num 2 false, .rw, .stored, 16384, [], .any⟩,
    ⟨0x0000, 0x000F, 0x0A, .num 2 false, .rw, .stored, 32768, [], .any⟩,
    ⟨0x0000, 0x000F, 0x0B, .num 4 false, .rw, .stored, 0, [], .any⟩,
    ⟨0x0000, 0x000F, 0x0C, .num 2 false, .rw, .stored, 1024, [], .any⟩,
    ⟨0x0000, 0x000F, 0x0D, .bytes .readOnly, .ro, .volatile, 0, [], .any⟩,
    ⟨0x0000, 0x000F, 0x0E, .bytes .readOnly, .ro, .volatile, 0, zeros 16, .any⟩,
    ⟨0x0000, 0x000F, 0x0F, .bytes (.exact 16), .rw, .volatile, 0, zeros 16, .any⟩,
    ⟨0x1000, 0x1000, 0x01, .num 1 false, .rw, .volatile, 0, [], .any⟩,
    ⟨0x1000, 0x1000, 0x02, .num 2 false, .rw, .volatile, 0, [], .any⟩,
    ⟨0x1000, 0x1000, 0x03, .num 2 false, .rw, .volatile, 1, [], .any⟩,
    ⟨0x1000, 0x1000, 0x04, .bytes (.exact 128), .rw, .volatile, 0, [], .any⟩,
    ⟨0x1000, 0x1000, 0x05, .num 1 false, .wo, .volatile, 0, [], .oneOf [1, 2]⟩,
    ⟨0x1000, 0x1000, 0x06, .num 1 false, .ro, .volatile, 0, [], .oneOf [0, 2, 6, 9]⟩]

/-- The rows of area 0x20. -/
def objArea20 : List ObjDesc := 
  [
    ⟨0x0000, 0x0000, 0x00, .num 2 false, .ro, .volatile, 0, [], .any⟩,
    ⟨0x0001, 0x0001, 0x00, .num 2 false, .ro, .volatile, 0, [], .any⟩,
    ⟨0x0002, 0x0002, 0x00, .num 1 false, .const, .stored, 4, [], .any⟩,
    ⟨0x1000, 0x1FFF, 0x01, .bytes (.exact 1536), .rw, .volatile, 0, [], .any⟩,
    ⟨0x1000, 0x1FFF, 0x02, .num 1 false, .wo, .volatile, 0, [], .oneOf [1, 2]⟩,
    ⟨0x1000, 0x1FFF, 0x03, .num 1 false, .ro, .volatile, 0, [], .oneOf [0, 1, 2, 3, 4]⟩,
    ⟨0x1000, 0x1FFF, 0x04, .num 1 false, .ro, .volatile, 0, [], .oneOf [0]⟩,
    ⟨0x1000, 0x1FFF, 0x05, .num 2 false, .ro, .volatile, 0, [], .any⟩,
    ⟨0x1000, 0x1FFF, 0x06, .num 1 false, .ro, .volatile, 0, [], .any⟩,
    ⟨0x1000, 0x1FFF, 0x07, .num 1 false, .ro, .volatile, 255, [], .any⟩,
    ⟨0x1000, 0x1FFF, 0x08, .num 8 false, .ro, .volatile, 0, [], .any⟩,
    ⟨0x1000, 0x1FFF, 0x09, .num 1 false, .ro, .volatile, 0, [], .any⟩,
    ⟨0x2000, 0x2FFF, 0x01, .bytes (.exact 272), .rw, .volatile, 0, [], .any⟩,
    ⟨0x2000, 0x2FFF, 0x02, .num 1 false, .wo, .volatile, 0, [], .oneOf [1, 2]⟩,
    ⟨0x2000, 0x2FFF, 0x03, .num 1 false, .ro, .volatile, 0, [], .oneOf []⟩,
    ⟨0x2000, 0x2FFF, 0x04, .num 1 false, .ro, .volatile, 0, [], .oneOf []⟩,
    ⟨0x2000, 0x2FFF, 0x05, .num 1 false, .ro, .volatile, 255, [], .any⟩,
    ⟨0x2000, 0x2FFF, 0x06, .num 8 false, .ro, .volatile, 0, [], .any⟩]

/-- The rows of area 0x21. -/
def objArea21 : List ObjDesc := 
  [
    ⟨0x0000, 0x0000, 0x00, .num 1 false, .rw, .stored, 2, [], .range 0 8 []⟩,
    ⟨0x0001, 0x0001, 0x00, .num 1 false, .rw, .stored, 4, [], .range 1 16 []⟩,
    ⟨0x0002, 0x0002, 0x01, .num 1 false, .rw, .stored, 8, [], .range 0 15 []⟩,
    ⟨0x0002, 0x0002, 0x02, .num 1 false, .rw, .stored, 8, [], .range 0 15 []⟩,
    ⟨0x0002, 0x0002, 0x03, .num 1 false, .rw, .stored, 6, [], .range 0 15 []⟩,
    ⟨0x0002, 0x0002, 0x04, .num 1 false, .rw, .stored, 4, [], .range 0 15 []⟩,
    ⟨0x0002, 0x0002, 0x05, .num 1 false, .rw, .stored, 2, [], .range 0 15 []⟩,
    ⟨0x0002, 0x0002, 0x06, .num 1 false, .rw, .stored, 4, [], .range 0 15 []⟩,
    ⟨0x0003, 0x0003, 0x00, .bytes .readOnly, .ro, .volatile, 0, [], .any⟩,
    ⟨0x0004, 0x0004, 0x00, .num 2 false, .ro, .volatile, 0, [], .any⟩,
    ⟨0x0005, 0x0005, 0x00, .num 2 false, .ro, .volatile, 0, [], .any⟩,
    ⟨0x0006, 0x0006, 0x00, .num 2 false, .ro, .volatile, 512, [], .any⟩,
    ⟨0x0007, 0x0007, 0x00, .num 2 false, .ro, .volatile, 128, [], .any⟩,
    ⟨0x0008, 0x0008, 0x01, .num 4 false, .ro, .volatile, 0, [], .any⟩,
    ⟨0x0008, 0x0008, 0x02, .num 4 false, .ro, .volatile, 0, [], .any⟩,
    ⟨0x0008, 0x0008, 0x03, .num 4 false, .ro, .volatile, 0, [], .any⟩,
    ⟨0x0008, 0x0008, 0x04, .num 4 false, .ro, .volatile, 0, [], .any⟩,
    ⟨0x0008, 0x0008, 0x05, .num 4 false, .ro, .volatile, 0, [], .any⟩,
    ⟨0x0008, 0x0008, 0x06, .num 4 false, .ro, .volatile, 0, [], .any⟩,
    ⟨0x0008, 0x0008, 0x07, .num 4 false, .ro, .volatile, 0, [], .any⟩,
    ⟨0x0009, 0x0009, 0x00, .num 1 false, .rw, .stored, 1, [], .range 0 1 []⟩,
    ⟨0x000A, 0x000A, 0x00, .num 4 false, .ro, .volatile, 0, [], .any⟩,
    ⟨0x000B, 0x000B, 0x01, .num 1 false, .rw, .stored, 0, [], .range 0 1 []⟩,
    ⟨0x000B, 0x000B, 0x02, .num 1 false, .rw, .stored, 8, [], .any⟩,
    ⟨0x000B, 0x000B, 0x03, .num 2 false, .rw, .stored, 1024, [], .any⟩,
    ⟨0x0100, 0x0100, 0x01, .num 2 false, .rw, .stored, 65535, [], .any⟩,
    ⟨0x0101, 0x010F, 0x01, .num 2 false, .rw, .stored, 0, [], .any⟩,
    ⟨0x0100, 0x010F, 0x02, .num 1 false, .rw, .stored, 0, [], .oneOf [0, 1]⟩,
    ⟨0x0200, 0x020F, 0x01, .num 1 false, .rw, .stored, 0, [], .range 0 15 []⟩,
    ⟨0x0200, 0x020F, 0x02, .num 2 false, .rw, .stored, 0, [], .any⟩] ++
  [
    ⟨0x0200, 0x020F, 0x03, .num 2 false, .rw, .stored, 16384, [], .any⟩,
    ⟨0x0200, 0x020F, 0x04, .num 1 false, .rw, .stored, 8, [], .range 0 15 []⟩,
    ⟨0x0200, 0x020F, 0x05, .num 2 false, .ro, .volatile, 0, [], .any⟩,
    ⟨0x0200, 0x020F, 0x06, .num 4 false, .ro, .volatile, 0, [], .any⟩,
    ⟨0x0300, 0x0300, 0x01, .num 4 false, .rw, .volatile, 0, [], .any⟩,
    ⟨0x0300, 0x0300, 0x02, .num 1 false, .rw, .volatile, 255, [], .any⟩,
    ⟨0x0300, 0x0300, 0x03, .num 2 false, .rw, .volatile, 65535, [], .any⟩,
    ⟨0x0300, 0x0300, 0x04, .num 1 false, .wo, .volatile, 0, [], .oneOf [1]⟩,
    ⟨0x0300, 0x0300, 0x05, .num 1 false, .ro, .volatile, 0, [], .oneOf [0, 1, 2, 3, 4, 5, 6]⟩,
    ⟨0x1001, 0x1FFF, 0x01, .num 1 false, .rw, .stored, 0, [], .oneOf [0, 1, 2]⟩,
    ⟨0x1001, 0x1FFF, 0x02, .num 2 false, .rw, .stored, 0, [], .any⟩]

/-- The rows of area 0x22. -/
def objArea22 : List ObjDesc := 
  [
    ⟨0x0000, 0x0000, 0x00, .num 4 false, .ro, .volatile, 65536, [], .any⟩,
    ⟨0x0001, 0x0001, 0x00, .num 4 false, .ro, .volatile, 0, [], .any⟩,
    ⟨0x0002, 0x0002, 0x00, .num 2 false, .rw, .stored, 1024, [], .multiple 32 4096⟩,
    ⟨0x0003, 0x0003, 0x01, .num 2 false, .ro, .volatile, 0, [], .range 0 3 []⟩,
    ⟨0x0003, 0x0003, 0x02, .num 2 false, .ro, .volatile, 0, [], .range 0 3 []⟩,
    ⟨0x0003, 0x0003, 0x03, .num 2 false, .ro, .volatile, 0, [], .range 0 3 []⟩,
    ⟨0x0003, 0x0003, 0x04, .num 2 false, .ro, .volatile, 0, [], .range 0 3 []⟩,
    ⟨0x0004, 0x0004, 0x00, .num 2 false, .ro, .volatile, 0, [], .any⟩,
    ⟨0x0005, 0x0005, 0x01, .num 4 false, .ro, .volatile, 0, [], .any⟩,
    ⟨0x0005, 0x0005, 0x02, .num 4 false, .ro, .volatile, 0, [], .any⟩,
    ⟨0x0005, 0x0005, 0x03, .num 4 false, .ro, .volatile, 0, [], .any⟩,
    ⟨0x1000, 0x1FFF, 0x01, .bytes (.exact 4128), .rw, .volatile, 0, [], .any⟩,
    ⟨0x1000, 0x1FFF, 0x02, .num 1 false, .wo, .volatile, 0, [], .oneOf [1, 2]⟩,
    ⟨0x1000, 0x1FFF, 0x03, .num 1 false, .ro, .volatile, 0, [], .oneOf []⟩,
    ⟨0x1000, 0x1FFF, 0x04, .num 1 false, .ro, .volatile, 0, [], .oneOf []⟩,
    ⟨0x1000, 0x1FFF, 0x05, .num 1 false, .ro, .volatile, 255, [], .any⟩,
    ⟨0x2000, 0x2FFF, 0x01, .bytes (.exact 1024), .rw, .volatile, 0, [], .any⟩,
    ⟨0x2000, 0x2FFF, 0x02, .num 1 false, .wo, .volatile, 0, [], .oneOf [1, 2]⟩,
    ⟨0x2000, 0x2FFF, 0x03, .num 1 false, .ro, .volatile, 0, [], .oneOf []⟩,
    ⟨0x2000, 0x2FFF, 0x04, .num 1 false, .ro, .volatile, 0, [], .oneOf []⟩,
    ⟨0x2000, 0x2FFF, 0x05, .num 8 false, .ro, .volatile, 0, [], .any⟩,
    ⟨0x3000, 0x3FFF, 0x01, .bytes (.exact 128), .rw, .stored, 0, [], .any⟩,
    ⟨0x3000, 0x3FFF, 0x02, .num 1 false, .rw, .stored, 0, [], .range 0 3 []⟩,
    ⟨0x3000, 0x3FFF, 0x03, .num 1 false, .rw, .stored, 0, [], .range 0 1 []⟩,
    ⟨0x3000, 0x3FFF, 0x04, .num 2 true, .ro, .volatile, 0, [], .any⟩,
    ⟨0x3000, 0x3FFF, 0x05, .num 1 false, .rw, .stored, 255, [], .range 0 15 [255]⟩,
    ⟨0x4000, 0x401F, 0x01, .num 1 false, .rw, .stored, 0, [], .oneOf [0, 1, 2]⟩,
    ⟨0x4000, 0x401F, 0x02, .num 2 false, .rw, .stored, 32768, [], .any⟩,
    ⟨0x4000, 0x401F, 0x03, .num 1 false, .rw, .stored, 0, [], .oneOf [0, 1]⟩,
    ⟨0x4100, 0x4102, 0x01, .bytes (.exact 512), .rw, .stored, 0, zeros 512, .any⟩] ++
  [
    ⟨0x4100, 0x4102, 0x02, .bytes (.exact 512), .rw, .stored, 0, zeros 512, .any⟩,
    ⟨0x4100, 0x4102, 0x03, .num 1 false, .rw, .stored, 0, [], .oneOf [0, 1]⟩,
    ⟨0x4200, 0x427F, 0x01, .num 1 false, .rw, .stored, 0, [], .oneOf [0, 1, 2]⟩,
    ⟨0x4200, 0x427F, 0x02, .num 2 false, .rw, .stored, 64, [], .any⟩,
    ⟨0x4200, 0x427F, 0x03, .num 2 false, .rw, .stored, 1000, [], .any⟩,
    ⟨0x4300, 0x43FF, 0x01, .num 1 false, .rw, .stored, 1, [], .oneOf [1, 2]⟩,
    ⟨0x4300, 0x43FF, 0x02, .num 1 false, .rw, .stored, 0, [], .oneOf [0, 1]⟩]

/-- The rows of area 0x30. -/
def objArea30 : List ObjDesc := 
  [
    ⟨0x0000, 0x0000, 0x00, .num 2 false, .ro, .volatile, 10416, [], .any⟩,
    ⟨0x0001, 0x0001, 0x00, .num 2 false, .ro, .volatile, 4352, [], .any⟩,
    ⟨0x0002, 0x0002, 0x00, .num 2 false, .ro, .volatile, 5744, [], .any⟩,
    ⟨0x0010, 0x0010, 0x01, .bytes (.upTo 4194880), .rw, .volatile, 0, [], .any⟩,
    ⟨0x0010, 0x0010, 0x02, .num 1 false, .wo, .volatile, 0, [], .oneOf [1, 2]⟩,
    ⟨0x0010, 0x0010, 0x03, .num 1 false, .ro, .volatile, 0, [], .oneOf [0, 1, 2, 3]⟩,
    ⟨0x0010, 0x0010, 0x04, .num 1 false, .ro, .volatile, 0, [], .oneOf [0]⟩,
    ⟨0x0010, 0x0010, 0x05, .num 2 false, .ro, .volatile, 0, [], .any⟩,
    ⟨0x0010, 0x0010, 0x06, .num 8 false, .ro, .volatile, 0, [], .any⟩,
    ⟨0x0011, 0x0011, 0x01, .num 2 false, .ro, .volatile, 1, [], .any⟩,
    ⟨0x0011, 0x0011, 0x02, .num 8 false, .ro, .volatile, 0, [], .any⟩,
    ⟨0x0020, 0x0020, 0x01, .num 2 false, .rw, .stored, 0, [], .any⟩,
    ⟨0x0020, 0x0020, 0x02, .num 2 false, .ro, .volatile, 1, [], .any⟩,
    ⟨0x0030, 0x0030, 0x01, .num 4 false, .ro, .volatile, 0, [], .any⟩,
    ⟨0x0030, 0x0030, 0x02, .num 4 false, .ro, .volatile, 0, [], .any⟩,
    ⟨0x0030, 0x0030, 0x03, .num 4 false, .ro, .volatile, 0, [], .any⟩,
    ⟨0x0030, 0x0030, 0x04, .num 4 false, .ro, .volatile, 0, [], .any⟩,
    ⟨0x0030, 0x0030, 0x05, .num 4 false, .ro, .volatile, 0, [], .any⟩,
    ⟨0x0030, 0x0030, 0x06, .num 4 false, .ro, .volatile, 0, [], .any⟩,
    ⟨0x0030, 0x0030, 0x07, .num 4 false, .ro, .volatile, 0, [], .any⟩,
    ⟨0x0030, 0x0030, 0x08, .num 4 false, .ro, .volatile, 0, [], .any⟩,
    ⟨0x0030, 0x0030, 0x09, .num 4 false, .ro, .volatile, 0, [], .any⟩,
    ⟨0x0030, 0x0030, 0x0A, .num 4 false, .ro, .volatile, 0, [], .any⟩,
    ⟨0x1000, 0x2FFF, 0x01, .num 4 true, .ro, .volatile, 0, [], .any⟩,
    ⟨0x1000, 0x2FFF, 0x02, .num 4 true, .ro, .volatile, 0, [], .any⟩,
    ⟨0x1000, 0x2FFF, 0x03, .num 4 false, .ro, .volatile, 0, [], .any⟩,
    ⟨0x3000, 0x33FF, 0x01, .num 4 false, .ro, .volatile, 0, [], .any⟩,
    ⟨0x4000, 0x41FF, 0x01, .num 1 false, .rw, .volatile, 0, [], .oneOf [0, 1, 2]⟩,
    ⟨0x4000, 0x41FF, 0x02, .num 2 false, .rw, .volatile, 65535, [], .range 0 1023 [65535]⟩,
    ⟨0x4000, 0x41FF, 0x03, .num 4 false, .ro, .volatile, 0, [], .any⟩] ++
  [
    ⟨0x4000, 0x41FF, 0x04, .num 1 false, .ro, .volatile, 0, [], .oneOf [0, 1, 2, 6]⟩,
    ⟨0x5000, 0x50FF, 0x01, .bytes (.exact 1056), .rw, .volatile, 0, [], .any⟩,
    ⟨0x5000, 0x50FF, 0x02, .num 1 false, .wo, .volatile, 0, [], .oneOf [1, 2]⟩,
    ⟨0x5000, 0x50FF, 0x03, .num 1 false, .ro, .volatile, 0, [], .oneOf [0, 1, 2, 3, 4]⟩,
    ⟨0x5000, 0x50FF, 0x04, .num 1 false, .ro, .volatile, 0, [], .oneOf [0]⟩,
    ⟨0x5000, 0x50FF, 0x05, .num 8 false, .ro, .volatile, 0, [], .any⟩,
    ⟨0x0040, 0x0040, 0x01, .num 1 false, .rw, .volatile, 0, [], .oneOf [0, 1, 2]⟩,
    ⟨0x0040, 0x0040, 0x02, .num 2 false, .rw, .stored, 20, [], .range 1 2000 []⟩,
    ⟨0x0040, 0x0040, 0x03, .num 2 false, .rw, .stored, 5, [], .range 0 500 []⟩,
    ⟨0x0040, 0x0040, 0x04, .num 8 false, .rw, .volatile, 0, [], .any⟩,
    ⟨0x0040, 0x0040, 0x05, .num 1 false, .wo, .volatile, 0, [], .oneOf [1, 2]⟩,
    ⟨0x0040, 0x0040, 0x06, .num 1 false, .ro, .volatile, 0, [], .oneOf [0, 1, 2, 3, 4, 5]⟩,
    ⟨0x0040, 0x0040, 0x07, .num 1 false, .ro, .volatile, 0, [], .oneOf [0, 5, 7, 8, 9]⟩,
    ⟨0x0040, 0x0040, 0x08, .num 2 false, .ro, .volatile, 0, [], .any⟩,
    ⟨0x0040, 0x0040, 0x09, .num 8 false, .ro, .volatile, 0, [], .any⟩,
    ⟨0x0040, 0x0040, 0x0A, .num 8 false, .ro, .volatile, 0, [], .any⟩,
    ⟨0x0030, 0x0030, 0x0B, .num 4 false, .ro, .volatile, 0, [], .any⟩]

/-- The rows of area 0x31. -/
def objArea31 : List ObjDesc := 
  [
    ⟨0x0000, 0x0000, 0x01, .num 4 false, .ro, .volatile, 0, [], .any⟩,
    ⟨0x1000, 0x10FF, 0x01, .num 1 false, .rws, .volatile, 0, [], .oneOf [0, 1]⟩,
    ⟨0x1000, 0x10FF, 0x02, .num 2 true, .rws, .volatile, 65336, [], .range (-800) 480 []⟩,
    ⟨0x1000, 0x10FF, 0x03, .num 2 false, .rws, .volatile, 40, [], .range 10 1000 [0]⟩,
    ⟨0x1000, 0x10FF, 0x04, .num 1 false, .rws, .volatile, 0, [], .range 0 240 []⟩,
    ⟨0x1000, 0x10FF, 0x05, .num 4 false, .rws, .volatile, 10000, [], .range 10 500000 []⟩,
    ⟨0x1000, 0x10FF, 0x06, .num 2 false, .rws, .volatile, 200, [], .range 1 5000 []⟩,
    ⟨0x1000, 0x10FF, 0x07, .num 1 false, .rws, .volatile, 0, [], .oneOf [0, 1]⟩,
    ⟨0x1000, 0x10FF, 0x08, .num 2 true, .rws, .volatile, 0, [], .range (-240) 240 []⟩,
    ⟨0x1000, 0x10FF, 0x09, .num 1 false, .rw, .volatile, 0, [], .range 0 128 []⟩,
    ⟨0x1000, 0x10FF, 0x0A, .num 1 false, .rw, .volatile, 0, [], .oneOf [0, 1]⟩,
    ⟨0x1000, 0x10FF, 0x0B, .num 2 false, .rw, .volatile, 65535, [], .any⟩,
    ⟨0x1000, 0x10FF, 0x0C, .num 2 true, .ro, .volatile, 0, [], .any⟩,
    ⟨0x2000, 0x207F, 0x01, .num 2 true, .rws, .stored, 65533, [], .range (-240) 0 []⟩,
    ⟨0x2000, 0x207F, 0x02, .num 2 false, .rws, .stored, 100, [], .range 1 5000 []⟩,
    ⟨0x2000, 0x207F, 0x03, .num 2 true, .ro, .volatile, 0, [], .any⟩,
    ⟨0x2000, 0x207F, 0x04, .num 4 false, .ro, .volatile, 0, [], .any⟩,
    ⟨0x3000, 0x33FF, 0x01, .num 2 true, .rws, .stored, 65533, [], .range (-240) 0 []⟩,
    ⟨0x3000, 0x33FF, 0x02, .num 2 false, .rws, .stored, 100, [], .range 1 5000 []⟩,
    ⟨0x3000, 0x33FF, 0x03, .num 2 true, .ro, .volatile, 0, [], .any⟩,
    ⟨0x3000, 0x33FF, 0x04, .num 4 false, .ro, .volatile, 0, [], .any⟩]

/-- The rows of area 0x40. -/
def objArea40 : List ObjDesc := 
  [
    ⟨0x0000, 0x0000, 0x00, .num 1 false, .ro, .volatile, 0, [], .any⟩,
    ⟨0x0001, 0x0001, 0x00, .num 8 false, .rw, .stored, 8589934592, [], .any⟩,
    ⟨0x0002, 0x0002, 0x00, .num 8 false, .rw, .stored, 4294967296, [], .any⟩,
    ⟨0x0003, 0x0003, 0x00, .num 8 false, .rw, .stored, 2147483648, [], .any⟩,
    ⟨0x0004, 0x0004, 0x00, .num 1 false, .rw, .stored, 2, [], .range 1 8 []⟩,
    ⟨0x0005, 0x0005, 0x00, .num 2 false, .ro, .volatile, 32768, [], .any⟩,
    ⟨0x0006, 0x0006, 0x01, .num 4 false, .ro, .volatile, 0, [], .any⟩,
    ⟨0x0006, 0x0006, 0x02, .num 4 false, .ro, .volatile, 0, [], .any⟩,
    ⟨0x0006, 0x0006, 0x03, .num 4 false, .ro, .volatile, 0, [], .any⟩,
    ⟨0x0006, 0x0006, 0x04, .num 4 false, .ro, .volatile, 0, [], .any⟩,
    ⟨0x0006, 0x0006, 0x05, .num 4 false, .ro, .volatile, 0, [], .any⟩,
    ⟨0x0006, 0x0006, 0x06, .num 4 false, .ro, .volatile, 0, [], .any⟩,
    ⟨0x0006, 0x0006, 0x07, .num 4 false, .ro, .volatile, 0, [], .any⟩,
    ⟨0x0006, 0x0006, 0x08, .num 4 false, .ro, .volatile, 0, [], .any⟩,
    ⟨0x0100, 0x010B, 0x01, .num 1 false, .ro, .volatile, 0, [], .oneOf [0, 1, 2, 3, 4]⟩,
    ⟨0x0100, 0x010B, 0x02, .num 2 false, .ro, .volatile, 0, [], .any⟩,
    ⟨0x0100, 0x010B, 0x03, .num 1 false, .ro, .volatile, 0, [], .any⟩,
    ⟨0x0100, 0x010B, 0x04, .bytes .readOnly, .ro, .volatile, 0, [], .any⟩,
    ⟨0x0100, 0x010B, 0x05, .num 4 false, .ro, .retained, 0, [], .any⟩,
    ⟨0x0100, 0x010B, 0x06, .num 1 false, .rw, .retained, 0, [], .range 0 1 []⟩,
    ⟨0x0200, 0x020F, 0x01, .num 1 false, .rw, .stored, 255, [], .range 0 11 [255]⟩,
    ⟨0x0200, 0x020F, 0x02, .num 4 false, .rw, .stored, 0, [], .any⟩,
    ⟨0x0200, 0x020F, 0x03, .num 2 false, .rw, .stored, 65535, [], .any⟩,
    ⟨0x0200, 0x020F, 0x04, .num 1 false, .rw, .stored, 0, [], .oneOf [0, 1, 3]⟩,
    ⟨0x0200, 0x020F, 0x05, .num 1 false, .ro, .volatile, 0, [], .oneOf [0, 1, 2, 3, 4, 5, 6]⟩,
    ⟨0x0200, 0x020F, 0x06, .num 1 false, .ro, .volatile, 0, [], .oneOf []⟩,
    ⟨0x0200, 0x020F, 0x07, .num 8 false, .ro, .volatile, 0, [], .any⟩,
    ⟨0x0200, 0x020F, 0x08, .num 8 false, .ro, .volatile, 0, [], .any⟩,
    ⟨0x0200, 0x020F, 0x09, .num 8 false, .ro, .volatile, 0, [], .any⟩,
    ⟨0x0200, 0x020F, 0x0A, .num 1 false, .rw, .stored, 0, [], .range 0 1 []⟩] ++
  [
    ⟨0x0200, 0x020F, 0x0B, .num 1 false, .rw, .stored, 1, [], .range 0 1 []⟩,
    ⟨0x0200, 0x020F, 0x0C, .num 4 false, .ro, .volatile, 0, [], .any⟩,
    ⟨0x0300, 0x0300, 0x01, .num 1 false, .rw, .volatile, 255, [], .any⟩,
    ⟨0x0300, 0x0300, 0x02, .num 4 false, .rw, .volatile, 0, [], .any⟩,
    ⟨0x0300, 0x0300, 0x03, .bytes (.exact 64), .rw, .volatile, 0, [], .any⟩,
    ⟨0x0300, 0x0300, 0x04, .bytes (.upTo 4294967295), .wo, .volatile, 0, [], .any⟩,
    ⟨0x0300, 0x0300, 0x05, .num 1 false, .wo, .volatile, 0, [], .oneOf [1, 2, 3]⟩,
    ⟨0x0300, 0x0300, 0x06, .num 1 false, .ro, .volatile, 0, [], .oneOf [0, 1, 2, 3, 4, 5, 6]⟩]

/-- The rows of area 0x50. -/
def objArea50 : List ObjDesc := 
  [
    ⟨0x1000, 0x1001, 0x01, .num 1 false, .rw, .stored, 1, [], .range 0 1 []⟩,
    ⟨0x1000, 0x1001, 0x02, .num 1 false, .ro, .volatile, 0, [], .oneOf [0, 1, 2, 3, 4, 5, 6, 7, 8]⟩,
    ⟨0x1000, 0x1001, 0x03, .num 1 false, .ro, .volatile, 0, [], .any⟩,
    ⟨0x1000, 0x1001, 0x04, .num 1 false, .ro, .volatile, 0, [], .oneOf [0, 1, 2, 3, 4, 5, 6]⟩,
    ⟨0x1000, 0x1001, 0x05, .bytes .readOnly, .ro, .volatile, 0, zeros 16, .any⟩,
    ⟨0x1000, 0x1001, 0x06, .num 4 false, .ro, .volatile, 0, [], .any⟩,
    ⟨0x1000, 0x1001, 0x07, .num 2 true, .rw, .stored, 0, [], .any⟩,
    ⟨0x1000, 0x1001, 0x08, .num 1 false, .ro, .volatile, 0, [], .any⟩,
    ⟨0x1000, 0x1001, 0x09, .num 2 false, .ro, .volatile, 0, [], .any⟩,
    ⟨0x1000, 0x1001, 0x0A, .num 1 false, .ro, .volatile, 0, [], .range 0 1 []⟩,
    ⟨0x1000, 0x1001, 0x0B, .num 1 false, .ro, .volatile, 0, [], .range 0 1 []⟩,
    ⟨0x1000, 0x1001, 0x0C, .num 1 false, .rw, .retained, 0, [], .range 0 1 []⟩,
    ⟨0x1000, 0x1001, 0x0D, .num 1 false, .wo, .volatile, 0, [], .oneOf [1]⟩,
    ⟨0x1000, 0x1001, 0x10, .num 4 false, .ro, .volatile, 0, [], .any⟩,
    ⟨0x1000, 0x1001, 0x11, .num 4 false, .ro, .volatile, 0, [], .any⟩,
    ⟨0x1000, 0x1001, 0x12, .num 4 false, .ro, .volatile, 0, [], .any⟩,
    ⟨0x1000, 0x1001, 0x13, .num 4 false, .ro, .volatile, 0, [], .any⟩,
    ⟨0x1000, 0x1001, 0x14, .num 4 false, .ro, .volatile, 0, [], .any⟩,
    ⟨0x1000, 0x1001, 0x15, .num 4 false, .ro, .volatile, 0, [], .any⟩,
    ⟨0x1100, 0x1107, 0x01, .num 1 false, .ro, .volatile, 0, [], .oneOf [0, 1, 2, 3]⟩,
    ⟨0x1100, 0x1107, 0x02, .num 1 false, .rw, .retained, 0, [], .range 0 1 []⟩,
    ⟨0x1100, 0x1107, 0x03, .num 4 false, .ro, .volatile, 0, [], .any⟩,
    ⟨0x1100, 0x1107, 0x04, .num 4 false, .ro, .retained, 0, [], .any⟩,
    ⟨0x1200, 0x1200, 0x00, .num 4 false, .ro, .volatile, 0, [], .any⟩,
    ⟨0x0000, 0x0000, 0x00, .num 1 false, .ro, .volatile, 0, [], .oneOf [0, 1, 2, 3, 4]⟩,
    ⟨0x0001, 0x0001, 0x00, .num 1 false, .rw, .stored, 255, [], .range 0 127 [255]⟩,
    ⟨0x0002, 0x0002, 0x00, .num 1 false, .ro, .retained, 255, [], .any⟩,
    ⟨0x0003, 0x0003, 0x00, .num 1 false, .ro, .volatile, 0, [], .any⟩,
    ⟨0x0004, 0x0004, 0x00, .num 4 false, .ro, .volatile, 0, [], .any⟩,
    ⟨0x0005, 0x0005, 0x00, .bytes .readOnly, .ro, .volatile, 0, [], .any⟩] ++
  [
    ⟨0x0006, 0x0006, 0x00, .num 1 false, .ro, .volatile, 0, [], .oneOf [0, 1, 2]⟩,
    ⟨0x0007, 0x0007, 0x00, .num 1 false, .ro, .volatile, 255, [], .any⟩,
    ⟨0x0008, 0x0008, 0x00, .num 2 false, .ro, .volatile, 0, [], .any⟩,
    ⟨0x0010, 0x0010, 0x00, .num 4 false, .ro, .retained, 0, [], .any⟩,
    ⟨0x0011, 0x0011, 0x00, .num 8 false, .ro, .volatile, 0, [], .any⟩,
    ⟨0x0012, 0x0012, 0x00, .num 2 false, .const, .stored, Config.protocolLevel, [], .any⟩,
    ⟨0x0013, 0x0013, 0x00, .num 2 false, .const, .stored, Config.lowestLevel, [], .any⟩,
    ⟨0x0014, 0x0014, 0x00, .num 1 false, .ro, .volatile, 2, [], .any⟩,
    ⟨0x0015, 0x0015, 0x00, .num 1 false, .rw, .stored, 1, [], .range 0 1 []⟩,
    ⟨0x0016, 0x0016, 0x00, .num 1 false, .ro, .volatile, 255, [], .any⟩,
    ⟨0x0017, 0x0017, 0x00, .num 1 false, .ro, .volatile, 255, [], .any⟩,
    ⟨0x0018, 0x0018, 0x00, .num 1 false, .ro, .volatile, 255, [], .any⟩,
    ⟨0x0019, 0x0019, 0x00, .num 1 false, .rw, .stored, 1, [], .range 0 1 []⟩,
    ⟨0x001A, 0x001A, 0x00, .num 1 false, .rw, .stored, 1, [], .range 0 1 []⟩,
    ⟨0x001B, 0x001B, 0x00, .num 1 false, .rw, .stored, 3, [], .range 2 10 []⟩,
    ⟨0x0020, 0x0020, 0x00, .num 1 false, .ro, .volatile, 0, [], .any⟩,
    ⟨0x0021, 0x0021, 0x00, .num 1 false, .rw, .volatile, 0, [], .range 0 1 []⟩,
    ⟨0x0022, 0x0022, 0x00, .num 1 false, .wo, .volatile, 0, [], .oneOf [1]⟩,
    ⟨0x0023, 0x0023, 0x00, .num 1 false, .ro, .volatile, 0, [], .oneOf []⟩,
    ⟨0x0030, 0x0030, 0x01, .num 4 false, .ro, .volatile, 0, [], .any⟩,
    ⟨0x0030, 0x0030, 0x02, .num 4 false, .ro, .volatile, 0, [], .any⟩,
    ⟨0x0030, 0x0030, 0x03, .num 4 false, .ro, .volatile, 0, [], .any⟩,
    ⟨0x0030, 0x0030, 0x04, .num 4 false, .ro, .volatile, 0, [], .any⟩,
    ⟨0x0030, 0x0030, 0x05, .num 4 false, .ro, .volatile, 0, [], .any⟩,
    ⟨0x0030, 0x0030, 0x06, .num 4 false, .ro, .volatile, 0, [], .any⟩,
    ⟨0x2000, 0x2FFF, 0x01, .num 1 false, .ro, .volatile, 255, [], .any⟩,
    ⟨0x2000, 0x2FFF, 0x02, .num 1 false, .rw, .stored, 255, [], .any⟩,
    ⟨0x3000, 0x3FFF, 0x01, .bytes .readOnly, .ro, .volatile, 0, zeros 16, .any⟩]

/-- The rows of area 0x60. -/
def objArea60 : List ObjDesc := 
  [
    ⟨0x0000, 0x01FF, 0x01, .num 8 false, .rw, .volatile, 0, [], .any⟩,
    ⟨0x0000, 0x01FF, 0x02, .num 4 false, .rw, .volatile, 0, [], .any⟩,
    ⟨0x0000, 0x01FF, 0x03, .num 4 false, .rw, .volatile, 0, [], .any⟩,
    ⟨0x0000, 0x01FF, 0x04, .num 4 false, .ro, .volatile, 0, [], .any⟩,
    ⟨0x0000, 0x01FF, 0x05, .num 4 false, .ro, .volatile, 0, [], .any⟩,
    ⟨0x0000, 0x01FF, 0x06, .num 4 false, .ro, .volatile, 0, [], .any⟩,
    ⟨0x0000, 0x01FF, 0x07, .num 4 false, .rw, .retained, 0, [], .any⟩,
    ⟨0x0000, 0x01FF, 0x08, .num 4 false, .ro, .volatile, 0, [], .any⟩]

/-- The rows of area 0x70. -/
def objArea70 : List ObjDesc := 
  [
    ⟨0x0000, 0x0000, 0x00, .num 1 false, .rw, .stored, 3, [], .range 0 5 []⟩,
    ⟨0x0001, 0x0001, 0x00, .num 1 false, .rw, .stored, 32, [], .oneOf [16, 32, 64]⟩,
    ⟨0x0002, 0x0002, 0x00, .num 1 false, .rw, .stored, 0, [], .oneOf [0, 1]⟩,
    ⟨0x0003, 0x0003, 0x00, .num 1 false, .rw, .stored, 0, [], .range 0 1 []⟩,
    ⟨0x0004, 0x0004, 0x00, .num 1 false, .ro, .volatile, 0, [], .oneOf [0, 1, 2, 3, 4, 5, 6, 7]⟩,
    ⟨0x0005, 0x0005, 0x00, .num 4 false, .ro, .volatile, 0, [], .any⟩,
    ⟨0x0006, 0x0006, 0x00, .num 4 true, .ro, .volatile, 0, [], .any⟩,
    ⟨0x0007, 0x0007, 0x00, .bytes .readOnly, .ro, .retained, 0, zeros 9, .any⟩,
    ⟨0x0008, 0x0008, 0x00, .num 8 false, .ro, .retained, 0, [], .any⟩,
    ⟨0x0009, 0x0009, 0x00, .bytes .readOnly, .ro, .retained, 0, zeros 24, .any⟩,
    ⟨0x000A, 0x000A, 0x00, .num 4 true, .ro, .volatile, 0, [], .any⟩,
    ⟨0x0010, 0x0010, 0x01, .num 4 false, .ro, .volatile, 0, [], .any⟩,
    ⟨0x0010, 0x0010, 0x02, .num 4 false, .ro, .volatile, 0, [], .any⟩,
    ⟨0x0010, 0x0010, 0x03, .num 4 false, .ro, .volatile, 0, [], .any⟩,
    ⟨0x0010, 0x0010, 0x04, .num 4 false, .ro, .volatile, 0, [], .any⟩,
    ⟨0x0010, 0x0010, 0x05, .num 4 false, .ro, .volatile, 0, [], .any⟩,
    ⟨0x0010, 0x0010, 0x06, .num 4 false, .ro, .volatile, 0, [], .any⟩,
    ⟨0x0020, 0x0020, 0x01, .num 4 false, .ro, .retained, 120000, [], .any⟩,
    ⟨0x0020, 0x0020, 0x02, .num 4 false, .rw, .volatile, 120000, [], .range 20000 999999 []⟩,
    ⟨0x0020, 0x0020, 0x03, .num 8 false, .rw, .volatile, 0, [], .any⟩,
    ⟨0x0020, 0x0020, 0x04, .num 8 false, .rw, .volatile, 0, [], .any⟩,
    ⟨0x0020, 0x0020, 0x05, .num 1 false, .wo, .volatile, 0, [], .oneOf [1, 2, 3]⟩,
    ⟨0x0020, 0x0020, 0x06, .num 1 false, .ro, .volatile, 0, [], .oneOf [0, 1, 2]⟩,
    ⟨0x0020, 0x0020, 0x07, .num 8 false, .ro, .retained, 0, [], .any⟩,
    ⟨0x1000, 0x100F, 0x01, .num 1 false, .rw, .volatile, 0, [], .oneOf [0, 1, 2, 3, 4]⟩,
    ⟨0x1000, 0x100F, 0x02, .num 1 false, .rw, .volatile, 32, [], .oneOf [16, 32, 48, 64]⟩,
    ⟨0x1000, 0x100F, 0x03, .num 1 false, .rw, .volatile, 0, [], .range 0 1 []⟩,
    ⟨0x1000, 0x100F, 0x04, .num 8 false, .rw, .volatile, 0, [], .any⟩,
    ⟨0x1000, 0x100F, 0x05, .num 8 false, .rw, .volatile, 0, [], .any⟩,
    ⟨0x1000, 0x100F, 0x06, .num 8 false, .rw, .volatile, 0, [], .any⟩] ++
  [
    ⟨0x1000, 0x100F, 0x07, .num 8 false, .rw, .volatile, 0, [], .any⟩,
    ⟨0x1000, 0x100F, 0x08, .num 8 false, .rw, .volatile, 0, [], .any⟩,
    ⟨0x1000, 0x100F, 0x09, .num 1 false, .rw, .volatile, 0, [], .oneOf [0, 1, 2, 4, 5, 6, 8, 9, 10]⟩,
    ⟨0x1000, 0x100F, 0x0A, .num 1 false, .rw, .volatile, 255, [], .range 0 15 [255]⟩,
    ⟨0x1000, 0x100F, 0x0B, .num 2 false, .rw, .volatile, 65535, [], .range 0 255 [65535]⟩,
    ⟨0x1000, 0x100F, 0x0C, .num 1 false, .rw, .volatile, 1, [], .range 0 3 []⟩,
    ⟨0x1000, 0x100F, 0x0D, .num 1 false, .ro, .volatile, 0, [], .any⟩]

/-- The rows of area 0x80. -/
def objArea80 : List ObjDesc := 
  [
    ⟨0x2000, 0x2001, 0x01, .num 1 false, .rw, .stored, 0, [], .oneOf [0, 1, 2]⟩,
    ⟨0x2000, 0x2001, 0x02, .num 1 false, .rw, .stored, 0, [], .oneOf [0, 1, 2]⟩,
    ⟨0x2000, 0x2001, 0x03, .num 4 false, .rw, .stored, 500000, [], .oneOf [125000, 250000, 500000, 1000000]⟩,
    ⟨0x2000, 0x2001, 0x04, .num 2 false, .rw, .stored, 800, [], .range 500 900 []⟩,
    ⟨0x2000, 0x2001, 0x05, .num 4 false, .rw, .stored, 8000000, [], .range 1 20000000 []⟩,
    ⟨0x2000, 0x2001, 0x06, .num 2 false, .rw, .stored, 700, [], .range 500 900 []⟩,
    ⟨0x2000, 0x2001, 0x07, .num 1 false, .rw, .stored, 0, [], .range 0 1 []⟩,
    ⟨0x2000, 0x2001, 0x08, .num 1 false, .rw, .stored, 1, [], .range 1 254 []⟩,
    ⟨0x2000, 0x2001, 0x09, .num 2 false, .rw, .stored, 1025, [], .range 0 2047 []⟩,
    ⟨0x2000, 0x2001, 0x0A, .num 1 false, .rw, .stored, 225, [], .any⟩,
    ⟨0x2000, 0x2001, 0x0B, .num 1 false, .rw, .stored, 0, [], .any⟩,
    ⟨0x2000, 0x2001, 0x0C, .num 1 false, .rw, .stored, 26, [], .range 0 31 []⟩,
    ⟨0x2000, 0x2001, 0x0D, .num 1 false, .ro, .volatile, 0, [], .oneOf [0, 1, 2, 3, 4, 5, 6]⟩,
    ⟨0x2000, 0x2001, 0x0E, .num 1 false, .ro, .volatile, 0, [], .any⟩,
    ⟨0x2000, 0x2001, 0x0F, .num 1 false, .ro, .volatile, 0, [], .any⟩,
    ⟨0x2000, 0x2001, 0x10, .num 4 false, .ro, .volatile, 4294967295, [], .any⟩,
    ⟨0x2000, 0x2001, 0x11, .num 1 false, .wo, .volatile, 0, [], .oneOf [1]⟩,
    ⟨0x2000, 0x2001, 0x12, .num 1 false, .rw, .retained, 0, [], .range 0 1 []⟩,
    ⟨0x2000, 0x2001, 0x13, .num 1 false, .wo, .volatile, 0, [], .oneOf [1]⟩,
    ⟨0x2000, 0x2001, 0x14, .num 4 false, .ro, .volatile, 0, [], .any⟩,
    ⟨0x2000, 0x2001, 0x15, .num 4 false, .ro, .volatile, 0, [], .any⟩,
    ⟨0x2000, 0x2001, 0x16, .num 4 false, .ro, .volatile, 0, [], .any⟩,
    ⟨0x2000, 0x2001, 0x17, .num 4 false, .ro, .volatile, 0, [], .any⟩,
    ⟨0x2000, 0x2001, 0x18, .num 4 false, .ro, .volatile, 0, [], .any⟩,
    ⟨0x2002, 0x2002, 0x00, .num 1 false, .rw, .stored, 0, [], .oneOf [0, 1]⟩,
    ⟨0x2100, 0x217F, 0x01, .num 1 false, .rw, .stored, 2, [], .oneOf [0, 1, 2]⟩,
    ⟨0x2100, 0x217F, 0x02, .num 4 false, .rw, .stored, 0, [], .any⟩,
    ⟨0x2100, 0x217F, 0x03, .num 1 false, .rw, .stored, 0, [], .any⟩,
    ⟨0x2100, 0x217F, 0x04, .num 1 false, .rw, .stored, 0, [], .any⟩,
    ⟨0x2100, 0x217F, 0x05, .num 4 false, .rw, .stored, 0, [], .any⟩] ++
  [
    ⟨0x2100, 0x217F, 0x06, .num 1 false, .rw, .stored, 0, [], .range 0 1 []⟩,
    ⟨0x2100, 0x217F, 0x07, .num 1 false, .ro, .volatile, 0, [], .oneOf [0, 1, 2, 3, 4]⟩,
    ⟨0x1000, 0x1000, 0x01, .num 1 false, .rw, .stored, 1, [], .oneOf [0, 1, 2, 3, 4, 5, 6]⟩,
    ⟨0x1001, 0x1003, 0x01, .num 1 false, .rw, .stored, 0, [], .oneOf [0, 1, 2, 3, 4, 5, 6]⟩,
    ⟨0x1000, 0x1000, 0x02, .num 4 false, .rw, .stored, 3472, [], .any⟩,
    ⟨0x1001, 0x1003, 0x02, .num 4 false, .rw, .stored, 12800, [], .any⟩,
    ⟨0x1000, 0x1003, 0x03, .num 1 false, .rw, .stored, 3, [], .any⟩,
    ⟨0x1000, 0x1003, 0x04, .num 1 false, .rw, .stored, 1, [], .range 1 128 []⟩,
    ⟨0x1000, 0x1003, 0x05, .num 1 false, .rw, .stored, 0, [], .range 0 127 []⟩,
    ⟨0x1000, 0x1003, 0x06, .num 1 false, .rw, .stored, 0, [], .range 0 1 []⟩,
    ⟨0x1000, 0x1003, 0x07, .num 1 false, .rw, .stored, 96, [], .any⟩,
    ⟨0x1000, 0x1003, 0x08, .num 1 false, .rw, .stored, 32, [], .any⟩,
    ⟨0x1000, 0x1003, 0x09, .num 1 false, .rw, .stored, 0, [], .any⟩,
    ⟨0x1000, 0x1003, 0x0A, .num 1 false, .rw, .stored, 0xFF, [], .any⟩,
    ⟨0x1000, 0x1003, 0x0B, .num 1 false, .rw, .volatile, 0, [], .range 0 1 []⟩,
    ⟨0x1000, 0x1003, 0x0C, .num 1 false, .rw, .stored, 1, [], .range 0 15 []⟩,
    ⟨0x1000, 0x1003, 0x0D, .num 1 false, .rw, .stored, 3, [], .range 0 7 []⟩,
    ⟨0x1000, 0x1003, 0x0E, .num 1 false, .rw, .stored, 0, [], .range 0 1 []⟩,
    ⟨0x1000, 0x1003, 0x0F, .bytes (.entries 2 256), .wo, .volatile, 0, [], .any⟩,
    ⟨0x1000, 0x1003, 0x10, .bytes .readOnly, .ro, .volatile, 0, [], .any⟩,
    ⟨0x1000, 0x1003, 0x11, .num 2 false, .ro, .volatile, 0, [], .any⟩,
    ⟨0x1000, 0x1003, 0x12, .num 4 false, .ro, .volatile, 0, [], .any⟩,
    ⟨0x1000, 0x1003, 0x13, .num 4 false, .ro, .volatile, 0, [], .any⟩,
    ⟨0x1000, 0x1003, 0x14, .num 4 false, .ro, .volatile, 0, [], .any⟩,
    ⟨0x1000, 0x1003, 0x15, .num 4 false, .ro, .volatile, 0, [], .any⟩,
    ⟨0x1000, 0x1003, 0x16, .num 4 false, .ro, .volatile, 0, [], .any⟩,
    ⟨0x1000, 0x1003, 0x17, .num 4 false, .ro, .volatile, 0, [], .any⟩,
    ⟨0x1000, 0x1003, 0x20, .num 2 false, .rw, .stored, 512, [], .range 1 512 []⟩,
    ⟨0x1000, 0x1003, 0x21, .num 2 false, .rw, .stored, 176, [], .range 92 1000 []⟩,
    ⟨0x1000, 0x1003, 0x22, .num 2 false, .rw, .stored, 12, [], .range 12 1000 []⟩] ++
  [
    ⟨0x1000, 0x1003, 0x23, .num 4 false, .rw, .stored, 25000, [], .any⟩,
    ⟨0x1000, 0x1003, 0x24, .num 1 false, .rw, .stored, 0, [], .notCC⟩,
    ⟨0x1000, 0x1003, 0x25, .bytes .readOnly, .ro, .volatile, 0, [], .any⟩,
    ⟨0x1000, 0x1003, 0x26, .num 4 false, .ro, .volatile, 0, [], .any⟩,
    ⟨0x1000, 0x1003, 0x27, .bytes (.upTo 257), .wo, .volatile, 0, [], .any⟩,
    ⟨0x1000, 0x1003, 0x28, .bytes .readOnly, .ro, .volatile, 0, [], .any⟩,
    ⟨0x1000, 0x1003, 0x29, .num 1 false, .ro, .volatile, 0, [], .oneOf [0, 1, 2, 3, 4]⟩,
    ⟨0x1000, 0x1003, 0x2A, .bytes (.exact 6), .rw, .stored, 0, zeros 6, .any⟩,
    ⟨0x1000, 0x1003, 0x2B, .num 1 false, .rw, .stored, 0, [], .range 0 1 []⟩,
    ⟨0x1000, 0x1003, 0x2C, .num 1 false, .ro, .volatile, 0, [], .range 0 1 []⟩,
    ⟨0x1000, 0x1003, 0x2D, .bytes .readOnly, .ro, .volatile, 0, [], .any⟩,
    ⟨0x1000, 0x1003, 0x2E, .bytes (.upTo 257), .wo, .volatile, 0, [], .any⟩,
    ⟨0x1000, 0x1003, 0x30, .num 1 false, .rw, .stored, 255, [], .range 0 15 [255]⟩,
    ⟨0x1000, 0x1003, 0x31, .num 1 false, .rw, .stored, 0, [], .range 0 7 []⟩,
    ⟨0x1000, 0x1003, 0x32, .num 2 false, .rw, .stored, 65535, [], .any⟩,
    ⟨0x1000, 0x1003, 0x33, .num 1 false, .rw, .stored, 0, [], .range 0 15 []⟩,
    ⟨0x1000, 0x1003, 0x34, .num 2 false, .rw, .stored, 0, [], .any⟩,
    ⟨0x1000, 0x1003, 0x35, .num 1 false, .rw, .stored, 255, [], .oneOf [1, 2, 3, 255]⟩,
    ⟨0x1000, 0x1003, 0x36, .num 4 false, .ro, .volatile, 0, [], .any⟩,
    ⟨0x1000, 0x1003, 0x37, .num 4 false, .ro, .volatile, 0, [], .any⟩,
    ⟨0x3000, 0x301F, 0x01, .num 1 false, .rw, .stored, 1, [], .range 0 1 []⟩,
    ⟨0x3000, 0x301F, 0x02, .num 2 true, .rw, .stored, 0, [], .any⟩,
    ⟨0x3000, 0x301F, 0x03, .num 2 true, .rw, .stored, 0, [], .any⟩,
    ⟨0x3000, 0x301F, 0x04, .num 2 false, .ro, .volatile, 32768, [], .any⟩,
    ⟨0x3000, 0x301F, 0x05, .num 2 false, .ro, .volatile, 0, [], .any⟩,
    ⟨0x3000, 0x301F, 0x06, .num 1 false, .ro, .volatile, 0, [], .oneOf [0, 1, 2, 3]⟩,
    ⟨0x3000, 0x301F, 0x07, .num 1 false, .rw, .retained, 0, [], .range 0 1 []⟩,
    ⟨0x3000, 0x301F, 0x08, .num 1 false, .ro, .retained, 0, [], .range 0 1 []⟩,
    ⟨0x3000, 0x301F, 0x09, .num 4 false, .ro, .retained, 0, [], .any⟩,
    ⟨0x3000, 0x301F, 0x0A, .num 4 false, .ro, .volatile, 0, [], .any⟩] ++
  [
    ⟨0x3000, 0x301F, 0x0B, .num 4 false, .ro, .volatile, 0, [], .any⟩,
    ⟨0x3100, 0x3103, 0x01, .num 1 false, .rw, .stored, 1, [], .oneOf [1, 2, 4, 8]⟩,
    ⟨0x3200, 0x3200, 0x01, .num 2 false, .rw, .stored, 64, [], .range 8 4096 []⟩,
    ⟨0x3200, 0x3200, 0x02, .num 2 false, .rw, .stored, 100, [], .range 10 900 []⟩,
    ⟨0x4000, 0x400F, 0x01, .num 1 false, .rw, .stored, 1, [], .range 0 1 []⟩,
    ⟨0x4000, 0x400F, 0x02, .num 2 true, .ro, .volatile, 0, [], .any⟩,
    ⟨0x4000, 0x400F, 0x03, .num 1 false, .rw, .stored, 0, [], .oneOf [0, 1, 2]⟩,
    ⟨0x4000, 0x400F, 0x04, .num 1 false, .rw, .stored, 255, [], .range 0 15 [255]⟩,
    ⟨0x4000, 0x400F, 0x05, .num 1 false, .rw, .stored, 0, [], .range 0 7 []⟩,
    ⟨0x4000, 0x400F, 0x06, .num 2 false, .rw, .stored, 0, [], .any⟩,
    ⟨0x4000, 0x400F, 0x07, .num 2 false, .rw, .stored, 256, [], .range 1 65535 []⟩,
    ⟨0x4000, 0x400F, 0x08, .num 4 false, .ro, .volatile, 0, [], .any⟩,
    ⟨0x5000, 0x5007, 0x01, .num 1 false, .rw, .stored, 0, [], .oneOf [0, 1, 2]⟩,
    ⟨0x5000, 0x5007, 0x02, .num 1 false, .rw, .stored, 0, [], .oneOf [0, 1]⟩,
    ⟨0x5000, 0x5007, 0x03, .num 1 false, .ro, .volatile, 0, [], .oneOf [0, 1, 2, 3]⟩,
    ⟨0x5000, 0x5007, 0x04, .num 4 false, .ro, .volatile, 0, [], .any⟩]

/-- The rows of area 0x90. -/
def objArea90 : List ObjDesc := 
  [
    ⟨0x0000, 0x0000, 0x00, .bytes .readOnly, .ro, .volatile, 0, [], .any⟩,
    ⟨0x0001, 0x0001, 0x00, .num 4 false, .ro, .volatile, 0, [], .any⟩,
    ⟨0x0002, 0x0002, 0x00, .bytes .readOnly, .ro, .volatile, 0, [], .any⟩,
    ⟨0x0003, 0x0003, 0x00, .bytes .readOnly, .ro, .volatile, 0, [], .any⟩,
    ⟨0x0004, 0x0004, 0x00, .num 1 false, .ro, .retained, 0, [], .oneOf [0, 1, 2, 3, 4]⟩,
    ⟨0x0005, 0x0005, 0x00, .num 8 false, .ro, .retained, 0, [], .any⟩,
    ⟨0x0010, 0x0010, 0x00, .num 1 false, .wo, .volatile, 0, [], .oneOf [1, 2]⟩,
    ⟨0x0100, 0x010F, 0x00, .num 1 false, .wo, .volatile, 0, [], .oneOf [1]⟩,
    ⟨0x0200, 0x02FF, 0x00, .num 1 false, .wo, .volatile, 0, [], .oneOf [1]⟩,
    ⟨0x0020, 0x0020, 0x01, .num 4 false, .ro, .volatile, 32736, [], .any⟩,
    ⟨0x0020, 0x0020, 0x02, .num 4 false, .ro, .volatile, 0, [], .any⟩,
    ⟨0x0020, 0x0020, 0x03, .num 4 false, .ro, .volatile, 0, [], .any⟩,
    ⟨0x0020, 0x0020, 0x04, .num 4 false, .ro, .retained, 0, [], .any⟩,
    ⟨0x0030, 0x0030, 0x01, .num 2 false, .rw, .stored, 100, [], .range 10 1000 []⟩,
    ⟨0x0030, 0x0030, 0x02, .num 4 false, .ro, .retained, 0, [], .any⟩,
    ⟨0x1000, 0x100F, 0x01, .bytes .readOnly, .ro, .volatile, 0, [], .any⟩,
    ⟨0x1000, 0x100F, 0x02, .num 4 false, .ro, .volatile, 0, [], .any⟩,
    ⟨0x1000, 0x100F, 0x03, .num 1 false, .wo, .volatile, 0, [], .oneOf [1]⟩,
    ⟨0x1000, 0x100F, 0x04, .num 1 false, .ro, .volatile, 0, [], .oneOf [0, 1, 2]⟩,
    ⟨0x1000, 0x100F, 0x05, .num 4 false, .ro, .volatile, 0, [], .any⟩]

/-- The rows of area 0xA0. -/
def objAreaA0 : List ObjDesc := 
  [
    ⟨0x1000, 0x1000, 0x00, .num 1 false, .ro, .volatile, 0, [], .oneOf [0, 1, 2, 3]⟩,
    ⟨0x1001, 0x1001, 0x00, .num 4 false, .ro, .retained, 0, [], .any⟩,
    ⟨0x1002, 0x1002, 0x00, .num 1 false, .ro, .retained, 0, [], .any⟩,
    ⟨0x1003, 0x1003, 0x00, .num 8 false, .ro, .retained, 0, [], .any⟩,
    ⟨0x0000, 0x0000, 0x00, .num 1 false, .ro, .stored, Config.lifecycleState, [], .oneOf [0, 1, 2, 3, 4]⟩,
    ⟨0x0001, 0x0001, 0x00, .num 1 false, .wo, .volatile, 0, [], .oneOf [1, 2, 3, 4]⟩,
    ⟨0x0002, 0x0002, 0x00, .bytes (.exact 96), .wo, .volatile, 0, [], .any⟩,
    ⟨0x0003, 0x0003, 0x00, .num 1 false, .ro, .retained, Config.lifecycleState, [], .oneOf []⟩,
    ⟨0x0010, 0x0010, 0x00, .num 1 false, .rw, .stored, 0, [], .oneOf [0, 8]⟩,
    ⟨0x0020, 0x0020, 0x01, .bytes (.exact 44), .wo, .volatile, 0, [], .any⟩,
    ⟨0x0020, 0x0020, 0x02, .num 4 false, .wo, .volatile, 0, [], .any⟩,
    ⟨0x0020, 0x0020, 0x03, .bytes .readOnly, .ro, .volatile, 0, zeros 9, .any⟩,
    ⟨0x0020, 0x0020, 0x04, .num 2 false, .ro, .volatile, 0, [], .any⟩]

/-- The rows of an area; an area no table names has none. -/
def objArea : Nat → List ObjDesc
  | 0x00 => objArea00
  | 0x01 => objArea01
  | 0x10 => objArea10
  | 0x20 => objArea20
  | 0x21 => objArea21
  | 0x22 => objArea22
  | 0x30 => objArea30
  | 0x31 => objArea31
  | 0x40 => objArea40
  | 0x50 => objArea50
  | 0x60 => objArea60
  | 0x70 => objArea70
  | 0x80 => objArea80
  | 0x90 => objArea90
  | 0xA0 => objAreaA0
  | _ => []

/-- The area of an object number (R8). -/
def objAreaOf (o : Nat) : Nat := o / 0x1000000 % 256

/-- The index of an object number. -/
def objIndexOf (o : Nat) : Nat := o / 256 % 0x10000

/-- The sub-index of an object number. -/
def objSubOf (o : Nat) : Nat := o % 256

/-- The thread-0 indices of the thread table are unassigned (R230, R420). -/
def objUnassigned (o : Nat) : Bool :=
  objAreaOf o == 0x01 && decide (0x1800 ≤ objIndexOf o) && decide (objIndexOf o ≤ 0x1BFF) && objIndexOf o % 4 == 0

/-- The row that covers an object number. -/
def objFind (o : Nat) : Option ObjDesc :=
  if objUnassigned o then none else
    (objArea (objAreaOf o)).find? (fun d =>
      d.sub == objSubOf o && decide (d.lo ≤ objIndexOf o) && decide (objIndexOf o ≤ d.hi))

/-- Does some row cover the area and index of an object number (R420)? -/
def objIndexAssigned (o : Nat) : Bool :=
  !objUnassigned o && ((objArea (objAreaOf o)).any (fun d =>
    decide (d.lo ≤ objIndexOf o) && decide (objIndexOf o ≤ d.hi)))

/-- The value an object of number type holds when nothing has been written to it. Entry 1, DESIGN CHOICE. -/
def objDflt (o : Nat) : Nat := match objFind o with | some d => d.dflt | none => 0

/-- The octets an object of string type holds when nothing has been written to it. -/
def objDfltBytes (o : Nat) : List Byte := match objFind o with | some d => d.dbytes | none => []

/-- The octets of a number object. -/
def objWidth (o : Nat) : Nat := match objFind o with
  | some d => (match d.kind with | .num n _ => n | .bytes _ => 0)
  | none => 0

/-- Is `z` a valid value (R417)? -/
def Check.ok : Check → Int → Bool
  | .any, _ => true
  | .oneOf vs, z => vs.contains z
  | .range lo hi also, z => (decide (lo ≤ z) && decide (z ≤ hi)) || also.contains z
  | .multiple k max, z => decide (z % k = 0) && decide (0 ≤ z) && decide (z ≤ max)
  | .notCC, z => decide (z ≠ 0xCC)
  | .warn, z => decide (60 ≤ z) && decide (z ≤ (if Config.grade = 1 then 105 else 95))

/-- Is `n` an accepted length (R417)? -/
def Length.ok : Length → Nat → Bool
  | .readOnly, _ => true
  | .exact m, n => n == m
  | .upTo m, n => decide (n ≤ m)
  | .entries k m, n => decide (n % k = 0) && decide (n ≤ m)

namespace Obj

/-- Identity.Vendor (R5). -/
def identityVendor : Nat := 0x00000000
/-- Identity.Part (R5). -/
def identityPart : Nat := 0x00000100
/-- Identity.Stepping (R5). -/
def identityStepping : Nat := 0x00000200
/-- Identity.Grade (R5). -/
def identityGrade : Nat := 0x00000300
/-- Identity.Serial (R5). -/
def identitySerial : Nat := 0x00000400
/-- Identity.FirmwareVersion (R5). -/
def identityFirmwareVersion : Nat := 0x00000500
/-- Identity.ChipNumber (R5). -/
def identityChipNumber : Nat := 0x00000600
/-- Templates.Committed (R57). -/
def templatesCommitted : Nat := 0x20000000
/-- Layers.Committed (R57). -/
def layersCommitted : Nat := 0x20000100
/-- Templates.MaxVersions (R57). -/
def templatesMaxVersions : Nat := 0x20000200
/-- Template.Image (R57) of unit `n`. -/
def templateImage (n : Nat) : Nat := 0x20100001 + 256 * n
/-- Template.Commit (R57) of unit `n`. -/
def templateCommit (n : Nat) : Nat := 0x20100002 + 256 * n
/-- Template.Status (R57) of unit `n`. -/
def templateStatus (n : Nat) : Nat := 0x20100003 + 256 * n
/-- Template.Result (R57) of unit `n`. -/
def templateResult (n : Nat) : Nat := 0x20100004 + 256 * n
/-- Template.Cost (R57) of unit `n`. -/
def templateCost (n : Nat) : Nat := 0x20100005 + 256 * n
/-- Template.Weight (R57) of unit `n`. -/
def templateWeight (n : Nat) : Nat := 0x20100006 + 256 * n
/-- Template.Owner (R57) of unit `n`. -/
def templateOwner (n : Nat) : Nat := 0x20100007 + 256 * n
/-- Template.ImageHash (R57) of unit `n`. -/
def templateImageHash (n : Nat) : Nat := 0x20100008 + 256 * n
/-- Template.Versions (R57) of unit `n`. -/
def templateVersions (n : Nat) : Nat := 0x20100009 + 256 * n
/-- Layer.Image (R57) of unit `n`. -/
def layerImage (n : Nat) : Nat := 0x20200001 + 256 * n
/-- Layer.Commit (R57) of unit `n`. -/
def layerCommit (n : Nat) : Nat := 0x20200002 + 256 * n
/-- Layer.Status (R57) of unit `n`. -/
def layerStatus (n : Nat) : Nat := 0x20200003 + 256 * n
/-- Layer.Result (R57) of unit `n`. -/
def layerResult (n : Nat) : Nat := 0x20200004 + 256 * n
/-- Layer.Owner (R57) of unit `n`. -/
def layerOwner (n : Nat) : Nat := 0x20200005 + 256 * n
/-- Layer.ImageHash (R57) of unit `n`. -/
def layerImageHash (n : Nat) : Nat := 0x20200006 + 256 * n
/-- Hawk.StealReserve (R105). -/
def hawkStealReserve : Nat := 0x21000000
/-- Hawk.FeatherTime (R105). -/
def hawkFeatherTime : Nat := 0x21000100
/-- Hawk.ScoreWeight.Class (R105). -/
def hawkScoreWeightClass : Nat := 0x21000201
/-- Hawk.ScoreWeight.Priority (R105). -/
def hawkScoreWeightPriority : Nat := 0x21000202
/-- Hawk.ScoreWeight.Stage (R105). -/
def hawkScoreWeightStage : Nat := 0x21000203
/-- Hawk.ScoreWeight.Level (R105). -/
def hawkScoreWeightLevel : Nat := 0x21000204
/-- Hawk.ScoreWeight.Age (R105). -/
def hawkScoreWeightAge : Nat := 0x21000205
/-- Hawk.ScoreWeight.Group (R105). -/
def hawkScoreWeightGroup : Nat := 0x21000206
/-- Hawk.SlotTable (R105). -/
def hawkSlotTable : Nat := 0x21000300
/-- Hawk.SlotsFree (R105). -/
def hawkSlotsFree : Nat := 0x21000400
/-- Hawk.ReserveFree (R105). -/
def hawkReserveFree : Nat := 0x21000500
/-- Hawk.StartsPerFrame (R105). -/
def hawkStartsPerFrame : Nat := 0x21000600
/-- Hawk.StealsPerFrame (R105). -/
def hawkStealsPerFrame : Nat := 0x21000700
/-- Hawk.Counters.Steals (R105). -/
def hawkCountersSteals : Nat := 0x21000801
/-- Hawk.Counters.CutSteals (R105). -/
def hawkCountersCutSteals : Nat := 0x21000802
/-- Hawk.Counters.LateStarts (R105). -/
def hawkCountersLateStarts : Nat := 0x21000803
/-- Hawk.Counters.Denied (R105). -/
def hawkCountersDenied : Nat := 0x21000804
/-- Hawk.Counters.MigrationsOut (R105). -/
def hawkCountersMigrationsOut : Nat := 0x21000805
/-- Hawk.Counters.MigrationsIn (R105). -/
def hawkCountersMigrationsIn : Nat := 0x21000806
/-- Hawk.Counters.MigrationAborts (R105). -/
def hawkCountersMigrationAborts : Nat := 0x21000807
/-- Hawk.AcceptRemote (R105). -/
def hawkAcceptRemote : Nat := 0x21000900
/-- Hawk.OwnershipUsed (R105). -/
def hawkOwnershipUsed : Nat := 0x21000A00
/-- Hawk.Balance.Enable (R105). -/
def hawkBalanceEnable : Nat := 0x21000B01
/-- Hawk.Balance.CoreThreshold (R105). -/
def hawkBalanceCoreThreshold : Nat := 0x21000B02
/-- Hawk.Balance.ChainThreshold (R105). -/
def hawkBalanceChainThreshold : Nat := 0x21000B03
/-- Hawk.Pool.GangMask (R105) of unit `n`. -/
def hawkPoolGangMask (n : Nat) : Nat := 0x21010001 + 256 * n
/-- Hawk.Pool.Policy (R105) of unit `n`. -/
def hawkPoolPolicy (n : Nat) : Nat := 0x21010002 + 256 * n
/-- Hawk.Tenant.Pool (R105) of unit `n`. -/
def hawkTenantPool (n : Nat) : Nat := 0x21020001 + 256 * n
/-- Hawk.Tenant.SlotMin (R105) of unit `n`. -/
def hawkTenantSlotMin (n : Nat) : Nat := 0x21020002 + 256 * n
/-- Hawk.Tenant.SlotMax (R105) of unit `n`. -/
def hawkTenantSlotMax (n : Nat) : Nat := 0x21020003 + 256 * n
/-- Hawk.Tenant.Priority (R105) of unit `n`. -/
def hawkTenantPriority (n : Nat) : Nat := 0x21020004 + 256 * n
/-- Hawk.Tenant.SlotsUsed (R105) of unit `n`. -/
def hawkTenantSlotsUsed (n : Nat) : Nat := 0x21020005 + 256 * n
/-- Hawk.Tenant.Denied (R105) of unit `n`. -/
def hawkTenantDenied (n : Nat) : Nat := 0x21020006 + 256 * n
/-- Hawk.Migrate.VoiceId (R105). -/
def hawkMigrateVoiceId : Nat := 0x21030001
/-- Hawk.Migrate.TargetChip (R105). -/
def hawkMigrateTargetChip : Nat := 0x21030002
/-- Hawk.Migrate.TargetCore (R105). -/
def hawkMigrateTargetCore : Nat := 0x21030003
/-- Hawk.Migrate.Go (R105). -/
def hawkMigrateGo : Nat := 0x21030004
/-- Hawk.Migrate.Status (R105). -/
def hawkMigrateStatus : Nat := 0x21030005
/-- Hawk.Group.Mode (R105) of unit `n`. -/
def hawkGroupMode (n : Nat) : Nat := 0x21100001 + 256 * n
/-- Hawk.Group.Limit (R105) of unit `n`. -/
def hawkGroupLimit (n : Nat) : Nat := 0x21100002 + 256 * n
/-- Stipple.PoolSize (R139). -/
def stipplePoolSize : Nat := 0x22000000
/-- Stipple.GenFree (R139). -/
def stippleGenFree : Nat := 0x22000100
/-- Stipple.GenReserve (R139). -/
def stippleGenReserve : Nat := 0x22000200
/-- Stipple.Cluster.Free (R139), by its place among the sub-indices. -/
def stippleClusterFree (n : Nat) : Nat := 0x22000301 + n
/-- Stipple.ControlVoices (R139). -/
def stippleControlVoices : Nat := 0x22000400
/-- Stipple.Counters.LateFrames (R139). -/
def stippleCountersLateFrames : Nat := 0x22000501
/-- Stipple.Counters.GenDenied (R139). -/
def stippleCountersGenDenied : Nat := 0x22000502
/-- Stipple.Counters.ControlDenied (R139). -/
def stippleCountersControlDenied : Nat := 0x22000503
/-- Stipple.ModSet.Image (R139) of unit `n`. -/
def stippleModSetImage (n : Nat) : Nat := 0x22100001 + 256 * n
/-- Stipple.ModSet.Commit (R139) of unit `n`. -/
def stippleModSetCommit (n : Nat) : Nat := 0x22100002 + 256 * n
/-- Stipple.ModSet.Status (R139) of unit `n`. -/
def stippleModSetStatus (n : Nat) : Nat := 0x22100003 + 256 * n
/-- Stipple.ModSet.Result (R139) of unit `n`. -/
def stippleModSetResult (n : Nat) : Nat := 0x22100004 + 256 * n
/-- Stipple.ModSet.Owner (R139) of unit `n`. -/
def stippleModSetOwner (n : Nat) : Nat := 0x22100005 + 256 * n
/-- Stipple.Control.Image (R139) of unit `n`. -/
def stippleControlImage (n : Nat) : Nat := 0x22200001 + 256 * n
/-- Stipple.Control.Commit (R139) of unit `n`. -/
def stippleControlCommit (n : Nat) : Nat := 0x22200002 + 256 * n
/-- Stipple.Control.Status (R139) of unit `n`. -/
def stippleControlStatus (n : Nat) : Nat := 0x22200003 + 256 * n
/-- Stipple.Control.Result (R139) of unit `n`. -/
def stippleControlResult (n : Nat) : Nat := 0x22200004 + 256 * n
/-- Stipple.Control.ImageHash (R139) of unit `n`. -/
def stippleControlImageHash (n : Nat) : Nat := 0x22200005 + 256 * n
/-- Stipple.Global.Def (R139) of unit `n`. -/
def stippleGlobalDef (n : Nat) : Nat := 0x22300001 + 256 * n
/-- Stipple.Global.Cluster (R139) of unit `n`. -/
def stippleGlobalCluster (n : Nat) : Nat := 0x22300002 + 256 * n
/-- Stipple.Global.Enable (R139) of unit `n`. -/
def stippleGlobalEnable (n : Nat) : Nat := 0x22300003 + 256 * n
/-- Stipple.Global.Value (R139) of unit `n`. -/
def stippleGlobalValue (n : Nat) : Nat := 0x22300004 + 256 * n
/-- Stipple.Global.Owner (R139) of unit `n`. -/
def stippleGlobalOwner (n : Nat) : Nat := 0x22300005 + 256 * n
/-- Stipple.Cv.Merge (R139) of unit `n`. -/
def stippleCvMerge (n : Nat) : Nat := 0x22400001 + 256 * n
/-- Stipple.Cv.Idle (R139) of unit `n`. -/
def stippleCvIdle (n : Nat) : Nat := 0x22400002 + 256 * n
/-- Stipple.Cv.OnEnd (R139) of unit `n`. -/
def stippleCvOnEnd (n : Nat) : Nat := 0x22400003 + 256 * n
/-- Stipple.Dmx.Merge (R139) of unit `n`. -/
def stippleDmxMerge (n : Nat) : Nat := 0x22410001 + 256 * n
/-- Stipple.Dmx.Idle (R139) of unit `n`. -/
def stippleDmxIdle (n : Nat) : Nat := 0x22410002 + 256 * n
/-- Stipple.Dmx.OnEnd (R139) of unit `n`. -/
def stippleDmxOnEnd (n : Nat) : Nat := 0x22410003 + 256 * n
/-- Stipple.Can.Merge (R139) of unit `n`. -/
def stippleCanMerge (n : Nat) : Nat := 0x22420001 + 256 * n
/-- Stipple.Can.Deadband (R139) of unit `n`. -/
def stippleCanDeadband (n : Nat) : Nat := 0x22420002 + 256 * n
/-- Stipple.Can.Heartbeat (R139) of unit `n`. -/
def stippleCanHeartbeat (n : Nat) : Nat := 0x22420003 + 256 * n
/-- Stipple.Stem.Merge (R139) of unit `n`. -/
def stippleStemMerge (n : Nat) : Nat := 0x22430001 + 256 * n
/-- Stipple.Stem.OnEnd (R139) of unit `n`. -/
def stippleStemOnEnd (n : Nat) : Nat := 0x22430002 + 256 * n
/-- Trowel.Scratch.VoiceBytes (R170). -/
def trowelScratchVoiceBytes : Nat := 0x01100000
/-- Trowel.Scratch.TableBytes (R170). -/
def trowelScratchTableBytes : Nat := 0x01100100
/-- Trowel.Scratch.EffectBytes (R170). -/
def trowelScratchEffectBytes : Nat := 0x01100200
/-- Trowel.Core.ClockMHz (R170) of unit `n`. -/
def trowelCoreClockMHz (n : Nat) : Nat := 0x01110000 + 256 * n
/-- Trowel.Code.Image (R170). -/
def trowelCodeImage : Nat := 0x01120001
/-- Trowel.Code.Base (R170). -/
def trowelCodeBase : Nat := 0x01120002
/-- Trowel.Code.CoreMask (R170). -/
def trowelCodeCoreMask : Nat := 0x01120003
/-- Trowel.Code.Load (R170). -/
def trowelCodeLoad : Nat := 0x01120004
/-- Trowel.Code.Status (R170). -/
def trowelCodeStatus : Nat := 0x01120005
/-- Trowel.Code.Hash (R170). -/
def trowelCodeHash : Nat := 0x01120006
/-- Trowel.Task.Entry (R170) of unit `n`. -/
def trowelTaskEntry (n : Nat) : Nat := 0x01140001 + 256 * n
/-- Trowel.Task.Core (R170) of unit `n`. -/
def trowelTaskCore (n : Nat) : Nat := 0x01140002 + 256 * n
/-- Trowel.Task.Priority (R170) of unit `n`. -/
def trowelTaskPriority (n : Nat) : Nat := 0x01140003 + 256 * n
/-- Trowel.Task.Cycles (R170) of unit `n`. -/
def trowelTaskCycles (n : Nat) : Nat := 0x01140004 + 256 * n
/-- Trowel.Task.LocalBytes (R170) of unit `n`. -/
def trowelTaskLocalBytes (n : Nat) : Nat := 0x01140005 + 256 * n
/-- Trowel.Task.ScratchBytes (R170) of unit `n`. -/
def trowelTaskScratchBytes (n : Nat) : Nat := 0x01140006 + 256 * n
/-- Trowel.Task.Enable (R170) of unit `n`. -/
def trowelTaskEnable (n : Nat) : Nat := 0x01140007 + 256 * n
/-- Trowel.Task.Owner (R170) of unit `n`. -/
def trowelTaskOwner (n : Nat) : Nat := 0x01140008 + 256 * n
/-- Trowel.Task.LocalBase (R170) of unit `n`. -/
def trowelTaskLocalBase (n : Nat) : Nat := 0x01140009 + 256 * n
/-- Trowel.Task.ScratchBase (R170) of unit `n`. -/
def trowelTaskScratchBase (n : Nat) : Nat := 0x0114000A + 256 * n
/-- Trowel.Task.Overruns (R170) of unit `n`. -/
def trowelTaskOverruns (n : Nat) : Nat := 0x0114000B + 256 * n
/-- Trowel.Task.IntMask (R230) of unit `n`. -/
def trowelTaskIntMask (n : Nat) : Nat := 0x0114000C + 256 * n
/-- Trowel.Task.IntBase (R230) of unit `n`. -/
def trowelTaskIntBase (n : Nat) : Nat := 0x0114000D + 256 * n
/-- Trowel.Thread.Task (R230) of unit `n`. -/
def trowelThreadTask (n : Nat) : Nat := 0x01180001 + 256 * n
/-- Trowel.Thread.Entry (R230) of unit `n`. -/
def trowelThreadEntry (n : Nat) : Nat := 0x01180002 + 256 * n
/-- Trowel.Thread.Mode (R230) of unit `n`. -/
def trowelThreadMode (n : Nat) : Nat := 0x01180003 + 256 * n
/-- Trowel.Thread.StartMask (R230) of unit `n`. -/
def trowelThreadStartMask (n : Nat) : Nat := 0x01180004 + 256 * n
/-- Trowel.Thread.IntMask (R230) of unit `n`. -/
def trowelThreadIntMask (n : Nat) : Nat := 0x01180005 + 256 * n
/-- Trowel.Thread.IntBase (R230) of unit `n`. -/
def trowelThreadIntBase (n : Nat) : Nat := 0x01180006 + 256 * n
/-- Trowel.Thread.State (R230) of unit `n`. -/
def trowelThreadState (n : Nat) : Nat := 0x01180007 + 256 * n
/-- Trowel.Thread.Stalls (R230) of unit `n`. -/
def trowelThreadStalls (n : Nat) : Nat := 0x01180008 + 256 * n
/-- Trowel.Gang.SemLease (R230) of unit `n`. -/
def trowelGangSemLease (n : Nat) : Nat := 0x011C0001 + 256 * n
/-- Trowel.Gang.SemTable (R230) of unit `n`. -/
def trowelGangSemTable (n : Nat) : Nat := 0x011C0002 + 256 * n
/-- Trowel.Gang.Stalls (R230) of unit `n`. -/
def trowelGangStalls (n : Nat) : Nat := 0x011C0003 + 256 * n
/-- Trowel.Core.HwFaults (R230) of unit `n`. -/
def trowelCoreHwFaults (n : Nat) : Nat := 0x011D0001 + 256 * n
/-- Trowel.Core.Retired (R230) of unit `n`. -/
def trowelCoreRetired (n : Nat) : Nat := 0x011D0002 + 256 * n
/-- Trowel.Core.SelfCheckFails (R230) of unit `n`. -/
def trowelCoreSelfCheckFails (n : Nat) : Nat := 0x011D0003 + 256 * n
/-- Skim.LaneCycles (R258). -/
def skimLaneCycles : Nat := 0x30000000
/-- Skim.SendReserve (R258). -/
def skimSendReserve : Nat := 0x30000100
/-- Skim.CoatBudget (R258). -/
def skimCoatBudget : Nat := 0x30000200
/-- Skim.Coat.Image (R258). -/
def skimCoatImage : Nat := 0x30001001
/-- Skim.Coat.Commit (R258). -/
def skimCoatCommit : Nat := 0x30001002
/-- Skim.Coat.Status (R258). -/
def skimCoatStatus : Nat := 0x30001003
/-- Skim.Coat.Result (R258). -/
def skimCoatResult : Nat := 0x30001004
/-- Skim.Coat.NextCycles (R258). -/
def skimCoatNextCycles : Nat := 0x30001005
/-- Skim.Coat.NextHash (R258). -/
def skimCoatNextHash : Nat := 0x30001006
/-- Skim.Coat.CurrentCycles (R258). -/
def skimCoatCurrentCycles : Nat := 0x30001101
/-- Skim.Coat.CurrentHash (R258). -/
def skimCoatCurrentHash : Nat := 0x30001102
/-- Skim.Chain.PresentDelay (R258). -/
def skimChainPresentDelay : Nat := 0x30002001
/-- Skim.Chain.PresentMin (R258). -/
def skimChainPresentMin : Nat := 0x30002002
/-- Skim.Counters.SendDenied (R258). -/
def skimCountersSendDenied : Nat := 0x30003001
/-- Skim.Counters.WindowClips (R258). -/
def skimCountersWindowClips : Nat := 0x30003002
/-- Skim.Counters.AccClips (R258). -/
def skimCountersAccClips : Nat := 0x30003003
/-- Skim.Counters.BusClips (R258). -/
def skimCountersBusClips : Nat := 0x30003004
/-- Skim.Counters.TapClips (R258). -/
def skimCountersTapClips : Nat := 0x30003005
/-- Skim.Counters.ChainClips (R258). -/
def skimCountersChainClips : Nat := 0x30003006
/-- Skim.Counters.ChainMissed (R258). -/
def skimCountersChainMissed : Nat := 0x30003007
/-- Skim.Counters.ExchangeLate (R258). -/
def skimCountersExchangeLate : Nat := 0x30003008
/-- Skim.Counters.CoatFallbacks (R258). -/
def skimCountersCoatFallbacks : Nat := 0x30003009
/-- Skim.Counters.LateSafeLoads (R258). -/
def skimCountersLateSafeLoads : Nat := 0x3000300A
/-- Skim.Ramp.Gain (R258) of unit `n`. -/
def skimRampGain (n : Nat) : Nat := 0x30100001 + 256 * n
/-- Skim.Ramp.Target (R258) of unit `n`. -/
def skimRampTarget (n : Nat) : Nat := 0x30100002 + 256 * n
/-- Skim.Ramp.Remaining (R258) of unit `n`. -/
def skimRampRemaining (n : Nat) : Nat := 0x30100003 + 256 * n
/-- Skim.Bus.Peak (R258) of unit `n`. -/
def skimBusPeak (n : Nat) : Nat := 0x30300001 + 256 * n
/-- Skim.Exchange.Dir (R258) of unit `n`. -/
def skimExchangeDir (n : Nat) : Nat := 0x30400001 + 256 * n
/-- Skim.Exchange.Task (R258) of unit `n`. -/
def skimExchangeTask (n : Nat) : Nat := 0x30400002 + 256 * n
/-- Skim.Exchange.Addr (R258) of unit `n`. -/
def skimExchangeAddr (n : Nat) : Nat := 0x30400003 + 256 * n
/-- Skim.Exchange.Result (R258) of unit `n`. -/
def skimExchangeResult (n : Nat) : Nat := 0x30400004 + 256 * n
/-- Skim.SafeLoad.Image (R258) of unit `n`. -/
def skimSafeLoadImage (n : Nat) : Nat := 0x30500001 + 256 * n
/-- Skim.SafeLoad.Commit (R258) of unit `n`. -/
def skimSafeLoadCommit (n : Nat) : Nat := 0x30500002 + 256 * n
/-- Skim.SafeLoad.Status (R258) of unit `n`. -/
def skimSafeLoadStatus (n : Nat) : Nat := 0x30500003 + 256 * n
/-- Skim.SafeLoad.Result (R258) of unit `n`. -/
def skimSafeLoadResult (n : Nat) : Nat := 0x30500004 + 256 * n
/-- Skim.SafeLoad.AppliedTick (R258) of unit `n`. -/
def skimSafeLoadAppliedTick (n : Nat) : Nat := 0x30500005 + 256 * n
/-- Screed.Counters.ReturnClips (R271). -/
def screedCountersReturnClips : Nat := 0x31000001
/-- Screed.Inst.Mode (R271) of unit `n`. -/
def screedInstMode (n : Nat) : Nat := 0x31100001 + 256 * n
/-- Screed.Inst.Threshold (R271) of unit `n`. -/
def screedInstThreshold (n : Nat) : Nat := 0x31100002 + 256 * n
/-- Screed.Inst.Ratio (R271) of unit `n`. -/
def screedInstRatio (n : Nat) : Nat := 0x31100003 + 256 * n
/-- Screed.Inst.Knee (R271) of unit `n`. -/
def screedInstKnee (n : Nat) : Nat := 0x31100004 + 256 * n
/-- Screed.Inst.Attack (R271) of unit `n`. -/
def screedInstAttack (n : Nat) : Nat := 0x31100005 + 256 * n
/-- Screed.Inst.Release (R271) of unit `n`. -/
def screedInstRelease (n : Nat) : Nat := 0x31100006 + 256 * n
/-- Screed.Inst.Detector (R271) of unit `n`. -/
def screedInstDetector (n : Nat) : Nat := 0x31100007 + 256 * n
/-- Screed.Inst.Makeup (R271) of unit `n`. -/
def screedInstMakeup (n : Nat) : Nat := 0x31100008 + 256 * n
/-- Screed.Inst.LookAhead (R271) of unit `n`. -/
def screedInstLookAhead (n : Nat) : Nat := 0x31100009 + 256 * n
/-- Screed.Inst.DetSource (R271) of unit `n`. -/
def screedInstDetSource (n : Nat) : Nat := 0x3110000A + 256 * n
/-- Screed.Inst.Link (R271) of unit `n`. -/
def screedInstLink (n : Nat) : Nat := 0x3110000B + 256 * n
/-- Screed.Inst.GainReduction (R271) of unit `n`. -/
def screedInstGainReduction (n : Nat) : Nat := 0x3110000C + 256 * n
/-- Screed.Tdm.Threshold (R271) of unit `n`. -/
def screedTdmThreshold (n : Nat) : Nat := 0x31200001 + 256 * n
/-- Screed.Tdm.Release (R271) of unit `n`. -/
def screedTdmRelease (n : Nat) : Nat := 0x31200002 + 256 * n
/-- Screed.Tdm.GainReduction (R271) of unit `n`. -/
def screedTdmGainReduction (n : Nat) : Nat := 0x31200003 + 256 * n
/-- Screed.Tdm.Limited (R271) of unit `n`. -/
def screedTdmLimited (n : Nat) : Nat := 0x31200004 + 256 * n
/-- Screed.Host.Threshold (R271) of unit `n`. -/
def screedHostThreshold (n : Nat) : Nat := 0x31300001 + 256 * n
/-- Screed.Host.Release (R271) of unit `n`. -/
def screedHostRelease (n : Nat) : Nat := 0x31300002 + 256 * n
/-- Screed.Host.GainReduction (R271) of unit `n`. -/
def screedHostGainReduction (n : Nat) : Nat := 0x31300003 + 256 * n
/-- Screed.Host.Limited (R271) of unit `n`. -/
def screedHostLimited (n : Nat) : Nat := 0x31300004 + 256 * n
/-- Hod.DriveCount (R297). -/
def hodDriveCount : Nat := 0x40000000
/-- Hod.Cache.Bytes (R297). -/
def hodCacheBytes : Nat := 0x40000100
/-- Hod.Cache.HeadBytes (R297). -/
def hodCacheHeadBytes : Nat := 0x40000200
/-- Hod.Meta.Bytes (R297). -/
def hodMetaBytes : Nat := 0x40000300
/-- Hod.ReadAhead (R297). -/
def hodReadAhead : Nat := 0x40000400
/-- Hod.CursorsFree (R297). -/
def hodCursorsFree : Nat := 0x40000500
/-- Hod.Counters.Underruns (R297). -/
def hodCountersUnderruns : Nat := 0x40000601
/-- Hod.Counters.ReadRetries (R297). -/
def hodCountersReadRetries : Nat := 0x40000602
/-- Hod.Counters.TagFails (R297). -/
def hodCountersTagFails : Nat := 0x40000603
/-- Hod.Counters.BadExtents (R297). -/
def hodCountersBadExtents : Nat := 0x40000604
/-- Hod.Counters.RemoteReads (R297). -/
def hodCountersRemoteReads : Nat := 0x40000605
/-- Hod.Counters.RemoteTimeouts (R297). -/
def hodCountersRemoteTimeouts : Nat := 0x40000606
/-- Hod.Counters.CursorDenied (R297). -/
def hodCountersCursorDenied : Nat := 0x40000607
/-- Hod.Counters.RateClamps (R297). -/
def hodCountersRateClamps : Nat := 0x40000608
/-- Hod.Drive.State (R297) of unit `n`. -/
def hodDriveState (n : Nat) : Nat := 0x40010001 + 256 * n
/-- Hod.Drive.Location (R297) of unit `n`. -/
def hodDriveLocation (n : Nat) : Nat := 0x40010002 + 256 * n
/-- Hod.Drive.Link (R297) of unit `n`. -/
def hodDriveLink (n : Nat) : Nat := 0x40010003 + 256 * n
/-- Hod.Drive.Serial (R297) of unit `n`. -/
def hodDriveSerial (n : Nat) : Nat := 0x40010004 + 256 * n
/-- Hod.Drive.Errors (R297) of unit `n`. -/
def hodDriveErrors (n : Nat) : Nat := 0x40010005 + 256 * n
/-- Hod.Drive.Retired (R297) of unit `n`. -/
def hodDriveRetired (n : Nat) : Nat := 0x40010006 + 256 * n
/-- Hod.Volume.Drive (R297) of unit `n`. -/
def hodVolumeDrive (n : Nat) : Nat := 0x40020001 + 256 * n
/-- Hod.Volume.Nsid (R297) of unit `n`. -/
def hodVolumeNsid (n : Nat) : Nat := 0x40020002 + 256 * n
/-- Hod.Volume.Number (R297) of unit `n`. -/
def hodVolumeNumber (n : Nat) : Nat := 0x40020003 + 256 * n
/-- Hod.Volume.Mount (R297) of unit `n`. -/
def hodVolumeMount (n : Nat) : Nat := 0x40020004 + 256 * n
/-- Hod.Volume.State (R297) of unit `n`. -/
def hodVolumeState (n : Nat) : Nat := 0x40020005 + 256 * n
/-- Hod.Volume.Result (R297) of unit `n`. -/
def hodVolumeResult (n : Nat) : Nat := 0x40020006 + 256 * n
/-- Hod.Volume.Id (R297) of unit `n`. -/
def hodVolumeId (n : Nat) : Nat := 0x40020007 + 256 * n
/-- Hod.Volume.ImageHash (R297) of unit `n`. -/
def hodVolumeImageHash (n : Nat) : Nat := 0x40020008 + 256 * n
/-- Hod.Volume.Bytes (R297) of unit `n`. -/
def hodVolumeBytes (n : Nat) : Nat := 0x40020009 + 256 * n
/-- Hod.Volume.Preload (R297) of unit `n`. -/
def hodVolumePreload (n : Nat) : Nat := 0x4002000A + 256 * n
/-- Hod.Volume.Serve (R297) of unit `n`. -/
def hodVolumeServe (n : Nat) : Nat := 0x4002000B + 256 * n
/-- Hod.Volume.HeadsPinned (R297) of unit `n`. -/
def hodVolumeHeadsPinned (n : Nat) : Nat := 0x4002000C + 256 * n
/-- Hod.Import.Volume (R297). -/
def hodImportVolume : Nat := 0x40030001
/-- Hod.Import.Object (R297). -/
def hodImportObject : Nat := 0x40030002
/-- Hod.Import.Entry (R297). -/
def hodImportEntry : Nat := 0x40030003
/-- Hod.Import.Data (R297). -/
def hodImportData : Nat := 0x40030004
/-- Hod.Import.Commit (R297). -/
def hodImportCommit : Nat := 0x40030005
/-- Hod.Import.Status (R297). -/
def hodImportStatus : Nat := 0x40030006
/-- Memory.Dram.Bytes (R321). -/
def memoryDramBytes : Nat := 0x01200000
/-- Memory.Dram.Usable (R321). -/
def memoryDramUsable : Nat := 0x01200100
/-- Memory.Dram.Rate (R321). -/
def memoryDramRate : Nat := 0x01200200
/-- Memory.Dram.MaxRate (R321). -/
def memoryDramMaxRate : Nat := 0x01200300
/-- Memory.Dram.ScrubHours (R321). -/
def memoryDramScrubHours : Nat := 0x01200400
/-- Memory.Dram.Corrected (R321). -/
def memoryDramCorrected : Nat := 0x01200501
/-- Memory.Dram.Uncorrected (R321). -/
def memoryDramUncorrected : Nat := 0x01200502
/-- Memory.Dram.ScrubPasses (R321). -/
def memoryDramScrubPasses : Nat := 0x01200503
/-- Memory.Dram.RetiredList (R321). -/
def memoryDramRetiredList : Nat := 0x01200600
/-- Memory.Dram.Reinstate (R321). -/
def memoryDramReinstate : Nat := 0x01200700
/-- Memory.Sram.Corrected (R321). -/
def memorySramCorrected : Nat := 0x01201001
/-- Memory.Sram.Uncorrected (R321). -/
def memorySramUncorrected : Nat := 0x01201002
/-- Memory.Journal.RowsRetired (R321). -/
def memoryJournalRowsRetired : Nat := 0x01202000
/-- Memory.Journal.RetiredMap (R321). -/
def memoryJournalRetiredMap : Nat := 0x01202100
/-- Memory.Journal.Reinstate (R321). -/
def memoryJournalReinstate : Nat := 0x01202200
/-- Memory.Conflict.Local (R321) of unit `n`. -/
def memoryConflictLocal (n : Nat) : Nat := 0x01210000 + 256 * n
/-- Memory.Conflict.Scratch (R321) of unit `n`. -/
def memoryConflictScratch (n : Nat) : Nat := 0x01220000 + 256 * n
/-- Memory.Conflict.Exchange (R321). -/
def memoryConflictExchange : Nat := 0x01230000
/-- Memory.Conflict.Journal (R321). -/
def memoryConflictJournal : Nat := 0x01230100
/-- Memory.Conflict.Dram (R321). -/
def memoryConflictDram : Nat := 0x01230200
/-- Memory.Conflict.Clear (R321). -/
def memoryConflictClear : Nat := 0x01231000
/-- DustSheet.State (R321). -/
def dustSheetState : Nat := 0xA0100000
/-- DustSheet.Wipes (R321). -/
def dustSheetWipes : Nat := 0xA0100100
/-- DustSheet.LastCause (R321). -/
def dustSheetLastCause : Nat := 0xA0100200
/-- DustSheet.LastWipeStc (R321). -/
def dustSheetLastWipeStc : Nat := 0xA0100300
/-- Lath.Port.Enable (R351) of unit `n`. -/
def lathPortEnable (n : Nat) : Nat := 0x50100001 + 256 * n
/-- Lath.Port.State (R351) of unit `n`. -/
def lathPortState (n : Nat) : Nat := 0x50100002 + 256 * n
/-- Lath.Port.Width (R351) of unit `n`. -/
def lathPortWidth (n : Nat) : Nat := 0x50100003 + 256 * n
/-- Lath.Port.Cause (R351) of unit `n`. -/
def lathPortCause (n : Nat) : Nat := 0x50100004 + 256 * n
/-- Lath.Port.PeerSerial (R351) of unit `n`. -/
def lathPortPeerSerial (n : Nat) : Nat := 0x50100005 + 256 * n
/-- Lath.Port.LinkDelayPs (R351) of unit `n`. -/
def lathPortLinkDelayPs (n : Nat) : Nat := 0x50100006 + 256 * n
/-- Lath.Port.AsymPs (R351) of unit `n`. -/
def lathPortAsymPs (n : Nat) : Nat := 0x50100007 + 256 * n
/-- Lath.Port.HopWeight (R351) of unit `n`. -/
def lathPortHopWeight (n : Nat) : Nat := 0x50100008 + 256 * n
/-- Lath.Port.ResidenceMaxNs (R351) of unit `n`. -/
def lathPortResidenceMaxNs (n : Nat) : Nat := 0x50100009 + 256 * n
/-- Lath.Port.Admit (R351) of unit `n`. -/
def lathPortAdmit (n : Nat) : Nat := 0x5010000A + 256 * n
/-- Lath.Port.Cut (R351) of unit `n`. -/
def lathPortCut (n : Nat) : Nat := 0x5010000B + 256 * n
/-- Lath.Port.Retired (R351) of unit `n`. -/
def lathPortRetired (n : Nat) : Nat := 0x5010000C + 256 * n
/-- Lath.Port.Reset (R351) of unit `n`. -/
def lathPortReset (n : Nat) : Nat := 0x5010000D + 256 * n
/-- Lath.Port.Replays (R351) of unit `n`. -/
def lathPortReplays (n : Nat) : Nat := 0x50100010 + 256 * n
/-- Lath.Port.Retrains (R351) of unit `n`. -/
def lathPortRetrains (n : Nat) : Nat := 0x50100011 + 256 * n
/-- Lath.Port.Uncorrectable (R351) of unit `n`. -/
def lathPortUncorrectable (n : Nat) : Nat := 0x50100012 + 256 * n
/-- Lath.Port.Discards (R351) of unit `n`. -/
def lathPortDiscards (n : Nat) : Nat := 0x50100013 + 256 * n
/-- Lath.Port.Misroutes (R351) of unit `n`. -/
def lathPortMisroutes (n : Nat) : Nat := 0x50100014 + 256 * n
/-- Lath.Port.Class0Drops (R351) of unit `n`. -/
def lathPortClass0Drops (n : Nat) : Nat := 0x50100015 + 256 * n
/-- Lath.Lane.State (R351) of unit `n`. -/
def lathLaneState (n : Nat) : Nat := 0x50110001 + 256 * n
/-- Lath.Lane.Retired (R351) of unit `n`. -/
def lathLaneRetired (n : Nat) : Nat := 0x50110002 + 256 * n
/-- Lath.Lane.Corrected (R351) of unit `n`. -/
def lathLaneCorrected (n : Nat) : Nat := 0x50110003 + 256 * n
/-- Lath.Lane.Failures (R351) of unit `n`. -/
def lathLaneFailures (n : Nat) : Nat := 0x50110004 + 256 * n
/-- Lath.Counters.ContribMismatch (R351). -/
def lathCountersContribMismatch : Nat := 0x50120000
/-- Chain.State (R384). -/
def chainState : Nat := 0x50000000
/-- Chain.PreferredNumber (R384). -/
def chainPreferredNumber : Nat := 0x50000100
/-- Chain.LastNumber (R384). -/
def chainLastNumber : Nat := 0x50000200
/-- Chain.Members (R384). -/
def chainMembers : Nat := 0x50000300
/-- Chain.ViewSeq (R384). -/
def chainViewSeq : Nat := 0x50000400
/-- Chain.View (R384). -/
def chainView : Nat := 0x50000500
/-- Chain.Topology (R384). -/
def chainTopology : Nat := 0x50000600
/-- Chain.CutLink (R384). -/
def chainCutLink : Nat := 0x50000700
/-- Chain.HopTotal (R384). -/
def chainHopTotal : Nat := 0x50000800
/-- Chain.Epoch (R384). -/
def chainEpoch : Nat := 0x50001000
/-- Chain.ConfigHash (R384). -/
def chainConfigHash : Nat := 0x50001100
/-- Chain.ProtocolLevel (R384). -/
def chainProtocolLevel : Nat := 0x50001200
/-- Chain.LowestLevel (R384). -/
def chainLowestLevel : Nat := 0x50001300
/-- Chain.ClockClass (R384). -/
def chainClockClass : Nat := 0x50001400
/-- Chain.MasterEligible (R384). -/
def chainMasterEligible : Nat := 0x50001500
/-- Chain.TimeMaster (R384). -/
def chainTimeMaster : Nat := 0x50001600
/-- Chain.Anchor (R384). -/
def chainAnchor : Nat := 0x50001700
/-- Chain.MirrorHolder (R384). -/
def chainMirrorHolder : Nat := 0x50001800
/-- Chain.Mirroring (R384). -/
def chainMirroring : Nat := 0x50001900
/-- Chain.Failover.Replace (R384). -/
def chainFailoverReplace : Nat := 0x50001A00
/-- Chain.HeartbeatMiss (R384). -/
def chainHeartbeatMiss : Nat := 0x50001B00
/-- Chain.Quarantine.Cause (R384). -/
def chainQuarantineCause : Nat := 0x50002000
/-- Chain.Quarantine.Request (R384). -/
def chainQuarantineRequest : Nat := 0x50002100
/-- Chain.Quarantine.Resync (R384). -/
def chainQuarantineResync : Nat := 0x50002200
/-- Chain.WriteResult (R384). -/
def chainWriteResult : Nat := 0x50002300
/-- Chain.Counters.Views (R384). -/
def chainCountersViews : Nat := 0x50003001
/-- Chain.Counters.Losses (R384). -/
def chainCountersLosses : Nat := 0x50003002
/-- Chain.Counters.Quarantines (R384). -/
def chainCountersQuarantines : Nat := 0x50003003
/-- Chain.Counters.Elections (R384). -/
def chainCountersElections : Nat := 0x50003004
/-- Chain.Counters.ReplicationFailures (R384). -/
def chainCountersReplicationFailures : Nat := 0x50003005
/-- Chain.Counters.AuditRepairs (R384). -/
def chainCountersAuditRepairs : Nat := 0x50003006
/-- Chain.Layer.Home (R384) of unit `n`. -/
def chainLayerHome (n : Nat) : Nat := 0x50200001 + 256 * n
/-- Chain.Layer.PreferredHome (R384) of unit `n`. -/
def chainLayerPreferredHome (n : Nat) : Nat := 0x50200002 + 256 * n
/-- Chain.Template.Holders (R384) of unit `n`. -/
def chainTemplateHolders (n : Nat) : Nat := 0x50300001 + 256 * n
/-- Tenant.Enable (R415) of unit `n`. -/
def tenantEnable (n : Nat) : Nat := 0x10000001 + 256 * n
/-- Tenant.State (R415) of unit `n`. -/
def tenantState (n : Nat) : Nat := 0x10000002 + 256 * n
/-- Tenant.Function (R415) of unit `n`. -/
def tenantFunction (n : Nat) : Nat := 0x10000003 + 256 * n
/-- Tenant.Reset (R415) of unit `n`. -/
def tenantReset (n : Nat) : Nat := 0x10000004 + 256 * n
/-- Tenant.Quota.TaskCycles (R415) of unit `n`. -/
def tenantQuotaTaskCycles (n : Nat) : Nat := 0x10000005 + 256 * n
/-- Tenant.Quota.LocalBuses (R415) of unit `n`. -/
def tenantQuotaLocalBuses (n : Nat) : Nat := 0x10000006 + 256 * n
/-- Tenant.Quota.ChainBuses (R415) of unit `n`. -/
def tenantQuotaChainBuses (n : Nat) : Nat := 0x10000007 + 256 * n
/-- Tenant.Quota.Generators (R415) of unit `n`. -/
def tenantQuotaGenerators (n : Nat) : Nat := 0x10000008 + 256 * n
/-- Tenant.Quota.ControlVoices (R415) of unit `n`. -/
def tenantQuotaControlVoices (n : Nat) : Nat := 0x10000009 + 256 * n
/-- Tenant.Quota.StreamCursors (R415) of unit `n`. -/
def tenantQuotaStreamCursors (n : Nat) : Nat := 0x1000000A + 256 * n
/-- Tenant.Quota.StreamMBps (R415) of unit `n`. -/
def tenantQuotaStreamMBps (n : Nat) : Nat := 0x1000000B + 256 * n
/-- Tenant.Quota.HostChannels (R415) of unit `n`. -/
def tenantQuotaHostChannels (n : Nat) : Nat := 0x1000000C + 256 * n
/-- Tenant.Used (R415) of unit `n`. -/
def tenantUsed (n : Nat) : Nat := 0x1000000D + 256 * n
/-- Tenant.Events.Pending (R415) of unit `n`. -/
def tenantEventsPending (n : Nat) : Nat := 0x1000000E + 256 * n
/-- Tenant.Events.Enable (R415) of unit `n`. -/
def tenantEventsEnable (n : Nat) : Nat := 0x1000000F + 256 * n
/-- Access.Kind (R415). -/
def accessKind : Nat := 0x10100001
/-- Access.First (R415). -/
def accessFirst : Nat := 0x10100002
/-- Access.Count (R415). -/
def accessCount : Nat := 0x10100003
/-- Access.Table (R415). -/
def accessTable : Nat := 0x10100004
/-- Access.Write (R415). -/
def accessWrite : Nat := 0x10100005
/-- Access.Result (R415). -/
def accessResult : Nat := 0x10100006
/-- Pcie.Port0.Mode (R415). -/
def pciePort0Mode : Nat := 0x01300000
/-- Pcie.Port.Split (R415), by its place among the sub-indices. -/
def pciePortSplit (n : Nat) : Nat := 0x01300101 + n
/-- Pcie.VendorId (R415). -/
def pcieVendorId : Nat := 0x01300200
/-- Queue.Base (R416) of unit `n`. -/
def queueBase (n : Nat) : Nat := 0x60000001 + 256 * n
/-- Queue.Config (R416) of unit `n`. -/
def queueConfig (n : Nat) : Nat := 0x60000002 + 256 * n
/-- Queue.Bind (R416) of unit `n`. -/
def queueBind (n : Nat) : Nat := 0x60000003 + 256 * n
/-- Queue.Status (R416) of unit `n`. -/
def queueStatus (n : Nat) : Nat := 0x60000004 + 256 * n
/-- Queue.Head (R416) of unit `n`. -/
def queueHead (n : Nat) : Nat := 0x60000005 + 256 * n
/-- Queue.Tail (R416) of unit `n`. -/
def queueTail (n : Nat) : Nat := 0x60000006 + 256 * n
/-- Queue.Seq (R416) of unit `n`. -/
def queueSeq (n : Nat) : Nat := 0x60000007 + 256 * n
/-- Queue.Count (R416) of unit `n`. -/
def queueCount (n : Nat) : Nat := 0x60000008 + 256 * n
/-- Can.Mode (R443) of unit `n`. -/
def canMode (n : Nat) : Nat := 0x80200001 + 256 * n
/-- Can.Format (R443) of unit `n`. -/
def canFormat (n : Nat) : Nat := 0x80200002 + 256 * n
/-- Can.NomRate (R443) of unit `n`. -/
def canNomRate (n : Nat) : Nat := 0x80200003 + 256 * n
/-- Can.NomSamplePoint (R443) of unit `n`. -/
def canNomSamplePoint (n : Nat) : Nat := 0x80200004 + 256 * n
/-- Can.DataRate (R443) of unit `n`. -/
def canDataRate (n : Nat) : Nat := 0x80200005 + 256 * n
/-- Can.DataSamplePoint (R443) of unit `n`. -/
def canDataSamplePoint (n : Nat) : Nat := 0x80200006 + 256 * n
/-- Can.Tms (R443) of unit `n`. -/
def canTms (n : Nat) : Nat := 0x80200007 + 256 * n
/-- Can.NodeId (R443) of unit `n`. -/
def canNodeId (n : Nat) : Nat := 0x80200008 + 256 * n
/-- Can.ResponseId (R443) of unit `n`. -/
def canResponseId (n : Nat) : Nat := 0x80200009 + 256 * n
/-- Can.Sdt (R443) of unit `n`. -/
def canSdt (n : Nat) : Nat := 0x8020000A + 256 * n
/-- Can.Vcid (R443) of unit `n`. -/
def canVcid (n : Nat) : Nat := 0x8020000B + 256 * n
/-- Can.FdBase (R443) of unit `n`. -/
def canFdBase (n : Nat) : Nat := 0x8020000C + 256 * n
/-- Can.State (R443) of unit `n`. -/
def canState (n : Nat) : Nat := 0x8020000D + 256 * n
/-- Can.Tec (R443) of unit `n`. -/
def canTec (n : Nat) : Nat := 0x8020000E + 256 * n
/-- Can.Rec (R443) of unit `n`. -/
def canRec (n : Nat) : Nat := 0x8020000F + 256 * n
/-- Can.ConflictId (R443) of unit `n`. -/
def canConflictId (n : Nat) : Nat := 0x80200010 + 256 * n
/-- Can.Restart (R443) of unit `n`. -/
def canRestart (n : Nat) : Nat := 0x80200011 + 256 * n
/-- Can.Retired (R443) of unit `n`. -/
def canRetired (n : Nat) : Nat := 0x80200012 + 256 * n
/-- Can.Abort (R443) of unit `n`. -/
def canAbort (n : Nat) : Nat := 0x80200013 + 256 * n
/-- Can.Counters.BusOffs (R443) of unit `n`. -/
def canCountersBusOffs (n : Nat) : Nat := 0x80200014 + 256 * n
/-- Can.Counters.Collisions (R443) of unit `n`. -/
def canCountersCollisions (n : Nat) : Nat := 0x80200015 + 256 * n
/-- Can.Counters.AbortTooLate (R443) of unit `n`. -/
def canCountersAbortTooLate (n : Nat) : Nat := 0x80200016 + 256 * n
/-- Can.Counters.TxFrames (R443) of unit `n`. -/
def canCountersTxFrames (n : Nat) : Nat := 0x80200017 + 256 * n
/-- Can.Counters.RxFrames (R443) of unit `n`. -/
def canCountersRxFrames (n : Nat) : Nat := 0x80200018 + 256 * n
/-- Can.Redundancy (R443). -/
def canRedundancy : Nat := 0x80200200
/-- Can.Slot.Format (R443) of unit `n`. -/
def canSlotFormat (n : Nat) : Nat := 0x80210001 + 256 * n
/-- Can.Slot.Id (R443) of unit `n`. -/
def canSlotId (n : Nat) : Nat := 0x80210002 + 256 * n
/-- Can.Slot.Sdt (R443) of unit `n`. -/
def canSlotSdt (n : Nat) : Nat := 0x80210003 + 256 * n
/-- Can.Slot.Vcid (R443) of unit `n`. -/
def canSlotVcid (n : Nat) : Nat := 0x80210004 + 256 * n
/-- Can.Slot.Af (R443) of unit `n`. -/
def canSlotAf (n : Nat) : Nat := 0x80210005 + 256 * n
/-- Can.Slot.Enable (R443) of unit `n`. -/
def canSlotEnable (n : Nat) : Nat := 0x80210006 + 256 * n
/-- Can.Slot.LastStatus (R443) of unit `n`. -/
def canSlotLastStatus (n : Nat) : Nat := 0x80210007 + 256 * n
/-- Ndp.Bind (R444). -/
def ndpBind : Nat := 0x01400000
/-- Ndp.Sessions (R444). -/
def ndpSessions : Nat := 0x01400100
/-- Ndp.Counters.Requests (R444). -/
def ndpCountersRequests : Nat := 0x01400201
/-- Ndp.Counters.Refusals (R444). -/
def ndpCountersRefusals : Nat := 0x01400202
/-- Ndp.Counters.Duplicates (R444). -/
def ndpCountersDuplicates : Nat := 0x01400203
/-- Ndp.Counters.Timeouts (R444). -/
def ndpCountersTimeouts : Nat := 0x01400204
/-- Ndp.Counters.Forwarded (R444). -/
def ndpCountersForwarded : Nat := 0x01400205
/-- Plumb.SampleRate (R466). -/
def plumbSampleRate : Nat := 0x70000000
/-- Plumb.BlockSize (R466). -/
def plumbBlockSize : Nat := 0x70000100
/-- Plumb.ClockSource (R466). -/
def plumbClockSource : Nat := 0x70000200
/-- Plumb.FollowRate (R466). -/
def plumbFollowRate : Nat := 0x70000300
/-- Plumb.RefState (R466). -/
def plumbRefState : Nat := 0x70000400
/-- Plumb.WclkMilliHz (R466). -/
def plumbWclkMilliHz : Nat := 0x70000500
/-- Plumb.OffsetPpm (R466). -/
def plumbOffsetPpm : Nat := 0x70000600
/-- Plumb.Stc (R466). -/
def plumbStc : Nat := 0x70000700
/-- Plumb.ChainTime (R466). -/
def plumbChainTime : Nat := 0x70000800
/-- Plumb.Rebase (R466). -/
def plumbRebase : Nat := 0x70000900
/-- Plumb.MasterOffsetPs (R466). -/
def plumbMasterOffsetPs : Nat := 0x70000A00
/-- Plumb.Counters.WclkShort (R466). -/
def plumbCountersWclkShort : Nat := 0x70001001
/-- Plumb.Counters.WclkMissing (R466). -/
def plumbCountersWclkMissing : Nat := 0x70001002
/-- Plumb.Counters.Losses (R466). -/
def plumbCountersLosses : Nat := 0x70001003
/-- Plumb.Counters.Switchovers (R466). -/
def plumbCountersSwitchovers : Nat := 0x70001004
/-- Plumb.Counters.RateTransitions (R466). -/
def plumbCountersRateTransitions : Nat := 0x70001005
/-- Plumb.Counters.Realignments (R466). -/
def plumbCountersRealignments : Nat := 0x70001006
/-- Plumb.Tempo (R466). -/
def plumbTempo : Nat := 0x70002001
/-- Plumb.Tempo.Set (R466). -/
def plumbTempoSet : Nat := 0x70002002
/-- Plumb.Tempo.Relocate (R466). -/
def plumbTempoRelocate : Nat := 0x70002003
/-- Plumb.Tempo.ApplyTick (R466). -/
def plumbTempoApplyTick : Nat := 0x70002004
/-- Plumb.Tempo.Go (R466). -/
def plumbTempoGo : Nat := 0x70002005
/-- Plumb.Tempo.Status (R466). -/
def plumbTempoStatus : Nat := 0x70002006
/-- Plumb.BeatPos (R466). -/
def plumbBeatPos : Nat := 0x70002007
/-- Timer.Clock (R466) of unit `n`. -/
def timerClock (n : Nat) : Nat := 0x70100001 + 256 * n
/-- Timer.Width (R466) of unit `n`. -/
def timerWidth (n : Nat) : Nat := 0x70100002 + 256 * n
/-- Timer.Enable (R466) of unit `n`. -/
def timerEnable (n : Nat) : Nat := 0x70100003 + 256 * n
/-- Timer.Counter (R466) of unit `n`. -/
def timerCounter (n : Nat) : Nat := 0x70100004 + 256 * n
/-- Timer.Compare0 (R466) of unit `n`. -/
def timerCompare0 (n : Nat) : Nat := 0x70100005 + 256 * n
/-- Timer.Compare1 (R466) of unit `n`. -/
def timerCompare1 (n : Nat) : Nat := 0x70100006 + 256 * n
/-- Timer.Preload0 (R466) of unit `n`. -/
def timerPreload0 (n : Nat) : Nat := 0x70100007 + 256 * n
/-- Timer.Preload1 (R466) of unit `n`. -/
def timerPreload1 (n : Nat) : Nat := 0x70100008 + 256 * n
/-- Timer.Mode (R466) of unit `n`. -/
def timerMode (n : Nat) : Nat := 0x70100009 + 256 * n
/-- Timer.Owner (R466) of unit `n`. -/
def timerOwner (n : Nat) : Nat := 0x7010000A + 256 * n
/-- Timer.Core (R466) of unit `n`. -/
def timerCore (n : Nat) : Nat := 0x7010000B + 256 * n
/-- Timer.Thread (R466) of unit `n`. -/
def timerThread (n : Nat) : Nat := 0x7010000C + 256 * n
/-- Timer.Status (R466) of unit `n`. -/
def timerStatus (n : Nat) : Nat := 0x7010000D + 256 * n
/-- Skim.WetEdge.Mode (R480). -/
def skimWetEdgeMode : Nat := 0x30004001
/-- Skim.WetEdge.FeatherMs (R480). -/
def skimWetEdgeFeatherMs : Nat := 0x30004002
/-- Skim.WetEdge.DipMs (R480). -/
def skimWetEdgeDipMs : Nat := 0x30004003
/-- Skim.WetEdge.ApplyTick (R480). -/
def skimWetEdgeApplyTick : Nat := 0x30004004
/-- Skim.WetEdge.Go (R480). -/
def skimWetEdgeGo : Nat := 0x30004005
/-- Skim.WetEdge.Status (R480). -/
def skimWetEdgeStatus : Nat := 0x30004006
/-- Skim.WetEdge.Result (R480). -/
def skimWetEdgeResult : Nat := 0x30004007
/-- Skim.WetEdge.Changed (R480). -/
def skimWetEdgeChanged : Nat := 0x30004008
/-- Skim.WetEdge.StartTick (R480). -/
def skimWetEdgeStartTick : Nat := 0x30004009
/-- Skim.WetEdge.EndTick (R480). -/
def skimWetEdgeEndTick : Nat := 0x3000400A
/-- Skim.Counters.Overruns (R480). -/
def skimCountersOverruns : Nat := 0x3000300B
/-- Trowel.Gang.MissedFrames (R480) of unit `n`. -/
def trowelGangMissedFrames (n : Nat) : Nat := 0x011E0001 + 256 * n
/-- Trowel.Task.Cuts (R480) of unit `n`. -/
def trowelTaskCuts (n : Nat) : Nat := 0x0114000E + 256 * n
/-- Fault.SystemLog (R507). -/
def faultSystemLog : Nat := 0x90000000
/-- Fault.SystemLost (R507). -/
def faultSystemLost : Nat := 0x90000100
/-- Fault.Snapshots (R507). -/
def faultSnapshots : Nat := 0x90000200
/-- Fault.Leases (R507). -/
def faultLeases : Nat := 0x90000300
/-- Fault.LastReset (R507). -/
def faultLastReset : Nat := 0x90000400
/-- Fault.OutageUs (R507). -/
def faultOutageUs : Nat := 0x90000500
/-- Reset.Request (R507). -/
def resetRequest : Nat := 0x90001000
/-- Reset.Gang (R507) of unit `n`. -/
def resetGang (n : Nat) : Nat := 0x90010000 + 256 * n
/-- Reset.Core (R507) of unit `n`. -/
def resetCore (n : Nat) : Nat := 0x90020000 + 256 * n
/-- Fault.Journal.Capacity (R507). -/
def faultJournalCapacity : Nat := 0x90002001
/-- Fault.Journal.Live (R507). -/
def faultJournalLive : Nat := 0x90002002
/-- Fault.Journal.MirrorFree (R507). -/
def faultJournalMirrorFree : Nat := 0x90002003
/-- Fault.Journal.LostRecords (R507). -/
def faultJournalLostRecords : Nat := 0x90002004
/-- Supervisor.WatchdogMs (R507). -/
def supervisorWatchdogMs : Nat := 0x90003001
/-- Supervisor.Restarts (R507). -/
def supervisorRestarts : Nat := 0x90003002
/-- Fault.Tenant.Log (R507) of unit `n`. -/
def faultTenantLog (n : Nat) : Nat := 0x90100001 + 256 * n
/-- Fault.Tenant.Lost (R507) of unit `n`. -/
def faultTenantLost (n : Nat) : Nat := 0x90100002 + 256 * n
/-- Fault.Tenant.ReplayGo (R507) of unit `n`. -/
def faultTenantReplayGo (n : Nat) : Nat := 0x90100003 + 256 * n
/-- Fault.Tenant.ReplayState (R507) of unit `n`. -/
def faultTenantReplayState (n : Nat) : Nat := 0x90100004 + 256 * n
/-- Fault.Tenant.Live (R507) of unit `n`. -/
def faultTenantLive (n : Nat) : Nat := 0x90100005 + 256 * n
/-- Uart.Mode (R534) of unit `n`. -/
def uartMode (n : Nat) : Nat := 0x80100001 + 256 * n
/-- Uart.Divider (R534) of unit `n`. -/
def uartDivider (n : Nat) : Nat := 0x80100002 + 256 * n
/-- Uart.Format (R534) of unit `n`. -/
def uartFormat (n : Nat) : Nat := 0x80100003 + 256 * n
/-- Uart.RxTrigger (R534) of unit `n`. -/
def uartRxTrigger (n : Nat) : Nat := 0x80100004 + 256 * n
/-- Uart.TxTrigger (R534) of unit `n`. -/
def uartTxTrigger (n : Nat) : Nat := 0x80100005 + 256 * n
/-- Uart.XonXoff (R534) of unit `n`. -/
def uartXonXoff (n : Nat) : Nat := 0x80100006 + 256 * n
/-- Uart.XoffLevel (R534) of unit `n`. -/
def uartXoffLevel (n : Nat) : Nat := 0x80100007 + 256 * n
/-- Uart.XonLevel (R534) of unit `n`. -/
def uartXonLevel (n : Nat) : Nat := 0x80100008 + 256 * n
/-- Uart.Address (R534) of unit `n`. -/
def uartAddress (n : Nat) : Nat := 0x80100009 + 256 * n
/-- Uart.AddrMask (R534) of unit `n`. -/
def uartAddrMask (n : Nat) : Nat := 0x8010000A + 256 * n
/-- Uart.Mute (R534) of unit `n`. -/
def uartMute (n : Nat) : Nat := 0x8010000B + 256 * n
/-- Uart.DeHold (R534) of unit `n`. -/
def uartDeHold (n : Nat) : Nat := 0x8010000C + 256 * n
/-- Uart.Retries (R534) of unit `n`. -/
def uartRetries (n : Nat) : Nat := 0x8010000D + 256 * n
/-- Uart.WakeEnable (R534) of unit `n`. -/
def uartWakeEnable (n : Nat) : Nat := 0x8010000E + 256 * n
/-- Uart.Tx (R534) of unit `n`. -/
def uartTx (n : Nat) : Nat := 0x8010000F + 256 * n
/-- Uart.Rx (R534) of unit `n`. -/
def uartRx (n : Nat) : Nat := 0x80100010 + 256 * n
/-- Uart.Status (R534) of unit `n`. -/
def uartStatus (n : Nat) : Nat := 0x80100011 + 256 * n
/-- Uart.Counters.Parity (R534) of unit `n`. -/
def uartCountersParity (n : Nat) : Nat := 0x80100012 + 256 * n
/-- Uart.Counters.Framing (R534) of unit `n`. -/
def uartCountersFraming (n : Nat) : Nat := 0x80100013 + 256 * n
/-- Uart.Counters.Overruns (R534) of unit `n`. -/
def uartCountersOverruns (n : Nat) : Nat := 0x80100014 + 256 * n
/-- Uart.Counters.Breaks (R534) of unit `n`. -/
def uartCountersBreaks (n : Nat) : Nat := 0x80100015 + 256 * n
/-- Uart.Counters.Collisions (R534) of unit `n`. -/
def uartCountersCollisions (n : Nat) : Nat := 0x80100016 + 256 * n
/-- Uart.Counters.WakeLost (R534) of unit `n`. -/
def uartCountersWakeLost (n : Nat) : Nat := 0x80100017 + 256 * n
/-- Uart.Dmx.Slots (R534) of unit `n`. -/
def uartDmxSlots (n : Nat) : Nat := 0x80100020 + 256 * n
/-- Uart.Dmx.BreakUs (R534) of unit `n`. -/
def uartDmxBreakUs (n : Nat) : Nat := 0x80100021 + 256 * n
/-- Uart.Dmx.MabUs (R534) of unit `n`. -/
def uartDmxMabUs (n : Nat) : Nat := 0x80100022 + 256 * n
/-- Uart.Dmx.PeriodUs (R534) of unit `n`. -/
def uartDmxPeriodUs (n : Nat) : Nat := 0x80100023 + 256 * n
/-- Uart.Dmx.StartCode (R534) of unit `n`. -/
def uartDmxStartCode (n : Nat) : Nat := 0x80100024 + 256 * n
/-- Uart.Dmx.RxData (R534) of unit `n`. -/
def uartDmxRxData (n : Nat) : Nat := 0x80100025 + 256 * n
/-- Uart.Dmx.Packets (R534) of unit `n`. -/
def uartDmxPackets (n : Nat) : Nat := 0x80100026 + 256 * n
/-- Uart.Rdm.Request (R534) of unit `n`. -/
def uartRdmRequest (n : Nat) : Nat := 0x80100027 + 256 * n
/-- Uart.Rdm.Reply (R534) of unit `n`. -/
def uartRdmReply (n : Nat) : Nat := 0x80100028 + 256 * n
/-- Uart.Rdm.Status (R534) of unit `n`. -/
def uartRdmStatus (n : Nat) : Nat := 0x80100029 + 256 * n
/-- Uart.Rdm.Uid (R534) of unit `n`. -/
def uartRdmUid (n : Nat) : Nat := 0x8010002A + 256 * n
/-- Uart.Rdm.Responder (R534) of unit `n`. -/
def uartRdmResponder (n : Nat) : Nat := 0x8010002B + 256 * n
/-- Uart.Rdm.Muted (R534) of unit `n`. -/
def uartRdmMuted (n : Nat) : Nat := 0x8010002C + 256 * n
/-- Uart.Rdm.Inbox (R534) of unit `n`. -/
def uartRdmInbox (n : Nat) : Nat := 0x8010002D + 256 * n
/-- Uart.Rdm.Outbox (R534) of unit `n`. -/
def uartRdmOutbox (n : Nat) : Nat := 0x8010002E + 256 * n
/-- Uart.Midi.Tenant (R534) of unit `n`. -/
def uartMidiTenant (n : Nat) : Nat := 0x80100030 + 256 * n
/-- Uart.Midi.Queue (R534) of unit `n`. -/
def uartMidiQueue (n : Nat) : Nat := 0x80100031 + 256 * n
/-- Uart.Midi.Handle (R534) of unit `n`. -/
def uartMidiHandle (n : Nat) : Nat := 0x80100032 + 256 * n
/-- Uart.Midi.Group (R534) of unit `n`. -/
def uartMidiGroup (n : Nat) : Nat := 0x80100033 + 256 * n
/-- Uart.Midi.DelayTicks (R534) of unit `n`. -/
def uartMidiDelayTicks (n : Nat) : Nat := 0x80100034 + 256 * n
/-- Uart.Midi.Thru (R534) of unit `n`. -/
def uartMidiThru (n : Nat) : Nat := 0x80100035 + 256 * n
/-- Uart.Midi.Ignored (R534) of unit `n`. -/
def uartMidiIgnored (n : Nat) : Nat := 0x80100036 + 256 * n
/-- Uart.Midi.Lost (R534) of unit `n`. -/
def uartMidiLost (n : Nat) : Nat := 0x80100037 + 256 * n
/-- Cv.Enable (R535) of unit `n`. -/
def cvEnable (n : Nat) : Nat := 0x80300001 + 256 * n
/-- Cv.TrimOffset (R535) of unit `n`. -/
def cvTrimOffset (n : Nat) : Nat := 0x80300002 + 256 * n
/-- Cv.TrimGain (R535) of unit `n`. -/
def cvTrimGain (n : Nat) : Nat := 0x80300003 + 256 * n
/-- Cv.Code (R535) of unit `n`. -/
def cvCode (n : Nat) : Nat := 0x80300004 + 256 * n
/-- Cv.Readback (R535) of unit `n`. -/
def cvReadback (n : Nat) : Nat := 0x80300005 + 256 * n
/-- Cv.State (R535) of unit `n`. -/
def cvState (n : Nat) : Nat := 0x80300006 + 256 * n
/-- Cv.Retired (R535) of unit `n`. -/
def cvRetired (n : Nat) : Nat := 0x80300007 + 256 * n
/-- Cv.OutputOff (R535) of unit `n`. -/
def cvOutputOff (n : Nat) : Nat := 0x80300008 + 256 * n
/-- Cv.Faults (R535) of unit `n`. -/
def cvFaults (n : Nat) : Nat := 0x80300009 + 256 * n
/-- Cv.Mismatches (R535) of unit `n`. -/
def cvMismatches (n : Nat) : Nat := 0x8030000A + 256 * n
/-- Cv.Repeats (R535) of unit `n`. -/
def cvRepeats (n : Nat) : Nat := 0x8030000B + 256 * n
/-- Cv.Group.Divider (R535) of unit `n`. -/
def cvGroupDivider (n : Nat) : Nat := 0x80310001 + 256 * n
/-- Cv.Tolerance (R535). -/
def cvTolerance : Nat := 0x80320001
/-- Cv.HoldMs (R535). -/
def cvHoldMs : Nat := 0x80320002
/-- Sense.Enable (R535) of unit `n`. -/
def senseEnable (n : Nat) : Nat := 0x80400001 + 256 * n
/-- Sense.Value (R535) of unit `n`. -/
def senseValue (n : Nat) : Nat := 0x80400002 + 256 * n
/-- Sense.Filter (R535) of unit `n`. -/
def senseFilter (n : Nat) : Nat := 0x80400003 + 256 * n
/-- Sense.Tenant (R535) of unit `n`. -/
def senseTenant (n : Nat) : Nat := 0x80400004 + 256 * n
/-- Sense.Queue (R535) of unit `n`. -/
def senseQueue (n : Nat) : Nat := 0x80400005 + 256 * n
/-- Sense.Cc (R535) of unit `n`. -/
def senseCc (n : Nat) : Nat := 0x80400006 + 256 * n
/-- Sense.Deadband (R535) of unit `n`. -/
def senseDeadband (n : Nat) : Nat := 0x80400007 + 256 * n
/-- Sense.Clips (R535) of unit `n`. -/
def senseClips (n : Nat) : Nat := 0x80400008 + 256 * n
/-- Boot.State (R556). -/
def bootState : Nat := 0x01500000
/-- Boot.Error (R556). -/
def bootError : Nat := 0x01500100
/-- Boot.Slot (R556). -/
def bootSlot : Nat := 0x01500200
/-- Boot.ReadyMs (R556). -/
def bootReadyMs : Nat := 0x01500300
/-- Boot.RollbackFloor (R556). -/
def bootRollbackFloor : Nat := 0x01500400
/-- Boot.CommitRollback (R556). -/
def bootCommitRollback : Nat := 0x01500500
/-- Boot.RevokeKeySlot (R556). -/
def bootRevokeKeySlot : Nat := 0x01500600
/-- Boot.Update.Image (R556). -/
def bootUpdateImage : Nat := 0x01501001
/-- Boot.Update.Commit (R556). -/
def bootUpdateCommit : Nat := 0x01501002
/-- Boot.Update.Result (R556). -/
def bootUpdateResult : Nat := 0x01501003
/-- Power.State (R556). -/
def powerState : Nat := 0x01600000
/-- Power.Request (R556). -/
def powerRequest : Nat := 0x01600100
/-- Power.QuietEnable (R556). -/
def powerQuietEnable : Nat := 0x01600200
/-- Power.QuietDelayMs (R556). -/
def powerQuietDelayMs : Nat := 0x01600300
/-- Power.WakeCan (R556). -/
def powerWakeCan : Nat := 0x01600400
/-- Lifecycle.State (R556). -/
def lifecycleState : Nat := 0xA0000000
/-- Lifecycle.Advance (R556). -/
def lifecycleAdvance : Nat := 0xA0000100
/-- Lifecycle.Token (R556). -/
def lifecycleToken : Nat := 0xA0000200
/-- Lifecycle.LastApplied (R556). -/
def lifecycleLastApplied : Nat := 0xA0000300
/-- Tamper.Mask (R556). -/
def tamperMask : Nat := 0xA0001000
/-- Key.Install (R556). -/
def keyInstall : Nat := 0xA0002001
/-- Key.Remove (R556). -/
def keyRemove : Nat := 0xA0002002
/-- Key.Result (R556). -/
def keyResult : Nat := 0xA0002003
/-- Key.Count (R556). -/
def keyCount : Nat := 0xA0002004
/-- Power.Thermal.Warn (R583). -/
def powerThermalWarn : Nat := 0x01601000
/-- Power.Thermal.Temp (R583). -/
def powerThermalTemp : Nat := 0x01601100
/-- Power.Thermal.MaxTemp (R583). -/
def powerThermalMaxTemp : Nat := 0x01601200
/-- Power.Thermal.Steps (R583). -/
def powerThermalSteps : Nat := 0x01601300
/-- Power.Thermal.Trips (R583). -/
def powerThermalTrips : Nat := 0x01601400
/-- Power.CoreMv (R583). -/
def powerCoreMv : Nat := 0x01601500
/-- Power.AvsFusedMv (R583). -/
def powerAvsFusedMv : Nat := 0x01601600
/-- Tdm.Mode (R583) of unit `n`. -/
def tdmMode (n : Nat) : Nat := 0x80500001 + 256 * n
/-- Tdm.Framing (R583) of unit `n`. -/
def tdmFraming (n : Nat) : Nat := 0x80500002 + 256 * n
/-- Tdm.State (R583) of unit `n`. -/
def tdmState (n : Nat) : Nat := 0x80500003 + 256 * n
/-- Tdm.Slips (R583) of unit `n`. -/
def tdmSlips (n : Nat) : Nat := 0x80500004 + 256 * n

end Obj

end Sys2Proof.Machine
end

