-- ==== Sys2Proof/Machine/StateBoot.lean ====
section
/-!
DEFINITION. State of the security island and of boot: the Dust Sheet, the image slots and fuses, and what Kolef is doing
(chapters 11 and 20).
-/

namespace Sys2Proof.Machine

/-- DustSheet.State (R321). -/
inductive DustState | ready | wiping | wiped | fault
  deriving DecidableEq, Repr

/-- The Dust Sheet, its key service and the flash key store (R317 to R320, R551, R552). -/
structure DustSheet where
  /-- the AES-256 keys held, by KEY_ID: 32 octets each -/
  keys : Table (List Byte) := []
  /-- the wrapped keys in flash, by KEY_ID: 40 octets each -/
  store : Table (List Byte) := []
  state : DustState := .ready
  /-- keys whose entries read as absent after an uncorrectable error (R300) -/
  lost : List Nat := []
  /-- the key service is locked until the next cold reset (R319) -/
  locked : Bool := false
  /-- the verify of the wipe has failed once -/
  repeated : Bool := false
  deriving DecidableEq, Repr

/-- An image transfer over Kolef (R555). -/
structure KolefImg where
  slot : Nat
  length : Nat
  data : List Byte := []
  /-- when the last octet came, ns -/
  at_ : Nat
  deriving DecidableEq, Repr

/-- Boot, fuses and flash images (R536 to R542, R549, R550). -/
structure Boot where
  /-- the two image slots in flash; empty when nothing was ever written -/
  slotA : List Byte := []
  slotB : List Byte := []
  /-- the preferred slot, 0 A, 1 B -/
  preferred : Nat := 0
  /-- consecutive boots of each slot that did not reach READY -/
  failsA : Nat := 0
  failsB : Nat := 0
  /-- revocation fuses, a bit each -/
  revoked : Nat := 0
  /-- the last reset was a warm one -/
  warm : Bool := false
  /-- the key coat has started the supervisor (R540) -/
  started : Bool := false
  /-- a reset that follows the request being served: 1 warm, 2 cold (R418, R486) -/
  due : Option Nat := none
  /-- main supply is lost and the power-fail sequence has run (R487) -/
  powerLost : Bool := false
  /-- the conditions of QUIET have held since then, ns (R547) -/
  idleSince : Option Nat := none
  img : Option KolefImg := none
  deriving DecidableEq, Repr

end Sys2Proof.Machine
end

