-- ==== Sys2Proof/Machine/StateCan.lean ====
section
/-!
DEFINITION. State of the CAN controllers and transmit slots (R433 to R443).
-/

namespace Sys2Proof.Machine

/-- Where a queued frame stands (R437, R440). -/
inductive FramePhase | waiting | arbitrating | sending
  deriving DecidableEq, Repr

/-- A frame queued on a controller (R434 to R437). -/
structure CanFrame where
  /-- 0 XL, 1 FD, 2 CC -/
  format : Nat
  id : Nat
  extended : Bool
  sdt : Nat
  vcid : Nat
  af : Nat
  data : List Byte
  /-- the slot unit it belongs to; none for a Nerlil message -/
  slot : Option Nat
  phase : FramePhase
  /-- an abort was latched too late (R440) -/
  late : Bool
  deriving DecidableEq, Repr

/-- One controller's working state (R438 to R441). -/
structure CanCtl where
  queue : List CanFrame := []
  /-- the transmit and receive error counts; the objects show them up to 255 -/
  tec : Nat := 0
  rec_ : Nat := 0
  /-- when bus-offs happened, ns, newest first (R438) -/
  busOffs : List Nat := []
  /-- collisions by identifier with their times, newest first (R439) -/
  collisions : List (Nat × Nat) := []
  deriving DecidableEq, Repr

/-- A transmit slot (R136, R436). -/
structure CanSlot where
  count : Nat := 0
  /-- the last value sent, and when, ns (R137) -/
  last : Option Int := none
  lastAt : Nat := 0
  /-- a replacement value that waits behind a frame in arbitration (R437) -/
  next : Option Int := none
  deriving DecidableEq, Repr

/-- Both controllers and their slots. -/
structure Can where
  ctl : Table CanCtl := []
  slots : Table CanSlot := []
  /-- requests seen on one bus in REDUNDANT: node, txn, op, object, offset, ns (R442) -/
  seen : List (Nat × Nat × Nat × Nat × Nat × Nat) := []
  deriving DecidableEq, Repr

end Sys2Proof.Machine
end

