-- ==== Sys2Proof/Machine/StateMix.lean ====
section
/-!
DEFINITION. State of Skim, the wet edge, host and TDM audio, and Screed (chapters 8, 9 and 17).  Values are integers in
units of the least bit of their format: Q17.39 on local buses, Q25.39 on chain buses, Q9.23 at the taps, Q1.31 at the
inputs.
-/

namespace Sys2Proof.Machine

/-- A ramp unit (R248): current gain, target and step in Q3.37, and the steps remaining. -/
structure Ramp where
  cur : Int := 0
  target : Int := 0
  step : Int := 0
  left : Nat := 0
  deriving DecidableEq, Repr

/-- One entry of a safe-load set (R249): ADDR, VALUE and TIME. -/
structure LoadEntry where
  addr : Nat
  value : Nat
  time : Nat
  deriving DecidableEq, Repr

/-- A set that is PENDING or TAKEN, or a one-entry set (R250, R269). -/
structure LoadSet where
  /-- 16 x tenant + slot; none for a dictionary write to a Screed object -/
  slot : Option Nat
  applyTick : Nat
  /-- the earliest sample it may apply at -/
  due : Nat
  seq : Nat
  entries : List LoadEntry
  late : Bool
  /-- it waited for loader room -/
  deferred : Bool := false
  /-- the sample it was taken for -/
  taken : Option Nat := none
  deriving DecidableEq, Repr

/-- A linear gain on outputs (R41, R379, R457): from pass `start` over `len` passes, up or down. -/
structure Fade where
  start : Nat
  len : Nat
  up : Bool
  deriving DecidableEq, Repr

/-- Where a wet edge stands (R469 to R474). -/
inductive WetPhase | idle | pending | crossing | dipOut | dipIn
  deriving DecidableEq, Repr

/-- A wet edge (R469 to R475). -/
structure Wet where
  phase : WetPhase := .idle
  /-- crossfade, else staged -/
  cross : Bool := false
  /-- S, and F or D -/
  start : Nat := 0
  len : Nat := 0
  /-- the changed set: destinations as 4096 x kind + index -/
  changed : List Nat := []
  /-- the tenant that wrote Go -/
  tenant : Option Nat := none
  late : Bool := false
  deriving DecidableEq, Repr

/-- What arrived of one bus stream (R251 to R253): complete packets by sample with their CONTRIB, the values last used,
and the consecutive samples missed. -/
structure Stream where
  packets : Table (Nat × Table Int) := []
  last : Table Int := []
  missing : Nat := 0
  /-- the end chip that started it -/
  origin : Nat := 0xFF
  deriving DecidableEq, Repr

/-- Skim (R231 to R258, R469 to R480). -/
structure Skim where
  /-- images of the current and the next coat; empty for the empty coat, and for no next coat (R246) -/
  current : List Byte := []
  next : List Byte := []
  ramps : Table Ramp := []
  sets : List LoadSet := []
  nextSet : Nat := 0
  /-- external destination values of the last pass and of the one before, by 4096 x kind + index (R240, R479) -/
  outs : Table Int := []
  prevOuts : Table Int := []
  /-- the sample of the last pass, plus 1 -/
  passed : Nat := 0
  /-- this chip's contributions by sample; the last one repeats in an overrun (R252, R479) -/
  own : Table (Table Int) := []
  /-- samples whose rising and falling packet has been forwarded, the newest -/
  sentRising : Nat := 0
  sentFalling : Nat := 0
  rising : Stream := {}
  falling : Stream := {}
  /-- TDM inputs received in the last tick and in the one before (R257) -/
  tdmIn : Table Int := []
  tdmIn1 : Table Int := []
  /-- host audio in: the samples of a frame at 1024 x (frame mod 2) + channel (R405) -/
  hostIn : Table (List Int) := []
  /-- peaks of the local buses in the frame so far (R258) -/
  peaks : Table Nat := []
  /-- and of the last frame -/
  framePeaks : Table Nat := []
  wet : Wet := {}
  /-- sample of the last overrun, plus 1 (R479) -/
  overrun : Nat := 0
  /-- gains on all outputs, and on chain contributions alone, the newest last -/
  outFades : List Fade := []
  addFades : List Fade := []
  /-- frame in which a SEND_DENIED entry was last written for a tenant, plus 1 (R234) -/
  deniedFrame : Table Nat := []
  deriving DecidableEq, Repr

/-- A Screed instance's state (R260 to R264): the input history, newest first, r, and the mean square. -/
structure ScreedInst where
  line : List Int := []
  r : Int := 0
  rms : Nat := 0
  deriving DecidableEq, Repr

/-- Screed (R259 to R271). -/
structure Screed where
  insts : Table ScreedInst := []
  /-- the returns that the next pass reads, and those just formed (R257, R259) -/
  rets : Table Int := []
  newRets : Table Int := []
  /-- gain of a final limiter as numerator and denominator, by 4096 x kind + channel (R266) -/
  gains : Table (Nat × Nat) := []
  /-- what the final limiters gave in the last tick, Q1.23, by 4096 x kind + channel -/
  limited : Table Int := []
  /-- what the TDM pins carry in this tick, by channel (R24) -/
  pins : Table Int := []
  /-- host outputs of the samples of two frames: at 64 x (frame mod 2) + i, by channel (R406) -/
  hostOut : Table (Table Int) := []
  /-- the crossing from Skim is dead (R270) -/
  lost : Bool := false
  deriving DecidableEq, Repr

end Sys2Proof.Machine
end

