-- ==== Sys2Proof/Machine/StateChain.lean ====
section
/-!
DEFINITION. State of the Lath ports and lanes and of the chain: census, view, losses, chain writes, home changes and stem
streams (chapters 12 and 13).
-/

namespace Sys2Proof.Machine

/-- A message that a port is reassembling (R328). -/
structure OpenMsg where
  type : Nat
  msg : Nat
  src : Nat
  data : List Byte
  deriving DecidableEq, Repr

/-- A HELLO's content (R342). -/
structure Hello where
  role : Nat
  version : Nat
  width : Nat
  serial : List Byte
  deriving DecidableEq, Repr

/-- A port's working state (R324 to R347, R359, R360). -/
structure Port where
  /-- the SEQ expected next, and whether NAK has been set for the present gap -/
  expect : Nat := 0
  nak : Bool := false
  /-- the slots so far of a flit that goes on in the next codeword -/
  part : List Byte := []
  /-- by class -/
  openMsgs : Table (Option OpenMsg) := []
  /-- the last ACK received, resends from it, and when replays happened, ns, newest first -/
  ack : Nat := 255
  resends : Nat := 0
  replays : List Nat := []
  /-- credits spent, by class (R331) -/
  spent : Table Nat := []
  peer : Option Hello := none
  /-- when RETRAINs began since the port was last UP, ns; trainings that failed -/
  retrains : List Nat := []
  failedTrainings : Nat := 0
  /-- the PDELAY_REQ in progress: SEQ and t₁; the last 16 link delays, newest first; all in 1/65,536 ns -/
  delaySeq : Nat := 0
  delayAsked : Option (Nat × Nat) := none
  delays : List Nat := []
  /-- when the last HEARTBEAT came, ns; consecutive ones with RENDERING 0 -/
  heard : Nat := 0
  idleBeats : Nat := 0
  /-- its neighbour has been declared lost and the port counts as unconnected until the next census (R360) -/
  declared : Bool := false
  deriving DecidableEq, Repr

/-- A lane's working state (R346): failures, ns, newest first; the 1 ms window of corrected symbols. -/
structure Lane where
  failures : List Nat := []
  windowAt : Nat := 0
  corrected : Nat := 0
  deriving DecidableEq, Repr

/-- A census record (R352); serials are numbers with octet 0 most significant. -/
structure CensusRec where
  serial : Nat := 0
  preferred : Nat := 0xFF
  last : Nat := 0xFF
  cls : Nat := 2
  flags : Nat := 0
  level : Nat := 0
  lowest : Nat := 0
  epoch : Nat := 0
  seq : Nat := 0
  hops : Nat := 0
  members : Nat := 0
  hash : Nat := 0
  firmware : Nat := 0
  anchor : Nat := 0
  deriving DecidableEq, Repr

/-- An entry of VIEW_APPLY (R383). -/
structure ViewEntry where
  serial : Nat
  number : Nat
  state : Nat
  cause : Nat
  /-- hop weight of its UP link -/
  weight : Nat
  deriving DecidableEq, Repr

/-- A view, its entries in canonical order (R353 to R356). -/
structure View where
  entries : List ViewEntry := []
  ring : Bool := false
  cut : Nat := 0xFF
  anchor : Nat := 0
  master : Nat := 0
  epoch : Nat := 0
  hash : Nat := 0
  deriving DecidableEq, Repr

/-- A loss report (R361). -/
structure Loss where
  lost : Nat
  switch : Nat
  effective : Nat
  mine : Bool := false
  switched : Bool := false
  deriving DecidableEq, Repr

/-- A chain write that has been proposed (R374). -/
structure Proposal where
  object : Nat
  value : Nat
  epoch : Nat
  applyAt : Nat
  /-- a tempo change's Set, Relocate and ApplyTick (R462) -/
  extra : List Nat := []
  /-- the members that CONFIG_APPLY listed, once it has come -/
  listed : Option (List Nat) := none
  /-- the anchor's hash after the write, as CONFIG_APPLY gave it -/
  hash : Nat := 0
  deriving DecidableEq, Repr

/-- The request of a chain write that this chip's writer waits on. -/
structure ChainWriter where
  path : Path
  txn : Nat
  op : Nat
  object : Nat
  data : List Byte
  master : Option Nat
  deriving DecidableEq, Repr

/-- A new home waits for inventories (R367): the layer, boundary E, and the members still to come. -/
structure HomeWait where
  layer : Nat
  start : Nat
  missing : List Nat
  deriving DecidableEq, Repr

/-- The chain as one chip sees it. -/
structure ChainNet where
  ports : Table Port := []
  lanes : Table Lane := []
  /-- the census: number, when the own record was sent and the last new one came, ns -/
  censusSeq : Nat := 0
  censusOn : Bool := false
  sentAt : Option Nat := none
  newAt : Nat := 0
  /-- records with the port they came by -/
  recs : List (CensusRec × Nat) := []
  relayed : List (Nat × Nat) := []
  /-- hops of the own record that came back -/
  ring : Option Nat := none
  /-- the view computed when the census settled, when, and the votes so far: SERIAL and hash -/
  computed : Option View := none
  settledAt : Nat := 0
  votes : List (Nat × Nat) := []
  voteRelayed : List (Nat × Nat) := []
  /-- hashes of VIEW_APPLY messages already relayed -/
  applyRelayed : List (Nat × Nat) := []
  /-- the next view and its boundary -/
  nextView : Option (View × Nat) := none
  view : View := {}
  losses : List Loss := []
  /-- ports that were cut before the last SWITCH, and that tick (R362) -/
  oldCut : List Nat := []
  switchAt : Nat := 0
  /-- the epoch of packets of passes before a tick (R374) -/
  oldEpoch : Nat := 0
  epochFrom : Nat := 0
  proposal : Option Proposal := none
  /-- the anchor's open write: votes so far, by chip -/
  anchorVotes : Option (List (Nat × Nat)) := none
  applySent : Bool := false
  writer : Option ChainWriter := none
  /-- a new time master that has yet to hold for 1 s: its number and since when, ns (R365) -/
  elect : Option (Nat × Nat) := none
  waits : List HomeWait := []
  /-- CONFIG_DATA is awaited for a Resync -/
  resync : Bool := false
  /-- a re-check at the next frame boundary (R380) -/
  recheck : Bool := false
  /-- stem streams by step tick, and this chip's contributions (R336) -/
  stemRising : Stream := {}
  stemFalling : Stream := {}
  stemOwn : Table (Table Int) := []
  /-- the newest step presented, plus 1 -/
  stemShown : Nat := 0
  syncSeq : Nat := 0
  deriving DecidableEq, Repr

end Sys2Proof.Machine
end

