-- ==== Sys2Proof/Machine/StateHod.lean ====
section
/-!
DEFINITION. State of Hod: drives, volumes, the stream cache, cursors, imports, and remote streams (chapter 10).
-/

namespace Sys2Proof.Machine

/-- The superblock fields in use (R276). -/
structure Superblock where
  flags : Nat := 0
  id : Nat := 0
  extents : Nat := 0
  slots : Nat := 0
  generation : Nat := 0
  salt : Nat := 0
  dataExt : Nat := 0
  imageHash : Nat := 0
  deriving DecidableEq, Repr

/-- A directory entry (R278). -/
structure DirEntry where
  state : Nat := 0
  channels : Nat := 1
  format : Nat := 0
  head : Nat := 0
  key : Nat := 0
  rate : Nat := 48000
  mapIndex : Nat := 0
  length : Nat := 0
  loopStart : Nat := 0
  loopEnd : Nat := 0
  extents : Nat := 0
  deriving DecidableEq, Repr

/-- A tag table entry (R280). -/
structure TagEntry where
  tag : List Byte := []
  gen : Nat := 0
  object : Nat := 0
  crc : Nat := 0
  deriving DecidableEq, Repr

/-- A volume slot's loaded metadata (R282). -/
structure Volume where
  sb : Superblock := {}
  /-- key table entries: KEY_ID and KCV -/
  keys : Table (Nat × List Byte) := []
  /-- indices of keyless entries (R277) -/
  keyless : List Nat := []
  dir : Table DirEntry := []
  map : Table Nat := []
  tags : Table TagEntry := []
  /-- tag table extents read in this cache lifetime are part of the cache (R284) -/
  bad : List Nat := []
  /-- metadata octets held in DRAM -/
  metaBytes : Nat := 0
  deriving DecidableEq, Repr

/-- A cached extent: its volume number, object and index in the extent list, plaintext, last use, pinned (R283). -/
structure Extent where
  volume : Nat
  object : Nat
  index : Nat
  data : List Byte
  used : Nat
  pinned : Bool := false
  deriving DecidableEq, Repr

/-- A read in flight (R274, R284, R293, R295). -/
structure Read where
  volume : Nat
  object : Nat
  index : Nat
  /-- none for imports, metadata and preload -/
  need : Option Nat
  attempts : Nat := 1
  /-- a reread after a verification failure (R293) -/
  reread : Bool := false
  issued : Nat := 0
  tenant : Nat := 0xFF
  pin : Bool := false
  /-- the serving chip asked, and those already tried -/
  server : Option Nat := none
  tried : List Nat := []
  deriving DecidableEq, Repr

/-- A read asked for by another chip (R295). -/
structure Served where
  chip : Nat
  volume : Nat
  object : Nat
  index : Nat
  deriving DecidableEq, Repr

/-- A stream cursor (R285 to R291). -/
structure Cursor where
  /-- internal number of its voice -/
  voice : Nat
  /-- place of the SMP instance in the kernel sequence -/
  instance_ : Nat
  tenant : Nat
  volume : Nat
  object : Nat
  start : Nat
  mode : Nat
  rmax : Nat
  channels : Nat := 1
  ended : Bool := false
  looping : Bool := false
  tail : Bool := false
  underrun : Bool := false
  remote : Bool := false
  fill : Nat := 0
  objPos : Nat := 0
  w : Nat := 0
  endStream : Option Nat := none
  /-- FADE: the gain, of 32,768, when the present gap began; frames filled in it; frames written since it ended (R291) -/
  fade : Nat := 32768
  missing : Nat := 0
  risen : Nat := 0
  /-- the last frame written from data, by channel -/
  lastFrame : List Int := []
  releaseFrame : Option Nat := none
  /-- the window: stream frame f of channel c at (f mod W) x channels + c (R288) -/
  window : Table Int := []
  /-- the stream frame after the last fill frame -/
  fillEnd : Nat := 0
  /-- its object's length and loop, and extent count, as the directory gave them at open -/
  entry : DirEntry := {}
  /-- the volume was retired: the voice ends after its fill reaches 0 (R293) -/
  dying : Bool := false
  deriving DecidableEq, Repr

/-- A drive (R39, R272, R293). -/
structure Drive where
  /-- when counted failures happened, ns, newest first -/
  failures : List Nat := []
  /-- port resets tried for a link down, ns, newest first -/
  linkDowns : List Nat := []
  controllerReset : Bool := false
  deriving DecidableEq, Repr

/-- An import in progress (R289, R297). -/
structure Import where
  slot : Nat := 0xFF
  object : Nat := 0
  master : Nat := 0
  /-- its directory entry -/
  entry : List Byte := []
  data : List Byte := []
  isOpen : Bool := false
  finishing : Bool := false
  deriving DecidableEq, Repr

/-- Hod as a whole. -/
structure Hod where
  /-- Cache.Bytes and Meta.Bytes in force since the warm reset (R297, R313) -/
  cacheBytes : Nat := 8589934592
  metaBytes : Nat := 2147483648
  drives : Table Drive := []
  /-- next drive number to enumerate -/
  enumerated : Nat := 0
  volumes : Table Volume := []
  cache : List Extent := []
  reads : List Read := []
  served : List Served := []
  cursors : Table (Option Cursor) := []
  import_ : Import := {}
  /-- volumes offered by other chips: chip, number, VOLUME_ID, IMAGE_HASH (R294) -/
  offers : List (Nat × Nat × Nat × Nat) := []
  /-- a master's X on a mount that is in progress, by slot -/
  mounting : Table Nat := []
  /-- frame of the last UNDERRUN snag by tenant, plus 1 -/
  underrunFrame : Table Nat := []
  deriving DecidableEq, Repr

end Sys2Proof.Machine
end

