-- ==== Sys2Proof/Machine/StateIo.lean ====
section
/-!
DEFINITION. State of memory errors (chapter 11), of the serial ports, CV outputs, sense inputs and TDM ports (chapters 19
and 21).
-/

namespace Sys2Proof.Machine

/-- What memories remember of their errors (R299, R300, R310, R315, R316). -/
structure MemErr where
  /-- counts by instance (R321) -/
  corrected : Table Nat := []
  uncorrected : Table Nat := []
  /-- corrections of a word, ns, newest first, by 2^20 x instance + word -/
  fixes : Table (List Nat) := []
  /-- words that hold an uncorrectable error: place / 8 -/
  bad : List Nat := []
  /-- correctable errors of a DRAM page, ns, newest first -/
  pages : Table (List Nat) := []
  /-- DRAM_DEGRADED has been raised -/
  degraded : Bool := false
  /-- Conflict.Clear has been written; the tick of the last clearing, plus 1 -/
  clearConflicts : Bool := false
  clearedAt : Nat := 1
  deriving DecidableEq, Repr

/-- What a UART carries beside its objects (R508 to R525). -/
structure Uart where
  /-- receive and transmit entries, oldest first (R510) -/
  rx : List Nat := []
  tx : List Nat := []
  /-- the character in progress, as a transmit entry -/
  sending : Option Nat := none
  /-- an own XON or XOFF that is due (R514) -/
  flow : Option Nat := none
  /-- collisions of the present character, and the character while it waits to be sent again (R516) -/
  attempts : Nat := 0
  retry : Option Nat := none
  /-- characters were discarded before the next one; how many since the last report, and when that was -/
  lost : Bool := false
  discarded : Nat := 0
  overrunAt : Option Nat := none
  /-- Uart.Status conditions (R511) -/
  timeout : Bool := false
  collision : Bool := false
  woke : Bool := false
  paused : Bool := false
  xoffSent : Bool := false
  /-- when DE goes low, ns; 0 low, all ones while it sends (R517) -/
  deUntil : Nat := 0
  /-- Mode, Divider and Format still in force while a write waits for the character in progress (R512) -/
  cfg : Option (Nat × Nat × Nat) := none
  autobaud : Bool := false
  /-- MIDI received: running status and data octets still to come, and those of the message so far (R518) -/
  track : Nat × Nat := (0, 0)
  data : List Nat := []
  /-- the same of its own sent messages and of thru messages, and the UART the present one comes from (R520) -/
  outTrack : Nat × Nat := (0, 0)
  thruTrack : Nat × Nat := (0, 0)
  thruFrom : Option Nat := none
  thru : List (Nat × Nat) := []
  realTime : List Nat := []
  /-- entries dropped since the last MIDI_LOST, and when that was (R519) -/
  dropped : Nat := 0
  droppedAt : Option Nat := none
  /-- DMX: when the last packet began; a packet is being received, its octets, one had a framing error (R521, R522) -/
  dmxAt : Option Nat := none
  dmxOpen : Bool := false
  dmxBuf : List Byte := []
  dmxBad : Bool := false
  /-- RDM controller: end of the request; what is captured: begun by a break, octets, a framing error (R523) -/
  rdmEnd : Nat := 0
  capture : Option (Bool × List Byte × Bool) := none
  /-- RDM responder: an answer of its own, with a break or not; the end of a request that awaits one; a response in the
  outbox (R524) -/
  answer : Option (Bool × List Byte) := none
  request : Option Nat := none
  response : Option (List Byte) := none
  deriving DecidableEq, Repr

/-- A CV channel (R526 to R530). -/
structure CvChan where
  /-- the load queue: sample and code of R137 -/
  queue : List (Nat × Nat) := []
  /-- the code of R137 that is loaded -/
  base : Nat := 0x8000
  /-- the code in force before the last load -/
  before : Nat := 0x8000
  /-- the last 16 valid read-backs, newest first: true is a match -/
  backs : List Bool := []
  /-- when FAULT was entered, ns, newest first -/
  faults : List Nat := []
  /-- a control voice has driven it since the reset -/
  driven : Bool := false
  deriving DecidableEq, Repr

/-- A sense input (R531, R532). -/
structure SenseIn where
  /-- the smoother's memory -/
  acc : Int := 0
  /-- the last two smoothed samples with their ticks, newest first -/
  seen : List (Nat × Int) := []
  /-- the last value sent since the binding -/
  sent : Option Int := none
  /-- since when it clips, whether that was reported, and when a SENSE_CLIP was last written -/
  clipSince : Option Nat := none
  clipped : Bool := false
  clipAt : Option Nat := none
  deriving DecidableEq, Repr

/-- A TDM port (R572, R583). -/
structure TdmPort where
  /-- a write of Mode or Framing waits for the boundary -/
  change : Bool := false
  /-- its inputs read 0 before that tick -/
  quietUntil : Nat := 0
  deriving DecidableEq, Repr

/-- The serial ports, CV outputs, sense inputs and TDM ports. -/
structure Ports where
  uarts : Table Uart := []
  cvs : Table CvChan := []
  senses : Table SenseIn := []
  tdms : Table TdmPort := []
  deriving DecidableEq, Repr

end Sys2Proof.Machine
end

