-- ==== Sys2Proof/Machine/StateTrowel.lean ====
section
/-!
DEFINITION. State of the Trowel cores, their threads, the task boards and the gang controllers
(chapters 5 to 7).
-/

namespace Sys2Proof.Machine

/-- The registers of a thread (R142); X is by physical number (R144). -/
structure Regs where
  x : Table (BitVec 16) := []
  a : Table (BitVec 40) := []
  p : Table (BitVec 24) := []
  m : Table (BitVec 32) := []
  lc : BitVec 16 := 0
  bx : BitVec 16 := 0
  st : BitVec 32 := 0x300
  deriving DecidableEq, Repr

/-- What one write to a register does (R160, R161, R175). -/
inductive RegWrite
  | x (n : Nat) (v : BitVec 16)
  | a (n : Nat) (v : BitVec 40)
  /-- A.G, A.H and A.L alone (R142) -/
  | aG (n : Nat) (v : BitVec 8)
  | aH (n : Nat) (v : BitVec 16)
  | aL (n : Nat) (v : BitVec 16)
  | p (n : Nat) (v : BitVec 24)
  | m (n : Nat) (v : BitVec 32)
  | mLo (n : Nat) (v : BitVec 16)
  | mHi (n : Nat) (v : BitVec 16)
  | lc (v : BitVec 16)
  | bx (v : BitVec 16)
  | wb (v : BitVec 3)
  /-- Z, N, V and C take values; OV and SV are only ever set -/
  | flags (z n v c ov sv : Bool)
  | setSv
  | stMove (v : BitVec 32)
  | stSet (mask : BitVec 32)
  | stClr (mask : BitVec 32)
  deriving DecidableEq, Repr

/-- A write that later slots do not all see yet: the cycle at whose end it lands, and its slot (R159 to R161). -/
structure Pending where
  cycle : Nat
  slot : Nat
  write : RegWrite
  deriving DecidableEq, Repr

/-- Thread states (R201). -/
inductive ThreadState | off | idle | ready | run | parked
  deriving DecidableEq, Repr

/-- What a parked thread waits for (R209, R219). -/
inductive Wait
  | none
  | flags (mask : BitVec 16)
  | sema (sem : Nat) (xd : Nat)
  deriving DecidableEq, Repr

/-- The shadow an interrupt saves into (R213). -/
structure Shadow where
  pc : BitVec 16
  st : BitVec 32
  loop : Option (Nat × Nat)
  deriving DecidableEq, Repr

/-- One thread (R141, R201 to R217). -/
structure Thread where
  regs : Regs := {}
  writes : List Pending := []
  /-- the next issue slot -/
  slot : Nat := 0
  pc : BitVec 16 := 0x4000
  /-- delay slots left, and the target of the branch if it was taken (R184) -/
  delay : Option (Nat × Option (BitVec 16)) := none
  /-- the loop state S and E (R188) -/
  loop : Option (Nat × Nat) := none
  /-- repetitions left of the instruction at PC (R191) -/
  rpt : Nat := 0
  ef : BitVec 16 := 0
  /-- OFF reads as IDLE on thread 0 (R201) -/
  state : ThreadState := .off
  wait : Wait := .none
  shadow : Option Shadow := none
  /-- goes READY at the next frame strobe in either mode (R223) -/
  restart : Bool := false
  deriving DecidableEq, Repr

/-- What thread 0 of a core runs (R163, R166). -/
inductive Running
  | nothing
  /-- a voice pass: LEAD slot, the instance it stands at, and whether that is a USER instance -/
  | voice (lead inst : Nat) (user : Bool)
  | task (t : Nat)
  deriving DecidableEq, Repr

/-- A core's run list and its record of faults (R163, R226 to R228). -/
structure CoreRun where
  running : Running := .nothing
  /-- an instance or task has executed DONE and the task board has not gone on (R193) -/
  doneAt : Bool := false
  /-- voice passes still to run in this frame, by LEAD slot -/
  voices : List Nat := []
  /-- effects tasks still to run in this frame -/
  tasks : List Nat := []
  /-- when counted faults happened, ns, newest first (R228) -/
  faults : List Nat := []
  /-- the slice of the self-check that comes next, and a first mismatch (R227) -/
  slice : Nat := 0
  mismatch : Bool := false
  /-- a gang or core reset or a reinstatement is in progress: S is 0 (R490, R228) -/
  inReset : Bool := false
  /-- its gang is gated after a thermal trip (R566) -/
  tripped : Bool := false
  /-- it passed a full self-check and is restored at the next boundary (R228) -/
  reinstate : Bool := false
  deriving DecidableEq, Repr

/-- A held gang semaphore: its holder as core and thread, tenant and expiry (R218). -/
structure SemHold where
  core : Nat
  thread : Nat
  tenant : Nat
  expiry : Nat
  deriving DecidableEq, Repr

/-- A gang semaphore (R218 to R220). -/
structure Sem where
  held : Option SemHold := none
  revoked : Bool := false
  /-- threads whose lease was revoked and whose later SEMR does nothing silently (R220) -/
  former : List (Nat × Nat) := []
  /-- parked threads in order of arrival: core, thread, destination register -/
  queue : List (Nat × Nat × Nat) := []
  deriving DecidableEq, Repr

/-- An enabled effects task's order of enabling (R167). -/
structure TaskRun where
  enabledAt : Nat := 0
  /-- consecutive frames in which it stalled, and the last of them, plus 1 (R225) -/
  stallFrames : Nat := 0
  stalledAt : Nat := 0
  /-- the frame in which its thread 0 last executed DONE before the deadline, plus 1 (R256) -/
  doneFrame : Nat := 0
  deriving DecidableEq, Repr

/-- The Trowel array as a whole. -/
structure Trowel where
  /-- by 4 x core + thread -/
  threads : Table Thread := []
  cores : Table CoreRun := []
  /-- by 64 x gang + semaphore -/
  sems : Table Sem := []
  /-- enabled tasks by number -/
  tasks : Table TaskRun := []
  enableCount : Nat := 0
  /-- thermal steps decided and not yet taken: gang to clock in MHz and when it was decided, ns (R565) -/
  clockStep : Table (Nat × Nat) := []
  /-- gangs that trip at the next boundary (R566) -/
  trips : List Nat := []
  /-- a code load in progress: image, base, core mask (R169) -/
  load : Option (List Byte × Nat × Nat) := none
  /-- EffectBytes, VoiceBytes and TableBytes in force since the warm reset (R170) -/
  voiceBytes : Nat := 655360
  tableBytes : Nat := 262144
  deriving DecidableEq, Repr

end Sys2Proof.Machine
end

