-- ==== Sys2Proof/Machine/StateVoice.lean ====
section
/-!
DEFINITION. State of setup objects, voices, Hawk and Stipple (chapters 2 to 4).
-/

namespace Sys2Proof.Machine

/-! ### Setup objects (R53 to R55, R110, R132) -/

/-- One committed version of a handle. -/
structure Version where
  ver : Nat
  image : List Byte
  /-- the definitions copied at commit, by mod slot (R111) -/
  defs : Table (List Byte) := []
  hash : Nat := 0
  owner : Nat := 0xFF
  /-- members that hold the version of a chain-wide layer, a bit each (R377) -/
  holders : Nat := 0
  deriving DecidableEq, Repr

/-- A handle: its staging image, the versions held, which one events bind to, and the next one with its boundary. -/
structure Handle where
  /-- empty when nothing is staged -/
  staging : List Byte := []
  versions : List Version := []
  current : Option Nat := none
  next : Option (Nat × Nat) := none
  nextVer : Nat := 0
  deriving DecidableEq, Repr

/-! ### Generators and mod slots (R107 to R121) -/

/-- A generator, voice or global.  Times count 1/256 ticks. -/
structure Gen where
  def_ : List Byte := []
  /-- its start: the voice's onset, or the enable of a global generator (R109) -/
  tau : Nat := 0
  /-- the voice's unipolar velocity and note at τ, none for a global generator (R112, R114) -/
  scale : Option (Nat × Nat) := none
  /-- what SEED is XORed with (R112) -/
  id : Nat := 0
  /-- the stage or step it is in, when it entered it and at what level -/
  stage : Nat := 0
  start : Nat := 0
  entry : Int := 0
  /-- beats passed in the stage, or since τ for an LFO, in 1/(15,360,000 fs) beat (R114, R128) -/
  beats : Nat := 0
  /-- beats since τ, in the same unit -/
  run : Nat := 0
  /-- the time of the last step -/
  seen : Nat := 0
  /-- 1/256 ticks of its life before τ, and of its stage before its start: carried over rate transitions (R458) -/
  base : Nat := 0
  into : Nat := 0
  hold : Bool := false
  released : Bool := false
  done : Bool := false
  finished : Bool := false
  level : Int := 0
  /-- SLEW: the output with 32 more fraction bits; SH: the sample held -/
  acc : Int := 0
  /-- SLEW: it has made its first step; SH: the index of its last sample, plus 1 -/
  drawn : Nat := 0
  value : Int := 0
  deriving DecidableEq, Repr

/-- What the steps of a voice carry from one to the next (R121). -/
structure Mods where
  gens : List Gen := []
  /-- last value of each slot that is smoothed (R117) -/
  slewed : Table Int := []
  /-- shaped values of the last step, by slot -/
  prev : List Int := []
  deriving DecidableEq, Repr

/-! ### Voices (R62 to R75, R133 to R135) -/

/-- The states of a voice other than FREE (R73, R76, R135).  A voice is waiting from its note-on until it is placed. -/
inductive VState | waiting | placed | sounding | releasing | feathering
  deriving DecidableEq, Repr

/-- Where the notifications of an event go: the chip it was accepted on, tenant, ESQ and SEQ (R403). -/
structure Origin where
  chip : Nat
  tenant : Nat
  esq : Nat
  seq : Nat
  deriving DecidableEq, Repr

/-- What a note-on gives a voice (R63). -/
structure NoteData where
  /-- [7:4] UMP group, [3:0] channel -/
  channel : Nat
  note : Nat
  velocity : Nat
  attr : Nat
  attrType : Nat
  deriving DecidableEq, Repr

/-- A voice or control voice. -/
structure Voice where
  id : Nat
  control : Bool
  tenant : Nat
  /-- layer handle, or 0x8000 + n for a control voice -/
  handle : Nat
  zone : Nat
  template : Nat
  version : Nat
  origin : Origin
  /-- event order of its note-on (R71, R138, R504) -/
  key : List Nat
  /-- the note-on record it belongs to -/
  noteOn : Nat
  note : NoteData
  pitch : Int := 0
  level : Nat := 0
  /-- chip slot numbers, the lowest first; none while it waits and for a control voice -/
  slots : List Nat := []
  state : VState := .waiting
  late : Bool := false
  released : Bool := false
  held : Bool := false
  heldVel : Nat := 0
  migratedIn : Bool := false
  pinned : Bool := false
  /-- an incoming migration: its slots read MIGRATING and its output is discarded (R76, R100) -/
  incoming : Bool := false
  /-- an outgoing one whose output is discarded (R101) -/
  shadow : Bool := false
  /-- heard again from this frame, rising over B samples (R101) -/
  rise : Option Nat := none
  onsetTick : Nat := 0
  onsetFrac : Nat := 0
  /-- a release that waits for its sample: tick, fraction, velocity (R73) -/
  pendingRelease : Option (Nat × Nat × Nat) := none
  /-- RELEASE_TICK, RELEASE_FRAC, and the release velocity -/
  release : Option (Nat × Nat × Nat) := none
  /-- the frame from which it feathers, and the END_REASON (R73, R79, R87) -/
  featherFrom : Option (Nat × Nat) := none
  /-- it ends without a feather at the boundary of that frame, with that END_REASON (R166, R225, R226) -/
  endAt : Option (Nat × Nat) := none
  featherStart : Nat := 0
  featherLen : Nat := 0
  featherLeft : Nat := 0
  /-- FEATHER_GAIN, and its value when the feather began -/
  gain : Nat := 0x7FFF
  gain0 : Nat := 0x7FFF
  endReason : Nat := 0
  /-- GEN_BASE and the size of its block (R122) -/
  genBase : Option Nat := none
  genSize : Nat := 0
  /-- its entries in Skim's send table: bus and level (R233, R234) -/
  sends : List (Nat × Int) := []
  mods : Mods := {}
  /-- the frame that `mods` stands at the start of -/
  modFrame : Nat := 0
  /-- the mod block: B/4 + 1 entries for each destination (R64), and the frame it is for, plus 1 -/
  block : List (List Int) := []
  blockFrame : Nat := 0
  /-- STAGE, ATTEN and finished of the end envelope at the end of that frame (R77, R115) -/
  envEnd : Nat × Nat × Bool := (2, 255, false)
  /-- CURSOR0 to CURSOR3 (R63) -/
  cursors : List Nat := [0xFFFF, 0xFFFF, 0xFFFF, 0xFFFF]
  /-- the COMB lines, in descriptor order (R69) -/
  combs : List (List Byte) := []
  lastL : Int := 0
  lastR : Int := 0
  peak : Nat := 0
  stage : Nat := 0
  atten : Nat := 0
  age : Nat := 0
  /-- its pass for the current frame is complete -/
  passed : Bool := false
  /-- consecutive frames that ended with its pass stalled (R225) -/
  stallFrames : Nat := 0
  stalledAt : Nat := 0
  /-- per-note controllers (R127): 0 to 255 registered, 256 to 511 assignable, 512 bend, 513 pressure; values by tick -/
  perNote : Table (List (Nat × Nat)) := []
  /-- the home of a chain-wide layer's voice -/
  home : Option Nat := none
  deriving DecidableEq, Repr

/-- A note-on as note-offs match it (R71, R498). -/
structure NoteOn where
  id : Nat
  tenant : Nat
  handle : Nat
  channel : Nat
  note : Nat
  key : List Nat
  origin : Origin
  /-- its journal record, when it is a local one -/
  place : Option Nat
  /-- voices it created, by internal number -/
  voices : List Nat
  /-- a note-off has matched it -/
  off : Bool := false
  /-- all its voices are of ONE_SHOT templates, which only KILL matches (R71) -/
  oneShot : Bool := false
  deriving DecidableEq, Repr

/-- A voice that waits to be started (R29). -/
structure Start where
  voice : Nat
  /-- the frame it is due in -/
  frame : Nat
  /-- immediate, late or carried: it starts at sub-sample 0 (R27, R29) -/
  immediate : Bool
  /-- carried from an earlier frame -/
  carried : Bool := false
  /-- acceptance order across the chip -/
  order : Nat
  accepted : Nat
  onsetTick : Nat
  onsetFrac : Nat
  /-- it was carried once already, for want of a generator block (R123) or of cursors (R286) -/
  genShort : Bool := false
  cursorShort : Bool := false
  /-- the choke of R79 step 1 has been made -/
  choked : Bool := false
  /-- it is a placement order of another chip's layer, placed from step 3 on (R94) -/
  ordered : Bool := false
  deriving DecidableEq, Repr

/-- A frame's output of one place: a completed pass in the output partition, or putty (R164, R478). -/
structure Rendered where
  frame : Nat
  lead : Nat
  tenant : Nat
  stereo : Bool
  /-- its send table entries -/
  sends : List (Nat × Int)
  /-- LAST_L, LAST_R and FEATHER_GAIN of putty -/
  putty : Option (Int × Int × Nat)
  deriving DecidableEq, Repr

/-! ### Migration (R97 to R104) -/

/-- How a migration stands at its source. -/
inductive MigPhase | shipped | committed | queried
  deriving DecidableEq, Repr

/-- A migration at its source (R100, R101, R104), by the voice's internal number. -/
structure MigOut where
  voice : Nat
  frame : Nat
  phase : MigPhase := .shipped
  ready : Bool := false
  /-- COMMITTED or HELD arrived: true; ABORT or NOT_HELD arrived: false -/
  resolved : Option Bool := none
  targetChip : Nat
  targetCore : Nat
  /-- the copy on another core of this chip, by internal number -/
  localCopy : Option Nat := none
  attempts : Nat := 1
  cause : Nat := 0
  deriving DecidableEq, Repr

/-- A migration asked for and not yet begun, or to be tried again (R103, R104). -/
structure MigAsk where
  voice : Nat
  /-- the first frame whose boundary may take it -/
  frame : Nat
  chip : Option Nat
  core : Option Nat
  attempts : Nat
  /-- 0 core retirement, 1 thermal, 2 balance, 3 operator, 4 reset -/
  cause : Nat
  deriving DecidableEq, Repr

/-- A migration at its target, by the copy's internal number. -/
structure MigIn where
  voice : Nat
  frame : Nat
  source : Nat
  ready : Bool := false
  commit : Bool := false
  /-- a shadow frame was putty (R478) -/
  lost : Bool := false
  deriving DecidableEq, Repr

/-! ### Stipple (R107 to R138) -/

/-- Stipple beside the voices. -/
structure Stipple where
  /-- enabled global generators by number, and the frame they stand at the start of -/
  globals : Table Gen := []
  globalFrame : Nat := 0
  /-- their values by step tick, newest first (R129) -/
  globalSteps : Table (List (Nat × Int)) := []
  /-- controllers by tenant, group and channel, and number (R127): values by tick -/
  controllers : Table (List (Nat × Nat)) := []
  /-- pedal down by tenant, group and channel (R72) -/
  pedals : Table Bool := []
  /-- driven output targets: values by step tick, newest first (R137, R138) -/
  steps : Table (List (Nat × Int)) := []
  /-- targets that a control voice has driven and that ON_END has since set idle or held -/
  idled : Table Bool := []
  /-- presented chain stems (R336) -/
  stems : Table Int := []
  /-- cluster to frame + 1: computed, and late (R108, R477) -/
  computed : Table Nat := []
  late : Table Nat := []
  /-- GenReserve in force (R139) -/
  reserve : Nat := 1024
  deriving DecidableEq, Repr

/-! ### Hawk (R76 to R106) -/

/-- An ownership entry (R96). -/
structure Owned where
  chip : Nat
  lead : Nat
  tenant : Nat
  key : List Nat
  origin : Origin
  noteOn : Nat
  note : NoteData
  handle : Nat
  template : Nat
  version : Nat
  zone : Nat
  group : Nat
  weight : Nat
  released : Bool := false
  held : Bool := false
  heldVel : Nat := 0
  feathering : Bool := false
  /-- chips that refused its placement (R94) -/
  refused : List Nat := []
  onsetTick : Nat := 0
  onsetFrac : Nat := 0
  late : Bool := false
  /-- a report of its place has arrived -/
  known : Bool := false
  deriving DecidableEq, Repr

/-- Hawk and the voices. -/
structure Hawk where
  /-- by an internal number -/
  voices : Table (Option Voice) := []
  nextVoice : Nat := 0
  /-- the counter of VOICE_ID (R63) -/
  nextId : Nat := 1
  notes : List NoteOn := []
  nextNote : Nat := 0
  starts : List Start := []
  /-- the last frame whose boundary pass has run, plus 1 -/
  boundaryDone : Nat := 0
  /-- the frames whose deadline and whose end have been done, plus 1 (R73, R478) -/
  deadlineDone : Nat := 0
  endDone : Nat := 0
  /-- starts made for a frame: audio, control, steal searches, chain placements (R83) -/
  started : Table Nat := []
  controlStarted : Table Nat := []
  searches : Nat := 0
  chainPlaced : Nat := 0
  /-- candidate cache by pool: internal numbers, best first (R84) -/
  caches : Table (List Nat) := []
  /-- cut steals chosen in a lookahead pass: frame, candidate, start (R88) -/
  cuts : List (Nat × Nat × Start) := []
  /-- round-robin counters by 256 x layer + group (R52) -/
  rr : Table Nat := []
  /-- StealReserve in force (R106) -/
  reserve : Nat := 2
  /-- frame in which a denial entry was last written for a tenant, plus 1 (R79) -/
  deniedFrame : Table Nat := []
  rendered : List Rendered := []
  asks : List MigAsk := []
  migOut : List MigOut := []
  migIn : List MigIn := []
  /-- VOICE_IDs settled at the target: held or not, and the frame k, for QUERY (R101) -/
  settled : List (Nat × Bool × Nat) := []
  /-- ownership entries by VOICE_ID (R96) -/
  owned : Table (Option Owned) := []
  /-- digests by chip: 64 octets (R92) -/
  digests : Table (List Byte) := []
  deriving DecidableEq, Repr

/-- The setup objects. -/
structure Setup where
  templates : Table Handle := []
  layers : Table Handle := []
  modsets : Table Handle := []
  controls : Table Handle := []
  deriving DecidableEq, Repr

end Sys2Proof.Machine
end

