-- ==== Sys2Proof/Machine/StateWork.lean ====
section
/-!
DEFINITION. State of the work interface: tenants, queues, mailboxes, access tables, the Nerlil service, the
snag logs, leases, the supervisor and the event journal (chapters 14, 15 and 18).
-/

namespace Sys2Proof.Machine

/-- Tenant.State (R415). -/
inductive TenantState | disabled | active | resetting
  deriving DecidableEq, Repr

/-- What a tenant holds beside its objects (R386 to R391, R409). -/
structure Tenant where
  /-- its virtual function is enabled by the host (R387); the physical function always is -/
  vfEnabled : Bool := false
  /-- its function is in FLR (R387, R389) -/
  inFlr : Bool := false
  resetting : Bool := false
  /-- the reset in progress is with discard (R489) -/
  discard : Bool := false
  /-- FN_CTL.DISCARD (R391) -/
  ctlDiscard : Bool := false
  stcHi : Nat := 0
  stcFrac : Nat := 0
  /-- the 128 EVT_STATUS bits (R391, R409) -/
  evtStatus : Nat := 0
  /-- the 128 EVT_ENABLE bits -/
  evtEnable : Nat := 0
  snagCount : Nat := 0
  /-- the MSI-X table: word w of vector v at 4 v + w, with the Mask bit of word 3 kept inverted: PCI Express resets it to 1 (R391;
  entry 30, PRESUMED) -/
  msixTable : Table Nat := []
  /-- the MSI-X pending bits (R391) -/
  pba : Nat := 0
  /-- when the last NOTIFY was sent, ns (R431) -/
  notifyAt : Option Nat := none
  /-- a denial was already signalled in this frame (R408) -/
  deniedFrame : Option Nat := none
  /-- round-robin position over this tenant's queues of each PRIO (R400) -/
  rrQueue : Table Nat := []
  deriving DecidableEq, Repr

/-- Q_STATUS.STATE (R392). -/
inductive QueueState | disabled | running | halted
  deriving DecidableEq, Repr

/-- Q_STATUS.ERROR (R392). -/
inductive QueueError | none | badConfig | dmaError | linkDown | badDoorbell | quota
  deriving DecidableEq, Repr

/-- A notification or completion as it is written to an NQ, without PHASE and OVERFLOW (R402). -/
structure Notice where
  kind : Nat
  status : Nat
  late : Bool
  queue : Nat
  seq : Nat
  tick : Nat
  voiceId : Nat
  handle : Nat
  endReason : Nat
  note : Nat
  channel : Nat
  zone : Nat
  deriving DecidableEq, Repr

/-- A completion that waits its turn: posted in SEQ order, after its MIRROR_ACK (R401, R500). -/
structure Completion where
  notice : Notice
  /-- the journal record it completes, if the entry was accepted -/
  place : Option Nat
  ready : Bool
  deriving DecidableEq, Repr

/-- One queue: its registers and what it has in flight (R392 to R408). -/
structure Queue where
  base : Nat := 0
  cfg : Nat := 0
  bind : Nat := 0
  state : QueueState := .disabled
  error : QueueError := .none
  head : Nat := 0
  tail : Nat := 0
  seq : Nat := 0
  count : Nat := 0
  /-- the PHASE of the pass through a ring the SR16K produces (R396) -/
  phase : Bool := true
  /-- entries of the ring by slot: what the SR16K wrote, and rings it allocated itself (R387) -/
  ring : Table (List Byte) := []
  /-- ESQ entries fetched and not dispatched, oldest first (R392, R400) -/
  prefetch : List (List Byte) := []
  /-- entries of internal producers that wait for dispatch, oldest first: producer (a UART, or 16 + a sense input) and entry,
  its SEQ still 0 (R519, R532) -/
  made : List (Nat × List Byte) := []
  waiting : List Completion := []
  /-- NQ: entries posted since the last signal, and when the first was (R408) -/
  unsignalled : Nat := 0
  unsignalledAt : Option Nat := none
  /-- NQ: notifications waiting for a slot, at most 64 (R403) -/
  overflow : List Notice := []
  overflowLost : Bool := false
  /-- ESQ: CANCELLED and replay completions waiting for its next enable (R489, R502) -/
  deferred : List Notice := []
  /-- audio and stem out: the next entry carries FILLED (R406) -/
  filled : Bool := false
  /-- audio in: missing samples so far, and each channel's last sample (R405) -/
  missing : Nat := 0
  lastIn : Table Int := []
  /-- audio and stems: the frame last taken or written, plus 1 -/
  audioFrame : Nat := 0
  deriving DecidableEq, Repr

/-- Mailbox STATE (R407). -/
inductive MailState | idle | request | busy | response
  deriving DecidableEq, Repr

/-- A dictionary mailbox (R407). -/
structure Mailbox where
  state : MailState := .idle
  tag : Nat := 0
  /-- LENGTH and the octets after the header of the request half -/
  length : Nat := 0
  request : List Byte := []
  response : List Byte := []
  respTag : Nat := 0
  deriving DecidableEq, Repr

/-- A kept response (R429). -/
structure Kept where
  path : Path
  master : Option Nat
  txn : Nat
  op : Nat
  object : Nat
  offset : Nat
  length : Nat
  response : List Byte
  at_ : Nat
  deriving DecidableEq, Repr

/-- How a write session stands (R428). -/
inductive SessionEnd | isOpen | closed | expired
  deriving DecidableEq, Repr

/-- A segmented write session (R428); a closed one is kept for 1 s to judge later messages (R429). -/
structure Session where
  path : Path
  master : Option Nat
  txn : Nat
  object : Nat
  total : Nat
  data : List Byte
  lastOffset : Nat
  lastLength : Nat
  at_ : Nat
  /-- the last tick of its lease (R492) -/
  expiry : Nat
  ended : SessionEnd
  deriving DecidableEq, Repr

/-- A request waiting for another chip, or for a chain write (R430, R432, R374). -/
structure Awaited where
  path : Path
  txn : Nat
  op : Nat
  object : Nat
  offset : Nat
  length : Nat
  dst : Nat
  at_ : Nat
  deriving DecidableEq, Repr

/-- A snag entry (R484). -/
structure Snag where
  seq : Nat
  code : Nat
  count : Nat
  stc : Nat
  unit : Nat
  tenant : Nat
  source : Nat
  snap : Nat
  data : Nat
  /-- the frame it arose in, for merging (R483) -/
  frame : Nat
  returned : Bool
  deriving DecidableEq, Repr

/-- A snag log, newest entry first (R483). -/
structure SnagLog where
  entries : List Snag := []
  next : Nat := 0
  lost : Nat := 0
  deriving DecidableEq, Repr

/-- A lease other than a gang semaphore (R491 to R493). -/
structure Lease where
  kind : Nat
  owner : Nat
  unit : Nat
  /-- all ones when it has no fixed term -/
  expiry : Nat
  deriving DecidableEq, Repr

/-- STATE of a journal record (R496); a free record is not listed. -/
inductive RecState | pending | holding
  deriving DecidableEq, Repr

/-- A journal record (R496). -/
structure JRec where
  entry : List Byte
  acceptTick : Nat
  tenant : Nat
  queue : Nat
  src : Nat
  state : RecState
  posted : Bool
  late : Bool
  mirrored : Bool
  reissued : Bool
  imageHash : Nat
  /-- the CRC or the row's ECC no longer reads back (R503) -/
  unreadable : Bool := false
  /-- acceptance order across the chip (R29) -/
  order : Nat := 0
  /-- the frame in which it was forwarded to its layer's home (R91, R498) -/
  forwarded : Option Nat := none
  /-- replayed: its onset is decided by the replay tick (R502) -/
  replayTick : Option Nat := none
  /-- its pass has taken it, and its voices may still wait to be placed -/
  taken : Bool := false
  /-- the versions bound at acceptance: the handle's, and its zones' templates' (R19) -/
  bound : List Nat := []
  deriving DecidableEq, Repr

/-- A journal control block (R495). -/
structure ControlBlock where
  gen : Nat := 0
  isSealed : Bool := false
  holder : Nat := 0xFF
  stcLast : Nat := 0
  slot0 : List Byte := []
  slot1 : List Byte := []
  deriving DecidableEq, Repr

/-- Fault.Tenant.ReplayState (R502). -/
inductive ReplayState | none | waiting | done
  deriving DecidableEq, Repr

/-- The event journal (R495 to R503). -/
structure Journal where
  blockA : ControlBlock := {}
  blockB : ControlBlock := {}
  /-- the expected-SEQ table: entry 8 t + q (R495) -/
  expected : Table Nat := []
  /-- local records by place: row 4 + place / 8 -/
  recs : Table (Option JRec) := []
  mirror0 : Table (Option JRec) := []
  mirror1 : Table (Option JRec) := []
  /-- the chip number whose records a slot holds -/
  mirrorOf0 : Option Nat := none
  mirrorOf1 : Option Nat := none
  /-- retired rows, rising (R309) -/
  retiredRows : List Nat := []
  /-- what the holder last reported free, if anything (R499) -/
  mirrorFree : Option Nat := none
  /-- records freed or moved to HOLDING since the last retire list: tenant, queue, SEQ, holding (R500) -/
  retireList : List (Nat × Nat × Nat × Bool) := []
  /-- EVENT_MIRROR messages without an ACK: acceptance order, when sent, and fields (R500) -/
  unacked : List (Nat × Nat × List Nat) := []
  /-- a record has gone to the present holder -/
  mirrorStarted : Bool := false
  /-- the tenants' replay states by tenant -/
  replay : Table ReplayState := []
  /-- places of records found at boot, to be replayed (R502) -/
  toReplay : List Nat := []
  /-- completions wait while records go to a new holder (R501) -/
  remirroring : Bool := false
  /-- next acceptance order -/
  nextOrder : Nat := 0
  /-- events of chain-wide layers that this chip's Hawk applies as the home, from other chips (R91, R369) -/
  inbox : List JRec := []
  /-- forwarded events received: SRC, tenant, queue, SEQ, and the frame (R371) -/
  received : List (Nat × Nat × Nat × Nat × Nat) := []
  deriving DecidableEq, Repr

/-- The supervisor (R21, R22, R494). -/
structure Supervisor where
  restarting : Bool := false
  /-- when restarts happened, ns, newest first -/
  restarts : List Nat := []
  /-- requests that arrived during a restart, oldest first (R21) -/
  held : List (Path × Msg) := []
  deriving DecidableEq, Repr

/-- The tenant interface as a whole. -/
structure Work where
  tenants : Table Tenant := []
  queues : Table Queue := []
  mailboxes : Table Mailbox := []
  /-- doorbell order of the mailboxes in REQUEST -/
  mailOrder : List Nat := []
  /-- round-robin position over tenants of each PRIO (R400) -/
  rrTenant : Table Nat := []
  /-- access tables written through Access.Write: 128 octets by kind and unit -/
  access : Table (List Byte) := []
  /-- access tables kept in flash -/
  accessStored : Table (List Byte) := []
  /-- the staged Access.Table -/
  accessStaged : List Byte := []
  /-- port 0's mode in force since the cold reset (R415): true is a root -/
  port0Root : Bool := false
  kept : List Kept := []
  sessions : List Session := []
  awaited : List Awaited := []
  systemLog : SnagLog := {}
  tenantLogs : Table SnagLog := []
  /-- snapshots, newest first, with their index (R224, R484) -/
  snapshots : List (Nat × List Byte) := []
  nextSnap : Nat := 0
  leases : List Lease := []
  journal : Journal := {}
  supervisor : Supervisor := {}
  deriving DecidableEq, Repr

end Sys2Proof.Machine
end

