-- ==== Sys2Proof/Machine/State.lean ====
section
/-!
DEFINITION. The whole state of the block, as plain data, and the state after reset.
-/

namespace Sys2Proof.Machine

/-- Why the model stops on a command.  No command of this block stops by a fault: every fault the spec describes
is an effect on the state (INVENTORY.md, Faults). -/
inductive Fault
  /-- Raised by nothing: the spec gives every command an effect. Safe. -/
  | none
  deriving DecidableEq, Repr

/-- Why the model has no meaning for a command. -/
inductive Refusal
  /-- Raised by the dispatch of a command whose meaning is not written. Safe. -/
  | notModelled (mnemonic : String)
  deriving DecidableEq, Repr

/-- What the block puts on its pins, rings and links, in order. -/
inductive Out
  /-- an MSI-X message of a tenant's function on a vector (R409) -/
  | msix (tenant vector : Nat)
  /-- an entry written to a ring in host memory (R396) -/
  | ring (queue slot : Nat) (entry : List Byte)
  /-- the value a BAR0 read by a tenant's function returns (R391) -/
  | reg (tenant offset value : Nat)
  /-- a message out of the chain ports: port (0 UP, 1 DOWN, 2 routed as R329 says), class, type, destination
  (0xFF broadcast), tag, and its fields in the order its rule names them (R330; entry 13, DESIGN CHOICE) -/
  | lath (port cls type dst tag : Nat) (fields : List Nat)
  /-- a Nerlil message leaving on a path: a response or a NOTIFY (R426) -/
  | nerlil (path : Path) (message : List Byte)
  /-- a flit forwarded in transit out of a chain port (R329) -/
  | flit (port : Nat) (octets : List Byte)
  /-- a message that a chain port has put together for this chip: class, type, source, TAG and content; the message's
  own command acts on it (R328) -/
  | message (port cls type src tag : Nat) (content : List Byte)
  /-- a character or BREAK that a UART has sent, as its transmit entry (R510) -/
  | serial (uart entry : Nat)
  /-- a DMX or RDM packet: break and mark-after-break in us, 0 for none, then the octets (R521 to R524) -/
  | packet (uart breakUs mabUs : Nat) (octets : List Byte)
  /-- a system event source raised to the supervisor (R410) -/
  | source (n : Nat)
  /-- a line of Kolef: its STATUS and its values (R553, R555) -/
  | kolef (status : Nat) (values : List Nat)
  /-- a resend from that SEQ on (R337) -/
  | resend (port seq : Nat)
  deriving DecidableEq, Repr

/-- A write whose flash record is not yet written (R419). -/
structure FlashWrite where
  path : Path
  txn : Nat
  op : Nat
  object : Nat
  offset : Nat
  length : Nat
  master : Option Nat
  /-- the value written -/
  data : List Byte
  deriving DecidableEq, Repr

/-- A rate transition or realignment (R456 to R460). -/
structure Transition where
  x : Nat
  y : Nat
  z : Nat
  /-- the new rate's code and the new block size -/
  rate : Nat
  block : Nat
  /-- 0 before X, 1 from X, 2 from Y, 3 from Z -/
  phase : Nat := 0
  /-- T(Z), ns -/
  tz : Nat := 0
  /-- a realignment's rebase point: S_R, T_R, f -/
  rebase : Option (Nat × Nat × Nat) := none
  deriving DecidableEq, Repr

/-- The WCLK edge filter and the reference states (R448 to R451). -/
structure Ref where
  /-- the last 16 accepted periods, ps, newest first -/
  periods : List Nat := []
  /-- predicted edges that have stood in since the last accepted edge -/
  stoodIn : Nat := 0
  /-- predicted edges since the last anomaly; none before the first -/
  sinceAnomaly : Option Nat := none
  /-- consecutive accepted periods with no anomaly -/
  good : Nat := 0
  /-- the tick in which loss was declared -/
  lossTick : Nat := 0
  /-- the state before FLYWHEEL -/
  before : Nat := 0
  /-- consecutive accepted edges in the flywheel's windows -/
  flyGood : Nat := 0
  /-- when HOLDOVER began, ns; when the class-1 term of a monitor began -/
  heldAt : Nat := 0
  /-- background ACQUIRING runs -/
  acquiring : Bool := false
  /-- a RATE_MISMATCH has been reported -/
  mismatch : Bool := false
  /-- the monitor of a CHAIN chip: WCLK_IN is qualified and no loss is declared -/
  qualified : Bool := false
  deriving DecidableEq, Repr

/-- A tempo change that waits for its apply step (R462). -/
structure TempoChange where
  kind : Nat
  tempo : Nat
  position : Nat
  tick : Nat
  late : Bool
  deriving DecidableEq, Repr

/-- A timer unit's working state (R463, R464). -/
structure TimerUnit where
  /-- chain time of the last USEC count, ns; multiples of 1/96 beat passed at the last BEAT96 count -/
  mark : Nat := 0
  deriving DecidableEq, Repr

/-- The time base (R445 to R466). -/
structure Time where
  /-- the STC, in ticks (R455) -/
  stc : Nat := 0
  /-- the sample rate and block size in force (R37, R41) -/
  rate : Nat := 3
  block : Nat := 32
  /-- the rebase point in force (R452) -/
  rebaseTick : Nat := 0
  rebaseNs : Nat := 0
  rebaseHz : Nat := 96000
  /-- the tempo anchor: step tick and beat position in Q32.32 (R461) -/
  anchorStep : Nat := 0
  anchorBeat : Nat := 0
  /-- the sample clock is stopped (R457) -/
  stopped : Bool := false
  /-- frames are not dispatched (R457) -/
  silent : Bool := false
  transition : Option Transition := none
  /-- a second trigger: its boundary, rate, and a realignment's rebase point (R459) -/
  second : Option (Nat × Nat × Option (Nat × Nat × Nat)) := none
  /-- a change of B and its boundary (R41) -/
  blockNext : Option (Nat × Nat) := none
  ref : Ref := {}
  tempoChange : Option TempoChange := none
  timers : Table TimerUnit := []
  /-- when the last SYNC was received, ns; chain holdover is in force (R454) -/
  syncAt : Nat := 0
  chainHoldover : Bool := false
  /-- the chain's rebase point, fetched for a realignment (R460) -/
  chainRebase : Option (Nat × Nat × Nat) := none
  deriving DecidableEq, Repr

/-- Everything but the queue of waiting commands and the Dust Sheet. -/
structure Chip where
  /-- the running values of number objects that differ from their defaults -/
  nums : Table Nat := []
  /-- the running values of octet objects that differ from their defaults -/
  blobs : Table (List Byte) := []
  /-- the STORED records in flash (R419) -/
  flashNums : Table Nat := []
  flashBlobs : Table (List Byte) := []
  flashPending : List FlashWrite := []
  /-- how many open values have been drawn (entry 6, DESIGN CHOICE) -/
  draws : Nat := 0
  time : Time := {}
  work : Work := {}
  can : Can := {}
  trowel : Trowel := {}
  setup : Setup := {}
  hawk : Hawk := {}
  stipple : Stipple := {}
  hod : Hod := {}
  skim : Skim := {}
  screed : Screed := {}
  boot : Boot := {}
  chain : ChainNet := {}
  errs : MemErr := {}
  ports : Ports := {}
  /-- the on-chip memories that cores and the gang DMA see, as octets (R149 to R152, R254): see memLocal and its
  neighbours for the places -/
  mem : List Host.Cell := []
  out : List Out := []
  deriving DecidableEq, Repr

/-- The state: the queue of waiting commands, the block, and the Dust Sheet that no master can read (R317). -/
structure State where
  /-- commands waiting, first in, first out -/
  pending : List Instr := []
  chip : Chip := {}
  dust : DustSheet := {}
  deriving DecidableEq, Repr

/-- The block right after a cold reset, its queue empty. Entry 1, DESIGN CHOICE. -/
def State.reset : State := {}

end Sys2Proof.Machine
end

