-- ==== Sys2Proof/Machine/Ops.lean ====
section
/-!
DEFINITION. The named operations that every family shares: object values, time, permissions, event sources,
snag logs, leases, and the notification path.
-/

namespace Sys2Proof.Machine

/-! ### Outcomes -/

/-- The next state of a command that changes the block as `f` says and leaves the queue alone. -/
def State.onChip (s : State) (f : Chip → Chip) : Host.Outcome State Fault Refusal :=
  .next { s with chip := f s.chip }

/-! ### Objects (R417 to R420) -/

/-- The running value of a number object, as an unsigned pattern. -/
def Chip.num (c : Chip) (o : Nat) : Nat := tget (objDflt o) c.nums o

/-- The running value of a signed number object of `w` bits. -/
def Chip.snum (c : Chip) (w o : Nat) : Int := toSigned w (c.num o)

/-- Is a BOOL object 1? -/
def Chip.flag (c : Chip) (o : Nat) : Bool := c.num o != 0

/-- The running value of an octet object. -/
def Chip.blob (c : Chip) (o : Nat) : List Byte := tget (objDfltBytes o) c.blobs o

/-- A number object takes a value, wrapped to its width. Entry 18, DEDUCED. -/
def setNum (o v : Nat) (c : Chip) : Chip :=
  { c with nums := tset (objDflt o) c.nums o (wrap (8 * objWidth o) v) }

/-- A signed number object takes a value. -/
def setInt (o : Nat) (z : Int) (c : Chip) : Chip := setNum o (ofInt (8 * objWidth o) z) c

/-- An octet object takes a value. -/
def setBlob (o : Nat) (v : List Byte) (c : Chip) : Chip :=
  { c with blobs := tset (objDfltBytes o) c.blobs o v }

/-- A counter object goes up by `k` and saturates. Entry 18, DEDUCED. -/
def bumpBy (o k : Nat) (c : Chip) : Chip := setNum o (satAdd (8 * objWidth o) (c.num o) k) c

/-- A counter object goes up by one and saturates. Entry 18, DEDUCED. -/
def bump (o : Nat) (c : Chip) : Chip := bumpBy o 1 c

/-- `f` when `b`, else nothing. -/
def when_ {α : Type} (b : Bool) (f : α → α) (c : α) : α := if b then f c else c

/-- The tenant interface changes. -/
def modWork (f : Work → Work) (c : Chip) : Chip := { c with work := f c.work }

/-- The event journal changes. -/
def modJournal (f : Journal → Journal) (c : Chip) : Chip := modWork (fun w => { w with journal := f w.journal }) c

/-- The time base changes. -/
def modTime (f : Time → Time) (c : Chip) : Chip := { c with time := f c.time }

/-- Every element of a list acts in turn. -/
def forEach {α σ : Type} (l : List α) (f : α → σ → σ) (c : σ) : σ := l.foldl (fun c a => f a c) c

/-- The next open value (entry 6, DESIGN CHOICE). -/
def draw (c : Chip) : Nat × Chip := (Config.freeValue c.draws, { c with draws := c.draws + 1 })

/-- The block puts something out. Entry 14, DESIGN CHOICE. -/
def emit (o : Out) (c : Chip) : Chip := { c with out := c.out ++ [o] }

/-! ### The chain, seen from outside its own chapter (R330, R357, R384) -/

/-- This chip's number; 0xFF standalone (R5). -/
def Chip.me (c : Chip) : Nat := c.num Obj.identityChipNumber
/-- Chain.State MEMBER. -/
def Chip.isMember (c : Chip) : Bool := c.num Obj.chainState == 2
/-- Chain.State QUARANTINED. -/
def Chip.isQuarantined (c : Chip) : Bool := c.num Obj.chainState == 3
/-- Send a message to a chip, 0xFF for all (R329, R330). Entry 75, DESIGN CHOICE. -/
def sendLath (cls type dst tag : Nat) (fields : List Nat) (c : Chip) : Chip :=
  emit (.lath 2 cls type dst tag fields) c

/-! ### Time (R13, R24, R37, R452) -/

/-- The sample rates in Hz by the code of Plumb.SampleRate (R466). -/
def rateHz : Nat → Nat
  | 0 => 44100 | 1 => 48000 | 2 => 88200 | 3 => 96000 | 4 => 176400 | _ => 192000

/-- The sample rate in force, Hz. -/
def Chip.fs (c : Chip) : Nat := rateHz c.time.rate

/-- The block size in force. -/
def Chip.bsize (c : Chip) : Nat := c.time.block

/-- The frame the STC stands in. -/
def Chip.frame (c : Chip) : Nat := c.time.stc / c.time.block

/-- Chain time of a tick under the rebase point in force, whole ns (R452). -/
def Chip.nsOf (c : Chip) (tick : Nat) : Nat :=
  c.time.rebaseNs + (tick - c.time.rebaseTick) * 1000000000 / c.time.rebaseHz

/-- Chain time now, ns: the wall clock that durations in ms and us are measured by. -/
def Chip.now (c : Chip) : Nat := c.nsOf c.time.stc

/-- Whole ticks in `ms` milliseconds, rounded up. -/
def Chip.msTicks (c : Chip) (ms : Nat) : Nat := (ms * c.fs + 999) / 1000

/-! ### Tenants and permissions (R385 to R387, R411 to R413, R586) -/

/-- The record of a tenant. -/
def Chip.tenant (c : Chip) (t : Nat) : Tenant := tget {} c.work.tenants t

/-- A tenant's record changes. -/
def modTenant (t : Nat) (f : Tenant → Tenant) (c : Chip) : Chip :=
  { c with work := { c.work with tenants := tmod {} c.work.tenants t f } }

/-- Does the tenant have a function (R387)? -/
def Chip.hasFunction (c : Chip) (t : Nat) : Bool :=
  !c.work.port0Root && (t == 0 || (c.tenant t).vfEnabled) && !(c.tenant t).inFlr

/-- Is the tenant enabled (R386)? -/
def Chip.tenantEnabled (c : Chip) (t : Nat) : Bool := c.flag (Obj.tenantEnable t)

/-- Tenant.State (R415). -/
def Chip.tenantState (c : Chip) (t : Nat) : TenantState :=
  if (c.tenant t).resetting then .resetting else if c.tenantEnabled t then .active else .disabled

/-- The tenant of a master ID, if it is one (R385). -/
def masterTenant (m : Nat) : Option Nat := if 0x10 ≤ m ∧ m ≤ 0x1F then some (m - 0x10) else none

/-- The bits of one master in the access table as they stand by default (R412, R586): [0] R, [1] W, [2] X, [3] A. -/
def accessDefault (kind unit master : Nat) : Nat :=
  if master = 0x00 then 15
  else if master = 0x02 then
    if 0x02 ≤ kind ∧ kind ≤ 0x05 then 1 else if kind = 0x17 ∧ unit = 1 then 3 else 0
  else if master = 0x03 then
    if kind = 0x04 ∨ kind = 0x05 then 1 else if 0x10 ≤ kind ∧ kind ≤ 0x13 then 2 else 0
  else if master = 0x04 then
    if 0x06 ≤ kind ∧ kind ≤ 0x0E then 3 else if kind = 0x17 ∧ unit = 0 then 3 else 0
  else if master = 0x05 then if kind = 0x15 then 3 else 0
  else if master = 0x06 then if kind = 0x14 then 2 else if kind = 0x17 ∧ unit = 0 then 3 else 0
  else if master = 0x07 then
    if kind = 0x17 ∧ (unit = 1 ∨ (3 ≤ unit ∧ unit ≤ 18)) then 3 else if kind = 0x1A then 2 else 0
  else if master = 0x10 then if kind = 0x1A then 0 else 15
  else if 0x11 ≤ master ∧ master ≤ 0x1F then
    let n := master - 0x10
    if kind = 0x16 ∧ unit / 32 = n then 3
    else if kind = 0x17 ∧ unit = 3 + n then 3
    else if kind = 0x01 ∧ unit = 0x00 then 1 else 0
  else if 0x80 ≤ master then if kind = 0x01 ∨ kind = 0x15 then 1 else 0
  else 0

/-- Is a master's entry fixed (R412, R586)? -/
def accessConst (kind master : Nat) : Bool :=
  kind == 0x1A || !((0x10 ≤ master ∧ master ≤ 0x1F) ∨ 0x80 ≤ master ∨ master = 0x01)

/-- The units of each kind of target (R411). -/
def accessUnits : Nat → Nat
  | 0x01 => 256 | 0x02 => 4096 | 0x03 => 4096 | 0x04 => 4096 | 0x05 => 4096 | 0x06 => 1024 | 0x07 => 512
  | 0x08 => 8192 | 0x09 => 256 | 0x0A => 128 | 0x0B => 128 | 0x0C => 1024 | 0x0D => 1024 | 0x0E => 512
  | 0x10 => 32 | 0x11 => 3 | 0x12 => 128 | 0x13 => 256 | 0x14 => 256 | 0x15 => 16 | 0x16 => 512 | 0x17 => 20
  | 0x18 => 1 | 0x19 => 1 | 0x1A => 1 | _ => 0

/-- The nibble of a master in the 128-octet form (R411). -/
def accessNibble (tbl : List Byte) (master : Nat) : Nat :=
  let b := (tbl.getD (master / 2) 0).toNat
  if master % 2 = 0 then b % 16 else b / 16

/-- Kolef's level: 0 FULL, 1 SERVICE, 2 IDENT (R549). Entry 91, DEDUCED. -/
def Chip.kolefLevel (c : Chip) : Nat :=
  match c.num Obj.lifecycleState with | 2 => 1 | 4 => 2 | _ => 0

/-- Kolef's permissions on an area, where no table was written (R554). Entry 91, DEDUCED. -/
def kolefDefault (level area : Nat) : Nat :=
  match level with
  | 0 => if area = 0xA0 then 1 else 15
  | 1 => if [0x00, 0x01, 0x50, 0x70, 0x90].contains area then 1 else 0
  | _ => 0

/-- A master's entry where no table was written: Kolef's follows the life cycle (R412, R554, R586). -/
def Chip.accessBase (c : Chip) (kind unit master : Nat) : Nat :=
  if master = 0x01 ∧ kind = 0x01 then kolefDefault c.kolefLevel unit else accessDefault kind unit master

/-- The entry of a master in the table of a unit. -/
def Chip.accessEntry (c : Chip) (kind unit master : Nat) : Nat :=
  if accessConst kind master then accessDefault kind unit master
  else match tget [] c.work.access (kind * 65536 + unit) with
    | [] => c.accessBase kind unit master
    | tbl => accessNibble tbl master

/-- Does a master hold R, W, X or A (0 to 3) on a unit (R411)? -/
def Chip.may (c : Chip) (kind unit master right : Nat) : Bool := bit (c.accessEntry kind unit master) right

/-- The 128-octet form of a unit's table, as a read of Access.Table returns it (R411, R415). -/
def Chip.accessTable (c : Chip) (kind unit : Nat) : List Byte :=
  (upTo 128).map (fun i =>
    BitVec.ofNat 8 (c.accessEntry kind unit (2 * i) + 16 * c.accessEntry kind unit (2 * i + 1)))

/-! ### Event sources (R408, R409) -/

/-- Send the MSI-X message of a vector, or mark it pending while it is masked (R409). Entry 14, DESIGN CHOICE.
Entry 30, PRESUMED. -/
def msix (t v : Nat) (c : Chip) : Chip :=
  if bit (tget 0 (c.tenant t).msixTable (4 * v + 3)) 0 then emit (.msix t v) c
  else modTenant t (fun x => { x with pba := withBit x.pba v true }) c

/-- Raise source `v` of tenant `t` (R409). -/
def raise (t v : Nat) (c : Chip) : Chip :=
  let x := c.tenant t
  if bit x.evtStatus v then c
  else
    let c := modTenant t (fun x => { x with evtStatus := withBit x.evtStatus v true }) c
    when_ (bit x.evtEnable v && c.hasFunction t) (msix t v) c

/-! ### Snag logs (R483 to R485, R410) -/

/-- Add an entry to a log, merging it with the newest one of the same kind and frame (R483). -/
def SnagLog.add (cap : Nat) (x : Snag) (l : SnagLog) : SnagLog :=
  match l.entries with
  | y :: rest =>
    if y.code = x.code ∧ y.unit = x.unit ∧ y.tenant = x.tenant ∧ y.frame = x.frame then
      { l with entries := { y with count := satAdd 16 y.count 1 } :: rest }
    else
      let kept := l.entries.take (cap - 1)
      let dropped := (l.entries.drop (cap - 1)).filter (fun e => !e.returned)
      { entries := { x with seq := wrap 32 l.next } :: kept, next := l.next + 1,
        lost := satAdd 32 l.lost dropped.length }
  | [] => { entries := [{ x with seq := wrap 32 l.next }], next := l.next + 1, lost := l.lost }

/-- Codes of the system log (R485). Entry 42, DEDUCED. -/
def snagIsSystem (code : Nat) : Bool :=
  code / 256 < 8 || code == 0x100A || code == 0x100B || code == 0x1202 || code == 0x1203

/-- SOURCE of an entry: a system source's number within its group of 32 (R410, R484), where R511 or R533 numbers it; the spec
numbers none of the other sources of blocks 0x00 to 0x07 (entry 6, DESIGN CHOICE); 0xFF for codes with no group. -/
def snagSource (code unit : Nat) : Nat :=
  if code = 0x0601 ∨ code = 0x0602 then 19 + unit % 2
  else if code = 0x0610 ∨ code = 0x0611 then 4 * (unit % 4) + 2
  else if code = 0x0618 then 4 * (unit % 4) + 3
  else if code = 0x0614 then 16
  else if code = 0x0615 then 17
  else if code = 0x0617 then 18
  else if code / 256 < 8 then (Config.snagSource code).toNat
  else 0xFF

/-- Write an entry to the log its code names (R485), raise SNAG, and count it in SNAG_COUNT (R391).
`tenant` is the owning tenant, 0xFF for none; the system log is tenant 0's to learn of (R410). -/
def snagWith (code unit tenant : Nat) (snap : Nat) (data : Nat) (c : Chip) : Chip :=
  let sys := snagIsSystem code
  let x : Snag := { seq := 0, code := code, count := 1, stc := c.time.stc, unit := unit, tenant := tenant,
                    source := snagSource code unit, snap := snap,
                    data := data, frame := c.frame, returned := false }
  if sys then
    raise 0 32 { c with work := { c.work with systemLog := c.work.systemLog.add 4096 x } }
  else if tenant < 16 then
    raise tenant 32
      (modTenant tenant (fun y => { y with snagCount := satAdd 32 y.snagCount 1 })
        { c with work := { c.work with tenantLogs := tmod {} c.work.tenantLogs tenant (SnagLog.add 512 x) } })
  else c

/-- An entry with neither snapshot nor data. Entry 42, DEDUCED. -/
def snag (code unit tenant : Nat) (c : Chip) : Chip := snagWith code unit tenant 0xFFFF 0 c

/-- Attach a snapshot: the last 64 are kept (R484, R507). -/
def addSnapshot (bs : List Byte) (c : Chip) : Nat × Chip :=
  let n := c.work.nextSnap
  (n, { c with work := { c.work with snapshots := ((n, bs) :: c.work.snapshots).take 64, nextSnap := (n + 1) % 0xFFFF } })

/-- The 32 octets of an entry (R484). -/
def Snag.bytes (x : Snag) : List Byte :=
  leBytes 4 x.seq ++ leBytes 2 x.code ++ leBytes 2 x.count ++ leBytes 8 x.stc ++ leBytes 4 x.unit ++
  leBytes 1 x.tenant ++ leBytes 1 x.source ++ leBytes 2 x.snap ++ leBytes 8 x.data

/-! ### Leases (R491 to R493) -/

/-- Take or renew a lease: one lease stands for a kind and unit. -/
def leaseSet (kind unit owner expiry : Nat) (c : Chip) : Chip :=
  modWork (fun w =>
    let others := w.leases.filter (fun l => !(l.kind == kind && l.unit == unit))
    { w with leases := others ++ [⟨kind, owner, unit, expiry⟩] }) c

/-- Drop a lease. -/
def leaseDrop (kind unit : Nat) (c : Chip) : Chip :=
  modWork (fun w => { w with leases := w.leases.filter (fun l => !(l.kind == kind && l.unit == unit)) }) c

/-- The lease of a kind on a unit. -/
def Chip.lease (c : Chip) (kind unit : Nat) : Option Lease :=
  c.work.leases.find? (fun l => l.kind == kind && l.unit == unit)

/-- Is a lease of this kind and unit held by another master (R492)? -/
def Chip.leasedByOther (c : Chip) (kind unit master : Nat) : Bool :=
  match c.lease kind unit with | some l => l.owner != master | none => false

/-- The expiry all ones of a lease with no fixed term (R493). -/
def noTerm : Nat := 2 ^ 64 - 1

/-! ### Queues and notifications (R393 to R403) -/

/-- The place of queue `q` of tenant `t` (R416). -/
def qix (t q : Nat) : Nat := 32 * t + q

/-- The record of a queue. -/
def Chip.queue (c : Chip) (i : Nat) : Queue := tget {} c.work.queues i

/-- A queue's record changes. -/
def modQueue (i : Nat) (f : Queue → Queue) (c : Chip) : Chip :=
  { c with work := { c.work with queues := tmod {} c.work.queues i f } }

/-- Ring entries (R392). -/
def Queue.size (q : Queue) : Nat := 2 ^ bits q.cfg 4 0

/-- Entries outstanding (R395). -/
def Queue.outstanding (q : Queue) : Nat := (q.tail + q.size - q.head) % q.size

/-- The NQ an ESQ is bound to (R392). -/
def Queue.nq (q : Queue) : Nat := 8 + bits q.cfg 18 16

/-- Completions that hold a reserved slot in NQ `i`: those waiting at the ESQs of its tenant bound to it (R401). -/
def Chip.reserved (c : Chip) (i : Nat) : Nat :=
  ((upTo 8).map (fun e =>
    let q := c.queue (qix (i / 32) e)
    if q.nq = i % 32 then q.waiting.length else 0)).sum

/-- Does a ring the SR16K produces have a free slot (R395, R396)? -/
def Queue.hasSlot (q : Queue) : Bool := q.state == .running && decide (q.outstanding + 1 < q.size)

/-- Does an NQ have a free slot beyond the reserved ones (R401)? -/
def Chip.nqFree (c : Chip) (i : Nat) : Bool :=
  let q := c.queue i
  q.state == .running && decide (q.outstanding + c.reserved i + 1 < q.size)

/-- Write one entry to a ring the SR16K produces: `mk phase` builds it (R396). -/
def ringPost (i : Nat) (mk : Bool → List Byte) (c : Chip) : Chip :=
  let q := c.queue i
  let e := mk q.phase
  let tail := (q.tail + 1) % q.size
  let c := modQueue i (fun q => { q with ring := tset [] q.ring q.tail e, tail := tail,
                                         phase := if tail = 0 then !q.phase else q.phase }) c
  when_ (c.hasFunction (i / 32)) (emit (.ring i q.tail e)) c

/-- The 32 octets of an NQ entry (R402). -/
def Notice.bytes (n : Notice) (overflow phase : Bool) : List Byte :=
  leBytes 1 n.kind ++ leBytes 1 n.status ++
  leBytes 1 ((if phase then 1 else 0) + (if n.late then 2 else 0) + (if overflow then 4 else 0)) ++
  leBytes 1 n.queue ++ leBytes 4 n.seq ++ leBytes 8 n.tick ++ leBytes 4 n.voiceId ++ leBytes 2 n.handle ++
  leBytes 1 n.endReason ++ leBytes 1 n.note ++ leBytes 1 n.channel ++ leBytes 1 n.zone ++ zeros 6

/-- One more entry stands unsignalled in an NQ: signal when COAL_COUNT is reached (R408). -/
def coalesce (i : Nat) (c : Chip) : Chip :=
  let q := c.queue i
  let n := q.unsignalled + 1
  if bits q.cfg 15 8 ≤ n then
    raise (i / 32) (i % 32) (modQueue i (fun q => { q with unsignalled := 0, unsignalledAt := none }) c)
  else modQueue i (fun q => { q with unsignalled := n, unsignalledAt := q.unsignalledAt <|> some c.now }) c

/-- Write a notice to its NQ: the slot is free or reserved for it. -/
def postNow (i : Nat) (n : Notice) (c : Chip) : Chip :=
  let q := c.queue i
  coalesce i (modQueue i (fun q => { q with overflowLost := false }) (ringPost i (n.bytes q.overflowLost) c))

/-- Post a notice to NQ `i`, or let it wait in the overflow of 64 (R403). -/
def postNotice (i : Nat) (n : Notice) (c : Chip) : Chip :=
  let q := c.queue i
  if c.nqFree i && q.overflow.isEmpty then postNow i n c
  else if q.overflow.length < 64 then modQueue i (fun q => { q with overflow := q.overflow ++ [n] }) c
  else modQueue i (fun q => { q with overflowLost := true, count := satAdd 32 q.count 1 }) c

/-- Post waiting notices while slots are free (R403), at most `fuel` of them. -/
def drainOverflow (i : Nat) : Nat → Chip → Chip
  | 0, c => c
  | fuel + 1, c =>
    match (c.queue i).overflow with
    | [] => c
    | n :: rest =>
      if c.nqFree i then
        drainOverflow i fuel (postNow i n (modQueue i (fun q => { q with overflow := rest }) c))
      else c

/-- A notice of a voice or event goes to the NQ bound to its ESQ (R403). -/
def notifyEsq (t esq : Nat) (n : Notice) (c : Chip) : Chip :=
  postNotice (qix t (c.queue (qix t esq)).nq) n c

/-- Give a journal record's POSTED flag its value once the completion is written (R497). -/
def setPosted (place : Nat) (c : Chip) : Chip :=
  modJournal (fun j =>
    { j with recs := tmod none j.recs place (fun r => r.map (fun r => { r with posted := true })) }) c

/-- Post the completions of an ESQ that stand ready, in SEQ order (R401), at most `fuel` of them. -/
def flushCompletions (t esq : Nat) : Nat → Chip → Chip
  | 0, c => c
  | fuel + 1, c =>
    let q := c.queue (qix t esq)
    let i := qix t q.nq
    match q.waiting with
    | [] => c
    | w :: rest =>
      if w.ready && (c.queue i).hasSlot then
        let c := postNow i w.notice (modQueue (qix t esq) (fun q => { q with waiting := rest }) c)
        let c := match w.place with | some p => setPosted p c | none => c
        flushCompletions t esq fuel c
      else c

/-! ### Internal producers (R519, R532) -/

/-- The serial ports change. -/
def modPorts (f : Ports → Ports) (c : Chip) : Chip := { c with ports := f c.ports }
/-- A UART's record. -/
def Chip.uart (c : Chip) (u : Nat) : Uart := tget {} c.ports.uarts u
/-- It changes. -/
def modUart (u : Nat) (f : Uart → Uart) (c : Chip) : Chip := modPorts (fun p => { p with uarts := tmod {} p.uarts u f }) c

/-- Has a whole second passed since a moment? -/
def secondSince (c : Chip) : Option Nat → Bool
  | some t => decide (t + 1000000000 ≤ c.now)
  | none => true

/-- An entry of a producer is dropped: counted and reported for a UART, at most once a second. Entry 84, DEDUCED. -/
def dropMade (p : Nat) (c : Chip) : Chip :=
  if 16 ≤ p then c
  else
    let n := (c.uart p).dropped + 1
    let c := bump (Obj.uartMidiLost p) (modUart p (fun x => { x with dropped := n }) c)
    if secondSince c (c.uart p).droppedAt then
      snagWith 0x0612 p 0xFF 0xFFFF n (modUart p (fun x => { x with dropped := 0, droppedAt := some c.now }) c)
    else c

/-- What producers have waiting at an ESQ that leaves RUNNING is dropped. -/
def dropAllMade (i : Nat) (c : Chip) : Chip :=
  forEach ((c.queue i).made.map Prod.fst) dropMade (modQueue i (fun q => { q with made := [] }) c)

/-- A producer generates an entry for ESQ `i`: it joins the others there, at most 32 of one producer. Entry 84, DEDUCED. -/
def produce (i p : Nat) (e : List Byte) (c : Chip) : Chip :=
  let q := c.queue i
  if q.state = .running ∧ (q.made.filter (fun x => x.1 == p)).length < 32 then
    modQueue i (fun q => { q with made := q.made ++ [(p, e)] }) c
  else dropMade p c

/-- Is an ESQ bound to an internal producer? -/
def Chip.isBound (c : Chip) (i : Nat) : Bool :=
  decide (i % 32 < 8) &&
    ([1, 2, 3].any (fun u => c.num (Obj.uartMidiTenant u) == i / 32 && c.num (Obj.uartMidiQueue u) == i % 32) ||
     (upTo 16).any (fun n => c.num (Obj.senseTenant n) == i / 32 && c.num (Obj.senseQueue n) == i % 32))

/-- A queue enters HALTED and raises its source if it is an ESQ (R392, R408). -/
def haltQueue (i : Nat) (e : QueueError) (c : Chip) : Chip :=
  let c := dropAllMade i (modQueue i (fun q => { q with state := .halted, error := e }) c)
  when_ (decide (i % 32 < 8)) (raise (i / 32) (i % 32)) c

/-- The first denial of a tenant in a frame raises DENIED (R408). -/
def raiseDenied (t : Nat) (c : Chip) : Chip :=
  if (c.tenant t).deniedFrame = some c.frame then c
  else raise t 34 (modTenant t (fun x => { x with deniedFrame := some c.frame }) c)

end Sys2Proof.Machine
end

