-- ==== Sys2Proof/Machine/Ndp.lean ====
section
/-!
DEFINITION. The Nerlil service that every dictionary request goes through (R417 to R432): who asks, the order of
checks, duplicates, the flash record, and the response.  A family's own rule for an object is an action that
this service calls at step 8 of R427.
-/

namespace Sys2Proof.Machine

/-! ### STATUS values (R427) -/

namespace St
def ok : Nat := 0
def noObject : Nat := 1
def noSubindex : Nat := 2
def noAccess : Nat := 3
def readOnly : Nat := 4
def writeOnly : Nat := 5
def badLength : Nat := 6
def badValue : Nat := 7
def busy : Nat := 8
def refused : Nat := 9
def badSession : Nat := 10
def crc : Nat := 11
def timeout : Nat := 12
def unreachable : Nat := 13
def badRequest : Nat := 14
def storeFailed : Nat := 15
def queue : Nat := 16
end St

/-- An object's own rule: the acting master, then the state it leaves and its STATUS. -/
abbrev Act := Nat → State → State × Nat

/-- A rule that concerns the chip alone. -/
def chipAct (f : Nat → Chip → Chip × Nat) : Act := fun m s =>
  let r := f m s.chip
  ({ s with chip := r.1 }, r.2)

/-- A rule that only checks and then changes the chip: `st` is its status, the change happens on OK. Entry 4, DEDUCED. -/
def actWhen (st : Nat → Chip → Nat) (f : Nat → Chip → Chip) : Act :=
  chipAct (fun m c => if st m c = St.ok then (f m c, St.ok) else (c, st m c))

/-- What a service answers. -/
structure Reply where
  status : Nat
  data : List Byte := []
  more : Bool := false
  /-- the response is sent later (R419, R432, R374) -/
  later : Bool := false
  deriving DecidableEq, Repr

/-! ### Who asks (R422, R423) -/

/-- One entry of Ndp.Bind as octets. -/
def bindEntry (tbl : List Byte) (i : Nat) : List Byte := slice tbl (8 * i) 8

/-- Does a bind entry match (R423)? -/
def bindMatches (path src origin : Nat) (e : List Byte) : Bool :=
  field e 0 1 == path && (field e 1 1 == 0xFF || field e 1 1 == src) &&
    (path != 3 || field e 2 1 == 0xFF || field e 2 1 == origin)

/-- The master of the first matching bind entry (R423). -/
def bindMaster (c : Chip) (path src origin : Nat) : Option Nat :=
  ((((upTo 64).map (bindEntry (c.blob Obj.ndpBind))).find? (bindMatches path src origin))).map (fun e => field e 3 1)

/-- The PATH number a CAN controller has in Ndp.Bind; in REDUNDANT both are CAN0 (R442). -/
def canPath (c : Chip) (ctl : Nat) : Nat := if c.num Obj.canRedundancy = 1 then 1 else ctl + 1

/-- The master a request acts as; none is anonymous (R422). Entry 32, DEDUCED. -/
def actingMaster (c : Chip) : Path → Option Nat
  | .mailbox t _ => some (0x10 + t.val)
  | .bar t => some (0x10 + t.val)
  | .can ctl node _ => bindMaster c (canPath c ctl.val) node.toNat 0
  | .chain chip origin anon =>
    if anon then some (0x80 + chip.toNat)
    else some ((bindMaster c 3 chip.toNat origin.toNat).getD (0x80 + chip.toNat))
  | .kolef => some 0x01

/-- The largest data of one message on a path (R422). -/
def pathLimit : Path → Nat
  | .can _ _ true => 48
  | .kolef => 2 ^ 32
  | _ => 2016

/-! ### Checks (R424, R427) -/

/-- The Commit objects, which need X on their area (R424). -/
def isCommitObject (o : Nat) : Bool :=
  let a := objAreaOf o
  let i := objIndexOf o
  let s := objSubOf o
  (a == 0x20 && s == 2) || (a == 0x22 && s == 2 && decide (0x1000 ≤ i) && decide (i < 0x3000)) ||
  o == Obj.skimCoatCommit || (a == 0x30 && s == 2 && decide (0x5000 ≤ i)) || o == Obj.hodImportCommit ||
  o == Obj.bootUpdateCommit

/-- Objects that need administer permission on their area (R424, R315, R443, R465, R486, R534, R539, R548, R550, R551). -/
def needsAdmin (o : Nat) : Bool :=
  let a := objAreaOf o
  let i := objIndexOf o
  let s := objSubOf o
  (a == 0x80 && (i == 0x2000 || i == 0x2001) && (s == 0x01 || s == 0x11 || s == 0x12)) ||
  (a == 0x70 && decide (0x1000 ≤ i) && (s == 0x0A || s == 0x0B || s == 0x0C)) ||
  o == Obj.resetRequest || (a == 0x90 && decide (0x0100 ≤ i) && decide (i < 0x0300)) ||
  o == Obj.memoryDramReinstate || o == Obj.memoryJournalReinstate || o == Obj.powerRequest ||
  o == Obj.bootUpdateImage || o == Obj.bootUpdateCommit || o == Obj.bootCommitRollback || o == Obj.bootRevokeKeySlot ||
  o == Obj.lifecycleAdvance || o == Obj.keyInstall || o == Obj.keyRemove ||
  (a == 0x80 && decide (0x1000 ≤ i) && decide (i ≤ 0x1003) && s == 0x01)

/-- Step 4 of R427 for a write; Kolef's writes of Lifecycle.Advance and, at SERVICE, of Reset.Request are R554's. -/
def mayWriteArea (c : Chip) (m : Option Nat) (o : Nat) : Bool :=
  match m with
  | none => false
  | some m =>
    (m == 0x01 && o == Obj.lifecycleAdvance && c.kolefLevel == 0) || (m == 0x01 && o == Obj.resetRequest && c.kolefLevel == 1) ||
    c.may 0x01 (objAreaOf o) m 1 && (!isCommitObject o || c.may 0x01 (objAreaOf o) m 2) &&
      (!needsAdmin o || c.may 0x01 (objAreaOf o) m 3)

/-- Step 4 of R427 for a read: an anonymous requester may read area 0x00 (R422). Entry 32, DEDUCED. -/
def mayReadArea (c : Chip) (m : Option Nat) (o : Nat) : Bool :=
  match m with
  | none => objAreaOf o == 0
  | some m => c.may 0x01 (objAreaOf o) m 0

/-- The length a write must have, and the value check (steps 6 and 7 of R427). -/
def valueStatus (d : ObjDesc) (data : List Byte) : Nat :=
  match d.kind with
  | .num n sg =>
    if data.length ≠ n then St.badLength
    else if d.chk.ok (if sg then toSigned (8 * n) (leNat data) else (leNat data : Int)) then St.ok
    else St.badValue
  | .bytes l => if l.ok data.length then St.ok else St.badLength

/-- Steps 3 to 6 of R427 against a length alone, as WRITE_BEGIN makes them (R428). -/
def lengthStatus (d : ObjDesc) (n : Nat) : Nat :=
  match d.kind with
  | .num k _ => if n = k then St.ok else St.badLength
  | .bytes l => if l.ok n then St.ok else St.badLength

/-- Steps 3 to 5 of R427 for a write. -/
def writeTarget (c : Chip) (m : Option Nat) (o : Nat) : Except Nat ObjDesc :=
  match objFind o with
  | none => .error (if objIndexAssigned o then St.noSubindex else St.noObject)
  | some d =>
    if !mayWriteArea c m o then .error St.noAccess
    else match d.acc with
      | .ro | .const => .error St.readOnly
      | _ => .ok d

/-- A plain object takes the written value (R418). -/
def storeValue (o : Nat) (data : List Byte) (c : Chip) : Chip :=
  match objFind o with
  | some d => (match d.kind with
    | .num _ _ => setNum o (leNat data) c
    | .bytes _ => setBlob o data c)
  | none => c

/-- Is a value kept in flash (R8, R419)? -/
def isStored (o : Nat) : Bool := match objFind o with | some d => d.per == .stored | none => false

/-- The flash record of an object takes the running value (R419). -/
def flashStore (o : Nat) (c : Chip) : Chip :=
  { c with flashNums := tset (objDflt o) c.flashNums o (c.num o),
           flashBlobs := tset (objDfltBytes o) c.flashBlobs o (c.blob o) }

/-- One WRITE: the checks of R427 in order, then the object's own rule. Entry 36, DESIGN CHOICE. -/
def writeObject (act : Act) (m : Option Nat) (o : Nat) (data : List Byte) (s : State) : State × Nat :=
  match writeTarget s.chip m o with
  | .error st => (s, st)
  | .ok d =>
    if valueStatus d data ≠ St.ok then (s, valueStatus d data)
    else act (m.getD 0) s

/-! ### Responses (R425, R426, R429) -/

/-- The response message (R425). -/
def responseBytes (c : Chip) (m : Msg) (r : Reply) : List Byte :=
  leBytes 1 (m.op.toNat % 128 + 128) ++ leBytes 1 r.status ++ leBytes 2 m.txn.toNat ++ leBytes 4 m.object.toNat ++
  leBytes 4 m.offset.toNat ++ leBytes 2 r.data.length ++ leBytes 1 (c.num Obj.identityChipNumber) ++
  leBytes 1 (if r.more then 1 else 0) ++ r.data

/-- Put a frame on a controller's queue (R437). -/
def canQueue (ctl : Nat) (f : CanFrame) (c : Chip) : Chip :=
  { c with can := { c.can with ctl := tmod {} c.can.ctl ctl (fun x => { x with queue := x.queue ++ [f] }) } }

/-- Does a controller carry frames: neither OFF, LISTEN, BUS_OFF, ID_CONFLICT nor RETIRED (R441, R442)? -/
def canSends (c : Chip) (ctl : Nat) : Bool :=
  let st := c.num (Obj.canState ctl)
  st == 1 || st == 2

/-- The DLC length an FD frame is padded to (R435). -/
def fdLength (n : Nat) : Nat :=
  ([0, 1, 2, 3, 4, 5, 6, 7, 8, 12, 16, 20, 24, 32, 48, 64].find? (fun k => decide (n ≤ k))).getD 64

/-- The objects of which controller serve: controller 0's in REDUNDANT (R442). -/
def canCfg (c : Chip) (ctl : Nat) : Nat := if c.num Obj.canRedundancy = 1 then 0 else ctl

/-- A Nerlil message as a frame to a node (R434, R435). -/
def nerlilFrame (c : Chip) (ctl : Nat) (node : Nat) (fd : Bool) (msg : List Byte) : CanFrame :=
  let k := canCfg c ctl
  let me := c.num (Obj.canNodeId k)
  if fd then
    { format := 1, id := c.num (Obj.canFdBase k) * 2 ^ 24 + node * 2 ^ 16 + me * 2 ^ 8, extended := true, sdt := 0,
      vcid := 0, af := 0, data := msg ++ zeros (fdLength msg.length - msg.length), slot := none,
      phase := .waiting, late := false }
  else
    { format := 0, id := c.num (Obj.canResponseId k), extended := false, sdt := c.num (Obj.canSdt k),
      vcid := c.num (Obj.canVcid k), af := node * 2 ^ 24 + me * 2 ^ 16 + 0x4E01, data := msg, slot := none,
      phase := .waiting, late := false }

/-- Send a Nerlil message to a node; in REDUNDANT on both buses that still send (R442). Entry 37, DESIGN CHOICE. -/
def canNerlil (ctl node : Nat) (fd : Bool) (msg : List Byte) (c : Chip) : Chip :=
  let f := nerlilFrame c ctl node fd msg
  if c.num Obj.canRedundancy = 1 then
    when_ (canSends c 1) (canQueue 1 f) (when_ (canSends c 0) (canQueue 0 f) c)
  else when_ (canSends c ctl) (canQueue ctl f) c

/-- A mailbox's place. -/
def mix (t m : Nat) : Nat := 4 * t + m

/-- A mailbox's record changes. -/
def modMail (i : Nat) (f : Mailbox → Mailbox) (c : Chip) : Chip :=
  modWork (fun w => { w with mailboxes := tmod {} w.mailboxes i f }) c

/-- The response leaves on the path the request came by (R407, R422, R432). -/
def deliver (p : Path) (msg : List Byte) (c : Chip) : Chip :=
  match p with
  | .mailbox t m =>
    let i := mix t.val m.val
    let c := modMail i (fun x => { x with state := .response, response := msg, respTag := x.tag }) c
    emit (.nerlil p msg) (raise t.val (28 + m.val) c)
  | .can ctl node fd => emit (.nerlil p msg) (canNerlil ctl.val node.toNat fd msg c)
  | .chain chip _ _ => emit (.lath 2 5 0 chip.toNat 0 (msg.map BitVec.toNat)) c
  | .kolef => emit (.kolef (field msg 1 1) ((msg.drop 16).map BitVec.toNat)) c
  | .bar _ => c

/-- A second and a half-open window of it: entries younger than 1 s (R428, R429). -/
def withinSecond (c : Chip) (at_ : Nat) : Bool := decide (c.now < at_ + 1000000000)

/-- Does the path carry Nerlil messages, with TXN and a kept response? -/
def isNerlil : Path → Bool
  | .bar _ | .kolef => false
  | _ => true

/-- Answer a request: count a refusal, keep the response for 1 s and send it (R429, R444); Kolef prints it (R553).
Entry 43, DESIGN CHOICE. -/
def respond (p : Path) (m : Msg) (master : Option Nat) (r : Reply) (c : Chip) : Chip :=
  let bytes := responseBytes c m r
  if !isNerlil p then deliver p bytes c else
  let k : Kept := { path := p, master := master, txn := m.txn.toNat, op := m.op.toNat, object := m.object.toNat,
                    offset := m.offset.toNat, length := m.data.length, response := bytes, at_ := c.now }
  let c := when_ (r.status == St.timeout) (bump Obj.ndpCountersTimeouts) (when_ (r.status != St.ok) (bump (Obj.ndpCountersRefusals)) c)
  let c := modWork (fun w => { w with kept := w.kept.filter (fun x => withinSecond c x.at_) ++ [k] }) c
  deliver p bytes c

/-- Requests of a path that still await their response (R430). -/
def outstanding (c : Chip) (p : Path → Bool) : Nat :=
  (c.flashPending.filter (fun x => p x.path)).length + (c.work.awaited.filter (fun x => p x.path)).length +
  (c.work.supervisor.held.filter (fun x => p x.1)).length

/-- Do two paths arrive over the same link? -/
def samePathKind : Path → Path → Bool
  | .mailbox _ _, .mailbox _ _ => true
  | .bar _, .bar _ => true
  | .can a _ _, .can b _ _ => a == b
  | .chain _ _ _, .chain _ _ _ => true
  | .kolef, .kolef => true
  | _, _ => false

/-- An entry of Chain.View: the entries stand in canonical order, 24 octets each (R354, R383, R384). -/
def Chip.viewEntry (c : Chip) (i : Nat) : List Byte := slice (c.blob Obj.chainView) (24 * i) 24

/-- The place of chip `n` in the view. -/
def Chip.viewPlace (c : Chip) (n : Nat) : Option Nat :=
  (upTo 128).find? (fun i => slice (c.viewEntry i) 0 16 != zeros 16 && field (c.viewEntry i) 16 1 == n && decide (n < 128))

/-- Is the chip numbered `n` a member of the view (R432)? -/
def inView (c : Chip) (n : Nat) : Bool := (c.viewPlace n).isSome

/-- Chips in the view. -/
def Chip.viewSize (c : Chip) : Nat := ((upTo 128).filter (fun i => slice (c.viewEntry i) 0 16 != zeros 16)).length

/-- Hops between this chip and another. -/
def Chip.hopsTo (c : Chip) (m : Nat) : Nat :=
  match c.viewPlace c.me, c.viewPlace m with
  | some a, some b =>
    let d := if b < a then a - b else b - a
    if c.num Obj.chainTopology = 2 then min d (c.viewSize - d) else d
  | _, _ => 0

/-- A request whose form its service does not allow: an unknown OP, a misused OFFSET or OBJECT, or data where there is none or
four octets (R425, R426). Entry 31, DEDUCED. -/
def badForm (m : Msg) : Bool :=
  let op := m.op.toNat
  let o := m.object.toNat
  op == 0 || decide (10 < op) || (m.offset != 0 && op != 1 && op != 4) || (op == 1 && !m.data.isEmpty) ||
  ((op == 3 || op == 5) && m.data.length != 4) || (op == 7 && (o != 0 || !m.data.isEmpty)) || (op == 10 && o != 0) ||
  ((op == 8 || op == 9) && !(objAreaOf o == 0x60 && decide (objIndexOf o < 512) && objSubOf o == 0)) ||
  (op == 9 && !m.data.isEmpty)

/-- Step 1 of R427: the header of a request. Entry 31, DEDUCED. -/
def badHeader (p : Path) (m : Msg) : Bool :=
  m.reserved != 0 || decide (pathLimit p < m.data.length) || badForm m

/-- Is a message's TXN that of a session of its path and master, open or closed within 1 s (R429)? Entry 33, DEDUCED. -/
def sessionOf (c : Chip) (p : Path) (master : Option Nat) (txn : Nat) : Option Session :=
  c.work.sessions.find? (fun x => x.path == p && x.master == master && x.txn == txn &&
    (x.ended == .isOpen || withinSecond c x.at_))

/-- Hold a request until a restarting supervisor is back (R21). -/
def holdRequest (p : Path) (m : Msg) (c : Chip) : Chip :=
  modWork (fun w => { w with supervisor := { w.supervisor with held := w.supervisor.held ++ [(p, m)] } }) c

/-- Kept responses under a request's path, source, acting master and TXN (R429). Entry 34, DESIGN CHOICE. -/
def keptFor (c : Chip) (p : Path) (master : Option Nat) (m : Msg) : List Kept :=
  c.work.kept.filter (fun k => k.path == p && k.master == master && k.txn == m.txn.toNat && withinSecond c k.at_)

/-- Does a request repeat the one a response was kept for; in a session in its data length too (R429)? -/
def Kept.repeats (k : Kept) (inSession : Bool) (m : Msg) : Bool :=
  k.op == m.op.toNat && k.object == m.object.toNat && k.offset == m.offset.toNat && (!inSession || k.length == m.data.length)

/-- Is a message one of a session's (R428)? -/
def sessionOp (m : Msg) : Bool := [3, 4, 5, 6].contains m.op.toNat

/-- Forward a request to the chip it names (R432). -/
def forwardRequest (p : Path) (m : Msg) (master : Option Nat) (c : Chip) : Chip :=
  let a : Awaited := { path := p, txn := m.txn.toNat, op := m.op.toNat, object := m.object.toNat,
                       offset := m.offset.toNat, length := m.data.length, dst := m.dst.toNat, at_ := c.now }
  let tag := match master with | some x => x | none => 0x100
  let msg := leBytes 1 m.op.toNat ++ zeros 1 ++ leBytes 2 m.txn.toNat ++ leBytes 4 m.object.toNat ++
    leBytes 4 m.offset.toNat ++ leBytes 2 m.data.length ++ leBytes 1 m.dst.toNat ++ zeros 1 ++ m.data
  emit (.lath 2 5 0 m.dst.toNat tag (msg.map BitVec.toNat)) (bump Obj.ndpCountersForwarded
    (modWork (fun w => { w with awaited := w.awaited ++ [a] }) c))

/-- Answer a request by the service, or leave it unanswered for now. -/
def answerBy (p : Path) (m : Msg) (master : Option Nat) (r : State × Reply) : State :=
  if r.2.later then r.1 else { r.1 with chip := respond p m master r.2 r.1.chip }

/-- Serve a Nerlil message: answer a repeat from the kept response, refuse a reused TXN, a request beyond what may be
outstanding or one of a bad form, forward it when it names another chip, judge it by its session, else run the service
(R427 to R432). Entry 33, DEDUCED. -/
def serveNerlil (p : Path) (m : Msg) (run : Option Nat → State → State × Reply) (s : State) : State :=
  let master := actingMaster s.chip p
  let s := { s with chip := bump (Obj.ndpCountersRequests) s.chip }
  let c := s.chip
  let refuse (st : Nat) : State := { s with chip := respond p m master { status := st } c }
  let session := sessionOf c p master m.txn.toNat
  let kept := keptFor c p master m
  match kept.find? (fun k => k.repeats (session.isSome && sessionOp m) m) with
  | some k => { s with chip := deliver p k.response (bump (Obj.ndpCountersDuplicates) c) }
  | none =>
    if !kept.isEmpty && !(session.isSome && sessionOp m) then refuse St.badRequest
    else if 4 ≤ outstanding c (fun q => decide (q = p)) ∨ 64 ≤ outstanding c (samePathKind p) then refuse St.busy
    else if badHeader p m then refuse St.badRequest
    else if m.dst.toNat ≠ 0xFF ∧ m.dst.toNat ≠ c.num Obj.identityChipNumber then
      if inView c m.dst.toNat then { s with chip := forwardRequest p m master c } else refuse St.unreachable
    else match session with
      | some x =>
        if x.ended = .isOpen ∨ !sessionOp m then answerBy p m master (run master s)
        else refuse (if x.ended = .expired then St.timeout else St.badSession)
      | none => answerBy p m master (run master s)

/-- Serve one request by its path: during a supervisor's restart it is held, but over CAN it is lost; BAR0 accesses and Kolef
have no Nerlil message (R21, R391, R421, R553). -/
def serve (p : Path) (m : Msg) (run : Option Nat → State → State × Reply) (s : State) : State :=
  let c := s.chip
  match p with
  | .bar _ => (run (actingMaster c p) s).1
  | _ =>
    if c.work.supervisor.restarting then
      (match p with | .can _ _ _ => s | _ => { s with chip := holdRequest p m c })
    else if p = .kolef then answerBy p m (actingMaster c p) (run (actingMaster c p) s)
    else serveNerlil p m run s

/-- Is an object a queue register that a tenant's BAR0 window shows writable (R391, R392)? -/
def barRegister (t o : Nat) : Bool :=
  objAreaOf o == 0x60 && objIndexOf o / 32 == t && [1, 2, 3, 7].contains (objSubOf o)

/-- A write through a BAR0 window: no dictionary check stands before the register's own rule; a write of anything
else is discarded (R391). Entry 32, DEDUCED. -/
def barWrite (t : Nat) (m : Msg) (act : Act) (s : State) : State :=
  let o := m.object.toNat
  if s.chip.hasFunction t && barRegister t o && m.data.length == objWidth o then (act (0x10 + t) s).1 else s

/-- The write service over one object's rule: a STORED object's response waits for its flash record (R419). -/
def runWrite (p : Path) (m : Msg) (act : Act) (master : Option Nat) (s : State) : State × Reply :=
  match p with
  | .bar t => (barWrite t.val m act s, { status := St.ok })
  | _ =>
  if m.offset ≠ 0 then (s, { status := St.badRequest })
  else
    let r := writeObject act master m.object.toNat m.data s
    if r.2 = St.ok && isStored m.object.toNat then
      let w : FlashWrite := { path := p, txn := m.txn.toNat, op := m.op.toNat, object := m.object.toNat,
                              offset := m.offset.toNat, length := m.data.length, master := master, data := m.data }
      ({ r.1 with chip := { r.1.chip with flashPending := r.1.chip.flashPending ++ [w] } },
        { status := St.ok, later := true })
    else (r.1, { status := r.2 })

/-- A WRITE message of `data` to object `o` on this chip. -/
def writeMsg (r : Req) (o : Nat) (data : List Byte) : Msg :=
  { op := 2, txn := r.txn, object := BitVec.ofNat 32 o, offset := 0, dst := 0xFF, reserved := 0, data := data }

/-- A command that is a write of `data` to object `o`, with the object's own rule (R418, R427). Entry 36, DESIGN CHOICE. -/
def serveRow (r : Req) (o : Nat) (data : List Byte) (act : Act) (s : State) : Host.Outcome State Fault Refusal :=
  let m := writeMsg r o data
  .next (serve r.path m (runWrite r.path m act) s)

end Sys2Proof.Machine
end

