-- ==== Sys2Proof/Machine/Queues.lean ====
section
/-!
DEFINITION. Queues, doorbells, event registers and access tables (chapter 14).
-/

namespace Sys2Proof.Machine

/-! ### Configuration (R392 to R394, R400, R414) -/

/-- The bits of Q_CFG that are not reserved (R392). -/
def cfgFields : Nat := 0x8037FF1F

/-- Kinds of queue by number (R393). -/
def isEsq (q : Nat) : Bool := decide (q < 8)
def isNq (q : Nat) : Bool := decide (8 ≤ q) && decide (q < 16)
def isAudioIn (q : Nat) : Bool := decide (16 ≤ q) && decide (q < 20)
def isAudioOut (q : Nat) : Bool := decide (20 ≤ q) && decide (q < 24)
def isStemOut (q : Nat) : Bool := decide (24 ≤ q) && decide (q < 28)

/-- Channels of an audio or stem queue (R394). -/
def Queue.channels (q : Queue) (n : Nat) : Nat := if isStemOut n then bits q.bind 22 16 else bits q.bind 25 16

/-- First host channel of an audio queue (R394). Entry 69, DESIGN CHOICE. -/
def Queue.first (q : Queue) : Nat := bits q.bind 9 0

/-- The enabled queues of one direction of host audio on the chip. -/
def Chip.audioQueues (c : Chip) (inward : Bool) : List Nat :=
  (tkeys c.work.queues 0 512).filter (fun i =>
    (if inward then isAudioIn (i % 32) else isAudioOut (i % 32)) && (c.queue i).state != .disabled)

/-- Does Q_BIND obey R394 for a queue of its kind? Entry 67, DESIGN CHOICE. -/
def bindOk (c : Chip) (i : Nat) (q : Queue) : Bool :=
  let n := i % 32
  if isEsq n then q.bind == 0
  else if isNq n then decide (q.bind < 65536)
  else if isStemOut n then
    decide (1 ≤ q.channels n) && decide (q.channels n ≤ 64) && bits q.bind 5 0 == 0 && q.bind / 2 ^ 23 == 0 &&
      bits q.bind 15 6 == 0
  else
    decide (1 ≤ q.channels n) && decide (q.channels n ≤ 256) && decide (q.first + q.channels n ≤ 1024) &&
    q.bind / 2 ^ 26 == 0 && bits q.bind 15 10 == 0 &&
    (c.audioQueues (isAudioIn n)).all (fun j =>
      let o := c.queue j
      j == i || decide (q.first + q.channels n ≤ o.first) || decide (o.first + o.channels (j % 32) ≤ q.first))

/-- May the tenant bind the host channels of an audio queue (R411, kinds 0x0C and 0x0D)? -/
def bindAllowed (c : Chip) (i : Nat) (q : Queue) : Bool :=
  let n := i % 32
  if isAudioIn n || isAudioOut n then
    (upTo (q.channels n)).all (fun k => c.may (if isAudioIn n then 0x0D else 0x0C) (q.first + k) (0x10 + i / 32) 1)
  else true

/-- Enabled ESQs of PRIO 0 on the chip, another than queue `i` (R400). -/
def prio0Count (c : Chip) (i : Nat) : Nat :=
  ((tkeys c.work.queues 0 512).filter (fun j =>
    isEsq (j % 32) && j != i && (c.queue j).state == .running && bits (c.queue j).cfg 21 20 == 0)).length

/-- Is a configuration invalid when ENABLE is written 1 (R392)? Entry 67, DESIGN CHOICE. -/
def badConfig (c : Chip) (i : Nat) (q : Queue) : Bool :=
  let n := i % 32
  let l := bits q.cfg 4 0
  decide (l < 4) || decide (16 < l) ||
  (c.hasFunction (i / 32) && q.base % 4096 != 0) ||
  (!isEsq n && (bits q.cfg 21 20 != 0 || bits q.cfg 18 16 != 0)) ||
  (!isNq n && bits q.cfg 15 8 != 0) ||
  !bindOk c i q || !bindAllowed c i q ||
  (isEsq n && bits q.cfg 21 20 == 0 && decide (4 ≤ prio0Count c i)) ||
  !c.tenantEnabled (i / 32)

/-- Host channels bound by a tenant's enabled audio queues of one direction (R414). -/
def hostChannels (c : Chip) (t : Nat) (inward : Bool) : Nat :=
  (((c.audioQueues inward).filter (fun j => j / 32 == t)).map (fun j => (c.queue j).channels (j % 32))).sum

/-- Does the enable exceed the HostChannels quota (R414)? -/
def overHostQuota (c : Chip) (i : Nat) (q : Queue) : Bool :=
  let n := i % 32
  (isAudioIn n || isAudioOut n) && q.state == .disabled &&
    decide (c.num (Obj.tenantQuotaHostChannels (i / 32)) < hostChannels c (i / 32) (isAudioIn n) + q.channels n)

/-- An ESQ that runs again posts the notices that waited for its enable (R489, R502). -/
def postDeferred (i : Nat) (c : Chip) : Chip :=
  let q := c.queue i
  forEach q.deferred (fun n c => postNotice (qix (i / 32) q.nq) n c) (modQueue i (fun q => { q with deferred := [] }) c)

/-- An NQ has room again: completions that hold their slots, then waiting notices (R401, R403). -/
def nqRoom (i : Nat) (c : Chip) : Chip :=
  let t := i / 32
  let c := forEach (upTo 8) (fun e c =>
    if (c.queue (qix t e)).nq = i % 32 then flushCompletions t e (c.queue (qix t e)).waiting.length c else c) c
  drainOverflow i 64 c

/-- ENABLE written 1 with fields `w` (R392). Entry 67, DESIGN CHOICE. -/
def queueEnable (i w : Nat) (c : Chip) : Chip :=
  let q0 := c.queue i
  if q0.state = .running then c
  else
    let q := if q0.state = .disabled then { q0 with cfg := (w ||| 0x80000000) &&& cfgFields }
             else { q0 with cfg := q0.cfg ||| 0x80000000 }
    let c := modQueue i (fun _ => q) c
    if badConfig c i q then haltQueue i .badConfig c
    else if overHostQuota c i q then raise (i / 32) 36 (haltQueue i .quota c)
    else
      let d := draw c
      let base := if c.hasFunction (i / 32) then q.base else d.1 * 4096 % 2 ^ 64
      let c := if c.hasFunction (i / 32) || q0.state == .halted then c else d.2
      let q := { q with state := .running, error := .none,
                        base := if q0.state = .halted then q.base else base,
                        phase := if q0.state = .halted then q.phase else true }
      let c := modQueue i (fun _ => q) c
      if isEsq (i % 32) then postDeferred i c else if isNq (i % 32) then nqRoom i c else c

/-- ENABLE written 0 with fields `w` (R392): prefetched entries are discarded with no completion. Entry 67, DESIGN CHOICE. -/
def queueDisable (i w : Nat) (c : Chip) : Chip :=
  dropAllMade i <| modQueue i (fun q =>
    { q with cfg := if q.state = .disabled then (w &&& cfgFields) % 0x80000000 else q.cfg % 0x80000000,
             state := .disabled, error := .none, head := 0, tail := 0, prefetch := [], unsignalled := 0,
             unsignalledAt := none, ring := [] }) c

/-- May a path act on a queue: the BAR0 window of a tenant shows its own queues, and W is needed (R391, R411)? -/
def queueMay (c : Chip) (p : Path) (master i : Nat) : Bool :=
  (match p with | .bar t => t.val == i / 32 | _ => true) && c.may 0x16 i master 1

/-- Through the dictionary a write of another field than ENABLE while the queue is not DISABLED is refused whole
with BUSY; through BAR0 only its ENABLE bit takes effect (R392, R416). -/
def cfgBusy (c : Chip) (p : Path) (i w : Nat) : Bool :=
  match p with
  | .bar _ => false
  | _ => (c.queue i).state != .disabled && (w &&& cfgFields) % 0x80000000 != (c.queue i).cfg % 0x80000000

/-- The rule of a write of Q_CFG (R392, R416). Mailbox queues ignore it (R407). -/
def cfgAct (p : Path) (i w : Nat) : Act := fun m s =>
  let c := s.chip
  if !queueMay c p m i then (s, St.noAccess)
  else if 28 ≤ i % 32 then (s, St.ok)
  else if cfgBusy c p i w then (s, St.busy)
  else ({ s with chip := if bit w 31 then queueEnable i w c else queueDisable i w c }, St.ok)

/-- QUEUE_ENABLE: Q_CFG written with ENABLE 1, through BAR0 or the dictionary. -/
def execQueueEnable (r : Req) (q : Fin 512) (fields : BitVec 31) (s : State) : Host.Outcome State Fault Refusal :=
  let w := 0x80000000 + fields.toNat
  serveRow r (Obj.queueConfig q.val) (leBytes 4 w) (cfgAct r.path q.val w) s

/-- QUEUE_DISABLE: Q_CFG written with ENABLE 0. -/
def execQueueDisable (r : Req) (q : Fin 512) (fields : BitVec 31) (s : State) : Host.Outcome State Fault Refusal :=
  serveRow r (Obj.queueConfig q.val) (leBytes 4 fields.toNat) (cfgAct r.path q.val fields.toNat) s

/-- The rule of a write of Q_SEQ: only while DISABLED (R392, R416). -/
def seqAct (p : Path) (i v : Nat) : Act := fun m s =>
  let c := s.chip
  if !queueMay c p m i then (s, St.noAccess)
  else if 28 ≤ i % 32 then (s, St.ok)
  else if (c.queue i).state ≠ .disabled then (s, match p with | .bar _ => St.ok | _ => St.busy)
  else
    let c := modQueue i (fun q => { q with seq := v }) c
    let c := if isEsq (i % 32) then modJournal (fun j => { j with expected := tset 0 j.expected (8 * (i / 32) + i % 32) v }) c
             else c
    ({ s with chip := c }, St.ok)

/-- QUEUE_SEQ: Q_SEQ written; duplicate suppression below the value ends. -/
def execQueueSeq (r : Req) (q : Fin 512) (v : BitVec 32) (s : State) : Host.Outcome State Fault Refusal :=
  serveRow r (Obj.queueSeq q.val) (leBytes 4 v.toNat) (seqAct r.path q.val v.toNat) s

/-! ### Doorbells (R395) -/

/-- A doorbell value on a RUNNING ring (R395). -/
def ringDoorbell (i v : Nat) (c : Chip) : Chip :=
  let q := c.queue i
  let n := i % 32
  if q.state ≠ .running then c
  else if c.isBound i then modQueue i (fun q => { q with count := satAdd 32 q.count 1 }) c
  else if q.size ≤ v then haltQueue i .badDoorbell c
  else if isEsq n || isAudioIn n then
    let added := (v + q.size - q.tail) % q.size
    if q.size - 1 < q.outstanding + added then haltQueue i .badDoorbell c
    else modQueue i (fun q => { q with tail := v }) c
  else
    let back := (v + q.size - q.head) % q.size
    if q.outstanding < back then haltQueue i .badDoorbell c
    else
      let c := modQueue i (fun q => { q with head := v }) c
      if isNq n then nqRoom i c else c

/-- DOORBELL: a Q_DOORBELL write by a tenant's function on one of its rings. -/
def execDoorbell (t : Fin 16) (q : Fin 28) (v : BitVec 32) (s : State) : Host.Outcome State Fault Refusal :=
  s.onChip (fun c =>
    when_ (c.hasFunction t.val && c.may 0x16 (qix t.val q.val) (0x10 + t.val) 1) (ringDoorbell (qix t.val q.val) v.toNat) c)

/-- Take up to `n` entries off the ring into the prefetch buffer; `fetched` are what host memory returned. -/
def prefetchN (i : Nat) (own : Bool) : Nat → List (List Byte) → Chip → Chip
  | 0, _, c => c
  | n + 1, fetched, c =>
    let q := c.queue i
    if q.outstanding = 0 ∨ 8 ≤ q.prefetch.length then c
    else
      let e := if own then some (tget [] q.ring q.head) else fetched.head?
      match e with
      | none => c
      | some e =>
        let c := modQueue i (fun q =>
          { q with prefetch := q.prefetch ++ [slice e 0 32], head := (q.head + 1) % q.size,
                   ring := if own then tset [] q.ring q.head [] else q.ring }) c
        prefetchN i own n fetched.tail c

/-- PREFETCH: entries of a RUNNING ESQ are copied up to 8 ahead of dispatch (R400). Entry 14, DESIGN CHOICE. -/
def execPrefetch (t : Fin 16) (q : Fin 8) (fetched : List (List Byte)) (s : State) : Host.Outcome State Fault Refusal :=
  s.onChip (fun c =>
    let i := qix t.val q.val
    when_ ((c.queue i).state == .running && !c.isBound i) (prefetchN i (!c.hasFunction t.val) 8 fetched) c)

/-- COAL_TIME: the first unsignalled entry of an NQ has waited COAL_TIME (R394, R408). -/
def execCoalTime (t : Fin 16) (q : Fin 8) (s : State) : Host.Outcome State Fault Refusal :=
  s.onChip (fun c =>
    let i := qix t.val (8 + q.val)
    let n := c.queue i
    let due := match n.unsignalledAt with
      | some a => bits n.bind 15 0 != 0 && decide (a + bits n.bind 15 0 * 1000 ≤ c.now)
      | none => false
    if due then raise t.val (8 + q.val) (modQueue i (fun q => { q with unsignalled := 0, unsignalledAt := none }) c)
    else c)

/-! ### Link events (R389, R390) -/

/-- A ring queue that is not DISABLED enters HALTED with LINK_DOWN and loses what it fetched (R389). -/
def linkDownQueue (i : Nat) (c : Chip) : Chip :=
  if (c.queue i).state = .disabled then c
  else haltQueue i .linkDown (modQueue i (fun q => { q with prefetch := [] }) c)

/-- LINK_DOWN: link down or hot reset on port 0. -/
def execLinkDown (s : State) : Host.Outcome State Fault Refusal :=
  s.onChip (fun c =>
    let qs := (tkeys c.work.queues 0 512).filter (fun i => decide (i % 32 < 28) && c.hasFunction (i / 32))
    forEach qs linkDownQueue c)

/-- DMA_ERROR: the third attempt of a ring transfer failed (R390). -/
def execDmaError (t : Fin 16) (q : Fin 28) (s : State) : Host.Outcome State Fault Refusal :=
  s.onChip (fun c =>
    let i := qix t.val q.val
    when_ ((c.queue i).state == .running) (haltQueue i .dmaError) c)

/-- VF_ENABLE: the host enables or disables a tenant's virtual function (R387). -/
def execVfEnable (t : Fin 16) (on : Bool) (s : State) : Host.Outcome State Fault Refusal :=
  s.onChip (fun c => if t.val = 0 then c else modTenant t.val (fun x => { x with vfEnabled := on }) c)

/-! ### Event registers (R391, R409, R415) -/

/-- Bits of an EVT_STATUS word written 1 are cleared. -/
def clearEvents (t w v : Nat) (c : Chip) : Chip :=
  modTenant t (fun x =>
    let m := v * 2 ^ (32 * w)
    { x with evtStatus := x.evtStatus - (x.evtStatus &&& m) }) c

/-- EVT_STATUS_CLEAR: an EVT_STATUS word written through BAR0. -/
def execEvtStatusClear (t : Fin 16) (w : Fin 4) (v : BitVec 32) (s : State) : Host.Outcome State Fault Refusal :=
  s.onChip (fun c => when_ (c.hasFunction t.val) (clearEvents t.val w.val v.toNat) c)

/-- The enables of a tenant take a value: a source pending and newly enabled sends its message (R409). -/
def setEnables (t v : Nat) (c : Chip) : Chip :=
  let old := (c.tenant t).evtEnable
  let c := modTenant t (fun x => { x with evtEnable := v % 2 ^ 128 }) c
  if c.hasFunction t then
    forEach ((upTo 128).filter (fun k => bit v k && !bit old k && bit (c.tenant t).evtStatus k)) (fun k c => msix t k c) c
  else c

/-- One EVT_ENABLE word takes a value. -/
def setEnableWord (t w v : Nat) (c : Chip) : Chip :=
  let old := (c.tenant t).evtEnable
  let lo := 2 ^ (32 * w)
  setEnables t (old - bits old (32 * w + 31) (32 * w) * lo + v * lo) c

/-- EVT_ENABLE: one EVT_ENABLE word written through BAR0. -/
def execEvtEnable (t : Fin 16) (w : Fin 4) (v : BitVec 32) (s : State) : Host.Outcome State Fault Refusal :=
  s.onChip (fun c => when_ (c.hasFunction t.val) (setEnableWord t.val w.val v.toNat) c)

/-- A read of STC_LO returns ticks [31:0] and latches the rest of that instant (R391, R455). -/
def latchStc (t frac : Nat) (c : Chip) : Chip :=
  emit (.reg t 0x10 (c.time.stc % 2 ^ 32))
    (modTenant t (fun x => { x with stcHi := c.time.stc / 2 ^ 32 % 2 ^ 32, stcFrac := frac }) c)

/-- STC_LO_READ: a function reads STC_LO; `frac` is where in its tick the read falls. -/
def execStcLoRead (t : Fin 16) (frac : Byte) (s : State) : Host.Outcome State Fault Refusal :=
  s.onChip (fun c => when_ (c.hasFunction t.val) (latchStc t.val frac.toNat) c)

/-- A READ message of object `o` from `off`. -/
def readMsg (r : Req) (o off : Nat) : Msg :=
  { op := 1, txn := r.txn, object := BitVec.ofNat 32 o, offset := BitVec.ofNat 32 off, dst := 0xFF, reserved := 0, data := [] }

/-- Reading Tenant.Events.Pending from octet `off` returns at most `lim` octets and clears the bits returned (R415). -/
def pendingRead (t off lim : Nat) (c : Chip) : List Byte × Chip :=
  let all := leBytes 16 (c.tenant t).evtStatus
  let out := (all.drop off).take lim
  let kept := leNat (patch all off (zeros out.length))
  (out, modTenant t (fun x => { x with evtStatus := kept }) c)

/-- PENDING_READ: a READ of Tenant.Events.Pending. -/
def execPendingRead (r : Req) (t : Fin 16) (s : State) : Host.Outcome State Fault Refusal :=
  .next (serve r.path (readMsg r (Obj.tenantEventsPending t.val) 0) (fun m s =>
    if mayReadArea s.chip m (Obj.tenantEventsPending t.val) then
      let p := pendingRead t.val 0 (pathLimit r.path) s.chip
      ({ s with chip := p.2 }, { status := St.ok, data := p.1 })
    else (s, { status := St.noAccess })) s)

/-! ### Mailboxes (R407) -/

/-- The doorbell of mailbox `i` of tenant `t`: a request half in IDLE becomes a REQUEST. -/
def ringMailbox (t i : Nat) (c : Chip) : Chip :=
  if c.tenantState t = .active ∧ (tget {} c.work.mailboxes i).state = .idle then
    let c := modMail i (fun x => { x with state := .request }) c
    leaseSet 6 i (0x10 + t) noTerm (modWork (fun w => { w with mailOrder := w.mailOrder ++ [i] }) c)
  else c

/-- MAILBOX_DOORBELL: 1 written to the doorbell of queue 28 + m, the request half holding `tag` and `request`. -/
def execMailboxDoorbell (t : Fin 16) (m : Fin 4) (tag : BitVec 32) (request : List Byte) (s : State) :
    Host.Outcome State Fault Refusal :=
  s.onChip (fun c =>
    let i := mix t.val m.val
    if (tget {} c.work.mailboxes i).state = .idle then
      ringMailbox t.val i (modMail i (fun x => { x with tag := tag.toNat, length := request.length, request := request.take 2032 }) c)
    else c)

/-- STATE written IDLE: a request still in REQUEST is withdrawn, a write while BUSY is discarded. -/
def idleMailbox (i : Nat) (c : Chip) : Chip :=
  if (tget {} c.work.mailboxes i).state = .busy then c
  else
    let c := modMail i (fun x => { x with state := .idle }) c
    leaseDrop 6 i (modWork (fun w => { w with mailOrder := w.mailOrder.filter (· != i) }) c)

/-- MAILBOX_WITHDRAW: a function writes IDLE to a mailbox's STATE. -/
def execMailboxWithdraw (t : Fin 16) (m : Fin 4) (s : State) : Host.Outcome State Fault Refusal :=
  s.onChip (idleMailbox (mix t.val m.val))

/-! ### Access tables (R411 to R415) -/

/-- Units of kind `k` on which a master holds W. -/
def heldUnits (c : Chip) (k master : Nat) : Nat :=
  let listed := tkeys c.work.access (k * 65536) (k * 65536 + accessUnits k)
  let base := if bit (accessDefault k 0 master) 1 then accessUnits k - listed.length else 0
  base + (listed.filter (fun u => c.may k (u % 65536) master 1)).length

/-- The written table lands on the selected units (R413); CONST entries are kept by every check (R586). -/
def applyAccess (c : Chip) (stored : Bool) (k first count : Nat) (tbl : List Byte) : Chip :=
  let keys := (upTo count).map (fun j => k * 65536 + first + j)
  modWork (fun w =>
    let a := keys.foldl (fun t u => tset [] t u tbl) w.access
    { w with access := a,
             accessStored := if stored then keys.foldl (fun t u => tset [] t u tbl) w.accessStored
                             else w.accessStored }) c

/-- The rule of Access.Write: every unit selected needs A; a table that carries a tenant past its bus quota is
refused and raises QUOTA (R413 to R415). Entry 70, DESIGN CHOICE. -/
def accessAct (stored : Bool) : Act := chipAct (fun m c =>
  let k := c.num Obj.accessKind
  let first := c.num Obj.accessFirst
  let count := c.num Obj.accessCount
  let tbl := slice c.work.accessStaged 0 128
  if k = 0 ∨ accessUnits k < first + count ∨ count = 0 then (setNum Obj.accessResult 2 c, St.badValue)
  else if !((upTo count).all (fun j => c.may k (first + j) m 3)) then (setNum Obj.accessResult 6 c, St.noAccess)
  else
    let c' := applyAccess c stored k first count tbl
    let excess := (upTo 16).filter (fun t =>
      (k == 0x06 && decide (c.num (Obj.tenantQuotaLocalBuses t) < heldUnits c' k (0x10 + t))) ||
      (k == 0x07 && decide (c.num (Obj.tenantQuotaChainBuses t) < heldUnits c' k (0x10 + t))))
    if excess.isEmpty then (setNum Obj.accessResult 0 c', St.ok)
    else (setNum Obj.accessResult 9 (forEach excess (fun t c => raise t 36 c) c), St.refused))

/-- ACCESS_APPLY: Access.Write 1. -/
def execAccessApply (r : Req) (s : State) : Host.Outcome State Fault Refusal :=
  serveRow r Obj.accessWrite [1] (accessAct false) s

/-- ACCESS_APPLY_STORE: Access.Write 2; the tables are kept in flash too. -/
def execAccessApplyStore (r : Req) (s : State) : Host.Outcome State Fault Refusal :=
  serveRow r Obj.accessWrite [2] (accessAct true) s

end Sys2Proof.Machine
end

