-- ==== Sys2Proof/Machine/Setup.lean ====
section
/-!
DEFINITION. Setup objects: staging images, the commit checks, versions and handles of templates, layers,
modulation sets and control templates (R17 to R20, R46 to R60, R110 to R120, R132 to R136, R585).
-/

namespace Sys2Proof.Machine

/-! ### The four kinds of handle (R53, R110, R132) -/

/-- A kind of setup object. -/
inductive SetupKind | template | layer | modset | control
  deriving DecidableEq, Repr

/-- Which kind an operand names. -/
def setupKind : Fin 4 → SetupKind
  | 0 => .template | 1 => .layer | 2 => .modset | 3 => .control

/-- The kind of access table of its handles (R411). -/
def SetupKind.access : SetupKind → Nat
  | .layer => 0x02 | .template => 0x03 | .modset => 0x04 | .control => 0x05
/-- The size of its image (R47, R50, R110, R132). -/
def SetupKind.size : SetupKind → Nat
  | .template => 1536 | .layer => 272 | .modset => 4128 | .control => 1024
/-- Its MAGIC. -/
def SetupKind.magic : SetupKind → Nat
  | .template => 0x54504C31 | .layer => 0x4C595231 | .modset => 0x4D534531 | .control => 0x43544C31
/-- Its objects: Image, Commit and Result of handle `n`. -/
def SetupKind.imageObj : SetupKind → Nat → Nat
  | .template => Obj.templateImage | .layer => Obj.layerImage
  | .modset => Obj.stippleModSetImage | .control => Obj.stippleControlImage
def SetupKind.commitObj : SetupKind → Nat → Nat
  | .template => Obj.templateCommit | .layer => Obj.layerCommit
  | .modset => Obj.stippleModSetCommit | .control => Obj.stippleControlCommit
def SetupKind.resultObj : SetupKind → Nat → Nat
  | .template => Obj.templateResult | .layer => Obj.layerResult
  | .modset => Obj.stippleModSetResult | .control => Obj.stippleControlResult

/-- The handles of a kind. -/
def Chip.handles (c : Chip) : SetupKind → Table Handle
  | .template => c.setup.templates | .layer => c.setup.layers
  | .modset => c.setup.modsets | .control => c.setup.controls

/-- One handle. -/
def Chip.handle (c : Chip) (k : SetupKind) (n : Nat) : Handle := tget {} (c.handles k) n

/-- A handle's record changes. -/
def modHandle (k : SetupKind) (n : Nat) (f : Handle → Handle) (c : Chip) : Chip :=
  let u := c.setup
  { c with setup := match k with
    | .template => { u with templates := tmod {} u.templates n f }
    | .layer => { u with layers := tmod {} u.layers n f }
    | .modset => { u with modsets := tmod {} u.modsets n f }
    | .control => { u with controls := tmod {} u.controls n f } }

/-- A version held by a handle. -/
def Handle.version (h : Handle) (v : Nat) : Option Version := h.versions.find? (fun x => x.ver == v)

/-- The version that events bind to (R55). -/
def Chip.inForce (c : Chip) (k : SetupKind) (n : Nat) : Option Version :=
  (c.handle k n).current.bind (c.handle k n).version

/-- The newest committed version, in force or waiting for its boundary. -/
def Chip.newest (c : Chip) (k : SetupKind) (n : Nat) : Option Version :=
  let h := c.handle k n
  match h.next with
  | some (v, _) => h.version v
  | none => h.current.bind h.version

/-! ### Cost and weight (R58 to R60, R67) -/

/-- A descriptor (R49). -/
structure Desc where
  kernel : Nat
  prec : Nat
  inA : Nat
  inAEn : Nat
  inB : Nat
  inBEn : Nat
  out : Nat
  paramOfs : Nat
  stateOfs : Nat
  modFirst : Nat
  modCount : Nat
  sub : Nat
  aux : Nat
  deriving DecidableEq, Repr

/-- Read a descriptor from its 64 bits. -/
def desc (w : Nat) : Desc :=
  ⟨bits w 63 58, bits w 57 57, bits w 55 54, bits w 53 53, bits w 52 51, bits w 50 50, bits w 49 48, bits w 47 40,
   bits w 39 32, bits w 31 28, bits w 27 24, bits w 23 16, bits w 15 0⟩

/-- The kernel sequence of a template image or frame: up to the first KERNEL 0 (R49). -/
def descs (img : List Byte) : List Desc :=
  ((upTo 16).map (fun i => desc (field img (0x40 + 8 * i) 8))).takeWhile (fun d => d.kernel != 0)

/-- Cycles, parameter octets and state octets of a ROM kernel (R67). -/
def kernelFigures (prec : Nat) : Nat → Nat × Nat × Nat
  | 0x01 => (14, 16, 16) | 0x02 => (24, 16, 24) | 0x03 => (60, 48, 48) | 0x04 => (40, 32, 64)
  | 0x05 => (6, 4, 8) | 0x06 => if prec = 1 then (28, 16, 16) else (18, 16, 8) | 0x07 => (46, 16, 24)
  | 0x08 => (12, 12, 8) | 0x09 => (10, 8, 0) | 0x0A => (12, 8, 8) | 0x0B => (20, 8, 0) | _ => (0, 0, 0)

/-- A template's cost (R58). -/
def templateCost (img : List Byte) : Nat :=
  ((descs img).map (fun d => (kernelFigures d.prec d.kernel).1)).sum + field img 0x08 2

/-- The voice budget at a rate code (R58). -/
def voiceBudget (rate : Nat) : Nat := if rate < 2 then 416 else 208

/-- The weight of a template at the rate in force (R58). -/
def weightAt (rate : Nat) (img : List Byte) : Nat :=
  let b := voiceBudget rate
  (templateCost img + b - 1) / b
def Chip.weight (c : Chip) (img : List Byte) : Nat := weightAt c.time.rate img

/-- Is a template dormant at the rate in force (R60)? -/
def Chip.dormant (c : Chip) (img : List Byte) : Bool := decide (4 < c.weight img)

/-! ### Check 1: formats (R48 to R50, R112 to R118, R120, R132, R136) -/

/-- Are `n` octets at `off` all 0? -/
def zeroAt (img : List Byte) (off n : Nat) : Bool := ((img.drop off).take n).all (· == 0)

/-- The SUB and AUX values that R67 lists for a kernel; any for a kernel it does not list. -/
def descOk (d : Desc) : Bool :=
  decide (d.modCount ≤ 8) &&
  match d.kernel with
  | 0x01 => decide (d.sub ≤ 2)
  | 0x02 => d.sub == 0
  | 0x03 => decide (d.sub ≤ 7)
  | 0x04 => bits d.sub 6 2 == 0 && bits d.sub 1 0 != 3 && decide (d.aux ≤ 3)
  | 0x05 => decide (d.sub ≤ 1)
  | 0x06 => decide (d.sub ≤ 3)
  | 0x07 => d.sub == 0
  | 0x08 => decide (d.sub ≤ 1) && decide (1 ≤ d.aux) && decide (d.aux ≤ 20000)
  | 0x09 => decide (d.sub ≤ 7)
  | 0x0A => d.sub == 0
  | 0x0B => d.sub == 0
  | _ => true

/-- A mod slot of R117 with only listed values. -/
def slotFormat (s : List Byte) : Bool :=
  decide (field s 0 1 ≤ 14) && decide (field s 1 1 < 4) && decide (field s 4 1 ≤ 31) &&
  (field s 0 1 == 1 || field s 4 1 == 0) && decide (field s 9 1 ≤ 7) && zeroAt s 0xE 2

/-- The 32 mod slots from an offset. -/
def modSlots (img : List Byte) (off : Nat) : List (List Byte) := (upTo 32).map (fun i => slice img (off + 16 * i) 16)

/-- A stage of R114 with only listed values. -/
def stageFormat (def_ : List Byte) (i : Nat) : Bool := decide (field def_ (0x20 + 6 * i + 5) 1 < 8)

/-- Is a TYPE and MODE pair listed (R113)? -/
def genMode (type mode : Nat) : Bool :=
  match type with
  | 1 => mode == 0 | 2 => decide (mode ≤ 4) | 3 => decide (mode ≤ 1) | 4 => mode == 0 | 5 => mode == 0
  | 6 => decide (mode ≤ 1) | 7 => decide (mode < 4) | 8 => true | _ => false

/-- Is a generator definition valid (R112 to R116)?  `isGlobal` admits FOLLOW and PITCH and their inputs. -/
def genFormat (isGlobal : Bool) (d : List Byte) : Bool :=
  let type := field d 0 1
  let flags := field d 2 2
  let stages := field d 0x10 1
  d.length == 128 && genMode type (field d 1 1) && decide (flags < 16) && zeroAt d 0x18 8 &&
  (flags % 2 == 0 || field d 6 2 == 0) &&
  (isGlobal || decide (type < 7)) &&
  (!(type == 4 || type == 5) || decide (field d 0xA 2 < if isGlobal then 4096 else 32)) &&
  (!(type == 7 || type == 8) || decide (field d 0xA 2 / 4096 ≤ 2)) &&
  (!(type == 1 || type == 3) || (decide (1 ≤ stages) && decide (stages ≤ 16))) &&
  (type != 1 || field d 0x11 1 == 0xFF || decide (field d 0x11 1 < stages)) &&
  (upTo 16).all (stageFormat d)

/-- A binding of R136 with only listed values. -/
def bindingFormat (d : Nat) (b : List Byte) : Bool :=
  let kind := field b 0 1
  let ix := field b 2 2
  decide (kind ≤ 5) && (kind == 0 || decide (field b 1 1 < d)) && decide (field b 5 1 ≤ 1) && zeroAt b 0xA 6 &&
  (match kind with
   | 1 => decide (ix ≤ 31) && field b 4 1 == 0
   | 2 => decide (1 ≤ ix / 4096) && decide (ix / 4096 ≤ 3) && bits ix 11 10 == 0 && decide (1 ≤ ix % 1024) &&
          decide (ix % 1024 ≤ if field b 4 1 = 1 then 511 else 512) && decide (field b 4 1 ≤ 1)
   | 3 => bits ix 15 10 == 0 && bits ix 7 6 == 0 && field b 4 1 == 0
   | 4 => decide (ix / 512 = 0) && bits ix 7 6 == 0 && field b 4 1 == 0
   | 5 => decide (ix ≤ 255) && field b 4 1 == 0
   | _ => field b 4 1 == 0)

/-- A zone of a layer (R50). -/
def zoneOf (img : List Byte) (i : Nat) : List Byte := slice img (0x10 + 16 * i) 16

/-- Check 1 of R54 by kind. -/
def formatOk (k : SetupKind) (img : List Byte) : Bool :=
  img.length == k.size && field img 0 4 == k.magic && field img 4 2 == 1 &&
  match k with
  | .template =>
    let ds := descs img
    decide (field img 6 2 < 16) && decide (field img 8 2 ≤ 1664) && decide (field img 0xA 1 ≤ 16) &&
    decide (field img 0xB 1 ≤ 15) && decide (field img 0xE 1 ≤ 3) && decide (field img 0x10 1 ≤ 31) &&
    decide (field img 0x11 1 ≤ 16) && zeroAt img 0x34 12 && zeroAt img 0x3E0 32 && ds.all descOk &&
    (upTo 16).all (fun i => field img (0x14 + 2 * i) 2 == 0 || ((ds[i]?).map (fun d => d.kernel)) == some 0x3F) &&
    (modSlots img 0x400).all slotFormat
  | .layer =>
    let n := field img 8 1
    decide (field img 6 2 < 2) && decide (1 ≤ n) && decide (n ≤ 16) && zeroAt img 9 7 &&
    zeroAt img (0x10 + 16 * n) (256 - 16 * n) &&
    (upTo n).all (fun i =>
      let z := zoneOf img i
      decide (field z 0 2 < 4096) && decide (field z 2 1 ≤ 127) && decide (field z 3 1 ≤ 127) && zeroAt z 0xD 3)
  | .modset =>
    let n := field img 6 1
    decide (1 ≤ n) && decide (n ≤ 32) && zeroAt img 7 25 &&
    (upTo n).all (fun e => genFormat false (slice img (0x20 + 128 * e) 128)) &&
    zeroAt img (0x20 + 128 * n) (4096 - 128 * n)
  | .control =>
    let d := field img 6 1
    decide (1 ≤ d) && decide (d ≤ 16) && (field img 7 1 == 0xFF || decide (field img 7 1 ≤ 31)) &&
    decide (field img 8 1 ≤ 15) && zeroAt img 9 (0x40 - 9) && zeroAt img 0x2C0 320 &&
    (modSlots img 0x40).all slotFormat &&
    (upTo 8).all (fun i => bindingFormat d (slice img (0x240 + 16 * i) 16))

/-! ### Checks 2 to 6 (R54) -/

/-- Check 2: every KERNEL is listed. -/
def kernelsKnown (img : List Byte) : Bool :=
  (descs img).all (fun d => decide (d.kernel ≤ 0x0B) || d.kernel == 0x3F)

/-- The parameter and state areas: offset and size in octets (R49, R54). -/
def areas (img : List Byte) : List (Nat × Nat) :=
  ((descs img).zipIdx.map (fun x =>
    let d := x.1
    let u := field img (0x14 + 2 * x.2) 2
    let f := kernelFigures d.prec d.kernel
    if d.kernel = 0x3F then [(4 * d.paramOfs, 4 * (u / 256)), (4 * d.stateOfs, 4 * (u % 256))]
    else [(4 * d.paramOfs, f.2.1), (4 * d.stateOfs, f.2.2)])).flatten

/-- Do no two nonempty areas overlap? -/
def disjoint : List (Nat × Nat) → Bool
  | [] => true
  | a :: rest =>
    rest.all (fun b => a.2 == 0 || b.2 == 0 || decide (a.1 + a.2 ≤ b.1) || decide (b.1 + b.2 ≤ a.1)) && disjoint rest

/-- Check 4: the layout of the dynamic area. Entry 44, DEDUCED. -/
def layoutOk (img : List Byte) : Bool :=
  let top := 0x3C0 - 34 * field img 0xA 1
  (areas img).all (fun a => decide (0xC0 ≤ a.1) && decide (a.1 ≤ top) && decide (a.1 + a.2 ≤ top)) && disjoint (areas img)

/-- The definition that a GEN slot names, if it is committed and the master may use it (R111). -/
def Chip.slotDef (c : Chip) (m : Nat) (s : List Byte) : Option (List Byte) :=
  let set := field s 2 2
  if set < 4096 ∧ c.may 0x04 set m 2 then
    match c.newest .modset set with
    | some v => if field s 4 1 < field v.image 6 1 then some (slice v.image (0x20 + 128 * field s 4 1) 128) else none
    | none => none
  else none

/-- The copies a commit takes: one definition for each GEN slot; none if one is not usable (R111). -/
def Chip.copyDefs (c : Chip) (m : Nat) (slots : List (List Byte)) : Option (Table (List Byte)) :=
  slots.zipIdx.foldl (fun acc x =>
    match acc with
    | none => none
    | some t => if field x.1 0 1 = 1 then (c.slotDef m x.1).map (fun d => tput t x.2 d) else some t) (some [])

/-- DEST and DEPTH_MOD of the slots are valid references (R117). -/
def slotRefs (d : Nat) (slots : List (List Byte)) : Bool :=
  slots.zipIdx.all (fun x =>
    field x.1 0 1 == 0 ||
    ((field x.1 5 1 == 0xFF || decide (field x.1 5 1 < d)) && (field x.1 8 1 == 0xFF || decide (field x.1 8 1 < x.2))))

/-- Is slot `e` a GEN slot whose definition is an ENV? -/
def envSlot (defs : Table (List Byte)) (e : Nat) : Bool := field (tget [] defs e) 0 1 == 1

/-- The targets of a control template's bindings are writable by the committing tenant (R136). -/
def bindingsAllowed (c : Chip) (m : Nat) (img : List Byte) : Bool :=
  (upTo 8).all (fun i =>
    let b := slice img (0x240 + 16 * i) 16
    let ix := field b 2 2
    match field b 0 1 with
    | 1 => c.may 0x10 ix m 1
    | 2 => c.may 0x11 (ix / 4096 - 1) m 1
    | 3 => true
    | 4 => c.may 0x12 (ix / 256 * 64 + ix % 64) m 1
    | 5 => c.may 0x13 ix m 1
    | _ => true)

/-- Check 6 for a template, with the copies it takes. -/
def templateRefs (img : List Byte) (copies : Option (Table (List Byte))) : Bool :=
  let ds := descs img
  let d := field img 0xA 1
  ds.any (fun x => x.kernel == 0x0A) && ds.all (fun x => decide (x.modFirst + x.modCount ≤ d)) &&
  ds.all (fun x => x.kernel != 0x04 ||
    ((!bit x.sub 7 || decide (x.out ≤ 2)) &&
     (let r := field img (4 * x.paramOfs + 2) 1; decide (1 ≤ r) && decide (r ≤ 64)))) &&
  slotRefs d (modSlots img 0x400) &&
  (match copies with
   | none => false
   | some t => !(field img 0xE 1 == 1 || field img 0xE 1 == 3) || envSlot t (field img 0x10 1))

/-- Check 6 for a layer: every template named is committed and the master may use it. -/
def layerRefs (c : Chip) (m : Nat) (img : List Byte) : Bool :=
  (upTo (field img 8 1)).all (fun i =>
    let t := field (zoneOf img i) 0 2
    (c.newest .template t).isSome && c.may 0x03 t m 2)

/-- The result of the checks of a commit by master `m`, and the copies it takes (R54, R110, R132). Entry 44, DEDUCED. -/
def commitCheck (c : Chip) (k : SetupKind) (n m : Nat) : Nat × Table (List Byte) :=
  let h := c.handle k n
  let img := h.staging
  let copies := match k with
    | .template => c.copyDefs m (modSlots img 0x400)
    | .control => c.copyDefs m (modSlots img 0x40)
    | _ => some []
  let full := decide (4 ≤ h.versions.length)
  let may := c.may k.access n m 2
  let refs := match k with
    | .template => templateRefs img copies
    | .layer => layerRefs c m img
    | .modset => true
    | .control => copies.isSome && slotRefs (field img 6 1) (modSlots img 0x40) &&
        (field img 7 1 == 0xFF || envSlot (copies.getD []) (field img 7 1))
  let r := if !formatOk k img then 1
    else if k == .template && !kernelsKnown img then 2
    else if k == .template && !((descs img).all (fun d => d.prec == 0 || d.kernel == 0x06)) then 3
    else if k == .template && !layoutOk img then 4
    else if k == .template && decide (1664 < templateCost img) then 5
    else if !refs then 6
    else if full then 7
    else if !may || (k == .control && !bindingsAllowed c m img) then 8
    else 0
  (r, copies.getD [])

/-! ### Versions (R19, R55) -/

/-- The voices and control voices that use a version, waiting ones among them. -/
def Chip.voiceUses (c : Chip) (k : SetupKind) (n v : Nat) : Bool :=
  c.hawk.voices.any (fun x => match x.2 with
    | none => false
    | some w =>
      match k with
      | .template => !w.control && w.template == n && w.version == v
      | .control => w.control && w.handle == 0x8000 + n && w.version == v
      | _ => false)

/-- The accepted events, pending, that are bound to a version (R19). -/
def Chip.eventUses (c : Chip) (k : SetupKind) (n v : Nat) : Bool :=
  c.work.journal.recs.any (fun x => match x.2 with
    | none => false
    | some r =>
      r.state == .pending && !r.taken &&
      (let hnd := field r.entry 0xA 2
       match k with
       | .layer => hnd == n && r.bound.head? == some v
       | .control => hnd == 0x8000 + n && r.bound.head? == some v
       | .modset => false
       | .template =>
         decide (hnd < 4096) &&
         (match (c.handle .layer hnd).version (r.bound.headD 0) with
          | some l => (upTo (field l.image 8 1)).any (fun i =>
              field (zoneOf l.image i) 0 2 == n && r.bound[i + 1]? == some v)
          | none => false)))

/-- Drop the versions of a handle that are neither in force, nor next, nor used (R19, R55). -/
def collect (k : SetupKind) (n : Nat) (c : Chip) : Chip :=
  modHandle k n (fun h =>
    { h with versions := h.versions.filter (fun v =>
        h.current == some v.ver || h.next.map Prod.fst == some v.ver || c.voiceUses k n v.ver || c.eventUses k n v.ver) }) c

/-- The first frame boundary after now. -/
def Chip.nextBoundary (c : Chip) : Nat := (c.time.stc / c.time.block + 1) * c.time.block

/-- The image hash of a commit: over the image and the copied definitions in slot order (R57, R111). -/
def imageHash (img : List Byte) (defs : Table (List Byte)) : Nat := Config.sha384 (img ++ (defs.map Prod.snd).flatten)

/-- A commit that passed its checks: a new version, in force from the next boundary (R55). -/
def addVersion (k : SetupKind) (n m : Nat) (defs : Table (List Byte)) (c : Chip) : Chip :=
  let at_ := c.nextBoundary
  modHandle k n (fun h =>
    let v : Version := { ver := h.nextVer, image := h.staging, defs := defs, hash := imageHash h.staging defs,
                         owner := match masterTenant m with | some t => t | none => 0xFF }
    { h with versions := h.versions ++ [v], next := some (h.nextVer, at_), nextVer := h.nextVer + 1 }) c

/-- The owner an object reports: the committing tenant. -/
def Chip.ownerOf (c : Chip) (k : SetupKind) (n : Nat) : Nat := match c.newest k n with | some v => v.owner | none => 0xFF

/-! ### Replication of chain-wide layers (R376) -/

/-- Is a layer image chain-wide (R50)? -/
def isChainLayer (img : List Byte) : Bool := bit (field img 6 2) 0

/-- The templates a layer names. -/
def layerTemplates (img : List Byte) : List Nat := (upTo (field img 8 1)).map (fun i => field (zoneOf img i) 0 2)

/-- The fields of one replicated image: kind, handle, tenant, length, octets (entry 13, DESIGN CHOICE). -/
def replFields (kind n tenant : Nat) (img : List Byte) : List Nat :=
  [kind, n, tenant, img.length] ++ img.map BitVec.toNat

/-- The modulation sets that a template image names. -/
def templateSets (img : List Byte) : List Nat :=
  (((modSlots img 0x400).filter (fun s => field s 0 1 == 1)).map (fun s => field s 2 2)).eraseDups

/-- Broadcast a commit of a CHAIN layer with its templates and their sets (R376): REPLICATE is CHAIN_ADMIN 8. -/
def replicate (n m : Nat) (img : List Byte) (c : Chip) : Chip :=
  let t := m - 0x10
  let ts := (layerTemplates img).eraseDups
  let timgs := ts.filterMap (fun x => (c.newest .template x).map (fun v => (x, v.image)))
  let sets := (timgs.map (fun x => templateSets x.2)).flatten.eraseDups
  let simgs := sets.filterMap (fun x => (c.newest .modset x).map (fun v => (x, v.image)))
  sendLath 5 1 0xFF 8 ((simgs.map (fun x => replFields 2 x.1 t x.2)).flatten ++
    (timgs.map (fun x => replFields 0 x.1 t x.2)).flatten ++ replFields 1 n t img) c

/-! ### The rules of the objects (R53, R492) -/

/-- A staging lease: 10 s from the last write, held by the master that wrote (R492). Entry 44, DEDUCED. -/
def stageLease (o m : Nat) (c : Chip) : Chip := leaseSet 2 o m (c.time.stc + 10 * c.fs) c

/-- Write an Image object (R53, R411, R492). -/
def stageAct (k : SetupKind) (n : Nat) (img : List Byte) : Act :=
  actWhen (fun m c => if !c.may k.access n m 1 then St.noAccess
      else if c.leasedByOther 2 (k.imageObj n) m then St.busy else St.ok)
    (fun m c => stageLease (k.imageObj n) m (modHandle k n (fun h => { h with staging := img }) c))

/-- Commit 1 (R54, R55). Entry 44, DEDUCED. -/
def commitAct (k : SetupKind) (n : Nat) : Act := chipAct (fun m c =>
  let c := collect k n c
  let r := commitCheck c k n m
  let c := setNum (k.resultObj n) r.1 c
  if r.1 ≠ 0 then (c, if r.1 = 8 then St.noAccess else St.refused)
  else
    let c := addVersion k n m r.2 c
    let img := (c.handle k n).staging
    (when_ (k == .layer && isChainLayer img && c.isMember) (replicate n m img) c, St.ok))

/-- A handle is withdrawn: no event binds to it any more (R18, R53). Entry 44, DEDUCED. -/
def withdraw (k : SetupKind) (n : Nat) (c : Chip) : Chip :=
  collect k n (modHandle k n (fun h => { h with current := none, next := none }) c)

/-- Commit 2 (R53): it needs A; with nothing committed it changes nothing and answers OK. -/
def withdrawAct (k : SetupKind) (n : Nat) : Act := chipAct (fun m c =>
  if !c.may k.access n m 3 then (c, St.noAccess)
  else match c.newest k n with
    | none => (c, St.ok)
    | some v =>
      let c := withdraw k n c
      (when_ (k == .layer && isChainLayer v.image && c.isMember) (sendLath 5 1 0xFF 8 [1, n, m - 0x10, 0]) c, St.ok))

/-- STAGING_IMAGE_WRITE: the Image object of a handle is written. -/
def execStagingImageWrite (r : Req) (k : Fin 4) (n : Fin 4096) (image : List Byte) (s : State) :
    Host.Outcome State Fault Refusal :=
  serveRow r ((setupKind k).imageObj n.val) image (stageAct (setupKind k) n.val image) s
/-- TEMPLATE_COMMIT. -/
def execTemplateCommit (r : Req) (n : Fin 4096) (s : State) : Host.Outcome State Fault Refusal :=
  serveRow r (Obj.templateCommit n.val) [1] (commitAct .template n.val) s
/-- TEMPLATE_WITHDRAW. -/
def execTemplateWithdraw (r : Req) (n : Fin 4096) (s : State) : Host.Outcome State Fault Refusal :=
  serveRow r (Obj.templateCommit n.val) [2] (withdrawAct .template n.val) s
/-- LAYER_COMMIT. -/
def execLayerCommit (r : Req) (n : Fin 4096) (s : State) : Host.Outcome State Fault Refusal :=
  serveRow r (Obj.layerCommit n.val) [1] (commitAct .layer n.val) s
/-- LAYER_WITHDRAW. -/
def execLayerWithdraw (r : Req) (n : Fin 4096) (s : State) : Host.Outcome State Fault Refusal :=
  serveRow r (Obj.layerCommit n.val) [2] (withdrawAct .layer n.val) s
/-- MODSET_COMMIT. -/
def execModsetCommit (r : Req) (n : Fin 4096) (s : State) : Host.Outcome State Fault Refusal :=
  serveRow r (Obj.stippleModSetCommit n.val) [1] (commitAct .modset n.val) s
/-- MODSET_WITHDRAW. -/
def execModsetWithdraw (r : Req) (n : Fin 4096) (s : State) : Host.Outcome State Fault Refusal :=
  serveRow r (Obj.stippleModSetCommit n.val) [2] (withdrawAct .modset n.val) s
/-- CONTROL_COMMIT. -/
def execControlCommit (r : Req) (n : Fin 4096) (s : State) : Host.Outcome State Fault Refusal :=
  serveRow r (Obj.stippleControlCommit n.val) [1] (commitAct .control n.val) s
/-- CONTROL_WITHDRAW. -/
def execControlWithdraw (r : Req) (n : Fin 4096) (s : State) : Host.Outcome State Fault Refusal :=
  serveRow r (Obj.stippleControlCommit n.val) [2] (withdrawAct .control n.val) s

/-! ### Boundaries and release (R19, R55) -/

/-- The handles that are listed, with their kinds. -/
def Chip.allHandles (c : Chip) : List (SetupKind × Nat) :=
  c.setup.templates.map (fun x => (.template, x.1)) ++ c.setup.layers.map (fun x => (.layer, x.1)) ++
  c.setup.modsets.map (fun x => (.modset, x.1)) ++ c.setup.controls.map (fun x => (.control, x.1))

/-- At its boundary the next version becomes the one events bind to (R55). -/
def switchVersion (x : SetupKind × Nat) (c : Chip) : Chip :=
  match (c.handle x.1 x.2).next with
  | some (v, t) => if t ≤ c.time.stc then
      collect x.1 x.2 (modHandle x.1 x.2 (fun h => { h with current := some v, next := none }) c) else c
  | none => c

/-- VERSION_SWITCH: every version whose boundary has come takes over. -/
def execVersionSwitch (s : State) : Host.Outcome State Fault Refusal :=
  s.onChip (fun c => forEach c.allHandles switchVersion c)

/-- VERSION_RELEASE: withdrawn versions that no accepted event and no voice refers to are released. -/
def execVersionRelease (s : State) : Host.Outcome State Fault Refusal :=
  s.onChip (fun c => forEach c.allHandles (fun x c => collect x.1 x.2 c) c)

/-- Status of a handle (R585): COMMITTED, DORMANT, WITHDRAWING, STAGED, EMPTY. -/
def Chip.handleStatus (c : Chip) (k : SetupKind) (n : Nat) : Nat :=
  let h := c.handle k n
  match h.current with
  | some _ => (match c.newest k n with
    | some v => if k == .template && c.dormant v.image then 3 else 2
    | none => 2)
  | none =>
    if h.next.isSome then 1
    else if !h.versions.isEmpty then 4
    else if !h.staging.isEmpty then 1 else 0

end Sys2Proof.Machine
end

