-- ==== Sys2Proof/Machine/Stipple.lean ====
section
/-!
DEFINITION. Stipple: generators, mod slots, controllers, generator blocks and control outputs, computed step by
step (R107 to R138).
-/

namespace Sys2Proof.Machine

/-! ### Values (R12, R118 to R121) -/

/-- Saturate to Q1.15. -/
def satQ15 (z : Int) : Int := clampInt (-32768) 32767 z

/-- A factor of 0x7FFF is exactly 1.0 (R121). -/
def oneQ15 (z : Int) : Int := if z = 32767 then 32768 else z

/-- A signed bend value (R119). -/
def bendValue (u : Nat) : Int := ((u : Int) - 0x80000000) / 65536

/-- A curve of R120 on a Q1.15 value; CONST may be exactly 1.0. -/
def shapeValue (curve : Nat) (x : Int) : Int :=
  match curve with
  | 1 => (x + 32768) / 2
  | 2 => satQ15 (2 * x - 32768)
  | 3 => shrFloor (x * x.natAbs) 15
  | 4 => shrFloor (x * x * x) 30
  | 5 =>
    let n := x.natAbs * 32768
    let r := Nat.sqrt n
    if 0 ≤ x then (r : Int) else -((if r * r < n then r + 1 else r : Nat) : Int)
  | 6 =>
    let m := min 32768 (Config.expCurve x.natAbs)
    if 0 ≤ x then (m : Int) else -(m : Int)
  | 7 => x - x % 512
  | _ => x

/-- Level below full scale in 0.5 dB steps, ⌊-40 log₁₀ (v / full)⌋ saturated at 255 (R76, R115). -/
def attenOf (v full : Nat) : Nat :=
  if v = 0 then 255
  else ((upTo 256).filter (fun a => decide (v ^ 40 * 10 ^ a ≤ full ^ 40))).getLast?.getD 0

/-- Is a peak below END_LEVEL (R48, R74)? -/
def belowEndLevel (peak level : Nat) : Bool := decide (peak ^ 40 * 10 ^ level < (2 ^ 23) ^ 40)

/-! ### Stage times (R114) -/

/-- Beat units: 1/(15,360,000 fs) beat, so that 1/256 tick at tempo `t` passes `t` of them. Entry 52, DESIGN CHOICE. -/
def beatUnits (fs : Nat) : Nat := 15360000 * fs

/-- Steps of a time in unit 0, 1 or 2, unscaled (R114). -/
def plainSteps (time fs : Nat) : Nat :=
  let n := time % 16384
  max 1 (match time / 16384 with
    | 0 => n
    | 1 => (n * fs + 39999) / 40000
    | _ => (n * fs + 3999) / 4000)

/-- Is a time in 1/96 beat? -/
def isBeatTime (time : Nat) : Bool := time / 16384 == 3

/-- TIME, TARGET, CURVE and FLAGS of a stage. -/
def Gen.stageTime (g : Gen) (i : Nat) : Nat := field g.def_ (0x20 + 6 * i + 2) 2
def Gen.stageTarget (g : Gen) (i : Nat) : Int := sfield g.def_ (0x20 + 6 * i) 2
def Gen.stageCurve (g : Gen) (i : Nat) : Int := sfield g.def_ (0x20 + 6 * i + 4) 1
def Gen.stageFlag (g : Gen) (i b : Nat) : Bool := bit (field g.def_ (0x20 + 6 * i + 5) 1) b
def Gen.stages (g : Gen) : Nat := field g.def_ 0x10 1
def Gen.type (g : Gen) : Nat := field g.def_ 0 1
def Gen.mode (g : Gen) : Nat := field g.def_ 1 1
def Gen.flag (g : Gen) (b : Nat) : Bool := bit (field g.def_ 2 2) b
def Gen.velTime (g : Gen) : Int := sfield g.def_ 0x14 1
def Gen.keyTime (g : Gen) : Int := sfield g.def_ 0x15 1
def Gen.rateField (g : Gen) : Nat := field g.def_ 4 4

/-- Are the stage lengths scaled (R114)? -/
def Gen.isScaled (g : Gen) : Bool := g.scale.isSome && (g.velTime != 0 || g.keyTime != 0)

/-- The length of stage `i` in 1/256 ticks, when it is not in beats (R114). -/
def Gen.stageUnits (g : Gen) (fs i : Nat) : Nat :=
  let t := g.stageTime i
  match g.scale with
  | some (v, n) =>
    if g.isScaled then 1024 * max 1 (Config.scaledSteps t g.velTime v g.keyTime n fs) else 1024 * plainSteps t fs
  | none => 1024 * plainSteps t fs

/-- The length of stage `i` in beat units (R114). -/
def Gen.stageBeats (g : Gen) (fs i : Nat) : Nat :=
  let t := g.stageTime i
  match g.scale with
  | some (v, n) =>
    if g.isScaled then Config.scaledBeats t g.velTime v g.keyTime n fs else t % 16384 * beatUnits fs / 96
  | none => t % 16384 * beatUnits fs / 96

/-! ### ENV and SEQ (R114 to R116) -/

/-- When the current stage ends, if it has by `now` (R114). -/
def Gen.stageEnd (g : Gen) (fs tempo now : Nat) : Option Nat :=
  if isBeatTime (g.stageTime g.stage) then
    let total := g.stageBeats fs g.stage
    if total = 0 then (if g.start + (1024 - g.into) ≤ now then some (g.start + (1024 - g.into)) else none)
    else
      let b := g.beats + (now - g.seen) * tempo
      if total ≤ b then some (now - (b - total) / tempo) else none
  else
    let e := g.start + (g.stageUnits fs g.stage - g.into)
    if e ≤ now then some e else none

/-- Enter a stage at a time, from a level. -/
def Gen.enter (g : Gen) (i at_ : Nat) (from_ : Int) : Gen :=
  { g with stage := i, start := at_, into := 0, entry := from_, beats := 0, seen := at_ }

/-- The nearest LOOP_START stage at or before `i` (R115). -/
def Gen.loopStart (g : Gen) (i : Nat) : Option Nat := ((upTo (i + 1)).filter (fun j => g.stageFlag j 1)).getLast?

/-- Complete the stages that have ended by `now` (R115, R116), at most `fuel` of them. -/
def Gen.advance (fs tempo now : Nat) : Nat → Gen → Gen
  | 0, g => g
  | fuel + 1, g =>
    if g.hold || g.done then g
    else match g.stageEnd fs tempo now with
      | none => g
      | some e =>
        let t := g.stageTarget g.stage
        let g := { g with level := t, entry := t }
        if g.type = 3 then
          if g.stage + 1 < g.stages then Gen.advance fs tempo now fuel (g.enter (g.stage + 1) e t)
          else if g.flag 3 then { g with done := true }
          else Gen.advance fs tempo now fuel (g.enter 0 e t)
        else if !g.released && g.stageFlag g.stage 0 then { g with hold := true }
        else
          let next := if !g.released && g.stageFlag g.stage 2 then (g.loopStart g.stage).getD (g.stage + 1) else g.stage + 1
          if next < g.stages then Gen.advance fs tempo now fuel (g.enter next e t)
          else { g with done := true,
                        finished := g.released || !((upTo g.stages).any (fun i => g.stageFlag i 0)) }

/-- Pass the time up to `now` in the stage it stands in. -/
def Gen.pass (g : Gen) (tempo now : Nat) : Gen :=
  { g with beats := g.beats + (now - g.seen) * tempo, run := g.run + (now - g.seen) * tempo, seen := max now g.seen }

/-- The level between entry and TARGET at a progress (R114). -/
def Gen.between (g : Gen) (num den : Nat) : Int :=
  let t := g.stageTarget g.stage
  if g.stageCurve g.stage = 0 then satQ15 (g.entry + (t - g.entry) * num / (max 1 den : Nat))
  else clampInt (min g.entry t) (max g.entry t) (Config.curveLevel (g.stageCurve g.stage) g.entry t num den)

/-- The output of an ENV, or of a gliding SEQ, at `now`, once its stages have advanced. -/
def Gen.stageLevel (g : Gen) (fs now : Nat) : Int :=
  if g.hold || g.done then g.level
  else if isBeatTime (g.stageTime g.stage) then
    let total := g.stageBeats fs g.stage
    if total = 0 then g.between (now - g.start + g.into) 1024 else g.between (min g.beats total) total
  else g.between (now - g.start + g.into) (g.stageUnits fs g.stage)

/-- An ENV up to `now`: stages, then time. -/
def Gen.stepStages (g : Gen) (fs tempo now : Nat) : Gen := (g.advance fs tempo now 64).pass tempo now

/-- Release of an ENV at time `r` (R115). -/
def Gen.releaseAt (g : Gen) (fs tempo r : Nat) : Gen :=
  if g.type ≠ 1 ∨ g.released then g
  else if g.finished then { g with released := true }
  else
    let r := max r g.seen
    let g := g.stepStages fs tempo r
    let l := g.stageLevel fs r
    let s := field g.def_ 0x11 1
    let g := { g with released := true, hold := false, level := l }
    if s < g.stages then { (g.enter s r l) with done := false } else { g with done := true, finished := true }

/-! ### The other types (R116, R128) -/

/-- Cycles passed since τ, as a fraction: with SYNC from the tempo, else from RATE, clamped at fs/8.
Entry 52, DESIGN CHOICE. -/
def Gen.cycles (g : Gen) (fs now : Nat) : Nat × Nat :=
  let e := now - g.tau + g.base
  if g.flag 0 then
    let p := g.rateField % 65536
    if p = 0 then (e, 2048) else (g.beats * 96, p * beatUnits fs)
  else if g.rateField * 8 < fs * 65536 then (g.rateField * e, 65536 * 256 * fs) else (e, 2048)

/-- The bipolar value of an LFO shape at a phase (R116). -/
def lfoShape (mode num den : Nat) : Int × Nat :=
  let p : Int := num
  let d : Int := den
  match mode with
  | 1 => if 4 * p < d then (4 * p, den) else if 4 * p < 3 * d then (2 * d - 4 * p, den) else (4 * p - 4 * d, den)
  | 2 => (2 * p - d, den)
  | 3 => (d - 2 * p, den)
  | 4 => (if 2 * p < d then d else -d, den)
  | _ => (clampInt (-32768) 32768 (Config.sine num den), 32768)

/-- How far an LFO has faded in (R116): a fraction of at most 1. -/
def Gen.fadeIn (g : Gen) (fs now : Nat) : Nat × Nat :=
  let t := field g.def_ 0xE 2
  if t % 16384 = 0 then (1, 1)
  else if isBeatTime t then
    let total := t % 16384 * beatUnits fs / 96
    (min g.run total, max 1 total)
  else
    let total := 1024 * plainSteps t fs
    (min (now - g.tau + g.base) total, total)

/-- The value of an LFO at `now`; `bp` is the beat position (R116, R128). -/
def Gen.lfo (g : Gen) (fs bp now : Nat) : Int :=
  let ph := field g.def_ 8 2
  if g.flag 1 && !g.flag 0 then satQ15 (Config.lfoUnlocked g.def_ (now / 1024))
  else
    let c := if g.flag 1 then
        (let p := g.rateField % 65536
         if p = 0 then (now, 2048) else (bp * 96, p * 2 ^ 32))
      else g.cycles fs now
    let num := (ph * c.2 + 65536 * c.1) % (65536 * c.2)
    let v := lfoShape g.mode num (65536 * c.2)
    let v := if g.flag 2 then (v.1 + v.2, 2 * v.2) else v
    let f := g.fadeIn fs now
    satQ15 (v.1 * f.1 * 32768 / (v.2 * f.2 : Nat))

/-- A slew rate per step with 32 more fraction bits; none when a count of 0 means no slew (R116). -/
def slewRate (time fs tempo : Nat) : Option Nat :=
  let n := time % 16384
  if n = 0 then none
  else if isBeatTime time then some (65536 * 2 ^ 32 * (1024 * tempo * 96) / (n * beatUnits fs))
  else some (65536 * 2 ^ 32 / plainSteps time fs)

/-- One step of a SLEW toward its input (R116). -/
def Gen.slewStep (g : Gen) (fs tempo : Nat) (x : Int) : Gen :=
  let full := x * 2 ^ 32
  let acc := if g.drawn = 0 then full
    else if g.acc < full then
      (match slewRate (field g.def_ 0xC 2) fs tempo with | none => full | some r => min full (g.acc + r))
    else if full < g.acc then
      (match slewRate (field g.def_ 0xE 2) fs tempo with | none => full | some r => max full (g.acc - r))
    else g.acc
  { g with acc := acc, drawn := 1, value := shrFloor acc 32 }

/-- The index of the RATE period `now` lies in (R116). -/
def Gen.period (g : Gen) (fs now : Nat) : Nat := let c := g.cycles fs now; c.1 / max 1 c.2

/-- One step of a generator at `now`: `x` is its input, `bp` the beat position, `n` its number when global. -/
def Gen.step (g : Gen) (fs tempo bp now n : Nat) (x : Int) : Gen :=
  match g.type with
  | 1 => let g := g.stepStages fs tempo now; { g with value := g.stageLevel fs now }
  | 3 =>
    let g := g.stepStages fs tempo now
    { g with value := if g.mode = 0 then (if g.done then g.level else g.stageTarget g.stage) else g.stageLevel fs now }
  | 2 =>
    let p := g.rateField % 65536
    let cap := if g.flag 0 && p != 0 then min tempo (p * beatUnits fs / 196608) else tempo
    let g := { g with beats := g.beats + (now - g.seen) * cap, run := g.run + (now - g.seen) * tempo, seen := max now g.seen }
    { g with value := g.lfo fs bp now }
  | 4 => (g.pass tempo now).slewStep fs tempo x
  | 5 =>
    let g := g.pass tempo now
    let i := g.period fs now
    if g.drawn = i + 1 then g else { g with drawn := i + 1, acc := x, value := x }
  | 6 =>
    let g := g.pass tempo now
    let seed := (field g.def_ 0x16 2) ^^^ (g.id % 65536)
    let i := g.period fs now
    let a := satQ15 (Config.rand seed i)
    let v := if g.mode = 0 then a
      else (let c := g.cycles fs now; let b := satQ15 (Config.rand seed (i + 1)); a + (b - a) * (c.1 % max 1 c.2 : Nat) / (max 1 c.2 : Nat))
    { g with value := if g.flag 2 then (v + 32768) / 2 else v }
  | _ => { g with value := satQ15 (Config.measured n (now / 1024)), seen := max now g.seen }

/-- A generator at its start (R109, R116). -/
def Gen.begin (def_ : List Byte) (tau id : Nat) (scale : Option (Nat × Nat)) (bornAt : Int := 0) : Gen :=
  let g : Gen := { def_ := def_, tau := tau, id := id, scale := scale, start := tau, seen := tau }
  let first := if field def_ 0 1 = 1 then sfield def_ 0x12 2
    else if field def_ 0 1 = 3 then satQ15 (Config.seqFirst def_) else bornAt
  { g with entry := first, level := first }

/-! ### Time base values (R128, R461) -/

/-- The beat position that an anchor gives at a step tick, Q32.32 beats (R461). -/
def beatAt (anchorStep anchorBeat tempo fs s : Nat) : Nat :=
  (anchorBeat + (s - anchorStep) * tempo * 2 ^ 32 / (60000 * fs)) % 2 ^ 64

/-- The first step at or after the apply tick of a tempo change, not before the anchor in force (R459, R462). -/
def TempoChange.step (x : TempoChange) (t : Time) : Nat := max ((x.tick + 3) / 4 * 4) t.anchorStep

/-- The anchor a change sets at step `s`: beat position and tempo; a relocation comes first (R462). -/
def TempoChange.anchor (x : TempoChange) (beat tempo : Nat) : Nat × Nat :=
  (if x.kind = 1 then beat else x.position, if x.kind = 2 then tempo else x.tempo)

/-- The anchor in force at a step tick, a change that waits counted from its own step on (R461, R462). -/
def Chip.anchorAt (c : Chip) (s : Nat) : Nat × Nat × Nat :=
  let t := c.time
  let tempo := c.num Obj.plumbTempo
  match t.tempoChange with
  | some x =>
    let p := x.step t
    if p ≤ s then (let a := x.anchor (beatAt t.anchorStep t.anchorBeat tempo c.fs p) tempo; (p, a.1, a.2))
    else (t.anchorStep, t.anchorBeat, tempo)
  | none => (t.anchorStep, t.anchorBeat, tempo)

/-- The tempo at a step tick, 1/1,000 BPM. -/
def Chip.tempoAt (c : Chip) (s : Nat) : Nat := (c.anchorAt s).2.2

/-- The beat position at a step tick, Q32.32 beats (R461). -/
def Chip.beatPos (c : Chip) (s : Nat) : Nat := let a := c.anchorAt s; beatAt a.1 a.2.1 a.2.2 c.fs s

/-- The step that contains a tick (R109). -/
def stepOf (t : Nat) : Nat := t - t % 4

/-! ### Controllers (R119, R127) -/

/-- The value of a controller history at a step: the last one whose step is not later. -/
def atStep (dflt : Nat) (h : List (Nat × Nat)) (s : Nat) : Nat :=
  ((h.filter (fun e => decide (stepOf e.1 ≤ s))).getLast?.map Prod.snd).getD dflt

/-- Add a value at a tick; values that no later step can read are dropped. -/
def addAt (old t v : Nat) (h : List (Nat × Nat)) : List (Nat × Nat) :=
  let before := h.filter (fun e => decide (e.1 ≤ t))
  let after := h.filter (fun e => decide (t < e.1))
  let stale := before.filter (fun e => decide (stepOf e.1 + 4 ≤ old))
  let fresh := before.filter (fun e => decide (old < stepOf e.1 + 4))
  (match stale.getLast? with | some e => [e] | none => []) ++ fresh ++ [(t, v)] ++ after

/-- The key of a controller: tenant, group and channel, and number: 0 to 127 CC, 128 pressure, 129 bend. -/
def ctlKey (tenant channel n : Nat) : Nat := (tenant * 256 + channel) * 256 + n

/-! ### Mod slots (R117 to R121) -/

/-- The value of a global generator that a slot reads at a step (R129). -/
def Chip.globalAt (c : Chip) (n s : Nat) : Int :=
  ((tget [] c.stipple.globalSteps n).find? (fun e => decide (e.1 ≤ s))).elim 0 Prod.snd

/-- May a tenant read a global generator (R129)? -/
def Chip.mayReadGlobal (c : Chip) (n t : Nat) : Bool :=
  let o := c.num (Obj.stippleGlobalOwner n)
  o == 0xFF || o == t

/-- The definitions that a voice's GEN slots name, one for each distinct set and entry (R122), and the generator of
each slot. -/
def genIndex (slots : List (List Byte)) : List Nat × Table Nat :=
  slots.zipIdx.foldl (fun acc x =>
    if field x.1 0 1 = 1 then
      let same := (upTo x.2).find? (fun j => field (slots.getD j []) 0 1 == 1 &&
        slice (slots.getD j []) 2 3 == slice x.1 2 3)
      match same with
      | some j => (acc.1, tput acc.2 x.2 (tget 0 acc.2 j))
      | none => (acc.1 ++ [x.2], tput acc.2 x.2 acc.1.length)
    else acc) ([], [])

/-- What a voice is made from. -/
structure VoiceDef where
  slots : List (List Byte)
  dests : Nat
  defs : Table (List Byte)
  /-- mod slot of the end envelope, if one ends or times it -/
  endEnv : Option Nat

/-- A voice's version. -/
def Chip.voiceVersion (c : Chip) (v : Voice) : Version :=
  (((c.handle (if v.control then .control else .template) v.template).version v.version)).getD { ver := 0, image := [] }

/-- The image of a voice's version. -/
def Chip.voiceImage (c : Chip) (v : Voice) : List Byte := (c.voiceVersion v).image

/-- The mod slots and definitions of a voice or control voice (R47, R132). -/
def Chip.voiceDef (c : Chip) (v : Voice) : VoiceDef :=
  let x := c.voiceVersion v
  if v.control then
    { slots := modSlots x.image 0x40, dests := field x.image 6 1, defs := x.defs,
      endEnv := if field x.image 7 1 = 0xFF then none else some (field x.image 7 1) }
  else
    { slots := modSlots x.image 0x400, dests := field x.image 0xA 1, defs := x.defs,
      endEnv := if field x.image 0xE 1 = 1 ∨ field x.image 0xE 1 = 3 then some (field x.image 0x10 1) else none }

/-- Is a controller source one that SLEW smooths (R117)? -/
def isController (kind : Nat) : Bool := decide (6 ≤ kind) && decide (kind ≤ 11)

/-- The source value of a slot before INVERT, and the smoothing state it leaves (R118, R119). Entry 52, DESIGN CHOICE. -/
def sourceValue (c : Chip) (v : Voice) (gi : Table Nat) (m : Mods) (i : Nat) (slot : List Byte) (s : Nat) : Int × Mods :=
  let kind := field slot 0 1
  let ix := field slot 2 2
  let chan (n dflt : Nat) : Nat := atStep dflt (tget [] c.stipple.controllers (ctlKey v.tenant v.note.channel n)) s
  let per (n dflt : Nat) : Nat := atStep dflt (tget [] v.perNote n) s
  let raw : Int := match kind with
    | 1 => ((m.gens[tget 0 gi i]?).map (fun g => g.value)).getD 0
    | 2 => if c.mayReadGlobal (ix % 4096) v.tenant then c.globalAt (ix % 4096) s else 0
    | 3 => (v.note.velocity / 2 : Nat)
    | 4 => satQ15 ((v.pitch - 60 * 65536) / 128)
    | 5 => (match v.release with
        | some (t, f, vel) => if 256 * t + f ≤ 256 * s then (vel / 2 : Nat) else 0
        | none => 0)
    | 6 => (per ((if bit (field slot 1 1) 0 then 256 else 0) + ix % 256) 0 / 2 ^ 17 : Nat)
    | 7 => bendValue (per 512 0x80000000)
    | 8 => (per 513 0 / 2 ^ 17 : Nat)
    | 9 => (chan (ix % 128) 0 / 2 ^ 17 : Nat)
    | 10 => (chan 128 0 / 2 ^ 17 : Nat)
    | 11 => bendValue (chan 129 0x80000000)
    | 12 => tget 0 c.stipple.stems (ix % 256)
    | 13 => 32768
    | 14 => satQ15 (Config.onsetRandom v.id)
    | _ => 0
  let slew := field slot 0xC 2
  if isController kind && slew % 16384 != 0 then
    let last := tget raw m.slewed i
    let y := clampInt (min last raw) (max last raw) (Config.smoothed slew last raw)
    (y, { m with slewed := tput m.slewed i y })
  else (raw, m)

/-- One step of a voice (R121): its generators, then its slots in order; the destinations' values. -/
def stepVoice (c : Chip) (v : Voice) (d : VoiceDef) (gi : Table Nat) (m : Mods) (s : Nat) : Mods × List Int :=
  let now := max (256 * s) (256 * v.onsetTick + v.onsetFrac)
  let fs := c.fs
  let tempo := c.tempoAt s
  let bp := c.beatPos s
  let gens := m.gens.map (fun g =>
    let g := match v.release with
      | some (t, f, _) => if 256 * t + f ≤ 256 * s then g.releaseAt fs tempo (256 * t + f) else g
      | none => g
    g.step fs tempo bp now 0 (m.prev.getD (field g.def_ 0xA 2) 0))
  let m := { m with gens := gens }
  let r := d.slots.zipIdx.foldl (fun (acc : Mods × List Int × List Int) x =>
    let slot := x.1
    if field slot 0 1 = 0 then (acc.1, acc.2.1 ++ [0], acc.2.2)
    else
      let sv := sourceValue c v gi acc.1 x.2 slot s
      let y := shapeValue (field slot 9 1) (if bit (field slot 1 1) 1 then -sv.1 else sv.1)
      let depth0 := oneQ15 (sfield slot 6 2) * 32768
      let dm := field slot 8 1
      let depth := if dm = 0xFF then depth0
        else clampInt (-(2 ^ 30)) (2 ^ 30) (depth0 + oneQ15 (sfield slot 0xA 2) * acc.2.1.getD dm 0)
      let dest := field slot 5 1
      let sums := if dest = 0xFF then acc.2.2 else setAt acc.2.2 dest (acc.2.2.getD dest 0 + y * depth)
      (sv.2, acc.2.1 ++ [y], sums)) (m, [], List.replicate d.dests 0)
  ({ r.1 with prev := r.2.1 }, r.2.2.map (fun a => satQ15 (shrFloor a 30)))

/-- The steps of a frame. -/
def Chip.frameSteps (c : Chip) (k : Nat) : List Nat := (upTo (c.bsize / 4)).map (fun j => k * c.bsize + 4 * j)

/-- Pass over the steps of frame `k`. -/
def runFrame (c : Chip) (v : Voice) (d : VoiceDef) (gi : Table Nat) (m : Mods) (k : Nat) : Mods × List (List Int) :=
  (c.frameSteps k).foldl (fun acc s => let r := stepVoice c v d gi acc.1 s; (r.1, acc.2 ++ [r.2])) (m, [])

/-- STAGE, ATTEN and whether it has finished, of the end envelope (R77, R115). -/
def envStatus (d : VoiceDef) (gi : Table Nat) (m : Mods) : Nat × Nat × Bool :=
  match d.endEnv with
  | none => (2, 255, false)
  | some e =>
    match m.gens[tget 0 gi e]? with
    | none => (2, 255, false)
    | some g =>
      let stage := if g.released then 3
        else if g.hold || (!g.done && g.stageFlag g.stage 0) then 2
        else if !g.done && decide (g.entry < g.stageTarget g.stage) then 0 else 1
      (stage, attenOf g.value.natAbs 32768, g.finished)

/-- Bring a voice's generators to the start of frame `k`, at most `fuel` frames. -/
def catchUp (c : Chip) (v : Voice) (d : VoiceDef) (gi : Table Nat) (k : Nat) : Nat → Voice
  | 0 => { v with modFrame := k }
  | fuel + 1 =>
    let w := catchUp c v d gi (k - 1) fuel
    if w.modFrame < k then { w with mods := (runFrame c w d gi w.mods w.modFrame).1, modFrame := w.modFrame + 1 } else w

/-- Rows of steps as rows of destinations (R64). -/
def byDest (n : Nat) (rows : List (List Int)) : List (List Int) := (upTo n).map (fun d => rows.map (fun r => r.getD d 0))

/-- Compute the mod block of frame `k` of a bound voice (R64, R108): entry j at sample 4j, the last at the first step
of the next frame.  A late cluster repeats the last value of the frame before (R477). -/
def evalVoice (c : Chip) (k : Nat) (hold : Bool) (v : Voice) : Voice :=
  let d := c.voiceDef v
  let gi := (genIndex d.slots).2
  let v := catchUp c v d gi k (k - v.modFrame)
  let r := runFrame c v d gi v.mods k
  let last := stepVoice c v d gi r.1 ((k + 1) * c.bsize)
  let rows := if hold then v.block.map (fun row => List.replicate (c.bsize / 4 + 1) (row.getLast?.getD 0))
    else byDest d.dests (r.2 ++ [last.2])
  { v with block := rows, blockFrame := k + 1, envEnd := envStatus d gi last.1 }

/-! ### The table of voices -/

/-- A voice by internal number. -/
def Chip.voice (c : Chip) (n : Nat) : Option Voice := tget none c.hawk.voices n

/-- Hawk changes. -/
def modHawk (f : Hawk → Hawk) (c : Chip) : Chip := { c with hawk := f c.hawk }

/-- Stipple changes. -/
def modStipple (f : Stipple → Stipple) (c : Chip) : Chip := { c with stipple := f c.stipple }

/-- One voice changes. -/
def modVoice (n : Nat) (f : Voice → Voice) (c : Chip) : Chip :=
  modHawk (fun h => { h with voices := tmod none h.voices n (fun v => v.map f) }) c

/-- The voices in order of their internal numbers. -/
def Chip.voiceList (c : Chip) : List (Nat × Voice) :=
  c.hawk.voices.filterMap (fun x => x.2.map (fun v => (x.1, v)))

/-- Is a voice placed or sounding: does it hold generators and, if audio, slots? -/
def Voice.live (v : Voice) : Bool := v.state != .waiting

/-- The cluster that serves a voice (R107, R122, R134). -/
def Voice.cluster (v : Voice) : Nat :=
  if v.control then (match v.genBase with | some b => b / 16384 | none => 0) else v.slots.headD 0 / 64 / 64

/-! ### Generator blocks (R107, R122, R123, R129, R139) -/

/-- Generators per cluster at the rate in force (R107). -/
def Chip.genPool (c : Chip) : Nat := if 4 ≤ c.time.rate then 8192 else 16384

/-- The block size for `n` generators: 0 for none (R122). -/
def genBlock (n : Nat) : Nat := if n = 0 then 0 else if n ≤ 4 then 4 else if n ≤ 8 then 8 else if n ≤ 16 then 16 else 32

/-- Units of a global generator (R113). -/
def globalUnits (def_ : List Byte) : Nat := if field def_ 0 1 = 8 then 16 else 1

/-- Global units enabled in a cluster (R129). -/
def Chip.globalUnitsIn (c : Chip) (cluster : Nat) : Nat :=
  ((c.stipple.globals.filter (fun x => c.num (Obj.stippleGlobalCluster x.1) == cluster)).map
    (fun x => globalUnits x.2.def_)).sum

/-- The blocks bound in a cluster: base within it and size. -/
def Chip.genBlocks (c : Chip) (cluster : Nat) : List (Nat × Nat) :=
  c.voiceList.filterMap (fun x => match x.2.genBase with
    | some b => if b / 16384 = cluster then some (b % 16384, x.2.genSize) else none
    | none => none)

/-- Free generators of a cluster, reserve included (R139). -/
def Chip.genFree (c : Chip) (cluster : Nat) : Nat :=
  c.genPool - ((c.genBlocks cluster).map Prod.snd).sum - c.globalUnitsIn cluster

/-- The lowest aligned free block of a size in a cluster, as the buddy method gives it (R122). -/
def Chip.findBlock (c : Chip) (cluster size : Nat) : Option Nat :=
  let used := c.genBlocks cluster
  let free (i : Nat) : Bool := used.all (fun b => decide (b.1 + b.2 ≤ size * i) || decide (size * (i + 1) ≤ b.1))
  if size ≤ c.genFree cluster then (upTo (c.genPool / size)).find? free else none

/-- Has a cluster a free block of the size: outside the reserve, or for a steal anywhere (R123)? -/
def Chip.genRoom (c : Chip) (cluster size : Nat) (steal : Bool) : Bool :=
  size == 0 || ((c.findBlock cluster size).isSome &&
    (steal || decide (c.stipple.reserve + size ≤ c.genFree cluster)))

/-- Generators counted against a tenant's quota (R414). -/
def Chip.gensUsed (c : Chip) (t : Nat) : Nat :=
  ((c.voiceList.filter (fun x => x.2.tenant == t)).map (fun x => if x.2.genBase.isSome then x.2.mods.gens.length else 0)).sum +
  ((c.stipple.globals.filter (fun x => c.num (Obj.stippleGlobalOwner x.1) == t)).map (fun x => globalUnits x.2.def_)).sum

/-- Bind a voice's generators at its onset (R109, R122): the block begins at `base`, none for no generators. -/
def bindGens (c : Chip) (base : Option Nat) (k : Nat) (v : Voice) : Voice :=
  let d := c.voiceDef v
  let gi := genIndex d.slots
  let tau := 256 * v.onsetTick + v.onsetFrac
  let scale := some (v.note.velocity / 2, v.note.note)
  { v with genBase := base, genSize := genBlock gi.1.length,
           mods := { gens := gi.1.map (fun i => Gen.begin (tget [] d.defs i) tau v.id scale), slewed := [], prev := [] },
           modFrame := k, block := [], blockFrame := 0 }

/-- The generators of a voice stop and its block returns (R124). -/
def unbindGens (v : Voice) : Voice := { v with genBase := none, genSize := 0 }

/-- Does a voice still modulate: it has not begun to feather (R124)? -/
def Voice.modulates (v : Voice) : Bool := v.state == .placed || v.state == .sounding || v.state == .releasing

/-! ### Global generators (R129) -/

/-- One step of every global generator; SLEW and SH read the values of the step before. -/
def stepGlobals (c : Chip) (s : Nat) (gs : Table Gen) : Table Gen :=
  gs.map (fun x =>
    let g := x.2
    if 256 * s < g.tau then x
    else
      let input := tget {} gs (field g.def_ 0xA 2)
      (x.1, g.step c.fs (c.tempoAt s) (c.beatPos s) (256 * s) x.1 input.value))

/-- Compute the global generators for frame `k` (R108, R129). -/
def evalGlobals (k : Nat) (c : Chip) : Chip :=
  if k + 1 ≤ c.stipple.globalFrame then c
  else
    let r := ((c.frameSteps k) ++ [(k + 1) * c.bsize]).foldl (fun (acc : Table Gen × Table Gen × List (Nat × Table Gen)) s =>
      let g := stepGlobals c s acc.1
      (g, (if s < (k + 1) * c.bsize then g else acc.2.1), (s, g) :: acc.2.2)) (c.stipple.globals, c.stipple.globals, [])
    modStipple (fun x =>
      { x with globals := r.2.1, globalFrame := k + 1,
               globalSteps := r.2.1.map (fun e =>
                 (e.1, (r.2.2.map (fun y => (y.1, (tget {} y.2 e.1).value)) ++
                   (tget [] x.globalSteps e.1).filter (fun y => decide (y.1 < k * c.bsize))).take 64)) }) c

/-! ### Control outputs (R136 to R138) -/

/-- The key of an output target: KIND and INDEX. -/
def targetKey (kind ix : Nat) : Nat := kind * 65536 + ix

/-- An output binding of a control template (R136). -/
def bindingOf (img : List Byte) (i : Nat) : List Byte := slice img (0x240 + 16 * i) 16

/-- The target of a binding; a HOST_STEM one is a channel of the tenant's own queues, a 16-bit DMX one is marked by bit 10. -/
def bindingTarget (b : List Byte) (tenant : Nat) : Nat :=
  let ix := field b 2 2
  targetKey (field b 0 1) (match field b 0 1 with
    | 3 => tenant * 1024 + ix
    | 2 => ix / 4096 * 4096 + ix % 1024 + field b 4 1 % 2 * 1024
    | _ => ix)

/-- The output of a binding for a destination's value (R136). -/
def bindingOutput (b : List Byte) (m : Int) : Int :=
  let o := satQ15 (sfield b 6 2 + shrFloor (oneQ15 (sfield b 8 2) * m) 15)
  if field b 5 1 = 1 then max 0 o else o

/-- Event order: lexicographic (R504). -/
def keyLt : List Nat → List Nat → Bool
  | [], [] => false
  | [], _ => true
  | _, [] => false
  | a :: as, b :: bs => decide (a < b) || (a == b && keyLt as bs)

/-- A target's Merge mode: 0 LTP, 1 HTP, 2 SUM (R138, R139). -/
def Chip.mergeMode (c : Chip) (kind ix : Nat) : Nat :=
  match kind with
  | 1 => c.num (Obj.stippleCvMerge ix)
  | 2 => field (c.blob (Obj.stippleDmxMerge (ix / 4096 - 1))) (ix % 1024 - 1) 1
  | 3 => 0
  | 4 => c.num (Obj.stippleCanMerge (ix / 256 * 64 + ix % 64))
  | _ => c.num (Obj.stippleStemMerge (ix % 256))

/-- What drives the targets in a step: key, event order of the start, PRIORITY and output. -/
abbrev Drive1 := Nat × List Nat × Nat × Int

/-- Merge the outputs that drive one target (R138). Entry 46, DESIGN CHOICE. -/
def mergeDrives (mode : Nat) (ds : List Drive1) : Int :=
  match mode with
  | 1 => (ds.map (fun d => d.2.2.2)).foldl max (-32768)
  | 2 => satQ15 ((ds.map (fun d => d.2.2.2)).foldl (· + ·) 0)
  | _ =>
    let later (a b : Drive1) : Bool :=
      keyLt (a.2.1.take 1) (b.2.1.take 1) ||
        (a.2.1.take 1 == b.2.1.take 1 && (decide (a.2.2.1 < b.2.2.1) || (a.2.2.1 == b.2.2.1 && keyLt a.2.1 b.2.1)))
    match ds with
    | [] => 0
    | d :: rest => (rest.foldl (fun a b => if later a b then b else a) d).2.2.2

/-- Has a control voice without an end envelope been released by a step (R134)? -/
def Chip.endedAt (c : Chip) (v : Voice) (s : Nat) : Bool :=
  field (c.voiceImage v) 7 1 == 0xFF && (match v.release with | some (t, _, _) => decide (t ≤ s) | none => false)

/-- The control voices' outputs at step `j` of their mod blocks for frame `k`. -/
def Chip.drives (c : Chip) (k j : Nat) : List Drive1 :=
  (c.voiceList.filter (fun x => x.2.control && x.2.blockFrame == k + 1 && x.2.modulates &&
      decide (x.2.onsetTick ≤ k * c.bsize + 4 * j) && !c.endedAt x.2 (k * c.bsize + 4 * j))).flatMap (fun x =>
    let img := c.voiceImage x.2
    (upTo 8).filterMap (fun i =>
      let b := bindingOf img i
      if field b 0 1 = 0 then none
      else some (bindingTarget b x.2.tenant, x.2.key, field img 8 1,
        bindingOutput b ((x.2.block.getD (field b 1 1) []).getD j 0))))

/-- Compute the driven targets for frame `k` and keep two frames of steps before it (R137, R138). -/
def controlOutputs (k : Nat) (c : Chip) : Chip :=
  let old := (k - 2) * c.bsize
  let keep (l : List (Nat × Int)) : List (Nat × Int) := l.filter (fun e => decide (old ≤ e.1) && decide (e.1 < k * c.bsize))
  let base : Table (List (Nat × Int)) := c.stipple.steps.map (fun x => (x.1, match keep x.2 with | [] => x.2.take 1 | l => l))
  forEach (upTo (c.bsize / 4)) (fun j c =>
    let ds := c.drives k j
    forEach ((ds.map Prod.fst).eraseDups) (fun key c =>
      let v := mergeDrives (c.mergeMode (key / 65536) (key % 65536)) (ds.filter (fun d => d.1 == key))
      modStipple (fun x => { x with steps := tmod [] x.steps key (fun l => (k * c.bsize + 4 * j, v) :: l),
                                    idled := tdel x.idled key }) c) c)
    (modStipple (fun x => { x with steps := base }) c)

/-- The last value of a target at a step or before it. Entry 52, DESIGN CHOICE. -/
def Chip.targetAt (c : Chip) (key s : Nat) : Option Int :=
  ((tget [] c.stipple.steps key).find? (fun e => decide (e.1 ≤ s))).map Prod.snd

/-- Is a target driven at step `s`? -/
def Chip.targetDriven (c : Chip) (key s : Nat) : Bool := (tget [] c.stipple.steps key).any (fun e => e.1 == s)

/-! ### Frames of a cluster (R108, R477) -/

/-- Compute the frame-`k` values of a cluster's voices; `hold` when it is late. -/
def evalCluster (cl k : Nat) (hold : Bool) (c : Chip) : Chip :=
  let c := evalGlobals k c
  forEach c.voiceList (fun x c =>
    if x.2.modulates && x.2.cluster == cl then
      modVoice x.1 (evalVoice c k (hold && decide (0 < x.2.blockFrame))) c else c) c

/-- Has a cluster anything bound? -/
def Chip.clusterBusy (c : Chip) (cl : Nat) : Bool :=
  c.voiceList.any (fun x => x.2.modulates && x.2.cluster == cl) || decide (0 < c.globalUnitsIn cl)

/-- STIPPLE_FRAME: a cluster computes the next frame's values and the control outputs they give (R24, R108). -/
def execStippleFrame (cluster : Fin 4) (s : State) : Host.Outcome State Fault Refusal :=
  s.onChip (fun c =>
    let k := c.frame + 1
    let c := evalCluster cluster.val k false c
    controlOutputs k (modStipple (fun x => { x with computed := tset 0 x.computed cluster.val (k + 1) }) c))

/-- A cluster is late for frame `k`: its voices hold the last value, and it is counted once (R108, R477). -/
def stippleLate (cl k : Nat) (c : Chip) : Chip :=
  if tget 0 c.stipple.late cl = k + 1 then c
  else
    let c := evalCluster cl k true c
    bump Obj.stippleCountersLateFrames (modStipple (fun x => { x with late := tset 0 x.late cl (k + 1) }) c)

/-- STIPPLE_LATE: the frame whose window this is, is missed (R477). -/
def execStippleLate (cluster : Fin 4) (s : State) : Host.Outcome State Fault Refusal :=
  s.onChip (fun c => stippleLate cluster.val (c.frame + 1) c)

end Sys2Proof.Machine
end

