-- ==== Sys2Proof/Machine/TrowelCore.lean ====
section
/-!
DEFINITION. The Trowel core: the memories it sees, its pipeline as slots and stages, program flow, and the issue
of one instruction (R142 to R162, R173, R184 to R191).
-/

namespace Sys2Proof.Machine

/-! ### Memory (R149 to R152) -/

/-- The place of a core's local data octet. -/
def memLocal (core ofs : Nat) : Nat := core * 0x100000 + ofs

/-- The place of a core's program octet. -/
def memProgram (core ofs : Nat) : Nat := core * 0x100000 + 0x80000 + ofs

/-- The place of a gang's scratchpad octet. -/
def memScratch (gang ofs : Nat) : Nat := 0x10000000 + gang * 0x200000 + ofs

/-- The place of an exchange RAM octet. -/
def memExchange (ofs : Nat) : Nat := 0x20000000 + ofs

/-- One octet of memory: an octet nothing has written reads 0 (entry 1, DESIGN CHOICE). -/
def Chip.byte (c : Chip) (k : Nat) : Byte := tget 0 c.mem k

/-- Read `n` octets from place `k`. -/
def Chip.bytesAt (c : Chip) (k n : Nat) : List Byte := tgets 0 c.mem k n

/-- Does a word of these octets hold an uncorrectable error (R299)? -/
def Chip.badAt (c : Chip) (k n : Nat) : Bool := c.errs.bad.any (fun w => decide (k / 8 ≤ w) && decide (w ≤ (k + n - 1) / 8))

/-- Write octets from place `k` on; a word written whole holds no error any more (R299). -/
def writeBytes (k : Nat) (bs : List Byte) (c : Chip) : Chip :=
  { c with mem := tsets 0 c.mem k bs,
           errs := { c.errs with bad := c.errs.bad.filter (fun w => decide (8 * w < k) || decide (k + bs.length < 8 * w + 8)) } }

/-- Clear the places from `lo` up to `hi`. -/
def clearMem (lo hi : Nat) (c : Chip) : Chip :=
  { c with mem := tclear c.mem lo hi
           errs := { c.errs with bad := c.errs.bad.filter (fun w => decide (8 * w < lo) || decide (hi ≤ 8 * w)) } }

/-- A memory in canonical form. -/
def Memory.wf (m : List Host.Cell) : Bool := twf (0 : Byte) m

/-- What a data address names on a core (R149). -/
inductive Place
  | mem (k : Nat)
  | rom (ofs : Nat)
  | unmapped
  deriving DecidableEq, Repr

/-- The place of a data address (R149). -/
def placeOf (core addr : Nat) : Place :=
  if addr < 0x14000 then .mem (memLocal core addr)
  else if 0x200000 ≤ addr ∧ addr < 0x400000 then .mem (memScratch (core / 16) (addr - 0x200000))
  else if 0x400000 ≤ addr ∧ addr < 0x410000 then .rom (addr - 0x400000)
  else if 0x800000 ≤ addr ∧ addr < 0x80C000 then .mem (memProgram core (addr - 0x800000))
  else .unmapped

/-! ### Views: what a stage sees (R159 to R161) -/

/-- ST's writable bits (R143, R192). -/
def stWritable : BitVec 32 := 0x0004733F

/-- A register file after one write. -/
def Regs.apply (r : Regs) : RegWrite → Regs
  | .x n v => { r with x := tset 0 r.x n v }
  | .a n v => { r with a := tset 0 r.a n v }
  | .aG n v => { r with a := tset 0 r.a n (v ++ (tget 0 r.a n).extractLsb' 0 32) }
  | .aH n v => { r with a := tset 0 r.a n ((tget 0 r.a n).extractLsb' 32 8 ++ v ++ (tget 0 r.a n).extractLsb' 0 16) }
  | .aL n v => { r with a := tset 0 r.a n ((tget 0 r.a n).extractLsb' 16 24 ++ v) }
  | .p n v => { r with p := tset 0 r.p n v }
  | .m n v => { r with m := tset 0 r.m n v }
  | .mLo n v => { r with m := tset 0 r.m n ((tget 0 r.m n).extractLsb' 16 16 ++ v) }
  | .mHi n v => { r with m := tset 0 r.m n (v ++ (tget 0 r.m n).extractLsb' 0 16) }
  | .lc v => { r with lc := v }
  | .bx v => { r with bx := v &&& 0x9FFF }
  | .wb v => { r with st := (r.st &&& 0xFFFF8FFF) ||| (v.zeroExtend 32 <<< 12) }
  | .flags z n v c ov sv =>
    let f : BitVec 32 := (if z then 1 else 0) ||| (if n then 2 else 0) ||| (if v then 4 else 0) |||
      (if c then 8 else 0) ||| (if ov then 16 else 0) ||| (if sv then 32 else 0)
    { r with st := (r.st &&& 0xFFFFFFF0) ||| f }
  | .setSv => { r with st := r.st ||| 32 }
  | .stMove v => { r with st := v &&& stWritable }
  | .stSet k => { r with st := r.st ||| k }
  | .stClr k => { r with st := r.st &&& ~~~k }

/-- The register file a reader in cycle `cyc` sees: every write that landed in an earlier cycle. Entry 53, DEDUCED. -/
def Thread.view (t : Thread) (cyc : Nat) : Regs :=
  t.writes.foldl (fun r w => if w.cycle < cyc then r.apply w.write else r) t.regs

/-- Put a write in its place: by cycle, then by slot, the later slot last (R161). Entry 53, DEDUCED. -/
def insertPending (w : Pending) : List Pending → List Pending
  | [] => [w]
  | v :: vs => if w.cycle < v.cycle then w :: v :: vs else v :: insertPending w vs

/-- Land every write that the next slot's decode already sees. -/
def Thread.settle (t : Thread) : Thread :=
  let done := t.writes.takeWhile (fun w => decide (w.cycle < t.slot + 3))
  { t with regs := done.foldl (fun r w => r.apply w.write) t.regs, writes := t.writes.drop done.length }

/-- Let the pipeline drain: every write has landed (R204). Entry 53, DEDUCED. -/
def Thread.drain (t : Thread) : Thread :=
  { t with regs := t.writes.foldl (fun r w => r.apply w.write) t.regs, writes := [], slot := t.slot + 7 }

/-- Stage numbers (R159). -/
def sID : Nat := 3
def sAG : Nat := 4
def sMA : Nat := 5
def sMX : Nat := 6
def sAC : Nat := 7

/-- ST as code reads it: THREAD, RPT and LOOP filled in (R143). -/
def Thread.readSt (t : Thread) (n : Nat) (r : Regs) : BitVec 32 :=
  (r.st &&& stWritable) ||| (BitVec.ofNat 32 n <<< 16) ||| (if 0 < t.rpt then 0x800 else 0) |||
    (if t.loop.isSome then 0x400 else 0)

/-- The physical number of logical register `n` (R144). -/
def physX (r : Regs) (n : Nat) : Nat :=
  if n < 8 then n else 8 + (n - 8 + (r.st.extractLsb' 12 3).toNat) % 8

/-! ### Threads -/

/-- The number of a thread in the tables. -/
def thrKey (t : Thr) : Nat := 4 * t.core.val + t.thread.val

/-- A thread's record. -/
def Chip.thread (c : Chip) (k : Nat) : Thread := tget {} c.trowel.threads k

/-- The Trowel state changes. -/
def modTrowel (f : Trowel → Trowel) (c : Chip) : Chip := { c with trowel := f c.trowel }

/-- A thread's record changes. -/
def modThread (k : Nat) (f : Thread → Thread) (c : Chip) : Chip :=
  modTrowel (fun w => { w with threads := tmod {} w.threads k f }) c

/-- A core's record. -/
def Chip.core (c : Chip) (n : Nat) : CoreRun := tget {} c.trowel.cores n

/-- A core's record changes. -/
def modCore (n : Nat) (f : CoreRun → CoreRun) (c : Chip) : Chip :=
  modTrowel (fun w => { w with cores := tmod {} w.cores n f }) c

/-- A thread's state as R201 names it. -/
def Chip.threadState (c : Chip) (k : Nat) : ThreadState :=
  if k % 4 = 0 ∧ (c.thread k).state = .off then .idle else (c.thread k).state

/-- The task that a thread belongs to: thread 0's running task, or the owning task of threads 1 to 3 (R205). -/
def Chip.taskOf (c : Chip) (k : Nat) : Option Nat :=
  if k % 4 = 0 then (match (c.core (k / 4)).running with | .task t => some t | _ => none)
  else
    let t := c.num (Obj.trowelThreadTask k)
    if t < 1024 ∧ c.num (Obj.trowelThreadMode k) ≠ 0 then some t else none

/-- The tenant that owns what a thread runs, 0xFF for none. -/
def Chip.taskOwner (c : Chip) (t : Nat) : Nat := c.num (Obj.trowelTaskOwner t)

/-! ### The fence (R149, R152, R166) -/

/-- Effects and USER data of R151 begin here; at 176.4 and 192 kHz slots 32 to 63 add their frames. -/
def Chip.table0 (c : Chip) : Nat := 0x300000 + c.trowel.voiceBytes

/-- Where the effects partition begins, as a data address (R152). -/
def Chip.effects0 (c : Chip) : Nat := c.table0 + c.trowel.tableBytes

/-- Does [addr, addr + n) lie in [lo, hi)? -/
def within (addr n lo hi : Nat) : Bool := decide (lo ≤ addr) && decide (addr + n ≤ hi)

/-- Regions every fence lets code read (R166). -/
def fenceShared (c : Chip) (addr n : Nat) : Bool :=
  within addr n 0x11000 0x11400 || within addr n c.table0 c.effects0 || within addr n 0x400000 0x410000

/-- Exchange buffers that Skim assigned to a task, and for reads the exchange header (R254). -/
def exchangeWindow (c : Chip) (t addr n : Nat) (write : Bool) : Bool :=
  (tkeys c.nums (Obj.skimExchangeTask 0) (Obj.skimExchangeTask 512)).any (fun o =>
    objSubOf o == objSubOf (Obj.skimExchangeTask 0) && c.num o == t &&
      (let x := objIndexOf o - 0x4000
       c.num (Obj.skimExchangeDir x) != 0 && (let a := c.num (Obj.skimExchangeAddr x); a != 0 && (within addr n a (a + 1024) || (!write && within addr n 0x3FFFC0 0x400000)))))

/-- What a task may touch (R166). -/
def fenceTask (c : Chip) (t addr n : Nat) (write : Bool) : Bool :=
  let lb := c.num (Obj.trowelTaskLocalBase t)
  let sb := c.num (Obj.trowelTaskScratchBase t)
  within addr n lb (lb + c.num (Obj.trowelTaskLocalBytes t)) ||
  within addr n sb (sb + c.num (Obj.trowelTaskScratchBytes t)) ||
  exchangeWindow c t addr n write || (!write && fenceShared c addr n)

/-- What a USER instance may touch (R166). -/
def fenceUser (c : Chip) (lead addr n : Nat) (write : Bool) : Bool :=
  let f := lead % 64 * 0x400
  within addr n (f + 0xC0) (f + 0x3C0) || within addr n 0x10000 0x11000 ||
  (!write && (within addr n f (f + 0x400) || fenceShared c addr n))

/-- Core code outside any fence: every mapped address but the output partition; the table partition and the ROM
are read only (R149, R152). -/
def fenceNone (c : Chip) (addr n : Nat) (write : Bool) : Bool :=
  !(decide (0x200000 ≤ addr) && decide (addr < 0x300000)) &&
  (!write || !(within addr n c.table0 c.effects0))

/-- May the thread access [addr, addr + n)? -/
def Chip.fenced (c : Chip) (k addr n : Nat) (write : Bool) : Bool :=
  match c.taskOf k with
  | some t => fenceTask c t addr n write
  | none =>
    match (if k % 4 = 0 then (c.core (k / 4)).running else .nothing) with
    | .voice lead _ true => fenceUser c lead addr n write
    | _ => fenceNone c addr n write

/-- Is an access of `n` octets at `addr` free of access faults (R149, R166)? -/
def Chip.accessOk (c : Chip) (k addr n : Nat) (write : Bool) : Bool :=
  addr % n == 0 && c.fenced k addr n write &&
  (match placeOf (k / 4) addr with | .mem _ => true | .rom _ => !write | .unmapped => false)

/-- Does a load meet an uncorrectable error (R300)? -/
def Chip.badLoad (c : Chip) (k addr n : Nat) : Bool := match placeOf (k / 4) addr with | .mem p => c.badAt p n | _ => false

/-- The octets of a data access; a suppressed load, and one of an uncorrectable word, returns 0 (R166, R300). -/
def Chip.loadData (c : Chip) (k addr n : Nat) : Nat :=
  if c.accessOk k addr n false then
    match placeOf (k / 4) addr with
    | .mem p => if c.badAt p n then 0 else leNat (c.bytesAt p n)
    | .rom o => leNat ((upTo n).map (fun i => Config.romByte (o + i)))
    | .unmapped => 0
  else 0

/-- A data store; a suppressed store is discarded (R166). -/
def storeData (k addr n v : Nat) (c : Chip) : Chip :=
  if c.accessOk k addr n true then
    match placeOf (k / 4) addr with
    | .mem p => writeBytes p (leBytes n v) c
    | _ => c
  else c

/-- The instruction word at an index, as program memory or the ROM holds it (R150, R171). -/
def Chip.programWord (c : Chip) (core index : Nat) : Nat :=
  if index < 0x3000 then leNat (c.bytesAt (memProgram core (4 * index)) 4)
  else leNat ((upTo 4).map (fun i => Config.romByte (4 * (index - 0x4000) + i)))

/-! ### Program flow (R184 to R191) -/

/-- Where an instruction leaves the program. -/
inductive Flow
  | seq
  /-- two delay slots follow; the target if the branch is taken -/
  | delayed (target : Option (BitVec 16))
  /-- go on at an index, after `lost` fetched instructions were discarded -/
  | jump (pc : BitVec 16) (lost : Nat)
  /-- open a loop from S to E -/
  | loop (s e : Nat)
  /-- repeat the next instruction -/
  | repeat_ (n : Nat)
  /-- stay at this instruction with the pipeline drained -/
  | stay
  /-- the running instance, task or thread has ended -/
  | ended
  deriving DecidableEq, Repr

/-- Can an index be fetched (R150)? Entry 9, DESIGN CHOICE. -/
def fetchable (pc : Nat) : Bool := decide (pc < 0x3000) || (decide (0x4000 ≤ pc) && decide (pc < 0x8000))

/-- A branch that leaves the loop clears ST.LOOP (R190). -/
def leaveLoop (t : Thread) (target : Option (BitVec 16)) : Thread :=
  match t.loop, target with
  | some (s, e), some g => if s ≤ g.toNat ∧ g.toNat ≤ e then t else { t with loop := none }
  | _, _ => t

/-- The loop logic at E (R189): the next index, the LC written, whether the loop ended. -/
def Thread.loopEnd (t : Thread) (lc : BitVec 16) : Option (Nat × BitVec 16 × Bool) :=
  match t.loop with
  | some (s, e) =>
    if t.pc.toNat = e then
      if 2 ≤ lc.toNat then some (s, lc - 1, false) else some (e + 1, 0, true)
    else none
  | none => none

/-- The next index after an instruction that does not itself redirect the program. -/
def Thread.advance (t : Thread) : Thread :=
  if 1 < t.rpt then { t with rpt := t.rpt - 1, slot := t.slot + 1 }
  else
    let t := { t with rpt := 0 }
    let lc := (t.view (t.slot + sID)).lc
    let t' := match t.loopEnd lc with
      | some (n, v, ended) =>
        { t with pc := BitVec.ofNat 16 n, loop := if ended then none else t.loop,
                 writes := insertPending ⟨t.slot + sID, t.slot, .lc v⟩ t.writes,
                 slot := t.slot + (if ended then 3 else 1) }
      | none => { t with pc := t.pc + 1, slot := t.slot + 1 }
    match t.delay with
    | some (1, some g) => { t' with pc := g, delay := none }
    | some (1, none) => { t' with delay := none }
    | some (n + 2, g) => { t' with delay := some (n + 1, g) }
    | _ => t'

/-- The program after an instruction with flow `f`. -/
def Thread.flow (t : Thread) (f : Flow) : Thread :=
  match f with
  | .seq => t.advance
  | .delayed g =>
    let t := (leaveLoop t g).advance
    { t with delay := some (2, g) }
  | .jump pc lost => { t with pc := pc, slot := t.slot + 1 + lost }
  | .loop s e => { t.advance with loop := some (s, e) }
  | .repeat_ n => { t.advance with rpt := n }
  | .stay => t.drain
  | .ended => { t.drain with loop := none, rpt := 0, delay := none }

/-! ### Issuing an instruction -/

/-- What the stages of one slot see. -/
structure Views where
  key : Nat
  th : Thread
  id : Regs
  ag : Regs
  ma : Regs
  mx : Regs
  ac : Regs

/-- The views of a thread's next slot. -/
def Chip.views (c : Chip) (k : Nat) : Views :=
  let t := c.thread k
  { key := k, th := t, id := t.view (t.slot + sID), ag := t.view (t.slot + sAG), ma := t.view (t.slot + sMA),
    mx := t.view (t.slot + sMX), ac := t.view (t.slot + sAC) }

/-- An X register as a stage's view `r` shows it, named through the window that ID saw. -/
def Views.x (v : Views) (r : Regs) (n : Nat) : BitVec 16 := tget 0 r.x (physX v.id n)

/-- An X pair as a 32-bit value (R142). -/
def Views.pair (v : Views) (r : Regs) (n : Nat) : BitVec 32 := v.x r n ++ v.x r (n + 1)

/-- What an instruction does: writes by stage, the memory it leaves, its flow, and a fault's snag code. -/
structure Effect where
  writes : List (Nat × RegWrite) := []
  flow : Flow := .seq
  chip : Chip
  fault : Option Nat := none

/-- Snag codes of core faults (R226, R485). -/
def codeIllegal : Nat := 0x1001
def codeAccess : Nat := 0x1002
def codeFetch : Nat := 0x1003
def codeMemory : Nat := 0x1004

/-- The writes of an effect join the pending ones of the thread. Entry 53, DEDUCED. -/
def landWrites (t : Thread) (ws : List (Nat × RegWrite)) : Thread :=
  ws.foldl (fun t w => { t with writes := insertPending ⟨t.slot + w.1, t.slot, w.2⟩ t.writes }) t

/-- May no such instruction stand here: in a delay slot, at E - 1 or E, or under RPT (R187, R190, R191)? -/
def Thread.confined (t : Thread) : Bool :=
  t.delay.isSome || decide (0 < t.rpt) ||
  (match t.loop with | some (_, e) => t.pc.toNat == e || t.pc.toNat + 1 == e | none => false)

end Sys2Proof.Machine
end

