-- ==== Sys2Proof/Machine/HodCursor.lean ====
section
/-!
DEFINITION. Stream cursors: opening, extent requests, windows and under-run (R283 to R292, R294).
-/

namespace Sys2Proof.Machine

/-- Hod changes. -/
def modHod (f : Hod → Hod) (c : Chip) : Chip := { c with hod := f c.hod }

/-- A cursor by number. -/
def Chip.cursor (c : Chip) (n : Nat) : Option Cursor := tget none c.hod.cursors n

/-- A cursor changes. -/
def modCursor (n : Nat) (f : Cursor → Cursor) (c : Chip) : Chip :=
  modHod (fun h => { h with cursors := tmod none h.cursors n (fun x => x.map f) }) c

/-- The open cursors with their numbers. -/
def Chip.cursorList (c : Chip) : List (Nat × Cursor) := c.hod.cursors.filterMap (fun x => x.2.map (fun y => (x.1, y)))

/-- Cursors per chip (R285). -/
def cursorCount : Nat := 32768

/-! ### Volumes (R278, R282, R294) -/

/-- A directory entry read from its 64 octets (R278). Entry 22, DESIGN CHOICE. -/
def dirEntry (b : List Byte) : DirEntry :=
  { state := field b 0 1, channels := field b 1 1, format := field b 2 1, head := field b 3 1, key := field b 4 2,
    rate := field b 8 4, mapIndex := field b 0xC 4, length := field b 0x10 8, loopStart := field b 0x18 8,
    loopEnd := field b 0x20 8, extents := field b 0x28 4 }

/-- Octets of a stream frame in the stored format. -/
def DirEntry.frameBytes (e : DirEntry) : Nat := e.channels * (if e.format = 1 then 3 else 2)

/-- Is a slot mounted: MOUNTED, PRELOADING or CONFLICT (R294)? -/
def Chip.mounted (c : Chip) (slot : Nat) : Bool :=
  let s := c.num (Obj.hodVolumeState slot)
  s == 2 || s == 3 || s == 5

/-- The slot on which a volume number is mounted. -/
def Chip.volumeSlot (c : Chip) (number : Nat) : Option Nat :=
  (upTo 16).find? (fun s => c.mounted s && c.num (Obj.hodVolumeNumber s) == number)

/-- A slot's metadata. -/
def Chip.volume (c : Chip) (slot : Nat) : Volume := tget {} c.hod.volumes slot

/-- A slot's metadata changes. -/
def modVolume (slot : Nat) (f : Volume → Volume) (c : Chip) : Chip :=
  modHod (fun h => { h with volumes := tmod {} h.volumes slot f }) c

/-- Chips that serve a volume number, the fewest hops first, the lower number on a tie; those whose offers differ serve
none (R294). -/
def Chip.servers (c : Chip) (number : Nat) : List Nat :=
  let l := c.hod.offers.filter (fun o => o.2.1 == number)
  if l.all (fun o => l.all (fun p => o.2.2 == p.2.2)) then
    (l.map Prod.fst).sortBy (fun a b => decide (c.hopsTo a < c.hopsTo b) || (c.hopsTo a == c.hopsTo b && decide (a ≤ b)))
  else []

/-! ### Extents in stream order (R279, R284, R287) -/

/-- Is an extent cached? -/
def Chip.cached (c : Chip) (vol obj ix : Nat) : Option Extent :=
  c.hod.cache.find? (fun e => e.volume == vol && e.object == obj && e.index == ix)

/-- Is it in flight? -/
def Chip.inFlight (c : Chip) (vol obj ix : Nat) : Bool :=
  c.hod.reads.any (fun r => r.volume == vol && r.object == obj && r.index == ix)

/-- Is it BAD: its extent number is in the volume's list (R293)? -/
def Chip.extentBad (c : Chip) (vol obj ix : Nat) : Bool :=
  match c.volumeSlot vol with
  | some s =>
    let v := c.volume s
    v.bad.contains (tget 0 v.map ((tget {} v.dir obj).mapIndex + ix))
  | none => false

/-- The extent that holds the first octet of an object frame. -/
def DirEntry.extentOf (e : DirEntry) (f : Nat) : Nat := f * e.frameBytes / 65536

/-- Does the cursor wrap at LOOP_END when it fills in frame `k` (R287)? -/
def Cursor.wraps (x : Cursor) (k : Nat) : Bool :=
  x.looping && (x.mode == 1 || (match x.releaseFrame with | some r => decide (k < r) | none => true))

/-- The extent after `ix` in stream order. -/
def Cursor.nextExtent (x : Cursor) (k ix : Nat) : Nat :=
  if x.wraps k ∧ ix = x.entry.extentOf (x.entry.loopEnd - 1) then x.entry.extentOf x.entry.loopStart else ix + 1

/-- The extents from that of the fill position on, `n` beyond it. -/
def Cursor.ahead (x : Cursor) (k : Nat) : Nat → Nat → List Nat
  | 0, ix => [ix]
  | n + 1, ix => ix :: x.ahead k n (x.nextExtent k ix)

/-- Ask for one extent unless it is cached, in flight or BAD (R284); a remote one from the nearest server (R295). -/
def requestExtent (x : Cursor) (ix need : Nat) (c : Chip) : Chip :=
  if (c.cached x.volume x.object ix).isSome ∨ c.inFlight x.volume x.object ix ∨ c.extentBad x.volume x.object ix ∨
      x.entry.extents ≤ ix then c
  else
    let server := if x.remote then (c.servers x.volume).head? else none
    let r : Read := { volume := x.volume, object := x.object, index := ix, need := some need,
                      issued := c.now, tenant := x.tenant, server := server, tried := server.toList }
    let c := modHod (fun h => { h with reads := h.reads ++ [r] }) c
    match server with
    | some s => bump Obj.hodCountersRemoteReads (sendLath 4 0 s 0 [x.volume, x.object, ix, need] c)
    | none => c

/-- Request the extents a cursor needs from its fill position on (R284). -/
def requestAhead (n : Nat) (c : Chip) : Chip :=
  match c.cursor n with
  | none => c
  | some x =>
    if x.ended then c
    else forEach (x.ahead c.frame (c.num Obj.hodReadAhead) (x.entry.extentOf x.objPos)).eraseDups
      (fun ix c => requestExtent x ix ((c.frame + 1) * c.bsize) c) c

/-! ### Opening and freeing (R285, R286, R288) -/

/-- Frames of a window (R288): the smallest power of two that is at least 2⌈B RMAX / 16⌉ + 16. -/
def windowFrames (b rmax : Nat) : Nat :=
  let need := 2 * ((b * rmax + 15) / 16) + 16
  ((upTo 12).map (fun i => 2 ^ i)).find? (fun w => decide (need ≤ w)) |>.getD 4096

/-- Octets of a cursor's window. -/
def Cursor.bytes (x : Cursor) : Nat := x.w * x.channels * 2

/-- The SMP instances of an image: place, AUX and descriptor. -/
def smpInstances (img : List Byte) : List (Nat × Desc) :=
  ((descs img).zipIdx.map (fun x => (x.2, x.1))).filter (fun x => x.2.kernel == 0x04)

/-- A cursor as it opens at the stream reference of an instance, and the snag of one that opens ENDED (R286). -/
def openCursor (c : Chip) (voice : Nat) (v : Voice) (img : List Byte) (i : Nat) (d : Desc) : Cursor × Option Nat :=
  let a := 4 * d.paramOfs
  let vol := field img a 2
  let rmax := field img (a + 2) 1
  let obj := field img (a + 4) 4
  let start := field img (a + 8) 8
  let x : Cursor := { voice := voice, instance_ := i, tenant := v.tenant, volume := vol, object := obj, start := start,
                      mode := d.sub % 4, rmax := rmax, w := windowFrames c.bsize rmax, objPos := start }
  let shut : Cursor := { x with ended := true, endStream := some 0 }
  let ready (e : DirEntry) (remote : Bool) : Cursor :=
    let loops := decide (0 < d.sub % 4) && !(e.loopStart == 0 && e.loopEnd == 0) && decide (start < e.loopEnd)
    let done := decide (e.length ≤ start)
    { x with channels := max 1 e.channels, remote := remote, entry := e, looping := loops,
             ended := done, endStream := if done then some 0 else none }
  match c.volumeSlot vol with
  | some s =>
    let m := c.volume s
    let e := tget {} m.dir obj
    if e.state ≠ 1 then (shut, some 0x1302)
    else if m.keyless.contains e.key && e.key != 0 then (shut, some 0x1303)
    else if !c.may 0x15 s (0x10 + v.tenant) 0 then (shut, some 0x1304)
    else (ready e false, none)
  | none =>
    if (c.servers vol).isEmpty then (shut, some 0x1302) else (ready (dirEntry (Config.remoteEntry vol obj)) true, none)

/-- Free cursors of the chip, and those a tenant may still open under its quota (R286, R414). -/
def Chip.cursorsFree (c : Chip) : Nat := cursorCount - c.cursorList.length
def Chip.cursorsUsed (c : Chip) (t : Nat) : Nat := (c.cursorList.filter (fun x => x.2.tenant == t)).length

/-- Cursors a voice needs (R285). Entry 66, DEDUCED. -/
def cursorNeed (img : List Byte) : Nat := (smpInstances img).length

/-- Too few free cursors for a voice of the tenant (R286, R414)? Entry 66, DEDUCED. -/
def Chip.cursorShort (c : Chip) (t n : Nat) : Bool :=
  decide (0 < n) && (decide (c.cursorsFree < n) || decide (c.num (Obj.tenantQuotaStreamCursors t) < c.cursorsUsed t + n))

/-- Open a voice's cursors and name them in its frame (R286). -/
def openCursors (voice : Nat) (c : Chip) : Chip :=
  match c.voice voice with
  | none => c
  | some v =>
    let img := c.voiceImage v
    forEach (smpInstances img) (fun x c =>
      let n := ((upTo cursorCount).find? (fun n => (c.cursor n).isNone)).getD 0
      let o := openCursor c voice v img x.1 x.2
      let c := modHod (fun h => { h with cursors := tput h.cursors n (some o.1) }) c
      let c := modVoice voice (fun v => { v with cursors := setAt v.cursors (x.2.aux % 4) n }) c
      let c := match o.2 with | some code => snag code n v.tenant c | none => c
      requestAhead n c) c

/-- Free the cursors of a voice (R286). -/
def freeCursors (voice : Nat) (c : Chip) : Chip :=
  modHod (fun h => { h with cursors := h.cursors.filter (fun x => match x.2 with
    | some y => y.voice != voice | none => false) }) c

/-- A release is seen by the voice's cursors (R287): the boundary that follows the release tick. -/
def releaseCursors (voice tick : Nat) (c : Chip) : Chip :=
  forEach (c.cursorList.filter (fun x => x.2.voice == voice)) (fun x c =>
    modCursor x.1 (fun y => { y with releaseFrame := y.releaseFrame <|> some (tick / c.bsize + 1) }) c) c

/-! ### Filling the windows (R289, R291) -/

/-- Octet `b` of an object, from the cache. -/
def Chip.objectByte (c : Chip) (x : Cursor) (b : Nat) : Option Byte :=
  (c.cached x.volume x.object (b / 65536)).map (fun e => e.data.getD (b % 65536) 0)

/-- One channel of an object frame as Q1.15, when its data is cached (R12, R288). -/
def Chip.objectSample (c : Chip) (x : Cursor) (f ch : Nat) : Option Int :=
  let n := if x.entry.format = 1 then 3 else 2
  let b := f * x.entry.frameBytes + ch * n
  let bytes := (upTo n).map (fun i => c.objectByte x (b + i))
  if bytes.all Option.isSome then
    let z := toSigned (8 * n) (leNat (bytes.map (fun o => o.getD 0)))
    some (if n = 3 then shrFloor z 8 else z)
  else none

/-- A frame of the object, all channels. -/
def Chip.objectFrame (c : Chip) (x : Cursor) (f : Nat) : Option (List Int) :=
  let l := (upTo x.channels).map (c.objectSample x f)
  if l.all Option.isSome then some (l.map (fun o => o.getD 0)) else none

/-- Put a frame into the window at stream frame `x.fill`. -/
def Cursor.put (x : Cursor) (vals : List Int) : Cursor :=
  { x with window := tsets 0 x.window (x.fill % max 1 x.w * x.channels) vals, fill := x.fill + 1 }

/-- Where play goes after the object frame just filled (R287). -/
def Cursor.move (x : Cursor) (k : Nat) : Cursor :=
  let o := x.objPos + 1
  let atLoop := x.looping && o == x.entry.loopEnd
  if atLoop && x.wraps k then { x with objPos := x.entry.loopStart }
  else
    let x := if atLoop && x.mode == 2 then { x with tail := true, looping := false } else x
    if x.entry.length ≤ o then { x with objPos := o, ended := true, endStream := some x.fill } else { x with objPos := o }

/-- Frames a fade takes (R291). -/
def Cursor.fadeLen (x : Cursor) (b : Nat) : Nat := max 1 ((b * x.rmax + 15) / 16)

/-- Write one stream frame in frame `k` (R289, R291). Entry 66, DEDUCED. -/
def fillOne (c : Chip) (k : Nat) (x : Cursor) : Cursor :=
  let n := x.fadeLen c.bsize
  if x.ended then x.put (List.replicate x.channels 0)
  else match (if x.dying then none else c.objectFrame x x.objPos) with
    | some vals =>
      let recovering := decide (0 < x.missing) || decide (x.risen < n ∧ 0 < x.fillEnd)
      let j := (if 0 < x.missing then 0 else x.risen) + 1
      let g := if recovering then min 32768 (j * 32768 / n) else 32768
      let out := if g = 32768 then vals else vals.map (fun v => shrFloor (v * g) 15)
      { ((x.put out).move k) with missing := 0, risen := min n j, fade := g, lastFrame := vals }
    | none =>
      let from_ := if x.missing = 0 then x.fade else x.fade
      let g := from_ * (n - min n (x.missing + 1)) / n
      let out := (upTo x.channels).map (fun ch => shrFloor (x.lastFrame.getD ch 0 * g) 15)
      let y := (x.put out).move k
      { y with missing := x.missing + 1, risen := 0, underrun := true, fillEnd := y.fill }

/-- Write up to `n` stream frames. -/
def fillMany (c : Chip) (k : Nat) : Nat → Cursor → Cursor
  | 0, x => x
  | n + 1, x => fillMany c k n (fillOne c k x)

/-- The octet place of an SMP instance's POS in its voice's frame (R288). -/
def Chip.posPlace (c : Chip) (v : Voice) (x : Cursor) : Nat :=
  let lead := v.slots.headD 0
  let d := (descs (c.voiceImage v)).getD x.instance_ (desc 0)
  memLocal (lead / 64) (lead % 64 * 0x400 + 4 * d.stateOfs)

/-- The integer part of POS (R288). -/
def Chip.posOf (c : Chip) (v : Voice) (x : Cursor) : Nat := leNat (c.bytesAt (c.posPlace v x + 4) 4)

/-- Hod fills one cursor's window for frame `k` (R289). Entry 66, DEDUCED. -/
def fillCursor (k n : Nat) (c : Chip) : Chip :=
  match c.cursor n with
  | none => c
  | some x =>
    match c.voice x.voice with
    | none => c
    | some v =>
      let target := c.posOf v x + 2 * x.fadeLen c.bsize + 8
      let ix := x.entry.extentOf x.objPos
      let y := fillMany c k (target - x.fill) x
      let missed := decide (x.missing < y.missing) || decide (x.fillEnd < y.fillEnd)
      let y := { y with underrun := y.underrun && decide (y.fill < y.fillEnd + y.w) }
      let c := modCursor n (fun _ => y) c
      let c := when_ missed (fun c =>
        let c := bump Obj.hodCountersUnderruns c
        if tget 0 c.hod.underrunFrame x.tenant = k + 1 then c
        else snag 0x1301 n x.tenant (modHod (fun h => { h with underrunFrame := tset 0 h.underrunFrame x.tenant (k + 1) }) c)) c
      let iy := y.entry.extentOf y.objPos
      let c := modHod (fun h => { h with cache := h.cache.map (fun e =>
        if e.volume = x.volume ∧ e.object = x.object ∧ (e.index = ix ∨ e.index = iy) then { e with used := c.time.stc } else e) }) c
      if iy = ix then c else requestAhead n c

/-- WINDOW_FILL: Hod writes the windows of the frame that the STC stands in (R289). -/
def execWindowFill (s : State) : Host.Outcome State Fault Refusal :=
  s.onChip (fun c => forEach (c.cursorList.map Prod.fst) (fillCursor c.frame) c)

/-- Has every SMP cursor of a voice passed its sample end (R74, R286)? Entry 49, DESIGN CHOICE. -/
def Chip.samplesEnded (c : Chip) (n : Nat) (v : Voice) : Bool :=
  (c.cursorList.filter (fun x => x.2.voice == n)).all (fun x =>
    match x.2.endStream with | some e => decide (e ≤ c.posOf v x.2) | none => false)

end Sys2Proof.Machine
end

