-- ==== Sys2Proof/Machine/TrowelTask.lean ====
section
/-!
DEFINITION. Threads, event flags, gang semaphores and effects tasks as shared operations (R167, R201 to R221).
-/

namespace Sys2Proof.Machine

/-! ### Starting threads (R201, R205) -/

/-- The registers a start gives: those named, ST as R165, all others 0 (R165, R167, R205). -/
def startRegs (p0 p1 x0 x1 x2 lc : Nat) : Regs :=
  { x := tset 0 (tset 0 (tset 0 [] 0 (BitVec.ofNat 16 x0)) 1 (BitVec.ofNat 16 x1)) 2 (BitVec.ofNat 16 x2),
    p := tset 0 (tset 0 [] 0 (BitVec.ofNat 24 p0)) 1 (BitVec.ofNat 24 p1),
    lc := BitVec.ofNat 16 lc }

/-- A thread begins at an entry with the given registers (R205). -/
def startAt (k : Nat) (r : Regs) (pc : Nat) (c : Chip) : Chip :=
  modThread k (fun t => { t.drain with regs := r, pc := BitVec.ofNat 16 pc, delay := none, loop := none, rpt := 0,
                                       shadow := none, wait := .none, state := .ready, restart := false }) c

/-- A thread 1 to 3 is started for its task with the matched flags (R205). -/
def startThread (k flags : Nat) (c : Chip) : Chip :=
  let t := c.num (Obj.trowelThreadTask k)
  startAt k (startRegs (c.num (Obj.trowelTaskLocalBase t)) (c.num (Obj.trowelTaskScratchBase t)) c.bsize flags
    (k % 4) c.bsize) (c.num (Obj.trowelThreadEntry k)) c

/-- Thread 0 enters an effects task (R167). -/
def enterTask (core t : Nat) (c : Chip) : Chip :=
  let c := startAt (4 * core) (startRegs (c.num (Obj.trowelTaskLocalBase t)) (c.num (Obj.trowelTaskScratchBase t))
    c.bsize 0 0 c.bsize) (c.num (Obj.trowelTaskEntry t)) c
  let c := modThread (4 * core) (fun x => { x with ef := 0, state := .run }) c
  modCore core (fun r => { r with running := .task t, doneAt := false }) c

/-! ### Interrupts (R212 to R214) -/

/-- The interrupt mask in force for a thread (R212). -/
def Chip.intMask (c : Chip) (k : Nat) : Nat :=
  if k % 4 = 0 then (match c.taskOf k with | some t => c.num (Obj.trowelTaskIntMask t) | none => 0)
  else c.num (Obj.trowelThreadIntMask k)

/-- Its vector base. -/
def Chip.intBase (c : Chip) (k : Nat) : Nat :=
  if k % 4 = 0 then (match c.taskOf k with | some t => c.num (Obj.trowelTaskIntBase t) | none => 0)
  else c.num (Obj.trowelThreadIntBase k)

/-- The interrupt that would be taken, lowest flag first (R212). -/
def Chip.pendingInt (c : Chip) (k : Nat) : Option Nat :=
  let t := c.thread k
  let ie := bit (t.view (t.slot + sID)).st.toNat 18
  if ie && t.shadow.isNone then
    (upTo 16).find? (fun f => bit t.ef.toNat f && bit (c.intMask k) f)
  else none

/-- May an interrupt be taken at the instruction in ID (R212, R214)? -/
def Chip.canInterrupt (c : Chip) (k : Nat) : Bool :=
  let t := c.thread k
  (c.pendingInt k).isSome && t.delay.isNone && t.rpt == 0 &&
    (match t.wait with | .none => true | .flags _ => true | .sema _ _ => false)

/-- Enter the handler of the pending interrupt (R213). -/
def enterInterrupt (k : Nat) (c : Chip) : Chip :=
  match c.pendingInt k with
  | none => c
  | some f =>
    modThread k (fun t =>
      let t := { t with slot := t.slot - 4 }.drain
      { t with shadow := some ⟨t.pc, t.regs.st, t.loop⟩, loop := none, ef := t.ef &&& ~~~(1#16 <<< f),
               regs := { t.regs with st := t.regs.st &&& ~~~0x00040000#32 },
               pc := BitVec.ofNat 16 (c.intBase k + 4 * f), wait := .none,
               state := if t.state = .parked then .run else t.state }) c

/-! ### Event flags (R201, R207, R210, R211) -/

/-- A thread with a new flag wakes, starts or stays as it is (R201, R205). -/
def wakeFlags (k : Nat) (c : Chip) : Chip :=
  let t := c.thread k
  match c.threadState k with
  | .parked =>
    match t.wait with
    | .flags m => if (t.ef &&& m) ≠ 0 ∨ (c.pendingInt k).isSome then
        modThread k (fun t => { t with state := .ready, wait := .none }) c else c
    | _ => c
  | .idle =>
    if k % 4 ≠ 0 ∧ c.num (Obj.trowelThreadMode k) = 2 then
      let m := t.ef &&& BitVec.ofNat 16 (c.num (Obj.trowelThreadStartMask k))
      if m ≠ 0 then startThread k m.toNat (modThread k (fun t => { t with ef := t.ef &&& ~~~m }) c) else c
    else c
  | _ => c

/-- Set event flag `f` of a thread (R207). -/
def setFlag (k f : Nat) (c : Chip) : Chip :=
  wakeFlags k (modThread k (fun t => { t with ef := t.ef ||| (1#16 <<< f) }) c)

/-! ### Gang semaphores (R218 to R221) -/

/-- A semaphore's record. -/
def Chip.sem (c : Chip) (gang s : Nat) : Sem := tget {} c.trowel.sems (64 * gang + s)

/-- A semaphore's record changes. -/
def modSem (gang s : Nat) (f : Sem → Sem) (c : Chip) : Chip :=
  modTrowel (fun w => { w with sems := tmod {} w.sems (64 * gang + s) f }) c

/-- The tenant a thread's semaphore belongs to. -/
def Chip.semTenant (c : Chip) (k : Nat) : Nat :=
  match c.taskOf k with | some t => c.taskOwner t | none => 0xFF

/-- The expiry of a grant made now (R218). -/
def Chip.semExpiry (c : Chip) (gang : Nat) : Nat := c.time.stc + c.num (Obj.trowelGangSemLease gang)

/-- Grant a semaphore to a thread: XD takes 1, or 3 after a revocation (R219). -/
def grantSem (gang s k : Nat) (c : Chip) : Chip :=
  modSem gang s (fun x => { x with held := some ⟨k / 4, k % 4, c.semTenant k, c.semExpiry gang⟩, revoked := false,
                                   former := x.former.filter (· != (k / 4, k % 4)) }) c

/-- A parked thread is granted its semaphore: it goes READY past its SEMA (R219, R220). -/
def wakeSem (k xd v : Nat) (c : Chip) : Chip :=
  modThread k (fun t =>
    let t := t.drain
    { t with regs := t.regs.apply (.x xd (BitVec.ofNat 16 v)), state := .ready, wait := .none, pc := t.pc + 1 }) c

/-- A freed semaphore passes to the next thread in its queue, or stands free (R219, R220). -/
def passSem (gang s : Nat) (revoked : Bool) (c : Chip) : Chip :=
  match (c.sem gang s).queue with
  | (core, th, xd) :: rest =>
    let c := modSem gang s (fun x => { x with queue := rest, held := none }) c
    wakeSem (4 * core + th) xd (if revoked then 3 else 1) (grantSem gang s (4 * core + th) c)
  | [] => modSem gang s (fun x => { x with held := none, revoked := revoked || x.revoked }) c

/-- Revoke the lease on a semaphore: EF11 on the former holder, and on to the next waiter (R220). -/
def revokeSem (gang s : Nat) (c : Chip) : Chip :=
  match (c.sem gang s).held with
  | none => c
  | some h =>
    let c := modSem gang s (fun x => { x with former := (h.core, h.thread) :: x.former.filter (· != (h.core, h.thread)) }) c
    passSem gang s true (setFlag (4 * h.core + h.thread) 11 c)

/-- Every semaphore lease of a thread is revoked, and it leaves the queues (R221). -/
def revokeThread (k : Nat) (c : Chip) : Chip :=
  let gang := k / 64
  forEach (upTo 64) (fun s c =>
    let x := c.sem gang s
    let c := if x.queue.any (fun q => 4 * q.1 + q.2.1 == k) then
        modSem gang s (fun x => { x with queue := x.queue.filter (fun q => 4 * q.1 + q.2.1 != k) }) c else c
    match x.held with
    | some h => if 4 * h.core + h.thread = k then revokeSem gang s c else c
    | none => c) c

/-- A thread goes OFF: its leases are revoked (R201, R221). -/
def threadOff (k : Nat) (c : Chip) : Chip :=
  let c := revokeThread k c
  modThread k (fun t => { t.drain with state := .off, wait := .none, delay := none, loop := none, rpt := 0,
                                       shadow := none, ef := 0, restart := false }) c

/-! ### Effects tasks (R167) -/

/-- The enabled tasks of a core. -/
def Chip.coreTasks (c : Chip) (core : Nat) : List Nat :=
  (tkeys c.trowel.tasks 0 1024).filter (fun t => c.num (Obj.trowelTaskCore t) == core)

/-- The enabled tasks of a gang. -/
def Chip.gangTasks (c : Chip) (gang : Nat) : List Nat :=
  (tkeys c.trowel.tasks 0 1024).filter (fun t => c.num (Obj.trowelTaskCore t) / 16 == gang)

/-- A task is disabled with its threads (R167, R205). -/
def disableTask (t : Nat) (c : Chip) : Chip :=
  let core := c.num (Obj.trowelTaskCore t)
  let c := forEach [1, 2, 3] (fun th c =>
    let k := 4 * core + th
    if c.num (Obj.trowelThreadTask k) = t ∧ c.num (Obj.trowelThreadMode k) ≠ 0 then
      setNum (Obj.trowelThreadMode k) 0 (threadOff k c) else c) c
  let c := if (c.core core).running = .task t then
      modThread (4 * core) (fun x => { x.drain with state := .idle, wait := .none, delay := none, loop := none, rpt := 0, shadow := none })
        (modCore core (fun r => { r with running := .nothing, doneAt := true }) (revokeThread (4 * core) c)) else c
  let c := modCore core (fun r => { r with tasks := r.tasks.filter (· != t) }) c
  let c := modTrowel (fun w => { w with tasks := tdel w.tasks t }) c
  setNum (Obj.trowelTaskEnable t) 0 c

/-- A task is disabled and its owner told (R167, R168, R225). -/
def disableTaskLogged (t : Nat) (c : Chip) : Chip :=
  snag 0x1009 t (c.taskOwner t) (disableTask t c)

end Sys2Proof.Machine
end

