-- ==== Sys2Proof/Machine/Hawk.lean ====
section
/-!
DEFINITION. Hawk's accounts, the slot table, the steal score, and the placement and ending of one voice
(R35, R36, R76 to R90, R92 to R96, R122, R123, R133 to R135).
-/

namespace Sys2Proof.Machine

/-! ### Capacity (R35, R36, R78, R167, R168) -/

/-- Slots per core at the sample rate in force (R35). Entry 49, DESIGN CHOICE. -/
def Chip.rateSlots (c : Chip) : Nat := if 4 ≤ c.time.rate then 32 else 64

/-- The headroom of a core in cycles per frame: the figure of R35, rounded down per sample, times B. -/
def headroomCycles (rate clockMHz slots b : Nat) : Nat :=
  let fs := rateHz rate
  (clockMHz * 1000000 * b - fs * (slots * voiceBudget rate * b + slots * 64 + 256)) / (fs * b) * b

/-- The cycles that a core's enabled effects tasks declare. -/
def Chip.taskCycles (c : Chip) (core : Nat) : Nat :=
  ((c.coreTasks core).map (fun t => c.num (Obj.trowelTaskCycles t))).sum

/-- Can nothing be placed on a core: retired, in reset, or tripped? -/
def Chip.coreDown (c : Chip) (core : Nat) : Bool :=
  c.flag (Obj.trowelCoreRetired core) || (c.core core).inReset || (c.core core).tripped

/-- Slots at a clock: in proportion, then lowered while the enabled tasks do not fit (R36, R168). -/
def Chip.slotsAt (c : Chip) (core clockMHz : Nat) : Nat :=
  let base := c.rateSlots * clockMHz / 1600
  ((upTo (base + 1)).filter (fun s => decide (c.taskCycles core ≤ headroomCycles c.time.rate clockMHz s c.bsize))).getLast?.getD 0

/-- Capacity S (R78). -/
def Chip.coreSlots (c : Chip) (core : Nat) : Nat :=
  if c.coreDown core then 0 else c.slotsAt core (c.num (Obj.trowelCoreClockMHz core))

/-! ### Accounts (R78, R82) -/

/-- The core of a voice that holds slots. -/
def Voice.core (v : Voice) : Option Nat := v.slots.head?.map (· / 64)

/-- Its LEAD. -/
def Voice.lead (v : Voice) : Nat := v.slots.headD 0

/-- Voices that hold slots on a core. -/
def Chip.coreVoices (c : Chip) (core : Nat) : List (Nat × Voice) :=
  c.voiceList.filter (fun x => x.2.core == some core)

/-- Occupancy of a core. -/
def Chip.occupancy (c : Chip) (core : Nat) : Nat := ((c.coreVoices core).map (fun x => x.2.slots.length)).sum

/-- Committed cycles of a core. Entry 11, DESIGN CHOICE. -/
def Chip.committedCycles (c : Chip) (core : Nat) : Nat :=
  ((c.coreVoices core).map (fun x => templateCost (c.voiceImage x.2))).sum

/-- Octets of a template's COMB lines at the rate in force (R69). -/
def combBytes (fs : Nat) (img : List Byte) : Nat :=
  (((descs img).filter (fun d => d.kernel == 0x08)).map
    (fun d => ((d.aux * fs + 999999) / 1000000 * 2 + 63) / 64 * 64)).sum

/-- Octets of one COMB line. -/
def combLine (fs aux : Nat) : Nat := ((aux * fs + 999999) / 1000000 * 2 + 63) / 64 * 64

/-- Free octets of a gang's scratchpad voice partition (R78, R288). -/
def Chip.combFree (c : Chip) (gang : Nat) : Nat :=
  let vs := c.voiceList.filter (fun x => x.2.core.map (· / 16) == some gang)
  c.trowel.voiceBytes - (vs.map (fun x => (x.2.combs.map List.length).sum)).sum -
    ((c.cursorList.filter (fun y => vs.any (fun x => x.1 == y.2.voice))).map (fun y => y.2.bytes)).sum

/-- A figure counted in slots at 96 kHz, at the rate in force (R82). -/
def Chip.atRate (c : Chip) (n : Nat) : Nat := if 4 ≤ c.time.rate then n / 2 else n

/-- A tenant's used slots. -/
def Chip.slotsUsed (c : Chip) (t : Nat) : Nat :=
  ((c.voiceList.filter (fun x => x.2.tenant == t)).map (fun x => x.2.slots.length)).sum

/-- Effective SlotMax, SlotMin and priority of a tenant (R82). -/
def Chip.slotMax (c : Chip) (t : Nat) : Nat := c.atRate (c.num (Obj.hawkTenantSlotMax t))
def Chip.slotMin (c : Chip) (t : Nat) : Nat := c.atRate (c.num (Obj.hawkTenantSlotMin t))
def Chip.priority (c : Chip) (t : Nat) : Nat := c.num (Obj.hawkTenantPriority t)

/-- The cores of a pool (R81). -/
def Chip.poolCores (c : Chip) (p : Nat) : List Nat :=
  (upTo 256).filter (fun n => bit (c.num (Obj.hawkPoolGangMask p)) (n / 16))

/-- The pool of a tenant. -/
def Chip.poolOf (c : Chip) (t : Nat) : Nat := c.num (Obj.hawkTenantPool t)

/-! ### What a voice needs -/

/-- Weight, COMB octets and generator block of a voice's template, and its number of generators. -/
structure Need where
  w : Nat
  comb : Nat
  block : Nat
  gens : Nat
  deriving DecidableEq, Repr

/-- The needs of a voice. -/
def Chip.need (c : Chip) (v : Voice) : Need :=
  let img := c.voiceImage v
  let n := (genIndex (c.voiceDef v).slots).1.length
  { w := c.weight img, comb := combBytes c.fs img, block := genBlock n, gens := n }

/-- The cluster of a core (R107). -/
def coreCluster (core : Nat) : Nat := core / 64

/-- Is there room on a core without a steal, or for a steal (R78, R123)? -/
def Chip.coreRoom (c : Chip) (core : Nat) (d : Need) (steal : Bool) : Bool :=
  decide (c.occupancy core + d.w ≤ c.coreSlots core - (if steal then 0 else c.hawk.reserve)) &&
  decide (d.comb ≤ c.combFree (core / 16))

/-- Has its cluster a block for the voice (R123)? -/
def Chip.blockRoom (c : Chip) (core : Nat) (d : Need) (steal : Bool) : Bool :=
  c.genRoom (coreCluster core) d.block steal

/-- The best of a list under a strict order. Entry 50, DEDUCED. -/
def bestBy {α : Type} (better : α → α → Bool) : List α → Option α
  | [] => none
  | x :: xs => some (xs.foldl (fun a b => if better b a then b else a) x)

/-- The core that a policy chooses among those with room (R80). -/
def Chip.chooseCore (c : Chip) (cores : List Nat) (policy : Nat) (d : Need) : Option Nat :=
  let ok := cores.filter (fun n => c.coreRoom n d false && c.blockRoom n d false)
  if policy = 1 then ok.head?
  else
    (bestBy (fun (a b : Nat × Nat × Nat) =>
      decide (b.2.1 < a.2.1) || (a.2.1 == b.2.1 && (decide (a.2.2 < b.2.2) || (a.2.2 == b.2.2 && decide (a.1 < b.1)))))
      (ok.map (fun n => (n, c.coreSlots n - c.occupancy n, c.committedCycles n)))).map Prod.fst

/-- The lowest-numbered free slots of a core, as chip slot numbers. -/
def Chip.takeSlots (c : Chip) (core w : Nat) : List Nat :=
  let used := (c.coreVoices core).flatMap (fun x => x.2.slots)
  (((upTo c.rateSlots).map (fun i => core * 64 + i)).filter (fun s => !used.contains s)).take w

/-! ### The slot table (R76, R77) -/

/-- STATE of a voice's lowest slot. -/
def Voice.slotState (v : Voice) : Nat :=
  if v.incoming then 6 else match v.state with
    | .waiting => 0 | .placed => 1 | .sounding => 2 | .releasing => 3 | .feathering => 4

/-- Is the voice's handle a layer of the chain, with this chip its home or a holder for another (R90)? -/
def Voice.chainWide (v : Voice) : Bool := v.home.isSome

/-- The 128 bits of a slot table entry. -/
def Chip.slotEntry (c : Chip) (i : Nat) : Nat :=
  match c.voiceList.find? (fun x => x.2.slots.contains i) with
  | some (_, v) =>
    let img := c.voiceImage v
    let st := if i = v.lead then v.slotState else if v.incoming then 6 else 5
    st * 2 ^ 125 + v.slots.length * 2 ^ 122 + v.tenant * 2 ^ 118 + field img 0xB 1 * 2 ^ 114 + v.stage * 2 ^ 112 +
    v.atten * 2 ^ 104 + v.template * 2 ^ 92 + (v.handle % 4096) * 2 ^ 80 + field img 0xC 2 * 2 ^ 64 + v.id * 2 ^ 32 +
    v.age * 2 ^ 22 + v.lead * 2 ^ 8 + (if v.held then 128 else 0) + (if v.pinned then 64 else 0)
  | none =>
    let core := i / 64
    let used := (c.coreVoices core).flatMap (fun x => x.2.slots)
    let before := ((upTo (i % 64)).filter (fun j => !used.contains (core * 64 + j))).length
    if i % 64 < c.rateSlots ∧ before < c.coreSlots core - c.occupancy core then 0 else 7 * 2 ^ 125

/-- Free slots outside the reserve and free reserve slots of the chip (R92, R105). -/
def Chip.freeSlots (c : Chip) : Nat :=
  ((upTo 256).map (fun n => c.coreSlots n - c.hawk.reserve - c.occupancy n)).sum
def Chip.freeReserve (c : Chip) : Nat :=
  ((upTo 256).map (fun n => min (min c.hawk.reserve (c.coreSlots n)) (c.coreSlots n - c.occupancy n))).sum

/-! ### The steal score (R85, R86) -/

/-- The score of a candidate for a requester's tenant and group; tenant 16 gives no group term. -/
def Chip.score (c : Chip) (v : Voice) (tenant group : Nat) : Nat :=
  let img := c.voiceImage v
  c.num Obj.hawkScoreWeightClass * (field img 0xB 1 * 17) +
  c.num Obj.hawkScoreWeightPriority * ((15 - c.priority v.tenant) * 17) +
  c.num Obj.hawkScoreWeightStage * (v.stage * 85) +
  c.num Obj.hawkScoreWeightLevel * v.atten +
  c.num Obj.hawkScoreWeightAge * (v.age / 4) +
  c.num Obj.hawkScoreWeightGroup * (if v.tenant = tenant ∧ group ≠ 0 ∧ field img 0xC 2 = group then 255 else 0)

/-- Is a voice an eligible candidate on some core (R85)?  One already chosen to feather is not. -/
def Chip.eligible (c : Chip) (v : Voice) : Bool :=
  (v.state == .sounding || v.state == .releasing) && !v.pinned && !v.incoming && v.featherFrom.isNone && v.endAt.isNone && !v.control &&
  (match v.core with | some n => !c.coreDown n | none => false)

/-- Candidates of a pool by falling score, the lowest LEAD first on a tie. Entry 50, DEDUCED. -/
def Chip.ranked (c : Chip) (pool tenant group : Nat) (ok : Voice → Bool) : List Nat :=
  let cores := c.poolCores pool
  let l := (c.voiceList.filter (fun x => c.eligible x.2 && (match x.2.core with | some n => cores.contains n | none => false)
      && ok x.2)).map (fun x => (x.1, c.score x.2 tenant group, x.2.lead))
  (l.sortBy (fun a b => decide (b.2.1 < a.2.1) || (a.2.1 == b.2.1 && decide (a.2.2 ≤ b.2.2)))).map Prod.fst

/-- The candidate cache of every pool (R84). -/
def buildCaches (c : Chip) : Chip :=
  modHawk (fun h => { h with caches :=
    ((upTo 16).map (fun p => (p, (c.ranked p 16 0 (fun _ => true)).take 16))).filter (fun x => !x.2.isEmpty) }) c

/-! ### Per frame bounds (R83) -/

/-- Voice starts, steal searches and chain placements per frame. -/
def startBound (b : Nat) : Nat := b * 16
def searchBound (b : Nat) : Nat := b * 4

/-! ### The parameter frame (R62 to R65) -/

/-- STATE in the frame header. -/
def Voice.headerState (v : Voice) : Nat :=
  match v.state with | .waiting => 0 | .placed => 1 | .sounding => 2 | .releasing => 3 | .feathering => 4

/-- The 64 header octets (R63). -/
def Chip.frameHeader (c : Chip) (v : Voice) : List Byte :=
  let rel := match v.release with | some (t, f, _) => (t, f) | none => (2 ^ 64 - 1, 0)
  leBytes 2 v.lead ++ leBytes 2 v.template ++ leBytes 2 v.handle ++ leBytes 1 v.tenant ++ leBytes 1 v.zone ++
  leBytes 1 v.headerState ++ leBytes 1 v.slots.length ++
  leBytes 2 ((if v.late then 1 else 0) + (if v.released then 2 else 0) + (if v.held then 4 else 0) +
    (if v.state = .feathering then 8 else 0) + (if v.migratedIn then 16 else 0)) ++
  leBytes 4 v.id ++ leBytes 8 v.onsetTick ++ leBytes 1 v.onsetFrac ++ leBytes 1 v.note.channel ++
  leBytes 1 v.note.note ++ leBytes 1 v.endReason ++ leBytes 2 v.note.velocity ++ leBytes 2 v.note.attr ++
  leBytes 4 (ofInt 32 v.pitch) ++ leBytes 2 v.level ++ leBytes 1 v.note.attrType ++ zeros 1 ++
  leBytes 8 rel.1 ++ leBytes 1 rel.2 ++ leBytes 1 (field (c.voiceImage v) 0xA 1) ++
  leBytes 2 v.featherLeft ++ leBytes 2 v.featherLen ++
  leBytes 2 (match v.genBase with | some b => b | none => Config.noGenBase) ++
  v.cursors.flatMap (leBytes 2)

/-- LAST_L, LAST_R, PEAK and FEATHER_GAIN (R65). -/
def Voice.tail (v : Voice) : List Byte :=
  leBytes 4 (ofInt 32 v.lastL) ++ leBytes 4 (ofInt 32 v.lastR) ++ leBytes 4 v.peak ++ leBytes 2 v.gain

/-- The place of a voice's frame. -/
def Voice.framePlace (v : Voice) : Nat := memLocal (v.lead / 64) (v.lead % 64 * 0x400)

/-- The header and tail of a voice's frame follow the voice. -/
def syncFrame (n : Nat) (c : Chip) : Chip :=
  match c.voice n with
  | some v =>
    if v.slots.isEmpty then c
    else writeBytes (v.framePlace + 0x3E0) v.tail (writeBytes v.framePlace (c.frameHeader v) c)
  | none => c

/-- The whole frame at instantiation (R62, R65). -/
def instantiate (n : Nat) (c : Chip) : Chip :=
  match c.voice n with
  | some v =>
    let img := c.voiceImage v
    writeBytes v.framePlace (c.frameHeader v ++ slice img 0x40 0x3A0 ++ v.tail ++ zeros 18) c
  | none => c

/-- The octets of a mod block (R64). -/
def modBlockBytes (rows : List (List Int)) : List Byte :=
  rows.flatMap (fun row => let b := row.flatMap (fun x => leBytes 2 (ofInt 16 x)); b ++ zeros (34 - b.length))

/-- Stipple writes a voice's mod block into its frame (R64); entries past B/4 + 1 keep what they held. -/
def writeModBlock (n : Nat) (c : Chip) : Chip :=
  match c.voice n with
  | some v =>
    if v.slots.isEmpty then c
    else
      let d := field (c.voiceImage v) 0xA 1
      let base := v.framePlace + (0x3C0 - 34 * d)
      forEach v.block.zipIdx (fun x c =>
        writeBytes (base + 34 * x.2) (x.1.flatMap (fun y => leBytes 2 (ofInt 16 y))) c) c
  | none => c

/-! ### Journal records (R498, R500) -/

/-- SEQ of an entry. -/
def entrySeq (e : List Byte) : Nat := field e 0xC 4

/-- Is a mirror holder set (R495, R500)? -/
def Chip.holderSet (c : Chip) : Bool := c.num Obj.chainMirrorHolder != 0xFF

/-- Note a record's change for the next retire list (R500). -/
def noteRetire (r : JRec) (holding : Bool) (c : Chip) : Chip :=
  when_ c.holderSet (modJournal (fun j => { j with retireList := j.retireList ++
    [(r.tenant, r.queue, entrySeq r.entry, holding)] })) c

/-- Free a local record. -/
def freeRecord (p : Nat) (c : Chip) : Chip :=
  match tget none c.work.journal.recs p with
  | some r => noteRetire r false (modJournal (fun j => { j with recs := tset none j.recs p none }) c)
  | none => c

/-- A local record becomes HOLDING. -/
def holdRecord (p : Nat) (c : Chip) : Chip :=
  match tget none c.work.journal.recs p with
  | some r => noteRetire r true (modJournal (fun j =>
      { j with recs := tset none j.recs p (some { r with state := .holding, taken := true }) }) c)
  | none => c

/-- A note-on whose voices are all released or ended frees its record; one that is matched and has none left is
forgotten (R71, R498). -/
def settleNote (id : Nat) (c : Chip) : Chip :=
  match c.hawk.notes.find? (fun x => x.id == id) with
  | none => c
  | some x =>
    let live := x.voices.filter (fun n => match c.voice n with | some v => !v.released | none => false)
    let c := if live.isEmpty then (match x.place with | some p => freeRecord p c | none => c) else c
    modHawk (fun h => { h with notes := h.notes.filterMap (fun y =>
      if y.id = id then
        let y := { y with voices := y.voices.filter (fun n => (c.voice n).isSome),
                          place := if live.isEmpty then none else y.place }
        if y.off && y.voices.isEmpty then none else some y
      else some y) }) c

/-! ### Notifications of voices (R402, R403) -/

/-- A notice of a voice. -/
def Voice.notice (v : Voice) (kind reason tick : Nat) (late : Bool) : Notice :=
  { kind := kind, status := 0, late := late, queue := v.origin.esq, seq := v.origin.seq, tick := tick, voiceId := v.id,
    handle := v.handle, endReason := reason, note := v.note.note, channel := v.note.channel, zone := v.zone }

/-- Post a notice where its event was accepted: here, or relayed in a HOLDER_REPORT (R403). -/
def tellOrigin (o : Origin) (n : Notice) (c : Chip) : Chip :=
  if o.chip = c.me then notifyEsq o.tenant o.esq n c
  else sendLath 1 5 o.chip 0 [n.kind, o.tenant, o.esq, o.seq, n.tick, n.voiceId, n.handle, n.endReason, n.note,
    n.channel, n.zone] c

/-- Report to a layer's home, when that is another chip (R96): 0 placed, 1 ended, 2 feathering, 3 moved; with LEAD,
chip, reason and tick. -/
def reportHome (v : Voice) (what lead reason tick : Nat) (c : Chip) : Chip :=
  match v.home with
  | some h => if h = c.me then c else sendLath 1 5 h 0 [0x100 + what, v.id, lead, c.me, reason, tick] c
  | none => c

/-- Remove an ownership entry (R96). -/
def disown (id : Nat) (c : Chip) : Chip := modHawk (fun h => { h with owned := tset none h.owned id none }) c

/-! ### Ending a voice (R73 to R75, R134, R403) -/

/-- The target keys of a control template's bindings. -/
def bindingKeys (img : List Byte) (tenant : Nat) : List Nat :=
  (upTo 8).filterMap (fun i =>
    let b := bindingOf img i
    if field b 0 1 = 0 then none else some (bindingTarget b tenant))

/-- Targets that no live control voice binds any more apply their ON_END rule (R135, R138). -/
def releaseTargets (keys : List Nat) (c : Chip) : Chip :=
  let busy := (c.voiceList.filter (fun x => x.2.control && x.2.live)).flatMap (fun x => bindingKeys (c.voiceImage x.2) x.2.tenant)
  let idle := keys.filter (fun k => !busy.contains k)
  modStipple (fun x => { x with idled := idle.foldl (fun t k => tset false t k true) x.idled }) c

/-- A voice ends and everything it held returns. -/
def endVoice (n reason tick : Nat) (c : Chip) : Chip :=
  match c.voice n with
  | none => c
  | some v =>
    let img := c.voiceImage v
    let c := when_ (!v.slots.isEmpty) (writeBytes v.framePlace
      (c.frameHeader { v with state := .waiting, endReason := reason })) c
    let c := modHawk (fun h => { h with voices := tset none h.voices n none,
                                        starts := h.starts.filter (fun s => s.voice != n),
                                        asks := h.asks.filter (fun a => a.voice != n) }) c
    let c := freeCursors n c
    let c := if v.control then releaseTargets (bindingKeys img v.tenant) c
      else when_ (bit (field img 6 2) 1 && reason != 6)
        (if v.home.isNone || v.home == some c.me then tellOrigin v.origin (v.notice 1 reason tick v.late) else id) c
    let c := when_ (v.home == some c.me && reason != 6) (disown v.id) c
    let c := when_ (reason != 6) (reportHome v 1 v.lead (reason + (if bit (field img 6 2) 1 then 0x100 else 0)) tick) c
    let c := settleNote v.noteOn c
    collect (if v.control then .control else .template) v.template c

/-- Choose a voice to feather from frame `k`, for a reason (R73, R79, R87). -/
def featherVoice (n k reason : Nat) (c : Chip) : Chip :=
  modVoice n (fun v => if v.featherFrom.isSome then v else { v with featherFrom := some (k, reason) }) c

/-- Feather length of a voice in samples (R87). -/
def Chip.featherSamples (c : Chip) (v : Voice) : Nat :=
  let f := field (c.voiceImage v) 0x11 1
  ((if f = 0 then c.num Obj.hawkFeatherTime else f) * c.fs + 3999) / 4000

/-- A voice enters FEATHERING at the boundary of frame `k` (R73, R87, R124). Entry 49, DESIGN CHOICE. -/
def beginFeather (n k reason : Nat) (c : Chip) : Chip :=
  match c.voice n with
  | none => c
  | some v =>
    if v.control then endVoice n reason (k * c.bsize) c
    else
      let len := c.featherSamples v
      let start := k * c.bsize
      let c := modVoice n (fun v => unbindGens
        { v with state := .feathering, featherStart := start, featherLen := len, featherLeft := len, gain0 := v.gain,
                 endReason := reason, rise := none }) c
      reportHome v 2 v.lead reason (k * c.bsize) (syncFrame n c)

/-- Putty stands in for a voice's output in frame `k` (R478). -/
def puttyOf (c : Chip) (k : Nat) (v : Voice) : Rendered :=
  let img := c.voiceImage v
  { frame := k, lead := v.lead, tenant := v.tenant, stereo := bit (field img 6 2) 0,
    sends := v.sends, putty := some (v.lastL, v.lastR, v.gain) }

/-- Put a frame's output in place. -/
def addRendered (r : Rendered) (c : Chip) : Chip := modHawk (fun h => { h with rendered := h.rendered ++ [r] }) c

/-! ### Placing one voice (R79, R84, R87, R88, R122, R123) -/

/-- Which sends of a voice Skim loads (R233, R234): bus, level, and whether the send is dropped. A stereo send needs W
on both buses of its pair. -/
def Chip.sendEntries (c : Chip) (v : Voice) : List (Nat × Int × Bool) :=
  let img := c.voiceImage v
  let stereo := bit (field img 6 2) 0
  ((upTo 8).filter (fun i => field img (0x3C0 + 4 * i + 2) 2 != 0xFFFF)).map (fun i =>
    let bus := field img (0x3C0 + 4 * i + 2) 2
    let level := oneQ15 (sfield img (0x3C0 + 4 * i) 2)
    let ok (b : Nat) : Bool := if b < 0x8000 then decide (b < 0x400) && c.may 0x06 b (0x10 + v.tenant) 1
      else decide (b < 0x8200) && c.may 0x07 (b - 0x8000) (0x10 + v.tenant) 1
    (bus, level, !(if stereo then ok (bus - bus % 2) && ok (bus - bus % 2 + 1) else ok bus)))

/-- Skim loads a voice's sends into its send table (R234). -/
def loadSends (n : Nat) (c : Chip) : Chip :=
  match c.voice n with
  | none => c
  | some v =>
    let es := c.sendEntries v
    let dropped := (es.filter (fun e => e.2.2)).length
    let c := modVoice n (fun v => { v with sends := (es.filter (fun e => !e.2.2)).map (fun e => (e.1, e.2.1)) }) c
    let c := bumpBy Obj.skimCountersSendDenied dropped c
    if dropped = 0 ∨ tget 0 c.skim.deniedFrame v.tenant = c.frame + 1 then c
    else snag 0x1201 v.lead v.tenant
      { c with skim := { c.skim with deniedFrame := tset 0 c.skim.deniedFrame v.tenant (c.frame + 1) } }

/-- How an attempt to start a voice is settled. -/
inductive Settled | placed | denied | excess | deferred
  deriving DecidableEq, Repr

/-- Its own fields at placement: slots, generators, COMB lines, and its place in the frame. -/
def takePlace (n core k : Nat) (d : Need) (c : Chip) : Chip :=
  let slots := c.takeSlots core d.w
  let base := (if d.block = 0 then none else c.findBlock (coreCluster core) d.block).map
    (fun i => coreCluster core * 16384 + i * d.block)
  let c := modVoice n (fun v =>
    let v := bindGens c base k v
    { v with slots := slots, state := .placed, endReason := 0, gain := 0x7FFF, lastL := 0, lastR := 0, peak := 0,
             combs := ((descs (c.voiceImage v)).filter (fun d => d.kernel == 0x08)).map (fun d => zeros (combLine c.fs d.aux)) }) c
  loadSends n (instantiate n (openCursors n c))

/-- LATE_START and the counter for a voice that starts late (R29, R105, R403). -/
def lateStart (n tick : Nat) (c : Chip) : Chip :=
  match c.voice n with
  | some v => tellOrigin v.origin (v.notice 2 0 tick true) (bump Obj.hawkCountersLateStarts c)
  | none => c

/-- A voice that is not created (R79 step 6). -/
def denyVoice (n : Nat) (c : Chip) : Chip :=
  match c.voice n with
  | none => c
  | some v =>
    let c := bump Obj.hawkCountersDenied (bump (Obj.hawkTenantDenied v.tenant) c)
    let c := if tget 0 c.hawk.deniedFrame v.tenant = c.frame + 1 then c
      else snag 0x1101 v.handle v.tenant (modHawk (fun h => { h with deniedFrame := tset 0 h.deniedFrame v.tenant (c.frame + 1) }) c)
    let c := raiseDenied v.tenant c
    let c := tellOrigin v.origin (v.notice 3 0 c.time.stc false) c
    let c := modHawk (fun h => { h with voices := tset none h.voices n none,
                                        starts := h.starts.filter (fun s => s.voice != n) }) c
    let c := when_ (v.home == some c.me) (disown v.id) c
    let c := reportHome v 1 0 0 c.time.stc c
    collect (if v.control then .control else .template) v.template (settleNote v.noteOn c)

/-- May a tenant's placement take a voice of another (R79 step 5)? -/
def Chip.mayTake (c : Chip) (t : Nat) (v : Voice) : Bool :=
  v.tenant == t || (decide (c.slotMin v.tenant < c.slotsUsed v.tenant) && decide (c.priority v.tenant ≤ c.priority t))

/-- The group of a voice, and its mode (R79, R106). -/
def Chip.groupOf (c : Chip) (v : Voice) : Nat := field (c.voiceImage v) 0xC 2
def Chip.groupMode (c : Chip) (g : Nat) : Nat := if 1 ≤ g ∧ g < 4096 then c.num (Obj.hawkGroupMode g) else 0

/-- The choke of R79 step 1: other voices of the tenant and group feather from frame `k`. Entry 50, DEDUCED. -/
def choke (n k : Nat) (v : Voice) (c : Chip) : Chip :=
  let g := c.groupOf v
  if c.groupMode g ≠ 2 then c
  else
    let c := forEach c.voiceList (fun x c =>
      if x.1 ≠ n ∧ x.2.tenant = v.tenant ∧ c.groupOf x.2 = g ∧ (x.2.state = .sounding ∨ x.2.state = .releasing) ∧
          !x.2.control ∧ x.2.chainWide = v.chainWide then featherVoice x.1 k 4 c else c) c
    if v.home = some c.me then
      forEach (c.hawk.owned.filterMap (fun e => e.2.map (fun o => (e.1, o)))) (fun e c =>
        if e.2.tenant = v.tenant ∧ e.2.group = g ∧ e.2.chip ≠ c.me ∧ e.2.known then
          sendLath 1 6 e.2.chip 0 [e.1, k * c.bsize, 0, 0, 2] c else c) c
    else c

/-- Voices of a tenant and group that do not feather (R79 step 2). -/
def Chip.groupCount (c : Chip) (n : Nat) (v : Voice) : Nat :=
  let g := c.groupOf v
  let here := (c.voiceList.filter (fun x => x.1 != n && x.2.tenant == v.tenant && x.2.live && !x.2.control &&
    c.groupOf x.2 == g && x.2.chainWide == v.chainWide && x.2.state != .feathering && x.2.featherFrom.isNone)).length
  if v.home = some c.me then
    here + (c.hawk.owned.filter (fun e => match e.2 with
      | some o => o.tenant == v.tenant && o.group == g && o.chip != c.me && !o.feathering | none => false)).length
  else here

/-- A candidate on a core with room, and whether only a generator block was missing (R87, R123). -/
def Chip.stealOn (c : Chip) (d : Need) (cands : List Nat) : Option (Nat × Nat) × Bool :=
  let withRoom := cands.filterMap (fun n => (c.voice n).bind (fun v => v.core.bind (fun core =>
    if c.coreRoom core d true then some (n, core) else none)))
  (withRoom.find? (fun x => c.blockRoom x.2 d true), !withRoom.isEmpty)

/-- Would the new voice fit in place of a candidate once its slots return (R88)? -/
def Chip.cutFits (c : Chip) (d : Need) (n : Nat) : Option Nat :=
  match c.voice n with
  | none => none
  | some v => v.core.bind (fun core =>
      if c.occupancy core - v.slots.length + d.w ≤ c.coreSlots core ∧
          d.comb ≤ c.combFree (core / 16) + (v.combs.map List.length).sum then some core else none)

/-- A cut candidate leaves at the boundary of frame `k`, with putty for that frame (R88). -/
def cutOut (n k : Nat) (c : Chip) : Chip :=
  match c.voice n with
  | some v => endVoice n 4 (k * c.bsize) (addRendered (puttyOf c k v) c)
  | none => c

/-- The new voice takes its place on a core; the generator quota may still deny it (R414). -/
def commitPlace (n core k : Nat) (d : Need) (c : Chip) : Chip × Settled :=
  match c.voice n with
  | none => (c, .denied)
  | some v =>
    if c.num (Obj.tenantQuotaGenerators v.tenant) < c.gensUsed v.tenant + d.gens then
      (denyVoice n (raise v.tenant 36 c), .denied)
    else
      let c := takePlace n core k d c
      (reportHome v 0 (((c.voice n).map Voice.lead).getD 0) 0 0 c, .placed)

/-- Steal for a voice, among candidates best first; `core` is a free place that step 2 found (R87, R88). -/
def stealPlace (n k : Nat) (boundary : Bool) (st : Start) (d : Need) (core : Option Nat) (cands : List Nat) (c : Chip) :
    Chip × Settled :=
  match core, cands with
  | some core, v :: _ => commitPlace n core k d (bump Obj.hawkCountersSteals (featherVoice v k 4 c))
  | some _, [] => if boundary then (c, .excess) else (denyVoice n c, .denied)
  | none, _ =>
    let r := c.stealOn d cands
    match r.1 with
    | some (v, core) => commitPlace n core k d (bump Obj.hawkCountersSteals (featherVoice v k 4 c))
    | none =>
      let cuts := cands.filterMap (fun v => (c.cutFits d v).map (fun core => (v, core)))
      match cuts.find? (fun x => c.blockRoom x.2 d true) with
      | some (v, core) =>
        let c := bump Obj.hawkCountersCutSteals (bump Obj.hawkCountersSteals c)
        if boundary then commitPlace n core k d (cutOut v k c)
        else (modHawk (fun h => { h with cuts := h.cuts ++ [(k, v, st)] }) (featherVoice v k 4 c), .placed)
      | none =>
        if r.2 || !cuts.isEmpty then
          if st.genShort then (denyVoice n (bump Obj.stippleCountersGenDenied c), .denied)
          else (modHawk (fun h => { h with starts := h.starts.map (fun s => if s.voice = n then { s with genShort := true } else s) }) c,
                .excess)
        else if boundary then (c, .excess) else (denyVoice n c, .denied)

/-- Candidates allowed to a voice: a search in the lookahead pass, the cache at a boundary (R84, R85). -/
def Chip.candidates (c : Chip) (boundary : Bool) (v : Voice) (ok : Voice → Bool) : List Nat :=
  let pool := c.poolOf v.tenant
  if boundary then
    (tget [] c.hawk.caches pool).filter (fun m => match c.voice m with
      | some x => c.eligible x && ok x | none => false)
  else c.ranked pool v.tenant (c.groupOf v) ok

/-- Steal, unless a lookahead search is beyond the bound of R83, which leaves the voice to the boundary pass. -/
def trySteal (n k : Nat) (boundary : Bool) (st : Start) (v : Voice) (d : Need) (core : Option Nat) (ok : Voice → Bool)
    (c : Chip) : Chip × Settled :=
  if !boundary && decide (c.hawk.searches = 0) then (c, .deferred)
  else
    let cands := c.candidates boundary v ok
    let c := when_ (!boundary) (modHawk (fun h => { h with searches := h.searches - 1 })) c
    stealPlace n k boundary st d core cands c

/-- Steps 2 to 6 of R79 on this chip; a placement order begins at step 3 (R94). -/
def placeHere (n k : Nat) (boundary : Bool) (st : Start) (v : Voice) (c : Chip) : Chip × Settled :=
  let d := c.need v
  let pool := c.poolOf v.tenant
  let cores := c.poolCores pool
  let free := c.chooseCore cores (c.num (Obj.hawkPoolPolicy pool)) d
  let g := c.groupOf v
  if cores.isEmpty then (denyVoice n c, .denied)
  else if !st.ordered && c.groupMode g == 1 && decide (c.num (Obj.hawkGroupLimit g) ≤ c.groupCount n v) then
    trySteal n k boundary st v d free (fun x => x.tenant == v.tenant && c.groupOf x == g && x.chainWide == v.chainWide) c
  else if c.slotMax v.tenant < c.slotsUsed v.tenant + d.w then
    trySteal n k boundary st v d none (fun x => x.tenant == v.tenant) c
  else match free with
    | some core => commitPlace n core k d c
    | none => trySteal n k boundary st v d none (c.mayTake v.tenant) c

/-! ### Control voices (R133, R134) -/

/-- Control voices that run. -/
def Chip.controlCount (c : Chip) : Nat := (c.voiceList.filter (fun x => x.2.control && x.2.live)).length
def Chip.controlUsed (c : Chip) (t : Nat) : Nat :=
  (c.voiceList.filter (fun x => x.2.control && x.2.live && x.2.tenant == t)).length

/-- The largest free block of a cluster outside the reserve. -/
def Chip.largestBlock (c : Chip) (cl : Nat) : Nat :=
  (([32, 16, 8, 4].find? (fun s => c.genRoom cl s false))).getD 0

/-- The size of the largest run that the buddy method could give a cluster's free generators, for R134. -/
def Chip.largestFree (c : Chip) (cl : Nat) : Nat :=
  (((upTo 13).map (fun i => 4 * 2 ^ i)).filter (fun s => (c.findBlock cl s).isSome)).getLast?.getD 0

/-- Start one control voice at the boundary of frame `k`, or deny it (R134). -/
def startControl (n k : Nat) (c : Chip) : Chip × Settled :=
  match c.voice n with
  | none => (c, .denied)
  | some v =>
    let m := (genIndex (c.voiceDef v).slots).1.length
    let size := genBlock m
    let cl := (bestBy (fun (a b : Nat × Nat) => decide (b.2 < a.2)) ((upTo 4).map (fun i => (i, c.largestFree i)))).elim 0 Prod.fst
    let ok := decide (c.controlCount < 16384) && c.genRoom cl size false &&
      decide (c.controlUsed v.tenant < c.num (Obj.tenantQuotaControlVoices v.tenant)) &&
      decide (c.gensUsed v.tenant + m ≤ c.num (Obj.tenantQuotaGenerators v.tenant))
    if ok then
      let base := (if size = 0 then none else c.findBlock cl size).map (fun i => cl * 16384 + i * size)
      (modVoice n (fun v => { bindGens c base k v with state := .sounding }) c, .placed)
    else
      let excess := decide (c.num (Obj.tenantQuotaControlVoices v.tenant) ≤ c.controlUsed v.tenant) ||
        decide (c.num (Obj.tenantQuotaGenerators v.tenant) < c.gensUsed v.tenant + m)
      (denyVoice n (when_ excess (raise v.tenant 36) (bump Obj.stippleCountersControlDenied c)), .denied)

end Sys2Proof.Machine
end

