-- ==== Sys2Proof/Machine/Voices.lean ====
section
/-!
DEFINITION. Events: how an accepted entry is read, when it takes effect, and what notes, pedals and controllers do
to voices, here and at the holders of a chain-wide layer (R27 to R29, R46, R51, R52, R63, R71 to R73, R91 to R96,
R127, R133 to R135, R397, R498, R504).
-/

namespace Sys2Proof.Machine

/-! ### Universal MIDI Packets (R51, R119, R397; entry 23, PRESUMED) -/

/-- Fill `n` bits below a value with repetitions of `r`, `w` bits wide. Entry 23, PRESUMED. -/
def repeatBits (r w : Nat) : Nat → Nat → Nat
  | 0, _ => 0
  | fuel + 1, n => if w ≤ n then r * 2 ^ (n - w) + repeatBits r w fuel (n - w) else r / 2 ^ (w - n)

/-- A MIDI 1.0 value of `src` bits widened to `dst` bits (entry 23, PRESUMED). -/
def widen (src dst v : Nat) : Nat :=
  let up := v * 2 ^ (dst - src)
  if v ≤ 2 ^ (src - 1) then up else up + repeatBits (v % 2 ^ (src - 1)) (src - 1) 8 (dst - src)

/-- What an event asks for. -/
inductive EventKind
  | noteOn (n : NoteData)
  | noteOff (channel note velocity : Nat)
  /-- a per-note controller: number as Voice.perNote keeps it, and its 32-bit value -/
  | perNote (channel note number value : Nat)
  /-- a channel controller: number as ctlKey has it, its value, and whether it came as MIDI 1.0 -/
  | controller (channel number value : Nat)
  | none
  deriving DecidableEq, Repr

/-- Word `i` of an entry's UMP. -/
def umpWord (e : List Byte) (i : Nat) : Nat := field e (0x10 + 4 * i) 4

/-- UMP message type, and group and channel as R63 joins them. -/
def umpType (e : List Byte) : Nat := bits (umpWord e 0) 31 28
def umpChannel (e : List Byte) : Nat := bits (umpWord e 0) 27 24 * 16 + bits (umpWord e 0) 19 16
def umpStatus (e : List Byte) : Nat := bits (umpWord e 0) 23 20

/-- Read an entry's UMP (R397). -/
def eventKind (e : List Byte) : EventKind :=
  let w := umpWord e 0
  let w1 := umpWord e 1
  let ch := umpChannel e
  let a := bits w 14 8
  if umpType e = 2 then
    let b := bits w 6 0
    match umpStatus e with
    | 8 => .noteOff ch a (widen 7 16 b)
    | 9 => if b = 0 then .noteOff ch a 0 else .noteOn ⟨ch, a, widen 7 16 b, 0, 0⟩
    | 0xA => .perNote ch a 513 (widen 7 32 b)
    | 0xB => .controller ch a (widen 7 32 b)
    | 0xD => .controller ch 128 (widen 7 32 a)
    | 0xE => .controller ch 129 (widen 14 32 (b * 128 + a))
    | _ => .none
  else if umpType e = 4 then
    match umpStatus e with
    | 8 => .noteOff ch a (w1 / 65536)
    | 9 => .noteOn ⟨ch, a, w1 / 65536, w1 % 65536, w % 256⟩
    | 0xA => .perNote ch a 513 w1
    | 0 => .perNote ch a (w % 256) w1
    | 1 => .perNote ch a (256 + w % 256) w1
    | 6 => .perNote ch a 512 w1
    | 0xB => .controller ch a w1
    | 0xD => .controller ch 128 w1
    | 0xE => .controller ch 129 w1
    | _ => .none
  else .none

/-- Is it a message that must carry a HANDLE (R397)? -/
def namesHandle (e : List Byte) : Bool :=
  match umpType e, umpStatus e with
  | 2, 8 => true | 2, 9 => true | 2, 0xA => true
  | 4, 8 => true | 4, 9 => true | 4, 0xA => true | 4, 0 => true | 4, 1 => true | 4, 6 => true | 4, 0xF => true
  | _, _ => false

/-- Fields of an entry (R397). -/
def entryTick (e : List Byte) : Nat := field e 0 8
def entryFrac (e : List Byte) : Nat := field e 8 1
def entryImmediate (e : List Byte) : Bool := bit (field e 9 1) 0
def entryKill (e : List Byte) : Bool := bit (field e 9 1) 1
def entryHandle (e : List Byte) : Nat := field e 0xA 2

/-! ### When an event takes effect (R27, R91, R399, R504) -/

/-- The tick that stands for acceptance. -/
def JRec.accepted (r : JRec) : Nat := r.replayTick.getD r.acceptTick

/-- Does it start at a frame boundary: immediate, or late (R27, R399)? -/
def lateAt (b a : Nat) (e : List Byte) : Bool := !entryImmediate e && decide (entryTick e < b * (a / b + 1))

/-- The effective point of an event: tick and fraction (R504). -/
def JRec.point (b : Nat) (r : JRec) : Nat × Nat :=
  if entryImmediate r.entry || lateAt b r.accepted r.entry then (b * (r.accepted / b + 1), 0)
  else (entryTick r.entry, entryFrac r.entry)

/-- PRIO of the queue an event came by. -/
def Chip.prioOf (c : Chip) (t q : Nat) : Nat := bits (c.queue (qix t q)).cfg 21 20

/-- The event order key (R504). Entry 46, DESIGN CHOICE. -/
def Chip.eventKey (c : Chip) (r : JRec) : List Nat :=
  let p := r.point c.bsize
  [p.1, p.2, c.prioOf r.tenant r.queue, r.tenant, r.queue, entrySeq r.entry, r.src]

/-- An accepted event that waits for its pass: a local record by place, or one forwarded to this home. -/
structure Event where
  place : Option Nat
  r : JRec
  deriving DecidableEq, Repr

/-- Is a handle a chain-wide layer, as the version an event is bound to has it? -/
def Chip.isChainHandle (c : Chip) (h : Nat) : Bool :=
  decide (h < 4096) && (match c.newest .layer h with | some v => isChainLayer v.image | none => false)

/-- The home of a chain-wide layer; this chip when it stands alone (R90). -/
def Chip.homeOf (c : Chip) (h : Nat) : Nat := if c.isMember then c.num (Obj.chainLayerHome h) else c.me

/-- Is an event held until a home change is complete (R367)? -/
def Chip.heldEvent (c : Chip) (r : JRec) : Bool :=
  namesHandle r.entry && c.chain.waits.any (fun w => w.layer == field r.entry 0xA 2)

/-- The events whose pass has not come. -/
def Chip.waitingEvents (c : Chip) : List Event :=
  (c.work.journal.recs.filterMap (fun x => match x.2 with
    | some r => if r.state = .pending ∧ !r.taken ∧ r.forwarded.isNone ∧ !c.heldEvent r then some ⟨some x.1, r⟩ else none
    | none => none)) ++
  (c.work.journal.inbox.filter (fun r => !r.taken && !c.heldEvent r)).map (fun r => ⟨none, r⟩)

/-- In event order. -/
def Chip.inOrder (c : Chip) (l : List Event) : List Event :=
  l.sortBy (fun a b => !keyLt (c.eventKey b.r) (c.eventKey a.r))

/-- An event has taken effect and needs no record (R498); a chain-wide one stays until its boundary. -/
def finishEvent (e : Event) (c : Chip) : Chip :=
  match e.place with
  | some p => freeRecord p c
  | none => modJournal (fun j => { j with inbox := j.inbox.filter (fun r => r != e.r) }) c

/-- A controller's record is HOLDING (R498). -/
def keepEvent (e : Event) (c : Chip) : Chip :=
  match e.place with
  | some p => holdRecord p c
  | none => finishEvent e c

/-! ### Note-ons (R46, R51, R52, R63, R133) -/

/-- The zones that a note-on matches. -/
def matchZones (img : List Byte) (n : NoteData) : List Nat :=
  (upTo (field img 8 1)).filter (fun i =>
    let z := zoneOf img i
    decide (field z 2 1 ≤ n.note) && decide (n.note ≤ field z 3 1) && decide (field z 4 2 ≤ n.velocity) &&
    decide (n.velocity ≤ field z 6 2))

/-- Round robin: one zone of each nonzero group, and the counters it leaves (R52). Entry 50, DEDUCED. -/
def roundRobin (layer : Nat) (img : List Byte) (zones : List Nat) (rr : Table Nat) : List Nat × Table Nat :=
  let group (i : Nat) : Nat := field (zoneOf img i) 0xC 1
  let groups := ((zones.map group).filter (· != 0)).eraseDups
  let pick (g : Nat) : Option Nat :=
    let l := zones.filter (fun i => group i == g)
    l[tget 0 rr (256 * layer + g) % max 1 l.length]?
  (zones.filter (fun i => group i == 0 || pick (group i) == some i),
   groups.foldl (fun t g => tset 0 t (256 * layer + g) (tget 0 t (256 * layer + g) + 1)) rr)

/-- A new VOICE_ID (R63). Entry 45, DESIGN CHOICE. -/
def newId (c : Chip) : Nat × Chip :=
  let home := if c.me = 0xFF then 0 else c.me
  (home % 128 * 2 ^ 25 + c.hawk.nextId % 2 ^ 25, modHawk (fun h => { h with nextId := h.nextId + 1 }) c)

/-- A voice that waits to be placed joins the table with its start. -/
def addStart (v : Voice) (imm late : Bool) (r : JRec) (p : Nat × Nat) (c : Chip) : Nat × Chip :=
  let i := newId c
  let c := i.2
  let n := c.hawk.nextVoice
  let frame := p.1 / c.bsize
  let s : Start := { voice := n, frame := frame, immediate := imm || late, order := r.order, accepted := r.accepted,
                     onsetTick := p.1, onsetFrac := p.2 }
  (n, modHawk (fun h => { h with voices := tput h.voices n (some { v with id := i.1, late := late, onsetTick := p.1, onsetFrac := p.2 }),
                                 nextVoice := n + 1, starts := h.starts ++ [s] }) c)

/-- Where an event's notifications go. -/
def Event.origin (c : Chip) (e : Event) : Origin :=
  ⟨if e.place.isSome then c.me else e.r.src, e.r.tenant, e.r.queue, entrySeq e.r.entry⟩

/-- A note-on creates its voices (R46, R133). -/
def expandNoteOn (e : Event) (nd : NoteData) (c : Chip) : Chip :=
  let hnd := entryHandle e.r.entry
  let key := c.eventKey e.r
  let p := e.r.point c.bsize
  let imm := entryImmediate e.r.entry
  let late := lateAt c.bsize e.r.accepted e.r.entry
  let id := c.hawk.nextNote
  let org := e.origin c
  let v0 : Voice := { id := 0, control := decide (0x8000 ≤ hnd), tenant := e.r.tenant, handle := hnd, zone := 0,
                      template := hnd % 4096, version := e.r.bound.headD 0, origin := org, key := key, noteOn := id,
                      note := nd }
  let made : List Nat × Chip :=
    if 0x8000 ≤ hnd then
      let pitch := (if nd.attrType = 3 then nd.attr * 128 else nd.note * 65536 : Nat)
      let r := addStart { v0 with pitch := pitch } imm late e.r p c
      ([r.1], r.2)
    else
      let img := (((c.handle .layer hnd).version (e.r.bound.headD 0)).map (fun v => v.image)).getD []
      let chain := isChainLayer img
      let rr := roundRobin hnd img (matchZones img nd) c.hawk.rr
      let c := modHawk (fun h => { h with rr := rr.2 }) c
      rr.1.foldl (fun acc i =>
        let z := zoneOf img i
        let base : Int := (if nd.attrType = 3 then nd.attr * 128 else nd.note * 65536 : Nat)
        let v := { v0 with zone := i, template := field z 0 2, version := e.r.bound.getD (i + 1) 0,
                           pitch := base + sfield z 8 2 * 256, level := field z 0xA 2,
                           home := if chain then some c.me else none }
        let r := addStart v imm late e.r p acc.2
        (acc.1 ++ [r.1], r.2)) ([], c)
  let c := made.2
  if made.1.isEmpty then finishEvent e c
  else
    let chain := c.isChainHandle hnd
    let oneShot := made.1.all (fun n => match c.voice n with
      | some v => !v.control && bit (field (c.voiceImage v) 6 2) 3 | none => false)
    let x : NoteOn := { id := id, tenant := e.r.tenant, handle := hnd, channel := nd.channel, note := nd.note, key := key,
                        origin := org, place := if chain then none else e.place, voices := made.1, oneShot := oneShot }
    let c := modHawk (fun h => { h with notes := h.notes ++ [x], nextNote := id + 1 }) c
    if chain then finishEvent e c else keepEvent e c

/-! ### Releases, pedals, kills and controllers (R71 to R73, R96, R127, R397) -/

/-- The first sample of a voice (R70). -/
def Voice.n0 (v : Voice) : Nat := if v.onsetFrac = 0 then v.onsetTick else v.onsetTick + 1

/-- An event on a voice that is being moved to another chip is applied there too (R102): a RELEASE to the target. -/
def echoMove (n t f vel kind : Nat) (c : Chip) : Chip :=
  match c.voice n, c.hawk.migOut.find? (fun m => m.voice == n && m.localCopy.isNone && m.resolved != some false) with
  | some v, some m => sendLath 1 6 m.targetChip 0 [v.id, t, f, vel, kind] c
  | _, _ => c

/-- A release sample is set for a voice, at the earliest the sample after its first (R73). -/
def setRelease (n t f vel : Nat) (c : Chip) : Chip :=
  echoMove n t f vel 0 (modVoice n (fun v => if v.pendingRelease.isSome || v.release.isSome then v
    else { v with pendingRelease := some (t, f, vel), held := false }) c)

/-- Does a template have SUSTAIN; a control voice always follows the pedal (R72, R135)? -/
def Chip.sustains (c : Chip) (v : Voice) : Bool := v.control || bit (field (c.voiceImage v) 6 2) 2

/-- Is the pedal of a tenant, group and channel down (R72)? -/
def Chip.pedalDown (c : Chip) (t ch : Nat) : Bool := tget false c.stipple.pedals (256 * t + ch)

/-- A matched note-off acts on one voice of this chip. -/
def offVoice (n t f vel : Nat) (c : Chip) : Chip :=
  match c.voice n with
  | none => c
  | some v =>
    if !v.control && bit (field (c.voiceImage v) 6 2) 3 then c
    else if c.sustains v && c.pedalDown v.tenant v.note.channel then
      echoMove n t f vel 3 (syncFrame n (modVoice n (fun v => { v with held := true, heldVel := vel }) c))
    else setRelease n t f vel c

/-- Ownership entries of this home on other chips (R96). -/
def Chip.remoteOwned (c : Chip) : List (Nat × Owned) :=
  c.hawk.owned.filterMap (fun e => e.2.bind (fun o => if o.chip ≠ c.me then some (e.1, o) else none))

/-- An ownership entry changes. -/
def modOwned (id : Nat) (f : Owned → Owned) (c : Chip) : Chip :=
  modHawk (fun h => { h with owned := tmod none h.owned id (fun o => o.map f) }) c

/-- Send a RELEASE to a holder (R96): 0 release, 1 kill, 2 steal, 3 held, 4 end as the audit finds (entry 13, DESIGN CHOICE). -/
def sendRelease (o : Owned) (id t f vel kind : Nat) (c : Chip) : Chip := sendLath 1 6 o.chip 0 [id, t, f, vel, kind] c

/-- A matched note-off acts on a voice that another chip holds. -/
def offRemote (id : Nat) (o : Owned) (t f vel : Nat) (c : Chip) : Chip :=
  let img := (((c.handle .template o.template).version o.version).map (fun v => v.image)).getD []
  if bit (field img 6 2) 3 then c
  else if bit (field img 6 2) 2 && c.pedalDown o.tenant o.note.channel then
    sendRelease o id t f vel 3 (modOwned id (fun o => { o with held := true, heldVel := vel }) c)
  else if o.released then c
  else sendRelease o id t f vel 0 (modOwned id (fun o => { o with released := true }) c)

/-- The note-on that a note-off matches (R71). -/
def Chip.matchNote (c : Chip) (tenant handle ch note : Nat) (key : List Nat) (kill : Bool) : Option NoteOn :=
  let ok := c.hawk.notes.filter (fun x => x.tenant == tenant && x.handle == handle && x.channel == ch && x.note == note &&
    !x.off && keyLt x.key key && (kill || !x.oneShot))
  bestBy (fun a b => keyLt a.key b.key) ok

/-- The first frame whose boundary is not before a tick. -/
def Chip.frameFrom (c : Chip) (t : Nat) : Nat := (t + c.bsize - 1) / c.bsize

/-- A kill of one voice at tick `t` (R73, R397). -/
def killVoice (n t reason : Nat) (c : Chip) : Chip :=
  match c.voice n with
  | none => c
  | some v => if v.state = .waiting then endVoice n reason t c
    else featherVoice n (c.frameFrom t) reason (echoMove n t 0 0 1 c)

/-- A note-off or KILL (R71, R397). -/
def applyNoteOff (e : Event) (ch note vel : Nat) (c : Chip) : Chip :=
  let p := e.r.point c.bsize
  let kill := entryKill e.r.entry
  match c.matchNote e.r.tenant (entryHandle e.r.entry) ch note (c.eventKey e.r) kill with
  | none => c
  | some x =>
    let c := modHawk (fun h => { h with notes := h.notes.map (fun y => if y.id = x.id then { y with off := true } else y) }) c
    let c := forEach x.voices (fun n c => if kill then killVoice n p.1 5 c else offVoice n p.1 p.2 vel c) c
    let c := forEach (c.remoteOwned.filter (fun o => o.2.noteOn == x.id)) (fun o c =>
      if kill then sendRelease o.2 o.1 p.1 p.2 vel 1 c else offRemote o.1 o.2 p.1 p.2 vel c) c
    settleNote x.id c

/-- Release every HELD voice of a channel at a sample (R72). -/
def releaseHeld (tenant ch t f : Nat) (c : Chip) : Chip :=
  let c := forEach c.voiceList (fun x c =>
    if x.2.held ∧ x.2.tenant = tenant ∧ x.2.note.channel = ch ∧ (x.2.home.isNone ∨ x.2.home = some c.me) then
      setRelease x.1 t f x.2.heldVel (modVoice x.1 (fun v => { v with held := false }) c) else c) c
  forEach (c.remoteOwned.filter (fun o => o.2.held && o.2.tenant == tenant && o.2.note.channel == ch)) (fun o c =>
    sendRelease o.2 o.1 t f o.2.heldVel 0 (modOwned o.1 (fun o => { o with held := false, released := true }) c)) c

/-- A channel controller takes its value at a tick (R72, R127). -/
def applyController (tenant ch number value t f : Nat) (pedal : Bool) (c : Chip) : Chip :=
  let old := (c.frame - 1) * c.bsize
  let key := ctlKey tenant ch number
  let c := modStipple (fun x => { x with controllers := tmod [] x.controllers key (addAt old t value) }) c
  if pedal && number == 64 then
    let down := decide (0x80000000 ≤ value)
    let c := modStipple (fun x => { x with pedals := tset false x.pedals (256 * tenant + ch) down }) c
    if down then c else releaseHeld tenant ch t f c
  else c

/-- A per-note controller acts on the voices of its note that came before it (R127, R397). -/
def applyPerNote (tenant handle ch note number value t : Nat) (key : List Nat) (c : Chip) : Chip :=
  let old := (c.frame - 1) * c.bsize
  forEach c.voiceList (fun x c =>
    if x.2.tenant = tenant ∧ x.2.handle = handle ∧ x.2.note.channel = ch ∧ x.2.note.note = note ∧
        (key.isEmpty ∨ keyLt x.2.key key) then
      modVoice x.1 (fun v => { v with perNote := tmod [] v.perNote number (addAt old t value) }) c else c) c

/-- Forward a controller to every chip that holds a voice of the tenant, group and channel (R127). -/
def forwardController (tenant handle ch note number value t f : Nat) (perNote : Bool) (c : Chip) : Chip :=
  let chips := ((c.remoteOwned.filter (fun o => o.2.tenant == tenant && o.2.note.channel == ch &&
    (!perNote || (o.2.handle == handle && o.2.note.note == note)))).map (fun o => o.2.chip)).eraseDups
  forEach chips (fun m c => sendLath 1 7 m 0 [if perNote then 1 else 0, tenant, handle, ch, note, number, value, t, f] c) c

/-- What makes two controller events the same controller (R498). -/
def controllerId (r : JRec) : Option (Nat × Nat × Nat × Nat × Nat) :=
  match eventKind r.entry with
  | .controller ch n _ => some (r.tenant, ch, n, 0, 0)
  | .perNote ch note n _ => some (r.tenant, ch, n, note + 1, entryHandle r.entry)
  | _ => none

/-- A controller's record becomes HOLDING and frees the earlier one (R498). -/
def holdController (e : Event) (c : Chip) : Chip :=
  let same := c.work.journal.recs.filterMap (fun x => match x.2 with
    | some r => if r.state = .holding ∧ controllerId r = controllerId e.r ∧ some x.1 ≠ e.place then some x.1 else none
    | none => none)
  keepEvent e (forEach same freeRecord c)

/-- Events other than note-ons take effect (R71, R72, R127, R397). -/
def applyEvent (e : Event) (c : Chip) : Chip :=
  let p := e.r.point c.bsize
  let hnd := entryHandle e.r.entry
  match eventKind e.r.entry with
  | .noteOn _ => c
  | .noteOff ch note vel => finishEvent e (applyNoteOff e ch note vel c)
  | .perNote ch note n v =>
    let c := applyPerNote e.r.tenant hnd ch note n v p.1 (c.eventKey e.r) c
    let c := forwardController e.r.tenant hnd ch note n v p.1 p.2 true c
    if c.isChainHandle hnd then finishEvent e c else holdController e c
  | .controller ch n v =>
    let c := applyController e.r.tenant ch n v p.1 p.2 true c
    holdController e (forwardController e.r.tenant hnd ch 0 n v p.1 p.2 false c)
  | .none => finishEvent e c

/-! ### Release start (R73) -/

/-- A voice whose release sample lies before `until_` enters RELEASING. -/
def startRelease (n until_ : Nat) (c : Chip) : Chip :=
  match c.voice n with
  | none => c
  | some v =>
    match v.pendingRelease with
    | none => c
    | some (t, f, vel) =>
      let r := if v.n0 + 1 ≤ t then (t, f) else (v.n0 + 1, 0)
      if r.1 < until_ ∧ v.state = .sounding then
        let c := modVoice n (fun v => { v with state := .releasing, released := true, held := false,
                                               pendingRelease := none, release := some (r.1, r.2, vel) }) c
        settleNote v.noteOn (releaseCursors n r.1 (syncFrame n c))
      else c

/-! ### Chain-wide placement (R93, R94) -/

/-- A member's digest; none has arrived when it is empty. -/
def Chip.digest (c : Chip) (m : Nat) : List Byte := tget [] c.hawk.digests m

/-- May a member hold the voice (R93)? -/
def Chip.memberEligible (c : Chip) (m : Nat) (v : Voice) (w : Nat) (refused : List Nat) : Bool :=
  let d := c.digest m
  !d.isEmpty && m != c.me && !refused.contains m && !bit (field d 1 1) 0 && bit (field d 1 1) 3 &&
  decide (w ≤ field d (0x14 + 2 * v.tenant) 2) && bit ((c.voiceVersion v).holders) m

/-- Cores of this chip with at least `n` slots free outside the reserve. -/
def Chip.coresWith (c : Chip) (n : Nat) : Nat :=
  ((upTo 256).filter (fun k => decide (n ≤ c.coreSlots k - c.hawk.reserve - c.occupancy k))).length

/-- The best candidate score of the chip with g = 0, and its tenant (R92). -/
def Chip.bestScore (c : Chip) : Nat × Nat :=
  ((bestBy (fun (a b : Nat × Nat × Nat) => decide (b.1 < a.1) || (a.1 == b.1 && decide (a.2.2 < b.2.2)))
    ((c.voiceList.filter (fun x => c.eligible x.2)).map (fun x => (c.score x.2 16 0, x.2.tenant, x.2.lead)))).map
    (fun x => (x.1, x.2.1))).getD (0, 0)

/-- The chip that a home chooses for a voice (R93). -/
def Chip.chooseChip (c : Chip) (v : Voice) (w : Nat) (refused : List Nat) : Nat :=
  let members := (tkeys c.hawk.digests 0 128).filter (fun m => c.memberEligible m v w refused)
  let free (m : Nat) : Nat := if m = c.me then c.freeSlots else field (c.digest m) 4 2
  let cores (m : Nat) : Nat := if m = c.me then c.coresWith w else field (c.digest m) (8 + 2 * (w - 1)) 2
  let best (m : Nat) : Nat := if m = c.me then c.bestScore.1 else field (c.digest m) 0x10 2
  let all := (if refused.contains c.me then [] else [c.me]) ++ members
  let pick (f : Nat → Nat) (l : List Nat) : Option Nat :=
    bestBy (fun a b => decide (f b < f a) || (f a == f b && (decide (c.hopsTo a < c.hopsTo b) ||
      (c.hopsTo a == c.hopsTo b && decide (a < b))))) l
  let roomy := all.filter (fun m => decide (0 < cores m))
  ((if roomy.isEmpty then pick best all else pick free roomy)).getD c.me

/-- Subtract a placement from the working copy of a digest (R93). -/
def takeFromDigest (m t w : Nat) (c : Chip) : Chip :=
  modHawk (fun h => { h with digests := tmod [] h.digests m (fun d =>
    let d := patch d 4 (leBytes 2 (field d 4 2 - w))
    patch d (0x14 + 2 * t) (leBytes 2 (field d (0x14 + 2 * t) 2 - w))) }) c

/-- The fields of a placement order (R94). Entry 13, DESIGN CHOICE. -/
def orderFields (v : Voice) (hash : Nat) : List Nat :=
  [v.id, hash, v.zone, v.handle, v.template, v.tenant, v.origin.chip, v.origin.esq, v.origin.seq, v.note.channel,
   v.note.note, v.note.velocity, v.note.attr, v.note.attrType, ofInt 32 v.pitch, v.level, v.onsetTick, v.onsetFrac,
   if v.late then 1 else 0]

/-- The ownership entry of a voice of a chain-wide layer (R96). -/
def ownEntry (c : Chip) (v : Voice) (chip lead : Nat) : Owned :=
  { chip := chip, lead := lead, tenant := v.tenant, key := v.key, origin := v.origin, noteOn := v.noteOn, note := v.note,
    handle := v.handle, template := v.template, version := v.version, zone := v.zone, group := c.groupOf v,
    weight := c.weight (c.voiceImage v), onsetTick := v.onsetTick, onsetFrac := v.onsetFrac, late := v.late,
    released := v.pendingRelease.isSome, held := v.held, heldVel := v.heldVel }

/-- The home sends a voice to another chip: it leaves this chip's table and becomes an ownership entry (R94, R96). -/
def sendPlacement (n m : Nat) (c : Chip) : Chip :=
  match c.voice n with
  | none => c
  | some v =>
    let c := takeFromDigest m v.tenant (c.weight (c.voiceImage v)) c
    let c := sendLath 1 3 m 0 (orderFields v (c.voiceVersion v).hash) c
    let o := ownEntry c v m 0
    let c := modHawk (fun h => { h with voices := tset none h.voices n none, owned := tset none h.owned v.id (some o),
                                        starts := h.starts.filter (fun s => s.voice != n), chainPlaced := h.chainPlaced + 1 }) c
    let c := match v.pendingRelease with
      | some (t, f, vel) => sendRelease o v.id t f vel 0 c
      | none => c
    settleNote v.noteOn c

/-- The places an ownership entry may still take (R96). -/
def ownershipFull (c : Chip) : Bool := decide (262144 ≤ c.hawk.owned.length)

/-! ### Starting one voice (R29, R79, R286) -/

/-- The start of a voice is settled. -/
def dropStart (n : Nat) (c : Chip) : Chip := modHawk (fun h => { h with starts := h.starts.filter (fun s => s.voice != n) }) c

/-- An excess start is carried to the next frame with LATE (R29). -/
def carryStart (n k : Nat) (c : Chip) : Chip :=
  let c := modVoice n (fun v => { v with late := true }) c
  modHawk (fun h =>
    let it := h.starts.filter (fun s => s.voice == n)
    let rest := h.starts.filter (fun s => s.voice != n)
    let moved := it.map (fun s => { s with frame := k + 1, immediate := true, carried := true })
    if it.any (fun s => s.carried) then
      { h with starts := h.starts.map (fun s => if s.voice = n then { s with frame := k + 1 } else s) }
    else { h with starts := rest.filter (fun s => s.carried) ++ moved ++ rest.filter (fun s => !s.carried) }) c

/-- Attempt one start in frame `k` (R79, R90, R93, R123, R286). -/
def attempt (k : Nat) (boundary : Bool) (st : Start) (c : Chip) : Chip × Settled :=
  let n := st.voice
  let c := when_ st.immediate (modVoice n (fun v => { v with onsetTick := k * c.bsize, onsetFrac := 0 })) c
  match c.voice n with
  | none => (c, .denied)
  | some v =>
    if v.control then startControl n k c
    else
      let cur := cursorNeed (c.voiceImage v)
      if c.cursorShort v.tenant cur then
        if st.cursorShort then
          let excess := decide (c.num (Obj.tenantQuotaStreamCursors v.tenant) < c.cursorsUsed v.tenant + cur)
          (denyVoice n (when_ excess (raise v.tenant 36) (bump Obj.hodCountersCursorDenied c)), .denied)
        else (modHawk (fun h => { h with starts := h.starts.map (fun s => if s.voice = n then { s with cursorShort := true } else s) }) c, .excess)
      else if v.home = some c.me ∧ ownershipFull c ∧ !st.ordered then (denyVoice n c, .denied)
      else if v.home = some c.me ∧ c.isMember ∧ !st.ordered then
        let w := c.weight (c.voiceImage v)
        let m := c.chooseChip v w []
        if m = c.me then placeHere n k boundary st v c
        else if startBound c.bsize ≤ c.hawk.chainPlaced then (c, .excess)
        else (sendPlacement n m (choke n k v c), .placed)
      else placeHere n k boundary st v c

/-- Settle one start in frame `k`. -/
def runStart (k : Nat) (boundary : Bool) (st : Start) (c : Chip) : Chip :=
  let n := st.voice
  match c.voice n with
  | none => dropStart n c
  | some v =>
    let made := if v.control then tget 0 c.hawk.controlStarted k else tget 0 c.hawk.started k
    if startBound c.bsize ≤ made then carryStart n k c
    else
      let r := attempt k boundary st c
      let c := r.1
      match r.2 with
      | .placed =>
        let c := choke n k v c
        let c := if v.control then modHawk (fun h => { h with controlStarted := tset 0 h.controlStarted k (made + 1) }) c
          else modHawk (fun h => { h with started := tset 0 h.started k (tget 0 h.started k + 1) }) c
        let c := match c.voice n with
          | some v =>
            let c := when_ (v.home == some c.me) (fun c => modHawk (fun h =>
              { h with owned := tset none h.owned v.id (some (ownEntry c v c.me v.lead)) }) c) c
            if st.carried then lateStart n v.onsetTick c
            else if v.late then
              if st.ordered || v.origin.chip ≠ c.me then lateStart n v.onsetTick c else bump Obj.hawkCountersLateStarts c
            else c
          | none => c
        dropStart n c
      | .denied => dropStart n (choke n k v c)
      | .excess => carryStart n k c
      | .deferred => c

/-- The starts of frame `k` at its boundary in their order (R29). -/
def Chip.boundaryStarts (c : Chip) (k : Nat) : List Start :=
  let due := c.hawk.starts.filter (fun s => decide (s.frame ≤ k))
  let byOrder (l : List Start) : List Start := l.sortBy (fun a b => decide (a.order ≤ b.order))
  due.filter (fun s => s.carried) ++ byOrder (due.filter (fun s => !s.carried && s.immediate)) ++
    byOrder (due.filter (fun s => !s.carried && !s.immediate))

/-- The starts that the lookahead pass for frame `k` may make: accepted before frame k - 1 began (R24). -/
def Chip.lookaheadStarts (c : Chip) (k : Nat) : List Start :=
  let due := c.hawk.starts.filter (fun s => s.frame == k)
  due.filter (fun s => s.carried) ++
    (due.filter (fun s => !s.carried && !s.immediate && decide (s.accepted < (k - 1) * c.bsize))).sortBy
      (fun a b => decide (a.order ≤ b.order))

end Sys2Proof.Machine
end

