-- ==== Sys2Proof/Machine/VoicePass.lean ====
section
/-!
DEFINITION. The task board: the run list of a frame, voice passes with their kernel instances, effects tasks, and
what happens to a pass that does not finish (R66, R70, R163 to R166, R193, R226, R478).
-/

namespace Sys2Proof.Machine

/-! ### The kernel work area (R151) -/

/-- Places in a core's local memory: work buffers, lanes, voice output. -/
def workBase : Nat := 0x10000
def laneBase : Nat := 0x10400
def voiceOut : Nat := 0x10C00

/-- The lead voice of a chip slot. -/
def Chip.leadVoice (c : Chip) (lead : Nat) : Option (Nat × Voice) :=
  c.voiceList.find? (fun x => x.2.slots.head? == some lead)

/-- First sample to render in frame `k` (R165). -/
def firstSample (c : Chip) (k : Nat) (v : Voice) : Nat :=
  if v.n0 / c.bsize = k then v.n0 % c.bsize else 0

/-- The table partition of a gang, by relative address. -/
def Chip.tables (c : Chip) (gang : Nat) : List (Nat × Byte) :=
  let lo := memScratch gang (c.table0 - 0x200000)
  (c.mem.filter (fun x => decide (lo ≤ x.1) && decide (x.1 < lo + c.trowel.tableBytes))).map (fun x => (x.1 - lo, x.2))

/-- The frame as a kernel may use it: what depends only on the place of the voice reads 0 (R70). -/
def kernelFrame (bs : List Byte) : List Byte := patch (patch bs 0 (zeros 2)) 0x36 (zeros 10)

/-- One ROM kernel instance runs over the frame (R66 to R70). Entry 10, DESIGN CHOICE. -/
def runKernel (n k i : Nat) (d : Desc) (w : Nat) (c : Chip) : Chip :=
  match c.voice n with
  | none => c
  | some v =>
    let core := v.lead / 64
    let here (ofs : Nat) : Nat := memLocal core ofs
    let combIx := ((descs (c.voiceImage v)).take i).countP (fun x => x.kernel == 0x08)
    let line := if d.kernel = 0x08 then v.combs.getD combIx [] else []
    let win := if d.kernel = 0x04 then
        (match c.cursor (v.cursors.getD (d.aux % 4) 0xFFFF) with
          | some x => tgets 0 x.window 0 (x.w * x.channels) | none => []) else []
    let r (part : Nat) : List Byte := Config.kernel part ⟨w, c.fs, c.bsize, firstSample c k v,
      kernelFrame (c.bytesAt v.framePlace 1024), c.bytesAt (here workBase) 4096, c.tables (core / 16), line, win⟩
    let f := kernelFigures d.prec d.kernel
    let state := slice (r 0) 0 f.2.2
    let buf (part : Nat) : List Byte := slice (r part) 0 256
    let out := buf 1
    let out2 := buf 2
    let lanes := slice (r 3) 0 2048
    let l := buf 4
    let rr := buf 5
    let line' := slice (r 6) 0 line.length
    let c := writeBytes (v.framePlace + 4 * d.stateOfs) state c
    let c := if d.kernel = 0x0B then writeBytes (here laneBase) lanes c
      else if d.kernel = 0x0A then
        when_ (bit (field (c.voiceImage v) 6 2) 0) (writeBytes (here (voiceOut + 0x100)) rr) (writeBytes (here voiceOut) l c)
      else
        let c := writeBytes (here (workBase + 0x100 * d.out)) out c
        when_ (d.kernel == 0x04 && bit d.sub 7) (writeBytes (here (workBase + 0x100 * (d.out + 1))) out2) c
    when_ (d.kernel == 0x08) (modVoice n (fun v => { v with combs := setAt v.combs combIx line' })) c

/-- The registers of a USER instance (R165). -/
def instanceRegs (c : Chip) (k : Nat) (v : Voice) (i : Nat) (d : Desc) : Regs :=
  let p0 := v.lead % 64 * 0x400
  let buf (en n : Nat) : Nat := if en = 0 then 0x10E00 else workBase + 0x100 * n
  let ps := [p0, workBase, p0 + 0x40 + 8 * i, p0 + 4 * d.paramOfs, p0 + 4 * d.stateOfs, buf d.inAEn d.inA, buf d.inBEn d.inB,
             workBase + 0x100 * d.out]
  { x := tset 0 (tset 0 (tset 0 [] 0 (BitVec.ofNat 16 c.bsize)) 1 (BitVec.ofNat 16 (firstSample c k v))) 2 (BitVec.ofNat 16 d.prec),
    p := tsets 0 [] 0 (ps.map (BitVec.ofNat 24)), lc := BitVec.ofNat 16 c.bsize }

/-! ### The end of a pass (R65, R164) -/

/-- FEATHER_LEFT and FEATHER_GAIN after a frame (R73, R87). -/
def Voice.featherStep (b : Nat) (v : Voice) : Voice :=
  if v.state = .feathering then
    let left := v.featherLeft - b
    { v with featherLeft := left, gain := v.gain0 * left / max 1 v.featherLen }
  else v

/-- The gain of a feathering voice at sample `j` of the frame (R87). -/
def Voice.gainAt (v : Voice) (b k j : Nat) : Nat × Nat :=
  if v.state = .feathering then
    (if v.gain0 = 0x7FFF then 32768 * (v.featherLeft - 1 - j) else v.gain0 * (v.featherLeft - 1 - j), max 1 v.featherLen)
  else if v.rise = some k then (32768 * (j + 1), b)
  else (if v.gain = 0x7FFF then 32768 else v.gain, 1)

/-- The place of an output sample in a gang's output partition. Entry 49, DESIGN CHOICE. -/
def outputPlace (lead k ch i : Nat) : Nat :=
  memScratch (lead / 64 / 16) ((lead / 64 % 16 * 64 + lead % 64) * 1024 + k % 2 * 512 + ch * 256 + 4 * i)

/-- A Q23 sample of the voice output area. Entry 49, DESIGN CHOICE. -/
def Chip.voiceSample (c : Chip) (core ch i : Nat) : Int :=
  toSigned 32 (leNat (c.bytesAt (memLocal core (voiceOut + 0x100 * ch + 4 * i)) 4))

/-- A shadow's frame is complete: READY to the source, or to this chip's own migration (R100, R292). -/
def shadowReady (n k : Nat) (c : Chip) : Chip :=
  let dry := c.cursorList.any (fun x => x.2.voice == n && x.2.underrun)
  if dry then c
  else
    let c := modHawk (fun h => { h with migOut := h.migOut.map (fun m =>
      if m.localCopy = some n ∧ m.frame = k ∧ m.resolved ≠ some false then { m with ready := true } else m) }) c
    match c.hawk.migIn.find? (fun m => m.voice == n && m.frame == k && !m.ready), c.voice n with
    | some m, some v => sendLath 2 1 m.source 0 [v.id]
        (modHawk (fun h => { h with migIn := h.migIn.map (fun x => if x.voice = n then { x with ready := true } else x) }) c)
    | _, _ => c

/-- After the last instance: LAST, PEAK, the feather gain, and the push (R164). -/
def finishPass (n k : Nat) (c : Chip) : Chip :=
  match c.voice n with
  | none => c
  | some v =>
    let img := c.voiceImage v
    let core := v.lead / 64
    let stereo := bit (field img 6 2) 0
    let l := (upTo c.bsize).map (c.voiceSample core 0)
    let r := if stereo then (upTo c.bsize).map (c.voiceSample core 1) else []
    let peak := ((l ++ r).map Int.natAbs).foldl max 0
    let quiet := v.incoming || v.shadow
    let push (ch : Nat) (xs : List Int) (c : Chip) : Chip :=
      forEach xs.zipIdx (fun x c =>
        let g := v.gainAt c.bsize k x.2
        writeBytes (outputPlace v.lead k ch x.2) (leBytes 4 (ofInt 32 (Int.fdiv (x.1 * g.1) (32768 * g.2)))) c) c
    let c := if quiet then c else
      addRendered { frame := k, lead := v.lead, tenant := v.tenant, stereo := stereo,
                    sends := v.sends, putty := none } (push 1 r (push 0 l c))
    let c := modVoice n (fun v => { v with lastL := l.getLast?.getD 0, lastR := r.getLast?.getD 0, peak := peak, passed := true }) c
    when_ v.incoming (shadowReady n k) (syncFrame n c)

/-- A voice's output for the frame is putty (R478); a shadow has none. -/
def puttyPass (n k : Nat) (c : Chip) : Chip :=
  match c.voice n with
  | some v =>
    let c := modVoice n (fun v => { v with passed := true }) c
    let c := if v.incoming || v.shadow then c else addRendered (puttyOf c k v) c
    modHawk (fun h =>
      { h with migOut := h.migOut.map (fun m => if (m.voice = n ∨ m.localCopy = some n) ∧ (k = m.frame ∨ k = m.frame + 1) then { m with ready := false, resolved := some false } else m),
               migIn := h.migIn.map (fun m => if m.voice = n then { m with lost := true } else m) }) c
  | none => c

/-! ### Running the list (R163, R193) -/

/-- The frame whose work a core runs. -/
def Chip.workFrame (c : Chip) : Nat := c.hawk.boundaryDone - 1

/-- Run the instances of a voice from instance `i` on, up to a USER instance or the end of the pass.
Entry 17, DESIGN CHOICE. -/
def runInstances (core n lead k : Nat) : List (Nat × Desc × Nat) → Chip → Chip
  | [], c => modCore core (fun r => { r with running := .nothing }) (finishPass n k c)
  | (i, d, w) :: rest, c =>
    if d.kernel = 0x3F then
      match c.voice n with
      | none => c
      | some v =>
        let c := startAt (4 * core) (instanceRegs c k v i d) d.aux c
        let c := modThread (4 * core) (fun t => { t with state := .run }) c
        modCore core (fun r => { r with running := .voice lead i true, doneAt := false }) c
    else runInstances core n lead k rest (runKernel n k i d w c)

/-- The instances of an image with their places and words. -/
def instances (img : List Byte) : List (Nat × Desc × Nat) :=
  ((descs img).zipIdx).map (fun x => (x.2, x.1, field img (0x40 + 8 * x.2) 8))

/-- The instances as the frame in memory holds them. -/
def Chip.frameInstances (c : Chip) (v : Voice) : List (Nat × Desc × Nat) :=
  instances (c.bytesAt v.framePlace 0xC0)

/-- A voice pass begins: the work buffers and the voice output are cleared, thread 0's flags too (R66, R164, R206). -/
def beginPass (core n lead k : Nat) (c : Chip) : Chip :=
  match c.voice n with
  | none => c
  | some v =>
    let c := clearMem (memLocal core workBase) (memLocal core (workBase + 0x400)) c
    let c := clearMem (memLocal core voiceOut) (memLocal core (voiceOut + 0x200)) c
    let c := modThread (4 * core) (fun t => { t with ef := 0 }) c
    let c := modCore core (fun r => { r with running := .voice lead 0 false }) c
    runInstances core n lead k (c.frameInstances v) c

/-- The instances after the one a voice's pass stands at. -/
def resumePass (core lead i k : Nat) (c : Chip) : Chip :=
  match c.leadVoice lead with
  | none => modCore core (fun r => { r with running := .nothing }) c
  | some (n, v) => runInstances core n lead k ((c.frameInstances v).filter (fun x => decide (i < x.1))) c

/-- Has thread 0 nothing left to do in what it runs? -/
def CoreRun.free (r : CoreRun) : Bool :=
  match r.running with
  | .nothing => true
  | .voice _ _ user => !user || r.doneAt
  | .task _ => r.doneAt

/-- Go on along a core's run list until a USER instance, an effects task or the end of the list, at most `fuel` entries. -/
def runList (core k : Nat) : Nat → Chip → Chip
  | 0, c => c
  | fuel + 1, c =>
    let r := c.core core
    if !r.free then c
    else match r.running with
      | .voice lead i true => runList core k fuel (resumePass core lead i k (modCore core (fun r => { r with running := .voice lead i false, doneAt := false }) c))
      | _ =>
        match r.voices, r.tasks with
        | lead :: rest, _ =>
          let c := modCore core (fun r => { r with voices := rest, running := .nothing, doneAt := false }) c
          (match c.leadVoice lead with
            | some (n, _) => runList core k fuel (beginPass core n lead k c)
            | none => runList core k fuel c)
        | [], t :: rest => enterTask core t (modCore core (fun r => { r with tasks := rest, running := .nothing, doneAt := false }) c)
        | [], [] => modThread (4 * core) (fun t => { t with state := .idle }) (modCore core (fun r => { r with running := .nothing }) c)

/-- Entries of the longest run list. Entry 17, DESIGN CHOICE. -/
def runFuel : Nat := 2048

/-- Is a voice resident in frame `k` (R163)? -/
def Chip.resident (c : Chip) (k : Nat) (v : Voice) : Bool :=
  match v.state with
  | .waiting => false
  | .placed => if v.incoming then true else decide (v.n0 / c.bsize ≤ k)
  | _ => true

/-- The task board builds a core's run list at the frame strobe and goes along it (R163). -/
def dispatchCore (k core : Nat) (c : Chip) : Chip :=
  if (c.core core).inReset || (c.core core).tripped then c
  else
    let leads := (((c.coreVoices core).filter (fun x => c.resident k x.2 && !x.2.control)).map (fun x => x.2.lead)).sortBy
      (fun a b => decide (a ≤ b))
    let tasks := (c.coreTasks core).sortBy (fun a b =>
      decide (c.num (Obj.trowelTaskPriority a) < c.num (Obj.trowelTaskPriority b)) ||
      (c.num (Obj.trowelTaskPriority a) == c.num (Obj.trowelTaskPriority b) && decide (a ≤ b)))
    if leads.isEmpty && tasks.isEmpty then c
    else runList core k runFuel (modCore core (fun r => { r with voices := leads, tasks := tasks, running := .nothing, doneAt := false }) c)

/-- The cores that have voices or effects tasks, rising. -/
def Chip.activeCores (c : Chip) : List Nat :=
  (((c.voiceList.filterMap (fun x => x.2.core)) ++
    ((tkeys c.trowel.tasks 0 1024).map (fun t => c.num (Obj.trowelTaskCore t)))).eraseDups).sortBy (fun a b => decide (a ≤ b))

/-- The task board starts every active core (R163). -/
def dispatchAll (k : Nat) (c : Chip) : Chip := forEach c.activeCores (dispatchCore k) c

/-! ### Events of the task board -/

/-- The far-store queue has drained and earlier instructions are complete: the task board goes on (R193).
Entry 17, DESIGN CHOICE. -/
def execInstanceEntry (core : Fin 256) (s : State) : Host.Outcome State Fault Refusal :=
  s.onChip (fun c => when_ (c.core core.val).free (runList core.val c.workFrame runFuel) c)

/-- Thread 0 leaves what it runs: its pipeline drains and its flags are cleared. -/
def stopThread0 (core : Nat) (c : Chip) : Chip :=
  modThread (4 * core) (fun t => { t.drain with state := .idle, wait := .none, delay := none, loop := none, rpt := 0,
                                                shadow := none, ef := 0 }) c

/-- The pass a core runs is abandoned with putty, and the run list goes on (R165, R166, R223). -/
def abandonPass (core lead : Nat) (c : Chip) : Chip :=
  let k := c.workFrame
  let c := match c.leadVoice lead with | some (n, _) => puttyPass n k c | none => c
  let c := stopThread0 core (modCore core (fun r => { r with running := .nothing, doneAt := false }) c)
  runList core k runFuel c

/-- USER_OVERRUN: a voice's USER instances have spent USER_COST × B cycles: the pass is abandoned and counted in the
owning tenant's log (R165). Entry 56, DESIGN CHOICE. -/
def execUserOverrun (core : Fin 256) (s : State) : Host.Outcome State Fault Refusal :=
  s.onChip (fun c =>
    match (c.core core.val).running with
    | .voice lead _ true =>
      (match c.leadVoice lead with
       | some (_, v) => abandonPass core.val lead (snag 0x1008 v.lead v.tenant c)
       | none => c)
    | _ => c)

/-- A fault in a voice pass: putty, an entry to the owner, and the voice ends with FAULT at the next boundary (R166). -/
def passFault (code core lead : Nat) (c : Chip) : Chip :=
  match c.leadVoice lead with
  | none => c
  | some (n, v) =>
    let c := snag code v.lead v.tenant c
    let k := c.workFrame
    abandonPass core lead (modVoice n (fun v => { v with endAt := some (k + 1, 9) }) c)

/-- A cut task: its Cuts go up and it stops where it stands (R477). -/
def cutTask (core t : Nat) (c : Chip) : Chip :=
  stopThread0 core (modCore core (fun r => { r with running := .nothing, doneAt := false }) (bump (Obj.trowelTaskCuts t) c))

/-- A voice whose first pass was not reached starts again at the next frame (R478). -/
def restartLate (n k : Nat) (c : Chip) : Chip :=
  match c.voice n with
  | some v =>
    if v.n0 / c.bsize = k ∧ !v.incoming ∧ !v.passed then
      let tick := (k + 1) * c.bsize
      lateStart n tick (syncFrame n (modVoice n (fun v =>
        { v with state := .placed, late := true, onsetTick := tick, onsetFrac := 0, modFrame := k + 1,
                 mods := { v.mods with gens := v.mods.gens.map (fun g =>
                   Gen.begin g.def_ (256 * tick) g.id g.scale) } }) c))
    else c
  | none => c

/-- End a core's frame-`k` work at the deadline (R477, R478): whether a voice pass was missed. -/
def cutCore (k core : Nat) (c : Chip) : Bool × Chip :=
  let r := c.core core
  let missed := (match r.running with | .voice lead _ _ => if r.free then [] else [lead] | _ => []) ++ r.voices
  let unreached := r.voices
  let c := match r.running with
    | .task t => if r.free then c else cutTask core t c
    | .voice _ _ _ => stopThread0 core c
    | .nothing => c
  let c := modCore core (fun r => { r with voices := [], tasks := [], running := .nothing, doneAt := false }) c
  let c := forEach missed (fun lead c =>
    match c.leadVoice lead with
    | some (n, _) =>
      let c := when_ (unreached.contains lead) (restartLate n k) c
      puttyPass n k c
    | none => c) c
  (!missed.isEmpty, c)

end Sys2Proof.Machine
end

