-- ==== Sys2Proof/Machine/TrowelFault.lean ====
section
/-!
DEFINITION. Core faults, and the issue of one instruction (R166, R173, R226).
-/

namespace Sys2Proof.Machine

/-! ### Core faults and retirement (R226 to R228) -/

/-- A voice on a core that no longer executes: putty for one frame, then FAULT (R103). -/
def loseVoice (n : Nat) (c : Chip) : Chip :=
  let k := c.frame
  match c.voice n with
  | some v =>
    if v.state = .waiting then c
    else if v.passed then modVoice n (fun v => { v with endAt := some (k + 1, 9) }) c
    else modVoice n (fun v => { v with endAt := some (k + 1, 9) }) (puttyPass n k c)
  | none => c

/-- The voices of a core ask to be moved (R103): 0 retirement, 1 thermal, 4 reset. -/
def askMoves (core cause : Nat) (c : Chip) : Chip :=
  let ns := ((c.coreVoices core).filter (fun x => !x.2.control && x.2.state != .feathering)).map Prod.fst
  let new := ns.map (fun n => ({ voice := n, frame := c.frame + 1, chip := none, core := none, attempts := 0, cause := cause } : MigAsk))
  modHawk (fun h => { h with asks := h.asks.filter (fun a => !ns.contains a.voice) ++ new }) c

/-- Every thread of a core goes OFF, its tasks are disabled, its leases revoked. -/
def quellCore (core : Nat) (c : Chip) : Chip :=
  let c := forEach (c.coreTasks core) disableTask c
  forEach (upTo 4) (fun t c => threadOff (4 * core + t) c) c

/-- A core is retired (R228); `alive` while it still executes. -/
def retireCore (core : Nat) (alive : Bool) (c : Chip) : Chip :=
  if c.flag (Obj.trowelCoreRetired core) then c
  else
    let c := snag 0x100B core 0xFF c
    let c := if alive then askMoves core 0 c else forEach ((c.coreVoices core).map Prod.fst) loseVoice c
    let c := forEach (c.coreTasks core) disableTask c
    let c := if alive then forEach [1, 2, 3] (fun t c => threadOff (4 * core + t) c) (revokeThread (4 * core) c)
      else modCore core (fun r => { r with voices := [], tasks := [], running := .nothing }) (quellCore core c)
    setNum (Obj.trowelCoreClockMHz core) 0 (setNum (Obj.trowelCoreRetired core) 1 c)

/-- A fault that counts toward retirement: the third in 10 s retires the core (R228). -/
def countFault (core : Nat) (c : Chip) : Chip :=
  let c := bump (Obj.trowelCoreHwFaults core) c
  let recent := (c.core core).faults.filter (fun t => decide (c.now < t + 10000000000))
  let c := modCore core (fun r => { r with faults := c.now :: recent }) c
  when_ (decide (2 ≤ recent.length)) (retireCore core true) c

/-- A voice whose frame holds an uncorrectable word of a core ends with FAULT (R226). -/
def endBadFrames (core : Nat) (c : Chip) : Chip :=
  forEach (c.coreVoices core) (fun x c =>
    if c.badAt x.2.framePlace 0x400 then modVoice x.1 (fun v => { v with endAt := some (c.workFrame + 1, 9) }) c else c) c

/-- A MEMORY fault: what the thread runs is skipped for the frame, and the fault counts toward retirement (R226, R300). -/
def memoryFault (k : Nat) (c : Chip) : Chip :=
  let core := k / 4
  let c := endBadFrames core c
  let c := match c.taskOf k with
    | some t =>
      let c := snag codeMemory core (c.taskOwner t) c
      if k % 4 = 0 then runList core c.workFrame runFuel
        (stopThread0 core (modCore core (fun r => { r with running := .nothing, doneAt := false }) c))
      else modThread k (fun t => { t.drain with state := .idle, wait := .none, ef := 0, delay := none, loop := none, rpt := 0,
                                                shadow := none, restart := true }) (revokeThread k c)
    | none =>
      match (if k % 4 = 0 then (c.core core).running else .nothing) with
      | .voice lead _ true =>
        (match c.leadVoice lead with
         | some (_, v) => abandonPass core lead (snag codeMemory core v.tenant c)
         | none => c)
      | _ => c
  countFault core c

/-- A fault ends what the thread runs: a voice pass is abandoned and its voice ends, an effects task is disabled, a
thread 1 to 3 goes OFF and its task is disabled; each with its snag entry (R166, R226).  Core code that belongs to
neither loses only the access. -/
def coreFault (code k : Nat) (c : Chip) : Chip :=
  if code = codeMemory then memoryFault k c
  else match c.taskOf k with
  | some t =>
    let c := snag code t (c.taskOwner t) c
    disableTask t (if k % 4 = 0 then c else threadOff k c)
  | none =>
    match (if k % 4 = 0 then (c.core (k / 4)).running else .nothing) with
    | .voice lead _ true => passFault code (k / 4) lead c
    | _ => c

/-- Does the instruction at PC stand in an uncorrectable word of program memory (R300)? Entry 9, DESIGN CHOICE. -/
def Chip.badFetch (c : Chip) (k : Nat) : Bool :=
  let pc := (c.thread k).pc.toNat
  decide (pc < 0x3000) && c.badAt (memProgram (k / 4) (4 * pc)) 4

/-- One instruction issues; the fetch of an uncorrectable word is a NOP and a MEMORY fault (R300).  Its legality is judged from what ID sees, its writes join the pending ones, and the
program goes on (R159, R173). Entry 9, DESIGN CHOICE. -/
def issue (k : Nat) (legal : Views → Bool) (f : Views → Chip → Effect) (c : Chip) : Chip :=
  let v := c.views k
  if c.badFetch k then coreFault codeMemory k (modThread k (fun t => (t.flow .seq).settle) c)
  else if !legal v then coreFault codeIllegal k c
  else
    let e := f v c
    let c := modThread k (fun t => ((landWrites t e.writes).flow e.flow).settle) e.chip
    match e.fault with
    | some code => coreFault code k c
    | none => if fetchable (c.thread k).pc.toNat then c else coreFault codeFetch k c

/-- An instruction of the block's Trowel rows: the named thread issues it at its PC (entry 9, DESIGN CHOICE). -/
def State.issue (s : State) (t : Thr) (legal : Views → Bool) (f : Views → Chip → Effect) :
    Host.Outcome State Fault Refusal :=
  s.onChip (Machine.issue (thrKey t) legal f)

end Sys2Proof.Machine
end

