-- ==== Sys2Proof/Machine/TrowelBoard.lean ====
section
/-!
DEFINITION. Effects tasks and code loads, thread modes, the all-wait detector, core faults and retirement, thermal
clock steps, and global generators (R36, R129, R167 to R169, R222 to R230, R564 to R566).
-/

namespace Sys2Proof.Machine

/-! ### QUIET (R547) -/

/-- Is the chip in QUIET? -/
def Chip.quiet (c : Chip) : Bool := c.num Obj.powerState == 1

/-- The chip leaves QUIET (R547). -/
def quietExit (c : Chip) : Chip := when_ c.quiet (setNum Obj.powerState 0) c

/-! ### Effects tasks (R151, R152, R167, R414) -/

/-- The local regions that tasks share: from and up to (R151). -/
def Chip.taskRegions (c : Chip) : List (Nat × Nat) :=
  if 4 ≤ c.time.rate then [(0x8000, 0x10000), (0x11400, 0x14000)] else [(0x11400, 0x14000)]

/-- The lowest place of `n` octets in a region that overlaps none of the used ones. Entry 55, DEDUCED. -/
def lowestGap (used : List (Nat × Nat)) (lo hi n : Nat) : Option Nat :=
  let starts := (lo :: (used.map (fun u => u.1 + u.2))).sortBy (fun a b => decide (a ≤ b))
  starts.find? (fun a => decide (lo ≤ a) && decide (a + n ≤ hi) &&
    used.all (fun u => u.2 == 0 || n == 0 || decide (a + n ≤ u.1) || decide (u.1 + u.2 ≤ a)))

/-- Exchange channels whose buffers lie in a gang, with their addresses. -/
def Chip.gangBuffers (c : Chip) (gang : Nat) : List Nat :=
  ((tkeys c.nums (Obj.skimExchangeAddr 0) (Obj.skimExchangeAddr 512)).filter (fun o => objSubOf o == 3)).filterMap (fun o =>
    let x := objIndexOf o - 0x4000
    let t := c.num (Obj.skimExchangeTask x)
    if c.num (Obj.skimExchangeDir x) ≠ 0 ∧ c.num (Obj.trowelTaskCore t) / 16 = gang then some (c.num o) else none)

/-- The local areas of a core's enabled tasks, and the scratchpad areas of a gang's. -/
def Chip.localAreas (c : Chip) (core : Nat) : List (Nat × Nat) :=
  (c.coreTasks core).map (fun t => (c.num (Obj.trowelTaskLocalBase t), c.num (Obj.trowelTaskLocalBytes t)))
def Chip.scratchAreas (c : Chip) (gang : Nat) : List (Nat × Nat) :=
  (c.gangTasks gang).map (fun t => (c.num (Obj.trowelTaskScratchBase t), c.num (Obj.trowelTaskScratchBytes t))) ++
  (let bufs := c.gangBuffers gang
   bufs.map (fun a => (a, 1024)) ++ (if bufs.isEmpty then [] else [(0x3FFFC0, 64)]))

/-- EffectBytes in force (R152, R170). -/
def Chip.effectBytes (c : Chip) : Nat := 0x100000 - c.trowel.voiceBytes - c.trowel.tableBytes

/-- Octets of the local regions. -/
def Chip.taskRoom (c : Chip) : Nat := (c.taskRegions.map (fun r => r.2 - r.1)).sum

/-- Cycles of a tenant's enabled tasks per sample (R414). -/
def Chip.tenantCycles (c : Chip) (t : Nat) : Nat :=
  (((tkeys c.trowel.tasks 0 1024).filter (fun x => c.taskOwner x == t)).map (fun x => c.num (Obj.trowelTaskCycles x))).sum

/-- Are a core's tasks within the headroom of R35 at 1.60 GHz? -/
def Chip.cyclesFit (c : Chip) (core extra : Nat) : Bool :=
  decide (c.taskCycles core + extra ≤ headroomCycles c.time.rate 1600 c.rateSlots c.bsize)

/-- The bases that the task board assigns; where a sum fits but no gap does, the spec names no base (entry 6, DESIGN CHOICE).
Entry 55, DEDUCED. -/
def assignBases (t : Nat) (c : Chip) : Chip :=
  let core := c.num (Obj.trowelTaskCore t)
  let n := c.num (Obj.trowelTaskLocalBytes t)
  let m := c.num (Obj.trowelTaskScratchBytes t)
  let used := c.localAreas core
  let c := match c.taskRegions.findSome? (fun r => lowestGap used r.1 r.2 n) with
    | some a => setNum (Obj.trowelTaskLocalBase t) a c
    | none => let d := draw c; setNum (Obj.trowelTaskLocalBase t) d.1 d.2
  match lowestGap (c.scratchAreas (core / 16)) c.effects0 (c.effects0 + c.effectBytes) m with
  | some a => setNum (Obj.trowelTaskScratchBase t) a c
  | none => let d := draw c; setNum (Obj.trowelTaskScratchBase t) d.1 d.2

/-- The status of enabling a task (R167, R414). -/
def taskStatus (c : Chip) (t m : Nat) : Nat :=
  let core := c.num (Obj.trowelTaskCore t)
  let cyc := c.num (Obj.trowelTaskCycles t)
  if !c.may 0x14 core m 2 then St.noAccess
  else if !c.cyclesFit core cyc then St.refused
  else if c.taskRoom < ((c.localAreas core).map Prod.snd).sum + c.num (Obj.trowelTaskLocalBytes t) then St.refused
  else if c.effectBytes < ((c.scratchAreas (core / 16)).map Prod.snd).sum + c.num (Obj.trowelTaskScratchBytes t) then St.refused
  else St.ok

/-- Does the enable exceed the tenant's TaskCycles quota (R414)? -/
def taskQuota (c : Chip) (t m : Nat) : Bool :=
  match masterTenant m with
  | some n => decide (c.num (Obj.tenantQuotaTaskCycles n) * c.bsize < c.tenantCycles n + c.num (Obj.trowelTaskCycles t))
  | none => false

/-- Task.Enable 1 (R167). Entry 55, DEDUCED. -/
def taskEnableAct (t : Nat) : Act := chipAct (fun m c =>
  if c.flag (Obj.trowelTaskEnable t) then (c, St.ok)
  else
    let st := taskStatus c t m
    if st ≠ St.ok then (c, st)
    else if taskQuota c t m then (raise (m - 0x10) 36 c, St.refused)
    else
      let c := setNum (Obj.trowelTaskOwner t) ((masterTenant m).getD 0xFF) (assignBases t c)
      let c := modTrowel (fun w => { w with tasks := tput w.tasks t { enabledAt := w.enableCount }, enableCount := w.enableCount + 1 }) c
      (quietExit (setNum (Obj.trowelTaskEnable t) 1 c), St.ok))

/-- TASK_ENABLE. -/
def execTaskEnable (r : Req) (t : Fin 1024) (s : State) : Host.Outcome State Fault Refusal :=
  serveRow r (Obj.trowelTaskEnable t.val) [1] (taskEnableAct t.val) s

/-- Task.Enable 0. -/
def taskDisableAct (t : Nat) : Act := chipAct (fun _ c =>
  (if c.flag (Obj.trowelTaskEnable t) then disableTask t c else c, St.ok))

/-- TASK_DISABLE. -/
def execTaskDisable (r : Req) (t : Fin 1024) (s : State) : Host.Outcome State Fault Refusal :=
  serveRow r (Obj.trowelTaskEnable t.val) [0] (taskDisableAct t.val) s

/-- The most recently enabled of some tasks. -/
def Chip.newestTask (c : Chip) (ts : List Nat) : Option Nat :=
  bestBy (fun a b => decide ((tget {} c.trowel.tasks b).enabledAt < (tget {} c.trowel.tasks a).enabledAt)) ts

/-- Disable a core's or gang's newest tasks until the limits of R167 hold again, at most `fuel` of them. Entry 50, DEDUCED. -/
def trimTasks (core : Nat) : Nat → Chip → Chip
  | 0, c => c
  | fuel + 1, c =>
    let overCore := !c.cyclesFit core 0 || decide (c.taskRoom < ((c.localAreas core).map Prod.snd).sum)
    if overCore then
      match c.newestTask (c.coreTasks core) with
      | some t => trimTasks core fuel (disableTaskLogged t c)
      | none => c
    else if c.effectBytes < ((c.scratchAreas (core / 16)).map Prod.snd).sum then
      match c.newestTask (c.gangTasks (core / 16)) with
      | some t => trimTasks core fuel (disableTaskLogged t c)
      | none => c
    else c

/-- After a rate transition or a change of B (R167). -/
def trimAllTasks (c : Chip) : Chip :=
  forEach (((tkeys c.trowel.tasks 0 1024).map (fun t => c.num (Obj.trowelTaskCore t))).eraseDups) (fun core c => trimTasks core 1024 c) c

/-! ### Code loads (R169) -/

/-- The cores of Code.CoreMask. -/
def Chip.loadCores (c : Chip) : List Nat :=
  let m := leNat (c.blob Obj.trowelCodeCoreMask)
  (upTo 256).filter (fun n => bit m n)

/-- Does a thread, a resident USER instance or an enabled task stand in a range of a core's program (R169)? -/
def codeBusy (c : Chip) (core lo hi : Nat) : Bool :=
  let inRange (p : Nat) : Bool := decide (lo ≤ p) && decide (p < hi)
  (upTo 4).any (fun t => c.threadState (4 * core + t) != .off && (c.threadState (4 * core + t) != .idle) &&
    inRange (c.thread (4 * core + t)).pc.toNat) ||
  (c.coreVoices core).any (fun x => (descs (c.voiceImage x.2)).any (fun d => d.kernel == 0x3F && inRange d.aux)) ||
  (c.coreTasks core).any (fun t => inRange (c.num (Obj.trowelTaskEntry t)))

/-- Code.Load 1 (R169). Entry 55, DEDUCED. -/
def codeLoadAct : Act := chipAct (fun m c =>
  let img := c.blob Obj.trowelCodeImage
  let base := c.num Obj.trowelCodeBase
  let n := (img.length + 3) / 4
  let cores := c.loadCores
  if 0x3000 < base + n then (setNum Obj.trowelCodeStatus 4 c, St.refused)
  else if c.trowel.load.isSome || cores.any (fun k => codeBusy c k base (base + n)) then
    (setNum Obj.trowelCodeStatus 3 c, St.busy)
  else if cores.any (fun k => !c.may 0x14 k m 1) then (setNum Obj.trowelCodeStatus 5 c, St.noAccess)
  else (setNum Obj.trowelCodeStatus 1 (modTrowel (fun w =>
    { w with load := some (img, base, leNat (c.blob Obj.trowelCodeCoreMask)) }) c), St.ok))

/-- CODE_LOAD. -/
def execCodeLoad (r : Req) (s : State) : Host.Outcome State Fault Refusal :=
  serveRow r Obj.trowelCodeLoad [1] codeLoadAct s

/-- CODE_LOAD_DONE: the image stands in the program memories (R169). -/
def execCodeLoadDone (s : State) : Host.Outcome State Fault Refusal :=
  s.onChip (fun c =>
    match c.trowel.load with
    | none => c
    | some (img, base, mask) =>
      let c := forEach ((upTo 256).filter (fun n => bit mask n)) (fun n c => writeBytes (memProgram n (4 * base)) img c) c
      setNum Obj.trowelCodeStatus 2 (setNum Obj.trowelCodeHash (Config.sha384 img)
        (modTrowel (fun w => { w with load := none }) c)))

/-! ### Thread modes (R201, R230) -/

/-- Thread.Mode takes a value (R230). -/
def threadModeAct (k mode : Nat) : Act := chipAct (fun _ c =>
  let t := c.num (Obj.trowelThreadTask k)
  if mode = 0 then (setNum (Obj.trowelThreadMode k) 0 (threadOff k c), St.ok)
  else if 1024 ≤ t ∨ !c.flag (Obj.trowelTaskEnable t) ∨ c.num (Obj.trowelTaskCore t) ≠ k / 4 then (c, St.refused)
  else
    let was := c.num (Obj.trowelThreadMode k)
    let c := setNum (Obj.trowelThreadMode k) mode c
    let c := when_ (was == 0) (modThread k (fun t => { t with state := .idle, wait := .none })) c
    (wakeFlags k c, St.ok))

/-- THREAD_MODE: a thread 1 to 3 goes OFF, or into mode FRAME or EVENT. -/
def execThreadMode (r : Req) (core : Fin 256) (thread : Fin 3) (mode : Fin 3) (s : State) : Host.Outcome State Fault Refusal :=
  let k := 4 * core.val + thread.val + 1
  serveRow r (Obj.trowelThreadMode k) (leBytes 1 mode.val) (threadModeAct k mode.val) s

/-- Threads in mode FRAME, and those the detector stopped, start at the frame strobe (R205, R223). -/
def startThreads (c : Chip) : Chip :=
  forEach ((tkeys c.trowel.threads 0 1024).filter (fun k => k % 4 != 0)) (fun k c =>
    if c.threadState k = .idle ∧ (c.num (Obj.trowelThreadMode k) = 1 ∨ ((c.thread k).restart ∧ c.num (Obj.trowelThreadMode k) ≠ 0)) then
      startThread k 0 c else c) c

/-! ### The all-wait detector (R222 to R225) -/

/-- The threads of a gang by number in the tables. -/
def gangThreads (gang : Nat) : List Nat := (upTo 64).map (fun i => 64 * gang + i)

/-- Could a thread be blocked, if the threads of `set` are (R222)? Entry 24, DEDUCED. -/
def Chip.blockedIn (c : Chip) (set : List Nat) (k : Nat) : Bool :=
  c.threadState k == .parked &&
  (match (c.thread k).wait with
   | .flags m => (m &&& 0x0F00) == 0
   | .sema s _ => (match (c.sem (k / 64) s).held with | some h => set.contains (4 * h.core + h.thread) | none => false)
   | .none => false)

/-- The blocked threads of a gang: the largest set that R222 allows, so that a ring of waits is blocked (entry 24, DEDUCED). -/
def Chip.blockedSet (c : Chip) : Nat → List Nat → List Nat
  | 0, set => set
  | fuel + 1, set => c.blockedSet fuel (set.filter (c.blockedIn set))

/-- The blocked threads of a gang. -/
def Chip.blocked (c : Chip) (gang : Nat) : List Nat :=
  c.blockedSet 64 ((gangThreads gang).filter (fun k => c.threadState k == .parked))

/-- Does the detector's condition hold (R222)? Entry 24, DEDUCED. -/
def Chip.allWait (c : Chip) (gang : Nat) : Bool :=
  let b := c.blocked gang
  !b.isEmpty && (gangThreads gang).all (fun k =>
    match c.threadState k with | .off => true | .idle => true | _ => b.contains k)

/-- The tenant, task and slot of what a thread runs (R224). -/
def Chip.runOf (c : Chip) (k : Nat) : Nat × Nat × Nat :=
  match c.taskOf k with
  | some t => (c.taskOwner t, t, 0xFFFF)
  | none =>
    match (c.core (k / 4)).running with
    | .voice lead _ _ => (((c.leadVoice lead).map (fun x => x.2.tenant)).getD 0xFF, 0xFFFF, lead)
    | _ => (0xFF, 0xFFFF, 0xFFFF)

/-- One record of the STALL snapshot (R224). -/
def stallRecord (c : Chip) (k : Nat) : List Byte :=
  let t := c.thread k
  let g := k / 64
  let r := c.runOf k
  let holdsBits := ((upTo 64).map (fun s => match (c.sem g s).held with
    | some h => if 4 * h.core + h.thread = k then 2 ^ s else 0 | none => 0)).sum
  let w := match t.wait with | .flags m => m.toNat | .sema s _ => 0x8000 + s | .none => 0
  leBytes 1 (k / 4 % 16) ++ leBytes 1 (k % 4) ++ leBytes 2 t.pc.toNat ++ leBytes 2 t.ef.toNat ++ leBytes 2 w ++
  leBytes 8 holdsBits ++ leBytes 4 (t.readSt (k % 4) t.regs).toNat ++ leBytes 2 r.2.1 ++ leBytes 2 r.2.2 ++ leBytes 1 r.1 ++ zeros 7

/-- The STALL snapshot (R224). -/
def stallSnapshot (c : Chip) (gang : Nat) (ks : List Nat) : List Byte :=
  leBytes 8 c.time.stc ++ leBytes 1 gang ++ leBytes 1 ks.length ++ zeros 22 ++ ks.flatMap (stallRecord c)

/-- A stall counts toward the third consecutive frame (R225). Entry 56, DESIGN CHOICE. -/
def stallCount (n at_ frame : Nat) : Nat := if at_ = frame + 1 then n else if at_ = frame then n + 1 else 1

/-- What the detector does to one blocked thread (R223, R225). -/
def breakThread (k : Nat) (c : Chip) : Chip :=
  let f := c.frame
  let run := c.runOf k
  let c := when_ (k % 4 != 0) (bump (Obj.trowelThreadStalls k)) (revokeThread k c)
  let c := match c.taskOf k with
    | some t =>
      let up (x : TaskRun) : TaskRun := { x with stallFrames := stallCount x.stallFrames x.stalledAt f, stalledAt := f + 1 }
      modTrowel (fun w => { w with tasks := tmod {} w.tasks t up }) c
    | none => c
  if k % 4 ≠ 0 then modThread k (fun t => { t.drain with state := .idle, wait := .none, ef := 0, delay := none, loop := none,
                                                         rpt := 0, shadow := none, restart := true }) c
  else match (c.core (k / 4)).running with
    | .voice lead _ _ =>
      let c := match c.leadVoice lead with
        | some (n, _) => modVoice n (fun v => { v with stallFrames := stallCount v.stallFrames v.stalledAt f, stalledAt := f + 1 }) c
        | none => c
      let c := match c.leadVoice lead with
        | some (n, v) => if 3 ≤ v.stallFrames then
            snag 0x1007 lead run.1 (modVoice n (fun v => { v with endAt := some (f + 1, 9) }) c) else c
        | none => c
      abandonPass (k / 4) lead c
    | .task _ => runList (k / 4) c.workFrame runFuel
        (stopThread0 (k / 4) (modCore (k / 4) (fun r => { r with running := .nothing, doneAt := false }) c))
    | .nothing => c

/-- ALL_WAIT_DETECTOR: 256 gang cycles of the condition of R222 have passed in a gang. -/
def execAllWaitDetector (gang : Fin 16) (s : State) : Host.Outcome State Fault Refusal :=
  s.onChip (fun c =>
    let g := gang.val
    if !c.allWait g then c
    else
      let ks := c.blocked g
      let tenants := ((ks.map (fun k => (c.runOf k).1)).filter (fun t => decide (t < 16))).eraseDups
      let snap := addSnapshot (stallSnapshot c g ks) c
      let c := forEach tenants (fun t c => snagWith 0x1007 g t snap.1 0 c) snap.2
      let tasks := (ks.filterMap c.taskOf).eraseDups
      let c := forEach ks breakThread (bump (Obj.trowelGangStalls g) c)
      forEach tasks (fun t c => if 3 ≤ (tget {} c.trowel.tasks t).stallFrames then disableTaskLogged t c else c) c)

/-! ### Self-checks and reinstatement (R227, R228) -/

/-- A self-check slice of a core mismatched, or matched (R227). -/
def selfCheck (core : Nat) (mismatch : Bool) (c : Chip) : Chip :=
  if mismatch then
    if (c.core core).mismatch then
      retireCore core true (snag 0x1005 core 0xFF (bump (Obj.trowelCoreHwFaults core) (bump (Obj.trowelCoreSelfCheckFails core) c)))
    else modCore core (fun r => { r with mismatch := true }) (bump (Obj.trowelCoreSelfCheckFails core) c)
  else modCore core (fun r => { r with mismatch := false, slice := if r.mismatch then r.slice else (r.slice + 1) % 64 }) c

/-- Retired 0 (R228): it needs A on the core, and runs a full self-check of 64 slices at once. -/
def reinstateAct (core : Nat) (passed : Bool) : Act := chipAct (fun m c =>
  if !c.may 0x14 core m 3 then (c, St.noAccess)
  else if c.flag (Obj.trowelCoreRetired core) && passed then (modCore core (fun r => { r with reinstate := true }) c, St.ok)
  else (when_ (c.flag (Obj.trowelCoreRetired core)) (bump (Obj.trowelCoreSelfCheckFails core)) c, St.ok))

/-- CORE_REINSTATE: Trowel.Core.Retired written 0; `passed` is the outcome of the self-check. Entry 40, DESIGN CHOICE. -/
def execCoreReinstate (r : Req) (core : Fin 256) (passed : Bool) (s : State) : Host.Outcome State Fault Refusal :=
  serveRow r (Obj.trowelCoreRetired core.val) [0] (reinstateAct core.val passed) s

/-- Reinstated cores come back at the boundary (R228). -/
def restoreCores (c : Chip) : Chip :=
  forEach ((tkeys c.trowel.cores 0 256).filter (fun n => (c.core n).reinstate)) (fun n c =>
    modCore n (fun r => { r with reinstate := false, faults := [], mismatch := false })
      (setNum (Obj.trowelCoreClockMHz n) 1600 (setNum (Obj.trowelCoreRetired n) 0 c))) c

/-! ### Thermal steps and trips (R36, R564 to R566) -/

/-- A sensor's reading is taken (R563, R583). Entry 92, DESIGN CHOICE. -/
def takeReading (sensor : Nat) (z : Int) (c : Chip) : Chip :=
  let old := slice (c.blob Obj.powerThermalTemp) 0 17
  let c := setBlob Obj.powerThermalTemp (patch old sensor (leBytes 1 (ofInt 8 z))) c
  when_ (decide (c.snum 8 Obj.powerThermalMaxTemp < z)) (setInt Obj.powerThermalMaxTemp z) c

/-- The clock of a gang's cores that are not retired. -/
def Chip.gangClock (c : Chip) (gang : Nat) : Nat :=
  (((upTo 16).map (fun i => c.num (Obj.trowelCoreClockMHz (16 * gang + i)))).filter (· != 0)).foldl max 0

/-- A gang's cores that are not retired take a clock; with S 0 and tasks that still do not fit, tasks end (R168).
Entry 92, DESIGN CHOICE. -/
def setGangClock (gang mhz : Nat) (c : Chip) : Chip :=
  forEach ((upTo 16).map (fun i => 16 * gang + i)) (fun n c =>
    if c.flag (Obj.trowelCoreRetired n) then c else setNum (Obj.trowelCoreClockMHz n) mhz c) c

/-- The voices of a core that may be moved, by falling steal score. -/
def Chip.byScore (c : Chip) (core : Nat) : List Nat :=
  ((((c.coreVoices core).filter (fun x => c.eligible x.2)).map (fun x => (x.1, c.score x.2 16 0))).sortBy
    (fun a b => decide (b.2 ≤ a.2))).map Prod.fst

/-- THERMAL_STEP_DOWN: a gang's sensor reads Warn or above, 10 ms after its last step: a lower clock is decided and
the excess voices of its cores asked to move (R564, R565). -/
def execThermalStepDown (gang : Fin 16) (reading : BitVec 8) (s : State) : Host.Outcome State Fault Refusal :=
  s.onChip (fun c =>
    let g := gang.val
    let c := takeReading g reading.toInt c
    let mhz := c.gangClock g
    if c.snum 8 Obj.powerThermalWarn ≤ reading.toInt ∧ reading.toInt < 115 ∧ 800 < mhz ∧
        (tget (0, 0) c.trowel.clockStep g) = (0, 0) then
      let to_ := mhz - 200
      let c := bump Obj.powerThermalSteps (modTrowel (fun w => { w with clockStep := tput w.clockStep g (to_, c.now) }) c)
      forEach ((upTo 16).map (fun i => 16 * g + i)) (fun n c =>
        let excess := c.occupancy n - c.slotsAt n to_
        if excess = 0 ∨ c.coreDown n then c
        else
          let ns := c.byScore n
          let pick := (ns.foldl (fun (acc : List Nat × Nat) v =>
            if excess ≤ acc.2 then acc else (acc.1 ++ [v], acc.2 + (((c.voice v).map (fun x => x.slots.length)).getD 0))) ([], 0)).1
          let new := pick.map (fun v => ({ voice := v, frame := c.frame + 1, chip := none, core := none, attempts := 0, cause := 1 } : MigAsk))
          modHawk (fun h => { h with asks := h.asks.filter (fun a => !pick.contains a.voice) ++ new }) c) c
    else c)

/-- At a boundary a decided step is taken once the voices fit; after 10 ms what is still in excess ends as STOLEN
(R103, R565). Entry 92, DESIGN CHOICE. -/
def takeClockSteps (k : Nat) (c : Chip) : Chip :=
  forEach c.trowel.clockStep (fun x c =>
    let g := x.1
    let mhz := x.2.1
    let cores := (upTo 16).map (fun i => 16 * g + i)
    let excess (c : Chip) : Bool := cores.any (fun n => !c.coreDown n && decide (c.slotsAt n mhz < c.occupancy n))
    let due := decide (x.2.2 + 10000000 ≤ c.nsOf (c.time.stc + c.bsize))
    let c := when_ (due && excess c) (fun c => forEach cores (fun n c =>
      forEach (c.byScore n) (fun v c =>
        if !c.coreDown n && decide (c.slotsAt n mhz < c.occupancy n) then endVoice v 4 (k * c.bsize) c else c) c) c) c
    if excess c then c
    else setGangClock g mhz (modTrowel (fun w => { w with clockStep := tdel w.clockStep g }) c)) c

/-- THERMAL_STEP_UP: a gang below Warn - 5 °C goes up one step every 100 ms, to 1.60 GHz (R564). -/
def execThermalStepUp (gang : Fin 16) (reading : BitVec 8) (s : State) : Host.Outcome State Fault Refusal :=
  s.onChip (fun c =>
    let g := gang.val
    let c := takeReading g reading.toInt c
    let mhz := c.gangClock g
    if reading.toInt < c.snum 8 Obj.powerThermalWarn - 5 ∧ 0 < mhz ∧ mhz < 1600 then
      setGangClock g (mhz + 200) (modTrowel (fun w => { w with clockStep := tdel w.clockStep g }) c)
    else c)

/-- THERMAL_TRIP: a gang reads 115 °C or more and is gated at the next boundary (R566). Entry 92, DESIGN CHOICE. -/
def execThermalTrip (gang : Fin 16) (reading : BitVec 8) (s : State) : Host.Outcome State Fault Refusal :=
  s.onChip (fun c =>
    let c := takeReading gang.val reading.toInt c
    if 115 ≤ reading.toInt then
      modTrowel (fun w => { w with trips := if w.trips.contains gang.val then w.trips else w.trips ++ [gang.val],
                                   clockStep := tdel w.clockStep gang.val }) c
    else c)

/-- The trips of a boundary: putty for one frame, then FAULT (R103, R566). -/
def takeTrips (c : Chip) : Chip :=
  let c := forEach c.trowel.trips (fun g c =>
    let c := forEach ((upTo 16).map (fun i => 16 * g + i)) (fun n c =>
      let c := forEach ((c.coreVoices n).map Prod.fst) loseVoice c
      modCore n (fun r => { r with tripped := true, voices := [], tasks := [], running := .nothing }) c) c
    bump Obj.powerThermalTrips c) c
  modTrowel (fun w => { w with trips := [] }) c

/-- THERMAL_UNGATE: a tripped gang reads 100 °C or less and is ungated at 0.80 GHz (R566). -/
def execThermalUngate (gang : Fin 16) (reading : BitVec 8) (s : State) : Host.Outcome State Fault Refusal :=
  s.onChip (fun c =>
    let g := gang.val
    let c := takeReading g reading.toInt c
    if reading.toInt ≤ 100 ∧ (c.core (16 * g)).tripped then
      setGangClock g 800 (forEach ((upTo 16).map (fun i => 16 * g + i)) (fun n c => modCore n (fun r => { r with tripped := false }) c) c)
    else c)

/-- Is a gang below 1.60 GHz for thermal reasons (R565)? -/
def Chip.thermalLimit (c : Chip) : Bool := (upTo 16).any (fun g => decide (c.gangClock g < 1600) && decide (0 < c.gangClock g))

/-- THERM_N is driven low while any sensor is at Warn or above (R564). -/
def Chip.thermN (c : Chip) : Bool :=
  !((slice (c.blob Obj.powerThermalTemp) 0 17).any (fun b => decide (c.snum 8 Obj.powerThermalWarn ≤ b.toInt)))

/-! ### Global generators (R129, R131, R414) -/

/-- PITCH generators enabled on the chip. -/
def Chip.pitchCount (c : Chip) : Nat := (c.stipple.globals.filter (fun x => field x.2.def_ 0 1 == 8)).length

/-- Global.Enable 1 (R129). Entry 52, DESIGN CHOICE. -/
def globalEnableAct (n : Nat) : Act := chipAct (fun m c =>
  if (tget {} c.stipple.globals n).def_ ≠ [] then (c, St.ok)
  else
    let d := c.blob (Obj.stippleGlobalDef n)
    let cl := c.num (Obj.stippleGlobalCluster n)
    let excess := match masterTenant m with
      | some t => c.num (Obj.stippleGlobalOwner n) == t && decide (c.num (Obj.tenantQuotaGenerators t) < c.gensUsed t + globalUnits d)
      | none => false
    if !genFormat true d ∨ 4096 < c.globalUnitsIn cl + globalUnits d ∨ (field d 0 1 = 8 ∧ 64 ≤ c.pitchCount) then (c, St.refused)
    else if excess then (raise (m - 0x10) 36 c, St.refused)
    else
      let c := setNum (Obj.stippleGlobalEnable n) 1 c
      let g := Gen.begin d (256 * c.time.stc) n none
      (quietExit (modStipple (fun x => { x with globals := tput x.globals n g }) c), St.ok))

/-- GLOBAL_ENABLE. -/
def execGlobalEnable (r : Req) (n : Fin 4096) (s : State) : Host.Outcome State Fault Refusal :=
  serveRow r (Obj.stippleGlobalEnable n.val) [1] (globalEnableAct n.val) s

/-- Global.Enable 0: the generator stops. -/
def globalDisable (n : Nat) (c : Chip) : Chip :=
  setNum (Obj.stippleGlobalEnable n) 0 (modStipple (fun x =>
    { x with globals := tdel x.globals n, globalSteps := tdel x.globalSteps n }) c)

end Sys2Proof.Machine
end

