-- ==== Sys2Proof/Machine/Accept.lean ====
section
/-!
DEFINITION. Dispatch and acceptance of events, the journal's records and rows, mirroring, and replay (R17 to R23, R91,
R308, R309, R397 to R401, R495 to R503).
-/

namespace Sys2Proof.Machine

/-! ### Journal records (R308, R309, R495 to R499, R503) -/

/-- Records of the local region. -/
def localPlaces : Nat := 32736

/-- The row of a local place. -/
def rowOf (p : Nat) : Nat := 4 + p / 8

/-- May a record be written at a local place? Entry 68, DESIGN CHOICE. -/
def Journal.placeFree (j : Journal) (p : Nat) : Bool :=
  (tget none j.recs p).isNone && !j.retiredRows.contains (rowOf p)

/-- The first free place from `p` on, the region taken as a ring. -/
def Journal.freeFrom (j : Journal) : Nat → Nat → Option Nat
  | 0, _ => none
  | fuel + 1, p => if j.placeFree p then some p else Journal.freeFrom j fuel ((p + 1) % localPlaces)

/-- Rows of a region that are not retired: rows `lo` up to `hi`. -/
def Journal.rowsLeft (j : Journal) (lo hi : Nat) : Nat :=
  hi - lo - (j.retiredRows.filter (fun r => decide (lo ≤ r) && decide (r < hi))).length

/-- Capacity of the local region (R499). -/
def Journal.capacity (j : Journal) : Nat := 8 * j.rowsLeft 4 4096

/-- PENDING and HOLDING local records. -/
def Journal.live (j : Journal) : Nat := j.recs.length

/-- Is there journal room (R499)? -/
def Chip.journalRoom (c : Chip) : Bool :=
  let j := c.work.journal
  decide (j.live < j.capacity) && !(c.holderSet && j.mirrorFree == some 0)

/-- Every reference to a local place follows its record to another. -/
def moveRecord (p q : Nat) (c : Chip) : Chip :=
  let to_ (x : Option Nat) : Option Nat := if x = some p then some q else x
  let c := modJournal (fun j =>
    { j with recs := tset none (tdel j.recs p) q (tget none j.recs p),
             toReplay := j.toReplay.map (fun x => if x = p then q else x) }) c
  let c := modHawk (fun h => { h with notes := h.notes.map (fun x => { x with place := to_ x.place }) }) c
  forEach (tkeys c.work.queues 0 512) (fun i c => modQueue i (fun x =>
    { x with waiting := x.waiting.map (fun w => if w.notice.queue = i % 32 then { w with place := to_ w.place } else w) }) c) c

/-- Records that cannot be read are freed and reported (R503): one entry a tenant in each of the two logs. -/
def loseRecords (ps : List Nat) (c : Chip) : Chip :=
  let ts := (ps.filterMap (fun p => (tget none c.work.journal.recs p).map (fun r => r.tenant)))
  let c := forEach ps freeRecord c
  let c := bumpBy Obj.faultJournalLostRecords ps.length c
  forEach ts.eraseDups (fun t c =>
    let n := (ts.filter (· == t)).length
    let c := snagWith 0x0105 0 t 0xFFFF n c
    if t < 16 then
      let x : Snag := { seq := 0, code := 0x0105, count := 1, stc := c.time.stc, unit := 0, tenant := t, source := 0xFF,
                        snap := 0xFFFF, data := n, frame := c.frame, returned := false }
      raise t 32 (modTenant t (fun y => { y with snagCount := satAdd 32 y.snagCount 1 })
        (modWork (fun w => { w with tenantLogs := tmod {} w.tenantLogs t (SnagLog.add 512 x) }) c))
    else c) c

/-- A row joins the retired ones; the 513th raises JOURNAL_DEGRADED (R309). -/
def noteRow (row : Nat) (c : Chip) : Chip :=
  if c.work.journal.retiredRows.contains row then c
  else
    let rows := (c.work.journal.retiredRows ++ [row]).sortBy (fun a b => decide (a ≤ b))
    let c := setNum Obj.memoryJournalRowsRetired rows.length (modJournal (fun j => { j with retiredRows := rows }) c)
    when_ (rows.length == 513) (snag 0x0104 row 0xFF) c

/-- A row of the local region is retired: records that read correctly move while free records last (R309). -/
def retireRow (row : Nat) (c : Chip) : Chip :=
  let c := noteRow row c
  let ps := (upTo 8).map (fun i => 8 * (row - 4) + i)
  let bad := ps.filter (fun p => match tget none c.work.journal.recs p with | some r => r.unreadable | none => false)
  let c := when_ (!bad.isEmpty) (loseRecords bad) c
  forEach (ps.filter (fun p => (tget none c.work.journal.recs p).isSome)) (fun p c =>
    match c.work.journal.freeFrom localPlaces 0 with
    | some q => moveRecord p q c
    | none => c) c

/-- A place for a new record, when the first `fails` rows tried read back wrong twice (R308, R309). -/
def placeRecord : Nat → Nat → Chip → Option Nat × Chip
  | fails, start, c =>
    match fails, c.work.journal.freeFrom localPlaces start with
    | _, none => (none, c)
    | 0, some p => (some p, c)
    | n + 1, some p => placeRecord n ((p / 8 + 1) * 8 % localPlaces) (retireRow (rowOf p) c)

/-- The control block in force: the valid one of higher GEN (R495). -/
def Journal.control (j : Journal) : ControlBlock := if j.blockA.gen < j.blockB.gen then j.blockB else j.blockA

/-- SERIAL of a chip in the view: the first 16 octets of its entry; none for no chip. -/
def Chip.serialOf (c : Chip) : Option Nat → List Byte
  | some m => match c.viewPlace m with | some i => slice (c.viewEntry i) 0 16 | none => []
  | none => []

/-- Write the control block, to the copy that is not in force (R495). -/
def writeControl (isSealed : Bool) (c : Chip) : Chip :=
  modJournal (fun j =>
    let b : ControlBlock := { gen := j.control.gen + 1, isSealed := isSealed, holder := c.num Obj.chainMirrorHolder,
                              stcLast := c.time.stc, slot0 := c.serialOf j.mirrorOf0, slot1 := c.serialOf j.mirrorOf1 }
    if j.blockA.gen < j.blockB.gen then { j with blockA := b } else { j with blockB := b }) c

/-! ### Mirroring (R368, R500, R501) -/

/-- The fields of a record in a message (entry 13, DESIGN CHOICE): tenant, queue, SRC, STATE, FLAGS, ACCEPT_TICK, IMAGE_HASH, the entry. -/
def jrecFields (r : JRec) : List Nat :=
  [r.tenant, r.queue, r.src, if r.state = .holding then 2 else 1,
   (if r.posted then 1 else 0) + (if r.late then 2 else 0) + (if r.mirrored then 4 else 0) + (if r.reissued then 8 else 0),
   r.acceptTick, r.imageHash] ++ r.entry.map BitVec.toNat

/-- A record out of its fields. -/
def jrecOf (f : List Nat) : JRec :=
  let g (i : Nat) : Nat := f.getD i 0
  { entry := slice ((f.drop 7).map (BitVec.ofNat 8)) 0 32, acceptTick := g 5, tenant := g 0, queue := g 1, src := g 2,
    state := if g 3 = 2 then .holding else .pending, posted := bit (g 4) 0, late := bit (g 4) 1, mirrored := bit (g 4) 2,
    reissued := bit (g 4) 3, imageHash := g 6 }

/-- Send a record to the holder: its TAG is the record's acceptance order, and the first one after a change says so
(R500; entry 13, DESIGN CHOICE). Entry 68, DESIGN CHOICE. -/
def mirrorRecord (r : JRec) (c : Chip) : Chip :=
  let f := (if c.work.journal.mirrorStarted then 0 else 1) :: jrecFields r
  let tag := r.order % 2 ^ 31
  modJournal (fun j => { j with unacked := j.unacked ++ [(tag, c.now, f)], mirrorStarted := true })
    (sendLath 1 0 (c.num Obj.chainMirrorHolder) tag f c)

/-- Completions whose records are no longer waited for become ready. -/
def readyAll (c : Chip) : Chip :=
  forEach (tkeys c.work.queues 0 512) (fun i c =>
    if isEsq (i % 32) then
      let c := modQueue i (fun q => { q with waiting := q.waiting.map (fun w => { w with ready := true }) }) c
      flushCompletions (i / 32) (i % 32) (c.queue i).waiting.length c
    else c) c

/-- This chip's mirror holder becomes `h`, 0xFF for none (R368, R501). -/
def setHolder (h : Nat) (c : Chip) : Chip :=
  if h = c.num Obj.chainMirrorHolder then c
  else
    let c := setNum Obj.faultJournalMirrorFree 0 (setNum Obj.chainMirrorHolder h c)
    let c := modJournal (fun j => { j with mirrorFree := none, unacked := [], retireList := [], mirrorStarted := false,
                                           remirroring := h != 0xFF }) c
    let c := writeControl false c
    if h = 0xFF then readyAll c
    else forEach ((c.work.journal.recs.filterMap (fun x => x.2)).sortBy (fun a b => decide (a.order ≤ b.order)))
      mirrorRecord c

/-- REMIRROR_DONE: the new holder has acknowledged every record, and completions resume (R501). -/
def execRemirrorDone (s : State) : Host.Outcome State Fault Refusal :=
  s.onChip (fun c =>
    if c.work.journal.remirroring && c.work.journal.unacked.isEmpty then
      readyAll (modJournal (fun j => { j with remirroring := false }) c)
    else c)

/-- MIRROR_ACK: the record is mirrored and its completion is released (R23, R500). -/
def execMirrorAck (chip : Byte) (tag : BitVec 32) (free : Nat) (s : State) : Host.Outcome State Fault Refusal :=
  s.onChip (fun c =>
    if chip.toNat ≠ c.num Obj.chainMirrorHolder then c
    else
      let c := setNum Obj.faultJournalMirrorFree free (modJournal (fun j => { j with mirrorFree := some free }) c)
      match c.work.journal.unacked.find? (fun x => x.1 == tag.toNat) with
      | none => c
      | some (_, _, f) =>
        let r := jrecOf f.tail
        let i := qix r.tenant r.queue
        let c := modJournal (fun j =>
          { j with unacked := j.unacked.filter (fun x => x.1 != tag.toNat),
                   recs := j.recs.map (fun x => (x.1, x.2.map (fun y =>
                     if y.order % 2 ^ 31 = tag.toNat then { y with mirrored := true } else y))) }) c
        if c.work.journal.remirroring then c
        else
          let c := modQueue i (fun q => { q with waiting := q.waiting.map (fun w =>
            if w.notice.seq = entrySeq r.entry && w.place.isSome then { w with ready := true } else w) }) c
          flushCompletions r.tenant r.queue (c.queue i).waiting.length c)

/-- MIRROR_RESEND: what has waited 1 ms for its ACK is sent again (R500). -/
def execMirrorResend (s : State) : Host.Outcome State Fault Refusal :=
  s.onChip (fun c =>
    let due := c.work.journal.unacked.filter (fun x => decide (x.2.1 + 1000000 ≤ c.now))
    let c := forEach due (fun x c => sendLath 1 0 (c.num Obj.chainMirrorHolder) x.1 x.2.2 c) c
    modJournal (fun j => { j with unacked := j.unacked.map (fun x =>
      if x.2.1 + 1000000 ≤ c.now then (x.1, c.now, x.2.2) else x) }) c)

/-- The retire list of a boundary goes to the holder (R500). Entry 68, DESIGN CHOICE. -/
def sendRetireList (c : Chip) : Chip :=
  let l := c.work.journal.retireList
  if l.isEmpty || !c.holderSet then c
  else
    modJournal (fun j => { j with retireList := [] })
      (sendLath 1 0 (c.num Obj.chainMirrorHolder) (2 ^ 31) (l.flatMap (fun x => [x.1, x.2.1, x.2.2.1, if x.2.2.2 then 1 else 0])) c)

/-! The holder's side. -/

/-- The records a slot holds. -/
def Journal.mirror (j : Journal) (slot : Nat) : Table (Option JRec) := if slot = 0 then j.mirror0 else j.mirror1

/-- A slot's records change. -/
def modMirror (slot : Nat) (f : Table (Option JRec) → Table (Option JRec)) (c : Chip) : Chip :=
  modJournal (fun j => if slot = 0 then { j with mirror0 := f j.mirror0 } else { j with mirror1 := f j.mirror1 }) c

/-- First row of a slot. -/
def slotRow (slot : Nat) : Nat := 4096 + 2048 * slot

/-- Free records of a slot (R499, R500). -/
def Journal.mirrorFreeIn (j : Journal) (slot : Nat) : Nat :=
  8 * j.rowsLeft (slotRow slot) (slotRow slot + 2048) - (j.mirror slot).length

/-- The slot that holds a chip's records. -/
def Journal.slotOf (j : Journal) (m : Nat) : Option Nat :=
  if j.mirrorOf0 = some m then some 0 else if j.mirrorOf1 = some m then some 1 else none

/-- A slot is freed (R500, R501). -/
def freeSlot (slot : Nat) (c : Chip) : Chip :=
  writeControl false (modJournal (fun j =>
    if slot = 0 then { j with mirrorOf0 := none, mirror0 := [] } else { j with mirrorOf1 := none, mirror1 := [] }) c)

/-- A slot is assigned to a chip on its first record (R500); none when both are taken. -/
def assignSlot (m : Nat) (first : Bool) (c : Chip) : Option Nat × Chip :=
  let c := match c.work.journal.slotOf m with
    | some i => when_ first (freeSlot i) c
    | none => c
  match c.work.journal.slotOf m with
  | some i => (some i, c)
  | none =>
    if c.work.journal.mirrorOf0.isNone then
      (some 0, writeControl false (modJournal (fun j => { j with mirrorOf0 := some m }) c))
    else if c.work.journal.mirrorOf1.isNone then
      (some 1, writeControl false (modJournal (fun j => { j with mirrorOf1 := some m }) c))
    else (none, c)

/-- A free place of a slot from `p` on. -/
def Journal.mirrorPlace (j : Journal) (slot : Nat) : Nat → Nat → Option Nat
  | 0, _ => none
  | fuel + 1, p =>
    if (tget none (j.mirror slot) p).isNone && !j.retiredRows.contains (slotRow slot + p / 8) then some p
    else Journal.mirrorPlace j slot fuel ((p + 1) % 16384)

/-- Write a mirrored record, past the first `fails` rows tried that read back wrong twice: each of those is retired and
its records move (R309). -/
def writeMirror (slot : Nat) (r : JRec) : Nat → Chip → Chip
  | fails, c =>
    match c.work.journal.mirrorPlace slot 16384 0 with
    | none => c
    | some p =>
      match fails with
      | 0 => modMirror slot (fun t => tset none t p (some r)) c
      | n + 1 =>
        let row := slotRow slot + p / 8
        let c := noteRow row c
        let c := forEach (((upTo 8).map (fun i => p / 8 * 8 + i)).filter (fun p =>
            (tget none (c.work.journal.mirror slot) p).isSome)) (fun p c =>
          match c.work.journal.mirrorPlace slot 16384 0 with
          | some q => modMirror slot (fun t => tset none (tdel t p) q (tget none t p)) c
          | none => c) c
        writeMirror slot r n c

/-- Apply one entry of a retire list to a slot (R500). -/
def applyRetire (slot tenant queue seq : Nat) (holding : Bool) (c : Chip) : Chip :=
  modMirror slot (fun t => t.filterMap (fun x => match x.2 with
    | some r =>
      if r.tenant = tenant ∧ r.queue = queue ∧ entrySeq r.entry = seq then
        (if holding then some (x.1, some { r with state := .holding }) else none)
      else some x
    | none => none)) c

/-- The entries of a retire list, four numbers each. -/
def retireEntries : List Nat → List (Nat × Nat × Nat × Bool)
  | t :: q :: s :: h :: rest => (t, q, s, h == 1) :: retireEntries rest
  | _ => []

/-- EVENT_MIRROR: a holder writes a record or applies a retire list, and acknowledges with the slot's free records. -/
def execEventMirror (chip : Byte) (tag : BitVec 32) (fields : List Nat) (fails : Nat) (s : State) :
    Host.Outcome State Fault Refusal :=
  s.onChip (fun c =>
    if bit tag.toNat 31 then
      match c.work.journal.slotOf chip.toNat with
      | none => c
      | some i =>
        let c := forEach (retireEntries fields) (fun x c => applyRetire i x.1 x.2.1 x.2.2.1 x.2.2.2 c) c
        sendLath 1 1 chip.toNat tag.toNat [c.work.journal.mirrorFreeIn i] c
    else
      let a := assignSlot chip.toNat (fields.headD 0 == 1) c
      match a.1 with
      | none => a.2
      | some i =>
        let r := jrecOf fields.tail
        let known := (a.2.work.journal.mirror i).any (fun x => match x.2 with
          | some y => y.tenant == r.tenant && y.queue == r.queue && entrySeq y.entry == entrySeq r.entry
          | none => false)
        let c := if known then a.2 else writeMirror i r fails a.2
        sendLath 1 1 chip.toNat tag.toNat [c.work.journal.mirrorFreeIn i] c)

/-! ### Chain-wide events (R91, R371) -/

/-- Words of an event bound to versions of this chip: the layer's and its zones' templates', or the control template's
(R19). -/
def Chip.bindVersions (c : Chip) (h : Nat) : List Nat :=
  if h < 4096 then
    match c.inForce .layer h with
    | some v => v.ver :: (layerTemplates v.image).map (fun t => ((c.inForce .template t).map (fun x => x.ver)).getD 0)
    | none => []
  else match c.inForce .control (h % 4096) with
    | some v => [v.ver]
    | none => []

/-- Forward an accepted event to its layer's home (R91). -/
def forwardRecord (p : Nat) (c : Chip) : Chip :=
  match tget none c.work.journal.recs p with
  | none => c
  | some r =>
    let h := entryHandle r.entry
    if namesHandle r.entry && c.isChainHandle h && c.isMember && c.homeOf h != c.me then
      sendLath 1 2 (c.homeOf h) 0 (jrecFields r)
        (modJournal (fun j => { j with recs := tset none j.recs p (some { r with forwarded := some c.frame }) }) c)
    else c

/-- Has this home an event already: received before, or in its inventory (R371)? -/
def Chip.knowsEvent (c : Chip) (src t q seq : Nat) : Bool :=
  c.work.journal.received.any (fun x => x.1 == src && x.2.1 == t && x.2.2.1 == q && x.2.2.2.1 == seq) ||
  c.hawk.owned.any (fun x => match x.2 with
    | some o => o.origin == ⟨src, t, q, seq⟩ | none => false) ||
  c.voiceList.any (fun x => x.2.origin == ⟨src, t, q, seq⟩)

/-- An event of a chain-wide layer reaches its home: it joins the events of the passes, its acceptance tick the present
one (R91). -/
def receiveForward (r : JRec) (c : Chip) : Chip :=
  let seq := entrySeq r.entry
  if c.knowsEvent r.src r.tenant r.queue seq then c
  else
    let r := { r with acceptTick := c.time.stc, state := .pending, order := c.work.journal.nextOrder, forwarded := none,
                      bound := c.bindVersions (entryHandle r.entry) }
    modJournal (fun j => { j with
      inbox := j.inbox ++ [r],
      nextOrder := j.nextOrder + 1,
      received := (j.received ++ [(r.src, r.tenant, r.queue, seq, c.frame)]).filter (fun x => decide (c.frame ≤ x.2.2.2.2 + 64)) }) c

/-- EVENT_FORWARD. -/
def execEventForward (chip : Byte) (fields : List Nat) (s : State) : Host.Outcome State Fault Refusal :=
  s.onChip (fun c => receiveForward { jrecOf fields with src := (if (jrecOf fields).reissued then (jrecOf fields).src else chip.toNat) } c)

/-! ### Checks (R18, R56, R379, R397, R398) -/

/-- Is it a message that R397 accepts? Entry 68, DESIGN CHOICE. -/
def umpAccepted (e : List Byte) : Bool :=
  match umpType e with
  | 0 => umpStatus e == 0
  | 2 => decide (8 ≤ umpStatus e) && decide (umpStatus e ≤ 0xE)
  | 4 => umpStatus e != 7
  | _ => false

/-- Words of a UMP of an accepted type. -/
def umpWords (e : List Byte) : Nat := if umpType e = 4 then 2 else 1

/-- Check 2: FLAGS, unused words, the KILL rule and the HANDLE rule. Entry 68, DESIGN CHOICE. -/
def badEvent (e : List Byte) : Bool :=
  let t := umpType e
  let known := t == 0 || t == 2 || t == 4
  let h := entryHandle e
  decide (4 ≤ field e 9 1) ||
  (known && (upTo 4).any (fun i => decide (umpWords e ≤ i) && umpWord e i != 0)) ||
  (entryKill e && (match eventKind e with | .noteOff _ _ _ => false | _ => true)) ||
  (namesHandle e && !(decide (h < 0x1000) || (decide (0x8000 ≤ h) && decide (h < 0x9000))))

/-- Check 4: is a handle committed for the tenant (R18, R56)? -/
def Chip.handleCommitted (c : Chip) (t h : Nat) : Bool :=
  if h < 4096 then
    match c.inForce .layer h with
    | some v => c.may 0x02 h (0x10 + t) 2 && (layerTemplates v.image).all (fun x => (c.inForce .template x).isSome)
    | none => false
  else (c.inForce .control (h % 4096)).isSome && c.may 0x05 (h % 4096) (0x10 + t) 2

/-- Check 5: does a zone name a dormant template (R56)? -/
def Chip.zoneDormant (c : Chip) (h : Nat) : Bool :=
  decide (h < 4096) && (match c.inForce .layer h with
    | some v => (layerTemplates v.image).any (fun t => match c.inForce .template t with
        | some x => c.dormant x.image | none => false)
    | none => false)

/-- The status of an entry (R398), journal rows aside. -/
def entryStatus (c : Chip) (t q : Nat) (e : List Byte) : Nat :=
  let d := (tget 0 c.work.journal.expected (8 * t + q) + 2 ^ 32 - entrySeq e) % 2 ^ 32
  let h := entryHandle e
  if d ≠ 0 then (if d ≤ 2 ^ 31 then 3 else 4)
  else if badEvent e then 1
  else if !umpAccepted e then 2
  else if namesHandle e && !c.handleCommitted t h then 5
  else if namesHandle e && c.zoneDormant h then 6
  else if namesHandle e && c.isQuarantined && c.isChainHandle h then 7
  else if !c.journalRoom then 8
  else 0

/-- ImageHash of the version a checked handle binds to (R496). -/
def Chip.boundHash (c : Chip) (e : List Byte) : Nat :=
  let h := entryHandle e
  if !namesHandle e then 0
  else ((if h < 4096 then c.inForce .layer h else c.inForce .control (h % 4096)).map (fun v => v.hash)).getD 0

/-- Note number and channel of an entry's UMP, 0 when it has none (R402). Entry 23, PRESUMED. Entry 46, DESIGN CHOICE. -/
def umpNote (e : List Byte) : Nat × Nat :=
  (if namesHandle e then bits (umpWord e 0) 14 8 else 0, if umpType e = 2 ∨ umpType e = 4 then umpChannel e else 0)

/-- A notice about an event (R402). -/
def eventNotice (kind status : Nat) (late : Bool) (q : Nat) (e : List Byte) (tick : Nat) : Notice :=
  { kind := kind, status := status, late := late, queue := q, seq := entrySeq e, tick := tick, voiceId := 0,
    handle := entryHandle e, endReason := 0, note := (umpNote e).1, channel := (umpNote e).2, zone := 0xFF }

/-! ### Dispatch (R398 to R401, R497) -/

/-- Is an ESQ dispatchable (R400, R401)? After a main supply loss none is (R487). -/
def Chip.dispatchable (c : Chip) (t q : Nat) : Bool :=
  let x := c.queue (qix t q)
  !c.boot.powerLost && x.state == .running && !(x.prefetch.isEmpty && x.made.isEmpty) && c.nqFree (qix t x.nq)

/-- The entry an ESQ gives next: an internal producer's carries the expected SEQ (R519). -/
def Chip.nextEntry (c : Chip) (t q : Nat) : List Byte :=
  let x := c.queue (qix t q)
  match x.made with
  | (_, e) :: _ => patch e 12 (leBytes 4 (tget 0 c.work.journal.expected (8 * t + q)))
  | [] => x.prefetch.headD []

/-- The first of a list at or after a position, else the first of all: round robin. -/
def roundFrom (pos : Nat) (l : List Nat) : Option Nat := (l.find? (fun x => decide (pos ≤ x))) <|> l.head?

/-- The ESQ that the dispatcher chooses, and its PRIO (R400). -/
def Chip.chooseEsq (c : Chip) : Option (Nat × Nat × Nat) :=
  let all := (upTo 16).flatMap (fun t => ((upTo 8).filter (c.dispatchable t)).map (fun q => (t, q)))
  match (upTo 4).find? (fun p => all.any (fun x => c.prioOf x.1 x.2 == p)) with
  | none => none
  | some p =>
    let l := all.filter (fun x => c.prioOf x.1 x.2 == p)
    match roundFrom (tget 0 c.work.rrTenant p) (l.map Prod.fst) with
    | none => none
    | some t =>
      (roundFrom (tget 0 (c.tenant t).rrQueue p) ((l.filter (fun x => x.1 == t)).map Prod.snd)).map (fun q => (t, q, p))

/-- The positions move past what was served (R400). -/
def servedEsq (t q p : Nat) (c : Chip) : Chip :=
  modTenant t (fun x => { x with rrQueue := tset 0 x.rrQueue p ((q + 1) % 8) })
    (modWork (fun w => { w with rrTenant := tset 0 w.rrTenant p ((t + 1) % 16) }) c)

/-- The expected SEQ advances, in the header and in Q_SEQ (R398, R497). -/
def advanceSeq (t q : Nat) (c : Chip) : Chip :=
  let v := (tget 0 c.work.journal.expected (8 * t + q) + 1) % 2 ^ 32
  modQueue (qix t q) (fun x => { x with seq := v })
    (modJournal (fun j => { j with expected := tset 0 j.expected (8 * t + q) v }) c)

/-- A completion joins its ESQ's; those that stand ready are posted (R401). -/
def complete (t q : Nat) (w : Completion) (c : Chip) : Chip :=
  let c := modQueue (qix t q) (fun x => { x with waiting := x.waiting ++ [w] }) c
  flushCompletions t q (c.queue (qix t q)).waiting.length c

/-- An entry is rejected with a status (R398). -/
def rejectEntry (t q st : Nat) (e : List Byte) (c : Chip) : Chip :=
  let c := modQueue (qix t q) (fun x => { x with count := satAdd 32 x.count 1 }) c
  let c := complete t q ⟨eventNotice 0 st false q e c.time.stc, none, true⟩ c
  if st = 3 ∨ st = 4 then c else advanceSeq t q c

/-- An entry is journalled at a place, mirrored, completed, and forwarded to its home (R23, R91, R496 to R500). -/
def acceptEntry (t q p : Nat) (e : List Byte) (c : Chip) : Chip :=
  let a := c.time.stc
  let late := lateAt c.bsize a e
  let r : JRec := { entry := e, acceptTick := a, tenant := t, queue := q, src := c.me, state := .pending, posted := false,
                    late := late, mirrored := false, reissued := false, imageHash := c.boundHash e,
                    order := c.work.journal.nextOrder,
                    bound := if namesHandle e then c.bindVersions (entryHandle e) else [] }
  let c := modJournal (fun j => { j with recs := tset none j.recs p (some r), nextOrder := j.nextOrder + 1 }) c
  let c := advanceSeq t q c
  let c := when_ c.holderSet (mirrorRecord r) c
  let c := complete t q ⟨eventNotice 0 0 late q e a, some p, !c.holderSet⟩ c
  quietExit (forwardRecord p c)

/-- DISPATCH: one entry is chosen, checked, and journalled or rejected; `fails` rows in turn read back wrong twice. -/
def execDispatch (fails : Nat) (s : State) : Host.Outcome State Fault Refusal :=
  s.onChip (fun c =>
    match c.chooseEsq with
    | none => c
    | some (t, q, p) =>
      let e := c.nextEntry t q
      let c := servedEsq t q p (modQueue (qix t q) (fun x =>
        if x.made.isEmpty then { x with prefetch := x.prefetch.tail } else { x with made := x.made.tail }) c)
      let st := entryStatus c t q e
      if st ≠ 0 then rejectEntry t q st e c
      else
        let w := placeRecord fails 0 c
        match w.1 with
        | none => rejectEntry t q 8 e w.2
        | some p => acceptEntry t q p e w.2)

/-! ### Replay (R502, R503) -/

/-- A notice that waits for its ESQ's next enable; an ESQ that runs posts it now (R489, R502). -/
def deferNotice (t q : Nat) (n : Notice) (c : Chip) : Chip :=
  if (c.queue (qix t q)).state = .running then notifyEsq t q n c
  else modQueue (qix t q) (fun x => { x with deferred := x.deferred ++ [n] }) c

/-- May a record be replayed: is its handle committed with the same image (R502)? -/
def Chip.replayable (c : Chip) (r : JRec) : Bool :=
  !namesHandle r.entry ||
    (c.handleCommitted r.tenant (entryHandle r.entry) && c.boundHash r.entry == r.imageHash)

/-- One record is dispatched again (R502). -/
def replayRecord (p : Nat) (c : Chip) : Chip :=
  match tget none c.work.journal.recs p with
  | none => c
  | some r =>
    if r.unreadable then loseRecords [p] c
    else if !c.replayable r then
      let c := deferNotice r.tenant r.queue (eventNotice 4 0 false r.queue r.entry c.time.stc) c
      freeRecord p (snagWith 0x1401 r.queue r.tenant 0xFFFF (r.queue + entrySeq r.entry * 2 ^ 32) c)
    else
      let c := when_ (!r.posted)
        (deferNotice r.tenant r.queue (eventNotice 0 0 r.late r.queue r.entry r.acceptTick)) c
      let r' := { r with state := .pending, posted := true, taken := false, replayTick := some c.time.stc,
                         late := lateAt c.bsize c.time.stc r.entry, forwarded := none, order := c.work.journal.nextOrder,
                         bound := if namesHandle r.entry then c.bindVersions (entryHandle r.entry) else [] }
      forwardRecord p (modJournal (fun j =>
        { j with recs := tset none j.recs p (some r'), nextOrder := j.nextOrder + 1 }) c)

/-- Order of replay: ACCEPT_TICK, QUEUE, SEQ. -/
def replayKey (c : Chip) (p : Nat) : List Nat :=
  match tget none c.work.journal.recs p with
  | some r => [r.acceptTick, r.queue, entrySeq r.entry]
  | none => []

/-- The rule of Fault.Tenant.ReplayGo 1 (R502). -/
def replayGoAct (t : Nat) : Act := chipAct (fun _ c =>
  let j := c.work.journal
  if tget .none j.replay t ≠ .waiting then (c, St.busy)
  else
    let mine := (j.toReplay.filter (fun p => match tget none j.recs p with | some r => r.tenant == t | none => false)).sortBy
      (fun a b => !keyLt (replayKey c b) (replayKey c a))
    let c := forEach mine replayRecord c
    let c := modJournal (fun j => { j with toReplay := j.toReplay.filter (fun p => !mine.contains p),
                                           replay := tset .none j.replay t .done }) c
    (writeControl false c, St.ok))

/-- REPLAY_GO. -/
def execReplayGo (r : Req) (t : Fin 16) (s : State) : Host.Outcome State Fault Refusal :=
  serveRow r (Obj.faultTenantReplayGo t.val) [1] (replayGoAct t.val) s

end Sys2Proof.Machine
end

