-- ==== Sys2Proof/Machine/Migration.lean ====
section
/-!
DEFINITION. Live migration, load balance, the steal reserve, and the placement and ownership messages of chain-wide
layers (R91 to R106, R125, R127, R292).
-/

namespace Sys2Proof.Machine

/-! ### The migration record (R99, R125; entry 13, DESIGN CHOICE) -/

/-- A generator's state as numbers; its definition stands in the template both sides hold. -/
def Gen.fields (g : Gen) : List Nat :=
  let b (x : Bool) : Nat := if x then 1 else 0
  [g.tau, g.stage, g.start, ofInt 64 g.entry, g.beats, g.run, g.seen, b g.hold + 2 * b g.released + 4 * b g.done + 8 * b g.finished,
   ofInt 64 g.level, ofInt 64 g.acc, g.drawn, ofInt 64 g.value, g.base, g.into]

/-- A generator from its state as numbers, over its definition. -/
def Gen.ofFields (g : Gen) (l : List Nat) : Gen :=
  let i (n : Nat) : Int := toSigned 64 (l.getD n 0)
  let f := l.getD 7 0
  { g with tau := l.getD 0 0, stage := l.getD 1 0, start := l.getD 2 0, entry := i 3, beats := l.getD 4 0, run := l.getD 5 0,
           seen := l.getD 6 0, hold := bit f 0, released := bit f 1, done := bit f 2, finished := bit f 3, level := i 8,
           acc := i 9, drawn := l.getD 10 0, value := i 11, base := l.getD 12 0, into := l.getD 13 0 }

/-- A cursor's state as numbers. -/
def Cursor.fields (x : Cursor) : List Nat :=
  let b (x : Bool) : Nat := if x then 1 else 0
  [x.instance_, x.volume, x.object, x.start, x.mode, x.rmax, x.channels, b x.ended + 2 * b x.looping + 4 * b x.tail, x.fill,
   x.objPos, x.w, match x.endStream with | some e => e + 1 | none => 0, x.fade, x.missing, x.risen,
   match x.releaseFrame with | some e => e + 1 | none => 0]

/-- The record's header of R99: VOICE_ID, source and LEAD, template and ImageHash, code hash, k and the counts; then
what R62 keeps of the voice beside its frame; then frame, generators, slot states, cursors and COMB lines.
Entry 13, DESIGN CHOICE. -/
def recordFields (c : Chip) (n k core : Nat) (v : Voice) : List Nat :=
  let cur := c.cursorList.filter (fun x => x.2.voice == n)
  [v.id, c.me, v.lead, v.template, (c.voiceVersion v).hash, c.num Obj.trowelCodeHash, k, v.mods.gens.length, cur.length,
   (v.combs.map List.length).sum, core, v.heldVel, v.stage, v.atten, v.age, v.home.getD 0xFF, v.mods.prev.length,
   v.mods.slewed.length, v.origin.chip, v.origin.tenant, v.origin.esq, v.origin.seq] ++
  ((c.bytesAt v.framePlace 1024).map BitVec.toNat) ++ (v.mods.gens.map Gen.fields).flatten ++ v.mods.prev.map (ofInt 64) ++
  (v.mods.slewed.map (fun x => [x.1, ofInt 64 x.2])).flatten ++ (cur.map (fun x => x.2.fields)).flatten ++
  v.combs.flatten.map BitVec.toNat

/-- Numbers of the fixed part. -/
def recordHead : Nat := 22

/-! ### Conditions (R97) -/

/-- The USER entries of an image. -/
def userEntries (img : List Byte) : List Nat := ((descs img).filter (fun d => d.kernel == 0x3F)).map (fun d => d.aux)

/-- A core's program memory by relative place. -/
def Chip.program (c : Chip) (core : Nat) : List (Nat × Byte) :=
  (c.mem.filter (fun x => decide (memProgram core 0 ≤ x.1) && decide (x.1 < memProgram core 0xC000))).map
    (fun x => (x.1 - memProgram core 0, x.2))

/-- May the voice move at all (R97)? -/
def Chip.movable (_c : Chip) (v : Voice) : Bool :=
  (v.state == .sounding || v.state == .releasing) && !v.pinned && !v.incoming && !v.control && v.featherFrom.isNone && v.endAt.isNone

/-- May it move to another chip (R97): chain sends only, and a layer with a home (entry 25, DEDUCED)? -/
def Chip.movableOut (c : Chip) (v : Voice) : Bool :=
  v.home.isSome && (upTo 8).all (fun i =>
    let bus := field (c.bytesAt (v.framePlace + 0x3C0 + 4 * i) 4) 2 2
    bus == 0xFFFF || decide (0x8000 ≤ bus))

/-- The core of this chip that would take it: of the tenant's pool by SPREAD, with the same USER code (R97, R103). -/
def Chip.moveCore (c : Chip) (v : Voice) (named : Option Nat) (thermal : Bool) : Option Nat :=
  let d := c.need v
  let src := v.lead / 64
  let user := !(userEntries (c.voiceImage v)).isEmpty
  let ok (n : Nat) : Bool := n != src && c.coreRoom n d false && c.blockRoom n d false &&
    !(thermal && (tget (0, 0) c.trowel.clockStep (n / 16)) != (0, 0)) && (!user || c.program n == c.program src)
  let cores := match named with | some n => [n] | none => c.poolCores (c.poolOf v.tenant)
  c.chooseCore (cores.filter ok) 0 d

/-- The chip that would take it (R93, R103). Entry 25, DEDUCED. -/
def Chip.moveChip (c : Chip) (v : Voice) : Option Nat :=
  if !c.movableOut v || !c.isMember then none
  else
    let m := c.chooseChip v v.slots.length [c.me]
    if m = c.me then none else some m

/-! ### Outcomes (R103, R104) -/

/-- The operator's status follows its migration (R105). Entry 51, DESIGN CHOICE. -/
def opStatus (cause st : Nat) (c : Chip) : Chip := when_ (cause == 3) (setNum Obj.hawkMigrateStatus st) c

/-- No target, or no attempt left (R103). -/
def moveFailed (n cause st : Nat) (c : Chip) : Chip :=
  let c := opStatus cause st c
  match cause with
  | 0 => featherVoice n (c.frame + 1) 9 c
  | 1 => featherVoice n (c.frame + 1) 4 c
  | 4 => loseVoice n c
  | _ => c

/-- A copy on another core of this chip goes without a word. -/
def dropCopy (n : Nat) (c : Chip) : Chip :=
  let drop (x : NoteOn) : NoteOn := { x with voices := x.voices.filter (· != n) }
  freeCursors n (modHawk (fun h => { h with voices := tset none h.voices n none, notes := h.notes.map drop }) c)

/-- A migration aborts: counted, and tried again 8 frames later up to 3 attempts (R104). -/
def abortMove (m : MigOut) (c : Chip) : Chip :=
  let c := bump Obj.hawkCountersMigrationAborts c
  let c := modHawk (fun h => { h with migOut := h.migOut.filter (fun x => x.voice != m.voice) }) c
  let c := match m.localCopy with | some n => dropCopy n c | none => c
  match c.voice m.voice with
  | none => c
  | some _ =>
    let c := modVoice m.voice (fun v => { v with pinned := false }) c
    if 3 ≤ m.attempts then moveFailed m.voice m.cause 5 c
    else
      opStatus m.cause 4 (modHawk (fun h => { h with asks := h.asks ++
        [{ voice := m.voice, frame := c.frame + 8, chip := none, core := none, attempts := m.attempts, cause := m.cause }] }) c)

/-! ### Shipping at a boundary (R100) -/

/-- A copy on another core of this chip. Entry 51, DESIGN CHOICE. -/
def shipLocal (n core k : Nat) (a : MigAsk) (v : Voice) (c : Chip) : Chip :=
  let d := c.need v
  let m := c.hawk.nextVoice
  let slots := c.takeSlots core d.w
  let base := (if d.block = 0 then none else c.findBlock (coreCluster core) d.block).map
    (fun i => coreCluster core * 16384 + i * d.block)
  let frame := c.bytesAt v.framePlace 1024
  let curs := c.cursorList.filter (fun x => x.2.voice == n)
  let copy : Voice := { v with slots := slots, genBase := base, pinned := true, incoming := true }
  let c := modHawk (fun h => { h with voices := tput h.voices m (some copy), nextVoice := m + 1,
                                      notes := h.notes.map (fun x => if x.voices.contains n then { x with voices := x.voices ++ [m] } else x) }) c
  let c := writeBytes copy.framePlace frame c
  let c := forEach curs (fun x c =>
    let q := ((upTo cursorCount).find? (fun q => (c.cursor q).isNone)).getD 0
    let c := modHod (fun h => { h with cursors := tput h.cursors q (some { x.2 with voice := m }) }) c
    modVoice m (fun y => { y with cursors := y.cursors.map (fun z => if z = x.1 then q else z) }) c) c
  let o : MigOut := { voice := n, frame := k, targetChip := c.me, targetCore := core, localCopy := some m,
                      attempts := a.attempts + 1, cause := a.cause }
  syncFrame m (modHawk (fun h => { h with migOut := h.migOut ++ [o] }) c)

/-- A record to another chip. -/
def shipRemote (n chip core k : Nat) (a : MigAsk) (v : Voice) (c : Chip) : Chip :=
  let c := sendLath 2 0 chip 0 (recordFields c n k core v) (takeFromDigest chip v.tenant v.slots.length c)
  let o : MigOut := { voice := n, frame := k, targetChip := chip, targetCore := core, attempts := a.attempts + 1, cause := a.cause }
  modHawk (fun h => { h with migOut := h.migOut ++ [o] }) c

/-- Take one ask at the boundary of frame `k`. -/
def shipOne (k : Nat) (a : MigAsk) (c : Chip) : Chip :=
  match c.voice a.voice with
  | none => c
  | some v =>
    if 32 ≤ (c.hawk.migOut.filter (fun m => m.frame == k)).length then
      modHawk (fun h => { h with asks := h.asks ++ [{ a with frame := k + 1 }] }) c
    else if !c.movable v then
      (if v.state = .placed then modHawk (fun h => { h with asks := h.asks ++ [{ a with frame := k + 1 }] }) c
       else moveFailed a.voice a.cause 6 c)
    else
      let dry := c.cursorList.any (fun x => x.2.voice == a.voice && x.2.underrun)
      let pin (c : Chip) : Chip := modVoice a.voice (fun v => { v with pinned := true }) c
      if dry then abortMove { voice := a.voice, frame := k, targetChip := c.me, targetCore := 0, attempts := a.attempts + 1, cause := a.cause } (pin c)
      else
        let here := a.chip.isNone || a.chip == some c.me || a.chip == some 0xFF
        let core := if here then c.moveCore v a.core (a.cause == 1) else none
        let needCur := (c.cursorList.filter (fun x => x.2.voice == a.voice)).length
        match core with
        | some n =>
          if c.cursorShort v.tenant needCur then moveFailed a.voice a.cause 5 c
          else opStatus a.cause 1 (shipLocal a.voice n k a v (pin c))
        | none =>
          let chip := match a.chip with
            | some m => if m = 0xFF ∨ m = c.me then none else if c.movableOut v && bit (c.voiceVersion v).holders m then some m else none
            | none => c.moveChip v
          match chip with
          | some m => opStatus a.cause 1 (shipRemote a.voice m (a.core.getD 0xFFFF) k a v (pin c))
          | none => moveFailed a.voice a.cause 5 c

/-- Take every ask that is due (R100, R104). -/
def shipAsks (k : Nat) (c : Chip) : Chip :=
  let due := c.hawk.asks.filter (fun a => decide (a.frame ≤ k))
  forEach due (shipOne k) (modHawk (fun h => { h with asks := h.asks.filter (fun a => !decide (a.frame ≤ k)) }) c)

/-! ### The schedule at the source and at the target (R100, R101) -/

/-- The source frees the voice (R100): END_REASON MIGRATED. -/
def moveDone (k : Nat) (m : MigOut) (c : Chip) : Chip :=
  let c := modHawk (fun h => { h with migOut := h.migOut.filter (fun x => x.voice != m.voice) }) c
  let c := bump Obj.hawkCountersMigrationsOut (opStatus m.cause 3 c)
  match c.voice m.voice with
  | none => c
  | some v =>
    let c := match m.localCopy with
      | some n =>
        let c := loadSends n (modVoice n (fun y => { y with incoming := false, pinned := false, migratedIn := true }) (bump Obj.hawkCountersMigrationsIn c))
        let lead := ((c.voice n).map Voice.lead).getD 0
        let c := when_ (v.home == some c.me) (modOwned v.id (fun o => { o with lead := lead })) c
        reportHome v 3 lead 0 (k * c.bsize) (syncFrame n c)
      | none => when_ (v.home == some c.me) (modOwned v.id (fun o => { o with chip := m.targetChip, known := true })) c
    endVoice m.voice 6 (k * c.bsize) c

/-- One migration at its source at the boundary of frame `k`. -/
def stepOut (k : Nat) (m : MigOut) (c : Chip) : Chip :=
  match c.voice m.voice with
  | none =>
    let c := match m.localCopy with | some n => dropCopy n c | none => c
    modHawk (fun h => { h with migOut := h.migOut.filter (fun x => x.voice != m.voice) }) (bump Obj.hawkCountersMigrationAborts c)
  | some v =>
    if v.state = .feathering ∨ v.featherFrom.isSome then
      let c := if m.localCopy.isNone then sendLath 2 3 m.targetChip 0 [v.id] c else c
      abortMove { m with attempts := 3, cause := if m.cause = 3 then 3 else 2 } c
    else if k = m.frame + 1 then
      if m.ready && m.resolved != some false then
        let c := if m.localCopy.isNone then sendLath 2 2 m.targetChip 0 [v.id] c else c
        opStatus m.cause 2 (modHawk (fun h => { h with migOut := h.migOut.map (fun x => if x.voice = m.voice then { x with phase := .committed } else x) }) c)
      else
        let c := if m.localCopy.isNone then sendLath 2 3 m.targetChip 0 [v.id] c else c
        abortMove m c
    else if m.frame + 2 ≤ k then
      if m.localCopy.isSome then (if m.resolved = some false then abortMove m c else moveDone k m c)
      else match m.resolved with
        | some true => moveDone k m c
        | some false => abortMove m (modVoice m.voice (fun v => { v with shadow := false, rise := if v.shadow then some k else none }) c)
        | none =>
          if !inView c m.targetChip then abortMove m (modVoice m.voice (fun v => { v with shadow := false, rise := some k }) c)
          else modVoice m.voice (fun v => { v with shadow := true }) c
    else c

/-- The target discards a copy. -/
def discardCopy (m : MigIn) (c : Chip) : Chip :=
  let id := ((c.voice m.voice).map (fun v => v.id)).getD 0
  let c := modHawk (fun h => { h with voices := tset none h.voices m.voice none, migIn := h.migIn.filter (fun x => x.voice != m.voice),
                                      settled := ((id, false, m.frame) :: h.settled).take 4096 }) c
  freeCursors m.voice c

/-- One migration at its target at the boundary of frame `k`. -/
def stepIn (k : Nat) (m : MigIn) (c : Chip) : Chip :=
  match c.voice m.voice with
  | none => modHawk (fun h => { h with migIn := h.migIn.filter (fun x => x.voice != m.voice) }) c
  | some v =>
    if m.lost then sendLath 2 3 m.source 0 [v.id] (discardCopy m c)
    else if m.frame + 2 ≤ k ∧ m.commit then
      let c := loadSends m.voice (modVoice m.voice (fun v => { v with incoming := false, pinned := false, migratedIn := true }) c)
      let c := modHawk (fun h => { h with migIn := h.migIn.filter (fun x => x.voice != m.voice),
                                          settled := ((v.id, true, m.frame) :: h.settled).take 4096 }) c
      let c := when_ (v.home == some c.me) (modOwned v.id (fun o => { o with chip := c.me, lead := v.lead, known := true })) c
      reportHome v 3 v.lead 0 (k * c.bsize) (syncFrame m.voice (bump Obj.hawkCountersMigrationsIn c))
    else c

/-- Every migration at a boundary. Entry 51, DESIGN CHOICE. -/
def stepMigrations (k : Nat) (c : Chip) : Chip :=
  let c := forEach c.hawk.migOut (stepOut k) c
  let c := forEach c.hawk.migIn (stepIn k) c
  modHawk (fun h => { h with settled := h.settled.filter (fun x => decide (k ≤ x.2.2 + 64)) }) c

/-- MIGRATION_CUTOFF: no COMMIT and no ABORT by (k+1)B + B/2 (R100). -/
def execMigrationCutoff (s : State) : Host.Outcome State Fault Refusal :=
  s.onChip (fun c =>
    forEach (c.hawk.migIn.filter (fun m => !m.commit && decide ((m.frame + 1) * c.bsize + c.bsize / 2 ≤ c.time.stc))) (fun m c =>
      let id := ((c.voice m.voice).map (fun v => v.id)).getD 0
      sendLath 2 3 m.source 0 [id] (discardCopy m c)) c)

/-- MIGRATION_QUERY_TIMER: unresolved by (k+4)B, and every 4 frames after (R101). -/
def execMigrationQueryTimer (s : State) : Host.Outcome State Fault Refusal :=
  s.onChip (fun c =>
    forEach (c.hawk.migOut.filter (fun m => m.phase != .shipped && m.resolved.isNone && m.localCopy.isNone &&
        decide (m.frame + 4 ≤ c.frame) && (c.frame - m.frame) % 4 == 0)) (fun m c =>
      match c.voice m.voice with
      | some v => sendLath 2 5 m.targetChip 0 [v.id]
          (modHawk (fun h => { h with migOut := h.migOut.map (fun x => if x.voice = m.voice then { x with phase := .queried } else x) }) c)
      | none => c) c)

/-- MIGRATION_RETRY: the retries that are due are taken at this boundary (R104). -/
def execMigrationRetry (s : State) : Host.Outcome State Fault Refusal :=
  s.onChip (fun c =>
    let k := c.frame
    let due := c.hawk.asks.filter (fun a => decide (a.frame ≤ k) && decide (0 < a.attempts))
    if c.time.stc % c.bsize ≠ 0 then c
    else forEach due (shipOne k) (modHawk (fun h => { h with asks := h.asks.filter (fun a => !due.contains a) }) c))

/-! ### Operator, balance, reserve (R103, R105, R106) -/

/-- Migrate.Go 1. -/
def migrateAct : Act := chipAct (fun _ c =>
  let st := c.num Obj.hawkMigrateStatus
  if st = 1 ∨ st = 2 then (c, St.busy)
  else
    let id := c.num Obj.hawkMigrateVoiceId
    match c.voiceList.find? (fun x => x.2.id == id && x.2.live && !x.2.control && !x.2.incoming) with
    | none => (setNum Obj.hawkMigrateStatus 5 c, St.ok)
    | some (n, v) =>
      if !c.movable v then (setNum Obj.hawkMigrateStatus 6 c, St.ok)
      else
        let chip := c.num Obj.hawkMigrateTargetChip
        let core := c.num Obj.hawkMigrateTargetCore
        let a : MigAsk := { voice := n, frame := c.frame + 1, chip := some chip, core := if core = 0xFFFF then none else some core,
                            attempts := 0, cause := 3 }
        (setNum Obj.hawkMigrateStatus 1 (modHawk (fun h => { h with asks := h.asks ++ [a] }) c), St.ok))

/-- MIGRATE_GO. -/
def execMigrateGo (r : Req) (s : State) : Host.Outcome State Fault Refusal :=
  serveRow r Obj.hawkMigrateGo [1] migrateAct s

/-- The SlotMin guarantee at a reserve (R82, R106). -/
def Chip.slotMinFits (c : Chip) (r : Nat) : Bool :=
  decide (((upTo 16).map (fun t => c.num (Obj.hawkTenantSlotMin t))).sum ≤ 512 * (32 - r))

/-- StealReserve takes a value; in force from the next boundary (R106). -/
def stealReserveAct (v : Nat) : Act := chipAct (fun _ c =>
  if c.slotMinFits v then (setNum Obj.hawkStealReserve v c, St.ok) else (c, St.refused))

/-- STEAL_RESERVE. -/
def execStealReserve (r : Req) (v : Byte) (s : State) : Host.Outcome State Fault Refusal :=
  serveRow r Obj.hawkStealReserve [v] (stealReserveAct v.toNat) s

/-- One balancing move within a pool: from the core with the fewest free slots to the one with the most (R103).
Entry 50, DEDUCED. -/
def Chip.balanceCore (c : Chip) (p : Nat) (taken : List Nat) : Option MigAsk :=
  let cores := (c.poolCores p).filter (fun n => !c.coreDown n)
  let free (n : Nat) : Nat := c.coreSlots n - c.occupancy n
  match bestBy (fun a b => decide (free b < free a)) cores with
  | none => none
  | some hi =>
    let srcs := cores.filter (fun n => (c.coreVoices n).any (fun x => c.movable x.2 && !taken.contains x.1))
    match bestBy (fun a b => decide (free a < free b)) srcs with
    | none => none
    | some lo =>
      if free lo + c.num Obj.hawkBalanceCoreThreshold < free hi then
        ((c.coreVoices lo).find? (fun x => c.movable x.2 && !taken.contains x.1)).map
          (fun x => { voice := x.1, frame := 0, chip := none, core := some hi, attempts := 0, cause := 2 })
      else none

/-- One balancing move to another chip. -/
def Chip.balanceChip (c : Chip) (taken : List Nat) : Option MigAsk :=
  match c.voiceList.find? (fun x => c.movable x.2 && c.movableOut x.2 && !taken.contains x.1) with
  | none => none
  | some (n, v) =>
    match c.moveChip v with
    | some m => if c.freeSlots + c.num Obj.hawkBalanceChainThreshold < field (c.digest m) 4 2 then
        some { voice := n, frame := 0, chip := some m, core := none, attempts := 0, cause := 2 } else none
    | none => none

/-- Load balance at a boundary: at most 4 voices (R103). -/
def loadBalance (c : Chip) : Chip :=
  if !c.flag Obj.hawkBalanceEnable then c
  else
    let asked := c.hawk.asks.map (fun a => a.voice)
    let moves := ((upTo 16).foldl (fun (acc : List MigAsk) p =>
      match c.balanceCore p (asked ++ acc.map (fun a => a.voice)) with | some a => acc ++ [a] | none => acc) []).take 4
    let more := if moves.length < 4 then (c.balanceChip (asked ++ moves.map (fun a => a.voice))).toList else []
    modHawk (fun h => { h with asks := h.asks ++ moves ++ more }) c

/-! ### Messages of a migration (R95, R99 to R102) -/

/-- The copy that a record makes: its place is filled later. -/
def recordVoice (c : Chip) (f : List Nat) : Voice :=
  let b : List Byte := ((f.drop recordHead).take 1024).map (BitVec.ofNat 8)
  let g (i : Nat) : Nat := f.getD i 0
  let fl := field b 0xA 2
  let rt := field b 0x28 8
  let st := field b 8 1
  { id := g 0, control := false, tenant := field b 6 1, handle := field b 4 2, zone := field b 7 1, template := g 3,
    version := (((c.handle .template (g 3)).versions.find? (fun v => v.hash == g 4)).map (fun v => v.ver)).getD 0,
    origin := ⟨g 18, g 19, g 20, g 21⟩, key := [], noteOn := 0,
    note := ⟨field b 0x19 1, field b 0x1A 1, field b 0x1C 2, field b 0x1E 2, field b 0x26 1⟩,
    pitch := sfield b 0x20 4, level := field b 0x24 2, state := if st = 3 then .releasing else .sounding,
    late := bit fl 0, released := bit fl 1, held := bit fl 2, heldVel := g 11, incoming := true, pinned := true,
    onsetTick := field b 0x10 8, onsetFrac := field b 0x18 1,
    release := if rt = 2 ^ 64 - 1 then none else some (rt, field b 0x30 1, 0),
    gain := field b 0x3EC 2, lastL := sfield b 0x3E0 4, lastR := sfield b 0x3E4 4, peak := field b 0x3E8 4,
    stage := g 12, atten := g 13, age := g 14, home := if g 15 = 0xFF then none else some (g 15) }

/-- Read the generators, slot states and COMB lines of a record into a bound voice. -/
def recordState (f : List Nat) (v : Voice) : Voice :=
  let g (i : Nat) : Nat := f.getD i 0
  let p0 := recordHead + 1024
  let p1 := p0 + 14 * g 7
  let p2 := p1 + g 16
  let p3 := p2 + 2 * g 17
  let p4 := p3 + 16 * g 8
  let gens := v.mods.gens.zipIdx.map (fun x => x.1.ofFields ((f.drop (p0 + 14 * x.2)).take 14))
  let slewed := (upTo (g 17)).foldl (fun t i => tput t (g (p2 + 2 * i)) (toSigned 64 (g (p2 + 2 * i + 1)))) []
  let combs := v.combs.foldl (fun (acc : List (List Byte) × Nat) line =>
    (acc.1 ++ [((f.drop acc.2).take line.length).map (BitVec.ofNat 8)], acc.2 + line.length)) ([], p4)
  { v with mods := { gens := gens, slewed := slewed, prev := ((f.drop p1).take (g 16)).map (toSigned 64) }, combs := combs.1,
           modFrame := g 6 }

/-- The cursors of a record open at the target where they stood (R97, R292). -/
def recordCursors (n : Nat) (f : List Nat) (c : Chip) : Chip :=
  let g (i : Nat) : Nat := f.getD i 0
  let p3 := recordHead + 1024 + 14 * g 7 + g 16 + 2 * g 17
  forEach (upTo (g 8)) (fun i c =>
    let l := (f.drop (p3 + 16 * i)).take 16
    let x (j : Nat) : Nat := l.getD j 0
    match c.voice n with
    | none => c
    | some v =>
      let q := ((upTo cursorCount).find? (fun q => (c.cursor q).isNone)).getD 0
      let img := c.voiceImage v
      let d := (descs img).getD (x 0) (desc 0)
      let o := (openCursor c n v img (x 0) d).1
      let cur : Cursor := { o with ended := bit (x 7) 0, looping := bit (x 7) 1, tail := bit (x 7) 2, fill := x 8, objPos := x 9,
                                   endStream := if x 11 = 0 then none else some (x 11 - 1), fade := x 12, missing := x 13,
                                   risen := x 14, releaseFrame := if x 15 = 0 then none else some (x 15 - 1) }
      let c := modHod (fun h => { h with cursors := tput h.cursors q (some cur) }) c
      requestAhead q (modVoice n (fun v => { v with cursors := setAt v.cursors (d.aux % 4) q }) c)) c

/-- May this chip take a record (R97, R83, R95)? -/
def recordOk (c : Chip) (f : List Nat) (v : Voice) (core : Option Nat) : Bool :=
  let k := f.getD 6 0
  let img := c.voiceImage v
  !c.isQuarantined && c.flag Obj.hawkAcceptRemote && core.isSome &&
  ((c.handle .template v.template).versions.any (fun x => x.hash == f.getD 4 0)) &&
  decide (c.time.stc < k * c.bsize + c.bsize / 2) &&
  decide ((c.hawk.migIn.filter (fun m => m.frame == k)).length < 32) &&
  ((userEntries img).isEmpty || f.getD 5 0 == c.num Obj.trowelCodeHash) &&
  !c.cursorShort v.tenant (f.getD 8 0) &&
  (smpInstances img).all (fun x =>
    let vol := field img (4 * x.2.paramOfs) 2
    (c.volumeSlot vol).isSome || !(c.servers vol).isEmpty)

/-- RECORD: a target takes a migration record, or sends ABORT; it renders the shadow of frame k (R100). -/
def execMigRecord (chip : Byte) (fields : List Nat) (s : State) : Host.Outcome State Fault Refusal :=
  s.onChip (fun c =>
    let v := recordVoice c fields
    let d := c.need v
    let k := fields.getD 6 0
    let named := fields.getD 10 0xFFFF
    let cores := if named = 0xFFFF then c.poolCores (c.poolOf v.tenant) else [named]
    let core := c.chooseCore (cores.filter (fun n => decide (n < 256))) 0 d
    if !recordOk c fields v core then sendLath 2 3 chip.toNat 0 [v.id] c
    else
      let core := core.getD 0
      let n := c.hawk.nextVoice
      let base := (if d.block = 0 then none else c.findBlock (coreCluster core) d.block).map (fun i => coreCluster core * 16384 + i * d.block)
      let w := bindGens c base k v
      let img := c.voiceImage v
      let w := { w with slots := c.takeSlots core d.w, incoming := true, pinned := true,
                        combs := ((descs img).filter (fun d => d.kernel == 0x08)).map (fun d => zeros (combLine c.fs d.aux)) }
      let w := recordState fields w
      let m : MigIn := { voice := n, frame := k, source := chip.toNat }
      let c := modHawk (fun h => { h with voices := tput h.voices n (some w), nextVoice := n + 1, migIn := h.migIn ++ [m] }) c
      let bytes : List Byte := ((fields.drop recordHead).take 1024).map (BitVec.ofNat 8)
      let c := syncFrame n (recordCursors n fields (writeBytes w.framePlace bytes c))
      if c.hawk.boundaryDone ≤ k then c
      else
        let c := modVoice n (evalVoice c k false) c
        let c := writeModBlock n c
        runList core k runFuel (modCore core (fun r => { r with voices := r.voices ++ [w.lead] }) c))

/-- The migration at its source of a VOICE_ID. -/
def Chip.outOf (c : Chip) (id : Nat) : Option MigOut :=
  c.hawk.migOut.find? (fun m => match c.voice m.voice with | some v => v.id == id && m.localCopy.isNone | none => false)

/-- The migration at its target of a VOICE_ID. -/
def Chip.inOf (c : Chip) (id : Nat) : Option MigIn :=
  c.hawk.migIn.find? (fun m => match c.voice m.voice with | some v => v.id == id | none => false)

/-- A source's migration changes. -/
def modOut (n : Nat) (f : MigOut → MigOut) (c : Chip) : Chip :=
  modHawk (fun h => { h with migOut := h.migOut.map (fun m => if m.voice = n then f m else m) }) c

/-- READY: the target has rendered its first shadow (R100). -/
def execMigReady (chip : Byte) (fields : List Nat) (s : State) : Host.Outcome State Fault Refusal :=
  s.onChip (fun c => match c.outOf (fields.headD 0) with
    | some m => if m.targetChip = chip.toNat then modOut m.voice (fun m => { m with ready := true }) c else c
    | none => c)

/-- COMMIT: answered with COMMITTED at once when it comes before (k+1)B + B/2 (R100). -/
def execMigCommit (chip : Byte) (fields : List Nat) (s : State) : Host.Outcome State Fault Refusal :=
  s.onChip (fun c =>
    let id := fields.headD 0
    match c.inOf id with
    | some m =>
      if c.time.stc < (m.frame + 1) * c.bsize + c.bsize / 2 ∧ !m.lost then
        sendLath 2 4 chip.toNat 0 [id]
          (modHawk (fun h => { h with migIn := h.migIn.map (fun x => if x.voice = m.voice then { x with commit := true } else x) }) c)
      else sendLath 2 3 chip.toNat 0 [id] (discardCopy m c)
    | none => c)

/-- MIGRATION_ABORT: at the source the migration is resolved, at the target the copy goes (R100, R101). -/
def execMigrationAbort (chip : Byte) (fields : List Nat) (s : State) : Host.Outcome State Fault Refusal :=
  s.onChip (fun c =>
    let id := fields.headD 0
    match c.outOf id with
    | some m => if m.targetChip = chip.toNat then modOut m.voice (fun m => { m with resolved := some false }) c else c
    | none => match c.inOf id with
      | some m => if m.source = chip.toNat then discardCopy m c else c
      | none => c)

/-- COMMITTED: the target has taken the COMMIT (R100). -/
def execMigCommitted (chip : Byte) (fields : List Nat) (s : State) : Host.Outcome State Fault Refusal :=
  s.onChip (fun c => match c.outOf (fields.headD 0) with
    | some m => if m.targetChip = chip.toNat then modOut m.voice (fun m => { m with resolved := some true }) c else c
    | none => c)

/-- Does this chip hold a VOICE_ID as heard (R101)? -/
def Chip.holdsHeard (c : Chip) (id : Nat) : Bool :=
  c.voiceList.any (fun x => x.2.id == id && x.2.live && !x.2.incoming && !x.2.control) ||
  c.hawk.settled.any (fun x => x.1 == id && x.2.1)

/-- QUERY: answered HELD (1) or NOT_HELD (0) (R101). -/
def execMigQuery (chip : Byte) (fields : List Nat) (s : State) : Host.Outcome State Fault Refusal :=
  s.onChip (fun c =>
    let id := fields.headD 0
    let held := c.holdsHeard id || (match c.inOf id with | some m => m.commit | none => false)
    sendLath 2 6 chip.toNat 0 [id, if held then 1 else 0] c)

/-- QUERY_REPLY: HELD acts as COMMITTED, NOT_HELD as ABORT (R101). -/
def execMigQueryReply (chip : Byte) (fields : List Nat) (s : State) : Host.Outcome State Fault Refusal :=
  s.onChip (fun c => match c.outOf (fields.headD 0) with
    | some m => if m.targetChip = chip.toNat ∧ m.phase ≠ .shipped then
        modOut m.voice (fun m => { m with resolved := some (fields.getD 1 0 != 0) }) c else c
    | none => c)

/-! ### Placement, release and controllers at a holder (R94 to R96, R127) -/

/-- The voice of a placement order. -/
def orderVoice (c : Chip) (home : Nat) (f : List Nat) : Voice :=
  let g (i : Nat) : Nat := f.getD i 0
  { id := g 0, control := false, tenant := g 5, handle := g 3, zone := g 2, template := g 4,
    version := (((c.handle .template (g 4)).versions.find? (fun v => v.hash == g 1)).map (fun v => v.ver)).getD 0,
    origin := ⟨g 6, g 5, g 7, g 8⟩, key := [], noteOn := 0, note := ⟨g 9, g 10, g 11, g 12, g 13⟩,
    pitch := toSigned 32 (g 14), level := g 15, onsetTick := g 16, onsetFrac := g 17, late := g 18 == 1, home := some home }

/-- The frame an order starts in, and whether at its sub-sample 0 with LATE (R95). -/
def orderFrame (c : Chip) (n0 : Nat) : Nat × Bool :=
  let k := n0 / c.bsize
  if c.time.stc < k * c.bsize + c.bsize / 2 then (k, false)
  else
    let j := c.time.stc / c.bsize
    (if c.time.stc < j * c.bsize + c.bsize / 2 then j else j + 1, true)

/-- PLACEMENT: a target places a voice of another home from step 3 of R79, or refuses when it is quarantined or does
not hold the template version (R94, R95). -/
def execPlacement (chip : Byte) (fields : List Nat) (s : State) : Host.Outcome State Fault Refusal :=
  s.onChip (fun c =>
    let v := orderVoice c chip.toNat fields
    let has := (c.handle .template v.template).versions.any (fun x => x.hash == fields.getD 1 0)
    if c.isQuarantined || !has then sendLath 1 4 chip.toNat 0 [v.id] c
    else
      let f := orderFrame c v.n0
      let n := c.hawk.nextVoice
      let v := if f.2 then { v with onsetTick := f.1 * c.bsize, onsetFrac := 0, late := true } else v
      let st : Start := { voice := n, frame := f.1, immediate := f.2, order := 0, accepted := c.time.stc, onsetTick := v.onsetTick,
                          onsetFrac := v.onsetFrac, ordered := true }
      let c := modHawk (fun h => { h with voices := tput h.voices n (some v), nextVoice := n + 1, starts := h.starts ++ [st] }) c
      let c := runStart f.1 false st c
      match c.voice n with
      | none => c
      | some v =>
        if v.live && c.hawk.boundaryDone == f.1 + 1 then
          let c := modVoice n (evalVoice c f.1 false) c
          let c := syncFrame n (modVoice n (fun v => { v with state := .sounding }) (writeModBlock n c))
          runList (v.lead / 64) f.1 runFuel (modCore (v.lead / 64) (fun r => { r with voices := r.voices ++ [v.lead] }) c)
        else c)

/-- The voice of an ownership entry comes back to its home to be placed again (R94, R369). -/
def reown (id : Nat) (o : Owned) (imm : Bool) (refused : List Nat) (c : Chip) : Chip :=
  let n := c.hawk.nextVoice
  let img := (((c.handle .template o.template).version o.version).map (fun v => v.image)).getD []
  let zone := (((c.newest .layer o.handle).map (fun v => zoneOf v.image o.zone))).getD []
  let base : Int := (if o.note.attrType = 3 then o.note.attr * 128 else o.note.note * 65536 : Nat)
  let v : Voice := { id := id, control := false, tenant := o.tenant, handle := o.handle, zone := o.zone, template := o.template,
                     version := o.version, origin := o.origin, key := o.key, noteOn := o.noteOn, note := o.note,
                     pitch := base + sfield zone 8 2 * 256, level := field zone 0xA 2, late := o.late || imm,
                     onsetTick := o.onsetTick, onsetFrac := o.onsetFrac, home := some c.me, held := o.held, heldVel := o.heldVel }
  let k := max (o.onsetTick / c.bsize) (c.frame + 1)
  let late := imm || decide (o.onsetTick / c.bsize < c.frame + 1)
  let st : Start := { voice := n, frame := k, immediate := late, order := 0, accepted := c.time.stc, onsetTick := o.onsetTick, onsetFrac := o.onsetFrac }
  let w := c.weight img
  let m := c.chooseChip v w refused
  let c := modHawk (fun h => { h with voices := tput h.voices n (some v), nextVoice := n + 1, owned := tset none h.owned id none,
                                      starts := h.starts ++ [st],
                                      notes := h.notes.map (fun x => if x.id = o.noteOn then { x with voices := x.voices ++ [n] } else x) }) c
  if m ≠ c.me ∧ c.isMember then
    let c := sendPlacement n m c
    modOwned id (fun o => { o with refused := refused }) c
  else c

/-- PLACE_REFUSE: the home places the voice again, leaving out the refusing chip (R94). -/
def execPlaceRefuse (chip : Byte) (fields : List Nat) (s : State) : Host.Outcome State Fault Refusal :=
  s.onChip (fun c =>
    let id := fields.headD 0
    match tget none c.hawk.owned id with
    | some o => if o.chip = chip.toNat then reown id o false (chip.toNat :: o.refused) c else c
    | none => c)

/-- RELEASE: a holder applies a release, kill, steal or HELD to a voice of another home (R96, R102). -/
def execHomeRelease (_chip : Byte) (fields : List Nat) (s : State) : Host.Outcome State Fault Refusal :=
  s.onChip (fun c =>
    let g (i : Nat) : Nat := fields.getD i 0
    match c.voiceList.find? (fun x => x.2.id == g 0) with
    | none => c
    | some (n, v) =>
      let cut := g 1 / c.bsize * c.bsize + c.bsize / 2
      let t := if c.time.stc < cut then (g 1, g 2) else ((c.frame + 1) * c.bsize, 0)
      match g 4 with
      | 0 => setRelease n t.1 t.2 (g 3) (modVoice n (fun v => { v with held := false }) c)
      | 1 => killVoice n t.1 5 c
      | 2 => featherVoice n (c.frameFrom t.1) 4 c
      | 3 => syncFrame n (modVoice n (fun v => { v with held := true, heldVel := g 3 }) (echoMove n t.1 t.2 (g 3) 3 c))
      | _ => if v.state = .waiting then endVoice n 5 c.time.stc c else featherVoice n (c.frame + 1) 5 c)

/-- CONTROLLER_FWD: a holder applies a controller event of another home; one past its cut-off applies at the first
frame it reaches (R96, R127). -/
def execControllerFwd (_chip : Byte) (fields : List Nat) (s : State) : Host.Outcome State Fault Refusal :=
  s.onChip (fun c =>
    let g (i : Nat) : Nat := fields.getD i 0
    let cut := g 7 / c.bsize * c.bsize + c.bsize / 2
    let t := if c.time.stc < cut then g 7 else (c.frame + 1) * c.bsize
    if g 0 = 1 then applyPerNote (g 1) (g 2) (g 3) (g 4) (g 5) (g 6) t [] c
    else applyController (g 1) (g 3) (g 5) (g 6) t 0 false c)

/-! ### Reports and forwarded events at the home (R91, R96, R371, R403) -/

/-- A relayed notice (R403). -/
def relayNotice (f : List Nat) (c : Chip) : Chip :=
  let g (i : Nat) : Nat := f.getD i 0
  let n : Notice := { kind := g 0, status := 0, late := g 0 == 2, queue := g 2, seq := g 3, tick := g 4, voiceId := g 5,
                      handle := g 6, endReason := g 7, note := g 8, channel := g 9, zone := g 10 }
  notifyEsq (g 1) (g 2) n c

/-- A holder's report about a voice of this home. -/
def takeReport (chip : Nat) (f : List Nat) (c : Chip) : Chip :=
  let g (i : Nat) : Nat := f.getD i 0
  match tget none c.hawk.owned (g 1) with
  | none => c
  | some o =>
    match g 0 with
    | 0x100 => modOwned (g 1) (fun o => { o with chip := chip, lead := g 2, known := true }) c
    | 0x101 =>
      let n : Notice := { kind := 1, status := 0, late := o.late, queue := o.origin.esq, seq := o.origin.seq, tick := g 5,
                          voiceId := g 1, handle := o.handle, endReason := g 4 % 0x100, note := o.note.note,
                          channel := o.note.channel, zone := o.zone }
      let c := if bit (g 4) 8 then tellOrigin o.origin n c else c
      settleNote o.noteOn (disown (g 1) c)
    | 0x102 => modOwned (g 1) (fun o => { o with feathering := true }) c
    | _ => modOwned (g 1) (fun o => { o with chip := chip, lead := g 2, known := true }) c

end Sys2Proof.Machine
end

