-- ==== Sys2Proof/Machine/Skim.lean ====
section
/-!
DEFINITION. Skim (chapter 8): coats, voice sends, the pass, ramps, safe-load sets, chain buses and exchange channels.
-/

namespace Sys2Proof.Machine

/-- Skim changes. -/
def modSkim (f : Skim → Skim) (c : Chip) : Chip := { c with skim := f c.skim }

/-- A destination or source as one number. -/
def tapKey (kind ix : Nat) : Nat := 4096 * kind + ix

/-! ### Coat words (R241 to R244) -/

/-- A decoded coat word. -/
structure CoatWord where
  op : Nat
  g : Nat
  ramp : Nat
  e : Nat
  sk : Nat
  si : Nat
  dk : Nat
  di : Nat
  res : Nat
  deriving DecidableEq, Repr

/-- The fields of a coat word (R241). -/
def coatWord (w : Nat) : CoatWord :=
  ⟨bits w 63 60, bits w 59 59, bits w 58 46, bits w 45 42, bits w 41 38, bits w 37 26, bits w 25 22, bits w 21 10, bits w 9 0⟩

/-- LANES and LEVELS (R244). -/
def coatLaneCount (img : List Byte) : Nat := field img 6 1
def coatLevelCount (img : List Byte) : Nat := field img 7 1

/-- Word offset and count of a lane (R244). -/
def laneEntry (img : List Byte) (l : Nat) : Nat × Nat := (field img (0x40 + 8 * l) 4, field img (0x44 + 8 * l) 4)

/-- A lane's stream. -/
def laneWords (img : List Byte) (l : Nat) : List CoatWord :=
  let e := laneEntry img l
  (upTo e.2).map (fun i => coatWord (field img (0x240 + 8 * (e.1 + i)) 8))

/-- Every lane's stream; the empty coat has none (R246). -/
def coatLanes (img : List Byte) : List (List CoatWord) := (upTo (coatLaneCount img)).map (laneWords img)

/-- The words of a stream by level: BAR ends a level and END the stream (R242). -/
def byLevel : List CoatWord → List (List CoatWord)
  | [] => [[]]
  | w :: ws =>
    if w.op = 6 then [] :: byLevel ws
    else if w.op = 7 then [[]]
    else match byLevel ws with
      | l :: rest => (w :: l) :: rest
      | [] => [[w]]

/-- Lane cycles of a word (R242). -/
def CoatWord.cycles (w : CoatWord) : Nat := if w.op = 3 ∨ w.op = 4 then 2 else 1

/-- Coat cycles (R242); the empty coat takes 1 (R246, R258). -/
def coatCycles (img : List Byte) : Nat :=
  let lanes := (coatLanes img).map byLevel
  let n := max 1 (coatLevelCount img)
  ((upTo n).map (fun i =>
    let own := (lanes.map (fun l => ((l.getD i []).map CoatWord.cycles).sum)).foldl max 0
    own + (if i + 1 = n then 1 else 4))).sum

/-! ### Capacity (R37, R232) -/

/-- Lane cycles per sample. Entry 11, DESIGN CHOICE. -/
def laneCycles : Nat → Nat
  | 0 => 22675 | 1 => 20833 | 2 => 11337 | 3 => 10416 | 4 => 5668 | _ => 5208
/-- The send reservation. -/
def sendReserve (rate : Nat) : Nat := if 4 ≤ rate then 2176 else 4352
/-- The coat budget (R232). -/
def coatBudget (rate : Nat) : Nat := laneCycles rate - sendReserve rate - 320
/-- TDM channels each way (R37). -/
def Chip.tdmChannels (c : Chip) : Nat := if 4 ≤ c.time.rate then 64 else 128

/-! ### Commit (R245) -/

/-- Does a word leave 0 what its operation does not use (R241, R242)? Entry 57, DESIGN CHOICE. -/
def CoatWord.clean (w : CoatWord) : Bool :=
  w.res == 0 && (w.g == 1 || w.ramp == 0) &&
  (if 1 ≤ w.op ∧ w.op ≤ 4 then w.dk == 0 && w.di == 0
   else w.g == 0 && w.ramp == 0 && w.e == 0 && w.sk == 0 && w.si == 0 && (w.op == 5 || (w.dk == 0 && w.di == 0)))

/-- Check 1 (R244, R245). -/
def coatFormat (img : List Byte) : Bool :=
  decide (0x240 ≤ img.length) && field img 0 4 == 0x434F5431 && field img 4 2 == 1 &&
  decide (1 ≤ coatLaneCount img ∧ coatLaneCount img ≤ 64) && decide (1 ≤ coatLevelCount img) &&
  zeroAt img 8 56 &&
  (upTo 64).all (fun l =>
    let e := laneEntry img l
    decide (e.2 = 0 ∨ 0x240 + 8 * (e.1 + e.2) ≤ img.length) && (decide (l < coatLaneCount img) || e.2 == 0)) &&
  (coatLanes img).all (fun ws => ws.all (fun w => decide (8 ≤ w.op) || w.clean))

/-- Check 2: an END stands last and nowhere else. Entry 57, DESIGN CHOICE. -/
def coatLength (img : List Byte) : Bool :=
  decide (coatLevelCount img ≤ 64) &&
  (coatLanes img).all (fun ws =>
    decide (ws.length ≤ 8192) && decide ((ws.filter (fun w => w.op == 6)).length + 1 = coatLevelCount img) &&
    (ws.getLast?.map (fun w => w.op == 7)).getD false && decide ((ws.filter (fun w => w.op == 7)).length = 1))

/-- Indices of a source or destination kind (R243). -/
def tapCount (c : Chip) (src : Bool) (kind : Nat) : Nat :=
  match kind with
  | 0 => 1024 | 1 => 512 | 2 => c.tdmChannels | 3 => 1024 | 4 => 512 | 5 => 256
  | 6 => if src then 0 else 256
  | _ => 0

/-- Check 3. -/
def coatOperands (c : Chip) (img : List Byte) : Bool :=
  (coatLanes img).all (fun ws => ws.all (fun w =>
    decide (w.op < 8) &&
    (!(decide (1 ≤ w.op) && decide (w.op ≤ 4)) || decide (w.si < tapCount c true w.sk)) &&
    (w.op != 5 || decide (w.di < tapCount c false w.dk))))

/-- Every PUT of a coat with its level, in the order of levels and lanes. -/
def coatPuts (img : List Byte) : List (Nat × Nat) :=
  (coatLanes img).flatMap (fun ws => ((byLevel ws).zipIdx).flatMap (fun l =>
    (l.1.filter (fun w => w.op == 5)).map (fun w => (l.2, tapKey w.dk w.di))))

/-- Every local bus read with its level. -/
def coatReads (img : List Byte) : List (Nat × Nat) :=
  (coatLanes img).flatMap (fun ws => ((byLevel ws).zipIdx).flatMap (fun l =>
    (l.1.filter (fun w => decide (1 ≤ w.op) && decide (w.op ≤ 4) && w.sk == 0)).map (fun w => (l.2, w.si))))

/-- No element of a list twice. -/
def noRepeat : List (Nat × Nat) → Bool
  | [] => true
  | x :: xs => !xs.contains x && noRepeat xs

/-- Check 4. -/
def coatOrder (img : List Byte) : Bool :=
  let puts := coatPuts img
  let busPuts := puts.filter (fun p => decide (p.2 < 4096))
  let taps := (puts.filter (fun p => decide (8192 ≤ p.2))).map (fun p => (0, p.2))
  (coatReads img).all (fun r => busPuts.all (fun p => p.2 != r.2 || decide (p.1 < r.1))) && noRepeat busPuts && noRepeat taps

/-- The access kind of a source and of a destination (R411). -/
def tapAccess (src : Bool) (kind : Nat) : Nat :=
  match kind with
  | 0 => 0x06 | 1 => 0x07 | 2 => if src then 0x0B else 0x0A | 3 => if src then 0x0D else 0x0C | 4 => 0x0E | _ => 0x09

/-- Check 6. Entry 57, DESIGN CHOICE. -/
def coatAllowed (c : Chip) (m : Nat) (img : List Byte) : Bool :=
  (coatLanes img).all (fun ws => ws.all (fun w =>
    if 1 ≤ w.op ∧ w.op ≤ 4 then c.may (tapAccess true w.sk) w.si m 0 && (w.g == 0 || c.may 0x08 w.ramp m 1)
    else w.op != 5 || c.may (tapAccess false w.dk) w.di m 1))

/-- The Result of a commit of the staging coat by a master (R245). -/
def coatResult (c : Chip) (m : Nat) : Nat :=
  let img := c.blob Obj.skimCoatImage
  if !coatFormat img then 1 else if !coatLength img then 2 else if !coatOperands c img then 3
  else if !coatOrder img then 4 else if coatBudget c.time.rate < coatCycles img then 5
  else if !coatAllowed c m img then 6 else if c.skim.wet.phase ≠ .idle then 7 else 0

/-- STATUS of a write that a Result refuses (R427). -/
def resultStatus : Nat → Nat
  | 0 => St.ok | 6 => St.noAccess | 7 => St.busy | _ => St.refused

/-- Skim.Coat.Status (R258, R469). -/
def Chip.coatStatus (c : Chip) : Nat :=
  if c.skim.wet.phase ≠ .idle then 3 else if !c.skim.next.isEmpty then 2
  else if !(c.blob Obj.skimCoatImage).isEmpty then 1 else 0

/-- The next coat becomes an image; empty clears it. -/
def setNext (img : List Byte) (c : Chip) : Chip :=
  let c := modSkim (fun k => { k with next := img }) c
  setNum Obj.skimCoatNextCycles (if img.isEmpty then 0 else coatCycles img)
    (setNum Obj.skimCoatNextHash (if img.isEmpty then 0 else Config.sha384 img) c)

/-- The current coat becomes an image; empty for the empty coat. -/
def setCurrent (img : List Byte) (c : Chip) : Chip :=
  let c := modSkim (fun k => { k with current := img }) c
  setNum Obj.skimCoatCurrentCycles (coatCycles img)
    (setNum Obj.skimCoatCurrentHash (if img.isEmpty then 0 else Config.sha384 img) c)

/-- The rule of Skim.Coat.Commit 1. -/
def coatCommitAct : Act := chipAct (fun m c =>
  let r := coatResult c m
  let c := setNum Obj.skimCoatResult r c
  if r ≠ 0 then (c, resultStatus r)
  else (quietExit (leaseSet 4 Obj.skimCoatCommit m noTerm (setNext (c.blob Obj.skimCoatImage) c)), St.ok))

/-- COAT_COMMIT. -/
def execCoatCommit (r : Req) (s : State) : Host.Outcome State Fault Refusal :=
  serveRow r Obj.skimCoatCommit [1] coatCommitAct s

/-- The rule of Skim.Coat.Commit 2; a wet edge keeps the next coat (R246, R476). Entry 57, DESIGN CHOICE. -/
def coatClearAct : Act := chipAct (fun _ c =>
  if c.skim.wet.phase ≠ .idle then (setNum Obj.skimCoatResult 7 c, St.busy)
  else (leaseDrop 4 Obj.skimCoatCommit (setNext [] (setNum Obj.skimCoatResult 0 c)), St.ok))

/-- COAT_CLEAR. -/
def execCoatClear (r : Req) (s : State) : Host.Outcome State Fault Refusal :=
  serveRow r Obj.skimCoatCommit [2] coatClearAct s

/-- A write of Skim.Coat.Image fills the staging image, under its staging lease (R258, R492). -/
def coatImageAct (img : List Byte) : Act :=
  actWhen (fun m c => if c.leasedByOther 2 Obj.skimCoatImage m then St.busy else St.ok)
    (fun m c => stageLease Obj.skimCoatImage m (setBlob Obj.skimCoatImage img c))

/-- The current coat falls back to the empty coat and its image becomes the next coat (R247, R479). -/
def coatFallback (c : Chip) : Chip :=
  let img := c.skim.current
  let c := setNext img (setCurrent [] c)
  snag 0x1202 0 0xFF (bump Obj.skimCountersCoatFallbacks c)

/-! ### Ramps (R248) -/

/-- A ramp unit. -/
def Chip.ramp (c : Chip) (n : Nat) : Ramp := tget {} c.skim.ramps n

/-- Skim.Ramp.Gain and .Target, Q3.21. -/
def Chip.rampGain (c : Chip) (n : Nat) : Int := shrFloor (c.ramp n).cur 16
def Chip.rampTarget (c : Chip) (n : Nat) : Int := shrFloor (c.ramp n).target 16

/-- A ramp starts toward a target in Q3.37 with `n` steps (R248). -/
def Ramp.begin (target : Int) (n : Nat) (r : Ramp) : Ramp :=
  if n = 0 then { cur := target, target := target, step := 0, left := 0 }
  else { r with target := target, step := Int.fdiv (target - r.cur) n, left := n }

/-- One step (R248). -/
def Ramp.advance (r : Ramp) : Ramp :=
  match r.left with
  | 0 => r
  | 1 => { cur := r.target, target := r.target, step := 0, left := 0 }
  | n + 2 => { r with cur := r.cur + r.step, left := n + 1 }

/-- A safe-load entry of space 0x30 (R248, R249). -/
def startRamp (n value time : Nat) (c : Chip) : Chip :=
  modSkim (fun k => { k with ramps := tmod {} k.ramps n (Ramp.begin (toSigned 24 value * 65536) ((time * c.fs + 999) / 1000)) }) c

/-- Every ramp unit advances. -/
def advanceRamps (c : Chip) : Chip :=
  modSkim (fun k => { k with ramps := (k.ramps.map (fun e => (e.1, e.2.advance))).filter (fun e => decide (e.2 ≠ {})) }) c

/-! ### Safe-load sets (R249, R250, R268, R269) -/

/-- The object a Screed parameter names (R268): UNIT and PARAM. -/
def screedParam (ix : Nat) : Option Nat :=
  let unit := ix / 4096
  let p := ix % 16
  if bits ix 11 4 ≠ 0 then none
  else if unit < 0x100 then (if p < 8 then some (0x31000000 + (0x1000 + unit) * 256 + p + 1) else none)
  else if unit < 0x180 then (if p < 2 then some (0x31000000 + (0x2000 + unit - 0x100) * 256 + p + 1) else none)
  else if 0x200 ≤ unit ∧ unit < 0x600 then (if p < 2 then some (0x31000000 + (0x3000 + unit - 0x200) * 256 + p + 1) else none)
  else none

/-- Is a VALUE one of the object's, right-aligned and sign-extended (R268)? -/
def paramValueOk (o v : Nat) : Bool :=
  match objFind o with
  | some d => (match d.kind with
    | .num _ sg => d.chk.ok (if sg then toSigned 32 v else (v : Int))
    | .bytes _ => false)
  | none => false

/-- The entries of a set image (R249). -/
def setEntries (img : List Byte) : List LoadEntry :=
  (upTo (field img 4 1)).map (fun i =>
    { addr := field img (0x20 + 16 * i) 4, value := field img (0x24 + 16 * i) 4, time := field img (0x28 + 16 * i) 2 })

/-- Check "Format" of R249. -/
def setFormat (img : List Byte) : Bool :=
  img.length == 1056 && field img 0 4 == 0x534C5331 && decide (1 ≤ field img 4 1 ∧ field img 4 1 ≤ 64) &&
  zeroAt img 5 3 && zeroAt img 0x10 16 &&
  (upTo 64).all (fun i => if i < field img 4 1 then zeroAt img (0x2A + 16 * i) 6 else zeroAt img (0x20 + 16 * i) 16)

/-- Check "space, index or TIME" of R249 and R268. Entry 59, DESIGN CHOICE. -/
def LoadEntry.valid (e : LoadEntry) : Bool :=
  let ix := e.addr % 2 ^ 24
  if e.addr / 2 ^ 24 = 0x30 then
    decide (ix < 8192) && decide (e.time ≤ 2000) && e.value == wrap 32 (ofInt 32 (toSigned 24 e.value))
  else if e.addr / 2 ^ 24 = 0x31 then
    e.time == 0 && (match screedParam ix with | some o => paramValueOk o e.value | none => false)
  else false

/-- Check of permissions (R249, R268): the tenant that owns the slot. -/
def LoadEntry.allowed (c : Chip) (t : Nat) (e : LoadEntry) : Bool :=
  let ix := e.addr % 2 ^ 24
  let unit := ix / 4096
  let m := 0x10 + t
  if e.addr / 2 ^ 24 = 0x30 then c.may 0x08 ix m 1
  else if unit < 0x100 then c.may 0x09 unit m 1
  else if unit < 0x180 then c.may 0x0A (unit - 0x100) m 1
  else c.may 0x0C (unit - 0x200) m 1

/-- The set a slot has PENDING or TAKEN. -/
def Chip.setOf (c : Chip) (i : Nat) : Option LoadSet := c.skim.sets.find? (fun x => x.slot == some i)

/-- Status of a slot: state and LATE (R258). -/
def setLoadStatus (i st : Nat) (late : Bool) (c : Chip) : Chip :=
  setNum (Obj.skimSafeLoadStatus i) (st + (if late then 0x80 else 0)) c

/-- The Result of a commit of a slot (R249). -/
def safeLoadResult (c : Chip) (i : Nat) : Nat :=
  let img := c.blob (Obj.skimSafeLoadImage i)
  let es := setEntries img
  if !setFormat img then 1 else if !es.all LoadEntry.valid then 2
  else if !es.all (LoadEntry.allowed c (i / 16)) then 6 else if (c.setOf i).isSome then 7 else 0

/-- A set becomes PENDING at the present tick (R250). Entry 59, DESIGN CHOICE. -/
def addSet (slot : Option Nat) (applyTick : Nat) (es : List LoadEntry) (c : Chip) : Chip :=
  let due := max applyTick (c.time.stc + 1 - c.bsize)
  let x : LoadSet := { slot := slot, applyTick := applyTick, due := due, seq := c.skim.nextSet, entries := es,
                       late := applyTick == 0 || decide (applyTick < due) }
  modSkim (fun k => { k with sets := k.sets ++ [x], nextSet := k.nextSet + 1 }) c

/-- The rule of SafeLoad.Commit 1. -/
def safeLoadCommitAct (i : Nat) : Act := chipAct (fun _ c =>
  let r := safeLoadResult c i
  let c := setNum (Obj.skimSafeLoadResult i) r c
  if r ≠ 0 then (c, if r = 2 then St.badValue else resultStatus r)
  else
    let img := c.blob (Obj.skimSafeLoadImage i)
    let c := addSet (some i) (field img 8 8) (setEntries img) c
    (setLoadStatus i 2 (((c.setOf i).map (fun x => x.late)).getD false) c, St.ok))

/-- SAFE_LOAD_COMMIT. -/
def execSafeLoadCommit (r : Req) (slot : Fin 256) (s : State) : Host.Outcome State Fault Refusal :=
  serveRow r (Obj.skimSafeLoadCommit slot.val) [1] (safeLoadCommitAct slot.val) s

/-- The rule of SafeLoad.Commit 2 (R250). Entry 59, DESIGN CHOICE. -/
def safeLoadCancelAct (i : Nat) : Act := chipAct (fun _ c =>
  match c.setOf i with
  | some x =>
    if x.taken.isSome then (setNum (Obj.skimSafeLoadResult i) 8 c, St.refused)
    else (setNum (Obj.skimSafeLoadResult i) 0 (setLoadStatus i 1 false
      (modSkim (fun k => { k with sets := k.sets.filter (fun y => y.slot != some i) }) c)), St.ok)
  | none =>
    if c.num (Obj.skimSafeLoadStatus i) % 128 = 4 then (setNum (Obj.skimSafeLoadResult i) 8 c, St.refused) else (c, St.ok))

/-- SAFE_LOAD_CANCEL. -/
def execSafeLoadCancel (r : Req) (slot : Fin 256) (s : State) : Host.Outcome State Fault Refusal :=
  serveRow r (Obj.skimSafeLoadCommit slot.val) [2] (safeLoadCancelAct slot.val) s

/-- A write of a set image: the slot is STAGED unless its set is PENDING or TAKEN, which keeps its entries (R250).
Entry 59, DESIGN CHOICE. -/
def safeLoadImageAct (i : Nat) (img : List Byte) : Act := chipAct (fun _ c =>
  let c := setBlob (Obj.skimSafeLoadImage i) img c
  (if (c.setOf i).isSome then c else setLoadStatus i 1 false c, St.ok))

/-- Order of sets that are due at one boundary: APPLY_TICK, tenant, slot; dictionary writes after the tenants' (R250).
Entry 59, DESIGN CHOICE. -/
def LoadSet.before (a b : LoadSet) : Bool :=
  let key (x : LoadSet) : List Nat := [x.applyTick, (x.slot.getD 256), x.seq]
  keyLt (key a) (key b)

/-- The sets due for sample `p` are taken, four at a boundary (R250). -/
def takeSets (p : Nat) (c : Chip) : Chip :=
  let already := (c.skim.sets.filter (fun x => x.taken == some p)).length
  let due := (c.skim.sets.filter (fun x => x.taken.isNone && decide (x.due ≤ p))).sortBy (fun a b => !b.before a)
  let now := (due.take (4 - already)).map (fun x => x.seq)
  let later := (due.drop (4 - already)).map (fun x => x.seq)
  let c := modSkim (fun k => { k with sets := k.sets.map (fun x =>
    if now.contains x.seq then { x with taken := some p, late := x.late || x.deferred }
    else if later.contains x.seq then { x with late := true, deferred := true } else x) }) c
  forEach (c.skim.sets.filter (fun x => now.contains x.seq || later.contains x.seq)) (fun x c =>
    match x.slot with
    | some i => setLoadStatus i (if x.taken.isSome then 3 else 2) x.late c
    | none => c) c

/-- SAFE_LOAD_TAKEN: at the start of tick t the sets that apply in the pass of tick t + 1 (R250). -/
def execSafeLoadTaken (s : State) : Host.Outcome State Fault Refusal :=
  s.onChip (fun c => if c.bsize ≤ c.time.stc then takeSets (c.time.stc - c.bsize) c else c)

/-- A Screed parameter takes its value (R264, R268): Mode OFF clears the instance. -/
def applyScreed (ix value : Nat) (c : Chip) : Chip :=
  match screedParam ix with
  | none => c
  | some o =>
    let c := setNum o value c
    if ix / 4096 < 0x100 ∧ ix % 16 = 0 ∧ value = 0 then
      { c with screed := { c.screed with insts := tdel c.screed.insts (ix / 4096), rets := tdel c.screed.rets (ix / 4096),
                                         newRets := tdel c.screed.newRets (ix / 4096) } }
    else c

/-- One entry of a set takes effect. -/
def applyEntry (e : LoadEntry) (c : Chip) : Chip :=
  let ix := e.addr % 2 ^ 24
  if e.addr / 2 ^ 24 = 0x30 then startRamp ix e.value e.time c else applyScreed ix e.value c

/-- The sets taken for sample `p` are applied in its start phase (R231, R250). -/
def applySets (p : Nat) (c : Chip) : Chip :=
  let xs := (c.skim.sets.filter (fun x => x.taken == some p)).sortBy (fun a b => !b.before a)
  let c := forEach xs (fun x c =>
    let c := forEach x.entries applyEntry c
    let c := when_ x.late (bump Obj.skimCountersLateSafeLoads) c
    match x.slot with
    | some i =>
      raise (i / 16) (40 + i % 16) (setNum (Obj.skimSafeLoadAppliedTick i) p (setLoadStatus i 4 x.late c))
    | none => c) c
  modSkim (fun k => { k with sets := k.sets.filter (fun x => x.taken != some p) }) c

/-- The rule of a dictionary write to an RWS Screed object (R269): a one-entry set with APPLY_TICK 0. -/
def screedWriteAct (ix value : Nat) : Act := chipAct (fun _ c =>
  (addSet none 0 [{ addr := 0x31 * 2 ^ 24 + ix, value := value, time := 0 }] c, St.ok))

/-- W on the unit that a Screed parameter belongs to (R411). -/
def screedMay (c : Chip) (unit m : Nat) : Bool :=
  if unit < 0x100 then c.may 0x09 unit m 1 else if unit < 0x180 then c.may 0x0A (unit - 0x100) m 1
  else c.may 0x0C (unit - 0x200) m 1

/-- The rule of an RWS Screed object. -/
def screedRwsAct (unit param value : Nat) : Act := fun m s =>
  if screedMay s.chip unit m then screedWriteAct (unit * 4096 + param) value m s else (s, St.noAccess)

/-- SCREED_PARAMETER_WRITE: PARAM of UNIT takes a value through the dictionary. -/
def execScreedParameterWrite (r : Req) (unit : Fin 1536) (param : Fin 8) (value : BitVec 32) (s : State) :
    Host.Outcome State Fault Refusal :=
  match screedParam (unit.val * 4096 + param.val) with
  | some o => serveRow r o (leBytes (objWidth o) value.toNat) (screedRwsAct unit.val param.val value.toNat) s
  | none => .next s

/-! ### Chain buses (R251 to R253, R335) -/

/-- Was the packet of sample `m` built before tick `t` (R362, R374)? -/
def Chip.builtBefore (c : Chip) (m t : Nat) : Bool := decide (m + c.bsize + 1 < t)

/-- May a port carry the packets of sample `m` (R344, R348, R349, R362)? -/
def Chip.busPort (c : Chip) (p m : Nat) : Bool :=
  c.num (Obj.lathPortState p) == 4 && c.flag (Obj.lathPortAdmit p) && !(tget {} c.chain.ports p).declared &&
  !(if c.builtBefore m c.chain.switchAt then c.chain.oldCut.contains p else c.flag (Obj.lathPortCut p))

/-- The epoch in force for the pass of sample `m` (R374). -/
def Chip.epochOf (c : Chip) (m : Nat) : Nat :=
  if c.builtBefore m c.chain.epochFrom then c.chain.oldEpoch else c.num Obj.chainEpoch

/-- Does a chip add its contribution (R253, R356)? -/
def Chip.contributes (c : Chip) : Bool := c.num Obj.chainState < 3

/-- The presentation delay D (R45, R258). -/
def Chip.presentDelay (c : Chip) : Nat := max (c.num Obj.skimChainPresentDelay) (c.num Obj.skimChainPresentMin)

/-- Sum of two bus maps modulo 2^64. -/
def addBuses (a b : Table Int) : Table Int :=
  b.foldl (fun t e => tset 0 t e.1 (toSigned 64 (ofInt 64 (tget 0 t e.1 + e.2)))) a

/-- A bus packet goes out (R335). -/
def sendBus (rising : Bool) (m contrib origin : Nat) (vals : Table Int) (c : Chip) : Chip :=
  emit (.lath (if rising then 0 else 1) 3 (if rising then 0 else 1) 0xFE (m % 2 ^ 32)
    ([m / 2 ^ 32, contrib % 256, origin, c.epochOf m] ++ (upTo 512).map (fun b => ofInt 64 (tget 0 vals b)))) c

/-- The packet of sample `m` of a stream is forwarded once this chip's contribution and the arriving packet are there;
an end chip starts the stream (R251, R252). -/
def forwardBus (rising : Bool) (m : Nat) (c : Chip) : Chip :=
  let inPort := if rising then 1 else 0
  let st := if rising then c.skim.rising else c.skim.falling
  if c.busPort (1 - inPort) m ∧ m < c.skim.passed then
    let x := tget [] c.skim.own m
    let add := if c.contributes then 1 else 0
    if c.busPort inPort m then
      (match st.packets.find? (fun e => e.1 == m) with
        | some (_, k, vals) => sendBus rising m (k + add) st.origin (addBuses vals x) c
        | none => c)
    else sendBus rising m add c.me x c
  else c

/-- One stream's part of the presented sum of sample `m`, and its CONTRIB; a packet not here is missing (R253).
Entry 58, DESIGN CHOICE. -/
def useStream (rising : Bool) (m : Nat) (c : Chip) : (Table Int × Option Nat) × Chip :=
  let st := if rising then c.skim.rising else c.skim.falling
  let put (x : Stream) (c : Chip) : Chip :=
    modSkim (fun k => if rising then { k with rising := x } else { k with falling := x }) c
  if !c.busPort (if rising then 1 else 0) m then (([], some 0), put {} c)
  else
    let rest := st.packets.filter (fun e => decide (m < e.1))
    match st.packets.find? (fun e => e.1 == m) with
    | some (_, k, vals) => ((vals, some k), put { st with packets := rest, last := vals, missing := 0 } c)
    | none =>
      let j := st.missing + 1
      let vals := if c.bsize ≤ j then [] else
        (st.last.map (fun e => (e.1, Int.fdiv (e.2 * ((c.bsize - j : Nat) : Int)) c.bsize))).filter (fun e => e.2 != 0)
      ((vals, none), bump Obj.skimCountersChainMissed (put { st with packets := rest, missing := j } c))

/-- Members that are not quarantined (R335): states in the view's entries. -/
def Chip.contributors (c : Chip) : Nat :=
  ((upTo 128).filter (fun i => slice (c.viewEntry i) 0 16 != zeros 16 && field (c.viewEntry i) 17 1 == 2)).length

/-- The complete sum that the pass of sample `s` reads (R252, R335). -/
def presented (s : Nat) (c : Chip) : Table Int × Chip :=
  let d := c.presentDelay
  if s < d then ([], c)
  else
    let m := s - d
    let r := useStream true m c
    let f := useStream false m r.2
    let x := tget [] f.2.skim.own m
    let total := addBuses (addBuses r.1.1 f.1.1) x
    let bad := match r.1.2, f.1.2 with
      | some a, some b => c.isMember && (a + b + 1) % 256 != c.contributors % 256
      | _, _ => false
    (total, when_ bad (bump Obj.lathCountersContribMismatch) f.2)

/-- BUS_RISING and BUS_FALLING: a packet arrives; one with another epoch, or later than its pass, counts as missing
(R251 to R253, R374). Entry 58, DESIGN CHOICE. -/
def takeBus (rising : Bool) (m contrib origin epoch : Nat) (values : List (BitVec 64)) (c : Chip) : Chip :=
  if !c.busPort (if rising then 1 else 0) m || epoch != c.epochOf m || decide (m + c.presentDelay < c.skim.passed) then c
  else
    let vals : Table Int := ((values.zipIdx).map (fun v => (v.2, v.1.toInt))).filter (fun e => e.2 != 0 && decide (e.1 < 512))
    let add (x : Stream) : Stream := { x with packets := tput x.packets m (contrib, vals), origin := origin }
    let c := modSkim (fun k => if rising then { k with rising := add k.rising } else { k with falling := add k.falling }) c
    forwardBus rising m c

/-- BUS_RISING. -/
def execBusRising (m : BitVec 64) (contrib origin : Byte) (epoch : BitVec 32) (values : List (BitVec 64)) (s : State) :
    Host.Outcome State Fault Refusal :=
  s.onChip (takeBus true m.toNat contrib.toNat origin.toNat epoch.toNat values)
/-- BUS_FALLING. -/
def execBusFalling (m : BitVec 64) (contrib origin : Byte) (epoch : BitVec 32) (values : List (BitVec 64)) (s : State) :
    Host.Outcome State Fault Refusal :=
  s.onChip (takeBus false m.toNat contrib.toNat origin.toNat epoch.toNat values)

/-! ### The pass (R231, R233, R236 to R240) -/

/-- What a pass builds: one bank of local buses, chain contributions, taps, and the lanes' ACC. -/
structure Pass where
  buses : Table Int := []
  chain : Table Int := []
  outs : Table Int := []
  acc : Table Int := []
  windowClips : Nat := 0
  accClips : Nat := 0
  busClips : Nat := 0
  tapClips : Nat := 0
  chainClips : Nat := 0
  deriving DecidableEq, Repr

/-- Saturation to Q17.39. -/
def satBus (z : Int) : Int := clampInt (-(2 ^ 55)) (2 ^ 55 - 1) z
/-- Saturation to Q9.23. -/
def satTap (z : Int) : Int := clampInt (-(2 ^ 31)) (2 ^ 31 - 1) z

/-- Sample `i` of a voice's frame, left (0) or right (1), Q23; 0 where the word is uncorrectable (R233, R300, R478). -/
def Chip.renderedSample (c : Chip) (r : Rendered) (ch i : Nat) : Int :=
  match r.putty with
  | some (l, rr, g) =>
    let last := if ch = 0 then l else rr
    let gain : Int := if g = 0x7FFF then 32768 else g
    Int.fdiv (last * gain * ((c.bsize - 1 - i : Nat) : Int)) (32768 * c.bsize)
  | none =>
    let p := outputPlace r.lead r.frame ch i
    if c.badAt p 4 then 0 else toSigned 32 (leNat (c.bytesAt p 4))

/-- The send stage of sample `s` (R233, R236): each bus's exact sum, saturated once. Entry 58, DESIGN CHOICE. -/
def sendStage (s : Nat) (c : Chip) : Pass :=
  let k := s / c.bsize
  let i := s % c.bsize
  let put (bus : Nat) (x : Int) (p : Pass) : Pass :=
    if bus < 0x8000 then { p with buses := tmod 0 p.buses bus (fun y => y + x) }
    else { p with chain := tmod 0 p.chain (bus - 0x8000) (fun y => y + x) }
  let p := forEach (c.hawk.rendered.filter (fun r => r.frame == k)) (fun r p =>
    forEach r.sends (fun e p =>
      let l := c.renderedSample r 0 i * e.2 * 2
      if r.stereo then put (e.1 - e.1 % 2 + 1) (c.renderedSample r 1 i * e.2 * 2) (put (e.1 - e.1 % 2) l p)
      else put e.1 l p) p) ({} : Pass)
  { p with buses := (p.buses.map (fun e => (e.1, satBus e.2))),
           chain := (p.chain.map (fun e => (e.1, toSigned 64 (ofInt 64 e.2)))).filter (fun e => e.2 != 0) }

/-- An enabled task bound to an exchange channel (R254). -/
def Chip.exchangeTask (c : Chip) (x : Nat) : Option Nat :=
  let t := c.num (Obj.skimExchangeTask x)
  if t < 1024 && c.flag (Obj.trowelTaskEnable t) then some t else none

/-- Where the exchange RAM holds word `i` of frame `k` of a channel (R255). Entry 61, DEDUCED. -/
def exchangeWord (x k i : Nat) : Nat := memExchange (1024 * x + 256 * (k % 4) + 4 * i)

/-- A source widened to Q17.39, and whether it saturated (R237). Entry 58, DESIGN CHOICE. -/
def Chip.source (c : Chip) (s : Nat) (pres : Table Int) (p : Pass) (sk si : Nat) : Int × Bool :=
  match sk with
  | 0 => (tget 0 p.buses si, false)
  | 1 => let v := tget 0 pres si; (satBus v, satBus v != v)
  | 2 => (tget 0 c.skim.tdmIn1 si * 256, false)
  | 3 => ((tget [] c.skim.hostIn (1024 * (s / c.bsize % 2) + si)).getD (s % c.bsize) 0 * 256, false)
  | 4 =>
    if c.num (Obj.skimExchangeDir si) = 2 ∧ (c.exchangeTask si).isSome then
      (toSigned 32 (leNat (c.bytesAt (exchangeWord si (s / c.bsize) (s % c.bsize)) 4)) * 65536, false)
    else (0, false)
  | _ => (if c.screed.lost || c.num (Obj.screedInstMode si) != 1 then 0 else tget 0 c.screed.rets si * 65536, false)

/-- The window of a source: 24 or 48 bits, and whether it was replaced by a limit (R238). -/
def window (wide : Bool) (e : Nat) (v : Int) : Int × Bool :=
  let top : Int := 2 ^ (39 + e)
  let lim : Int := if wide then 2 ^ 47 else 2 ^ 23
  if v < -top then (-lim, true) else if top ≤ v then (lim - 1, true)
  else if wide then (if e ≤ 8 then v * 2 ^ (8 - e) else shrFloor v (e - 8), false)
  else (shrFloor v (16 + e), false)

/-- Window times gain aligned to Q17.39 (R239). -/
def laneProduct (wide : Bool) (e : Nat) (win gain : Int) : Int :=
  if wide then shrFloor (win * gain) (29 - e)
  else if 5 ≤ e then win * gain * 2 ^ (e - 5) else shrFloor (win * gain) (5 - e)

/-- One coat word on a lane (R238 to R242). -/
def runWord (c : Chip) (s lane : Nat) (pres : Table Int) (w : CoatWord) (p : Pass) : Pass :=
  let acc := match p.acc.find? (fun e => e.1 == lane) with
    | some e => e.2
    | none => satBus (Config.laneAcc s lane)
  if 1 ≤ w.op ∧ w.op ≤ 4 then
    let wide := decide (3 ≤ w.op)
    let v := c.source s pres p w.sk w.si
    let win := window wide w.e v.1
    let g : Int := if w.g = 1 then c.rampGain w.ramp else 2 ^ 21
    let z := laneProduct wide w.e win.1 g + (if w.op = 2 ∨ w.op = 4 then acc else 0)
    { p with acc := tput p.acc lane (satBus z), windowClips := p.windowClips + (if win.2 then 1 else 0),
             accClips := p.accClips + (if satBus z = z then 0 else 1), chainClips := p.chainClips + (if v.2 then 1 else 0) }
  else if w.op = 5 then
    if w.dk = 0 then
      let z := tget 0 p.buses w.di + acc
      { p with buses := tset 0 p.buses w.di (satBus z), busClips := p.busClips + (if satBus z = z then 0 else 1) }
    else if w.dk = 1 then
      { p with chain := tset 0 p.chain w.di (toSigned 64 (ofInt 64 (tget 0 p.chain w.di + acc))) }
    else
      let z := shrFloor acc 16
      { p with outs := tset 0 p.outs (tapKey w.dk w.di) (satTap z), tapClips := p.tapClips + (if satTap z = z then 0 else 1) }
  else p

/-- A coat runs level by level, all lanes in step (R231, R242). -/
def runCoat (img : List Byte) (s : Nat) (pres : Table Int) (c : Chip) (p : Pass) : Pass :=
  let lanes := (coatLanes img).map byLevel
  let p := { p with acc := [] }
  forEach (upTo (coatLevelCount img)) (fun i p =>
    forEach lanes.zipIdx (fun l p => forEach (l.1.getD i []) (fun w p => runWord c s l.2 pres w p) p) p) p

/-- A linear gain at pass `s` as numerator and denominator (R379, R457). Entry 60, DESIGN CHOICE. -/
def Fade.at (f : Fade) (s : Nat) : Nat × Nat :=
  if s < f.start then (if f.up then 0 else 1, 1)
  else if f.start + f.len ≤ s then (if f.up then 1 else 0, 1)
  else if f.up then (s - f.start + 1, f.len) else (f.len - 1 - (s - f.start), f.len)

/-- The gain of a list of fades: the newest that has begun stands, before any the oldest. -/
def fadesAt (fs : List Fade) (s : Nat) : Nat × Nat :=
  match (fs.filter (fun f => decide (f.start ≤ s))).getLast? with
  | some f => f.at s
  | none => (match fs.head? with | some f => f.at s | none => (1, 1))

/-- A value times a gain, truncated. -/
def scaled (g : Nat × Nat) (v : Int) : Int := if g.1 = g.2 then v else Int.fdiv (v * g.1) g.2

/-- Values by key, each scaled. -/
def scaleAll (g : Nat → Nat × Nat) (t : Table Int) : Table Int :=
  (t.map (fun e => (e.1, scaled (g e.1) e.2))).filter (fun e => e.2 != 0)

/-- The crossfade of two maps at x = j / F (R471). -/
def blend (j len : Nat) (o n : Table Int) : Table Int :=
  let x : Int := min j len * 2 ^ 23 / len
  (o.map Prod.fst ++ n.map Prod.fst).foldl (fun t k =>
    tset 0 t k (tget 0 o k + Int.fdiv ((tget 0 n k - tget 0 o k) * x) (2 ^ 23))) []

/-- The dip gain of changed destinations in the pass of `s` (R472). -/
def Wet.dip (w : Wet) (s : Nat) : Nat × Nat :=
  match w.phase with
  | .dipOut => if w.len = 0 then (1, 1) else (if s < w.start then min (w.start - 1 - s) w.len else 0, w.len)
  | .dipIn => if w.len = 0 then (1, 1) else (min (s + 1 - w.start) w.len, w.len)
  | _ => (1, 1)

/-- SEND frames go to the exchange RAM (R254, R255). -/
def writeSends (s : Nat) (c : Chip) : Chip :=
  forEach ((tkeys c.nums (Obj.skimExchangeDir 0) (Obj.skimExchangeDir 512)).filter (fun o => objSubOf o == 1)) (fun o c =>
    let x := objIndexOf o - 0x4000
    if c.num o = 1 ∧ (c.exchangeTask x).isSome then
      writeBytes (exchangeWord x (s / c.bsize) (s % c.bsize)) (leBytes 4 (ofInt 32 (tget 0 c.skim.outs (tapKey 4 x)))) c
    else c) c

/-- Bus peaks of the frame (R258). Entry 58, DESIGN CHOICE. -/
def notePeaks (s : Nat) (buses : Table Int) (c : Chip) : Chip :=
  let old := if s % c.bsize = 0 then [] else c.skim.peaks
  let t := buses.foldl (fun t e => tset 0 t e.1 (max (tget 0 t e.1) (min (2 ^ 31 - 1) (shrFloor e.2.natAbs 16).toNat))) old
  modSkim (fun k => { k with peaks := t, framePeaks := if s % c.bsize + 1 = c.bsize then t else k.framePeaks }) c

/-- The pass of sample `s` (R231, R471, R472, R475). -/
def skimPass (s : Nat) (c : Chip) : Chip :=
  let c := advanceRamps (applySets s c)
  let pr := presented s c
  let c := pr.2
  let sends := sendStage s c
  let a := runCoat c.skim.current s pr.1 c sends
  let b := if c.skim.wet.phase = .crossing then runCoat c.skim.next s pr.1 c { sends with windowClips := 0 } else {}
  let w := c.skim.wet
  let j := s + 1 - w.start
  let outs := if w.phase = .crossing then blend j (max 1 w.len) a.outs b.outs else a.outs
  let chain := if w.phase = .crossing then blend j (max 1 w.len) a.chain b.chain else a.chain
  let dip (k : Nat) : Nat × Nat := if w.changed.contains k then w.dip s else (1, 1)
  let fade := fadesAt c.skim.outFades s
  let outs := scaleAll (fun k => if k / 4096 = 2 ∨ k / 4096 = 3 then fade else (1, 1)) (scaleAll dip outs)
  let adds := if c.contributes || !c.skim.addFades.isEmpty then fadesAt c.skim.addFades s else (0, 1)
  let own := scaleAll (fun _ => adds) (scaleAll (fun _ => fade) (scaleAll (fun k => dip (tapKey 1 k)) chain))
  let c := bumpBy Obj.skimCountersWindowClips (a.windowClips + b.windowClips) (bumpBy Obj.skimCountersAccClips (a.accClips + b.accClips)
    (bumpBy Obj.skimCountersBusClips (a.busClips + b.busClips) (bumpBy Obj.skimCountersTapClips (a.tapClips + b.tapClips)
    (bumpBy Obj.skimCountersChainClips (a.chainClips + b.chainClips) c))))
  let c := modSkim (fun k => { k with prevOuts := k.outs, outs := outs, passed := s + 1,
                                      own := (tput k.own s own).filter (fun e => decide (s ≤ e.1 + c.presentDelay + 64)) }) c
  let c := notePeaks s a.buses (writeSends s c)
  forwardBus false s (forwardBus true s c)

/-- The sample whose pass runs at the present tick, if there is one (R24). -/
def Chip.passNow (c : Chip) : Option Nat := if c.bsize + 1 ≤ c.time.stc then some (c.time.stc - c.bsize - 1) else none

/-- The sample whose pass runs next. -/
def Chip.passNext (c : Chip) : Nat := c.time.stc - c.bsize

/-- SKIM_OVERRUN: the pass of this tick did not complete: its external values and contribution are those of the pass
before; a crossfade is aborted, and a second overrun within 64 samples ends the coat (R476, R479).
Entry 60, DESIGN CHOICE. -/
def execSkimOverrun (s : State) : Host.Outcome State Fault Refusal :=
  s.onChip (fun c => match c.passNow with
    | none => c
    | some p =>
      if c.skim.passed ≠ p + 1 then c
      else
        let again := c.skim.overrun != 0 && decide (p + 1 < c.skim.overrun + 64)
        let c := modSkim (fun k => { k with outs := k.prevOuts, own := if p = 0 then k.own else tput k.own p (tget [] k.own (p - 1)),
                                            overrun := p + 1 }) c
        let c := snag 0x1203 0 0xFF (bump Obj.skimCountersOverruns (writeSends p c))
        let c := if c.skim.wet.phase = .crossing then
            setNum Obj.skimWetEdgeStatus (5 + (if c.skim.wet.late then 0x80 else 0)) (modSkim (fun k => { k with wet := {} }) c)
          else c
        if again then
          let c := if c.skim.wet.phase ≠ .idle then
              setNum Obj.skimWetEdgeStatus (5 + (if c.skim.wet.late then 0x80 else 0)) (modSkim (fun k => { k with wet := {} }) c)
            else c
          coatFallback c
        else c)

/-! ### Exchange channels (R254 to R256) -/

/-- The highest free place of four buffers below 0x3FFFC0 clear of the tasks' areas (R254). Entry 61, DEDUCED. -/
def Chip.exchangePlace (c : Chip) (gang : Nat) : Option Nat :=
  let used := c.scratchAreas gang
  ((upTo 512).map (fun i => 0x3FFFC0 - 1024 * (i + 1))).find? (fun a =>
    decide (c.effects0 ≤ a) && used.all (fun u => decide (u.1 + u.2 ≤ a) || decide (a + 1024 ≤ u.1)))

/-- The rule of a write of Skim.Exchange.Dir (R254). -/
def exchangeDirAct (x dir : Nat) : Act := chipAct (fun m c =>
  let res (r : Nat) (c : Chip) : Chip := setNum (Obj.skimExchangeResult x) r c
  if !c.may 0x0E x m 1 then (res 6 c, St.noAccess)
  else if dir = 0 then (res 0 (setNum (Obj.skimExchangeDir x) 0 (setNum (Obj.skimExchangeAddr x) 0 c)), St.ok)
  else match c.exchangeTask x with
    | none => (res 2 c, St.refused)
    | some t =>
      if c.num (Obj.skimExchangeDir x) ≠ 0 then (res 0 (setNum (Obj.skimExchangeDir x) dir c), St.ok)
      else match c.exchangePlace (c.num (Obj.trowelTaskCore t) / 16) with
        | none => (res 1 c, St.refused)
        | some a => (res 0 (setNum (Obj.skimExchangeAddr x) a (setNum (Obj.skimExchangeDir x) dir c)), St.ok))

/-- EXCHANGE_DIR. -/
def execExchangeDir (r : Req) (x : Fin 512) (dir : Fin 3) (s : State) : Host.Outcome State Fault Refusal :=
  serveRow r (Obj.skimExchangeDir x.val) (leBytes 1 dir.val) (exchangeDirAct x.val dir.val) s

/-- Where buffer `b` of a channel lies in the gang scratchpad. Entry 61, DEDUCED. -/
def Chip.bufferPlace (c : Chip) (x t b : Nat) : Nat :=
  memScratch (c.num (Obj.trowelTaskCore t) / 16) (c.num (Obj.skimExchangeAddr x) - 0x200000 + 256 * b)

/-- EXCHANGE_COPY: send frame k - 2 of a channel goes to its buffer, and EF9 to the task's threads (R255). -/
def execExchangeCopy (x : Fin 512) (s : State) : Host.Outcome State Fault Refusal :=
  s.onChip (fun c =>
    match c.exchangeTask x.val with
    | some t =>
      if c.num (Obj.skimExchangeDir x.val) = 1 ∧ 2 ≤ c.frame then
        let f := c.frame - 2
        let c := writeBytes (c.bufferPlace x.val t (f % 4)) (c.bytesAt (exchangeWord x.val f 0) (4 * c.bsize)) c
        let core := c.num (Obj.trowelTaskCore t)
        forEach ((upTo 4).filter (fun i => c.taskOf (4 * core + i) == some t)) (fun i c => setFlag (4 * core + i) 9 c) c
      else c
    | none => c)

/-- EXCHANGE_RETURN_COPY: the return written in the last frame goes to the exchange RAM, if its task reached DONE before
the deadline (R255, R256). -/
def execExchangeReturnCopy (x : Fin 512) (s : State) : Host.Outcome State Fault Refusal :=
  s.onChip (fun c =>
    match c.exchangeTask x.val with
    | some t =>
      if c.num (Obj.skimExchangeDir x.val) = 2 ∧ 1 ≤ c.frame ∧ (tget {} c.trowel.tasks t).doneFrame = c.frame then
        let f := c.frame - 1
        writeBytes (exchangeWord x.val c.frame 0) (c.bytesAt (c.bufferPlace x.val t (f % 4)) (4 * c.bsize)) c
      else c
    | none => c)

/-- A return whose task missed frame `f`: the frame that would have been read after it is putty from its last sample
(R256, R478). Entry 61, DEDUCED. -/
def exchangeLate (f x : Nat) (c : Chip) : Chip :=
  let b := c.bsize
  let last := toSigned 32 (leNat (c.bytesAt (exchangeWord x f (b - 1)) 4))
  let ys := (upTo b).flatMap (fun i => leBytes 4 (ofInt 32 (Int.fdiv (last * ((b - 1 - i : Nat) : Int)) b)))
  bump Obj.skimCountersExchangeLate (writeBytes (exchangeWord x (f + 1) 0) ys c)

/-- The returns that are late at the deadline of frame `f`. -/
def exchangeDeadline (f : Nat) (c : Chip) : Chip :=
  forEach ((tkeys c.nums (Obj.skimExchangeDir 0) (Obj.skimExchangeDir 512)).filter (fun o => objSubOf o == 1)) (fun o c =>
    let x := objIndexOf o - 0x4000
    match c.exchangeTask x with
    | some t => if c.num o = 2 ∧ (tget {} c.trowel.tasks t).doneFrame ≠ f + 1 then exchangeLate f x c else c
    | none => c) c

/-- The exchange header of frame `j` in every gang with a bound channel (R254). Entry 61, DEDUCED. -/
def exchangeHeaders (j : Nat) (c : Chip) : Chip :=
  forEach ((upTo 16).filter (fun g => !(c.gangBuffers g).isEmpty)) (fun g c =>
    writeBytes (memScratch g 0x1FFFC0) (leBytes 4 (j % 2 ^ 32) ++ leBytes 1 ((j + 1) % 4) ++ leBytes 1 (j % 4) ++
      leBytes 1 c.bsize ++ zeros 57) c) c

end Sys2Proof.Machine
end

