-- ==== Sys2Proof/Machine/WetEdge.lean ====
section
/-!
DEFINITION. The wet edge (chapter 17, R469 to R476): coats change by a crossfade or by a switch with a dip.
-/

namespace Sys2Proof.Machine

/-! ### The changed set (R470) -/

/-- A coat word with the place it runs at: level and lane. -/
abbrev Placed := Nat × Nat × CoatWord

/-- The words of one lane with their levels. -/
def placedLane (lane : Nat) (ws : List CoatWord) : List Placed :=
  ((byLevel ws).zipIdx).flatMap (fun l => l.1.map (fun w => (l.2, lane, w)))

/-- The words that make up ACC at a PUT: from the last LD or LDW before it on its lane. -/
def accWords (ws : List Placed) : List Placed :=
  ws.foldl (fun acc w => if w.2.2.op = 1 ∨ w.2.2.op = 3 then [w] else if w.2.2.op = 2 ∨ w.2.2.op = 4 then acc ++ [w] else acc) []

/-- Every PUT with the words of its ACC, by level, then lane, then place. -/
def putsOf (img : List Byte) : List (Placed × List Placed) :=
  let all := ((coatLanes img).zipIdx).flatMap (fun l =>
    let ws := placedLane l.2 l.1
    ((ws.zipIdx).filter (fun x => x.1.2.2.op == 5)).map (fun x => (x.1, accWords (ws.take x.2))))
  all.sortBy (fun a b => keyLt [a.1.1, a.1.2.1] [b.1.1, b.1.2.1] || (a.1.1 == b.1.1 && a.1.2.1 == b.1.2.1))

/-- The ordered words that reach a PUT, directly or through local buses (R470). -/
def coneOf (puts : List (Placed × List Placed)) : Nat → Placed × List Placed → List CoatWord
  | 0, _ => []
  | fuel + 1, x =>
    (x.2.flatMap (fun w =>
      (if w.2.2.sk = 0 then
        (puts.filter (fun p => p.1.2.2.dk == 0 && p.1.2.2.di == w.2.2.si)).flatMap (fun p => coneOf puts fuel p)
       else []) ++ [w.2.2])) ++ [x.1.2.2]

/-- The cone of an external destination. -/
def destCone (img : List Byte) (key : Nat) : List CoatWord :=
  let puts := putsOf img
  (puts.filter (fun p => tapKey p.1.2.2.dk p.1.2.2.di == key)).flatMap (coneOf puts 65)

/-- The external destinations that a coat PUTs. -/
def destsOf (img : List Byte) : List Nat :=
  (((putsOf img).filter (fun p => p.1.2.2.dk != 0)).map (fun p => tapKey p.1.2.2.dk p.1.2.2.di)).eraseDups

/-- The changed set of two coats (R470). -/
def changedSet (a b : List Byte) : List Nat :=
  ((destsOf a ++ destsOf b).eraseDups).filter (fun k =>
    !((destsOf a).contains k) || !((destsOf b).contains k) || destCone a k != destCone b k)

/-! ### Go (R469, R474) -/

/-- WetEdge.Status: state and LATE. -/
def setWetStatus (st : Nat) (late : Bool) (c : Chip) : Chip :=
  setNum Obj.skimWetEdgeStatus (st + (if late then 0x80 else 0)) c

/-- Do the coats fit side by side (R469)? -/
def Chip.coatsFit (c : Chip) : Bool := decide (coatCycles c.skim.current + coatCycles c.skim.next ≤ coatBudget c.time.rate)

/-- The Result of Go 1 (R469). -/
def wetGoResult (c : Chip) : Nat :=
  if c.skim.next.isEmpty then 9 else if c.skim.wet.phase ≠ .idle then 7
  else if c.num Obj.skimWetEdgeMode = 1 ∧ !c.coatsFit then 5 else 0

/-- The rule of Skim.WetEdge.Go 1. Entry 60, DESIGN CHOICE. -/
def wetGoAct : Act := chipAct (fun m c =>
  let r := wetGoResult c
  let c := setNum Obj.skimWetEdgeResult r c
  if !c.may 0x01 0x30 m 2 then (c, St.noAccess)
  else if r ≠ 0 then (c, resultStatus r)
  else
    let mode := c.num Obj.skimWetEdgeMode
    let cross := mode == 1 || (mode == 0 && c.coatsFit)
    let ms := c.num (if cross then Obj.skimWetEdgeFeatherMs else Obj.skimWetEdgeDipMs)
    let len := (ms * c.fs + 999) / 1000
    let apply := c.num Obj.skimWetEdgeApplyTick
    let start := max apply (c.time.stc + 2 + (if cross then 0 else len))
    let late := apply != 0 && decide (apply < start)
    let changed := changedSet c.skim.current c.skim.next
    let c := modSkim (fun k => { k with wet := { phase := .pending, cross := cross, start := start, len := len, changed := changed,
                                                 tenant := masterTenant m, late := late } }) c
    (setWetStatus 1 late (setNum Obj.skimWetEdgeChanged changed.length (setNum Obj.skimWetEdgeStartTick start
      (setNum Obj.skimWetEdgeEndTick (start + len - 1) c))), St.ok))

/-- WET_EDGE_GO. -/
def execWetEdgeGo (r : Req) (s : State) : Host.Outcome State Fault Refusal :=
  serveRow r Obj.skimWetEdgeGo [1] wetGoAct s

/-- The wet edge is over with that status. -/
def wetEnd (st : Nat) (c : Chip) : Chip :=
  setWetStatus st c.skim.wet.late (modSkim (fun k => { k with wet := {} }) c)

/-- The rule of Skim.WetEdge.Go 2 (R474). Entry 60, DESIGN CHOICE. -/
def wetCancelAct : Act := chipAct (fun m c =>
  if !c.may 0x01 0x30 m 2 then (c, St.noAccess)
  else if c.skim.wet.phase = .pending then (setNum Obj.skimWetEdgeResult 0 (wetEnd 5 c), St.ok)
  else (setNum Obj.skimWetEdgeResult 8 c, St.refused))

/-- WET_EDGE_CANCEL. -/
def execWetEdgeCancel (r : Req) (s : State) : Host.Outcome State Fault Refusal :=
  serveRow r Obj.skimWetEdgeGo [2] wetCancelAct s

/-! ### The switch (R471, R472) -/

/-- The next coat becomes the current one and the other store EMPTY. -/
def switchCoat (c : Chip) : Chip :=
  leaseDrop 4 Obj.skimCoatCommit (setNext [] (setCurrent c.skim.next c))

/-- The COAT source of the tenant that wrote Go (R408, R471). Entry 60, DESIGN CHOICE. -/
def raiseCoat (w : Wet) (c : Chip) : Chip := match w.tenant with | some t => raise t 37 c | none => c

/-- The phase of a wet edge. -/
def setWetPhase (p : WetPhase) (c : Chip) : Chip := modSkim (fun k => { k with wet := { k.wet with phase := p } }) c

/-- CROSSFADE_START: from sample S both coats run (R471). -/
def execCrossfadeStart (s : State) : Host.Outcome State Fault Refusal :=
  s.onChip (fun c =>
    let w := c.skim.wet
    when_ (w.phase == .pending && w.cross && decide (w.start ≤ c.passNext)) (fun c => setWetStatus 2 w.late (setWetPhase .crossing c)) c)

/-- CROSSFADE_END: after F passes only the new coat runs (R471). -/
def execCrossfadeEnd (s : State) : Host.Outcome State Fault Refusal :=
  s.onChip (fun c =>
    let w := c.skim.wet
    when_ (w.phase == .crossing && decide (w.start + w.len ≤ c.passNext)) (fun c => raiseCoat w (wetEnd 4 (switchCoat c))) c)

/-- DIP_OUT_START: from S - D the changed destinations dip (R472). -/
def execDipOutStart (s : State) : Host.Outcome State Fault Refusal :=
  s.onChip (fun c =>
    let w := c.skim.wet
    when_ (w.phase == .pending && !w.cross && decide (w.start ≤ c.passNext + w.len)) (fun c => setWetStatus 3 w.late (setWetPhase .dipOut c)) c)

/-- STAGE_SWITCH: at S the next coat becomes current and the dip rises (R472). -/
def execStageSwitch (s : State) : Host.Outcome State Fault Refusal :=
  s.onChip (fun c =>
    let w := c.skim.wet
    when_ (w.phase == .dipOut && decide (w.start ≤ c.passNext)) (fun c => raiseCoat w (setWetPhase .dipIn (switchCoat c))) c)

/-- DIP_END: the dip-in is complete (R472). -/
def execDipEnd (s : State) : Host.Outcome State Fault Refusal :=
  s.onChip (fun c =>
    let w := c.skim.wet
    when_ (w.phase == .dipIn && decide (w.start + w.len ≤ c.passNext)) (wetEnd 4) c)

/-- A rate transition or change of B completes a wet edge at the pass of X (R476). -/
def completeWet (c : Chip) : Chip :=
  match c.skim.wet.phase with
  | .idle => c
  | .dipIn => wetEnd 4 c
  | _ => raiseCoat c.skim.wet (wetEnd 4 (switchCoat c))

end Sys2Proof.Machine
end

