-- ==== Sys2Proof/Machine/Screed.lean ====
section
/-!
DEFINITION. Screed (chapter 9): instances, final limiters, and the tick that drives Skim, Screed and the pins.
-/

namespace Sys2Proof.Machine

/-- Screed changes. -/
def modScreed (f : Screed → Screed) (c : Chip) : Chip := { c with screed := f c.screed }

/-- An instance's state. -/
def Chip.inst (c : Chip) (n : Nat) : ScreedInst := tget {} c.screed.insts n

/-- Is an instance ON (R264)? -/
def Chip.instOn (c : Chip) (n : Nat) : Bool := c.num (Obj.screedInstMode n) == 1

/-- The leader an instance runs under: a leader names itself (R263). Entry 62, DESIGN CHOICE. -/
def Chip.leaderOf (c : Chip) (n : Nat) : Option Nat :=
  let l := c.num (Obj.screedInstLink n)
  if l < 256 ∧ c.num (Obj.screedInstLink l) = l then some l else none

/-- The smoother an instance uses: its leader's, or its own. -/
def Chip.smootherOf (c : Chip) (n : Nat) : Nat := (c.leaderOf n).getD n

/-- What the detector of an instance sees (R260). -/
def Chip.detected (c : Chip) (n : Nat) : Int :=
  tget 0 c.skim.outs (tapKey (if c.num (Obj.screedInstDetSource n) = 1 then 6 else 5) n)

/-- The target of a detector value: a level of minus infinity asks for nothing, and t is never above 0 (R260). -/
def Chip.screedTarget (c : Chip) (p n : Nat) (rms : Nat) : Int :=
  let x := c.detected n
  let det := c.num (Obj.screedInstDetector p)
  if det = 0 ∧ x = 0 then 0
  else min 0 (Config.screedTarget (Config.screedLevel det x rms) (c.snum 16 (Obj.screedInstThreshold p))
    (c.num (Obj.screedInstRatio p)) (c.num (Obj.screedInstKnee p)))

/-- One smoothing step; where t and r agree the result is r (R261). -/
def smoothGain (c : Chip) (p : Nat) (t r : Int) : Int :=
  if t = r then r else Config.screedSmooth c.fs (c.num (Obj.screedInstAttack p)) (c.num (Obj.screedInstRelease p)) t r

/-- The linear gain in Q4.28: exactly 1 for no change and no makeup (R261). -/
def linearGain (r makeup : Int) : Nat := if r = 0 ∧ makeup = 0 then 2 ^ 28 else Config.screedGain r makeup

/-- The smoothers step: each uses the largest level of its group, which asks for the least t (R260, R261, R263). -/
def stepSmoothers (on : List Nat) (c : Chip) : Chip :=
  let ps := (on.map c.smootherOf).eraseDups
  let c := forEach on (fun n c =>
    let avg := if c.num (Obj.screedInstDetector (c.smootherOf n)) = 1 then Config.screedAverage c.fs (c.inst n).rms (c.detected n) else 0
    modScreed (fun x => { x with insts := tmod {} x.insts n (fun i => { i with rms := avg }) }) c) c
  forEach ps (fun p c =>
    let ts := (on.filter (fun n => c.smootherOf n == p)).map (fun n => c.screedTarget p n (c.inst n).rms)
    let r := smoothGain c p (ts.foldl min 0) (c.inst p).r
    modScreed (fun x => { x with insts := tmod {} x.insts p (fun i => { i with r := r }) }) c) c

/-- An instance takes its input and gives its return (R259, R261). -/
def stepInstance (n : Nat) (c : Chip) : Chip :=
  let p := c.smootherOf n
  let look := c.num (Obj.screedInstLookAhead p)
  let line := tget 0 c.skim.outs (tapKey 5 n) :: (c.inst n).line
  let x := line.getD look 0
  let r := (c.inst p).r
  let z := shrFloor (x * linearGain r (c.snum 16 (Obj.screedInstMakeup n))) 28
  let kept := line.take 129
  let c := modScreed (fun y => { y with newRets := tset 0 y.newRets n (satTap z), insts := tmod {} y.insts n (fun i =>
    { i with line := if kept.all (· == 0) then [] else kept }) }) c
  let c := setInt (Obj.screedInstGainReduction n) (if r = 0 then 0 else Config.screedTenths r) c
  when_ (satTap z != z) (bump Obj.screedCountersReturnClips) c

/-- Every enabled instance works on one sample (R259 to R264). -/
def stepInstances (c : Chip) : Chip :=
  let on := (((tkeys c.nums (Obj.screedInstMode 0) (Obj.screedInstMode 256)).filter (fun o => objSubOf o == 1)).map
    (fun o => objIndexOf o - 0x1000)).filter c.instOn
  forEach on stepInstance (stepSmoothers on (modScreed (fun s => { s with newRets := [] }) c))

/-! ### The final limiter (R265 to R267) -/

/-- 10^(Threshold/20) truncated to Q1.23, Threshold in 0.1 dB; 1.0 does not fit and is the largest code (R266). -/
def limitLevel (tenths : Nat) : Nat :=
  (upTo 23).foldr (fun i n =>
    let y := n + 2 ^ i
    if y ^ 200 * 10 ^ tenths ≤ 2 ^ (23 * 200) ∧ y < 2 ^ 23 then y else n) 0

/-- Threshold of an output in 0.1 dB below full scale; kind 2 TDM, 3 host. Entry 62, DESIGN CHOICE. -/
def Chip.limitThreshold (c : Chip) (kind ch : Nat) : Nat :=
  (-(c.snum 16 (if kind = 2 then Obj.screedTdmThreshold ch else Obj.screedHostThreshold ch))).toNat

/-- A limiter's gain, as a fraction. Entry 62, DESIGN CHOICE. -/
def Chip.limiterGain (c : Chip) (key : Nat) : Nat × Nat := tget (1, 1) c.screed.gains key

/-- Is the first fraction below the second? -/
def fracLt (a b : Nat × Nat) : Bool := decide (a.1 * b.2 < b.1 * a.2)

/-- The gain a limiter takes for an input: down at once, up by release, never above the target (R266).
Entry 62, DESIGN CHOICE. -/
def nextGain (fs release : Nat) (g gt : Nat × Nat) : Nat × Nat :=
  if fracLt gt g then gt
  else if fracLt g gt then
    let r := Config.limiterRelease fs release g gt
    if r.2 = 0 ∨ fracLt r g then g else if fracLt gt r then gt else r
  else g

/-- One final limiter on one sample (R266): its output in Q1.23 and its gain. -/
def limitSample (tl : Nat) (g : Nat × Nat) (x : Int) : Int :=
  clampInt (-tl) tl (Int.fdiv (x * g.1) g.2)

/-- Reduction in 0.1 dB, truncated: the largest z with z at most 200 log10 of the gain (R271). -/
def gainTenths (g : Nat × Nat) : Int :=
  if g.1 ≥ g.2 then 0
  else match (upTo 2000).find? (fun n => decide (g.2 ^ 200 ≤ 10 ^ n * g.1 ^ 200)) with
    | some n => -(n : Int)
    | none => -2000

/-- One output channel's limiter. -/
def stepLimiter (kind ch : Nat) (c : Chip) : Chip :=
  let key := tapKey kind ch
  let x := if c.screed.lost then 0 else tget 0 c.skim.outs key
  let tl := limitLevel (c.limitThreshold kind ch)
  let gt : Nat × Nat := if x.natAbs ≤ tl then (1, 1) else (tl, x.natAbs)
  let rel := c.num (if kind = 2 then Obj.screedTdmRelease ch else Obj.screedHostRelease ch)
  let g := nextGain c.fs rel (c.limiterGain key) gt
  let y := limitSample tl g x
  let c := modScreed (fun s => { s with gains := tset (1, 1) s.gains key (if g.1 = g.2 then (1, 1) else g),
                                        limited := tset 0 s.limited key y }) c
  let c := when_ (decide (tl < x.natAbs)) (bump (if kind = 2 then Obj.screedTdmLimited ch else Obj.screedHostLimited ch)) c
  setInt (if kind = 2 then Obj.screedTdmGainReduction ch else Obj.screedHostGainReduction ch) (gainTenths g) c

/-- Every final limiter that has an input, a gain below 1 or an output works (R265); TDM channels beyond those of the rate do
not run. -/
def stepLimiters (c : Chip) : Chip :=
  let keys := ((c.skim.outs.map Prod.fst) ++ (c.screed.gains.map Prod.fst) ++ (c.screed.limited.map Prod.fst)).eraseDups
  forEach (keys.filter (fun k => (k / 4096 == 2 && decide (k % 4096 < c.tdmChannels)) || (k / 4096 == 3 && decide (k % 4096 < 1024))))
    (fun k c => stepLimiter (k / 4096) (k % 4096) c) c

/-- The limited host outputs of sample `s` join the frame's (R406). -/
def keepHost (s : Nat) (c : Chip) : Chip :=
  let t : Table Int := (c.screed.limited.filter (fun e => e.1 / 4096 == 3)).map (fun e => (e.1 % 4096, e.2))
  modScreed (fun x => { x with hostOut := tset [] x.hostOut (64 * (s / c.bsize % 2) + s % c.bsize) t }) c

/-- All instance state is cleared (R270). -/
def clearInstances (c : Chip) : Chip := modScreed (fun s => { s with insts := [], rets := [], newRets := [] }) c

/-! ### The tick (R24, R231) -/

/-- TDM inputs of a tick: a port that is not RUNNING reads 0 (R570, R572). -/
def Chip.tdmInputs (c : Chip) (xs : List (Fin 128 × BitVec 32)) : Table Int :=
  let per := c.tdmChannels / 8
  (xs.filter (fun x => decide (x.1.val < c.tdmChannels) && c.num (Obj.tdmState (x.1.val / per)) == 1 &&
    decide ((tget ({ } : TdmPort) c.ports.tdms (x.1.val / per)).quietUntil ≤ c.time.stc))).foldl
    (fun t x => tset 0 t x.1.val x.2.toInt) []

/-- One tick of the sample clock: the pins take what was limited, Screed works on the last pass, and Skim makes the pass
of this tick (R24). In QUIET Skim and the instances stand still (R547). Entry 3, DESIGN CHOICE. -/
def sampleTick (tdm : List (Fin 128 × BitVec 32)) (c : Chip) : Chip :=
  let c := modTime (fun t => { t with stc := t.stc + 1 }) c
  let pins : Table Int := (c.screed.limited.filter (fun e => e.1 / 4096 == 2)).map (fun e => (e.1 % 4096, e.2))
  let c := modScreed (fun s => { s with pins := pins }) c
  let c := stepLimiters (if c.quiet then modSkim (fun k => { k with outs := [] }) c else stepInstances c)
  let c := match c.passNow with
    | some (p + 1) => keepHost p c
    | _ => c
  let c := match c.passNow with
    | some p => when_ (!c.quiet) (skimPass p) c
    | none => c
  let c := modScreed (fun s => { s with rets := s.newRets }) c
  modSkim (fun k => { k with tdmIn1 := k.tdmIn, tdmIn := c.tdmInputs tdm }) c

/-- SAMPLE_TICK: the next tick strobe (entry 3, DESIGN CHOICE); while the sample clock is stopped there is none (R457). -/
def execSampleTick (tdm : List (Fin 128 × BitVec 32)) (s : State) : Host.Outcome State Fault Refusal :=
  s.onChip (fun c => if c.time.stopped then c else sampleTick tdm c)

end Sys2Proof.Machine
end

