-- ==== Sys2Proof/Machine/HostAudio.lean ====
section
/-!
DEFINITION. Host audio and control-stem queues (R404 to R406).
-/

namespace Sys2Proof.Machine

/-! ### Audio in (R405) -/

/-- The head entry of an audio-in queue: its own ring's, or the next that host memory returns. -/
def headEntry (own : Bool) (q : Queue) (fetched : List (List Byte)) : List Byte :=
  if own then tget [] q.ring q.head else fetched.headD []

/-- The head of a ring moves past one entry. -/
def popEntry (own : Bool) (q : Queue) : Queue :=
  { q with head := (q.head + 1) % q.size, ring := if own then tset [] q.ring q.head [] else q.ring }

/-- Look for the entry of frame `k`, discarding those whose STC is below it or no multiple of B (R405). -/
def findEntry (i k : Nat) (own : Bool) : Nat → List (List Byte) → Chip → Option (List Byte) × Chip
  | 0, _, c => (none, c)
  | fuel + 1, fetched, c =>
    let q := c.queue i
    if q.outstanding = 0 then (none, c)
    else
      let e := headEntry own q fetched
      let stc := field e 0 8
      let due := k * c.bsize
      if stc % c.bsize ≠ 0 ∨ stc < due then
        findEntry i k own fuel fetched.tail
          (modQueue i (fun q => { popEntry own q with count := satAdd 32 q.count 1 }) c)
      else if due < stc then (none, c)
      else (some e, modQueue i (popEntry own) c)

/-- Sample `j` of channel `x` of an audio entry of `n` channels, Q1.31. -/
def entrySample (e : List Byte) (n j x : Nat) : Int := sfield e (0x40 + 4 * (j * n + x)) 4

/-- The samples of one channel become the host-audio-in source of frame `k`. -/
def setHostIn (k ch : Nat) (l : List Int) (c : Chip) : Chip :=
  modSkim (fun s => { s with hostIn := tset [] s.hostIn (1024 * (k % 2) + ch) l }) c

/-- An entry is taken for frame `k`. -/
def takeAudio (i k : Nat) (e : List Byte) (c : Chip) : Chip :=
  let q := c.queue i
  let n := q.channels (i % 32)
  let c := forEach (upTo n) (fun x c =>
    let l := (upTo c.bsize).map (fun j => entrySample e n j x)
    modQueue i (fun q => { q with lastIn := tset 0 q.lastIn x (l.getLastD 0) }) (setHostIn k (q.first + x) l c)) c
  modQueue i (fun q => { q with missing := 0, audioFrame := k + 1 }) c

/-- A value fading from the last sample: the `j`-th missing one is multiplied by 1 - j / B (R405). Entry 69, DESIGN CHOICE. -/
def fadedSample (b : Nat) (last : Int) (j : Nat) : Int := Int.fdiv (last * ((b - j : Nat) : Int)) b

/-- Frame `k` has no entry in time. Entry 69, DESIGN CHOICE. -/
def missAudio (i k : Nat) (c : Chip) : Chip :=
  let q := c.queue i
  let c := forEach (upTo (q.channels (i % 32))) (fun x c =>
    setHostIn k (q.first + x) ((upTo c.bsize).map (fun j =>
      fadedSample c.bsize (tget 0 q.lastIn x) (q.missing + j + 1))) c) c
  modQueue i (fun q => { q with missing := min (q.missing + c.bsize) c.bsize, audioFrame := k + 1,
                                count := satAdd 32 q.count 1 }) c

/-- AUDIO_IN_FRAME: at tick kB + B/2 the entry for frame k is taken, or the frame is missing; a HALTED queue reads as
missing (R389). Entry 14, DESIGN CHOICE. -/
def execAudioInFrame (t : Fin 16) (q : Fin 4) (fetched : List (List Byte)) (s : State) : Host.Outcome State Fault Refusal :=
  s.onChip (fun c =>
    let i := qix t.val (16 + q.val)
    let x := c.queue i
    let k := c.frame
    if x.state = .disabled ∨ c.time.stc % c.bsize ≠ c.bsize / 2 ∨ x.audioFrame = k + 1 then c
    else
      let r := if x.state = .running then findEntry i k (!c.hasFunction t.val) x.size fetched c else (none, c)
      raise t.val (16 + q.val) (match r.1 with
        | some e => takeAudio i k e r.2
        | none => missAudio i k r.2))

/-! ### Audio and stems out (R404, R406) -/

/-- The 64-byte header of frame `k`. -/
def audioHeader (b k n : Nat) (filled phase : Bool) : List Byte :=
  leBytes 8 (k * b) ++ leBytes 1 ((if phase then 1 else 0) + (if filled then 2 else 0)) ++ leBytes 1 b ++
  leBytes 2 n ++ leBytes 4 k ++ zeros 48

/-- The body of an audio-out entry: the final limiters' outputs as Q1.31 with the low 8 bits 0 (R266). -/
def audioBody (c : Chip) (k first n : Nat) : List Byte :=
  (upTo 64).flatMap (fun j =>
    if j < c.bsize then
      let t := tget [] c.screed.hostOut (64 * (k % 2) + j)
      (upTo n).flatMap (fun x => leBytes 4 (ofInt 32 (tget 0 t (first + x) * 256)))
    else zeros (4 * n))

/-- The body of a stem-out entry (R137): the last value of a channel at each step. -/
def stemBody (c : Chip) (t q k n : Nat) : List Byte :=
  (upTo 16).flatMap (fun j =>
    if j < c.bsize / 4 then
      (upTo n).flatMap (fun x =>
        leBytes 2 (ofInt 16 ((c.targetAt (targetKey 3 (t * 1024 + q * 256 + x)) (k * c.bsize + 4 * j)).getD 0)))
    else zeros (2 * n))

/-- Does a fade of the outputs touch frame `k` (R404)? -/
def frameFaded (c : Chip) (k : Nat) : Bool :=
  (upTo c.bsize).any (fun j => let g := fadesAt c.skim.outFades (k * c.bsize + j); g.1 != g.2)

/-- AUDIO_OUT_FRAME: the entry of the frame whose last sample has left the limiters is written, or dropped; queues 20 to
27 by `q`. Entry 69, DESIGN CHOICE. -/
def execAudioOutFrame (t : Fin 16) (q : Fin 8) (s : State) : Host.Outcome State Fault Refusal :=
  s.onChip (fun c =>
    let i := qix t.val (20 + q.val)
    let x := c.queue i
    let b := c.bsize
    let k := (c.time.stc - 2) / b - 2
    if x.state ≠ .running ∨ c.time.stc < 2 * b + 2 ∨ x.audioFrame = k + 1 then c
    else if !x.hasSlot then
      modQueue i (fun y => { y with count := satAdd 32 y.count 1, filled := true, audioFrame := k + 1 }) c
    else
      let n := x.channels (20 + q.val)
      let filled := x.filled || (decide (q.val < 4) && frameFaded c k)
      let body := if q.val < 4 then audioBody c k x.first n else stemBody c t.val (q.val - 4) k n
      raise t.val (20 + q.val)
        (modQueue i (fun y => { y with filled := false, audioFrame := k + 1 })
          (ringPost i (fun p => audioHeader b k n filled p ++ body) c)))

end Sys2Proof.Machine
end

