-- ==== Sys2Proof/Machine/Crc.lean ====
section
/-!
DEFINITION. CRC-32C (Castagnoli) as the volume format, the journal and the code images use it (R276, R278, R280, R495,
R496); its reflection, initial value and final inversion are the usual ones (entry 27, PRESUMED).
-/

namespace Sys2Proof.Machine

/-- One bit of the reflected division. -/
def crcBit (r : Nat) : Nat := if r % 2 = 1 then Nat.xor (r / 2) 0x82F63B78 else r / 2

/-- One octet. Entry 27, PRESUMED. -/
def crcOctet (r : Nat) (b : Byte) : Nat :=
  crcBit (crcBit (crcBit (crcBit (crcBit (crcBit (crcBit (crcBit (Nat.xor r b.toNat))))))))

/-- CRC-32C of a string of octets. Entry 27, PRESUMED. -/
def crc32c (bs : List Byte) : Nat := Nat.xor (bs.foldl crcOctet 0xFFFFFFFF) 0xFFFFFFFF

end Sys2Proof.Machine
end

