-- ==== Sys2Proof/Machine/Hod.lean ====
section
/-!
DEFINITION. Drives, volumes, the stream cache, imports and remote streams (R39, R272 to R284, R289, R290, R293 to R297).
-/

namespace Sys2Proof.Machine

/-- A command that reads the Dust Sheet and changes the chip. -/
def State.withKeys (s : State) (f : DustSheet → Chip → Chip) : Host.Outcome State Fault Refusal :=
  .next { s with chip := f s.dust s.chip }

/-- The key of a KEY_ID, if the key port gives it (R277, R300, R319). -/
def DustSheet.key (d : DustSheet) (id : Nat) : Option (List Byte) :=
  let k := tget [] d.keys id
  if id = 0 ∨ k.isEmpty ∨ d.lost.contains id ∨ d.state = .wiping then none else some k

/-! ### Drives (R39, R272, R293) -/

/-- A drive's record. -/
def Chip.drive (c : Chip) (d : Nat) : Drive := tget {} c.hod.drives d

/-- A drive's record changes. -/
def modDrive (d : Nat) (f : Drive → Drive) (c : Chip) : Chip := modHod (fun h => { h with drives := tmod {} h.drives d f }) c

/-- Volume slots on a drive. -/
def Chip.driveSlots (c : Chip) (d : Nat) : List Nat := (upTo 16).filter (fun s => c.num (Obj.hodVolumeDrive s) == d)

/-- Hod.DriveCount: the drives in READY. -/
def countDrives (c : Chip) : Chip :=
  setNum Obj.hodDriveCount ((upTo 12).filter (fun d => c.num (Obj.hodDriveState d) == 2)).length c

/-- Drop the reads in flight of a volume number. -/
def dropReads (vol : Nat) (c : Chip) : Chip :=
  modHod (fun h => { h with reads := h.reads.filter (fun r => r.volume != vol), served := h.served.filter (fun r => r.volume != vol) }) c

/-- What an import had written goes, and Status reads IDLE (R492). -/
def importAbort (c : Chip) : Chip :=
  leaseDrop 5 c.hod.import_.slot (setNum Obj.hodImportStatus 0 (modHod (fun h => { h with import_ := {} }) c))

/-- A drive is retired (R293): its volumes are RETIRED and their cursors fill silence. -/
def retireDrive (d : Nat) (c : Chip) : Chip :=
  if c.num (Obj.hodDriveState d) = 3 then c
  else
    let c := snag 0x0301 d 0xFF (setNum (Obj.hodDriveRetired d) 1 (setNum (Obj.hodDriveState d) 3 c))
    let c := forEach ((c.driveSlots d).filter (fun s => c.mounted s || c.num (Obj.hodVolumeState s) == 1)) (fun s c =>
      let vol := c.num (Obj.hodVolumeNumber s)
      let c := forEach ((c.cursorList.filter (fun x => !x.2.remote && x.2.volume == vol && c.mounted s)).map Prod.fst)
        (fun n c => modCursor n (fun x => { x with dying := true }) c) c
      dropReads vol (when_ (c.hod.import_.isOpen && c.hod.import_.slot == s) importAbort
        (setNum (Obj.hodVolumeState s) 6 c))) c
    countDrives c

/-- A counted failure: the 16th within 10 s retires the drive (R293). Entry 64, DEDUCED. -/
def countFailure (d : Nat) (c : Chip) : Chip :=
  let l := c.now :: ((c.drive d).failures.filter (fun t => decide (c.now < t + 10000000000)))
  let c := bump (Obj.hodDriveErrors d) (modDrive d (fun x => { x with failures := l }) c)
  if 16 ≤ l.length then retireDrive d c else c

/-- DRIVE_ENUMERATED: a controller is found on a trained root link (R39, R272, R273). One that is no NVMe controller, and
a thirteenth drive, stay untrained and are reported. -/
def execDriveEnumerated (found : FoundDrive) (s : State) : Host.Outcome State Fault Refusal :=
  s.onChip (fun c =>
    let loc := found.port.val * 256 + found.link.val * 16 + found.down.val
    let known := (upTo 12).find? (fun d => c.num (Obj.hodDriveState d) != 0 && c.num (Obj.hodDriveLocation d) == loc)
    if !found.isNvme then snag 0x0304 loc 0xFF c
    else
      let used := ((upTo 12).filter (fun d => c.num (Obj.hodDriveState d) != 0)).length
      match known <|> (if used < 12 then (upTo 12).find? (fun d => c.num (Obj.hodDriveState d) == 0) else none) with
      | none => snag 0x0305 loc 0xFF c
      | some d =>
        if c.num (Obj.hodDriveState d) = 3 then c
        else
          let c := setBlob (Obj.hodDriveSerial d) (slice found.serial 0 20)
            (setNum (Obj.hodDriveLink d) (found.width.val * 16 + found.generation.val) (setNum (Obj.hodDriveLocation d) loc c))
          let c := if found.meets then setNum (Obj.hodDriveState d) (if c.flag (Obj.hodDriveRetired d) then 3 else 2) c
            else snag 0x0305 loc 0xFF (setNum (Obj.hodDriveState d) 4 c)
          countDrives c)

/-- Drives on a root link. -/
def Chip.linkDrives (c : Chip) (port link : Nat) : List Nat :=
  (upTo 12).filter (fun d => (c.num (Obj.hodDriveState d) == 1 || c.num (Obj.hodDriveState d) == 2) &&
    c.num (Obj.hodDriveLocation d) / 16 == port * 16 + link)

/-- ROOT_LINK_DOWN: port reset and retrain, three times within 1 s; the next failure retires the drive (R293).
Entry 64, DEDUCED. -/
def execRootLinkDown (port link : Fin 4) (s : State) : Host.Outcome State Fault Refusal :=
  s.onChip (fun c => forEach (c.linkDrives port.val link.val) (fun d c =>
    let l := (c.drive d).linkDowns.filter (fun t => decide (c.now < t + 1000000000))
    if 3 ≤ l.length then retireDrive d c
    else countDrives (setNum (Obj.hodDriveState d) 1 (modDrive d (fun x => { x with linkDowns := c.now :: l }) c))) c)

/-- CONTROLLER_FATAL: the controller is reset once, then the drive is retired (R293). -/
def execControllerFatal (drive : Fin 12) (s : State) : Host.Outcome State Fault Refusal :=
  s.onChip (fun c =>
    let d := drive.val
    if c.num (Obj.hodDriveState d) ≠ 1 ∧ c.num (Obj.hodDriveState d) ≠ 2 then c
    else if (c.drive d).controllerReset then retireDrive d c
    else countDrives (setNum (Obj.hodDriveState d) 1 (modDrive d (fun x => { x with controllerReset := true }) c)))

/-- The rule of Hod.Drive.Retired 0: it needs A, and the counts start at 0 (R293, R481). Entry 64, DEDUCED. -/
def driveReinstateAct (d : Nat) : Act := chipAct (fun m c =>
  if !c.may 0x01 0x40 m 3 then (c, St.noAccess)
  else if !c.flag (Obj.hodDriveRetired d) then (c, St.ok)
  else (countDrives (setNum (Obj.hodDriveErrors d) 0 (setNum (Obj.hodDriveState d) 1 (setNum (Obj.hodDriveRetired d) 0
    (modDrive d (fun _ => {}) c)))), St.ok))

/-- DRIVE_REINSTATE. -/
def execDriveReinstate (r : Req) (drive : Fin 12) (s : State) : Host.Outcome State Fault Refusal :=
  serveRow r (Obj.hodDriveRetired drive.val) [0] (driveReinstateAct drive.val) s

/-! ### The stream cache (R283, R290) -/

/-- An extent enters the cache; the least recently used one that is not pinned leaves a full cache (R283). -/
def cacheExtent (x : Extent) (c : Chip) : Chip :=
  modHod (fun h =>
    let l := h.cache.filter (fun e => !(e.volume == x.volume && e.object == x.object && e.index == x.index))
    let old := ((l.filter (fun e => !e.pinned)).map (fun e => e.used)).foldl min (2 ^ 64)
    let l := if h.cacheBytes / 65536 ≤ l.length then
        (match l.findIdx? (fun e => !e.pinned && e.used == old) with | some i => l.eraseIdx i | none => l) else l
    { h with cache := l ++ [x] }) c

/-- Objects of a slot whose heads are wholly pinned. -/
def Chip.headsPinned (c : Chip) (vol : Nat) (dir : Table DirEntry) : Nat :=
  (dir.filter (fun e => e.2.state == 1 && e.2.head != 0 && (upTo (min e.2.head e.2.extents)).all (fun i =>
    match c.cached vol e.1 i with | some x => x.pinned | none => false))).length

/-- PRELOADING ends when no preload read is left, and HeadsPinned follows (R283, R297). -/
def settlePreload (slot : Nat) (c : Chip) : Chip :=
  let vol := c.num (Obj.hodVolumeNumber slot)
  let c := setNum (Obj.hodVolumeHeadsPinned slot) (c.headsPinned vol (c.volume slot).dir) c
  when_ (c.num (Obj.hodVolumeState slot) == 3 && !c.hod.reads.any (fun r => r.pin && r.volume == vol))
    (setNum (Obj.hodVolumeState slot) 2) c

/-- A verified extent of a read enters the cache and answers the chips that asked for it (R290, R295). -/
def finishRead (r : Read) (data : List Byte) (c : Chip) : Chip :=
  let c := modHod (fun h => { h with reads := h.reads.filter (fun x =>
    !(x.volume == r.volume && x.object == r.object && x.index == r.index)) }) c
  let c := cacheExtent { volume := r.volume, object := r.object, index := r.index, data := data, used := c.time.stc,
                         pinned := r.pin } c
  let mine (x : Served) : Bool := x.volume == r.volume && x.object == r.object && x.index == r.index
  let c := forEach (c.hod.served.filter mine) (fun x c =>
    sendLath 4 1 x.chip 0 ([r.volume, r.object, r.index] ++ data.map BitVec.toNat) c) c
  let c := modHod (fun h => { h with served := h.served.filter (fun x => !mine x) }) c
  match (upTo 16).find? (fun s => c.num (Obj.hodVolumeNumber s) == r.volume && (c.mounted s || c.flag (Obj.hodVolumePreload s))) with
  | some s => when_ r.pin (settlePreload s) c
  | none => c

/-- The data extent that a read names. -/
def Volume.extentNumber (v : Volume) (object index : Nat) : Nat := tget 0 v.map ((tget {} v.dir object).mapIndex + index)

/-- The tag table entry of 32 octets (R280). -/
def tagEntry (b : List Byte) : TagEntry :=
  { tag := slice b 0 16, gen := field b 0x10 4, object := field b 0x14 4, crc := field b 0x18 4 }

/-- Big-endian octets of a 32-bit value. -/
def beBytes (v : Nat) : List Byte := (leBytes 4 v).reverse

/-- Verify an extent; the plaintext on success (R281, R290). -/
def verifyExtent (d : DustSheet) (v : Volume) (object index : Nat) (t : TagEntry) (data : List Byte) : Option (List Byte) :=
  let e := v.extentNumber object index
  let k := (tget {} v.dir object).key
  if k = 0 then (if crc32c data = t.crc then some data else none)
  else if v.keyless.contains k then none
  else match d.key (tget (0, []) v.keys k).1 with
    | none => none
    | some key => Config.gcmOpen key (beBytes v.sb.salt ++ beBytes e ++ beBytes t.gen)
        (leBytes 8 v.sb.id ++ leBytes 4 object ++ leBytes 4 e) data t.tag

/-- A read's record changes. -/
def modRead (r : Read) (f : Read → Read) (c : Chip) : Chip :=
  modHod (fun h => { h with reads := h.reads.map (fun x =>
    if x.volume = r.volume ∧ x.object = r.object ∧ x.index = r.index then f x else x) }) c

/-- An extent is BAD until its volume is mounted again (R293). -/
def badExtent (slot : Nat) (r : Read) (c : Chip) : Chip :=
  let e := (c.volume slot).extentNumber r.object r.index
  let same (x : Nat × Nat × Nat) : Bool := x == (r.volume, r.object, r.index)
  let c := bump Obj.hodCountersBadExtents (modVolume slot (fun v => { v with bad := v.bad ++ [e] }) c)
  settlePreload slot (modHod (fun h => { h with reads := h.reads.filter (fun x => !same (x.volume, x.object, x.index)),
                                                served := h.served.filter (fun x => !same (x.volume, x.object, x.index)) }) c)

/-- A read attempt failed or timed out: it is issued again, three attempts in all (R293). -/
def readFailed (slot : Nat) (r : Read) (c : Chip) : Chip :=
  let c := if 3 ≤ r.attempts then badExtent slot r c
    else bump Obj.hodCountersReadRetries (modRead r (fun x => { x with attempts := x.attempts + 1, issued := c.now }) c)
  countFailure (c.num (Obj.hodVolumeDrive slot)) c

/-- A verification failure: reread once, then BAD with TAG_FAIL (R293). -/
def verifyFailed (slot : Nat) (r : Read) (c : Chip) : Chip :=
  let d := c.num (Obj.hodVolumeDrive slot)
  let c := bump Obj.hodCountersTagFails c
  let c := if r.reread then snag 0x0302 d 0xFF (badExtent slot r c)
    else bump Obj.hodCountersReadRetries (modRead r (fun x => { x with reread := true, issued := c.now }) c)
  countFailure d c

/-- EXTENT_READ_COMPLETE: a read of this chip's drives ends. -/
def execExtentReadComplete (volume : Fin 65536) (object index : BitVec 32) (result : ReadResult) (s : State) :
    Host.Outcome State Fault Refusal :=
  s.withKeys (fun d c =>
    match c.hod.reads.find? (fun r => r.volume == volume.val && r.object == object.toNat && r.index == index.toNat &&
        r.server.isNone), c.volumeSlot volume.val with
    | some r, some slot =>
      (match result with
      | .error => readFailed slot r c
      | .data extent tag =>
        let v := c.volume slot
        let e := v.extentNumber r.object r.index
        let t := match v.tags.find? (fun x => x.1 == e) with | some x => x.2 | none => tagEntry tag
        match verifyExtent d v r.object r.index t (slice extent 0 65536) with
        | some p => finishRead r p (modVolume slot (fun v => { v with tags := tset {} v.tags e t }) c)
        | none => verifyFailed slot r c)
    | _, _ => c)

/-- READ_TIMEOUT: reads not complete within 50 ms are aborted and issued again (R293). -/
def execReadTimeout (s : State) : Host.Outcome State Fault Refusal :=
  s.onChip (fun c =>
    forEach (c.hod.reads.filter (fun r => r.server.isNone && decide (r.issued + 50000000 ≤ c.now))) (fun r c =>
      match c.volumeSlot r.volume with
      | some slot => if c.inFlight r.volume r.object r.index then readFailed slot r c else c
      | none => c) c)

/-! ### Mounting (R275 to R278, R282, R294) -/

/-- A superblock read from its 4,096 octets (R276). -/
def superblock (b : List Byte) : Superblock :=
  { flags := field b 6 2, id := field b 8 8, extents := field b 0x10 4, slots := field b 0x14 4, generation := field b 0x18 4,
    salt := field b 0x1C 4, dataExt := field b 0x40 4, imageHash := field b 0x48 8 }

/-- MAGIC, FORMAT and CRC of a superblock. -/
def superblockValid (b : List Byte) : Bool :=
  b.length == 4096 && field b 0 4 == 0x31444F48 && field b 4 2 == 1 && field b 0xFFC 4 == crc32c (b.take 0xFFC)

/-- The layout rules of a superblock (R275, R276). -/
def layoutValid (b : List Byte) : Bool :=
  let f (o : Nat) : Nat := field b o 4
  let ext := f 0x10
  let dataExt := f 0x40
  decide (field b 6 2 < 2) && decide (dataExt + 2 ≤ ext) && f 0x14 == f 0x2C * 1024 &&
  decide (1 ≤ f 0x20) && decide (f 0x20 + f 0x24 ≤ f 0x28) && decide (f 0x28 + f 0x2C ≤ f 0x30) &&
  decide (f 0x30 + f 0x34 ≤ f 0x38) && decide (f 0x38 + f 0x3C ≤ dataExt) &&
  decide ((ext - dataExt + 2047) / 2048 ≤ f 0x3C)

/-- Is the CRC of a directory entry right (R278)? -/
def dirCrcOk (b : List Byte) : Bool := field b 0x3C 4 == crc32c (b.take 0x3C)

/-- The rules of a VALID directory entry (R278). -/
def dirValid (e : DirEntry) : Bool :=
  e.state != 1 ||
  ((e.channels == 1 || e.channels == 2) && decide (e.format ≤ 1) && decide (e.head ≤ 15) && decide (8000 ≤ e.rate) &&
   decide (e.rate ≤ 192000) && decide (1 ≤ e.length) &&
   ((e.loopStart == 0 && e.loopEnd == 0) || (decide (e.loopEnd ≤ e.length) && decide (e.loopStart + 16 ≤ e.loopEnd))) &&
   e.extents == (e.length * e.frameBytes + 65535) / 65536)

/-- Entry `i` of the directory. -/
def dirBytes (dir : List Byte) (i : Nat) : List Byte := slice dir (64 * i) 64

/-- Octets mounted on the chip, `but` a slot (R282). -/
def Chip.mountedBytes (c : Chip) (but : Nat) : Nat :=
  (((upTo 16).filter (fun s => s != but && c.mounted s)).map (fun s => c.num (Obj.hodVolumeBytes s))).sum

/-- Keyless entries of a key table (R277). -/
def keylessOf (d : DustSheet) (keys : Table (Nat × List Byte)) (n : Nat) : List Nat :=
  (upTo n).filter (fun i => i != 0 && (let k := tget (0, []) keys i
    match d.key k.1 with
    | none => true
    | some key => (Config.aes256 key (zeros 16)).take 8 != k.2))

/-- The metadata of a mount (R282). -/
def loadVolume (d : DustSheet) (sb : List Byte) (m : MountData) : Volume :=
  let nk := field sb 0x24 4 * 2048
  let keys : Table (Nat × List Byte) := (upTo nk).foldl (fun t i =>
    let b := slice m.keyTable (32 * i) 32
    tset (0, []) t i (if field b 0 4 = 0 then (0, []) else (field b 0 4, slice b 8 8))) []
  { sb := superblock sb, keys := keys, keyless := keylessOf d keys nk,
    dir := (upTo (field sb 0x14 4)).foldl (fun t i =>
      let b := dirBytes m.directory i
      if i = 0 ∨ !dirCrcOk b then t else tset {} t i (dirEntry b)) [],
    map := (upTo (field sb 0x34 4 * 16384)).foldl (fun t i => tset 0 t i (field m.extentMap (4 * i) 4)) [],
    metaBytes := (field sb 0x24 4 + field sb 0x2C 4 + field sb 0x34 4) * 65536 }

/-- The first failing check of a mount, 0 for none (R282). Entry 63, DESIGN CHOICE. -/
def mountResult (c : Chip) (slot master : Nat) (sb : List Byte) (v : Volume) (m : MountData) : Nat :=
  let hash := Config.sha384 (m.keyTable ++ m.directory ++ m.extentMap)
  if !layoutValid sb || !v.dir.all (fun e => dirValid e.2) then 2
  else if hash ≠ v.sb.imageHash then 3
  else if 256 * 10 ^ 12 < c.mountedBytes slot + v.sb.extents * 65536 then 4
  else if c.hod.metaBytes < v.metaBytes + (((upTo 16).filter (fun s => s != slot && c.mounted s)).map (fun s =>
      (c.volume s).metaBytes)).sum then 5
  else if !c.may 0x15 slot master 3 then 6
  else if (upTo 16).any (fun s => s != slot && c.mounted s && c.num (Obj.hodVolumeNumber s) == c.num (Obj.hodVolumeNumber slot)) then 7
  else 0

/-- The volumes this chip offers: number, VOLUME_ID, IMAGE_HASH (R294). -/
def Chip.offered (c : Chip) : List Nat :=
  ((upTo 16).filter (fun s => c.mounted s && c.flag (Obj.hodVolumeServe s))).flatMap (fun s =>
    [c.num (Obj.hodVolumeNumber s), c.num (Obj.hodVolumeId s), c.num (Obj.hodVolumeImageHash s)])

/-- Publish them to the chain. -/
def sendOffers (c : Chip) : Chip := when_ c.isMember (sendLath 4 2 0xFF 0 c.offered) c

/-- A slot whose number another chip offers with another content is in CONFLICT (R294). Entry 63, DESIGN CHOICE. -/
def checkConflict (slot : Nat) (c : Chip) : Chip :=
  let st := c.num (Obj.hodVolumeState slot)
  let vol := c.num (Obj.hodVolumeNumber slot)
  if (st = 2 ∨ st = 3) ∧ c.flag (Obj.hodVolumeServe slot) ∧ c.hod.offers.any (fun o => o.2.1 == vol &&
      o.2.2 != (c.num (Obj.hodVolumeId slot), c.num (Obj.hodVolumeImageHash slot))) then
    snag 0x0303 slot 0xFF (setNum (Obj.hodVolumeState slot) 5 c)
  else c

/-- Ask for a head extent to be pinned. -/
def pinExtent (vol object index : Nat) (remote : Bool) (c : Chip) : Chip :=
  let same (v o i : Nat) : Bool := v == vol && o == object && i == index
  if (c.cached vol object index).isSome then
    modHod (fun h => { h with cache := h.cache.map (fun e => if same e.volume e.object e.index then { e with pinned := true } else e) }) c
  else if c.inFlight vol object index then
    modHod (fun h => { h with reads := h.reads.map (fun r => if same r.volume r.object r.index then { r with pin := true } else r) }) c
  else
    let server := if remote then (c.servers vol).head? else none
    let r : Read := { volume := vol, object := object, index := index, need := none, issued := c.now, pin := true,
                      server := server, tried := server.toList }
    let c := modHod (fun h => { h with reads := h.reads ++ [r] }) c
    match server with
    | some m => bump Obj.hodCountersRemoteReads (sendLath 4 0 m 0 [vol, object, index, 0] c)
    | none => c

/-- Heads that fit in what `room` extents leave, in object number order: object and its head extents (R283).
Entry 63, DESIGN CHOICE. -/
def headsFitting : Nat → List (Nat × DirEntry) → List (Nat × Nat)
  | _, [] => []
  | room, (o, e) :: rest =>
    let n := min e.head e.extents
    if e.state ≠ 1 ∨ n = 0 then headsFitting room rest
    else if n ≤ room then (o, n) :: headsFitting (room - n) rest
    else []

/-- Pin the heads of a volume: a local one, or one mounted only by other chips (R283, R295). -/
def preload (slot : Nat) (c : Chip) : Chip :=
  let vol := c.num (Obj.hodVolumeNumber slot)
  let remote := !c.mounted slot
  let dir : List (Nat × DirEntry) :=
    if remote then (if (c.servers vol).isEmpty then [] else
      ((upTo (Config.remoteSlots vol)).drop 1).map (fun i => (i, dirEntry (Config.remoteEntry vol i))))
    else (c.volume slot).dir
  let taken := (c.hod.cache.filter (fun e => e.pinned)).length + (c.hod.reads.filter (fun r => r.pin)).length
  let heads := headsFitting (c.num Obj.hodCacheHeadBytes / 65536 - taken) dir
  let c := when_ (!remote) (setNum (Obj.hodVolumeState slot) 3) c
  let c := forEach heads (fun x c => forEach (upTo x.2) (fun i c => pinExtent vol x.1 i remote c) c) c
  if remote then c else settlePreload slot c

/-- A mount ends: FAILED with its result, or MOUNTED, offered and preloaded (R282, R283, R294). -/
def finishMount (d : DustSheet) (slot : Nat) (found : Option MountData) (c : Chip) : Chip :=
  let master := tget 1 c.hod.mounting slot - 1
  let fail (n : Nat) (c : Chip) : Chip := setNum (Obj.hodVolumeResult slot) n (setNum (Obj.hodVolumeState slot) 4 c)
  let c := modHod (fun h => { h with mounting := tdel h.mounting slot }) c
  match found with
  | none => fail 1 c
  | some m =>
    let sb := if superblockValid m.primary then m.primary else m.backup
    if c.num (Obj.hodDriveState (c.num (Obj.hodVolumeDrive slot))) ≠ 2 then fail 1 c
    else if !superblockValid sb then fail 2 c
    else
      let v := loadVolume d sb m
      let broken := ((upTo v.sb.slots).drop 1).filter (fun i => !dirCrcOk (dirBytes m.directory i))
      let c := forEach broken (fun i c => snagWith 0x0302 slot 0xFF 0xFFFF i c) c
      let n := mountResult c slot master sb v m
      if n ≠ 0 then fail n c
      else
        let c := modVolume slot (fun _ => v) c
        let c := setNum (Obj.hodVolumeBytes slot) (v.sb.extents * 65536) (setNum (Obj.hodVolumeImageHash slot) v.sb.imageHash
          (setNum (Obj.hodVolumeId slot) v.sb.id (setNum (Obj.hodVolumeResult slot) 0 (setNum (Obj.hodVolumeState slot) 2 c))))
        let c := when_ (c.flag (Obj.hodVolumePreload slot)) (preload slot) c
        sendOffers (checkConflict slot c)

/-- The rule of Hod.Volume.Mount 1 (R282). A slot that is mounting or mounted stays as it is. Entry 63, DESIGN CHOICE. -/
def mountAct (slot : Nat) : Act := chipAct (fun m c =>
  let st := c.num (Obj.hodVolumeState slot)
  if st = 1 ∨ st = 2 ∨ st = 3 ∨ st = 5 then (c, St.ok)
  else (setNum (Obj.hodVolumeMount slot) 1 (setNum (Obj.hodVolumeState slot) 1
    (modHod (fun h => { h with mounting := tput h.mounting slot (m + 1) }) c)), St.ok))

/-- MOUNT. -/
def execHodMount (r : Req) (slot : Fin 16) (s : State) : Host.Outcome State Fault Refusal :=
  serveRow r (Obj.hodVolumeMount slot.val) [1] (mountAct slot.val) s

/-- MOUNT_DONE: `found` is what the namespace holds, none where it is absent or does not meet R273. -/
def execMountDone (slot : Fin 16) (found : Option MountData) (s : State) : Host.Outcome State Fault Refusal :=
  s.withKeys (fun d c =>
    if c.num (Obj.hodVolumeState slot.val) = 1 ∧ c.num (Obj.hodVolumeMount slot.val) = 1 then
      finishMount d slot.val found c
    else c)

/-- A volume leaves: its extents, reads and metadata go. -/
def clearVolume (slot : Nat) (c : Chip) : Chip :=
  let vol := c.num (Obj.hodVolumeNumber slot)
  let c := dropReads vol (modHod (fun h => { h with cache := h.cache.filter (fun e => e.volume != vol), volumes := tdel h.volumes slot }) c)
  setNum (Obj.hodVolumeHeadsPinned slot) 0 (setNum (Obj.hodVolumeBytes slot) 0 (setNum (Obj.hodVolumeImageHash slot) 0
    (setNum (Obj.hodVolumeId slot) 0 c)))

/-- The rule of Hod.Volume.Mount 0 (R282). Entry 63, DESIGN CHOICE. -/
def unmountAct (slot : Nat) : Act := chipAct (fun m c =>
  let vol := c.num (Obj.hodVolumeNumber slot)
  let open_ := c.mounted slot && c.cursorList.any (fun x => x.2.volume == vol && !x.2.remote)
  if !c.may 0x15 slot m 3 then (setNum (Obj.hodVolumeResult slot) 6 c, St.noAccess)
  else if open_ || (c.hod.import_.isOpen && c.hod.import_.slot == slot) then (setNum (Obj.hodVolumeResult slot) 7 c, St.refused)
  else
    let was := c.mounted slot
    let c := when_ was (clearVolume slot) c
    let c := setNum (Obj.hodVolumeMount slot) 0 (setNum (Obj.hodVolumeResult slot) 0 (setNum (Obj.hodVolumeState slot) 0 c))
    (when_ was sendOffers c, St.ok))

/-- UNMOUNT. -/
def execHodUnmount (r : Req) (slot : Fin 16) (s : State) : Host.Outcome State Fault Refusal :=
  serveRow r (Obj.hodVolumeMount slot.val) [0] (unmountAct slot.val) s

/-- The rule of Hod.Volume.Mount 3 (R282): the slot reads MOUNTING while the format runs. Entry 63, DESIGN CHOICE. -/
def formatAct (slot : Nat) : Act := chipAct (fun m c =>
  let st := c.num (Obj.hodVolumeState slot)
  if !c.may 0x15 slot m 3 then (setNum (Obj.hodVolumeResult slot) 6 c, St.noAccess)
  else if st ≠ 0 ∧ st ≠ 4 then (setNum (Obj.hodVolumeResult slot) 7 c, St.refused)
  else (setNum (Obj.hodVolumeMount slot) 3 (setNum (Obj.hodVolumeState slot) 1 c), St.ok))

/-- FORMAT. -/
def execHodFormat (r : Req) (slot : Fin 16) (s : State) : Host.Outcome State Fault Refusal :=
  serveRow r (Obj.hodVolumeMount slot.val) [3] (formatAct slot.val) s

/-- FORMAT_DONE: the superblock written, whose VOLUME_ID and SALT the random source drew, or none for a format that
failed. The new volume is mounted and Mount reads MOUNT. -/
def execFormatDone (slot : Fin 16) (superblock : Option (List Byte)) (s : State) : Host.Outcome State Fault Refusal :=
  s.withKeys (fun d c =>
    if c.num (Obj.hodVolumeMount slot.val) ≠ 3 then c
    else match superblock with
      | none => flashStore (Obj.hodVolumeMount slot.val) (setNum (Obj.hodVolumeMount slot.val) 0 (setNum (Obj.hodVolumeState slot.val) 4 c))
      | some sb =>
        let c := flashStore (Obj.hodVolumeMount slot.val) (setNum (Obj.hodVolumeMount slot.val) 1 c)
        let n (o : Nat) : Nat := field sb o 4 * 65536
        let dir := ((upTo (n 0x2C / 64)).map (fun _ => zeros 0x3C ++ leBytes 4 (crc32c (zeros 0x3C)))).flatten
        finishMount d slot.val (some ⟨sb, sb, zeros (n 0x24), dir, zeros (n 0x34)⟩)
          (modHod (fun h => { h with mounting := tput h.mounting slot.val 1 }) c))

/-- The rule of Hod.Volume.Preload (R283, R295). -/
def preloadAct (slot : Nat) (on : Bool) : Act := chipAct (fun _ c =>
  let vol := c.num (Obj.hodVolumeNumber slot)
  let was := c.flag (Obj.hodVolumePreload slot)
  let c := setNum (Obj.hodVolumePreload slot) (if on then 1 else 0) c
  let st := c.num (Obj.hodVolumeState slot)
  if on = was then (c, St.ok)
  else if on then (when_ (st == 2 || (!c.mounted slot && (c.volumeSlot vol).isNone)) (preload slot) c, St.ok)
  else
    let c := modHod (fun h => { h with
      cache := h.cache.map (fun e => if e.volume = vol then { e with pinned := false } else e),
      reads := h.reads.filter (fun r => !(r.pin && r.volume == vol && r.need.isNone)) }) c
    (settlePreload slot c, St.ok))

/-- PRELOAD. -/
def execHodPreload (r : Req) (slot : Fin 16) (on : Bool) (s : State) : Host.Outcome State Fault Refusal :=
  serveRow r (Obj.hodVolumePreload slot.val) [if on then 1 else 0] (preloadAct slot.val on) s

/-! ### Remote streams (R294, R295) -/

/-- The next server of a remote read, or its end when every one was tried (R295). -/
def nextServer (r : Read) (c : Chip) : Chip :=
  let c := bump Obj.hodCountersRemoteTimeouts c
  match (c.servers r.volume).find? (fun m => !r.tried.contains m) with
  | some m =>
    sendLath 4 0 m 0 [r.volume, r.object, r.index, r.need.getD 0]
      (modRead r (fun x => { x with server := some m, tried := x.tried ++ [m], issued := c.now }) c)
  | none => modHod (fun h => { h with reads := h.reads.filter (fun x =>
      !(x.volume == r.volume && x.object == r.object && x.index == r.index)) }) c

/-- REMOTE_TIMEOUT: remote reads without a reply in 2 ms. -/
def execRemoteTimeout (s : State) : Host.Outcome State Fault Refusal :=
  s.onChip (fun c => forEach (c.hod.reads.filter (fun r => r.server.isSome && decide (r.issued + 2000000 ≤ c.now)))
    nextServer c)

/-- EXTENT_REQ: a server takes a request for one extent as one of its own reads. -/
def execExtentReq (chip : Byte) (fields : List Nat) (s : State) : Host.Outcome State Fault Refusal :=
  s.onChip (fun c =>
    let vol := fields.getD 0 0
    let obj := fields.getD 1 0
    let ix := fields.getD 2 0
    match c.volumeSlot vol with
    | none => c
    | some slot =>
      let e := tget {} (c.volume slot).dir obj
      if c.num (Obj.hodVolumeState slot) = 5 ∨ !c.flag (Obj.hodVolumeServe slot) ∨ e.state ≠ 1 ∨ e.extents ≤ ix ∨
          c.extentBad vol obj ix then c
      else match c.cached vol obj ix with
        | some x => sendLath 4 1 chip.toNat 0 ([vol, obj, ix] ++ x.data.map BitVec.toNat) c
        | none =>
          let c := modHod (fun h => { h with served := h.served ++ [⟨chip.toNat, vol, obj, ix⟩] }) c
          if c.inFlight vol obj ix then c
          else modHod (fun h => { h with reads := h.reads ++
            [{ volume := vol, object := obj, index := ix, need := some (fields.getD 3 0), issued := c.now }] }) c)

/-- EXTENT_DATA: the plaintext of a remote extent enters the requester's cache. -/
def execExtentData (chip : Byte) (fields : List Nat) (s : State) : Host.Outcome State Fault Refusal :=
  s.onChip (fun c =>
    match c.hod.reads.find? (fun r => r.volume == fields.getD 0 0 && r.object == fields.getD 1 0 && r.index == fields.getD 2 0 &&
        r.tried.contains chip.toNat) with
    | some r => finishRead r (slice ((fields.drop 3).map (BitVec.ofNat 8)) 0 65536) c
    | none => c)

/-- The offers of a message, three numbers each. -/
def offerEntries (chip : Nat) : List Nat → List (Nat × Nat × Nat × Nat)
  | n :: id :: h :: rest => (chip, n, id, h) :: offerEntries chip rest
  | _ => []

/-- VOLUME_OFFER: a chip's offers take the place of its earlier ones. -/
def execVolumeOffer (chip : Byte) (fields : List Nat) (s : State) : Host.Outcome State Fault Refusal :=
  s.onChip (fun c =>
    forEach (upTo 16) checkConflict (modHod (fun h => { h with
      offers := h.offers.filter (fun o => o.1 != chip.toNat) ++ offerEntries chip.toNat fields }) c))

/-! ### Imports (R289, R297, R492) -/

/-- Are cursors open on an object of a slot? -/
def objectOpen (c : Chip) (slot object : Nat) : Bool :=
  c.cursorList.any (fun x => !x.2.remote && x.2.volume == c.num (Obj.hodVolumeNumber slot) && x.2.object == object)

/-- Why an import of a master may not begin or delete, as Status names it: 0 for none. -/
def importCheck (c : Chip) (m : Nat) : Nat :=
  let slot := c.num Obj.hodImportVolume
  if !c.may 0x15 slot m 1 then 6
  else if bit (c.volume slot).sb.flags 0 then 4
  else if objectOpen c slot (c.num Obj.hodImportObject) then 5
  else 0

/-- The object number may be used in the volume. -/
def importTarget (c : Chip) : Bool :=
  let slot := c.num Obj.hodImportVolume
  let o := c.num Obj.hodImportObject
  decide (slot < 16) && c.mounted slot && decide (1 ≤ o) && decide (o < (c.volume slot).sb.slots)

/-- Is an import open that another master began? -/
def importBusy (c : Chip) (m : Nat) : Bool := c.hod.import_.isOpen && c.hod.import_.master != m

/-- The rule of Hod.Import.Commit 1. -/
def importBeginAct : Act := chipAct (fun m c =>
  if importBusy c m then (c, St.busy)
  else if !importTarget c then (c, St.refused)
  else
    let r := importCheck c m
    let e := slice (c.blob Obj.hodImportEntry) 0 64
    let d := dirEntry e
    let fits := dirValid { d with state := 1, extents := (d.length * d.frameBytes + 65535) / 65536 }
    if r ≠ 0 then (setNum Obj.hodImportStatus r c, if r = 6 then St.noAccess else St.refused)
    else if !fits then (c, St.refused)
    else
      let slot := c.num Obj.hodImportVolume
      let i : Import := { slot := slot, object := c.num Obj.hodImportObject, master := m, entry := e, isOpen := true }
      (leaseSet 5 slot m (c.time.stc + 10 * c.fs) (setNum Obj.hodImportStatus 1 (modHod (fun h => { h with import_ := i }) c)), St.ok))

/-- IMPORT_BEGIN. -/
def execImportBegin (r : Req) (s : State) : Host.Outcome State Fault Refusal :=
  serveRow r Obj.hodImportCommit [1] importBeginAct s

/-- The rule of a write of Hod.Import.Data: appended in order; the lease runs 10 s from it (R492). -/
def importDataAct (data : List Byte) : Act := chipAct (fun m c =>
  let i := c.hod.import_
  if !i.isOpen || i.finishing then (c, St.refused)
  else if i.master ≠ m then (c, St.busy)
  else (leaseSet 5 i.slot m (c.time.stc + 10 * c.fs)
    (modHod (fun h => { h with import_ := { i with data := i.data ++ data } }) c), St.ok))

/-- IMPORT_DATA. -/
def execImportData (r : Req) (data : List Byte) (s : State) : Host.Outcome State Fault Refusal :=
  serveRow r Obj.hodImportData data (importDataAct data) s

/-- Data extents that no VALID object lists, `but` one object, the lowest first: at most `n`. -/
def freeExtents (v : Volume) (but n : Nat) : List Nat :=
  let used := (v.dir.filter (fun e => e.2.state == 1 && e.1 != but)).flatMap (fun e =>
    (upTo e.2.extents).map (fun i => tget 0 v.map (e.2.mapIndex + i)))
  (((upTo (v.sb.extents - 1)).drop v.sb.dataExt).filter (fun e => !used.contains e)).take n

/-- The rule of Hod.Import.Commit 2: writing begins (R289). -/
def importFinishAct : Act := chipAct (fun m c =>
  let i := c.hod.import_
  let d := dirEntry i.entry
  let n := (d.length * d.frameBytes + 65535) / 65536
  if importBusy c m then (c, St.busy)
  else if !i.isOpen || i.finishing then (c, St.refused)
  else if objectOpen c i.slot i.object then (setNum Obj.hodImportStatus 5 c, St.refused)
  else if (freeExtents (c.volume i.slot) 0 n).length < n then
    (setNum Obj.hodImportStatus 3 (importAbort c), St.refused)
  else (modHod (fun h => { h with import_ := { i with finishing := true } }) c, St.ok))

/-- IMPORT_FINISH. -/
def execImportFinish (r : Req) (s : State) : Host.Outcome State Fault Refusal :=
  serveRow r Obj.hodImportCommit [2] importFinishAct s

/-- The object's entry and extent list change, with a new GENERATION and an IMAGE_HASH that the model does not compute
(entry 6, DESIGN CHOICE). -/
def changeObject (slot object : Nat) (f : Volume → Volume) (c : Chip) : Chip :=
  let vol := c.num (Obj.hodVolumeNumber slot)
  let h := draw c
  let hash := h.1 % 2 ^ 64
  let c := modVolume slot (fun v =>
    let v := f v
    { v with sb := { v.sb with generation := v.sb.generation + 1, imageHash := hash } }) h.2
  let c := modHod (fun h => { h with cache := h.cache.filter (fun e => !(e.volume == vol && e.object == object)) }) c
  sendOffers (setNum (Obj.hodVolumeImageHash slot) hash c)

/-- The extent-map entry after the last that a VALID object uses. Entry 63, DESIGN CHOICE. -/
def mapEnd (v : Volume) : Nat :=
  ((v.dir.filter (fun e => e.2.state == 1)).map (fun e => e.2.mapIndex + e.2.extents)).foldl max 0

/-- IMPORT_DONE: the last writes of an import complete and Status reads DONE (R289, R297). -/
def execImportDone (s : State) : Host.Outcome State Fault Refusal :=
  s.onChip (fun c =>
    let i := c.hod.import_
    if !i.finishing then c
    else
      let c := changeObject i.slot i.object (fun v =>
        let d := dirEntry i.entry
        let n := (d.length * d.frameBytes + 65535) / 65536
        let at_ := mapEnd v
        let es := freeExtents v 0 n
        { v with dir := tset {} v.dir i.object { d with state := 1, mapIndex := at_, extents := n },
                 map := tsets 0 v.map at_ es, bad := v.bad.filter (fun e => !es.contains e),
                 -- their tags are read again with them
                 tags := v.tags.filter (fun x => !es.contains x.1) }) c
      leaseDrop 5 i.slot (setNum Obj.hodImportStatus 2 (modHod (fun h => { h with import_ := {} }) c)))

/-- The rule of Hod.Import.Commit 3. Entry 63, DESIGN CHOICE. -/
def importDeleteAct : Act := chipAct (fun m c =>
  if importBusy c m || c.hod.import_.isOpen then (c, St.busy)
  else if !importTarget c then (c, St.refused)
  else
    let r := importCheck c m
    let slot := c.num Obj.hodImportVolume
    let o := c.num Obj.hodImportObject
    if r ≠ 0 then (setNum Obj.hodImportStatus r c, if r = 6 then St.noAccess else St.refused)
    else
      let c := changeObject slot o (fun v =>
        let e := tget {} v.dir o
        { v with dir := tset {} v.dir o (if e.state = 1 then { e with state := 2 } else e) }) c
      (setNum Obj.hodImportStatus 2 c, St.ok))

/-- IMPORT_DELETE. -/
def execImportDelete (r : Req) (s : State) : Host.Outcome State Fault Refusal :=
  serveRow r Obj.hodImportCommit [3] importDeleteAct s

/-! ### Rate transitions and changes of B (R296) -/

/-- Every window takes the size of the new B and keeps what POS and FILL still span (R296). -/
def resizeWindows (b : Nat) (c : Chip) : Chip :=
  modHod (fun h => { h with cursors := h.cursors.map (fun x => (x.1, x.2.map (fun y =>
    let w := windowFrames b y.rmax
    let frames := (upTo (min w (min y.w y.fill))).map (fun i => y.fill - 1 - i)
    { y with w := w,
             window := frames.foldl (fun t f => tsets 0 t (f % w * y.channels) (tgets 0 y.window (f % y.w * y.channels) y.channels)) [] }))) }) c

end Sys2Proof.Machine
end

