-- ==== Sys2Proof/Machine/Plumb.lean ====
section
/-!
DEFINITION. Plumb: the word clock filter and the reference states, rate transitions and changes of B, tempo, and the
timer units (R41, R61, R126, R247, R270, R296, R445 to R466).
-/

namespace Sys2Proof.Machine

/-! ### The word clock filter (R448, R449) -/

/-- The reference states of Plumb.RefState (R450, R466). -/
def refFree : Nat := 0
def refAcquiring : Nat := 1
def refSlewing : Nat := 2
def refLocked : Nat := 3
def refFlywheel : Nat := 4
def refHoldover : Nat := 5
def refChain : Nat := 6

/-- The reference state. -/
def Chip.refState (c : Chip) : Nat := c.num Obj.plumbRefState
/-- The reference state changes. Entry 71, DEDUCED. -/
def setRef (st : Nat) (c : Chip) : Chip := setNum Obj.plumbRefState st c
/-- The clock class reported (R445, R451). -/
def setClass (n : Nat) (c : Chip) : Chip := setNum Obj.chainClockClass n c
/-- The filter changes. -/
def modRef (f : Ref → Ref) (c : Chip) : Chip := modTime (fun t => { t with ref := f t.ref }) c

/-- The mean period, ps: the first one until 16 are accepted (R448). -/
def Ref.mean (r : Ref) : Nat :=
  if 16 ≤ r.periods.length then (r.periods.take 16).sum / 16 else r.periods.getLast?.getD 0

/-- Is 1/P within 0.5 % of a rate (R446, R449)? Entry 71, DEDUCED. -/
def inPullRange (hz period : Nat) : Bool :=
  decide (995 * hz * period ≤ 1000000000000000) && decide (1000000000000000 ≤ 1005 * hz * period)

/-- The filter starts again from the first period measured (R450). -/
def Ref.restart (r : Ref) (acquiring : Bool) : Ref :=
  { r with periods := [], stoodIn := 0, sinceAnomaly := none, good := 0, flyGood := 0, acquiring := acquiring, mismatch := false }

/-- Entry into ACQUIRING (R450). -/
def acquire (c : Chip) : Chip := setRef refAcquiring (modRef (fun r => r.restart false) c)

/-- Loss of WCLK_IN: FLYWHEEL for a chip that follows it, class 1 for a monitor (R449 to R451). -/
def declareLoss (c : Chip) : Chip :=
  let st := c.refState
  if st = refSlewing ∨ st = refLocked then
    let c := modRef (fun r => { r with lossTick := c.time.stc, before := st, flyGood := 0 }) c
    snag 0x0401 0 0xFF (setClass 1 (setRef refFlywheel (bump Obj.plumbCountersLosses c)))
  else if st = refChain ∧ c.time.ref.qualified then
    setClass 1 (modRef (fun r => { r with qualified := false, good := 0, heldAt := c.now }) (bump Obj.plumbCountersLosses c))
  else c

/-- An anomaly: single ones are counted, a second one within 16 predicted edges is loss (R449). Entry 71, DEDUCED. -/
def anomaly (counter : Nat) (c : Chip) : Chip :=
  let r := c.time.ref
  let single := match r.sinceAnomaly with | none => true | some n => decide (16 < n)
  let c := modRef (fun r => { r with sinceAnomaly := some 0, good := 0, flyGood := 0 }) c
  if single then bump counter c else declareLoss c

/-! ### Rate transitions: their schedule (R456, R459, R460) -/

/-- The first multiple of 64 samples after now. -/
def Chip.next64 (c : Chip) : Nat := (c.time.stc / 64 + 1) * 64

/-- The schedule of a transition from boundary X (R456). -/
def Chip.schedule (c : Chip) (x rate : Nat) (rebase : Option (Nat × Nat × Nat)) : Transition :=
  let y := (x + c.fs / 500 + 63) / 64 * 64
  { x := x, y := y, z := (y + c.bsize + 3 + 63) / 64 * 64, rate := rate, block := c.bsize, rebase := rebase }

/-- A transition is triggered; a second trigger waits for the first new-rate tick (R456, R459). -/
def trigger (x rate : Nat) (rebase : Option (Nat × Nat × Nat)) (c : Chip) : Chip :=
  match c.time.transition with
  | none => modTime (fun t => { t with transition := some (c.schedule x rate rebase) }) c
  | some _ => modTime (fun t => { t with second := some (x, rate, rebase) }) c

/-- The code of a rate that 1/P̄ lies within 0.5 % of. -/
def rateOf (period : Nat) : Option Nat := (upTo 6).find? (fun r => inPullRange (rateHz r) period)

/-! ### The reference states (R450, R451) -/

/-- 256 clean periods: the word clock qualifies, at this rate or at another (R450). -/
def qualify (c : Chip) : Chip :=
  let p := c.time.ref.mean
  if inPullRange c.fs p then setRef refSlewing (modRef (fun r => { r with acquiring := false }) c)
  else match rateOf p with
    | none => c
    | some rate =>
      if c.flag Obj.plumbFollowRate && c.num Obj.chainState == 0 then
        when_ c.time.transition.isNone (fun c => setNum Obj.plumbSampleRate rate (trigger c.next64 rate none c)) c
      else when_ (!c.time.ref.mismatch) (fun c => snag 0x0403 0 0xFF (modRef (fun r => { r with mismatch := true }) c)) c

/-- What an accepted period does in the present state (R450, R451). Entry 71, DEDUCED. -/
def acceptedPeriod (c : Chip) : Chip :=
  let r := c.time.ref
  let p := r.mean
  let st := c.refState
  if st = refAcquiring ∨ r.acquiring then when_ (decide (256 ≤ r.good)) qualify c
  else if st = refSlewing ∨ st = refLocked then
    let c := when_ (st == refLocked) (setInt Obj.plumbOffsetPpm ((10 ^ 20 / (p * c.fs) : Nat) - 10 ^ 8 : Int)) c
    when_ (!inPullRange c.fs p) declareLoss c
  else if st = refFlywheel then
    if 16 ≤ r.flyGood then setRef r.before (when_ (r.before == refLocked) (setClass 0) c) else c
  else if st = refChain then
    if r.qualified then when_ (!inPullRange c.fs p) declareLoss c
    else when_ (decide (256 ≤ r.good) && inPullRange c.fs p) (fun c => setClass 0 (modRef (fun r => { r with qualified := true }) c)) c
  else c

/-- A window closes: `after` is the time from the last accepted edge to the edge that came, ps (R448, R449). -/
def wclkWindow (after : Option Nat) (c : Chip) : Chip :=
  let r := c.time.ref
  let p := r.mean
  let accept (period : Nat) (c : Chip) : Chip :=
    let c := modRef (fun r => { r with periods := (period :: r.periods).take 16, stoodIn := 0, good := r.good + 1, flyGood := r.flyGood + 1,
                                       sinceAnomaly := r.sinceAnomaly.map (· + 1) }) c
    acceptedPeriod (setNum Obj.plumbWclkMilliHz (10 ^ 15 / max 1 c.time.ref.mean) c)
  match after with
  | some a =>
    if p = 0 then (if a = 0 then c else accept a c)
    else
      let centre := (r.stoodIn + 1) * p
      if 8 * centre ≤ 8 * a + p ∧ 8 * a ≤ 8 * centre + p then accept (a - r.stoodIn * p) c
      else anomaly Obj.plumbCountersWclkShort c
  | none =>
    if p = 0 then c
    else anomaly Obj.plumbCountersWclkMissing
      (modRef (fun r => { r with stoodIn := r.stoodIn + 1, sinceAnomaly := r.sinceAnomaly.map (· + 1) }) c)

/-- Does the filter run: in every state but FREE and HOLDOVER without background ACQUIRING? -/
def Chip.filters (c : Chip) : Bool :=
  c.time.ref.acquiring || !(c.refState == refFree || c.refState == refHoldover)

/-- WCLK_WINDOW. -/
def execWclkWindow (after : Option (BitVec 64)) (s : State) : Host.Outcome State Fault Refusal :=
  s.onChip (fun c => when_ c.filters (wclkWindow (after.map BitVec.toNat)) c)

/-- LOCK: the phase error is below 1 ns (R450). -/
def execPlumbLock (s : State) : Host.Outcome State Fault Refusal :=
  s.onChip (fun c => when_ (c.refState == refSlewing) (fun c => setClass 0 (setRef refLocked c)) c)

/-- HOLDOVER: the 64th tick after the tick of the loss (R450). -/
def execHoldover (s : State) : Host.Outcome State Fault Refusal :=
  s.onChip (fun c => when_ (c.refState == refFlywheel && decide (c.time.ref.lossTick + 64 ≤ c.time.stc))
    (fun c => snag 0x0402 0 0xFF (bump Obj.plumbCountersSwitchovers
      (setRef refHoldover (modRef (fun r => { r.restart true with heldAt := c.now }) c)))) c)

/-- The clock slews to nominal: FREE, class 2 (R450). -/
def freeRef (acquiring : Bool) (c : Chip) : Chip :=
  setClass 2 (setRef refFree (setNum Obj.plumbOffsetPpm 0 (modRef (fun r => { r with acquiring := acquiring }) c)))

/-- HOLDOVER_TIMEOUT: 10 s in HOLDOVER (R450). -/
def execHoldoverTimeout (s : State) : Host.Outcome State Fault Refusal :=
  s.onChip (fun c => when_ (c.refState == refHoldover && decide (c.time.ref.heldAt + 10000000000 ≤ c.now))
    (freeRef c.time.ref.acquiring) c)

/-- The chip becomes a chain member that is not the time master (R450). -/
def enterChainRef (c : Chip) : Chip :=
  if c.refState = refChain then c
  else setClass 2 (setRef refChain (modTime (fun t => { t with syncAt := c.now, chainHoldover := false }) (modRef (fun r =>
    { r.restart false with qualified := false, heldAt := 0 }) c)))

/-- The chip becomes the time master, or ALONE (R450). -/
def leaveChainRef (c : Chip) : Chip :=
  if c.refState = refChain then
    let c := modTime (fun t => { t with chainHoldover := false }) c
    if c.num Obj.plumbClockSource = 1 then setClass 2 (acquire c) else freeRef false c
  else c

/-- The rule of Plumb.ClockSource (R450). -/
def clockSourceAct (src : Nat) : Act := chipAct (fun _ c =>
  let c := setNum Obj.plumbClockSource src c
  let st := c.refState
  (if st = refChain then c
   else if src = 0 then freeRef false c
   else if st = refFree then acquire c
   else c, St.ok))

/-- CLOCK_SOURCE. -/
def execClockSource (r : Req) (source : Fin 2) (s : State) : Host.Outcome State Fault Refusal :=
  serveRow r Obj.plumbClockSource [BitVec.ofNat 8 source.val] (clockSourceAct source.val) s

/-- CHAIN_HOLDOVER: no SYNC for 64 µs (R454). -/
def execChainHoldover (s : State) : Host.Outcome State Fault Refusal :=
  s.onChip (fun c => when_ (c.refState == refChain && !c.time.chainHoldover && decide (c.time.syncAt + 64000 ≤ c.now))
    (fun c => snag 0x0206 0 0xFF (modTime (fun t => { t with chainHoldover := true }) c)) c)

/-- CHAIN_CLOCK_CLASS_EXPIRY: 10 s after a loss on a monitor (R451). -/
def execChainClockClassExpiry (s : State) : Host.Outcome State Fault Refusal :=
  s.onChip (fun c => when_ (c.refState == refChain && c.num Obj.chainClockClass == 1 &&
    decide (c.time.ref.heldAt + 10000000000 ≤ c.now)) (setClass 2) c)

/-! ### Refitting at X (R61, R126, R167, R247, R296) -/

/-- The chip as it stands at another rate and block size. -/
def Chip.atSetting (c : Chip) (rate b : Nat) : Chip := { c with time := { c.time with rate := rate, block := b } }

/-- A voice that must go: silently, at the first boundary at which the outputs have reached 0 (R61). Entry 72, DEDUCED. -/
def endRefit (n frame : Nat) (c : Chip) : Chip :=
  modVoice n (fun v => { v with endAt := v.endAt <|> some (frame, 7) }) c

/-- The voices that still count against a core. -/
def Chip.staying (c : Chip) (core : Nat) : List (Nat × Voice) := (c.coreVoices core).filter (fun x => x.2.endAt.isNone)

/-- Octets of the voice partition that a gang's staying voices take at the rate and B in force (R69, R288, R296). -/
def Chip.partitionNeed (c : Chip) (gang : Nat) : Nat :=
  let vs := ((upTo 16).map (fun i => c.staying (16 * gang + i))).flatten
  (vs.map (fun x => combBytes c.fs (c.voiceImage x.2))).sum +
    ((c.cursorList.filter (fun y => vs.any (fun x => x.1 == y.2.voice))).map
      (fun y => windowFrames c.bsize y.2.rmax * y.2.channels * 2)).sum

/-- End the best steal candidates of a core until its voices fit, at most `fuel` of them (R61). -/
def refitCore (core frame rate b : Nat) : Nat → Chip → Chip
  | 0, c => c
  | fuel + 1, c =>
    let n := c.atSetting rate b
    if ((n.staying core).map (fun x => n.weight (n.voiceImage x.2))).sum ≤
        (if n.coreDown core then 0 else n.rateSlots * n.num (Obj.trowelCoreClockMHz core) / 1600) then c
    else match n.byScore core with
      | [] => c
      | v :: _ => refitCore core frame rate b fuel (endRefit v frame c)

/-- The same for a gang's voice partition (R296). -/
def refitGang (gang frame rate b : Nat) : Nat → Chip → Chip
  | 0, c => c
  | fuel + 1, c =>
    let n := c.atSetting rate b
    if n.partitionNeed gang ≤ n.trowel.voiceBytes then c
    else
      let vs := ((upTo 16).map (fun i => ((n.byScore (16 * gang + i)).map (fun v =>
        (v, ((n.voice v).map (fun x => n.score x 16 0)).getD 0))))).flatten
      match bestBy (fun a b => decide (b.2 < a.2)) vs with
      | none => c
      | some v => refitGang gang frame rate b fuel (endRefit v.1 frame c)

/-- Hawk fits the sounding voices to a rate and block size (R61). Entry 72, DEDUCED. -/
def refit (frame rate b : Nat) (c : Chip) : Chip :=
  let c := forEach c.voiceList (fun x c =>
    when_ (!x.2.slots.isEmpty && (c.atSetting rate b).dormant (c.voiceImage x.2)) (endRefit x.1 frame) c) c
  let cores := ((c.voiceList.filterMap (fun x => x.2.core)).eraseDups)
  let c := forEach cores (fun n c => refitCore n frame rate b c.voiceList.length c) c
  forEach ((cores.map (· / 16)).eraseDups) (fun g c => refitGang g frame rate b c.voiceList.length c) c

/-- RATE_TRANSITION: at X the outputs begin to feather out and everything is fitted to the new rate (R457, R458).
Entry 72, DEDUCED. -/
def rateTransition (x : Transition) (c : Chip) : Chip :=
  let x := { x with phase := 1, block := (match c.time.blockNext with | some (b, _) => b | none => x.block) }
  let c := modTime (fun t => { t with transition := some x, blockNext := none }) c
  let c := modSkim (fun k => { k with outFades := [⟨x.x, c.fs / 500, false⟩] }) (completeWet c)
  let old := c.time
  let n := trimAllTasks (c.atSetting x.rate x.block)
  let c := { n with time := old }
  let c := refit ((x.x + c.fs / 500 + c.bsize - 1) / c.bsize) x.rate x.block c
  let c := when_ (decide (coatBudget x.rate < coatCycles c.skim.current)) coatFallback c
  modScreed (fun s => { s with gains := [] }) (clearInstances c)

/-- RATE_TRANSITION. -/
def execRateTransition (s : State) : Host.Outcome State Fault Refusal :=
  s.onChip (fun c => match c.time.transition with
    | some x => when_ (x.phase == 0 && decide (x.x ≤ c.time.stc)) (rateTransition x) c
    | none => c)

/-- RENDER_STOP: from Y no frame is dispatched; windows take their new size (R296, R457). -/
def execRenderStop (s : State) : Host.Outcome State Fault Refusal :=
  s.onChip (fun c => match c.time.transition with
    | some x => when_ (x.phase == 1 && decide (x.y ≤ c.time.stc)) (fun c =>
        modTime (fun t => { t with transition := some { x with phase := 2 }, silent := true }) c) c
    | none => c)

/-- CLOCK_STOP: at Z the sample clock stops (R457). -/
def execClockStop (s : State) : Host.Outcome State Fault Refusal :=
  s.onChip (fun c => match c.time.transition with
    | some x => when_ (x.phase == 2 && decide (x.z ≤ c.time.stc)) (fun c =>
        modTime (fun t => { t with transition := some { x with phase := 3, tz := c.nsOf x.z }, stopped := true, stc := x.z }) c) c
    | none => c)

/-! ### Carrying state to a new frame grid and rate (R41, R457, R458) -/

/-- A generator over the gap: 1/256 ticks `y` at its end of the old rate, `z` at its start of the new one; stages keep
their fraction, and those in steps their count (R458). -/
def Gen.carry (fo fn y z : Nat) (g : Gen) : Gen :=
  if y < g.tau then g
  else
    let age := y - g.tau + g.base
    let into := y - g.start + g.into
    let unit := g.stageTime g.stage / 16384
    { g with tau := z, start := z,
             base := if g.rateField * 8 < fo * 65536 then age * fn / fo else age,
             into := if unit = 0 ∨ unit = 3 then into else into * g.stageUnits fn g.stage / max 1 (g.stageUnits fo g.stage),
             beats := g.beats * fn / fo, run := g.run * fn / fo, seen := z }

/-- A frame number that follows the frames as they run on: frame `old` becomes frame `new`. Entry 73, DEDUCED. -/
def shiftFrame (old new f : Nat) : Nat := f + new - old

/-- A frame that was set by a tick of the old grid: it keeps its tick, and is not before frame `new` (R41, R459).
Entry 73, DEDUCED. -/
def regridFrame (bo bn new f : Nat) : Nat := max new (f * bo / bn)

/-- Every frame number the chip holds moves to the new grid: `old` is the first frame not run, `new` the first that
runs (R41, R457). -/
def reframe (bo bn old new : Nat) (c : Chip) : Chip :=
  let sh := shiftFrame old new
  let sh1 (n : Nat) : Nat := if n = 0 then 0 else sh (n - 1) + 1
  let rg := regridFrame bo bn new
  let voice (v : Voice) : Voice :=
    { v with rise := v.rise.map sh, featherFrom := v.featherFrom.map (fun x => (rg x.1, x.2)),
             endAt := v.endAt.map (fun x => (rg x.1, x.2)), modFrame := sh v.modFrame, blockFrame := sh1 v.blockFrame,
             stalledAt := sh1 v.stalledAt }
  let c := modHawk (fun h => { h with
    voices := h.voices.map (fun x => (x.1, x.2.map voice))
    starts := h.starts.map (fun s => { s with frame := rg s.frame })
    boundaryDone := new, deadlineDone := new, endDone := new, started := [], controlStarted := []
    cuts := h.cuts.map (fun x => (rg x.1, x.2.1, x.2.2))
    deniedFrame := [], rendered := []
    asks := h.asks.map (fun a => { a with frame := rg a.frame })
    migOut := h.migOut.map (fun m => { m with frame := sh m.frame })
    migIn := h.migIn.map (fun m => { m with frame := sh m.frame })
    settled := h.settled.map (fun x => (x.1, x.2.1, sh x.2.2)) }) c
  let c := modStipple (fun x => { x with globalFrame := sh x.globalFrame, computed := [], late := [] }) c
  let c := { c with trowel := { c.trowel with tasks := c.trowel.tasks.map (fun x =>
    (x.1, { x.2 with stalledAt := sh1 x.2.stalledAt, doneFrame := sh1 x.2.doneFrame })) } }
  let c := modJournal (fun j => { j with
    recs := j.recs.map (fun x => (x.1, x.2.map (fun r => { r with forwarded := r.forwarded.map sh })))
    received := j.received.map (fun x => (x.1, x.2.1, x.2.2.1, x.2.2.2.1, sh x.2.2.2.2)) }) c
  let c := modHod (fun h => { h with
    underrunFrame := []
    reads := h.reads.map (fun r => { r with need := r.need.map rg })
    cursors := h.cursors.map (fun x => (x.1, x.2.map (fun y => { y with releaseFrame := y.releaseFrame.map rg }))) }) c
  let c := modSkim (fun k => { k with hostIn := [], deniedFrame := [] }) c
  modWork (fun w => { w with
    tenants := w.tenants.map (fun x => (x.1, { x.2 with deniedFrame := none }))
    queues := w.queues.map (fun x => (x.1, { x.2 with audioFrame := sh1 x.2.audioFrame })) }) c

/-- The slots and frames of every core are laid out for the rate now in force, in LEAD order; a voice that finds no
slots ends (R61). -/
def layoutCore (core : Nat) (c : Chip) : Chip :=
  let vs := ((c.coreVoices core).sortBy (fun a b => decide (a.2.lead ≤ b.2.lead))).map (fun x => (x.1, c.bytesAt x.2.framePlace 0x400))
  let c := forEach vs (fun x c => modVoice x.1 (fun v => { v with slots := [] }) c) c
  forEach vs (fun x c =>
    match c.voice x.1 with
    | none => c
    | some v =>
      let w := c.weight (c.voiceImage v)
      let slots := c.takeSlots core w
      if slots.length < w ∨ w = 0 then endVoice x.1 7 c.time.stc c
      else
        let c := modVoice x.1 (fun v => { v with slots := slots }) c
        syncFrame x.1 (writeBytes (memLocal core (slots.headD 0 % 64 * 0x400)) x.2 c)) c

/-- Generator blocks above the pool move below it; control voices end, newest first, while there is no room (R126). -/
def moveBlock (n : Nat) : Nat → Chip → Chip
  | 0, c => c
  | fuel + 1, c =>
    match c.voice n with
    | none => c
    | some v =>
      match v.genBase with
      | none => c
      | some b =>
        if b % 16384 + v.genSize ≤ c.genPool then c
        else
          let cl := b / 16384
          match (modVoice n (fun v => { v with genBase := none }) c).findBlock cl v.genSize with
          | some i => syncFrame n (modVoice n (fun v => { v with genBase := some (cl * 16384 + i * v.genSize) }) c)
          | none =>
            let ctl := (c.voiceList.filter (fun x => x.1 != n && x.2.control && x.2.live && x.2.cluster == cl)).map (fun x => (x.1, x.2.key))
            match bestBy (fun a b => keyLt b.2 a.2) ctl with
            | some x => moveBlock n fuel (endVoice x.1 7 c.time.stc c)
            | none => endVoice n 7 c.time.stc c

/-- A voice's COMB lines at the rate in force: their length is new and their content is open (R69; entry 6, DESIGN CHOICE).
Entry 72, DEDUCED. -/
def freshCombs (n : Nat) (c : Chip) : Chip :=
  match c.voice n with
  | none => c
  | some v =>
    let aux := ((descs (c.voiceImage v)).filter (fun d => d.kernel == 0x08)).map (fun d => combLine c.fs d.aux)
    if aux = v.combs.map List.length then c
    else
      let d := draw c
      modVoice n (fun v => { v with combs := aux.map (fun l => leBytes l d.1) }) d.2

/-- Everything that depends on the rate is carried over the gap (R458). Entry 72, DEDUCED. -/
def carryRate (fo y z : Nat) (c : Chip) : Chip :=
  let fn := c.fs
  let carry := Gen.carry fo fn (256 * y) (256 * z)
  let c := modHawk (fun h => { h with voices := h.voices.map (fun x => (x.1, x.2.map (fun v =>
    { v with mods := { v.mods with gens := v.mods.gens.map carry } }))) }) c
  let c := modStipple (fun x => { x with globals := x.globals.map (fun g => (g.1, carry g.2)) }) c
  let c := modSkim (fun k => { k with ramps := k.ramps.map (fun r =>
    (r.1, if r.2.left = 0 then r.2 else Ramp.begin r.2.target ((r.2.left * fn + fo - 1) / fo) r.2)) }) c
  let c := forEach ((c.voiceList.filterMap (fun x => x.2.core)).eraseDups) layoutCore c
  let c := forEach (c.voiceList.map Prod.fst) freshCombs c
  forEach (c.voiceList.map Prod.fst) (fun n c => moveBlock n (c.voiceList.length + 1) c) c

/-! ### Timer units: what they count (R463) -/

/-- How far a unit's clock has counted: ticks, steps, boundaries, multiples of 1/96 beat, or µs. -/
def Chip.clockCount (c : Chip) : Nat → Nat
  | 0 => c.time.stc
  | 1 => c.time.stc / 4
  | 2 => c.time.stc / c.bsize
  | 3 => c.beatPos (stepOf c.time.stc) * 96 / 2 ^ 32
  | _ => c.now / 1000

/-- A unit's mark. -/
def markTimer (u m : Nat) (c : Chip) : Chip :=
  modTime (fun t => { t with timers := tset {} t.timers u { mark := m } }) c

/-- Counts go on from here, but for units in USEC (R458). -/
def remarkTimers (c : Chip) : Chip :=
  forEach (upTo 16) (fun u c => when_ (c.flag (Obj.timerEnable u) && c.num (Obj.timerClock u) != 4)
    (markTimer u (c.clockCount (c.num (Obj.timerClock u)))) c) c

/-! ### The resume (R457, R459, R460) -/

/-- The smallest multiple of 64 whose chain time under a rebase point is at least `ns` (R460). -/
def realignTick (rb : Nat × Nat × Nat) (ns : Nat) : Nat :=
  let t := rb.1 + ((ns - rb.2.1) * rb.2.2 + 999999999) / 1000000000
  (t + 63) / 64 * 64

/-- Accepted events with a timestamp between Z and Z' are late (R460). -/
def lateGap (z z' : Nat) (c : Chip) : Chip :=
  modJournal (fun j => { j with recs := j.recs.map (fun x => (x.1, x.2.map (fun r =>
    if !r.taken ∧ !entryImmediate r.entry ∧ z ≤ entryTick r.entry ∧ entryTick r.entry < z' then
      { r with late := true, replayTick := some z' } else r))) }) c

/-- The new rate starts 5 ms after Z. Entry 72, DEDUCED. -/
def resume (x : Transition) (c : Chip) : Chip :=
  let fo := c.fs
  let bo := c.bsize
  let beat := c.beatPos x.z
  let ns := x.tz + 5000000
  let z' := match x.rebase with | some rb => realignTick rb ns | none => x.z
  let rb := x.rebase.getD (x.z, ns, rateHz x.rate)
  let c := forEach c.voiceList (fun v c => match v.2.endAt with | some (_, r) => endVoice v.1 r x.y c | none => c) c
  let c := when_ x.rebase.isSome (lateGap x.z z') c
  let c := modTime (fun t => { t with
    rate := x.rate, block := x.block, stc := z'
    rebaseTick := rb.1, rebaseNs := rb.2.1, rebaseHz := rb.2.2
    anchorStep := x.z, anchorBeat := beat
    stopped := false, silent := false, transition := none, second := none }) c
  let c := reframe bo x.block (x.y / bo) (z' / x.block) c
  let c := carryRate fo x.y z' (resizeWindows x.block c)
  let c := modSkim (fun k => { k with outFades := [⟨z', c.fs / 500, true⟩] }) c
  let c := bump (if x.rebase.isSome then Obj.plumbCountersRealignments else Obj.plumbCountersRateTransitions) c
  let c := when_ x.rebase.isSome (fun c => setNum Obj.chainQuarantineCause (withBit (c.num Obj.chainQuarantineCause) 2 false) c) c
  remarkTimers c

/-- RATE_TRANSITION_RESUME; a second trigger then starts its own transition (R457, R459). -/
def execRateTransitionResume (s : State) : Host.Outcome State Fault Refusal :=
  s.onChip (fun c => match c.time.transition with
    | some x =>
      if x.phase = 3 then
        let second := c.time.second
        let c := resume x c
        match second with
        | some (at_, rate, rb) => trigger (max at_ c.time.stc) rate rb c
        | none => c
      else c
    | none => c)

/-! ### Changes of B (R41) -/

/-- B is to change: with a transition that is not yet at Z it applies from frame Z, else at boundary `s` (R41, R459).
Entry 72, DEDUCED. -/
def blockAt (s b : Nat) (c : Chip) : Chip :=
  match c.time.transition with
  | some x => if x.phase = 0 then modTime (fun t => { t with blockNext := some (b, s) }) c
    else modTime (fun t => { t with transition := some { x with block := b } }) c
  | none => modTime (fun t => { t with blockNext := some (b, s) }) c

/-- BLOCK_SIZE_CHANGE: at a multiple of 64 samples B changes, with outputs feathered out and in over 2 ms (R41). -/
def execBlockSizeChange (s : State) : Host.Outcome State Fault Refusal :=
  s.onChip (fun c =>
    match c.time.blockNext with
    | none => c
    | some (b, at_) =>
      if at_ ≤ c.time.stc ∧ c.time.stc % 64 = 0 ∧ !c.time.transition.any (fun x => decide (x.x ≤ c.time.stc)) ∧ !c.time.silent then
        let bo := c.bsize
        let n := c.time.stc
        let c := completeWet c
        let c := { trimAllTasks (c.atSetting c.time.rate b) with time := { c.time with blockNext := none } }
        let c := refit (n / bo) c.time.rate b c
        let c := forEach c.voiceList (fun v c => match v.2.endAt with | some (_, 7) => endVoice v.1 7 n c | _ => c) c
        let c := modTime (fun t => { t with block := b }) c
        let half := c.fs / 1000
        let c := modSkim (fun k => { k with outFades := [⟨n, half, false⟩, ⟨n + half, c.fs / 500 - half, true⟩] }) c
        remarkTimers (reframe bo b (n / bo) (n / b) (resizeWindows b c))
      else c)

/-! ### Realignment (R460) -/

/-- REALIGNMENT: a chip quarantined for TIME that holds the chain's rebase point starts its schedule at the next
multiple of 64 of its own STC. -/
def execRealignment (s : State) : Host.Outcome State Fault Refusal :=
  s.onChip (fun c =>
    match c.time.chainRebase with
    | some rb =>
      when_ (bit (c.num Obj.chainQuarantineCause) 2 && c.time.transition.isNone)
        (fun c => modTime (fun t => { t with chainRebase := none }) (trigger c.next64 c.time.rate (some rb) c)) c
    | none => c)

/-! ### Tempo (R461, R462) -/

/-- A tempo change is scheduled for the first step at or after a tick; it replaces one that waits. Entry 73, DEDUCED. -/
def tempoGo (kind from_ : Nat) (c : Chip) : Chip :=
  let a := c.num Obj.plumbTempoApplyTick
  let late := decide (a ≤ c.time.stc)
  let tick := max from_ (if late then c.time.stc + 1 else a)
  let x : TempoChange := { kind := kind, tempo := c.num Obj.plumbTempoSet, position := c.num Obj.plumbTempoRelocate, tick := tick, late := late }
  setNum Obj.plumbTempoStatus (1 + if late then 0x80 else 0) (modTime (fun t => { t with tempoChange := some x }) c)

/-- TEMPO_APPLY: at the apply step the new anchor is set. Entry 73, DEDUCED. -/
def execTempoApply (s : State) : Host.Outcome State Fault Refusal :=
  s.onChip (fun c =>
    match c.time.tempoChange with
    | none => c
    | some x =>
      let p := x.step c.time
      if p ≤ c.time.stc ∧ !c.time.silent then
        let a := c.anchorAt p
        let c := modTime (fun t => { t with anchorStep := a.1, anchorBeat := a.2.1, tempoChange := none }) c
        setNum Obj.plumbTempoStatus (2 + if x.late then 0x80 else 0) (setNum Obj.plumbTempo a.2.2 c)
      else c)

/-! ### Timer units (R463 to R465) -/

/-- One compare is tested after a count: it fires, and a ONCE mode returns to OFF. -/
def fireCompare (u i counter : Nat) (c : Chip) : Chip × Bool :=
  let mode := c.num (Obj.timerMode u)
  let m := bits mode (2 * i + 1) (2 * i)
  if m ≠ 0 ∧ c.num (if i = 0 then Obj.timerCompare0 u else Obj.timerCompare1 u) = counter then
    let c := setNum (Obj.timerStatus u) (withBit (c.num (Obj.timerStatus u)) i true) c
    (when_ (m == 2) (setNum (Obj.timerMode u) (withBit (withBit mode (2 * i) false) (2 * i + 1) false)) c, true)
  else (c, false)

/-- A valid preload is copied into its compare at a wrap. -/
def takePreload (u i : Nat) (c : Chip) : Chip :=
  let st := c.num (Obj.timerStatus u)
  if bit st (2 + i) then
    let v := c.num (if i = 0 then Obj.timerPreload0 u else Obj.timerPreload1 u)
    setNum (if i = 0 then Obj.timerCompare0 u else Obj.timerCompare1 u) v (setNum (Obj.timerStatus u) (withBit st (2 + i) false) c)
  else c

/-- One count of a unit (R464, R465). Entry 73, DEDUCED. -/
def timerCount (u : Nat) (c : Chip) : Chip :=
  let n := (c.num (Obj.timerCounter u) + 1) % 2 ^ c.num (Obj.timerWidth u)
  let c := setNum (Obj.timerCounter u) n c
  let c := when_ (n == 0) (fun c => takePreload u 1 (takePreload u 0 c)) c
  let a := fireCompare u 0 n c
  let b := fireCompare u 1 n a.1
  if a.2 || b.2 then
    let c := b.1
    let owner := c.num (Obj.timerOwner u)
    let core := c.num (Obj.timerCore u)
    let c := when_ (decide (owner < 16)) (raise owner (56 + u)) c
    when_ (decide (core < 256)) (setFlag (4 * core + c.num (Obj.timerThread u) % 4) 10) c
  else b.1

/-- TIMER_COUNT: the clock of an enabled unit has counted on since its last count (R463). Entry 4, DEDUCED. -/
def execTimerCount (u : Fin 16) (s : State) : Host.Outcome State Fault Refusal :=
  s.onChip (fun c =>
    if c.flag (Obj.timerEnable u) then
      let clk := c.num (Obj.timerClock u)
      let now := c.clockCount clk
      let mark := (tget {} c.time.timers u.val).mark
      if mark < now then timerCount u (markTimer u (if clk = 3 then now else mark + 1) c)
      else when_ (decide (now < mark)) (markTimer u now) c
    else c)

end Sys2Proof.Machine
end

