-- ==== Sys2Proof/Machine/Census.lean ====
section
/-!
DEFINITION. What the ports and the membership share: serials, links and hop weights, the census record, the start of a
census, and the declaration of a loss (R339, R340, R352, R353, R359 to R361, R365).
-/

namespace Sys2Proof.Machine

/-! ### Ports and links -/

/-- The chain changes. -/
def modChain (f : ChainNet → ChainNet) (c : Chip) : Chip := { c with chain := f c.chain }

/-- A port's working state. -/
def Chip.port (c : Chip) (p : Nat) : Port := tget {} c.chain.ports p
/-- It changes. -/
def modPort (p : Nat) (f : Port → Port) (c : Chip) : Chip := modChain (fun h => { h with ports := tmod {} h.ports p f }) c

/-- The states of Lath.Port.State (R351). -/
def portDisabled : Nat := 0
def portDetect : Nat := 1
def portTrain : Nat := 2
def portAlign : Nat := 3
def portUp : Nat := 4
def portRetrain : Nat := 5
def portMiswired : Nat := 6
def portDown : Nat := 7
def portRetired : Nat := 8

/-- A port's state. -/
def Chip.portState (c : Chip) (p : Nat) : Nat := c.num (Obj.lathPortState p)
/-- Is a port UP? -/
def Chip.isUp (c : Chip) (p : Nat) : Bool := c.portState p == portUp
/-- A port's state changes. -/
def setPortState (p st : Nat) (c : Chip) : Chip := setNum (Obj.lathPortState p) st c

/-- A message out of one port, for the neighbour (R329). Entry 75, DESIGN CHOICE. -/
def sendPort (p cls type tag : Nat) (fields : List Nat) (c : Chip) : Chip := emit (.lath p cls type 0xFE tag fields) c

/-- The same out of every port that is UP. Entry 75, DESIGN CHOICE. -/
def sendUp (cls type tag : Nat) (fields : List Nat) (c : Chip) : Chip :=
  forEach [0, 1] (fun p c => when_ (c.isUp p) (sendPort p cls type tag fields) c) c

/-- Relay out of the other port (R352, R383). Entry 75, DESIGN CHOICE. -/
def relay (p cls type tag : Nat) (fields : List Nat) (c : Chip) : Chip :=
  when_ (c.isUp (1 - p)) (sendPort (1 - p) cls type tag fields) c

/-- A serial as a number, octet 0 most significant. -/
def serialNat (bs : List Byte) : Nat := bs.foldl (fun n b => 256 * n + b.toNat) 0
/-- And back, as 16 octets. -/
def serialBytes (n : Nat) : List Byte := (leBytes 16 n).reverse
/-- This chip's. -/
def mySerial : Nat := serialNat Config.serial

/-- Hop weight of a link: the forwarding latency at its width plus its delay, in 180 ns, rounded up (R339, R340). -/
def hopWeight (width delayPs : Nat) : Nat :=
  let lat := if width = 4 then 170000 else if width = 2 then 228800 else 346400
  (lat + delayPs + 179999) / 180000

/-- The links of a view: the chip of each UP link and its weight (R364). -/
def View.links (v : View) : List (Nat × Nat) :=
  (if v.ring then v.entries else v.entries.dropLast).map (fun e => (e.number, max 1 e.weight))

/-- H: the weights of every link in the line (R364). -/
def View.hopTotal (v : View) : Nat :=
  ((v.links.filter (fun l => !(v.ring && l.1 == v.cut))).map Prod.snd).sum

/-- W: the weights of every link, the cut included (R361). -/
def View.allWeights (v : View) : Nat := (v.links.map Prod.snd).sum

/-- The place of a serial in a view. -/
def View.placeOf (v : View) (serial : Nat) : Option Nat := (findFrom (fun e => e.serial == serial) 0 v.entries).map Prod.fst

/-- The neighbour out of a port: its place in the view. -/
def View.neighbour (v : View) (place port : Nat) : Option Nat :=
  let n := v.entries.length
  if n ≤ 1 then none
  else if port = 0 then (if place + 1 < n then some (place + 1) else if v.ring then some 0 else none)
  else (if 0 < place then some (place - 1) else if v.ring then some (n - 1) else none)

/-- The number of the neighbour out of a port in the view in force. -/
def Chip.neighbourOf (c : Chip) (port : Nat) : Option Nat :=
  let v := c.chain.view
  match v.placeOf mySerial with
  | some i => (v.neighbour i port).bind (fun j => (v.entries[j]?).map (fun e => e.number))
  | none => none

/-! ### Chain-scope objects (R373) -/

/-- The chain-scope objects in ascending object number. -/
def scopeObjects : List Nat :=
  (upTo 256).map Obj.stippleStemMerge ++ [Obj.skimChainPresentDelay, Obj.chainMirroring, Obj.chainFailoverReplace, Obj.chainHeartbeatMiss] ++
  (upTo 4096).map Obj.chainLayerPreferredHome ++ [Obj.plumbSampleRate, Obj.plumbBlockSize]

/-- Is an object chain-scope? -/
def isScope (o : Nat) : Bool :=
  o == Obj.skimChainPresentDelay || o == Obj.chainMirroring || o == Obj.chainFailoverReplace || o == Obj.chainHeartbeatMiss ||
  o == Obj.plumbSampleRate || o == Obj.plumbBlockSize ||
  (o % 256 == 1 && decide (Obj.stippleStemMerge 0 ≤ o) && decide (o ≤ Obj.stippleStemMerge 255)) ||
  (o % 256 == 2 && decide (Obj.chainLayerPreferredHome 0 ≤ o) && decide (o ≤ Obj.chainLayerPreferredHome 4095))

/-- What an object contributes to the hash: its number, and its value; the sample rate in Hz. -/
def scopeBytes (c : Chip) (o : Nat) : List Byte :=
  leBytes 4 o ++ (if o = Obj.plumbSampleRate then leBytes 4 (rateHz (c.num o)) else leBytes (objWidth o) (c.num o))

/-- Chain.ConfigHash. -/
def Chip.configHash (c : Chip) : Nat := Config.sha384 (scopeObjects.flatMap (scopeBytes c))

/-! ### The census record and its start (R352, R353, R365) -/

/-- The clock class this chip offers in an election (R365). Entry 94, DEDUCED. -/
def Chip.electClass (c : Chip) : Nat :=
  let q := c.num Obj.chainQuarantineCause
  if !c.flag Obj.chainMasterEligible || bit q 1 || bit q 3 || bit q 4 then 255 else c.num Obj.chainClockClass

/-- SERIAL of the anchor this chip follows, 0 for none. -/
def Chip.myAnchor (c : Chip) : Nat := if c.num Obj.chainState < 2 then 0 else c.chain.view.anchor

/-- This chip's census record. Entry 94, DEDUCED. -/
def Chip.ownRecord (c : Chip) : CensusRec :=
  { serial := mySerial, preferred := c.num Obj.chainPreferredNumber, last := c.num Obj.chainLastNumber, cls := c.electClass,
    flags := if c.flag Obj.chainQuarantineRequest then 1 else 0, level := Config.protocolLevel, lowest := Config.lowestLevel,
    epoch := c.num Obj.chainEpoch, seq := c.chain.censusSeq, hops := 1,
    members := if c.num Obj.chainState < 2 then 0 else c.num Obj.chainMembers,
    hash := c.configHash, firmware := Config.firmwareVersion, anchor := c.myAnchor }

/-- The fields of a record, in its order (entry 13, DESIGN CHOICE). -/
def CensusRec.fields (r : CensusRec) : List Nat :=
  [r.serial, r.preferred, r.last, r.cls, r.flags, r.level, r.lowest, r.epoch, r.seq, r.hops, r.members, r.hash, r.firmware, r.anchor]

/-- A record out of its fields. -/
def CensusRec.ofFields (f : List Nat) : CensusRec :=
  let g (i : Nat) : Nat := f.getD i 0
  { serial := g 0, preferred := g 1, last := g 2, cls := g 3, flags := g 4, level := g 5, lowest := g 6, epoch := g 7, seq := g 8,
    hops := g 9, members := g 10, hash := g 11, firmware := g 12, anchor := g 13 }

/-- A census starts: the own record goes out of every port that is UP, and declared ports count again (R353, R360). -/
def startCensus (c : Chip) : Chip :=
  if !(c.isUp 0 || c.isUp 1) then c
  else
    let c := modChain (fun h => { h with
      ports := h.ports.map (fun x => (x.1, { x.2 with declared := false }))
      censusSeq := (h.censusSeq + 1) % 65536, censusOn := true, sentAt := some c.now, newAt := c.now
      recs := [], ring := none, computed := none, votes := [] }) c
    let c := when_ (c.num Obj.chainState == 0) (setNum Obj.chainState 1) c
    sendUp 5 1 0 c.ownRecord.fields c

/-! ### Heartbeats and loss (R359 to R361) -/

/-- The frame pipeline ran at the last frame boundary; no frame is due while a transition keeps rendering still (R359). -/
def Chip.rendering (c : Chip) : Bool := c.time.silent || c.hawk.boundaryDone == c.frame + 1

/-- A HEARTBEAT's fields, with a loss report or without (R359). -/
def Chip.heartbeat (c : Chip) (l : Option Loss) : List Nat :=
  let f := (if c.rendering then 1 else 0) + (if l.isSome then 2 else 0)
  let r := l.getD { lost := 0, switch := 0, effective := 0 }
  [c.me, c.num Obj.chainState, f, r.lost, c.num Obj.chainViewSeq, c.chain.view.epoch, r.switch, r.effective]

/-- SWITCH and EFFECTIVE of a loss detected now (R361). -/
def Chip.lossTimes (c : Chip) : Nat × Nat :=
  let tl := max 30000 (c.chain.view.allWeights * 180 + 8000)
  let sw := c.time.stc + (tl * c.fs + 999999999) / 1000000000 + 1
  (sw, (sw + c.bsize - 1) / c.bsize * c.bsize)

/-- The neighbour out of a port is declared lost: the report leaves by the other port at once (R360, R361). -/
def declareLost (p : Nat) (c : Chip) : Chip :=
  match c.neighbourOf p with
  | none => c
  | some n =>
    if !(c.isMember || c.isQuarantined) || c.chain.losses.any (fun l => l.lost == n) then c
    else
      let t := c.lossTimes
      let l : Loss := { lost := n, switch := t.1, effective := t.2, mine := true }
      let c := modPort p (fun x => { x with declared := true }) (modChain (fun h => { h with losses := h.losses ++ [l] }) c)
      relay p 0 5 0 (c.heartbeat (some l)) c

end Sys2Proof.Machine
end

