-- ==== Sys2Proof/Machine/Lath.lean ====
section
/-!
DEFINITION. Lath: codewords and replay, time transfer, and the states of ports and lanes (R324 to R351, R359).
-/

namespace Sys2Proof.Machine

/-! ### Leaving UP (R344 to R348, R358, R360) -/

/-- The lanes of a port. -/
def portLanes (p : Nat) : List Nat := (upTo 4).map (fun i => 4 * p + i)

/-- A lane's state; a retired one stays RETIRED. -/
def setLane (l st : Nat) (c : Chip) : Chip :=
  setNum (Obj.lathLaneState l) (if c.flag (Obj.lathLaneRetired l) then 3 else st) c

/-- A port's link is gone: nothing of it is kept, and the membership learns of it (R344, R347, R357, R360). -/
def portLeft (p : Nat) (c : Chip) : Chip :=
  let c := setNum (Obj.lathPortWidth p) 0 (setNum (Obj.lathPortAdmit p) 0 c)
  let c := forEach (portLanes p) (fun l c => setLane l 0 c) c
  let c := modPort p (fun x => { x with part := [], openMsgs := [], spent := [], peer := none, delayAsked := none, delays := [],
                                         nak := false, resends := 0, replays := [], retrains := [] }) c
  let c := declareLost p c
  if c.num Obj.chainState = 1 ∧ !c.isUp (1 - p) ∧ c.portState (1 - p) ≠ portRetrain then
    modChain (fun h => { h with censusOn := false, computed := none, nextView := none }) (setNum Obj.chainState 0 c)
  else c

/-- A port is retired (R344): PORT_RETIRED. -/
def retirePort (p : Nat) (c : Chip) : Chip :=
  portLeft p (snag 0x0202 p 0xFF (setNum (Obj.lathPortRetired p) 1 (setPortState p portRetired c)))

/-- A port goes to RETRAIN: the third time in 10 s without reaching UP retires it (R344). Entry 74, DEDUCED. -/
def retrain (p cause : Nat) (c : Chip) : Chip :=
  let st := c.portState p
  if st = portUp ∨ st = portRetrain then
    let c := when_ (st == portUp && cause != 0) (setNum (Obj.lathPortCause p) cause) (bump (Obj.lathPortRetrains p) c)
    let times := c.now :: (c.port p).retrains.filter (fun t => decide (c.now < t + 10000000000))
    let c := setPortState p portRetrain (modPort p (fun x => { x with retrains := times, replays := [], resends := 0 }) c)
    if 3 ≤ times.length then retirePort p c else c
  else c

/-- A failure of a lane is counted; the third in 10 s retires it (R346). -/
def countLane (l : Nat) (c : Chip) : Chip :=
  let times := c.now :: (tget {} c.chain.lanes l).failures.filter (fun t => decide (c.now < t + 10000000000))
  let c := bump (Obj.lathLaneFailures l) (modChain (fun h => { h with lanes := tmod {} h.lanes l (fun x => { x with failures := times }) }) c)
  if 3 ≤ times.length ∧ !c.flag (Obj.lathLaneRetired l) then
    snag 0x0201 l 0xFF (setNum (Obj.lathLaneState l) 3 (setNum (Obj.lathLaneRetired l) 1 c))
  else c

/-- LANE_FAILURE: CDR lock, marker lock or too many corrected symbols (R344, R346). -/
def laneFailure (p l : Nat) (c : Chip) : Chip := retrain p 2 (countLane (4 * p + l) c)

/-- LANE_FAILURE. -/
def execLaneFailure (port : Fin 2) (lane : Fin 4) (s : State) : Host.Outcome State Fault Refusal :=
  s.onChip (fun c => let st := c.portState port.val
    when_ (st == portUp || st == portRetrain) (laneFailure port.val lane.val) c)

/-! ### Codewords (R324, R327 to R329, R331, R337, R348) -/

/-- CRC-16 with polynomial 0x1021 and initial value 0xFFFF, the most significant bit first (R327). Entry 27, PRESUMED. -/
def crc16 (bs : List Byte) : Nat :=
  bs.foldl (fun crc b =>
    (upTo 8).foldl (fun crc _ => if 0x8000 ≤ crc then (2 * crc % 65536) ^^^ 0x1021 else 2 * crc) (crc ^^^ (b.toNat * 256))) 0xFFFF

/-- The fields of a flit header (R327). -/
def flitClass (f : List Byte) : Nat := bits (field f 0 8) 63 61
def flitSlots (f : List Byte) : Nat := bits (field f 0 8) 60 58 + 1
def flitFirst (f : List Byte) : Bool := bit (field f 0 8) 57
def flitLast (f : List Byte) : Bool := bit (field f 0 8) 56
def flitSrc (f : List Byte) : Nat := bits (field f 0 8) 55 48
def flitDst (f : List Byte) : Nat := bits (field f 0 8) 47 40
def flitHops (f : List Byte) : Nat := bits (field f 0 8) 39 33
def flitType (f : List Byte) : Nat := bits (field f 0 8) 32 28
def flitMsg (f : List Byte) : Nat := bits (field f 0 8) 27 16

/-- The CRC over bits 63:16 of the header and the payload. Entry 27, PRESUMED. -/
def flitCrcOk (f : List Byte) : Bool := field f 0 2 == crc16 (f.drop 2)

/-- The flits of a codeword's slots, after what the last one left open: complete flits and what stays open (R327).
Entry 74, DEDUCED. -/
def takeFlits : List (List Byte) → List Byte → List (List Byte) × List Byte
  | [], part => ([], part)
  | s :: rest, part =>
    if part.isEmpty && flitClass s == 7 then takeFlits rest []
    else
      let f := part ++ s
      if f.length < 32 * flitSlots f then takeFlits rest f
      else let r := takeFlits rest []; (f :: r.1, r.2)

/-- The slots of a codeword. -/
def slotsOf : Nat → List Byte → List (List Byte)
  | 0, _ => []
  | n + 1, bs => slice bs 0 32 :: slotsOf n (bs.drop 32)

/-- A resend from ACK + 1; too many of them send the port to RETRAIN (R337, R344). -/
def replay (p : Nat) (c : Chip) : Chip :=
  let x := c.port p
  let times := (c.now :: x.replays.filter (fun t => decide (c.now < t + 1000000))).take 64
  let c := modPort p (fun x => { x with replays := times, resends := x.resends + 1 })
    (emit (.resend p ((x.ack + 1) % 256)) (bump (Obj.lathPortReplays p) c))
  if 32 < times.length ∨ 8 ≤ x.resends + 1 then retrain p 1 c else c

/-- A flit that is lost once: NAK is set, once for a gap (R337). -/
def setNak (p : Nat) (c : Chip) : Chip := modPort p (fun x => { x with nak := true }) c

/-- A complete flit for this chip joins its message; a whole message is handed over (R328). -/
def reassemble (p : Nat) (f : List Byte) (c : Chip) : Chip :=
  let cls := flitClass f
  let done (src : Nat) (type : Nat) (data : List Byte) (c : Chip) : Chip :=
    emit (.message p cls type src (field data 4 4) ((data.drop 8).take (field data 0 4))) c
  if cls = 0 then emit (.message p 0 (flitType f) (flitSrc f) 0 (f.drop 8)) c
  else
    let open_ := tget none (c.port p).openMsgs cls
    let put (m : Option OpenMsg) (c : Chip) : Chip := modPort p (fun x => { x with openMsgs := tset none x.openMsgs cls m }) c
    if flitFirst f then
      let c := when_ open_.isSome (bump (Obj.lathPortDiscards p)) c
      if flitLast f then done (flitSrc f) (flitType f) (f.drop 8) (put none c)
      else put (some { type := flitType f, msg := flitMsg f, src := flitSrc f, data := f.drop 8 }) c
    else match open_ with
      | some m =>
        if m.type = flitType f ∧ m.msg = flitMsg f then
          let m := { m with data := m.data ++ f.drop 8 }
          if flitLast f then done m.src m.type m.data (put none c) else put (some m) c
        else bump (Obj.lathPortDiscards p) c
      | none => bump (Obj.lathPortDiscards p) c

/-- A flit with a new hop count and its CRC. -/
def withHops (f : List Byte) (hops : Nat) : List Byte :=
  let h := field f 0 8
  let b := leBytes 8 (h - flitHops f * 2 ^ 33 + hops * 2 ^ 33) ++ f.drop 8
  leBytes 2 (crc16 (b.drop 2)) ++ b.drop 2

/-- Forward a flit out of the other port, spending its credits (R329, R331). -/
def transit (p : Nat) (f : List Byte) (hops : Nat) (c : Chip) : Chip :=
  if c.isUp (1 - p) then
    modPort (1 - p) (fun x => { x with spent := tmod 0 x.spent (flitClass f) (· + flitSlots f) }) (emit (.flit (1 - p) (withHops f hops)) c)
  else c

/-- A flit is routed: delivered, forwarded, both for a broadcast, or dropped (R329, R348). Entry 74, DEDUCED. -/
def takeFlit (p : Nat) (rpl : Bool) (f : List Byte) (c : Chip) : Chip :=
  let cls := flitClass f
  if cls = 6 ∨ (cls = 0 ∧ rpl ∧ flitType f < 3) then c
  else if 1 ≤ cls ∧ cls ≤ 4 ∧ !c.flag (Obj.lathPortAdmit p) then bump (Obj.lathPortDiscards p) c
  else
    let dst := flitDst f
    let hops := flitHops f - 1
    if dst = 0xFE ∨ dst = c.me then reassemble p f c
    else if dst = 0xFF then
      let c := reassemble p f c
      if 0 < hops then transit p f hops c else c
    else if 0 < hops then transit p f hops c
    else bump (Obj.lathPortMisroutes p) c

/-- Corrected symbols of the lanes are counted; more than 8,192 in 1 ms is a failure (R346). -/
def countCorrected (p : Nat) (ns : List (BitVec 16)) (c : Chip) : Chip :=
  forEach ns.zipIdx (fun x c =>
    let l := 4 * p + x.2 % 4
    let s := tget {} c.chain.lanes l
    let s := if s.windowAt + 1000000 ≤ c.now then { s with windowAt := c.now, corrected := x.1.toNat }
      else { s with corrected := s.corrected + x.1.toNat }
    let excess := decide (8192 < s.corrected)
    let s := if excess then { s with corrected := 0 } else s
    let c := bumpBy (Obj.lathLaneCorrected l) x.1.toNat (modChain (fun h => { h with lanes := tset {} h.lanes l s }) c)
    when_ excess (laneFailure p (x.2 % 4)) c) c

/-- A codeword arrives. -/
def takeCodeword (p : Nat) (cw : Codeword) (c : Chip) : Chip :=
  let c := countCorrected p cw.corrected c
  if cw.uncorrectable then setNak p (bump (Obj.lathPortUncorrectable p) c)
  else
    let x := c.port p
    let c := if cw.ack.toNat = x.ack then c else modPort p (fun x => { x with ack := cw.ack.toNat, resends := 0 }) c
    let c := when_ cw.nak (replay p) c
    let ahead := (cw.seq.toNat + 256 - x.expect) % 256
    if ahead ≠ 0 then when_ (decide (ahead < 128)) (setNak p) c
    else
      let r := takeFlits (slotsOf 20 cw.slots) x.part
      if !r.1.all flitCrcOk then setNak p (bump (Obj.lathPortUncorrectable p) c)
      else
        let c := modPort p (fun x => { x with expect := (x.expect + 1) % 256, nak := false, part := r.2 }) c
        let c := forEach r.1 (takeFlit p cw.rpl) c
        let freed := (upTo 6).map (fun k => if k = 0 then 0 else ((r.1.filter (fun f => flitClass f == k)).map flitSlots).sum)
        when_ (freed.any (· != 0)) (sendPort p 0 4 0 freed) c

/-- CODEWORD: received while the port is in ALIGN, UP or RETRAIN. -/
def execCodeword (port : Fin 2) (cw : Codeword) (s : State) : Host.Outcome State Fault Refusal :=
  s.onChip (fun c => let st := c.portState port.val
    when_ (st == portAlign || st == portUp || st == portRetrain) (takeCodeword port.val cw) c)

/-- REPLAY_TIMEOUT: codewords are unacknowledged and ACK has not advanced for 2 µs (R337). -/
def execReplayTimeout (port : Fin 2) (s : State) : Host.Outcome State Fault Refusal :=
  s.onChip (fun c => when_ (c.isUp port.val) (replay port.val) c)

/-- CREDIT: the peer returns slot credits for each class (R331). -/
def execLathCredit (port : Fin 2) (counts : List (BitVec 16)) (s : State) : Host.Outcome State Fault Refusal :=
  s.onChip (fun c => forEach counts.zipIdx (fun x c =>
    when_ (decide (0 < x.2) && decide (x.2 < 6)) (modPort port.val (fun y => { y with spent := tmod 0 y.spent x.2 (· - x.1.toNat) })) c) c)

/-! ### Time transfer (R341 to R343) -/

/-- Is this chip the time master, or its own (R365, R445)? -/
def Chip.isMaster (c : Chip) : Bool := c.num Obj.chainTimeMaster == c.me && c.me != 0xFF

/-- The mean link delay of a port, 1/65,536 ns. -/
def Port.delay (x : Port) : Nat := if x.delays.isEmpty then 0 else x.delays.sum / x.delays.length

/-- Its hop weight follows width and delay (R340). -/
def updateWeight (p : Nat) (c : Chip) : Chip :=
  let w := c.num (Obj.lathPortWidth p)
  setNum (Obj.lathPortHopWeight p) (if w = 0 then 0 else hopWeight w ((c.port p).delay * 1000 / 65536)) c

/-- The delay toward a port with its asymmetry, 1/65,536 ns (R341). -/
def Chip.delayToward (c : Chip) (p : Nat) : Int :=
  ((c.port p).delay : Int) + Int.fdiv (c.snum 16 (Obj.lathPortAsymPs p) * 65536) 1000

/-- SYNC: relayed with its correction, and given to Plumb with the offset measured on receipt (R343, R454).  Fields:
ORIGIN_NS, ORIGIN_FRAC, SEQ, CORRECTION, CLOCK_CLASS, STEPS. -/
def execLathSync (port : Fin 2) (fields : List Nat) (residence : BitVec 64) (offsetPs : BitVec 32) (s : State) :
    Host.Outcome State Fault Refusal :=
  s.onChip (fun c =>
    let p := port.val
    if !c.isUp p || c.isMaster then c
    else
      let g (i : Nat) : Nat := fields.getD i 0
      let corr := ofInt 64 (toSigned 64 (g 3) + c.delayToward p + residence.toNat)
      let c := relay p 0 0 0 [g 0, g 1, g 2, corr, g 4, (g 5 + 1) % 256] c
      if c.refState ≠ refChain then c
      else
        let c := setInt Obj.plumbMasterOffsetPs offsetPs.toInt c
        let c := modChain (fun h => { h with recs := h.recs.map (fun x => if x.1.serial = h.view.master then ({ x.1 with cls := g 4 }, x.2) else x) }) c
        let c := modTime (fun t => { t with syncAt := c.now }) c
        if c.time.chainHoldover then
          let c := modTime (fun t => { t with chainHoldover := false }) c
          if offsetPs.toInt.natAbs ≤ 1000000 then c else modChain (fun h => { h with recheck := true }) c
        else c)

/-- SYNC_TIMER: every 8 µs the time master sends a SYNC out of each port (R343). -/
def execSyncTimer (ns : BitVec 64) (frac : BitVec 16) (s : State) : Host.Outcome State Fault Refusal :=
  s.onChip (fun c => when_ c.isMaster (fun c =>
    let c := sendUp 0 0 0 [ns.toNat, frac.toNat, c.chain.syncSeq, 0, c.num Obj.chainClockClass, 1] c
    modChain (fun h => { h with syncSeq := (h.syncSeq + 1) % 65536 }) c) c)

/-- PDELAY_TIMER: every 64 µs a port measures its link (R341). -/
def execPdelayTimer (port : Fin 2) (t1 : BitVec 64) (s : State) : Host.Outcome State Fault Refusal :=
  s.onChip (fun c => when_ (c.isUp port.val) (fun c =>
    let n := (c.port port.val).delaySeq
    modPort port.val (fun x => { x with delaySeq := (n + 1) % 65536, delayAsked := some (n, t1.toNat) }) (sendPort port.val 0 1 0 [n] c)) c)

/-- PDELAY_REQ: answered with t₂ and t₃ (R341). -/
def execPdelayReq (port : Fin 2) (seq : BitVec 16) (t2 t3 : BitVec 64) (s : State) : Host.Outcome State Fault Refusal :=
  s.onChip (fun c => when_ (c.isUp port.val) (sendPort port.val 0 2 0 [seq.toNat, t2.toNat, t3.toNat]) c)

/-- PDELAY_RESP: one measurement, and the mean of the last 16 (R341). -/
def execPdelayResp (port : Fin 2) (seq : BitVec 16) (t2 t3 t4 : BitVec 64) (s : State) : Host.Outcome State Fault Refusal :=
  s.onChip (fun c =>
    let p := port.val
    match (c.port p).delayAsked with
    | some (n, t1) =>
      if n = seq.toNat then
        let d := (((t4.toNat : Int) - t1) - ((t3.toNat : Int) - t2.toNat)) / 2
        let c := modPort p (fun x => { x with delayAsked := none, delays := (d.toNat :: x.delays).take 16 }) c
        updateWeight p (setNum (Obj.lathPortLinkDelayPs p) ((c.port p).delay * 1000 / 65536) c)
      else c
    | none => c)

/-! ### Port states (R344 to R347) -/

/-- A rule that needs A on the Lath target (R351). -/
def lathAct (f : Chip → Chip) : Act :=
  actWhen (fun m c => if c.may 0x18 0 m 3 then St.ok else St.noAccess) (fun _ c => f c)

/-- The rule of Lath.Port.Enable. Entry 74, DEDUCED. -/
def portEnableAct (p v : Nat) : Act := lathAct (fun c =>
  let st := c.portState p
  if v = 1 then
    let c := setNum (Obj.lathPortEnable p) 1 c
    when_ (st == portDisabled) (setPortState p (if c.flag (Obj.lathPortRetired p) then portRetired else portDetect)) c
  else when_ (st != portDisabled) (portLeft p) (setPortState p portDisabled (setNum (Obj.lathPortEnable p) 0 c)))

/-- PORT_ENABLE: DISABLED to DETECT; a retired port stays retired. -/
def execPortEnable (r : Req) (port : Fin 2) (s : State) : Host.Outcome State Fault Refusal :=
  serveRow r (Obj.lathPortEnable port.val) [1] (portEnableAct port.val 1) s

/-- PORT_DISABLE: the transmitter is squelched. -/
def execPortDisable (r : Req) (port : Fin 2) (s : State) : Host.Outcome State Fault Refusal :=
  serveRow r (Obj.lathPortEnable port.val) [0] (portEnableAct port.val 0) s

/-- SIGNAL_DETECTED: signal on a lane. -/
def execSignalDetected (port : Fin 2) (s : State) : Host.Outcome State Fault Refusal :=
  s.onChip (fun c => when_ (c.portState port.val == portDetect) (setPortState port.val portTrain) c)

/-- TRAIN_TIMEOUT: no lane has locked within 10 ms; a failed training. -/
def execTrainTimeout (port : Fin 2) (s : State) : Host.Outcome State Fault Refusal :=
  s.onChip (fun c => when_ (c.portState port.val == portTrain) (fun c =>
    modPort port.val (fun x => { x with failedTrainings := x.failedTrainings + 1 }) (setPortState port.val portDetect c)) c)

/-- The width that a number of locked lanes gives: 4, 2 or 1. -/
def widthFor (n : Nat) : Nat := if 4 ≤ n then 4 else if 2 ≤ n then 2 else n

/-- Lanes that have locked: the lowest-numbered are used and the rest are SPARE (R344). -/
def bondLanes (p : Nat) (mask : Nat) (c : Chip) : Chip :=
  let locked := (portLanes p).filter (fun l => bit mask (l - 4 * p) && !c.flag (Obj.lathLaneRetired l))
  let w := widthFor locked.length
  let c := forEach (portLanes p) (fun l c => setLane l (if (locked.take w).contains l then 1 else if locked.contains l then 2 else 0) c) c
  updateWeight p (setNum (Obj.lathPortWidth p) w c)

/-- Lanes of a mask that are not retired. -/
def Chip.usable (c : Chip) (p mask : Nat) : Nat :=
  ((portLanes p).filter (fun l => bit mask (l - 4 * p) && !c.flag (Obj.lathLaneRetired l))).length

/-- LANES_LOCK: TRAIN to ALIGN. -/
def execLanesLock (port : Fin 2) (lanes : BitVec 4) (s : State) : Host.Outcome State Fault Refusal :=
  s.onChip (fun c => when_ (c.portState port.val == portTrain && decide (0 < c.usable port.val lanes.toNat))
    (fun c => setPortState port.val portAlign (bondLanes port.val lanes.toNat
      (modPort port.val (fun x => { x with expect := 0, ack := 255, peer := none }) c))) c)

/-- HELLO: the peer's role, version, width and serial; another serial while UP is another peer (R342, R344, R353). -/
def execLathHello (port : Fin 2) (role version width : Byte) (serial : List Byte) (s : State) : Host.Outcome State Fault Refusal :=
  s.onChip (fun c =>
    let p := port.val
    let st := c.portState p
    let h : Hello := { role := role.toNat, version := version.toNat, width := width.toNat, serial := slice serial 0 16 }
    if st = portAlign ∨ st = portUp then
      let changed := st == portUp && (c.port p).peer.any (fun x => x.serial != h.serial)
      let c := setBlob (Obj.lathPortPeerSerial p) h.serial (modPort p (fun x => { x with peer := some h }) c)
      if changed then startCensus (retrain p 3 (setNum (Obj.lathPortAdmit p) 0 c)) else c
    else c)

/-- ALIGN_LOCK: markers, deskew and RS have locked, and HELLO decides between UP and MISWIRED (R344, R353). -/
def execAlignLock (port : Fin 2) (s : State) : Host.Outcome State Fault Refusal :=
  s.onChip (fun c =>
    let p := port.val
    match c.portState p == portAlign, (c.port p).peer with
    | true, some h =>
      if h.version ≠ 1 then setNum (Obj.lathPortCause p) 5 (setPortState p portMiswired c)
      else if h.role = p then setNum (Obj.lathPortCause p) 4 (setPortState p portMiswired c)
      else
        let c := setPortState p portUp (setNum (Obj.lathPortAdmit p) 0 c)
        startCensus (modPort p (fun x => { x with retrains := [], heard := c.now, idleBeats := 0 }) c)
    | _, _ => c)

/-- RETRAIN_LOCK: back to UP on the same lanes or fewer; lanes that did not lock count a failure (R344, R346).
Entry 74, DEDUCED. -/
def execRetrainLock (port : Fin 2) (lanes : BitVec 4) (s : State) : Host.Outcome State Fault Refusal :=
  s.onChip (fun c =>
    let p := port.val
    if c.portState p = portRetrain ∧ 0 < c.usable p lanes.toNat then
      let lost := (portLanes p).filter (fun l => c.num (Obj.lathLaneState l) == 1 && !bit lanes.toNat (l - 4 * p))
      let c := bondLanes p lanes.toNat (forEach lost countLane c)
      let c := setPortState p portUp (modPort p (fun x => { x with retrains := [], heard := c.now, idleBeats := 0 }) c)
      emit (.resend p (((c.port p).ack + 1) % 256)) c
    else c)

/-- SIGNAL_LOST: no signal on any lane; the port goes DOWN, is reported, and detects again (R344, R347). Entry 74, DEDUCED. -/
def execSignalLost (port : Fin 2) (s : State) : Host.Outcome State Fault Refusal :=
  s.onChip (fun c =>
    let p := port.val
    let st := c.portState p
    if st = portUp ∨ st = portRetrain ∨ st = portMiswired then
      setPortState p portDetect (portLeft p (setNum (Obj.lathPortCause p) 6 (setPortState p portDown c)))
    else c)

/-- The rule of Lath.Port.Reset. -/
def portResetAct (p : Nat) : Act := lathAct (retrain p 0)

/-- PORT_RESET: Lath.Port.Reset 1 retrains the port now (R351). -/
def execPortReset (r : Req) (port : Fin 2) (s : State) : Host.Outcome State Fault Refusal :=
  serveRow r (Obj.lathPortReset port.val) [1] (portResetAct port.val) s

/-- The rule of Lath.Port.Retired: only 0 does something. -/
def portReinstateAct (p v : Nat) : Act := lathAct (fun c =>
  if v = 0 then when_ (c.portState p == portRetired) (setPortState p portDetect) (setNum (Obj.lathPortRetired p) 0 c) else c)

/-- PORT_REINSTATE: Lath.Port.Retired written 0 (R344). -/
def execPortReinstate (r : Req) (port : Fin 2) (s : State) : Host.Outcome State Fault Refusal :=
  serveRow r (Obj.lathPortRetired port.val) [0] (portReinstateAct port.val 0) s

/-- The rule of Lath.Lane.Retired: only 0 does something. -/
def laneReinstateAct (l v : Nat) : Act := lathAct (fun c =>
  if v = 0 ∧ c.flag (Obj.lathLaneRetired l) then
    modChain (fun h => { h with lanes := tmod {} h.lanes l (fun x => { x with failures := [] }) })
      (setNum (Obj.lathLaneState l) 0 (setNum (Obj.lathLaneRetired l) 0 c))
  else c)

/-- LANE_REINSTATE: Lath.Lane.Retired written 0; the port uses the lane from its next RETRAIN (R346). -/
def execLaneReinstate (r : Req) (lane : Fin 8) (s : State) : Host.Outcome State Fault Refusal :=
  serveRow r (Obj.lathLaneRetired lane.val) [0] (laneReinstateAct lane.val 0) s

/-- HELLO_TIMER: every 1 µs in ALIGN and every 100 µs in UP (R344). -/
def execHelloTimer (port : Fin 2) (s : State) : Host.Outcome State Fault Refusal :=
  s.onChip (fun c => let st := c.portState port.val
    when_ (st == portAlign || st == portUp)
      (sendPort port.val 0 3 0 ([port.val, 1, c.num (Obj.lathPortWidth port.val)] ++ Config.serial.map BitVec.toNat)) c)

/-! ### Heartbeats (R359 to R361) -/

/-- HEARTBEAT_TIMER: every 100 µs out of each port in UP, with this chip's loss report until EFFECTIVE (R359, R361). -/
def execHeartbeatTimer (s : State) : Host.Outcome State Fault Refusal :=
  s.onChip (fun c =>
    match c.chain.losses.filter (fun l => l.mine) with
    | [] => sendUp 0 5 0 (c.heartbeat none) c
    | ls => forEach ls (fun l c => sendUp 0 5 0 (c.heartbeat (some l)) c) c)

/-- A loss report of another member: taken once, and relayed at once (R361). -/
def takeLoss (p : Nat) (f : List Nat) (c : Chip) : Chip :=
  let g (i : Nat) : Nat := f.getD i 0
  if !(c.isMember || c.isQuarantined) || !inView c (g 3) || c.chain.losses.any (fun l => l.lost == g 3) then c
  else
    relay p 0 5 0 f (modChain (fun h => { h with losses := h.losses ++ [{ lost := g 3, switch := g 6, effective := g 7 }] }) c)

/-- HEARTBEAT (R359 to R361). -/
def execHeartbeat (port : Fin 2) (fields : List Nat) (s : State) : Host.Outcome State Fault Refusal :=
  s.onChip (fun c =>
    let p := port.val
    if !c.isUp p then c
    else
      let flags := fields.getD 2 0
      let own := c.neighbourOf p == some (fields.headD 0)
      let c := if own then modPort p (fun x => { x with heard := c.now, idleBeats := if bit flags 0 then 0 else x.idleBeats + 1 }) c else c
      let c := when_ (bit flags 1) (takeLoss p fields) c
      when_ (own && decide (3 ≤ (c.port p).idleBeats)) (declareLost p) c)

/-- HEARTBEAT_MISS: none has come for HeartbeatMiss periods (R360). -/
def execHeartbeatMiss (port : Fin 2) (s : State) : Host.Outcome State Fault Refusal :=
  s.onChip (fun c => when_ (decide ((c.port port.val).heard + c.num Obj.chainHeartbeatMiss * 100000 ≤ c.now)) (declareLost port.val) c)

end Sys2Proof.Machine
end

