-- ==== Sys2Proof/Machine/View.lean ====
section
/-!
DEFINITION. The view of a chain: census, votes and their application, quarantine, roles, homes and mirror holders, and the
loss of a member (R45, R352 to R372, R378, R379).
-/

namespace Sys2Proof.Machine

/-! ### The view that a census gives (R353 to R356, R364, R365, R378) -/

/-- The chips of a census in canonical order; `own` is this chip's record (R353, R354). -/
def canonical (own : CensusRec) (recs : List (CensusRec × Nat)) (ring : Bool) : List CensusRec :=
  let side (p : Nat) : List CensusRec :=
    ((recs.filter (fun x => x.2 == p)).map Prod.fst).sortBy (fun a b => decide (a.hops ≤ b.hops))
  if ring then
    let l := own :: side 0 ++ (side 1).reverse
    let low := l.foldl (fun m r => min m r.serial) own.serial
    match findFrom (fun r => r.serial == low) 0 l with
    | some (i, _) => l.drop i ++ l.take i
    | none => l
  else (side 1).reverse ++ own :: side 0

/-- The group of a record: its anchor, or itself alone (R355). -/
def CensusRec.group (r : CensusRec) : Nat × Nat := if r.anchor = 0 then (0, r.serial) else (r.anchor, 0)

/-- The senior group: the most members, then the lower serial of its anchor (R355). Entry 76, DEDUCED. -/
def seniorGroup (l : List CensusRec) : Nat × Nat :=
  let key (r : CensusRec) : Nat := r.anchor + (if r.anchor = 0 then r.serial else 0)
  ((bestBy (fun a b => decide (b.members < a.members) || (a.members == b.members && decide (key a < key b))) l).map CensusRec.group).getD (0, 0)

/-- The chip that keeps a number which several claim: of the senior group first, then the lower serial (R354). -/
def claimWins (senior : CensusRec → Bool) (a b : CensusRec) : Bool :=
  if senior a != senior b then senior a else decide (a.serial < b.serial)

/-- Numbers by serial, in the three passes of R354. -/
def assignNumbers (senior : CensusRec → Bool) (l : List CensusRec) : List (Nat × Nat) :=
  let pass1 := l.filterMap (fun r =>
    if r.last < 128 ∧ !l.any (fun x => x.last == r.last && x.serial != r.serial && claimWins senior x r) then some (r.serial, r.last) else none)
  let taken1 := pass1.map Prod.snd
  let left := l.filter (fun r => !(pass1.map Prod.fst).contains r.serial)
  let pass2 := left.filterMap (fun r =>
    if r.preferred < 128 ∧ !taken1.contains r.preferred ∧
        !left.any (fun x => x.preferred == r.preferred && decide (x.serial < r.serial)) then some (r.serial, r.preferred) else none)
  (left.filter (fun r => !(pass2.map Prod.fst).contains r.serial)).foldl (fun acc r =>
    let used := acc.map Prod.snd
    match (upTo 128).find? (fun n => !used.contains n) with
    | some n => acc ++ [(r.serial, n)]
    | none => acc) (pass1 ++ pass2)

/-- The lowest clock class, then the lowest number (R365). Entry 76, DEDUCED. -/
def electFrom (l : List (CensusRec × Nat)) : Option (CensusRec × Nat) :=
  bestBy (fun a b => decide (a.1.cls < b.1.cls) || (a.1.cls == b.1.cls && decide (a.2 < b.2))) l

/-- The cut of a ring: the heaviest link, then the highest number (R364). -/
def chooseCut (es : List ViewEntry) : Nat :=
  ((bestBy (fun a b => decide (b.weight < a.weight) || (a.weight == b.weight && decide (b.number < a.number))) es).map
    (fun e => e.number)).getD 0xFF

/-- The view of a census (R353 to R356, R364, R365). Entry 76, DEDUCED. -/
def viewOf (own : CensusRec) (recs : List (CensusRec × Nat)) (ring : Bool) : View :=
  let all := canonical own recs ring
  let inc := all.take 128
  let sg := seniorGroup all
  let senior (r : CensusRec) : Bool := r.group == sg
  let nums := assignNumbers senior inc
  let number (r : CensusRec) : Nat := ((nums.find? (fun x => x.1 == r.serial)).map Prod.snd).getD 0xFF
  let numbered := inc.map (fun r => (r, number r))
  let master := ((electFrom (numbered.filter (fun x => senior x.1))).map (fun x => x.1)).getD own
  let anchorRec := if sg.1 = 0 then master else ((inc.find? (fun r => r.serial == sg.1)).getD master)
  let cause (r : CensusRec) : Nat :=
    (if r.hash ≠ anchorRec.hash then 1 else 0) + (if anchorRec.lowest ≤ r.level ∧ r.lowest ≤ anchorRec.level then 0 else 2) +
    (if senior r then 0 else 4) + (if bit r.flags 0 then 8 else 0)
  let es := numbered.map (fun x =>
    ({ serial := x.1.serial, number := x.2, state := if cause x.1 = 0 then 2 else 3, cause := cause x.1, weight := 1 } : ViewEntry))
  let excess := (all.drop 128).map (fun r => ({ serial := r.serial, number := 0xFF, state := 4, cause := 16, weight := 1 } : ViewEntry))
  { entries := es ++ excess, ring := ring, cut := if ring then chooseCut es else 0xFF, anchor := anchorRec.serial,
    master := master.serial, epoch := anchorRec.epoch, hash := anchorRec.hash }

/-- An entry's 24 octets (R383). -/
def ViewEntry.bytes (e : ViewEntry) : List Byte :=
  serialBytes e.serial ++ leBytes 1 e.number ++ leBytes 1 e.state ++ leBytes 1 e.cause ++ leBytes 1 e.weight ++ zeros 4

/-- The 128 entries of a view as octets (R383, R384). -/
def View.bytes (v : View) : List Byte := slice ((v.entries.take 128).map ViewEntry.bytes).flatten 0 3072

/-- The view hash: the first 64 bits of SHA-384 over the entries (R353). -/
def View.digest (v : View) : Nat := Config.sha384 v.bytes

/-! ### Census messages (R352, R353, R383) -/

/-- CENSUS: a new record is kept and relayed; a chip that has not sent its own for 10 ms joins the census. -/
def execChainCensus (port : Fin 2) (fields : List Nat) (s : State) : Host.Outcome State Fault Refusal :=
  s.onChip (fun c =>
    let p := port.val
    let r := CensusRec.ofFields fields
    if !c.isUp p then c
    else if r.serial = mySerial then modChain (fun h => { h with ring := some r.hops }) c
    else if c.chain.relayed.contains (r.serial, r.seq) then c
    else
      let join := match c.chain.sentAt with | some t => decide (t + 10000000 ≤ c.now) | none => true
      let c := when_ join startCensus c
      let c := modChain (fun h => { h with relayed := ((r.serial, r.seq) :: h.relayed).take 1024, newAt := c.now,
                                           recs := h.recs.filter (fun x => x.1.serial != r.serial) ++ [(r, p)] }) c
      relay p 5 1 0 { r with hops := (r.hops + 1) % 256 }.fields c)

/-- The fields of VIEW_APPLY: hash, apply tick, anchor and master SERIALs, cut, epoch, config hash, whether it is a ring, and
the entries (R383; entry 13, DESIGN CHOICE). -/
def View.fields (v : View) (tick : Nat) : List Nat :=
  [v.digest, tick, v.anchor, v.master, v.cut, v.epoch, v.hash, if v.ring then 1 else 0] ++
    (v.entries.map (fun e => [e.serial, e.number, e.state, e.cause, e.weight])).flatten

/-- Entries out of their fields. -/
def viewEntries : List Nat → List ViewEntry
  | a :: b :: st :: cs :: w :: rest => { serial := a, number := b, state := st, cause := cs, weight := w } :: viewEntries rest
  | _ => []

/-- A view out of VIEW_APPLY's fields. -/
def View.ofFields (f : List Nat) : View :=
  let g (i : Nat) : Nat := f.getD i 0
  { entries := viewEntries (f.drop 8), ring := g 7 == 1, cut := g 4, anchor := g 2, master := g 3, epoch := g 5, hash := g 6 }

/-- The apply boundary: a multiple of 64 samples and a frame boundary, at least 10 ms ahead (R353). -/
def Chip.applyTick (c : Chip) (ms : Nat) : Nat := (c.time.stc + c.msTicks ms + 63) / 64 * 64

/-- The master of the computed view sends VIEW_APPLY once every chip's vote matches (R353). -/
def tryApply (c : Chip) : Chip :=
  match c.chain.computed with
  | none => c
  | some v =>
    if v.master = mySerial ∧ c.chain.nextView.isNone ∧
        v.entries.all (fun e => c.chain.votes.any (fun x => x.1 == e.serial && x.2 == v.digest)) then
      let t := c.applyTick 10
      let c := modChain (fun h => { h with nextView := some (v, t), applyRelayed := ((v.digest, t) :: h.applyRelayed).take 16 }) c
      sendUp 5 1 2 (v.fields t) c
    else c

/-- CENSUS_SETTLE: 20 ms without a new record; the view is computed and its vote flooded (R353). -/
def execCensusSettle (s : State) : Host.Outcome State Fault Refusal :=
  s.onChip (fun c =>
    if c.chain.censusOn ∧ c.chain.computed.isNone ∧ c.chain.newAt + 20000000 ≤ c.now then
      let v := viewOf c.ownRecord c.chain.recs c.chain.ring.isSome
      let votes := c.chain.votes
      let c := modChain (fun h => { h with computed := some v, settledAt := c.now, nextView := none,
                                           votes := h.votes.filter (fun x => x.1 != mySerial) ++ [(mySerial, v.digest)] }) c
      if votes.any (fun x => x.2 != v.digest) then startCensus c
      else tryApply (sendUp 5 1 1 [mySerial, c.chain.censusSeq, v.digest] c)
    else c)

/-- VIEW_VOTE: relayed and kept; a vote that differs begins a new census (R353). -/
def execViewVote (port : Fin 2) (fields : List Nat) (s : State) : Host.Outcome State Fault Refusal :=
  s.onChip (fun c =>
    let p := port.val
    let g (i : Nat) : Nat := fields.getD i 0
    if !c.isUp p || g 0 == mySerial || c.chain.voteRelayed.contains (g 0, g 1) then c
    else
      let c := modChain (fun h => { h with voteRelayed := ((g 0, g 1) :: h.voteRelayed).take 1024,
                                           votes := h.votes.filter (fun x => x.1 != g 0) ++ [(g 0, g 2)] }) c
      let c := relay p 5 1 1 fields c
      match c.chain.computed with
      | some v => if g 2 ≠ v.digest then startCensus c else tryApply c
      | none => c)

/-- VIEW_APPLY_TIMEOUT: no VIEW_APPLY within 100 ms of settling (R353). -/
def execViewApplyTimeout (s : State) : Host.Outcome State Fault Refusal :=
  s.onChip (fun c => when_ (c.chain.computed.isSome && c.chain.nextView.isNone && decide (c.chain.settledAt + 100000000 ≤ c.now)) startCensus c)

/-! ### Hops and the presentation delay (R45, R340, R364) -/

/-- The view with this chip's own links at their present weights (R340). Entry 76, DEDUCED. -/
def Chip.weighed (c : Chip) (v : View) : View :=
  match v.placeOf mySerial with
  | none => v
  | some i =>
    let up := c.num (Obj.lathPortHopWeight 0)
    let down := c.num (Obj.lathPortHopWeight 1)
    let below := v.neighbour i 1
    { v with entries := v.entries.zipIdx.map (fun x =>
        if x.2 = i ∧ 0 < up then { x.1 with weight := up }
        else if some x.2 = below ∧ 0 < down then { x.1 with weight := down } else x.1) }

/-- The least presentation delay for H (R45, R252). -/
def presentMin (h fs : Nat) : Nat := (h * 180 * fs + 999999999) / 1000000000 + 1

/-- At a frame boundary: H and the minimum follow the links and the rate; a configured value below it is raised and the
chain contributions come back over 2 ms (R45, R340). -/
def settleHops (c : Chip) : Chip :=
  let c := modChain (fun h => { h with view := c.weighed h.view }) c
  let h := if c.num Obj.chainState < 2 then 0 else c.chain.view.hopTotal
  let m := presentMin h c.fs
  let c := setNum Obj.skimChainPresentMin m (setNum Obj.chainHopTotal h c)
  if c.num Obj.skimChainPresentDelay < m then
    modSkim (fun k => { k with addFades := [⟨c.passNext, c.fs / 500, true⟩] }) (setNum Obj.skimChainPresentDelay m c)
  else c

/-! ### Quarantine (R357, R378, R379) -/

/-- Entry into quarantine: contributions feather out across the next frame, and voices of other homes end (R379). -/
def enterQuarantine (c : Chip) : Chip :=
  let c := bump Obj.chainCountersQuarantines c
  let at_ := (c.frame + 1) * c.bsize
  let c := modSkim (fun k => { k with addFades := [⟨at_, c.bsize, false⟩] }) c
  forEach c.voiceList (fun x c => match x.2.home with
    | some h =>
      if h ≠ c.me then
        endVoice x.1 9 c.time.stc (modVoice x.1 (fun v => { v with home := none }) (reportHome x.2 4 x.2.lead 9 c.time.stc c))
      else c
    | none => c) c

/-- Exit: contributions feather in over 2 ms (R379). -/
def exitQuarantine (c : Chip) : Chip :=
  modSkim (fun k => { k with addFades := [⟨c.time.stc, c.fs / 500, true⟩] }) c

/-- The causes of R378 take a value, and the state follows (R357). -/
def setCauses (cause : Nat) (c : Chip) : Chip :=
  let st := c.num Obj.chainState
  let c := setNum Obj.chainQuarantineCause cause c
  if st = 4 ∨ st < 2 then c
  else if cause ≠ 0 ∧ st = 2 then enterQuarantine (setNum Obj.chainState 3 c)
  else if cause = 0 ∧ st = 3 then exitQuarantine (setNum Obj.chainState 2 c)
  else c

/-- Is the chip's chain time more than 1 µs off (R378)? -/
def Chip.timeOff (c : Chip) : Bool := decide (1000000 < (c.snum 32 Obj.plumbMasterOffsetPs).natAbs)

/-- Every cause checked anew (R378): TIME, once set, clears when the chip has realigned. -/
def Chip.causes (c : Chip) (verdict : Nat) : Nat :=
  let old := c.num Obj.chainQuarantineCause
  (if c.configHash ≠ c.chain.view.hash then 1 else 0) + (if bit verdict 1 then 2 else 0) +
  (if bit old 2 || bit verdict 2 || (c.refState == refChain && c.timeOff) then 4 else 0) +
  (if c.flag Obj.chainQuarantineRequest then 8 else 0) + (if bit verdict 4 then 16 else 0)

/-- The re-check of a quarantined chip at a frame boundary, or after a Resync (R378, R380). -/
def recheckCauses (c : Chip) : Chip :=
  if c.num Obj.chainState = 3 ∨ c.chain.recheck then
    setCauses (c.causes (c.num Obj.chainQuarantineCause)) (modChain (fun h => { h with recheck := false }) c)
  else c

/-- Ask the anchor for the chain-scope values and the rebase point (R380, R460): CONFIG_FETCH is CHAIN_ADMIN 6. -/
def fetchConfig (c : Chip) : Chip :=
  let a := c.num Obj.chainAnchor
  if a = c.me ∨ a = 0xFF then c else sendLath 5 1 a 6 [] c

/-! ### Homes (R366, R367, R371) -/

/-- Is a member's bit set for every template of a layer?  Where no bitmap has come, every member is taken to hold it. -/
def Chip.holdsAll (c : Chip) (img : List Byte) (n : Nat) : Bool :=
  (layerTemplates img).all (fun t =>
    let b := ((c.newest .template t).map (fun v => v.holders)).getD 0
    b == 0 || bit b n)

/-- The home of a chain-wide layer (R366). -/
def Chip.chooseHome (c : Chip) (n : Nat) (img : List Byte) : Nat :=
  let el := ((c.chain.view.entries.filter (fun e => e.state == 2 && decide (e.number < 128) && c.holdsAll img e.number)).map
    (fun e => e.number)).sortBy (fun a b => decide (a ≤ b))
  let pref := c.num (Obj.chainLayerPreferredHome n)
  if el.contains pref then pref else if el.isEmpty then 0xFF else el.getD (n % el.length) 0xFF

/-- An inventory entry of a voice (R367). -/
def inventoryEntry (v : Voice) : List Nat :=
  [v.id, v.lead, (if v.released || v.pendingRelease.isSome then 1 else 0) + (if v.held then 2 else 0) +
    (if v.state == .feathering then 4 else 0), v.origin.chip, v.origin.tenant, v.origin.esq, v.origin.seq]

/-- The voices this chip holds for a layer. -/
def Chip.layerVoices (c : Chip) (n : Nat) : List (Nat × Voice) :=
  c.voiceList.filter (fun x => x.2.handle == n && x.2.live && !x.2.control && x.2.home.isSome)

/-- An inventory to a chip: a HOLDER_REPORT whose TAG has bit 31 set (R367). -/
def sendInventory (n dest : Nat) (c : Chip) : Chip :=
  sendLath 1 5 dest (2 ^ 31 + n) ((c.layerVoices n).map (fun x => inventoryEntry x.2)).flatten c

/-- A layer's home changes at this boundary (R367, R371). -/
def changeHome (n old new : Nat) (c : Chip) : Chip :=
  let c := setNum (Obj.chainLayerHome n) new c
  let mine := c.layerVoices n
  let c := when_ (new != c.me && new != 0xFF) (sendInventory n new) c
  let c := if old = c.me then modHawk (fun h => { h with
      owned := h.owned.filter (fun x => match x.2 with | some o => o.handle != n | none => false)
      notes := h.notes.filter (fun x => x.handle != n) }) c else c
  let c := forEach mine (fun x c => modVoice x.1 (fun v => { v with home := some new }) c) c
  let c := forEach c.work.journal.recs (fun x c => match x.2 with
    | some r =>
      if entryHandle r.entry = n ∧ namesHandle r.entry ∧ r.forwarded.any (fun f => decide (c.frame ≤ f + 4)) then
        if new = c.me then modJournal (fun j => { j with recs := tset none j.recs x.1 (some { r with forwarded := none }) }) c
        else forwardRecord x.1 c
      else c
    | none => c) c
  if new = c.me then
    let others := (c.chain.view.entries.filter (fun e => decide (e.number < 128) && e.number != c.me)).map (fun e => e.number)
    let c := modHawk (fun h => { h with rr := tclear h.rr (256 * n) (256 * n + 256) }) c
    let c := forEach mine (fun x c => modHawk (fun h => { h with
      owned := tset none h.owned x.2.id (some { ownEntry c x.2 c.me x.2.lead with known := true }) }) c) c
    if others.isEmpty then c else modChain (fun h => { h with waits := h.waits ++ [⟨n, c.time.stc, others⟩] }) c
  else c

/-- Homes are computed again (R366). -/
def recomputeHomes (c : Chip) : Chip :=
  forEach c.setup.layers (fun x c =>
    match c.newest .layer x.1 with
    | some v =>
      if isChainLayer v.image then
        let new := if c.num Obj.chainState < 2 then 0xFF else c.chooseHome x.1 v.image
        let old := c.num (Obj.chainLayerHome x.1)
        if new ≠ old then changeHome x.1 old new c else c
      else c
    | none => c) c

/-- INVENTORY_WAIT_END: the new home goes on at E + B/2 (R367). -/
def execInventoryWaitEnd (s : State) : Host.Outcome State Fault Refusal :=
  s.onChip (fun c => modChain (fun h => { h with waits := h.waits.filter (fun w => decide (c.time.stc < w.start + c.bsize / 2)) }) c)

/-! ### Mirror holders (R368, R379) -/

/-- This chip's mirror holder: its UP neighbour, at the UP end of a line its DOWN neighbour; a chip quarantined for VERSION
neither mirrors nor holds. -/
def Chip.chooseHolder (c : Chip) : Nat :=
  let v := c.chain.view
  if c.num Obj.chainState < 2 ∨ c.num Obj.chainState = 4 ∨ !c.flag Obj.chainMirroring ∨ bit (c.num Obj.chainQuarantineCause) 1 then 0xFF
  else match v.placeOf mySerial with
    | none => 0xFF
    | some i =>
      let ok (j : Nat) : Option Nat := (v.entries[j]?).bind (fun e => if bit e.cause 1 ∨ 128 ≤ e.number then none else some e.number)
      match (v.neighbour i 0).bind ok with
      | some n => n
      | none => ((v.neighbour i 1).bind ok).getD 0xFF

/-- The mirror holder of another chip of a view (R368). Entry 76, DEDUCED. -/
def View.holderOf (v : View) (n : Nat) : Option Nat :=
  match findFrom (fun e => e.number == n) 0 v.entries with
  | some (i, _) => ((v.neighbour i 0) <|> (v.neighbour i 1)).bind (fun j => (v.entries[j]?).map (fun e => e.number))
  | none => none

/-- Slots of chips whose holder is no longer this chip are freed (R500, R501). -/
def freeOldSlots (c : Chip) : Chip :=
  forEach [0, 1] (fun i c =>
    let of_ := if i = 0 then c.work.journal.mirrorOf0 else c.work.journal.mirrorOf1
    match of_ with
    | some n => if c.chain.losses.any (fun l => l.lost == n) || c.chain.view.holderOf n == some c.me then c else freeSlot i c
    | none => c) c

/-! ### A view takes effect (R354, R357, R358, R374) -/

/-- The outcome of a chain write this chip asked for: the object, and the response (R374, R418, R430). -/
def endWrite (result : Nat) (c : Chip) : Chip :=
  let c := setNum Obj.chainWriteResult result c
  match c.chain.writer with
  | none => c
  | some w =>
    let c := modChain (fun h => { h with writer := none }) c
    let st := if result = 0 then St.ok else if result = 1 then St.busy else St.refused
    let m : Msg := { writeMsg { path := w.path, txn := BitVec.ofNat 16 w.txn } w.object w.data with op := BitVec.ofNat 8 w.op }
    respond w.path m w.master { status := st } c

/-- A chain write that is open when the view changes is dropped (R374). -/
def abortWrite (c : Chip) : Chip :=
  if c.chain.proposal.isSome ∨ c.chain.writer.isSome then
    endWrite 3 (modChain (fun h => { h with proposal := none, anchorVotes := none, applySent := false }) c)
  else c

/-- The number of a serial in a view. -/
def View.numberOf (v : View) (serial : Nat) : Nat := ((v.entries.find? (fun e => e.serial == serial)).map (fun e => e.number)).getD 0xFF

/-- Roles, cut and ports follow the view in force (R357, R358, R364, R365). -/
def applyRoles (c : Chip) : Chip :=
  let v := c.chain.view
  let alone := decide (v.entries.length ≤ 1)
  let n := if alone then 0xFF else v.numberOf mySerial
  let c := setNum Obj.identityChipNumber n c
  let c := when_ (decide (n < 128)) (setNum Obj.chainLastNumber n) c
  let c := setBlob Obj.chainView (if alone then [] else v.bytes) c
  let c := setNum Obj.chainMembers (if alone then 0 else (v.entries.filter (fun e => decide (e.number < 128))).length) c
  let c := setNum Obj.chainTopology (if alone then 0 else if v.ring then 2 else 1) c
  let c := setNum Obj.chainCutLink (if alone then 0xFF else v.cut) c
  let c := setNum Obj.chainAnchor (if alone then 0xFF else v.numberOf v.anchor) c
  let c := setNum Obj.chainTimeMaster (if alone then 0xFF else v.numberOf v.master) c
  let below := c.neighbourOf 1
  let c := setNum (Obj.lathPortCut 0) (if v.ring ∧ v.cut = n then 1 else 0) c
  let c := setNum (Obj.lathPortCut 1) (if v.ring ∧ below = some v.cut then 1 else 0) c
  if alone || c.num Obj.chainState < 2 || v.master == mySerial then leaveChainRef c else enterChainRef c

/-- What carries an old number of this chip ends (R354). -/
def dropNumber (old : Nat) (c : Chip) : Chip :=
  let c := forEach c.voiceList (fun x c => when_ (x.2.id / 2 ^ 25 == old && !x.2.control) (endVoice x.1 9 c.time.stc) c) c
  modHawk (fun h => { h with owned := [] }) c

/-- A view takes effect at its boundary. Entry 76, DEDUCED. -/
def applyView (v : View) (c : Chip) : Chip :=
  match v.entries.find? (fun e => e.serial == mySerial) with
  | none => modChain (fun h => { h with nextView := none }) c
  | some e =>
    let alone := decide (v.entries.length ≤ 1)
    let old := c.me
    let new := if alone then 0xFF else e.number
    let c := abortWrite c
    let c := when_ (old != 0xFF && old != new) (dropNumber old) c
    let cuts := [0, 1].filter (fun p => c.flag (Obj.lathPortCut p))
    let epoch := c.num Obj.chainEpoch
    let c := modChain (fun h => { h with
      view := c.weighed v, nextView := none, computed := none, censusOn := false, losses := [], elect := none
      oldCut := cuts, switchAt := c.time.stc, oldEpoch := epoch, epochFrom := c.time.stc }) c
    let c := bump Obj.chainCountersViews (setNum Obj.chainViewSeq (c.num Obj.chainViewSeq + 1) c)
    let was := c.num Obj.chainState
    let c := setNum Obj.chainState (if alone then 0 else if e.number = 0xFF then 4 else if was = 3 then 3 else 2) c
    let c := when_ (e.number == 0xFF && !alone) (snag 0x0203 0 0xFF) c
    let c := applyRoles (setNum Obj.chainEpoch v.epoch c)
    let c := forEach [0, 1] (fun p c =>
      let peer := ((c.port p).peer.map (fun h => serialNat h.serial)).getD 0
      setNum (Obj.lathPortAdmit p) (if c.isUp p ∧ v.entries.any (fun x => x.serial == peer) then 1 else 0) c) c
    let c := if alone then setNum Obj.chainQuarantineCause 0 c
      else if e.number = 0xFF then setNum Obj.chainQuarantineCause 16 c else setCauses (c.causes e.cause) c
    let c := when_ (bit (c.num Obj.chainQuarantineCause) 2) fetchConfig c
    let c := recomputeHomes c
    let c := setHolder c.chooseHolder c
    settleHops (sendOffers c)

/-- APPLY_BOUNDARY (R357). -/
def execApplyBoundary (s : State) : Host.Outcome State Fault Refusal :=
  s.onChip (fun c => match c.chain.nextView with
    | some (v, t) => if t ≤ c.time.stc ∧ c.time.stc % 64 = 0 then applyView v c else c
    | none => c)

/-- VIEW_APPLY: relayed; a chip whose STC is not aligned to the chain applies it at once (R353). -/
def execViewApply (port : Fin 2) (fields : List Nat) (s : State) : Host.Outcome State Fault Refusal :=
  s.onChip (fun c =>
    let p := port.val
    let key := (fields.headD 0, fields.getD 1 0)
    if !c.isUp p || c.chain.applyRelayed.contains key then c
    else
      let v := View.ofFields fields
      let c := relay p 5 1 2 fields (modChain (fun h => { h with applyRelayed := (key :: h.applyRelayed).take 16 }) c)
      let aligned := decide (2 ≤ c.num Obj.chainState) && c.chain.view.anchor == v.anchor && !bit (c.num Obj.chainQuarantineCause) 2
      if aligned then modChain (fun h => { h with nextView := some (v, key.2) }) c else applyView v c)

/-! ### The time master (R365) -/

/-- The record of a member, as the last census and the SYNCs since have it. -/
def Chip.recOf (c : Chip) (e : ViewEntry) : CensusRec :=
  if e.serial = mySerial then c.ownRecord
  else ((c.chain.recs.find? (fun x => x.1.serial == e.serial)).map Prod.fst).getD { serial := e.serial }

/-- The result of an election now: members that are not quarantined for TIME. Entry 76, DEDUCED. -/
def Chip.elected (c : Chip) : Option Nat :=
  let l := (c.chain.view.entries.filter (fun e => decide (e.number < 128) &&
    !bit (if e.serial = mySerial then c.num Obj.chainQuarantineCause else e.cause) 2)).map (fun e => (c.recOf e, e.number))
  (electFrom l).map (fun x => x.1.serial)

/-- A new time master takes effect. -/
def setMaster (serial : Nat) (c : Chip) : Chip :=
  if serial = c.chain.view.master then modChain (fun h => { h with elect := none }) c
  else applyRoles (bump Obj.chainCountersElections (modChain (fun h => { h with elect := none, view := { h.view with master := serial } }) c))

/-- A result that differs is noted; one that has held for 1 s, or comes while the master is of class 255, takes effect. -/
def noteElection (c : Chip) : Chip :=
  if c.num Obj.chainState < 2 ∨ c.num Obj.chainState = 4 then c
  else match c.elected with
    | none => c
    | some n =>
      if n = c.chain.view.master then modChain (fun h => { h with elect := none }) c
      else
        let gone := c.chain.view.entries.any (fun e => e.serial == c.chain.view.master && (c.recOf e).cls == 255)
        match c.chain.elect with
        | some (m, t) => if m = n then (if gone ∨ t + 1000000000 ≤ c.now then setMaster n c else c)
          else if gone then setMaster n c else modChain (fun h => { h with elect := some (n, c.now) }) c
        | none => if gone then setMaster n c else modChain (fun h => { h with elect := some (n, c.now) }) c

/-- TIME_MASTER_ELECTION. -/
def execTimeMasterElection (s : State) : Host.Outcome State Fault Refusal := s.onChip noteElection

/-! ### The loss of a member (R361 to R363, R369, R372) -/

/-- LOSS_SWITCH: from SWITCH packets follow the new arrangement (R362). -/
def execLossSwitch (s : State) : Host.Outcome State Fault Refusal :=
  s.onChip (fun c =>
    match c.chain.losses.find? (fun l => !l.switched && decide (l.switch ≤ c.time.stc)) with
    | none => c
    | some l =>
      let cuts := [0, 1].filter (fun p => c.flag (Obj.lathPortCut p))
      let facing := [0, 1].filter (fun p => c.neighbourOf p == some l.lost)
      let c := modChain (fun h => { h with
        oldCut := cuts, switchAt := l.switch
        losses := h.losses.map (fun x => if x.lost = l.lost then { x with switched := true } else x) }) c
      let c := forEach facing (fun p c => modPort p (fun x => { x with declared := true }) c) c
      setNum (Obj.lathPortCut 0) 0 (setNum (Obj.lathPortCut 1) 0 c))

/-- A view without a chip and what can be reached only through it (R363). -/
def View.without (v : View) (serial lost : Nat) : View :=
  match findFrom (fun e => e.number == lost) 0 v.entries with
  | none => v
  | some (i, _) =>
    let after := v.entries.drop (i + 1)
    let before := v.entries.take i
    let es := if v.ring then after ++ before else if before.any (fun e => e.serial == serial) then before else after
    { v with entries := es, ring := false, cut := 0xFF }

/-- A voice of this home whose holder is lost or quarantined: placed again at once, or ended (R369, R379). -/
def lostVoice (id : Nat) (o : Owned) (c : Chip) : Chip :=
  if c.flag Obj.chainFailoverReplace ∧ !o.released ∧ !o.feathering then
    reown id { o with onsetTick := c.time.stc, onsetFrac := 0 } true [o.chip] c
  else
    let img := (((c.handle .template o.template).version o.version).map (fun v => v.image)).getD []
    let n : Notice := { kind := 1, status := 0, late := o.late, queue := o.origin.esq, seq := o.origin.seq, tick := c.time.stc,
                        voiceId := id, handle := o.handle, endReason := 9, note := o.note.note, channel := o.note.channel, zone := o.zone }
    let c := when_ (bit (field img 6 2) 1) (tellOrigin o.origin n) c
    settleNote o.noteOn (disown id c)

/-- A record of a lost chip is issued again: to its layer's home, or to this holder (R369, R370). -/
def reissue (r : JRec) (c : Chip) : Chip :=
  let h := entryHandle r.entry
  let r := { r with reissued := true, taken := false, forwarded := none, late := lateAt c.bsize c.time.stc r.entry }
  if namesHandle r.entry && c.isChainHandle h && c.homeOf h != c.me then sendLath 1 2 (c.homeOf h) 0 (jrecFields r) c
  else if namesHandle r.entry && !c.handleCommitted r.tenant h then snag 0x0205 h 0xFF c
  else receiveForward r c

/-- EFFECTIVE of a loss (R363). -/
def lossEffective (l : Loss) (c : Chip) : Chip :=
  let old := c.chain.view
  let holder := old.holderOf l.lost
  let c := when_ (match holder with | some h => c.chain.losses.any (fun x => x.lost == h) | none => false) (snag 0x0204 l.lost 0xFF) c
  let v := old.without mySerial l.lost
  let alone := decide (v.entries.length ≤ 1)
  let c := abortWrite c
  let c := modChain (fun h => { h with view := v, losses := h.losses.filter (fun x => x.lost != l.lost), elect := none,
                                       nextView := none }) c
  let master := if v.entries.any (fun e => e.serial == old.master) then old.master else c.elected.getD mySerial
  let anchor := if v.entries.any (fun e => e.serial == old.anchor) then old.anchor else master
  let c := modChain (fun h => { h with view := { h.view with master := master, anchor := anchor } }) c
  let c := bump Obj.chainCountersLosses (setNum Obj.chainViewSeq (c.num Obj.chainViewSeq + 1) c)
  let c := when_ (master != old.master) (bump Obj.chainCountersElections) c
  let c := when_ alone (fun c => setNum Obj.chainQuarantineCause 0 (setNum Obj.chainState 0 c)) c
  let c := applyRoles c
  let gone := old.entries.filter (fun e => !v.entries.any (fun x => x.serial == e.serial))
  let c := forEach (c.hawk.owned.filterMap (fun x => x.2.map (fun o => (x.1, o)))) (fun x c =>
    when_ (gone.any (fun e => e.number == x.2.chip)) (lostVoice x.1 x.2) c) c
  let c := recomputeHomes c
  let c := match holder == some c.me, c.work.journal.slotOf l.lost with
    | true, some i =>
      let rs := ((c.work.journal.mirror i).filterMap Prod.snd).sortBy (fun a b => decide (a.order ≤ b.order))
      freeSlot i (forEach rs reissue c)
    | _, _ => c
  settleHops (setHolder c.chooseHolder c)

/-- LOSS_EFFECTIVE: losses are processed one after another (R363, R372). -/
def execLossEffective (s : State) : Host.Outcome State Fault Refusal :=
  s.onChip (fun c =>
    match (c.chain.losses.filter (fun l => decide (l.effective ≤ c.time.stc))).sortBy (fun a b => decide (a.switch ≤ b.switch)) with
    | l :: _ => lossEffective l c
    | [] => c)

end Sys2Proof.Machine
end

