-- ==== Sys2Proof/Machine/ChainConfig.lean ====
section
/-!
DEFINITION. What the members of a chain agree on: chain writes, replication, the ownership audit, capacity digests and stem
streams (R92, R137, R138, R336, R373 to R384).
-/

namespace Sys2Proof.Machine

/-! ### Chain-scope values take effect (R41, R45, R373, R374, R456, R462) -/

/-- A chain-scope object, or Tempo.Go, takes a value from tick `x` on. -/
def applyScope (o v x : Nat) (extra : List Nat) (c : Chip) : Chip :=
  if o = Obj.plumbTempoGo then
    let g (i : Nat) (d : Nat) : Nat := extra.getD i d
    tempoGo v x (setNum Obj.plumbTempoSet (g 0 (c.num Obj.plumbTempoSet)) (setNum Obj.plumbTempoRelocate (g 1 (c.num Obj.plumbTempoRelocate))
      (setNum Obj.plumbTempoApplyTick (g 2 (c.num Obj.plumbTempoApplyTick)) c)))
  else
    let c := setNum o v c
    if o = Obj.plumbSampleRate then trigger x v none c
    else if o = Obj.plumbBlockSize then (if v = c.bsize ∧ c.time.blockNext.isNone then c else blockAt x v c)
    else if o = Obj.chainMirroring then setHolder c.chooseHolder c
    else c

/-- Is a value below the minimum of R45? -/
def belowMin (c : Chip) (o v : Nat) : Bool := o == Obj.skimChainPresentDelay && decide (v < presentMin (c.num Obj.chainHopTotal) c.fs)

/-- A write on a chip that is no MEMBER takes effect locally (R374, R456, R462). -/
def localScope (o v : Nat) : Act := actWhen (fun _ c => if belowMin c o v then St.refused else St.ok)
  (fun _ c => applyScope o v (if o = Obj.plumbTempoGo then 0 else c.next64) [] c)

/-! ### Chain writes (R374) -/

/-- The hash this chip will hold after a write. -/
def hashAfter (c : Chip) (o v : Nat) : Nat := if isScope o then (setNum o v c).configHash else c.configHash

/-- The parameters of a tempo change travel with its Go. -/
def extraOf (c : Chip) (o : Nat) : List Nat :=
  if o = Obj.plumbTempoGo then [c.num Obj.plumbTempoSet, c.num Obj.plumbTempoRelocate, c.num Obj.plumbTempoApplyTick] else []

/-- The anchor proposes a write: the next epoch, and the first multiple of 64 at least 20 ms ahead. Entry 41, DESIGN CHOICE. -/
def propose (o v : Nat) (extra : List Nat) (c : Chip) : Chip :=
  let a := c.applyTick 20
  let e := (c.num Obj.chainEpoch + 1) % 2 ^ 32
  let p : Proposal := { object := o, value := v, epoch := e, applyAt := a, extra := extra }
  let c := modChain (fun h => { h with proposal := some p, anchorVotes := some [(c.me, hashAfter c o v)], applySent := false }) c
  sendLath 5 1 0xFF 3 ([o, v, e, a] ++ extra) c

/-- A chain write that this chip is asked for by a master with A on the chain target: the result where it ends here, or none
while it goes on. Entry 41, DESIGN CHOICE. -/
def chainWrite (w : ChainWriter) (v : Nat) (c : Chip) : Option Nat × Chip :=
  if c.isQuarantined then (some 2, c)
  else if belowMin c w.object v then (some 4, c)
  else if c.chain.writer.isSome || c.chain.proposal.isSome || c.num Obj.chainAnchor == 0xFF then (some 1, c)
  else
    let extra := extraOf c w.object
    let c := modChain (fun h => { h with writer := some w }) c
    (none, if c.num Obj.chainAnchor = c.me then propose w.object v extra c
      else sendLath 5 1 (c.num Obj.chainAnchor) 3 ([w.object, v, 0, 0] ++ extra) c)

/-- The write service of a chain-scope object or Tempo.Go: a chain write on a MEMBER or a QUARANTINED chip, else a local one
(R374, R427). -/
def runScope (p : Path) (m : Msg) (master : Option Nat) (s : State) : State × Reply :=
  let o := m.object.toNat
  let c := s.chip
  let v := leNat m.data
  if c.isMember || c.isQuarantined then
    if m.offset ≠ 0 then (s, { status := St.badRequest })
    else match writeTarget c master o with
      | .error st => (s, { status := st })
      | .ok d =>
        if valueStatus d m.data ≠ St.ok then
          (if valueStatus d m.data = St.badValue then { s with chip := setNum Obj.chainWriteResult 4 c } else s, { status := valueStatus d m.data })
        else if !c.may 0x19 0 (master.getD 0) 3 then (s, { status := St.noAccess })
        else
          let w : ChainWriter := { path := p, txn := m.txn.toNat, op := m.op.toNat, object := o, data := m.data, master := master }
          let r := chainWrite w v c
          match r.1 with
          | some k => ({ s with chip := setNum Obj.chainWriteResult k r.2 }, { status := if k = 1 then St.busy else St.refused })
          | none => ({ s with chip := r.2 }, { status := St.ok, later := true })
  else runWrite p m (localScope o v) master s

/-- A command that is a write of a chain-scope object. -/
def scopeRow (r : Req) (o : Nat) (data : List Byte) (s : State) : Host.Outcome State Fault Refusal :=
  let m := writeMsg r o data
  .next (serve r.path m (runScope r.path m) s)

/-- CHAIN_WRITE: a write of a chain-scope object; of any other object it is none. -/
def execChainWrite (r : Req) (o : BitVec 32) (data : List Byte) (s : State) : Host.Outcome State Fault Refusal :=
  if isScope o.toNat then scopeRow r o.toNat data s else .next s
/-- SAMPLE_RATE: Plumb.SampleRate is written (R456). -/
def execSampleRate (r : Req) (rate : Fin 6) (s : State) : Host.Outcome State Fault Refusal :=
  scopeRow r Obj.plumbSampleRate (leBytes 1 rate.val) s
/-- BLOCK_SIZE: Plumb.BlockSize is written (R41). -/
def execBlockSize (r : Req) (b : Byte) (s : State) : Host.Outcome State Fault Refusal := scopeRow r Obj.plumbBlockSize [b] s
/-- TEMPO: Plumb.Tempo.Go 1 (R462). -/
def execTempoSet (r : Req) (s : State) : Host.Outcome State Fault Refusal := scopeRow r Obj.plumbTempoGo [1] s
/-- RELOCATE: Plumb.Tempo.Go 2 (R462). -/
def execTempoRelocate (r : Req) (s : State) : Host.Outcome State Fault Refusal := scopeRow r Obj.plumbTempoGo [2] s
/-- TEMPO_AND_RELOCATE: Plumb.Tempo.Go 3 (R462). -/
def execTempoAndRelocate (r : Req) (s : State) : Host.Outcome State Fault Refusal := scopeRow r Obj.plumbTempoGo [3] s

/-- CONFIG_PROPOSE: at the anchor a member's write, which it takes if no other is open; elsewhere the anchor's proposal, which
is answered with the hash after it.  A writer whose own write was not taken learns so from another's proposal.
Entry 41, DESIGN CHOICE. -/
def execConfigPropose (chip : Byte) (fields : List Nat) (s : State) : Host.Outcome State Fault Refusal :=
  s.onChip (fun c =>
    let g (i : Nat) : Nat := fields.getD i 0
    let extra := fields.drop 4
    if !(c.isMember || c.isQuarantined) then c
    else if g 3 = 0 then
      if c.num Obj.chainAnchor = c.me ∧ c.chain.proposal.isNone then propose (g 0) (g 1) extra c else c
    else if chip.toNat ≠ c.num Obj.chainAnchor then c
    else
      let mine := match c.chain.writer with | some w => w.object == g 0 && leNat w.data == g 1 | none => true
      let c := when_ (!mine) (endWrite 1) c
      let p : Proposal := { object := g 0, value := g 1, epoch := g 2, applyAt := g 3, extra := extra }
      let c := modChain (fun h => { h with proposal := some p, applySent := false }) c
      sendLath 5 1 chip.toNat 4 [g 2, hashAfter c (g 0) (g 1)] c)

/-- CONFIG_VOTE: the anchor keeps a member's vote. -/
def execConfigVote (chip : Byte) (fields : List Nat) (s : State) : Host.Outcome State Fault Refusal :=
  s.onChip (fun c =>
    match c.chain.proposal, c.chain.anchorVotes with
    | some p, some vs =>
      if fields.getD 0 0 = p.epoch then
        modChain (fun h => { h with anchorVotes := some (vs.filter (fun x => x.1 != chip.toNat) ++ [(chip.toNat, fields.getD 1 0)]) }) c
      else c
    | _, _ => c)

/-- CONFIG_APPLY_TIMER: 5 ms before A the anchor broadcasts CONFIG_APPLY with the members whose vote did not match or did not
arrive. -/
def execConfigApplyTimer (s : State) : Host.Outcome State Fault Refusal :=
  s.onChip (fun c =>
    match c.chain.proposal, c.chain.anchorVotes with
    | some p, some vs =>
      if !c.chain.applySent ∧ p.applyAt ≤ c.time.stc + c.msTicks 5 then
        let hash := hashAfter c p.object p.value
        let listed := (c.chain.view.entries.filter (fun e => decide (e.number < 128) && !vs.contains (e.number, hash))).map (fun e => e.number)
        let c := modChain (fun h => { h with applySent := true, proposal := some { p with listed := some listed, hash := hash } }) c
        sendLath 5 1 0xFF 5 ([p.epoch, hash, p.applyAt] ++ listed) c
      else c
    | _, _ => c)

/-- CONFIG_APPLY: the proposal will be applied at A; every cause of quarantine is checked (R374, R378). -/
def execConfigApply (chip : Byte) (fields : List Nat) (s : State) : Host.Outcome State Fault Refusal :=
  s.onChip (fun c =>
    match c.chain.proposal with
    | some p =>
      if fields.getD 0 0 = p.epoch ∧ chip.toNat = c.num Obj.chainAnchor then
        let c := modChain (fun h => { h with proposal := some { p with listed := some (fields.drop 3), hash := fields.getD 1 0 } }) c
        setCauses (c.causes (c.num Obj.chainQuarantineCause)) c
      else c
    | none => c)

/-- CHAIN_WRITE_APPLY: at A the write and its epoch apply; without CONFIG_APPLY the proposal is discarded.
Entry 41, DESIGN CHOICE. -/
def execChainWriteApply (s : State) : Host.Outcome State Fault Refusal :=
  s.onChip (fun c =>
    match c.chain.proposal with
    | none => c
    | some p =>
      if c.time.stc < p.applyAt then c
      else
        let old := c.num Obj.chainEpoch
        let c := modChain (fun h => { h with proposal := none, anchorVotes := none, applySent := false }) c
        match p.listed with
        | none => when_ c.chain.writer.isSome (endWrite 3) c
        | some l =>
          let c := applyScope p.object p.value p.applyAt p.extra c
          let c := when_ (isStored p.object) (flashStore p.object) c
          let c := modChain (fun h => { h with oldEpoch := old, epochFrom := p.applyAt, view := { h.view with epoch := p.epoch, hash := p.hash } })
            (setNum Obj.chainEpoch p.epoch c)
          let cause := c.causes (c.num Obj.chainQuarantineCause)
          let c := setCauses (if l.contains c.me then withBit cause 0 true else cause) c
          when_ c.chain.writer.isSome (endWrite 0) c)

/-! ### Resynchronisation (R378, R380, R460) -/

/-- The rule of Chain.Quarantine.Request (R378). -/
def quarantineRequestAct (on : Bool) : Act := chipAct (fun _ c =>
  let c := setNum Obj.chainQuarantineRequest (if on then 1 else 0) c
  (if c.num Obj.chainState < 2 then c else setCauses (withBit (c.num Obj.chainQuarantineCause) 3 on) c, St.ok))

/-- QUARANTINE_REQUEST. -/
def execQuarantineRequest (r : Req) (on : Bool) (s : State) : Host.Outcome State Fault Refusal :=
  serveRow r Obj.chainQuarantineRequest [if on then 1 else 0] (quarantineRequestAct on) s

/-- The rule of Chain.Quarantine.Resync (R380). -/
def resyncAct : Act := actWhen (fun m c => if c.may 0x19 0 m 3 then St.ok else St.noAccess)
  (fun _ c => fetchConfig (modChain (fun h => { h with resync := true, recheck := true }) c))

/-- RESYNC. -/
def execResync (r : Req) (s : State) : Host.Outcome State Fault Refusal := serveRow r Obj.chainQuarantineResync [1] resyncAct s

/-- CONFIG_FETCH: the anchor answers with its chain-scope values, as object and value, and then its rebase point: S, T, fs
(R380, R460; entry 13, DESIGN CHOICE). -/
def execConfigFetch (chip : Byte) (_fields : List Nat) (s : State) : Host.Outcome State Fault Refusal :=
  s.onChip (fun c =>
    if c.num Obj.chainAnchor = c.me then
      sendLath 5 1 chip.toNat 7 (scopeObjects.flatMap (fun o => [o, c.num o]) ++ [c.time.rebaseTick, c.time.rebaseNs, c.time.rebaseHz]) c
    else c)

/-- CONFIG_DATA: a resync applies the values, with a transition where the rate or B differs; a chip quarantined for TIME keeps
the rebase point for its realignment. Entry 77, DESIGN CHOICE. -/
def execConfigData (chip : Byte) (fields : List Nat) (s : State) : Host.Outcome State Fault Refusal :=
  s.onChip (fun c =>
    if chip.toNat ≠ c.num Obj.chainAnchor then c
    else
      let n := scopeObjects.length
      let g (i : Nat) : Nat := fields.getD i 0
      let c := if c.chain.resync then
          let c := forEach ((upTo n).map (fun i => (g (2 * i), g (2 * i + 1)))) (fun x c =>
            if isScope x.1 ∧ c.num x.1 ≠ x.2 then
              when_ (isStored x.1) (flashStore x.1) (applyScope x.1 x.2 c.next64 [] c)
            else c) c
          modChain (fun h => { h with resync := false, recheck := true }) c
        else c
      when_ (bit (c.num Obj.chainQuarantineCause) 2)
        (modTime (fun t => { t with chainRebase := some (g (2 * n), g (2 * n + 1), g (2 * n + 2)) })) c)

/-! ### Replication (R376, R377) -/

/-- A member holds a version of a template: its bit in the bitmap of every version with that ImageHash (R377). -/
def noteHolder (n hash chip : Nat) (c : Chip) : Chip :=
  modHandle .template n (fun h => { h with versions := h.versions.map (fun v =>
    if v.hash = hash then { v with holders := withBit v.holders chip true } else v) }) c

/-- The kind of an image in REPLICATE's fields (entry 13, DESIGN CHOICE). -/
def replKind : Nat → SetupKind
  | 0 => .template | 1 => .layer | 2 => .modset | _ => .control

/-- Commit one replicated image on this chip, its staging image untouched: the result and the ImageHash (R54, R376). -/
def commitReplica (k : SetupKind) (n m : Nat) (img : List Byte) (c : Chip) : (Nat × Nat) × Chip :=
  let kept := (c.handle k n).staging
  let c := collect k n (modHandle k n (fun h => { h with staging := img }) c)
  let r := commitCheck c k n m
  let c := if r.1 = 0 then addVersion k n m r.2 c else c
  ((r.1, imageHash img r.2), modHandle k n (fun h => { h with staging := kept }) c)

/-- The images of a REPLICATE in order, each answered with REPLICATE_ACK: kind, handle, ImageHash, result (entry 13, DESIGN CHOICE).  The
answer goes to the committing member, and to the home that keeps the bitmap. -/
def takeReplicas (chip home : Nat) : Nat → List Nat → Chip → Chip
  | 0, _, c => c
  | fuel + 1, kind :: n :: tenant :: len :: rest, c =>
    let k := replKind kind
    let c := if len = 0 then withdraw k n c
      else
        let r := commitReplica k n (0x10 + tenant) ((rest.take len).map (BitVec.ofNat 8)) c
        let ack := [kind, n, r.1.2, r.1.1]
        let c := sendLath 5 1 chip 9 ack r.2
        let c := when_ (home != chip && home != c.me && home != 0xFF) (sendLath 5 1 home 9 ack) c
        when_ (home == c.me && kind == 0 && r.1.1 == 0) (fun c => noteHolder n r.1.2 chip (noteHolder n r.1.2 c.me c)) c
    takeReplicas chip home fuel (rest.drop len) c
  | _, _, c => c

/-- The layer handle that a REPLICATE's last image carries. -/
def replicaLayer : Nat → List Nat → Option Nat
  | 0, _ => none
  | fuel + 1, kind :: n :: _ :: len :: rest => if kind = 1 then some n else replicaLayer fuel (rest.drop len)
  | _, _ => none

/-- REPLICATE: every member commits each image to the same handle; a length of 0 withdraws it. -/
def execReplicate (chip : Byte) (fields : List Nat) (s : State) : Host.Outcome State Fault Refusal :=
  s.onChip (fun c =>
    if c.num Obj.chainState < 2 ∨ c.num Obj.chainState = 4 then c
    else
      let home := ((replicaLayer fields.length fields).map (fun n => c.num (Obj.chainLayerHome n))).getD 0xFF
      takeReplicas chip.toNat home fields.length fields c)

/-- REPLICATE_ACK: a refusal is counted; an equal hash sets the member's bit (R376, R377). Entry 77, DESIGN CHOICE. -/
def execReplicateAck (chip : Byte) (fields : List Nat) (s : State) : Host.Outcome State Fault Refusal :=
  s.onChip (fun c =>
    let g (i : Nat) : Nat := fields.getD i 0
    if g 3 ≠ 0 then bump Obj.chainCountersReplicationFailures c
    else if g 0 = 0 then noteHolder (g 1) (g 2) c.me (noteHolder (g 1) (g 2) chip.toNat c)
    else c)

/-! ### The ownership audit and inventories (R367, R382) -/

/-- Count and CRC-32C of VOICE_IDs in ascending order. Entry 13, DESIGN CHOICE. -/
def auditOf (ids : List Nat) : Nat × Nat :=
  let l := ids.sortBy (fun a b => decide (a ≤ b))
  (l.length, crc32c (l.flatMap (leBytes 4)))

/-- The VOICE_IDs that this home believes a chip holds for a layer. -/
def Chip.believed (c : Chip) (n chip : Nat) : List Nat :=
  c.hawk.owned.filterMap (fun x => x.2.bind (fun o => if o.handle = n ∧ o.chip = chip then some x.1 else none))

/-- AUDIT_TIMER: a home sends every other member an AUDIT for each of its layers: handle, count, CRC. -/
def execAuditTimer (s : State) : Host.Outcome State Fault Refusal :=
  s.onChip (fun c =>
    if !c.isMember then c
    else
      let others := (c.chain.view.entries.filter (fun e => decide (e.number < 128) && e.number != c.me)).map (fun e => e.number)
      forEach ((c.setup.layers.map Prod.fst).filter (fun n => c.num (Obj.chainLayerHome n) == c.me)) (fun n c =>
        forEach others (fun m c =>
          let a := auditOf (c.believed n m)
          sendLath 5 1 m 10 [n, a.1, a.2] c) c) c)

/-- AUDIT: the holder compares, and returns an inventory on a mismatch. Entry 77, DESIGN CHOICE. -/
def execChainAudit (chip : Byte) (fields : List Nat) (s : State) : Host.Outcome State Fault Refusal :=
  s.onChip (fun c =>
    let n := fields.getD 0 0
    let a := auditOf ((c.layerVoices n).map (fun x => x.2.id))
    when_ (fields.drop 1 != [a.1, a.2]) (sendInventory n chip.toNat) c)

/-- Entries of an inventory, of 7 numbers each. -/
def inventoryEntries : Nat → List Nat → List (List Nat)
  | 0, _ => []
  | fuel + 1, l => if l.length < 7 then [] else l.take 7 :: inventoryEntries fuel (l.drop 7)

/-- What this chip's records say of a note-on of another chip: its note data. -/
def Chip.noteOf (c : Chip) (src t q seq : Nat) : Option NoteData :=
  let rs := (c.work.journal.recs ++ c.work.journal.mirror0 ++ c.work.journal.mirror1).filterMap Prod.snd
  (rs.find? (fun r => r.src == src && r.tenant == t && r.queue == q && entrySeq r.entry == seq)).bind (fun r =>
    match eventKind r.entry with | .noteOn nd => some nd | _ => none)

/-- A voice of an inventory becomes an ownership entry of the new home; what an inventory does not say comes from the records
this chip holds, else from the layer's first zone. Entry 77, DESIGN CHOICE. -/
def adoptVoice (n chip : Nat) (e : List Nat) (c : Chip) : Chip :=
  let g (i : Nat) : Nat := e.getD i 0
  let org : Origin := ⟨g 3, g 4, g 5, g 6⟩
  let nd := (c.noteOf (g 3) (g 4) (g 5) (g 6)).getD ⟨0, 0, 0, 0, 0⟩
  let img := ((c.newest .layer n).map (fun v => v.image)).getD []
  let zone := (matchZones img nd).headD 0
  let t := field (zoneOf img zone) 0 2
  let tv := c.newest .template t
  let key := [c.time.stc, 0, 0, g 4, g 5, g 6, g 3]
  let known := c.hawk.notes.find? (fun x => x.origin == org && x.handle == n)
  let id := match known with | some x => x.id | none => c.hawk.nextNote
  let c := if known.isSome then c else modHawk (fun h => { h with
    nextNote := id + 1
    notes := h.notes ++ [{ id := id, tenant := g 4, handle := n, channel := nd.channel, note := nd.note, key := key, origin := org,
                           place := none, voices := [] }] }) c
  let o : Owned := { chip := chip, lead := g 1, tenant := g 4, key := key, origin := org, noteOn := id, note := nd, handle := n,
                     template := t, version := (tv.map (fun v => v.ver)).getD 0, zone := zone,
                     group := (tv.map (fun v => field v.image 0xC 2)).getD 0, weight := (tv.map (fun v => c.weight v.image)).getD 1,
                     released := bit (g 2) 0, held := bit (g 2) 1, feathering := bit (g 2) 2, known := true }
  modHawk (fun h => { h with owned := tput h.owned (g 0) (some o) }) c

/-- An inventory after an audit: what only the holder has is feathered, what only the home has is removed (R382).
Entry 77, DESIGN CHOICE. -/
def repairAudit (n chip : Nat) (es : List (List Nat)) (c : Chip) : Chip :=
  let has := es.map (fun e => e.headD 0)
  let believed := c.believed n chip
  let c := forEach (has.filter (fun i => !believed.contains i)) (fun i c =>
    bump Obj.chainCountersAuditRepairs (sendLath 1 6 chip 0 [i, c.time.stc, 0, 0, 4] c)) c
  forEach (believed.filter (fun i => !has.contains i)) (fun i c =>
    let note := match tget none c.hawk.owned i with | some o => o.noteOn | none => c.hawk.nextNote
    bump Obj.chainCountersAuditRepairs (settleNote note (disown i c))) c

/-- HOLDER_REPORT: an inventory where TAG has bit 31, a relayed notice, or a holder's report of a voice (R96, R367, R382,
R403). -/
def execHolderReport (chip : Byte) (tag : BitVec 32) (fields : List Nat) (s : State) : Host.Outcome State Fault Refusal :=
  s.onChip (fun c =>
    let m := chip.toNat
    if tag.getLsbD 31 then
      let n := tag.toNat % 4096
      let es := inventoryEntries fields.length fields
      if c.num (Obj.chainLayerHome n) ≠ c.me then c
      else if c.chain.waits.any (fun w => w.layer == n && w.missing.contains m) then
        let c := forEach (es.filter (fun e => (tget none c.hawk.owned (e.headD 0)).isNone)) (adoptVoice n m) c
        modChain (fun h => { h with waits := (h.waits.map (fun w =>
          if w.layer = n then { w with missing := w.missing.filter (· != m) } else w)).filter (fun w => !w.missing.isEmpty) }) c
      else repairAudit n m es c
    else
      let what := fields.headD 0
      if what < 0x100 then relayNotice fields c
      else if what = 0x104 then
        match tget none c.hawk.owned (fields.getD 1 0) with
        | some o => lostVoice (fields.getD 1 0) o c
        | none => c
      else takeReport m fields c)

/-! ### Capacity digests (R92) -/

/-- DIGEST: a member's digest of the previous frame. -/
def execHawkDigest (chip : Byte) (octets : List Byte) (s : State) : Host.Outcome State Fault Refusal :=
  s.onChip (fun c => if inView c chip.toNat ∧ chip.toNat ≠ c.me then
    modHawk (fun h => { h with digests := tput h.digests chip.toNat (slice octets 0 64) }) c else c)

/-! ### Chain control stems (R137, R138, R336) -/

/-- A stem that no voice drives. Entry 77, DESIGN CHOICE. -/
def stemNone : Int := -(2 ^ 31)

/-- The key of a chain stem as an output target. -/
def stemKey (ix : Nat) : Nat := targetKey 5 ix

/-- Does a stem merge by sum? Entry 77, DESIGN CHOICE. -/
def Chip.stemSums (c : Chip) (ix : Nat) : Bool := c.mergeMode 5 ix == 2

/-- A target that its voices have left: its OnEnd says IDLE (R138). -/
def Chip.targetIdle (c : Chip) (key onEnd : Nat) : Bool := tget false c.stipple.idled key && onEnd == 1

/-- This chip's part of stem `ix` in the step at `s`. -/
def Chip.ownStem (c : Chip) (ix s : Nat) : Int :=
  if c.targetDriven (stemKey ix) s then (c.targetAt (stemKey ix) s).getD 0
  else if !c.stemSums ix then stemNone
  else if c.targetIdle (stemKey ix) (c.num (Obj.stippleStemOnEnd ix)) then 0
  else (c.targetAt (stemKey ix) s).getD 0

/-- A step of 256 values that adds nothing. -/
def Chip.noStems (c : Chip) : Table Int := ((upTo 256).filter (fun i => !c.stemSums i)).map (fun i => (i, stemNone))

/-- Merge two steps (R336). -/
def mergeStems (c : Chip) (a b : Table Int) : Table Int :=
  (upTo 256).foldl (fun t i =>
    let x := tget 0 a i
    let y := tget 0 b i
    tset 0 t i (if c.stemSums i then toSigned 32 (ofInt 32 (x + y)) else max x y)) []

/-- A stem packet goes out: types 2 and 3 of class 3. -/
def sendStem (rising : Bool) (m contrib origin : Nat) (vals : Table Int) (c : Chip) : Chip :=
  emit (.lath (if rising then 0 else 1) 3 (if rising then 2 else 3) 0xFE (m % 2 ^ 32)
    ([m / 2 ^ 32, contrib % 256, origin, c.epochOf m] ++ (upTo 256).map (fun b => ofInt 32 (tget 0 vals b)))) c

/-- The streams by direction. -/
def Chip.stemStream (c : Chip) (rising : Bool) : Stream := if rising then c.chain.stemRising else c.chain.stemFalling
/-- One changes. -/
def setStemStream (rising : Bool) (x : Stream) (c : Chip) : Chip :=
  modChain (fun h => if rising then { h with stemRising := x } else { h with stemFalling := x }) c

/-- The packet of a step is forwarded once this chip's part and the arriving packet are there (R251, R336). -/
def forwardStem (rising : Bool) (m : Nat) (c : Chip) : Chip :=
  let inPort := if rising then 1 else 0
  match c.chain.stemOwn.find? (fun e => e.1 == m) with
  | some (_, own) =>
    if c.busPort (1 - inPort) m then
      let add := if c.contributes then 1 else 0
      if c.busPort inPort m then
        (match (c.stemStream rising).packets.find? (fun e => e.1 == m) with
          | some (_, k, vals) => sendStem rising m (k + add) (c.stemStream rising).origin (mergeStems c vals own) c
          | none => c)
      else sendStem rising m add c.me own c
    else c
  | none => c

/-- STEM_RISING and STEM_FALLING: a packet arrives; one with another epoch, or later than its presentation, is discarded. -/
def takeStem (rising : Bool) (m contrib origin epoch : Nat) (values : List (BitVec 32)) (c : Chip) : Chip :=
  if !c.busPort (if rising then 1 else 0) m || epoch != c.epochOf m || decide (m < c.chain.stemShown) then c
  else
    let vals : Table Int := ((values.zipIdx).map (fun v => (v.2, v.1.toInt))).filter (fun e => e.2 != 0 && decide (e.1 < 256))
    let st := c.stemStream rising
    forwardStem rising m (setStemStream rising { st with packets := tput st.packets m (contrib, vals), origin := origin } c)

/-- STEM_RISING. -/
def execStemRising (m : BitVec 64) (contrib origin : Byte) (epoch : BitVec 32) (values : List (BitVec 32)) (s : State) :
    Host.Outcome State Fault Refusal := s.onChip (takeStem true m.toNat contrib.toNat origin.toNat epoch.toNat values)
/-- STEM_FALLING. -/
def execStemFalling (m : BitVec 64) (contrib origin : Byte) (epoch : BitVec 32) (values : List (BitVec 32)) (s : State) :
    Host.Outcome State Fault Refusal := s.onChip (takeStem false m.toNat contrib.toNat origin.toNat epoch.toNat values)

/-- This chip's part of the steps of frame `k`, and their packets where the streams start here or have arrived. -/
def ownStems (k : Nat) (c : Chip) : Chip :=
  forEach (c.frameSteps k) (fun s c =>
    let own : Table Int := if c.contributes then (upTo 256).foldl (fun t i => tset 0 t i (c.ownStem i s)) [] else c.noStems
    forwardStem false s (forwardStem true s (modChain (fun h => { h with stemOwn := tput h.stemOwn s own }) c))) c

/-- One stream's part of a presented step; a missing packet fades as R253 says, a step at a time. -/
def useStem (rising : Bool) (m : Nat) (c : Chip) : Table Int × Chip :=
  let st := c.stemStream rising
  if !c.busPort (if rising then 1 else 0) m then (c.noStems, setStemStream rising {} c)
  else
    let rest := st.packets.filter (fun e => decide (m < e.1))
    match st.packets.find? (fun e => e.1 == m) with
    | some (_, _, vals) => (vals, setStemStream rising { st with packets := rest, last := vals, missing := 0 } c)
    | none =>
      let j := st.missing + 1
      let fade (v : Int) : Int := if v = stemNone then v else if c.bsize ≤ j then 0 else Int.fdiv (v * ((c.bsize - j : Nat) : Int)) c.bsize
      let vals := (upTo 256).foldl (fun t i => tset 0 t i (fade (tget 0 st.last i))) []
      (vals, bump Obj.skimCountersChainMissed (setStemStream rising { st with packets := rest, missing := j } c))

/-- A step is presented: a sum saturates to Q1.15; a stem that no member drives follows OnEnd (R138, R336).
Entry 77, DESIGN CHOICE. -/
def presentStep (m : Nat) (c : Chip) : Chip :=
  let own := tget c.noStems c.chain.stemOwn m
  let r := useStem true m c
  let f := useStem false m r.2
  let total := mergeStems f.2 (mergeStems f.2 r.1 f.1) own
  let c := f.2
  let value (i : Nat) : Int :=
    let v := tget 0 total i
    if c.stemSums i then satQ15 v
    else if v = stemNone then (if c.num (Obj.stippleStemOnEnd i) = 1 then 0 else tget 0 c.stipple.stems i)
    else satQ15 v
  let stems := (upTo 256).foldl (fun t i => tset 0 t i (value i)) []
  modStipple (fun x => { x with stems := stems })
    (modChain (fun h => { h with stemShown := m + 1, stemOwn := h.stemOwn.filter (fun e => decide (m < e.1)) }) c)

/-- Present the steps whose delay has passed: step m with the pass of sample m + D (R252, R336). -/
def presentStems (c : Chip) : Chip :=
  forEach (c.chain.stemOwn.map Prod.fst) (fun m c =>
    when_ (decide (m + c.presentDelay + c.bsize + 1 ≤ c.time.stc)) (presentStep m) c) c

end Sys2Proof.Machine
end

