-- ==== Sys2Proof/Machine/Can.lean ====
section
/-!
DEFINITION. The CAN controllers and their transmit slots (R136, R137, R433 to R443).
-/

namespace Sys2Proof.Machine

/-- CAN changes. -/
def modCan (f : Can → Can) (c : Chip) : Chip := { c with can := f c.can }

/-- A controller's record. -/
def Chip.ctl (c : Chip) (k : Nat) : CanCtl := tget {} c.can.ctl k
/-- It changes. -/
def modCtl (k : Nat) (f : CanCtl → CanCtl) (c : Chip) : Chip := modCan (fun x => { x with ctl := tmod {} x.ctl k f }) c

/-- A slot's record. -/
def Chip.slot (c : Chip) (u : Nat) : CanSlot := tget {} c.can.slots u
/-- It changes. -/
def modSlot (u : Nat) (f : CanSlot → CanSlot) (c : Chip) : Chip := modCan (fun x => { x with slots := tmod {} x.slots u f }) c

/-! ### Error counts and states (R438, R441) -/

/-- The error counts take values, shown up to 255, and the state follows. Entry 15, PRESUMED. -/
def setCounts (k tec rec_ : Nat) (c : Chip) : Chip :=
  let c := modCtl k (fun x => { x with tec := tec, rec_ := rec_ }) c
  let c := setNum (Obj.canTec k) (min 255 tec) (setNum (Obj.canRec k) (min 255 rec_) c)
  let st := c.num (Obj.canState k)
  if st = 1 ∧ (127 < tec ∨ 127 < rec_) then setNum (Obj.canState k) 2 c
  else if st = 2 ∧ tec ≤ 127 ∧ rec_ ≤ 127 then setNum (Obj.canState k) 1 c
  else c

/-- A slot frame's outcome: 1 SENT, 2 ABORTED, 3 ABORT_TOO_LATE, 4 ERROR. -/
def slotStatus (f : CanFrame) (st : Nat) (c : Chip) : Chip :=
  match f.slot with
  | some u => setNum (Obj.canSlotLastStatus u) st c
  | none => c

/-- The queue is discarded; its slot frames report ERROR (R438, R439). -/
def discardQueue (k : Nat) (c : Chip) : Chip :=
  let q := (c.ctl k).queue
  let c := forEach q (fun f c => slotStatus f 4 c) (modCtl k (fun x => { x with queue := [] }) c)
  forEach (q.filterMap (fun f => f.slot)) (fun u c => modSlot u (fun x => { x with next := none }) c) c

/-- A controller goes to OFF and then to the state its Mode selects (R441). Entry 80, DESIGN CHOICE. -/
def enterMode (k : Nat) (c : Chip) : Chip :=
  let m := c.num (Obj.canMode (canCfg c k))
  let c := modCtl k (fun x => { x with collisions := [] }) (discardQueue k c)
  setCounts k 0 0 (setNum (Obj.canState k) (if m = 1 then 1 else if m = 2 then 6 else 0) c)

/-! ### The queue (R437) -/

/-- Arbitration order: the identifier's first 11 bits, base before extended, then the other 18. -/
def CanFrame.key (f : CanFrame) : List Nat :=
  if f.extended then [f.id / 2 ^ 18, 1, f.id % 2 ^ 18] else [f.id % 2 ^ 11, 0, 0]

/-- The frame that a controller sends first, with its place. Entry 80, DESIGN CHOICE. -/
def Chip.headFrame (c : Chip) (k : Nat) : Option (Nat × CanFrame) :=
  (bestBy (fun (a b : CanFrame × Nat) => keyLt a.1.key b.1.key) (c.ctl k).queue.zipIdx).map (fun x => (x.2, x.1))

/-- A queued frame changes, or goes. -/
def putFrame (k i : Nat) (f : Option CanFrame) (c : Chip) : Chip :=
  modCtl k (fun x => { x with queue := match f with | some g => x.queue.set i g | none => x.queue.eraseIdx i }) c

/-- Whether the first frame has begun arbitration, or has won it, is open: the bus decides (entry 6, DESIGN CHOICE). -/
def beginHead (k : Nat) (c : Chip) : Chip :=
  if !canSends c k then c
  else match c.headFrame k with
    | some (i, f) =>
      let d := draw c
      let ph : FramePhase := match f.phase, d.1 % 3 with
        | .waiting, 1 => .arbitrating
        | .waiting, 2 => .sending
        | .arbitrating, 2 => .sending
        | p, _ => p
      putFrame k i (some { f with phase := ph }) d.2
    | none => c

/-- The slot's frame for a value (R436). -/
def slotFrame (c : Chip) (u : Nat) (v : Int) : CanFrame :=
  let fmt := c.num (Obj.canSlotFormat u)
  let id := c.num (Obj.canSlotId u)
  let ext := fmt != 0 && bit id 31
  { format := fmt, id := if ext then id % 2 ^ 29 else id % 2 ^ 11, extended := ext,
    sdt := if fmt = 0 then c.num (Obj.canSlotSdt u) else 0, vcid := if fmt = 0 then c.num (Obj.canSlotVcid u) else 0,
    af := if fmt = 0 then c.num (Obj.canSlotAf u) else 0,
    data := leBytes 2 (ofInt 16 v) ++ leBytes 1 (c.slot u).count ++ leBytes 1 u,
    slot := some u, phase := .waiting, late := false }

/-- An abort is latched for a frame (R440). -/
def abortFrame (k i : Nat) (f : CanFrame) (c : Chip) : Chip :=
  match f.phase with
  | .waiting => slotStatus f 2 (putFrame k i none c)
  | _ => putFrame k i (some { f with late := true }) c

/-- Abort every queued frame that meets a condition. -/
def abortFrames (k : Nat) (p : CanFrame → Bool) (c : Chip) : Chip :=
  let c := beginHead k c
  forEach ((c.ctl k).queue.zipIdx.reverse) (fun x c => when_ (p x.1) (abortFrame k x.2 x.1) c) c

/-- A slot's frame is queued on a controller; an earlier one that has not begun takes the new value, one that has is aborted
and the new value follows (R437). -/
def queueSlotOn (k u : Nat) (v : Int) (c : Chip) : Chip :=
  if !canSends c k then c
  else
    let c := beginHead k c
    match findFrom (fun (f : CanFrame) => f.slot == some u) 0 (c.ctl k).queue with
    | none => canQueue k (slotFrame c u v) c
    | some (i, f) =>
      if f.phase = .waiting then putFrame k i (some { f with data := leBytes 2 (ofInt 16 v) ++ f.data.drop 2 }) c
      else modSlot u (fun x => { x with next := some v }) (putFrame k i (some { f with late := true }) c)

/-- A slot's frame is queued: in REDUNDANT on both buses for controller 0's slots, never for controller 1's (R442). -/
def queueSlot (u : Nat) (v : Int) (c : Chip) : Chip :=
  if c.num Obj.canRedundancy = 1 then (if u < 64 then queueSlotOn 1 u v (queueSlotOn 0 u v c) else c)
  else queueSlotOn (u / 64) u v c

/-! ### What control voices put in slots (R136, R137) -/

/-- The target of a transmit slot. -/
def canKey (u : Nat) : Nat := targetKey 4 (u / 64 * 256 + u % 64)

/-- The output of a slot at a boundary. -/
def Chip.slotValue (c : Chip) (u : Nat) : Option Int := c.targetAt (canKey u) c.time.stc

/-- At a frame boundary each enabled slot whose value has moved by Deadband is sent (R137). Entry 80, DESIGN CHOICE. -/
def sendSlots (c : Chip) : Chip :=
  forEach (upTo 128) (fun u c =>
    if c.flag (Obj.canSlotEnable u) then
      match c.slotValue u, (c.slot u).last with
      | some v, some l => when_ (decide (c.num (Obj.stippleCanDeadband u) ≤ (v - l).natAbs)) (queueSlot u v) c
      | some v, none => queueSlot u v c
      | none, _ => c
    else c) c

/-- CAN_HEARTBEAT: at a frame boundary a slot whose Heartbeat has lapsed sends its value (R137). -/
def execCanHeartbeat (slot : Fin 128) (s : State) : Host.Outcome State Fault Refusal :=
  s.onChip (fun c =>
    let u := slot.val
    let h := c.num (Obj.stippleCanHeartbeat u)
    if c.time.stc % c.bsize = 0 ∧ c.flag (Obj.canSlotEnable u) ∧ h ≠ 0 ∧ (c.slot u).lastAt + h * 1000000 ≤ c.now then
      match c.slotValue u with
      | some v => queueSlot u v c
      | none => c
    else c)

/-! ### Bus events (R437 to R441) -/

/-- The aborted frame of a slot has gone: the value that waited behind it follows (R437). -/
def followSlot (k : Nat) (f : CanFrame) (c : Chip) : Chip :=
  match f.slot with
  | none => c
  | some u =>
    match (c.slot u).next with
    | some v => queueSlotOn k u v (modSlot u (fun x => { x with next := none }) c)
    | none => c

/-- CAN_FRAME_SENT: the first frame of a controller's queue completes. Entry 15, PRESUMED. -/
def execCanFrameSent (ctl : Fin 2) (s : State) : Host.Outcome State Fault Refusal :=
  s.onChip (fun c =>
    let k := ctl.val
    if !canSends c k then c
    else match c.headFrame k with
      | none => c
      | some (i, f) =>
        let c := bump (Obj.canCountersTxFrames k) (putFrame k i none c)
        let x := c.ctl k
        let c := setCounts k (x.tec - 1) x.rec_ c
        let c := when_ f.late (bump (Obj.canCountersAbortTooLate k)) c
        let c := slotStatus f (if f.late then 3 else 1) c
        let c := match f.slot with
          | some u => modSlot u (fun y => { y with
              count := if k = u / 64 ∨ !canSends c (u / 64) then (y.count + 1) % 256 else y.count
              last := some (sfield f.data 0 2), lastAt := c.now }) c
          | none => c
        followSlot k f c)

/-- The frame in transmission meets an error: it is sent again, unless an abort was latched (R440). Entry 15, PRESUMED. -/
def frameError (k : Nat) (c : Chip) : Chip :=
  match c.headFrame k with
  | some (i, f) =>
    if f.late then followSlot k f (slotStatus f 4 (putFrame k i none c))
    else putFrame k i (some { f with phase := .waiting }) c
  | none => c

/-- Bus-off (R438, R533): the third within 10 s retires the controller. -/
def busOff (k : Nat) (c : Chip) : Chip :=
  let recent := (c.ctl k).busOffs.filter (fun t => decide (c.now < t + 10000000000))
  let c := modCtl k (fun x => { x with busOffs := c.now :: recent }) (bump (Obj.canCountersBusOffs k) (discardQueue k c))
  let c := emit (.source (211 + k)) c
  if 2 ≤ recent.length then snag 0x0602 k 0xFF (setNum (Obj.canRetired k) 1 (setNum (Obj.canState k) 5 c))
  else setNum (Obj.canState k) 3 c

/-- A transmit error (R438). Entry 15, PRESUMED. -/
def transmitError (k : Nat) (c : Chip) : Chip :=
  let x := c.ctl k
  let c := setCounts k (x.tec + 8) x.rec_ (frameError k c)
  if 255 < x.tec + 8 then busOff k c else c

/-- CAN_BUS_ERROR: an error of a frame this controller sends or receives; `dominant` after its error flag counts 8 (R438). -/
def execCanBusError (ctl : Fin 2) (transmitter dominant : Bool) (s : State) : Host.Outcome State Fault Refusal :=
  s.onChip (fun c =>
    let k := ctl.val
    if !canSends c k then c
    else if transmitter then transmitError k c
    else
      let x := c.ctl k
      setCounts k x.tec (x.rec_ + if dominant then 8 else 1) c)

/-- BUS_OFF_RECOVERY: 128 occurrences of 11 recessive bits (R438). -/
def execBusOffRecovery (ctl : Fin 2) (s : State) : Host.Outcome State Fault Refusal :=
  s.onChip (fun c => if c.num (Obj.canState ctl.val) = 3 then setCounts ctl.val 0 0 (setNum (Obj.canState ctl.val) 1 c) else c)

/-- The identifier as ConflictId gives it. -/
def CanFrame.shownId (f : CanFrame) : Nat := f.id + if f.extended then 2 ^ 31 else 0

/-- COLLISION: the frame in transmission loses to another of the same identifier; the third on one identifier within 1 s is a
conflict (R439). Entry 80, DESIGN CHOICE. -/
def execCollision (ctl : Fin 2) (s : State) : Host.Outcome State Fault Refusal :=
  s.onChip (fun c =>
    let k := ctl.val
    if !canSends c k then c
    else match c.headFrame k with
      | none => c
      | some (_, f) =>
        let recent := (c.ctl k).collisions.filter (fun x => decide (c.now < x.2 + 1000000000))
        let same := (recent.filter (fun x => x.1 == f.shownId)).length
        let c := modCtl k (fun x => { x with collisions := (f.shownId, c.now) :: recent }) (bump (Obj.canCountersCollisions k) c)
        let c := transmitError k c
        if 2 ≤ same ∧ canSends c k then
          snagWith 0x0601 k 0xFF 0xFFFF f.shownId
            (emit (.source (211 + k)) (setNum (Obj.canConflictId k) f.shownId (setNum (Obj.canState k) 4 (discardQueue k c))))
        else c)

/-! ### The objects (R440 to R443) -/

/-- Controllers that a write to controller `k`'s objects acts on (R442). -/
def ctlsOf (c : Chip) (k : Nat) : List Nat := if c.num Obj.canRedundancy = 1 then (if k = 0 then [0, 1] else []) else [k]

/-- CAN_ABORT: Can.Abort 1. -/
def canAbortAct (k : Nat) : Act := chipAct (fun _ c => (abortFrames k (fun _ => true) c, St.ok))
def execCanAbort (r : Req) (ctl : Fin 2) (s : State) : Host.Outcome State Fault Refusal :=
  serveRow r (Obj.canAbort ctl.val) [1] (canAbortAct ctl.val) s

/-- Can.Slot.Enable is written. -/
def slotEnableAct (u : Nat) (on : Bool) : Act := chipAct (fun _ c =>
  let c := setNum (Obj.canSlotEnable u) (if on then 1 else 0) c
  (if on then c else
    modSlot u (fun x => { x with next := none }) (forEach [0, 1] (fun k c => abortFrames k (fun f => f.slot == some u) c) c), St.ok))
/-- SLOT_ENABLE. -/
def execSlotEnable (r : Req) (slot : Fin 128) (on : Bool) (s : State) : Host.Outcome State Fault Refusal :=
  serveRow r (Obj.canSlotEnable slot.val) [if on then 1 else 0] (slotEnableAct slot.val on) s

/-- A controller in ID_CONFLICT leaves it. -/
def leaveConflict (k : Nat) (c : Chip) : Chip :=
  forEach (ctlsOf c k) (fun k c => when_ (c.num (Obj.canState k) == 4) (enterMode k) c) c

/-- CAN_RESTART: Can.Restart 1. -/
def canRestartAct (k : Nat) : Act := chipAct (fun _ c => (when_ (c.num (Obj.canState k) == 4) (enterMode k) c, St.ok))
def execCanRestart (r : Req) (ctl : Fin 2) (s : State) : Host.Outcome State Fault Refusal :=
  serveRow r (Obj.canRestart ctl.val) [1] (canRestartAct ctl.val) s

/-- Can.Mode is written: OFF from any state; else from OFF, from ID_CONFLICT, or when the mode changes; BUS_OFF and RETIRED
stay. Entry 80, DESIGN CHOICE. Entry 81, DEDUCED. -/
def canModeAct (k m : Nat) : Act := chipAct (fun _ c =>
  let old := c.num (Obj.canMode k)
  let c := setNum (Obj.canMode k) m c
  (forEach (ctlsOf c k) (fun j c =>
    let st := c.num (Obj.canState j)
    if st = 5 then c
    else if m = 0 then setNum (Obj.canState j) 0 (discardQueue j c)
    else if st = 0 ∨ st = 4 ∨ (st ≠ 3 ∧ m ≠ old) then enterMode j c else c) c, St.ok))
/-- CAN_MODE. -/
def execCanMode (r : Req) (ctl : Fin 2) (mode : Fin 3) (s : State) : Host.Outcome State Fault Refusal :=
  serveRow r (Obj.canMode ctl.val) (leBytes 1 mode.val) (canModeAct ctl.val mode.val) s

/-- Can.Retired 0: the controller is reinstated. -/
def canReinstateAct (k : Nat) : Act := chipAct (fun _ c =>
  if c.num (Obj.canState k) = 5 then
    (enterMode k (modCtl k (fun x => { x with busOffs := [] }) (setNum (Obj.canRetired k) 0 c)), St.ok)
  else (c, St.ok))
/-- CAN_REINSTATE. -/
def execCanReinstate (r : Req) (ctl : Fin 2) (s : State) : Host.Outcome State Fault Refusal :=
  serveRow r (Obj.canRetired ctl.val) [0] (canReinstateAct ctl.val) s

/-- A write of NodeId or ResponseId also leaves ID_CONFLICT (R441). -/
def canIdAct (k o v : Nat) : Act := chipAct (fun _ c => (leaveConflict k (setNum o v c), St.ok))

/-- Does a bit rate give a whole number of at least 8 quanta of the 160 MHz clock (R433)? -/
def quantaOk (rate : Nat) : Bool := rate != 0 && 160000000 % rate == 0 && decide (8 ≤ 160000000 / rate)

/-- Can.NomRate and Can.DataRate (R433). Entry 80, DESIGN CHOICE. -/
def canRateAct (k o v : Nat) : Act := actWhen (fun _ c =>
    if !quantaOk v then St.refused
    else if o = Obj.canNomRate k ∧ ! [125000, 250000, 500000, 1000000].contains v then St.badValue
    else if (if c.num (Obj.canFormat k) = 1 then 8000000 else 20000000) < v then St.badValue else St.ok)
  (fun _ c => setNum o v c)

/-- Can.Redundancy: controller 1 then runs by the Mode that serves it (R442). -/
def canRedundancyAct (v : Nat) : Act := chipAct (fun _ c =>
  if c.num Obj.canRedundancy = v then (c, St.ok)
  else
    let c := setNum Obj.canRedundancy v c
    let st := c.num (Obj.canState 1)
    (if st = 3 ∨ st = 5 then c else enterMode 1 c, St.ok))

/-- A frame of another node was received: frames whose abort was latched in arbitration have lost it (R440), and the receive
count goes down (R438). -/
def frameReceived (k : Nat) (c : Chip) : Chip :=
  let c := bump (Obj.canCountersRxFrames k) c
  let c := forEach ((c.ctl k).queue.zipIdx.reverse) (fun x c =>
    if x.1.phase = .arbitrating then
      (if x.1.late then followSlot k x.1 (slotStatus x.1 2 (putFrame k x.2 none c)) else putFrame k x.2 (some { x.1 with phase := .waiting }) c)
    else c) c
  let x := c.ctl k
  setCounts k x.tec (if 127 < x.rec_ then 127 else x.rec_ - 1) c

end Sys2Proof.Machine
end

