-- ==== Sys2Proof/Machine/Tenants.lean ====
section
/-!
DEFINITION. Tenants: enabling, the tenant reset, and the leases of R492 (R386, R389, R391, R488, R489, R491, R492).
-/

namespace Sys2Proof.Machine

/-! ### Leases (R491, R492) -/

/-- The staging image that an Image object stands for is emptied; committed versions stay. -/
def emptyStaging (o : Nat) (c : Chip) : Chip :=
  let n := objIndexOf o % 0x1000
  let hi := objIndexOf o / 0x1000
  let none_ (h : Handle) : Handle := { h with staging := [] }
  if objAreaOf o = 0x20 ∧ hi = 1 then modHandle .template n none_ c
  else if objAreaOf o = 0x20 ∧ hi = 2 then modHandle .layer n none_ c
  else if objAreaOf o = 0x22 ∧ hi = 1 then modHandle .modset n none_ c
  else if objAreaOf o = 0x22 ∧ hi = 2 then modHandle .control n none_ c
  else setBlob o [] c

/-- Does a path come from mailbox `i`? -/
def fromMailbox (i : Nat) : Path → Bool
  | .mailbox t m => mix t.val m.val == i
  | _ => false

/-- A response in progress for mailbox `i` is discarded: what waits to be answered goes to no one. -/
def dropResponses (i : Nat) (c : Chip) : Chip :=
  let off (p : Path) : Path := if fromMailbox i p then .bar 0 else p
  let c := { c with flashPending := c.flashPending.map (fun (w : FlashWrite) => { w with path := off w.path }) }
  let c := { c with chain := { c.chain with writer := c.chain.writer.map (fun (w : ChainWriter) => { w with path := off w.path }) } }
  modWork (fun w => { w with awaited := w.awaited.filter (fun a => !fromMailbox i a.path),
                             supervisor := { w.supervisor with held := w.supervisor.held.filter (fun x => !fromMailbox i x.1) } }) c

/-- A lease is revoked and its resource takes the state of R492. -/
def revokeLease (l : Lease) (c : Chip) : Chip :=
  match l.kind with
  | 2 => leaseDrop 2 l.unit (emptyStaging l.unit c)
  | 4 => if c.skim.wet.phase ≠ .idle then c else leaseDrop 4 l.unit (setNext [] c)
  | 5 => importAbort (leaseDrop 5 l.unit c)
  | 6 =>
    let c := modMail l.unit (fun x => { x with state := .idle, response := [] }) c
    leaseDrop 6 l.unit (dropResponses l.unit (modWork (fun w => { w with mailOrder := w.mailOrder.filter (· != l.unit) }) c))
  | k => leaseDrop k l.unit c

/-- LEASE_EXPIRY: at a tick strobe the leases whose expiry has passed lapse. Entry 4, DEDUCED. -/
def execLeaseExpiry (s : State) : Host.Outcome State Fault Refusal :=
  s.onChip (fun c =>
    forEach (c.work.leases.filter (fun l => l.kind != 1 && l.expiry != noTerm && decide (l.expiry < c.time.stc))) revokeLease c)

/-! ### Enabling (R386) -/

/-- Does a tenant own a voice, a control voice or an enabled effects task? -/
def tenantOwns (c : Chip) (t : Nat) : Bool :=
  c.voiceList.any (fun x => x.2.tenant == t) ||
  (tkeys c.trowel.tasks 0 1024).any (fun k => c.flag (Obj.trowelTaskEnable k) && c.num (Obj.trowelTaskOwner k) == t)

/-- The rule of Tenant.Enable (R386). -/
def tenantEnableAct (t : Nat) (on : Bool) : Act := chipAct (fun _ c =>
  if on then (setNum (Obj.tenantEnable t) 1 c, St.ok)
  else if t = 0 then (c, St.refused)
  else if (upTo 28).any (fun q => (c.queue (qix t q)).state != .disabled) || tenantOwns c t then (c, St.busy)
  else (setNum (Obj.tenantEnable t) 0 c, St.ok))

/-- TENANT_ENABLE: Tenant.Enable is written. -/
def execTenantEnable (r : Req) (t : Fin 16) (on : Bool) (s : State) : Host.Outcome State Fault Refusal :=
  serveRow r (Obj.tenantEnable t.val) [if on then 1 else 0] (tenantEnableAct t.val on) s

/-! ### Tenant reset (R488, R489) -/

/-- A voice of the tenant ends, on both sides of a migration (R102, R488). Entry 70, DESIGN CHOICE. -/
def resetVoice (n : Nat) (c : Chip) : Chip :=
  match c.voice n with
  | none => c
  | some v =>
    if v.incoming then
      match c.hawk.migIn.find? (fun m => m.voice == n) with
      | some m => sendLath 2 3 m.source 0 [v.id] (discardCopy m c)
      | none => dropCopy n c
    else
      let c := match c.hawk.migOut.find? (fun m => m.voice == n) with
        | some m =>
          let c := if m.localCopy.isNone then sendLath 2 3 m.targetChip 0 [v.id] c else c
          let c := match m.localCopy with | some k => dropCopy k c | none => c
          modHawk (fun h => { h with migOut := h.migOut.filter (fun x => x.voice != n) }) c
        | none => c
      endVoice n 8 c.time.stc c

/-- A queue after a tenant reset: its BAR0 registers at their reset values but for Q_SEQ; what waits to be notified stays
(R403, R488, R489). -/
def resetQueue (q : Queue) : Queue :=
  { seq := q.seq, waiting := q.waiting, overflow := q.overflow, overflowLost := q.overflowLost, deferred := q.deferred }

/-- The journal records of a tenant by place, in SEQ order within their queues. -/
def tenantRecords (c : Chip) (t : Nat) (st : RecState) : List (Nat × JRec) :=
  (c.work.journal.recs.filterMap (fun x => match x.2 with
    | some r => if r.tenant = t ∧ r.state = st then some (x.1, r) else none
    | none => none)).sortBy (fun a b => decide (a.2.queue < b.2.queue) ||
      (a.2.queue == b.2.queue && decide (entrySeq a.2.entry ≤ entrySeq b.2.entry)))

/-- Every effect of a tenant reset, with or without discard. Entry 51, DESIGN CHOICE. Entry 70, DESIGN CHOICE. -/
def startTenantReset (t : Nat) (discard : Bool) (c : Chip) : Chip :=
  if (c.tenant t).resetting then c
  else
    let m := 0x10 + t
    let c := modTenant t (fun x => { x with resetting := true, discard := discard }) c
    let c := forEach ((c.voiceList.filter (fun x => x.2.tenant == t)).map Prod.fst) resetVoice c
    let c := forEach ((tkeys c.trowel.tasks 0 1024).filter (fun k => c.flag (Obj.trowelTaskEnable k) &&
      c.num (Obj.trowelTaskOwner k) == t)) disableTask c
    let c := forEach (c.work.leases.filter (fun l => l.owner == m)) revokeLease c
    let c := forEach (upTo 16) (fun i c =>
      if (c.setOf (16 * t + i)).isSome then
        setLoadStatus (16 * t + i) 1 false
          (modSkim (fun k => { k with sets := k.sets.filter (fun y => y.slot != some (16 * t + i)) }) c)
      else c) c
    let c := forEach (upTo 28) (fun q c => modQueue (qix t q) resetQueue c) c
    let c := modTenant t (fun x => { x with ctlDiscard := false, stcHi := 0, stcFrac := 0, evtStatus := 0, evtEnable := 0,
                                            snagCount := 0, msixTable := [], pba := 0 }) c
    let c := forEach ((tenantRecords c t .holding).map Prod.fst) freeRecord c
    if discard then
      forEach (tenantRecords c t .pending) (fun x c =>
        freeRecord x.1 (deferNotice t x.2.queue (eventNotice 4 0 false x.2.queue x.2.entry c.time.stc) c)) c
    else c

/-- The rule of Tenant.Reset 1 and 2, and of FN_CTL.RESET. -/
def tenantResetAct (t : Nat) (discard : Bool) : Act := chipAct (fun _ c => (startTenantReset t discard c, St.ok))

/-- A reset asked for through Tenant.Reset, or through the FN_CTL of a function, which acts on its own tenant (R391). -/
def askReset (r : Req) (t : Nat) (discard : Bool) (s : State) : Host.Outcome State Fault Refusal :=
  match r.path with
  | .bar f => s.onChip (fun c => when_ (c.hasFunction f.val) (startTenantReset f.val discard) c)
  | _ => serveRow r (Obj.tenantReset t) [if discard then 2 else 1] (tenantResetAct t discard) s

/-- TENANT_RESET: Tenant.Reset 1, or FN_CTL.RESET (R488). -/
def execTenantReset (r : Req) (t : Fin 16) (s : State) : Host.Outcome State Fault Refusal := askReset r t.val false s

/-- RESET_WITH_DISCARD: Tenant.Reset 2, or FN_CTL.RESET with DISCARD (R489). -/
def execResetWithDiscard (r : Req) (t : Fin 16) (s : State) : Host.Outcome State Fault Refusal := askReset r t.val true s

/-- FLR: a function-level reset resets its tenant without discard; until RESET_DONE it has no function (R387, R389). -/
def execFlr (t : Fin 16) (s : State) : Host.Outcome State Fault Refusal :=
  s.onChip (fun c =>
    if c.hasFunction t.val then startTenantReset t.val false (modTenant t.val (fun x => { x with inFlr := true }) c) else c)

/-- RESET_DONE: the reset completes within 10 ms of its start (R488). Entry 70, DESIGN CHOICE. -/
def execResetDone (t : Fin 16) (s : State) : Host.Outcome State Fault Refusal :=
  s.onChip (fun c =>
    if (c.tenant t.val).resetting then
      raise t.val 35 (modTenant t.val (fun x => { x with resetting := false, inFlr := false }) c)
    else c)

end Sys2Proof.Machine
end

