-- ==== Sys2Proof/Machine/Memory.lean ====
section
/-!
DEFINITION. Errors in on-chip memory and DRAM, retirement of rows and pages, and the Dust Sheet's wipe (R298 to R301, R309,
R310, R313, R315 to R320).
-/

namespace Sys2Proof.Machine

/-- The record of errors changes. -/
def modErrs (f : MemErr → MemErr) (c : Chip) : Chip := { c with errs := f c.errs }

/-- 10 s, in ns. -/
def tenSeconds : Nat := 10000000000

/-! ### The patrol scrubber (R299 to R301, R309) -/

/-- The place of a 64-bit word of an instance that cores or Skim see (R298, R321). -/
def wordPlace (inst word : Nat) : Option Nat :=
  if inst < 256 then (if word < 10240 then some (memLocal inst (8 * word)) else none)
  else if inst < 512 then (if word < 6144 then some (memProgram (inst - 256) (8 * word)) else none)
  else if inst < 528 then (if word < 262144 then some (memScratch (inst - 512) (8 * word)) else none)
  else if inst = 528 then (if word < 65536 then some (memExchange (8 * word)) else none)
  else none

/-- Words of an instance. -/
def instWords (inst : Nat) : Nat :=
  if inst < 256 then 10240 else if inst < 512 then 6144 else if inst < 528 then 262144 else if inst = 528 then 131072
  else if inst = 529 then 524288 else 32768

/-- An uncorrectable word of a mirror row: its record is lost and the others move (R309). -/
def retireMirrorRow (row rec_ : Nat) (c : Chip) : Chip :=
  let slot := (row - 4096) / 2048
  let first := 8 * (row - slotRow slot)
  let c := modMirror slot (fun t => tdel t (first + rec_)) (noteRow row c)
  forEach (((upTo 8).map (fun i => first + i)).filter (fun p => (tget none (c.work.journal.mirror slot) p).isSome)) (fun p c =>
    match c.work.journal.mirrorPlace slot 16384 0 with
    | some q => modMirror slot (fun t => tset none (tdel t p) q (tget none t p)) c
    | none => c) c

/-- A row of the journal with an uncorrectable word (R309). -/
def badJournalWord (word : Nat) (c : Chip) : Chip :=
  let row := word / 64
  let r := word % 64 / 8
  if row < 4 then c
  else if row < 4096 then
    let p := 8 * (row - 4) + r
    retireRow row (modJournal (fun j => { j with recs := tmod none j.recs p (fun x => x.map (fun y => { y with unreadable := true })) }) c)
  else retireMirrorRow row r c

/-- The frame near the present one whose exchange buffer is `b`. -/
def Chip.bufferFrame (c : Chip) (b : Nat) : Nat := let f := c.frame - 1; f + (b + 4 - f % 4) % 4

/-- An uncorrectable word is found: what R300 says for its memory. Entry 78, DESIGN CHOICE. -/
def badWord (inst word : Nat) (c : Chip) : Chip :=
  let c := modErrs (fun e => { e with uncorrected := tset 0 e.uncorrected inst (satAdd 32 (tget 0 e.uncorrected inst) 1) }) c
  if inst = 529 then badJournalWord word c
  else match wordPlace inst word with
    | none => c
    | some p =>
      let x := 8 * word / 1024
      if inst = 528 ∧ c.num (Obj.skimExchangeDir x) ≠ 0 then exchangeLate (c.bufferFrame (8 * word % 1024 / 256) - 1) x c
      else modErrs (fun e => { e with bad := (e.bad.filter (· != p / 8)) ++ [p / 8] }) c

/-- A corrected word; the third time within 10 s it is weak (R299, R300). -/
def fixedWord (inst word : Nat) (c : Chip) : Chip :=
  let key := 2 ^ 20 * inst + word
  let recent := (tget [] c.errs.fixes key).filter (fun t => decide (c.now < t + tenSeconds))
  let c := modErrs (fun e => { e with
    corrected := tset 0 e.corrected inst (satAdd 32 (tget 0 e.corrected inst) 1)
    fixes := tset [] e.fixes key (if 2 ≤ recent.length then [] else c.now :: recent) }) c
  if recent.length < 2 then c
  else if inst < 512 then countFault (inst % 256) c
  else snag 0x0101 inst 0xFF c

/-- A double error in the Dust Sheet: the entry that holds the word reads as absent; entries stand in the order of their
KEY_IDs, 64 octets each. Entry 79, DEDUCED. -/
def badKeyWord (word : Nat) (d : DustSheet) : DustSheet :=
  match d.keys[word / 8]? with
  | some (id, _) => if d.lost.contains id then d else { d with lost := d.lost ++ [id] }
  | none => d

/-- PATROL_SCRUB: the scrubber meets a word with a single or a double error. Entry 78, DESIGN CHOICE. -/
def execPatrolScrub (inst : Fin 531) (word : BitVec 19) (double : Bool) (s : State) : Host.Outcome State Fault Refusal :=
  if instWords inst.val ≤ word.toNat then .next s
  else if double then
    .next { s with chip := badWord inst.val word.toNat s.chip, dust := if inst.val = 530 then badKeyWord word.toNat s.dust else s.dust }
  else s.onChip (fixedWord inst.val word.toNat)

/-- The rule of Memory.Conflict.Clear. -/
def conflictClearAct : Act := chipAct (fun _ c => (modErrs (fun e => { e with clearConflicts := true }) c, St.ok))

/-- CONFLICT_CLEAR: Memory.Conflict.Clear 1 (R310). -/
def execConflictClear (r : Req) (s : State) : Host.Outcome State Fault Refusal :=
  serveRow r Obj.memoryConflictClear [1] conflictClearAct s

/-- The clearing at a frame boundary. -/
def clearConflicts (c : Chip) : Chip :=
  if c.errs.clearConflicts then modErrs (fun e => { e with clearConflicts := false, clearedAt := c.time.stc + 1 }) c else c

/-! ### Journal rows (R309) -/

/-- Rows that pass their test return. -/
def reinstateRows (failing : List Nat) (c : Chip) : Chip :=
  let rows := c.work.journal.retiredRows.filter (fun r => failing.contains r)
  setNum Obj.memoryJournalRowsRetired rows.length (modJournal (fun j => { j with retiredRows := rows }) c)

/-- JOURNAL_REINSTATE: retired rows are tested and those that pass return; `failing` are the rows that do not.
Entry 40, DESIGN CHOICE. -/
def execJournalReinstate (r : Req) (failing : List (Fin 8192)) (s : State) : Host.Outcome State Fault Refusal :=
  serveRow r Obj.memoryJournalReinstate [1] (chipAct (fun _ c => (reinstateRows (failing.map Fin.val) c, St.ok))) s

/-! ### DRAM (R313, R315, R316) -/

/-- Retired pages. -/
def Chip.retiredPages (c : Chip) : List Nat :=
  let b := c.blob Obj.memoryDramRetiredList
  (upTo (b.length / 4)).map (fun i => field b (4 * i) 4)

/-- A page is retired; the 4,097th raises DRAM_DEGRADED and is not (R315). -/
def retirePage (page : Nat) (c : Chip) : Chip :=
  if c.retiredPages.contains page then c
  else if c.retiredPages.length < 4096 then
    setBlob Obj.memoryDramRetiredList (c.blob Obj.memoryDramRetiredList ++ leBytes 4 page) c
  else if c.errs.degraded then c
  else snag 0x0103 page 0xFF (modErrs (fun e => { e with degraded := true }) c)

/-- MiB in octets. -/
def mib (n : Nat) : Nat := n * 1048576

/-- The region of a usable octet and its offset there: 1 supervisor, 2 ownership, 3 staging, 4 rings, 5 metadata, 6 stream
cache, 7 the pool (R313). Entry 78, DESIGN CHOICE. -/
def Chip.dramRegion (c : Chip) (a : Nat) : Nat × Nat :=
  let sizes := [mib 512, mib 16, mib 256, mib 512, c.hod.metaBytes, c.hod.cacheBytes]
  (sizes.foldl (fun (x : Nat × Nat × Bool) n =>
    if x.2.2 then x else if x.2.1 < n then (x.1, x.2.1, true) else (x.1 + 1, x.2.1 - n, false)) (1, a, false)) |> (fun x => (x.1, x.2.1))

/-- An uncorrectable error in a page: a cached extent is dropped and read again when asked for, the voices of ownership entries
end with FAULT; metadata comes back from its drive unchanged (R315).  Entries and extents lie in the order of their tables.
Entry 78, DESIGN CHOICE. -/
def badPage (page : Nat) (c : Chip) : Chip :=
  let r := c.dramRegion (1792 * page)
  match r.1 with
  | 2 =>
    let lo := r.2 / 64
    let hi := (r.2 + 1792 + 63) / 64
    let ids := ((c.hawk.owned.drop lo).take (hi - lo)).map Prod.fst
    forEach ids (fun id c =>
      match c.voiceList.find? (fun x => x.2.id == id) with
      | some (n, _) => modVoice n (fun v => { v with endAt := some (c.frame + 1, 9) }) c
      | none =>
        match tget none c.hawk.owned id with
        | some o => settleNote o.noteOn (disown id (sendLath 1 6 o.chip 0 [id, c.time.stc, 0, 0, 4] c))
        | none => c) c
  | 6 => modHod (fun h => { h with cache := h.cache.take (r.2 / 65536) ++ h.cache.drop ((r.2 + 1791) / 65536 + 1) }) c
  | _ => c

/-- DRAM_SCRUB: the scrub meets a page with an error, correctable or not, or ends a pass. Entry 78, DESIGN CHOICE. -/
def execDramScrub (found : Option (BitVec 26 × Bool)) (s : State) : Host.Outcome State Fault Refusal :=
  s.onChip (fun c =>
    match found with
    | none => bump Obj.memoryDramScrubPasses c
    | some (p, double) =>
      let page := p.toNat
      if Config.dramBytes ≤ 2048 * page ∨ c.retiredPages.contains page then c
      else if double then retirePage page (badPage page (bump Obj.memoryDramUncorrected c))
      else
        let recent := (tget [] c.errs.pages page).filter (fun t => decide (c.now < t + tenSeconds))
        let c := modErrs (fun e => { e with pages := tset [] e.pages page (if 2 ≤ recent.length then [] else c.now :: recent) })
          (bump Obj.memoryDramCorrected c)
        when_ (decide (2 ≤ recent.length)) (retirePage page) c)

/-- The rule of Memory.Dram.Reinstate. -/
def dramReinstateAct : Act := chipAct (fun _ c =>
  (setBlob Obj.memoryDramRetiredList [] (modErrs (fun e => { e with pages := [], degraded := false }) c), St.ok))

/-- DRAM_REINSTATE: all retired pages return. -/
def execDramReinstate (r : Req) (s : State) : Host.Outcome State Fault Refusal :=
  serveRow r Obj.memoryDramReinstate [1] dramReinstateAct s

/-! ### The wipe (R318 to R320) -/

/-- Does an object's key matter: is it encrypted (R281)? -/
def Chip.encrypted (c : Chip) (vol obj : Nat) : Bool :=
  (match c.volumeSlot vol with
   | some s => (tget ({ } : DirEntry) (c.volume s).dir obj).key
   | none => (dirEntry (Config.remoteEntry vol obj)).key) != 0

/-- What Hod does after a wipe (R320). -/
def forgetKeys (c : Chip) : Chip :=
  let cache := c.hod.cache.filter (fun e => !c.encrypted e.volume e.object)
  modHod (fun h => { h with volumes := h.volumes.map (fun v => (v.1, { v.2 with keyless := v.2.keys.map Prod.fst })), cache := cache }) c

/-- A wipe is triggered: it starts, or adds its bit to the one that runs. Entry 79, DEDUCED. -/
def wipeTrigger (cause : Nat) (s : State) : State :=
  if s.dust.state = .wiping then
    { s with chip := setNum Obj.dustSheetLastCause (withBit (s.chip.num Obj.dustSheetLastCause) cause true) s.chip }
  else { s with dust := { s.dust with state := .wiping, repeated := false },
                chip := setNum Obj.dustSheetLastWipeStc (if s.chip.time.stopped then 0 else s.chip.time.stc)
                  (setNum Obj.dustSheetLastCause (2 ^ cause) s.chip) }

/-- WIPE_TRIGGER. -/
def execWipeTrigger (cause : Fin 5) (s : State) : Host.Outcome State Fault Refusal := .next (wipeTrigger cause.val s)

/-- WIPE_COMPLETE: the banks are cleared and read back; `verified` is what the check finds.  A first failure repeats both, a
second locks the key service. Entry 79, DEDUCED. -/
def execWipeComplete (verified : Bool) (s : State) : Host.Outcome State Fault Refusal :=
  if s.dust.state ≠ .wiping then .next s
  else if verified then
    .next { s with dust := { s.dust with keys := [], lost := [], state := .wiped, repeated := false },
                   chip := forgetKeys (snag 0x0501 (s.chip.num Obj.dustSheetLastCause) 0xFF (bump Obj.dustSheetWipes s.chip)) }
  else if s.dust.repeated then
    .next { s with dust := { s.dust with keys := [], lost := [], state := .fault, locked := true, repeated := false },
                   chip := forgetKeys (snag 0x0502 0 0xFF s.chip) }
  else .next { s with dust := { s.dust with repeated := true } }

end Sys2Proof.Machine
end

