-- ==== Sys2Proof/Machine/Images.lean ====
section
/-!
DEFINITION. Firmware images and their checks (R536 to R539, R549).
-/

namespace Sys2Proof.Machine

/-- Boot changes. -/
def modBoot (f : Boot → Boot) (c : Chip) : Chip := { c with boot := f c.boot }

/-- What an image slot holds: what was written, else what the part was delivered with (R536). -/
def Boot.slotBytes (b : Boot) (slot : Nat) : List Byte :=
  let x := if slot = 0 then b.slotA else b.slotB
  if x.isEmpty then Config.deliveredImage slot else x

/-- A slot is written. -/
def setSlot (slot : Nat) (bs : List Byte) (c : Chip) : Chip :=
  modBoot (fun b => if slot = 0 then { b with slotA := bs } else { b with slotB := bs }) c

/-- Key slots that a life-cycle state accepts (R549). -/
def keySlotAccepted (state slot : Nat) : Bool :=
  match state with
  | 0 | 1 => decide (slot < 4)
  | 2 | 3 => decide (slot < 2)
  | _ => false

/-- KEY_SLOT, VERSION, ROLLBACK, LEVEL, LOWEST and BODY_LEN of an image (R537). -/
def imageKeySlot (img : List Byte) : Nat := field img 7 1
def imageVersion (img : List Byte) : Nat := field img 8 4
def imageRollback (img : List Byte) : Nat := field img 0xC 2
def imageLevel (img : List Byte) : Nat := field img 0xE 2
def imageLowest (img : List Byte) : Nat := field img 0x10 2
def imageBodyLen (img : List Byte) : Nat := field img 0x14 4

/-- MAGIC, FORMAT, STEPPING, the reserved octets and BODY_LEN are as R537 says. -/
def imageFormatOk (img : List Byte) : Bool :=
  field img 0 4 == 0x474D4931 && field img 4 2 == 1 && field img 6 1 == 0xA1 &&
  field img 0x12 2 == 0 && slice img 0x48 0x138 == zeros 0x138 && slice img 0x1E0 0x20 == zeros 0x20 &&
  decide (1 ≤ imageBodyLen img) && decide (imageBodyLen img ≤ 8388608) && decide (512 + imageBodyLen img ≤ img.length)

/-- The first failing check of R538, as Boot.Update.Result names it: 0 OK, 1 BAD_FORMAT, 2 KEY_SLOT, 3 SIGNATURE, 4 HASH,
5 ROLLBACK. Entry 90, DEDUCED. -/
def Chip.imageResult (c : Chip) (img : List Byte) : Nat :=
  let body := slice img 512 (imageBodyLen img)
  let key := slice body 0 97
  let k := imageKeySlot img
  if !imageFormatOk img then 1
  else if bit c.boot.revoked k || !keySlotAccepted (c.num Obj.lifecycleState) k then 2
  else if Config.sha384Digest key ≠ Config.fuseKeyHash k then 2
  else if !Config.signatureOk key (Config.sha384Digest (slice img 0 0x180)) (slice img 0x180 96) then 3
  else if slice img 0x18 48 ≠ Config.sha384Digest body then 4
  else if imageRollback img < c.num Obj.bootRollbackFloor then 5
  else 0

/-- A line that Kolef answers (R553). Entry 16, DESIGN CHOICE. -/
def kolefLine (status : Nat) (values : List Nat) (c : Chip) : Chip := emit (.kolef status values) c

/-- Octets of an image transfer arrive; the last one ends it with the slot's result (R555). -/
def imgOctet (b : Byte) (c : Chip) : Chip :=
  match c.boot.img with
  | none => c
  | some x =>
    let x := { x with data := x.data ++ [b], at_ := c.now }
    if x.data.length < x.length then modBoot (fun y => { y with img := some x }) c
    else
      let c := setSlot x.slot x.data (modBoot (fun y => { y with img := none }) c)
      kolefLine St.ok [c.imageResult x.data] c

end Sys2Proof.Machine
end

