-- ==== Sys2Proof/Machine/Serial.lean ====
section
/-!
DEFINITION. The UARTs: characters, flow control, MULTIDROP, HALF_DUPLEX, MIDI, DMX512-A and RDM (R508 to R525, R534).
-/

namespace Sys2Proof.Machine

/-! ### What a UART runs with (R508, R510 to R512, R517) -/

/-- Mode, Divider and Format in force. -/
def Chip.uartCfg (c : Chip) (u : Nat) : Nat × Nat × Nat :=
  (c.uart u).cfg.getD (c.num (Obj.uartMode u), c.num (Obj.uartDivider u), c.num (Obj.uartFormat u))

/-- The Mode in force. -/
def Chip.uartMode (c : Chip) (u : Nat) : Nat := (c.uartCfg u).1

/-- A bit time in ns: 16 sample periods of DIV + FRAC/64 cycles of 10 ns (R508). -/
def Chip.uartBit (c : Chip) (u : Nat) : Nat := (c.uartCfg u).2.1 * 5 / 2

/-- A source of a UART is raised (R511). -/
def uartSource (u k : Nat) (c : Chip) : Chip := emit (.source (192 + 4 * u + k)) c

/-- Is software flow control on (R514)? -/
def Chip.flowOn (c : Chip) (u : Nat) : Bool :=
  c.uartMode u == 1 && c.flag (Obj.uartXonXoff u) && [2, 3].contains ((c.uartCfg u).2.2 % 8)

/-- Uart.Status (R534). Entry 82, DEDUCED. -/
def Chip.uartStatus (c : Chip) (u : Nat) : Nat :=
  let x := c.uart u
  let b (v : Bool) (n : Nat) : Nat := if v then 2 ^ n else 0
  b (decide (c.num (Obj.uartRxTrigger u) ≤ x.rx.length)) 0 + b (decide (x.tx.length ≤ c.num (Obj.uartTxTrigger u))) 1 +
  b x.timeout 2 + b x.paused 3 + b x.xoffSent 4 + b (c.flag (Obj.uartMute u)) 5 + b x.collision 6 + b x.woke 7 +
  256 * min 255 x.rx.length

/-! ### MIDI octet streams (R518, R520) -/

/-- Data octets that follow a status; 2^16 for a system exclusive message. -/
def midiLength (st : Nat) : Nat :=
  if st = 0xF0 then 65536
  else if st = 0xF2 then 2
  else if st = 0xF1 ∨ st = 0xF3 then 1
  else if 0xF0 ≤ st then 0
  else if 0xC0 ≤ st ∧ st < 0xE0 then 1
  else 2

/-- Running status and data octets still to come, after one more octet. Entry 84, DEDUCED. -/
def midiTrack (b : Nat) (t : Nat × Nat) : Nat × Nat :=
  if 0xF8 ≤ b then t
  else if 0x80 ≤ b then (if b < 0xF0 then b else 0, midiLength b)
  else if t.2 = 65536 then t
  else if 0 < t.2 then (t.1, t.2 - 1)
  else if t.1 ≠ 0 then (t.1, midiLength t.1 - 1)
  else t

/-! ### The transmitter (R510, R514, R517, R520) -/

/-- The next octet of the own queue in mode MIDI. -/
def Uart.nextOwn (x : Uart) : Option (Nat × Nat × Uart) :=
  match x.tx with
  | [] => none
  | e :: r => some (e, 0, { x with tx := r, outTrack := if e < 256 then midiTrack e x.outTrack else x.outTrack })

/-- The next thru octet of a UART. -/
def Uart.nextThru (x : Uart) (s : Nat) : Option (Nat × Nat × Uart) :=
  match findFrom (fun (y : Nat × Nat) => y.1 == s) 0 x.thru with
  | none => none
  | some (i, _, b) =>
    let t := midiTrack b x.thruTrack
    some (b, 2, { x with thru := x.thru.eraseIdx i, thruTrack := t, thruFrom := if t.2 = 0 then none else some s })

/-- What mode MIDI sends next: real-time octets first; a message that has begun ends before another begins (R520). -/
def Uart.nextMidi (x : Uart) : Option (Nat × Nat × Uart) :=
  match x.realTime with
  | b :: r => some (b, 3, { x with realTime := r })
  | [] =>
    if x.outTrack.2 ≠ 0 then x.nextOwn
    else match x.thruFrom with
      | some s => x.nextThru s
      | none => match x.thru with
        | (s, _) :: _ => x.nextThru s
        | [] => x.nextOwn

/-- What a UART sends next: the character, whether it is 0 of the queue, 1 flow control or 2, 3 thru, and what is left. -/
def Uart.next (x : Uart) (mode : Nat) : Option (Nat × Nat × Uart) :=
  match x.flow with
  | some f => some (f, 1, { x with flow := none, xoffSent := f == 0x13 })
  | none =>
    if x.paused then none
    else if mode = 4 then x.nextMidi
    else match x.tx with
      | [] => none
      | e :: r => some (e, 0, { x with tx := r })

/-- Start the next character if none is in progress; DE falls DeHold bits after the last one (R517). Entry 83, DEDUCED. -/
def startNext (u : Nat) (c : Chip) : Chip :=
  let x := c.uart u
  let m := c.uartMode u
  if x.sending.isSome || x.retry.isSome || m == 0 || decide (5 ≤ m) then c
  else match x.next m with
    | none =>
      when_ (x.deUntil == noTerm) (modUart u (fun y => { y with deUntil := c.now + c.num (Obj.uartDeHold u) * c.uartBit u })) c
    | some (e, k, y) =>
      let c := modUart u (fun _ => { y with sending := some e, attempts := 0, deUntil := if u = 0 then 0 else noTerm }) c
      when_ (k == 0 && y.tx.length == c.num (Obj.uartTxTrigger u)) (uartSource u 1) c

/-- An own XON or XOFF becomes due; only the later of two is sent (R514). Entry 83, DEDUCED. -/
def flowDue (u ch : Nat) (c : Chip) : Chip := startNext u (modUart u (fun x => { x with flow := some ch }) c)

/-! ### Mode, Divider and Format (R512, R513) -/

/-- A waiting write takes effect: both queues are discarded and the port starts afresh. Entry 82, DEDUCED. -/
def applyUart (u : Nat) (c : Chip) : Chip :=
  modUart u (fun x => { ({ } : Uart) with
    autobaud := x.autobaud, woke := x.woke, overrunAt := x.overrunAt, droppedAt := x.droppedAt
    deUntil := if x.deUntil = noTerm then 0 else x.deUntil }) c

/-- Only masters 0x00 and 0x01 write the objects of UART0 (R512). Entry 83, DEDUCED. -/
def uartMay (u m : Nat) : Bool := u != 0 || decide (m ≤ 1)

/-- Is the value one that the object takes (R508, R512, R534)? Entry 83, DEDUCED. -/
def uartCfgStatus (c : Chip) (u object v : Nat) : Nat :=
  match object with
  | 0 => if u = 0 ∧ v ≠ 1 then St.refused else St.ok
  | 1 => if v < 64 ∨ 2 ^ 22 ≤ v then St.badValue else St.ok
  | _ =>
    if u = 0 ∧ v ≠ 3 then St.refused
    else if 4 < v % 8 ∨ 4 < v / 8 % 8 ∨ 128 ≤ v ∨ (v % 8 = 4 ∧ c.num (Obj.uartMode u) ≠ 2) then St.badValue
    else St.ok

/-- The rule of Mode, Divider and Format: objects 0, 1 and 2. -/
def uartCfgAct (u object v : Nat) : Act := actWhen (fun m c => if uartMay u m then uartCfgStatus c u object v else St.noAccess)
  (fun _ c =>
    let old := c.uartCfg u
    let c := setNum (Obj.uartMode u + object) v c
    if (c.uart u).sending.isSome then modUart u (fun x => { x with cfg := some old }) c else applyUart u c)

/-- UART_MODE. -/
def execUartMode (r : Req) (u : Fin 4) (object : Fin 3) (v : BitVec 32) (s : State) : Host.Outcome State Fault Refusal :=
  serveRow r (Obj.uartMode u.val + object.val) (leBytes (if object.val = 1 then 4 else 1) v.toNat)
    (uartCfgAct u.val object.val (if object.val = 1 then v.toNat else v.toNat % 256)) s

/-- Autobaud measures the start bit (R513): a rate in range whose character reads 0x0D is kept. Entry 83, DEDUCED. -/
def autobaud (x : RxChar) (c : Chip) : Chip :=
  let d := 4 * x.low
  if (c.uart 0).autobaud ∧ !x.brk ∧ d ≠ 0 ∧ d * 9600 ≤ 400000000 ∧ 400000000 ≤ d * 921600 ∧ x.data.toNat = 0x0D then
    setNum (Obj.uartDivider 0) d (modUart 0 (fun y => { y with autobaud := false }) c)
  else c

/-! ### The receiver (R509, R510, R514 to R516) -/

/-- A character joins the receive queue, or is discarded when that is full (R510). Entry 82, DEDUCED. -/
def storeChar (u e : Nat) (c : Chip) : Chip :=
  let x := c.uart u
  if 128 ≤ x.rx.length then
    let n := x.discarded + 1
    let c := bump (Obj.uartCountersOverruns u) (modUart u (fun y => { y with lost := true, discarded := n }) c)
    if secondSince c x.overrunAt then
      snagWith 0x0610 u 0xFF 0xFFFF n (modUart u (fun y => { y with overrunAt := some c.now, discarded := 0 }) c)
    else c
  else
    let e := if x.lost then e + 8192 else e
    let n := x.rx.length + 1
    let c := modUart u (fun y => { y with rx := y.rx ++ [e], lost := false, timeout := false }) c
    let c := when_ (n == c.num (Obj.uartRxTrigger u)) (uartSource u 0) c
    let c := when_ (bit e 9 || bit e 10 || bit e 13) (uartSource u 2) c
    when_ (c.flowOn u && n == c.num (Obj.uartXoffLevel u)) (flowDue u 0x13) c

/-- The receive entry of a character (R510). -/
def rxEntry (x : RxChar) (format : Nat) (address : Bool) : Nat :=
  let d := if x.brk then 0 else if format % 8 = 4 then x.data.toNat else x.data.toNat % 2 ^ (5 + format % 8)
  d + (if x.parity then 512 else 0) + (if x.framing then 1024 else 0) + (if x.brk then 2048 else 0) +
    (if x.noise then 4096 else 0) + (if address then 16384 else 0)

/-- Does an address character match (R515)? -/
def Chip.addressed (c : Chip) (u d : Nat) : Bool := ((d ^^^ c.num (Obj.uartAddress u)) &&& c.num (Obj.uartAddrMask u)) % 256 == 0

/-! ### MIDI received (R518 to R520) -/

/-- An entry of an internal producer: tick, IMMEDIATE, HANDLE and the words of the UMP; SEQ is given at dispatch (R519). -/
def madeEntry (tick : Option Nat) (handle w0 w1 : Nat) : List Byte :=
  leBytes 8 (tick.getD 0) ++ zeros 1 ++ leBytes 1 (if tick.isNone then 1 else 0) ++ leBytes 2 handle ++ zeros 4 ++
    leBytes 4 w0 ++ leBytes 4 w1 ++ zeros 8

/-- A converted message goes to the bound ESQ (R519). -/
def midiMessage (u st d1 d2 : Nat) (c : Chip) : Chip :=
  let t := c.num (Obj.uartMidiTenant u)
  let delay := c.num (Obj.uartMidiDelayTicks u)
  let w := 2 * 2 ^ 28 + c.num (Obj.uartMidiGroup u) % 16 * 2 ^ 24 + st * 65536 + d1 * 256 + d2
  if t < 16 then
    produce (qix t (c.num (Obj.uartMidiQueue u) % 8)) u
      (madeEntry (if delay = 0 then none else some (c.time.stc + delay)) (c.num (Obj.uartMidiHandle u)) w 0) c
  else c

/-- One octet of a MIDI stream (R518). Entry 84, DEDUCED. -/
def midiOctet (u b : Nat) (c : Chip) : Chip :=
  let x := c.uart u
  let t := midiTrack b x.track
  let ignore : Chip → Chip := bump (Obj.uartMidiIgnored u)
  if 0xF8 ≤ b then ignore c
  else
    let c := modUart u (fun y => { y with track := t, data := if 0x80 ≤ b ∨ x.track.2 = 0 then [] else y.data }) c
    if 0x80 ≤ b then when_ (decide (0xF0 ≤ b) && !(b == 0xF7 && x.track.2 == 65536)) ignore c
    else if x.track.1 = 0 then when_ (x.track.2 == 0) ignore c
    else
      let d := (c.uart u).data ++ [b]
      let c := modUart u (fun y => { y with data := d }) c
      if t.2 = 0 then midiMessage u t.1 (d.headD 0) ((d.drop 1).headD 0) c else c

/-- A received octet goes out on the thru UART (R520). -/
def midiThru (u b : Nat) (c : Chip) : Chip :=
  let v := c.num (Obj.uartMidiThru u)
  if 1 ≤ v ∧ v < 4 ∧ v ≠ u ∧ c.uartMode v = 4 then
    startNext v (modUart v (fun y =>
      if 0xF8 ≤ b then { y with realTime := y.realTime ++ [b] } else { y with thru := y.thru ++ [(u, b)] }) c)
  else c

/-! ### DMX512-A and RDM (R521 to R524); the RDM message and discovery forms are those of ANSI E1.20 -/

/-- The sum of octets, as RDM checks a message. Entry 28, PRESUMED. -/
def rdmSum (bs : List Byte) : Nat := (bs.map BitVec.toNat).sum % 65536

/-- A number of 16 bits, most significant octet first. -/
def beWord (v : Nat) : List Byte := [BitVec.ofNat 8 (v / 256), BitVec.ofNat 8 v]

/-- Is the message whole, and does its checksum agree: 0xCC, 0x01, length, ..., checksum? Entry 28, PRESUMED. -/
def rdmWhole (bs : List Byte) : Bool := decide (3 ≤ bs.length) && bs.length == field bs 2 1 + 2
/-- Does its checksum agree? -/
def rdmValid (bs : List Byte) : Bool :=
  rdmWhole bs && decide (24 ≤ field bs 2 1) && slice bs (field bs 2 1) 2 == beWord (rdmSum (bs.take (field bs 2 1)))

/-- An octet of a discovery response, in two. Entry 28, PRESUMED. -/
def rdmSpread (b : Byte) : List Byte := [b ||| 0xAA, b ||| 0x55]

/-- The encoded discovery response of a UID. -/
def rdmDiscovery (uid : List Byte) : List Byte :=
  let e := uid.flatMap rdmSpread
  List.replicate 7 0xFE ++ [0xAA] ++ e ++ (beWord (rdmSum e)).flatMap rdmSpread

/-- Is what was captured a valid discovery response, its preamble cut short or not? Entry 28, PRESUMED. -/
def rdmDiscoveryValid (bs : List Byte) : Bool :=
  let e := (bs.dropWhile (· == 0xFE)).drop 1
  decide ((bs.takeWhile (· == 0xFE)).length ≤ 7) && (bs.dropWhile (· == 0xFE)).head? == some 0xAA && e.length == 16 &&
    (upTo 2).all (fun i =>
      (e.getD (12 + 2 * i) 0 &&& e.getD (13 + 2 * i) 0) == (beWord (rdmSum (e.take 12))).getD i 0)

/-- The ACK of a discovery command: the answer to `req` from `uid`. Entry 28, PRESUMED. -/
def rdmAck (req uid : List Byte) : List Byte :=
  let body := [0xCC, 0x01, 26] ++ slice req 9 6 ++ uid ++ slice req 15 1 ++ [0, 0] ++ slice req 18 2 ++ [0x11] ++ slice req 21 2 ++
    [2, 0, 0]
  body ++ beWord (rdmSum body)

/-- A slot's value at a break: 8-bit, or either octet of a 16-bit binding; idle where no voice has driven it (R137, R138, R521).
Entry 85, DEDUCED. -/
def Chip.dmxSlot (c : Chip) (u n : Nat) : Byte :=
  let idle := (c.blob (Obj.stippleDmxIdle (u - 1))).getD (n - 1) 0
  let at_ (ix : Nat) : Option Int :=
    let key := targetKey 2 (4096 * u + ix)
    if tget false c.stipple.idled key && c.num (Obj.stippleDmxOnEnd (u - 1)) == 1 then none else c.targetAt key c.time.stc
  match at_ n with
  | some o => BitVec.ofInt 8 (shrFloor o 7)
  | none => match at_ (n + 1024) with
    | some o => BitVec.ofInt 8 (shrFloor o 7)
    | none => match at_ (n - 1 + 1024) with
      | some o => if n = 1 then idle else BitVec.ofInt 8 (2 * o)
      | none => idle

/-- Break, mark and octets of a packet of `n` octets, in ns (R521). Entry 28, PRESUMED. -/
def Chip.packetNs (c : Chip) (u n : Nat) : Nat :=
  (c.num (Obj.uartDmxBreakUs u) + c.num (Obj.uartDmxMabUs u) + 44 * n) * 1000

/-- DMX_PACKET: the period is over and no RDM transaction runs (R521, R523). -/
def execDmxPacket (u : Fin 4) (s : State) : Host.Outcome State Fault Refusal :=
  s.onChip (fun c =>
    let k := u.val
    let due := match (c.uart k).dmxAt with
      | none => true
      | some t => decide (t + c.num (Obj.uartDmxPeriodUs k) * 1000 ≤ c.now)
    if c.uartMode k = 5 ∧ due = true ∧ c.num (Obj.uartRdmStatus k) ≠ 1 then
      emit (.packet k (c.num (Obj.uartDmxBreakUs k)) (c.num (Obj.uartDmxMabUs k))
        (BitVec.ofNat 8 (c.num (Obj.uartDmxStartCode k)) ::
          (upTo (c.num (Obj.uartDmxSlots k))).map (fun i => c.dmxSlot k (i + 1))))
        (modUart k (fun x => { x with dmxAt := some c.now }) c)
    else c)

/-- A received packet ends (R522). -/
def endPacket (u : Nat) (c : Chip) : Chip :=
  let x := c.uart u
  if x.dmxOpen && !x.dmxBuf.isEmpty && !x.dmxBad && x.dmxBuf.head? != some 0xCC then
    bump (Obj.uartDmxPackets u) (setBlob (Obj.uartDmxRxData u) x.dmxBuf c)
  else c

/-- DMX_BREAK: a break of at least 88 us and a mark of at least 8 us. -/
def execDmxBreak (u : Fin 4) (s : State) : Host.Outcome State Fault Refusal :=
  s.onChip (fun c =>
    if c.uartMode u.val = 6 then
      modUart u.val (fun x => { x with dmxOpen := true, dmxBuf := [], dmxBad := false }) (endPacket u.val c)
    else c)

/-- DMX_IDLE: 1 ms of idle line. -/
def execDmxIdle (u : Fin 4) (s : State) : Host.Outcome State Fault Refusal :=
  s.onChip (fun c =>
    if c.uartMode u.val = 6 then
      modUart u.val (fun x => { x with dmxOpen := false, dmxBuf := [], dmxBad := false }) (endPacket u.val c)
    else c)

/-- A whole RDM request reaches the responder (R524). Entry 85, DEDUCED. -/
def rdmRequest (u : Nat) (req : List Byte) (c : Chip) : Chip :=
  let uid := slice (c.blob (Obj.uartRdmUid u)) 0 6
  let dest := slice req 3 6
  let mine := dest == uid
  let all := dest == List.replicate 6 0xFF || dest == uid.take 2 ++ List.replicate 4 0xFF
  let discovery := field req 20 1 == 0x10
  let pid := (req.getD 21 0).toNat * 256 + (req.getD 22 0).toNat
  let big (l : List Byte) : Nat := leNat l.reverse
  let answer (a : Option (Bool × List Byte)) : Chip → Chip :=
    modUart u (fun x => { x with answer := a, request := some c.now, response := none })
  if discovery && pid == 1 then
    (if (mine || all) && !c.flag (Obj.uartRdmMuted u) && decide (big (slice req 24 6) ≤ big uid) &&
        decide (big uid ≤ big (slice req 30 6)) then answer (some (false, rdmDiscovery uid)) c else c)
  else if discovery && (pid == 2 || pid == 3) then
    (if mine || all then
      when_ mine (answer (some (true, rdmAck req uid))) (setNum (Obj.uartRdmMuted u) (if pid = 2 then 1 else 0) c)
    else c)
  else if mine then answer none (setBlob (Obj.uartRdmInbox u) req c)
  else c

/-- An octet in mode DMX_RX. Entry 85, DEDUCED. -/
def dmxOctet (u : Nat) (b : Byte) (framing : Bool) (c : Chip) : Chip :=
  let x := c.uart u
  if !x.dmxOpen || decide (513 ≤ x.dmxBuf.length) then c
  else
    let buf := x.dmxBuf ++ [b]
    let bad := x.dmxBad || framing
    let c := modUart u (fun y => { y with dmxBuf := buf, dmxBad := bad }) c
    when_ (c.flag (Obj.uartRdmResponder u) && buf.head? == some 0xCC && !bad && rdmValid buf) (rdmRequest u buf) c

/-- RDM_RESPONSE: 200 us after a request the answer goes out: its own, or one that waits in the outbox (R524). -/
def execRdmResponse (u : Fin 4) (s : State) : Host.Outcome State Fault Refusal :=
  s.onChip (fun c =>
    let k := u.val
    let x := c.uart k
    match x.request with
    | none => c
    | some t =>
      if c.uartMode k ≠ 6 ∨ c.now < t + 200000 then c
      else match x.answer, x.response with
        | some (brk, bs), _ =>
          emit (.packet k (if brk then 176 else 0) (if brk then 12 else 0) bs)
            (modUart k (fun y => { y with answer := none, request := none }) c)
        | none, some bs => emit (.packet k 176 12 bs) (modUart k (fun y => { y with response := none, request := none }) c)
        | none, none => c)

/-- The rule of Uart.Rdm.Outbox (R524). Entry 85, DEDUCED. -/
def rdmOutboxAct (u : Nat) (bs : List Byte) : Act := fun m s =>
  let c := s.chip
  let x := c.uart u
  if !uartMay u m then (s, St.noAccess)
  else if c.uartMode u ≠ 6 ∨ !c.flag (Obj.uartRdmResponder u) ∨ x.answer.isSome then (s, St.refused)
  else match x.request with
    | none => (s, St.refused)
    | some t =>
      let late := (c.now - t) / 1000
      if 1800000 < c.now - t then ({ s with chip := snagWith 0x0613 u 0xFF 0xFFFF late c }, St.ok)
      else if 200000 ≤ c.now - t then
        ({ s with chip := emit (.packet u 176 12 bs) (modUart u (fun y => { y with response := none, request := none }) c) }, St.ok)
      else ({ s with chip := modUart u (fun y => { y with response := some bs }) c }, St.ok)

/-- RDM_OUTBOX. -/
def execRdmOutbox (r : Req) (u : Fin 4) (message : List Byte) (s : State) : Host.Outcome State Fault Refusal :=
  serveRow r (Obj.uartRdmOutbox u.val) message (rdmOutboxAct u.val message) s

/-- The rule of Uart.Rdm.Request (R523): it leaves at the end of the DMX packet that is being sent. -/
def rdmRequestAct (u : Nat) (bs : List Byte) : Act := actWhen
  (fun m c => if !uartMay u m then St.noAccess else if c.uartMode u ≠ 5 then St.refused
    else if c.num (Obj.uartRdmStatus u) = 1 then St.busy else St.ok)
  (fun _ c =>
    let busy := match (c.uart u).dmxAt with
      | some t => t + c.packetNs u (c.num (Obj.uartDmxSlots u) + 1)
      | none => 0
    let c := setBlob (Obj.uartRdmReply u) [] (setNum (Obj.uartRdmStatus u) 1 c)
    let c := modUart u (fun x => { x with rdmEnd := max c.now busy + c.packetNs u bs.length, capture := none }) c
    emit (.packet u (c.num (Obj.uartDmxBreakUs u)) (c.num (Obj.uartDmxMabUs u)) bs) c)

/-- RDM_REQUEST. -/
def execRdmRequest (r : Req) (u : Fin 4) (message : List Byte) (s : State) : Host.Outcome State Fault Refusal :=
  serveRow r (Obj.uartRdmRequest u.val) message (rdmRequestAct u.val message) s

/-- A captured reply ends: REPLY, or COLLISION for a framing error or a wrong checksum. Entry 85, DEDUCED. -/
def endReply (u : Nat) (brk : Bool) (bs : List Byte) (bad : Bool) (c : Chip) : Chip :=
  let ok := !bad && (if brk then rdmValid bs else rdmDiscoveryValid bs)
  setBlob (Obj.uartRdmReply u) bs (setNum (Obj.uartRdmStatus u) (if ok then 2 else 4) (modUart u (fun x => { x with capture := none }) c))

/-- A character while the controller awaits a reply. -/
def rdmOctet (u : Nat) (x : RxChar) (c : Chip) : Chip :=
  if c.num (Obj.uartRdmStatus u) ≠ 1 then c
  else if x.brk then
    (if (c.uart u).capture.isNone then modUart u (fun y => { y with capture := some (true, [], false) }) c else c)
  else
    let p := (c.uart u).capture.getD (false, [], false)
    let bs := p.2.1 ++ [BitVec.ofNat 8 x.data.toNat]
    let bad := p.2.2 || x.framing
    if p.1 && rdmWhole bs then endReply u true bs bad c
    else modUart u (fun y => { y with capture := some (p.1, bs, bad) }) c

/-- RDM_TIMEOUT: no reply has begun 2,800 us after the request. -/
def execRdmTimeout (u : Fin 4) (s : State) : Host.Outcome State Fault Refusal :=
  s.onChip (fun c =>
    let x := c.uart u.val
    if c.num (Obj.uartRdmStatus u.val) = 1 ∧ x.capture.isNone ∧ x.rdmEnd + 2800000 ≤ c.now then
      setNum (Obj.uartRdmStatus u.val) 3 c
    else c)

/-- RDM_REPLY_IDLE: 88 us of idle line end the capture. -/
def execRdmReplyIdle (u : Fin 4) (s : State) : Host.Outcome State Fault Refusal :=
  s.onChip (fun c =>
    if c.num (Obj.uartRdmStatus u.val) = 1 then
      (match (c.uart u.val).capture with
        | some (brk, bs, bad) => endReply u.val brk bs bad c
        | none => c)
    else c)

/-! ### Characters -/

/-- A character in STANDBY (R525): a matching address wakes a slow MULTIDROP port and is stored; on any other port that may wake
the chip the character is lost. -/
def standbyChar (u : Nat) (x : RxChar) (c : Chip) : Chip :=
  if !c.flag (Obj.uartWakeEnable u) then c
  else
    let d := x.data.toNat
    if c.uartMode u = 2 ∧ 400000000 ≤ 9600 * (c.uartCfg u).2.1 then
      (if !x.brk && bit d 8 && c.addressed u d then
        uartSource u 3 (storeChar u (rxEntry x (c.uartCfg u).2.2 true)
          (setNum (Obj.uartMute u) 0 (modUart u (fun y => { y with woke := true }) c)))
      else c)
    else if c.uartMode u = 0 then c
    else
      uartSource u 3 (snag 0x0618 u 0xFF (bump (Obj.uartCountersWakeLost u)
        (modUart u (fun y => { y with woke := true, lost := true }) c)))

/-- A character that is not consumed by the mode is stored. Entry 82, DEDUCED. -/
def receiveChar (u : Nat) (x : RxChar) (c : Chip) : Chip :=
  let m := c.uartMode u
  let f := (c.uartCfg u).2.2
  let d := x.data.toNat
  let c := when_ x.parity (bump (Obj.uartCountersParity u)) c
  let c := when_ x.framing (bump (Obj.uartCountersFraming u)) c
  let c := when_ x.brk (bump (Obj.uartCountersBreaks u)) c
  if c.flowOn u && !x.parity && !x.framing && !x.brk && (d % 2 ^ (5 + f % 8) == 0x13 || d % 2 ^ (5 + f % 8) == 0x11) then
    (if d % 2 ^ (5 + f % 8) = 0x13 then modUart u (fun y => { y with paused := true }) c
     else startNext u (modUart u (fun y => { y with paused := false }) c))
  else if m = 2 ∧ !x.brk then
    (if bit d 8 then
      (if c.addressed u d then storeChar u (rxEntry x f true) (setNum (Obj.uartMute u) 0 c) else setNum (Obj.uartMute u) 1 c)
     else if c.flag (Obj.uartMute u) then c
     else storeChar u (rxEntry x f false) c)
  else
    let c := storeChar u (rxEntry x f false) c
    match m with
    | 4 => if x.brk then c else midiThru u (d % 256) (midiOctet u (d % 256) c)
    | 5 => rdmOctet u x c
    | 6 => if x.brk then c else dmxOctet u (BitVec.ofNat 8 d) x.framing c
    | _ => c

/-- The names of Kolef's commands, in the order of R555: ID, RD, WR, LOG, STC, RESET, IMG, LC, HELP. -/
def kolefNames : List (List Nat) :=
  [[0x49, 0x44], [0x52, 0x44], [0x57, 0x52], [0x4C, 0x4F, 0x47], [0x53, 0x54, 0x43], [0x52, 0x45, 0x53, 0x45, 0x54],
   [0x49, 0x4D, 0x47], [0x4C, 0x43], [0x48, 0x45, 0x4C, 0x50]]

/-- The line that UART0 is receiving: what it holds after the last 0x0D. -/
def Chip.kolefHeld (c : Chip) : List Nat := (((c.uart 0).rx.map (· % 256)).reverse.takeWhile (· != 0x0D)).reverse

/-- Is a line, without its 0x0D, one that a row of Kolef's reads (R553, R555)? It begins with a command's name and has up to 128
characters; an empty line is no command (entry 16, DEDUCED). -/
def kolefKnown (l : List Nat) : Bool :=
  l.isEmpty || (decide (l.length < 128) && kolefNames.contains (l.takeWhile (· != 0x20)))

/-- Does this character end a line of Kolef's that is no command? Entry 16, DESIGN CHOICE. -/
def endsBadLine (x : RxChar) (c : Chip) : Bool :=
  c.uartMode 0 == 1 && !x.brk && x.data.toNat == 0x0D && !kolefKnown c.kolefHeld

/-- ER BAD_REQUEST answers the line that `c` holds, and the line is gone (R555). Entry 16, DESIGN CHOICE. -/
def badLine (c c' : Chip) : Chip :=
  kolefLine St.badRequest []
    (modUart 0 (fun y => { y with rx := (c.uart 0).rx.take ((c.uart 0).rx.length - c.kolefHeld.length) }) c')

/-- CHARACTER_RECEIVED. -/
def execCharacterReceived (u : Fin 4) (x : RxChar) (s : State) : Host.Outcome State Fault Refusal :=
  s.onChip (fun c =>
    let k := u.val
    if c.num Obj.powerState = 2 then standbyChar k x c
    else if c.uartMode k = 0 then c
    else if k = 0 ∧ c.boot.img.isSome ∧ !x.brk then imgOctet (BitVec.ofNat 8 x.data.toNat) c
    else
      let c := if k = 0 then (if x.brk then modUart 0 (fun y => { y with autobaud := true }) c else autobaud x c) else c
      if k = 0 ∧ endsBadLine x c then badLine c (receiveChar k x c) else receiveChar k x c)

/-- RX_TIMEOUT: 4 character times of idle line. Entry 82, DEDUCED. -/
def execRxTimeout (u : Fin 4) (s : State) : Host.Outcome State Fault Refusal :=
  s.onChip (fun c =>
    if (c.uart u.val).rx.isEmpty then c
    else uartSource u.val 0 (modUart u.val (fun x => { x with timeout := true }) c))

/-- A collision of the character in progress (R516). -/
def collide (u e : Nat) (c : Chip) : Chip :=
  let x := c.uart u
  let c := uartSource u 2 (modUart u (fun y => { y with collision := true, sending := none }) c)
  if x.attempts < c.num (Obj.uartRetries u) then
    modUart u (fun y => { y with attempts := y.attempts + 1, retry := some e }) c
  else
    startNext u (snagWith 0x0611 u 0xFF 0xFFFF (x.tx.length + 1) (bump (Obj.uartCountersCollisions u)
      (modUart u (fun y => { y with tx := [], attempts := 0 }) c)))

/-- CHARACTER_SENT: the character in progress ends, or collides. -/
def execCharacterSent (u : Fin 4) (collision : Bool) (s : State) : Host.Outcome State Fault Refusal :=
  s.onChip (fun c =>
    let k := u.val
    match (c.uart k).sending with
    | none => c
    | some e =>
      let c := if collision && c.uartMode k == 3 then collide k e c
        else emit (.serial k e) (modUart k (fun x => { x with sending := none, attempts := 0 }) c)
      if (c.uart k).cfg.isSome then applyUart k c else startNext k c)

/-- RETRY_BACKOFF: the line has been idle for the backoff. -/
def execRetryBackoff (u : Fin 4) (s : State) : Host.Outcome State Fault Refusal :=
  s.onChip (fun c => modUart u.val (fun x => match x.retry with
    | some e => { x with retry := none, sending := some e, deUntil := noTerm }
    | none => x) c)

/-- The entries in octets. -/
def txEntries (bs : List Byte) : List Nat := (upTo (bs.length / 2)).map (fun i => field bs (2 * i) 2)

/-- The rule of Uart.Tx (R510). -/
def uartTxAct (u : Nat) (bs : List Byte) : Act := actWhen
  (fun m c => if !uartMay u m then St.noAccess else if bs.length % 2 ≠ 0 then St.badLength
    else if 128 < (c.uart u).tx.length + bs.length / 2 then St.busy else St.ok)
  (fun _ c => startNext u (modUart u (fun x => { x with tx := x.tx ++ txEntries bs }) c))

/-- UART_TX. -/
def execUartTx (r : Req) (u : Fin 4) (entries : List (BitVec 16)) (s : State) : Host.Outcome State Fault Refusal :=
  let bs := entries.flatMap (fun e => leBytes 2 e.toNat)
  serveRow r (Obj.uartTx u.val) bs (uartTxAct u.val bs) s

/-- A read of Uart.Rx from an octet on: what is returned, whether more is left, and the entries gone (R510, R514). -/
def uartRead (u off lim : Nat) (c : Chip) : Reply × Chip :=
  let all := (c.uart u).rx.flatMap (leBytes 2)
  if all.length < off then ({ status := St.badRequest }, c)
  else
    let out := (all.drop off).take lim
    let gone (i : Nat) : Bool := decide (off ≤ 2 * i) && decide (2 * i + 2 ≤ off + out.length)
    let left := ((c.uart u).rx.zipIdx.filter (fun x => !gone x.2)).map Prod.fst
    let level := c.num (Obj.uartXonLevel u)
    let xon := c.flowOn u && decide (level < (c.uart u).rx.length) && decide (left.length ≤ level)
    let c := modUart u (fun x => { x with rx := left, timeout := x.timeout && !left.isEmpty }) c
    ({ status := St.ok, data := out, more := decide (off + out.length < all.length) }, when_ xon (flowDue u 0x11) c)

/-- UART_RX_READ: a READ of Uart.Rx. -/
def execUartRxRead (r : Req) (u : Fin 4) (offset : BitVec 32) (s : State) : Host.Outcome State Fault Refusal :=
  .next (serve r.path (readMsg r (Obj.uartRx u.val) offset.toNat) (fun m s =>
    if mayReadArea s.chip m (Obj.uartRx u.val) then
      let x := uartRead u.val offset.toNat (pathLimit r.path) s.chip
      ({ s with chip := x.2 }, x.1)
    else (s, { status := St.noAccess })) s)

/-- The rule of Uart.Mute (R515). -/
def muteAct (u v : Nat) : Act := actWhen (fun m _ => if uartMay u m then St.ok else St.noAccess)
  (fun _ c => setNum (Obj.uartMute u) v c)

/-- MUTE: Uart.Mute 1. -/
def execUartMute (r : Req) (u : Fin 4) (s : State) : Host.Outcome State Fault Refusal :=
  serveRow r (Obj.uartMute u.val) [1] (muteAct u.val 1) s

/-! ### Binding to an ESQ (R519, R532) -/

/-- May a producer be bound to tenant `t`'s queue `q`; `old` is the queue it leaves, if it had one? -/
def bindStatus (c : Chip) (m t q : Nat) (old : Option Nat) : Nat :=
  let i := qix t (q % 8)
  if t < 16 then
    (if !c.may 0x16 i m 1 then St.noAccess
     else if (c.queue i).state ≠ .running ∨ (c.queue i).head ≠ (c.queue i).tail then St.busy
     else St.ok)
  else match old with
    | some j => if c.may 0x16 j m 1 then St.ok else St.noAccess
    | none => St.ok

/-- The queue that two objects name. -/
def Chip.boundQueue (c : Chip) (ot oq : Nat) : Option Nat :=
  if c.num ot < 16 then some (qix (c.num ot) (c.num oq % 8)) else none

/-- The rule of Uart.Midi.Tenant and .Queue (R519). Entry 67, DESIGN CHOICE. -/
def midiBindAct (u : Nat) (queue : Bool) (v : Nat) : Act := actWhen
  (fun m c =>
    if !uartMay u m then St.noAccess
    else
      let t := if queue then c.num (Obj.uartMidiTenant u) else v
      let q := if queue then v else c.num (Obj.uartMidiQueue u)
      bindStatus c m t q (c.boundQueue (Obj.uartMidiTenant u) (Obj.uartMidiQueue u)))
  (fun _ c => setNum (if queue then Obj.uartMidiQueue u else Obj.uartMidiTenant u) v c)

/-- MIDI_BIND. -/
def execMidiBind (r : Req) (u : Fin 4) (queue : Bool) (v : Byte) (s : State) : Host.Outcome State Fault Refusal :=
  serveRow r (if queue then Obj.uartMidiQueue u.val else Obj.uartMidiTenant u.val) [v] (midiBindAct u.val queue v.toNat) s

/-- The rule of Sense.Tenant and .Queue (R532): the value sent last is forgotten. -/
def senseBindAct (n : Nat) (queue : Bool) (v : Nat) : Act := actWhen
  (fun m c =>
    let t := if queue then c.num (Obj.senseTenant n) else v
    let q := if queue then v else c.num (Obj.senseQueue n)
    bindStatus c m t q (c.boundQueue (Obj.senseTenant n) (Obj.senseQueue n)))
  (fun _ c => modPorts (fun p => { p with senses := tmod {} p.senses n (fun x => { x with sent := none }) })
    (setNum (if queue then Obj.senseQueue n else Obj.senseTenant n) v c))

/-! ### Other objects of a UART (R514, R521, R534) -/

/-- Packet timing objects: the period holds the packet (R521). -/
def dmxTimingAct (u o v : Nat) : Act := actWhen
  (fun m c =>
    if !uartMay u m then St.noAccess
    else
      let c := setNum o v c
      let p := c.num (Obj.uartDmxPeriodUs u)
      if p * 1000 < c.packetNs u (c.num (Obj.uartDmxSlots u) + 1) ∨ 1000000 < p then St.badValue else St.ok)
  (fun _ c => setNum o v c)

/-- XoffLevel and XonLevel (R514). -/
def xonLevelAct (u o v : Nat) : Act := actWhen
  (fun m c =>
    if !uartMay u m then St.noAccess
    else
      let c := setNum o v c
      if c.num (Obj.uartXonLevel u) < c.num (Obj.uartXoffLevel u) then St.ok else St.badValue)
  (fun _ c => setNum o v c)

/-- Every other object of a UART. -/
def uartAct (u o : Nat) (data : List Byte) : Act := actWhen (fun m _ => if uartMay u m then St.ok else St.noAccess)
  (fun _ c => storeValue o data c)

end Sys2Proof.Machine
end

