-- ==== Sys2Proof/Machine/Sense.lean ====
section
/-!
DEFINITION. CV outputs, sense inputs and TDM ports (R137, R526 to R532, R535, R572, R583).
-/

namespace Sys2Proof.Machine

/-! ### CV outputs -/

/-- A CV channel's record. -/
def Chip.cv (c : Chip) (ch : Nat) : CvChan := tget {} c.ports.cvs ch
/-- It changes. -/
def modCv (ch : Nat) (f : CvChan → CvChan) (c : Chip) : Chip := modPorts (fun p => { p with cvs := tmod {} p.cvs ch f }) c

/-- A DAC code, saturated. -/
def satCode (z : Int) : Nat := (clampInt 0 65535 z).toNat

/-- The code loaded for a code of R137 (R528). -/
def Chip.cvTrim (c : Chip) (ch k : Nat) : Nat :=
  satCode (32768 + shrFloor (((k : Int) - 32768) * (65536 + c.snum 16 (Obj.cvTrimGain ch))) 16 + c.snum 16 (Obj.cvTrimOffset ch))

/-- Trimmed mid-scale (R528). -/
def Chip.cvMid (c : Chip) (ch : Nat) : Nat := satCode (32768 + c.snum 16 (Obj.cvTrimOffset ch))

/-- Cv.State by number (R535). -/
def Chip.cvState (c : Chip) (ch : Nat) : Nat := c.num (Obj.cvState ch)

/-- The DAC takes the code that the channel's state calls for: its own in ACTIVE, else trimmed mid-scale (R528, R530). -/
def loadCode (ch : Nat) (c : Chip) : Chip :=
  let d := if c.cvState ch = 0 then c.cvTrim ch (c.cv ch).base else c.cvMid ch
  setNum (Obj.cvCode ch) d (modCv ch (fun x => { x with before := c.num (Obj.cvCode ch) }) c)

/-- Samples between strobes of a group (R37, R526). -/
def Chip.cvEvery (c : Chip) (g : Nat) : Nat := (if 4 ≤ c.time.rate then 2 else 1) * max 1 (c.num (Obj.cvGroupDivider g))

/-- The code of a channel at step `j` of frame `k`: what voices drive, else what ON_END leaves (R137, R138); the step after the
frame is the last entry of their mod blocks. -/
def Chip.cvStep (c : Chip) (ch k j : Nat) : Nat :=
  let key := targetKey 1 ch
  let s := k * c.bsize + 4 * j
  let own := if j < c.bsize / 4 then (if c.targetDriven key s then c.targetAt key s else none)
    else
      let ds := (c.drives k j).filter (fun d => d.1 == key)
      if ds.isEmpty then none else some (mergeDrives (c.mergeMode 1 ch) ds)
  match own with
  | some o => satCode (o + 32768)
  | none =>
    if tget false c.stipple.idled key && c.num (Obj.stippleCvOnEnd ch) == 1 then c.num (Obj.stippleCvIdle ch)
    else match c.targetAt key s with
      | some o => satCode (o + 32768)
      | none => 0x8000

/-- At a boundary the codes of frame `k` join the load queues, interpolated between steps (R137, R527).
Entry 86, DESIGN CHOICE. -/
def fillCv (k : Nat) (c : Chip) : Chip :=
  forEach (upTo 32) (fun ch c =>
    let every := c.cvEvery (ch / 8)
    let steps := (upTo (c.bsize / 4 + 1)).map (c.cvStep ch k)
    let codes := ((upTo c.bsize).filter (fun i => (k * c.bsize + i) % every == 0)).map (fun i =>
      let a : Int := steps.getD (i / 4) 0x8000
      let b : Int := steps.getD (i / 4 + 1) 0x8000
      (k * c.bsize + i, satCode (a + shrFloor ((b - a) * (i % 4 : Nat)) 2)))
    modCv ch (fun x => { x with queue := (x.queue ++ codes).take 128,
                                driven := x.driven || (c.targetAt (targetKey 1 ch) (k * c.bsize)).isSome }) c) c

/-- One channel at a strobe for sample `n`: it takes its code, or loads the last one again (R527). Entry 86, DESIGN CHOICE. -/
def strobeChannel (n ch : Nat) (c : Chip) : Chip :=
  let q := (c.cv ch).queue.dropWhile (fun e => decide (e.1 < n))
  match q with
  | (m, k) :: rest =>
    if m = n then loadCode ch (modCv ch (fun x => { x with queue := rest, base := k }) c)
    else loadCode ch (bump (Obj.cvRepeats ch) (modCv ch (fun x => { x with queue := q }) c))
  | [] => loadCode ch (bump (Obj.cvRepeats ch) (modCv ch (fun x => { x with queue := [] }) c))

/-- CV_LOAD: a group's load strobe, at tick n + B + 5 of a sample n that falls on one (R526). Entry 4, DEDUCED. -/
def execCvLoad (group : Fin 4) (s : State) : Host.Outcome State Fault Refusal :=
  s.onChip (fun c =>
    let n := c.time.stc - (c.bsize + 5)
    if c.bsize + 5 ≤ c.time.stc ∧ n % c.cvEvery group.val = 0 ∧ !c.time.stopped ∧ !c.time.silent then
      forEach (upTo 8) (fun i c => strobeChannel n (8 * group.val + i) c) c
    else c)

/-- The output buffer of a retired channel goes off (R530). -/
def bufferOff (ch : Nat) (c : Chip) : Chip :=
  if c.flag (Obj.cvOutputOff ch) then c else snag 0x0616 ch 0xFF (setNum (Obj.cvOutputOff ch) 1 c)

/-- Are the last three valid read-backs mismatches? -/
def CvChan.threeBad (x : CvChan) : Bool := decide (3 ≤ x.backs.length) && (x.backs.take 3).all (fun b => !b)

/-- A channel is retired (R530). -/
def retireCv (ch : Nat) (c : Chip) : Chip :=
  let c := loadCode ch (setNum (Obj.cvState ch) 2 (setNum (Obj.cvRetired ch) 1 c))
  let c := snag 0x0615 ch 0xFF (emit (.source 209) c)
  when_ (c.cv ch).threeBad (bufferOff ch) c

/-- A channel enters FAULT; the third time within 10 s it is retired (R530). -/
def faultCv (ch expected back : Nat) (c : Chip) : Chip :=
  let recent := (c.cv ch).faults.filter (fun t => decide (c.now < t + 10000000000))
  let c := modCv ch (fun x => { x with faults := c.now :: recent }) (bump (Obj.cvFaults ch) (setNum (Obj.cvState ch) 1 c))
  let c := snagWith 0x0614 ch 0xFF 0xFFFF (expected + 65536 * back) (emit (.source 208) (loadCode ch c))
  when_ (decide (2 ≤ recent.length)) (retireCv ch) c

/-- CV_READBACK: a conversion of the monitoring ADC; `moved` says that a load fell within the 3 us before it began.
Entry 86, DESIGN CHOICE. -/
def execCvReadback (ch : Fin 32) (code : BitVec 16) (moved : Bool) (s : State) : Host.Outcome State Fault Refusal :=
  s.onChip (fun c =>
    let k := ch.val
    let x := c.cv k
    let tol := c.num Obj.cvTolerance
    let now := c.num (Obj.cvCode k)
    let apart (a b : Nat) : Bool := decide (tol < a - b) || decide (tol < b - a)
    if moved && apart now x.before then c
    else
      let good := !apart code.toNat now
      let c := modCv k (fun x => { x with backs := (good :: x.backs).take 16 }) (setNum (Obj.cvReadback k) code.toNat c)
      let c := when_ (!good) (bump (Obj.cvMismatches k)) c
      let y := c.cv k
      match c.cvState k with
      | 0 => when_ y.threeBad (faultCv k now code.toNat) c
      | 1 =>
        let held := match y.faults with | t :: _ => decide (t + c.num Obj.cvHoldMs * 1000000 ≤ c.now) | [] => true
        when_ (held && y.backs.length == 16 && y.backs.all id) (setNum (Obj.cvState k) 0) c
      | 2 => when_ y.threeBad (bufferOff k) c
      | _ => c)

/-- CV_FAULT_TIMEOUT: 1 s continuously in FAULT. -/
def execCvFaultTimeout (ch : Fin 32) (s : State) : Host.Outcome State Fault Refusal :=
  s.onChip (fun c =>
    if c.cvState ch.val = 1 ∧ secondSince c ((c.cv ch.val).faults.head?) = true then retireCv ch.val c else c)

/-- The rule of Cv.Enable: DISABLED from any state, ACTIVE from DISABLED, or RETIRED where the channel is retired (R481); it needs W on
the channel (R530, R535). Entry 87, DEDUCED. -/
def cvEnableAct (ch v : Nat) : Act := actWhen (fun m c => if c.may 0x10 ch m 1 then St.ok else St.noAccess)
  (fun _ c =>
    let c := setNum (Obj.cvEnable ch) v c
    if v = 0 then loadCode ch (setNum (Obj.cvState ch) 3 c)
    else if c.cvState ch = 3 then
      loadCode ch (setNum (Obj.cvState ch) (if c.flag (Obj.cvRetired ch) then 2 else 0) (modCv ch (fun x => { x with backs := [] }) c))
    else c)

/-- CV_ENABLE. -/
def execCvEnable (r : Req) (ch : Fin 32) (on : Bool) (s : State) : Host.Outcome State Fault Refusal :=
  serveRow r (Obj.cvEnable ch.val) [if on then 1 else 0] (cvEnableAct ch.val (if on then 1 else 0)) s

/-- The rule of Cv.Retired: 0 reinstates, which needs W and A on the channel (R481, R530, R535). -/
def cvReinstateAct (ch v : Nat) : Act := actWhen
  (fun m c => if c.may 0x10 ch m 1 && c.may 0x10 ch m 3 then St.ok else St.noAccess)
  (fun _ c =>
    if v = 0 ∧ c.flag (Obj.cvRetired ch) then
      let c := modCv ch (fun x => { x with faults := [], backs := [] })
        (setNum (Obj.cvOutputOff ch) 0 (setNum (Obj.cvRetired ch) 0 c))
      loadCode ch (setNum (Obj.cvState ch) 0 c)
    else c)

/-- CV_REINSTATE. -/
def execCvReinstate (r : Req) (ch : Fin 32) (s : State) : Host.Outcome State Fault Refusal :=
  serveRow r (Obj.cvRetired ch.val) [0] (cvReinstateAct ch.val 0) s

/-- Trims of a channel: they apply to the code in force (R528). -/
def cvTrimAct (ch o v : Nat) : Act := actWhen (fun m c => if c.may 0x10 ch m 1 then St.ok else St.noAccess)
  (fun _ c => loadCode ch (setNum o v c))

/-! ### Sense inputs (R531, R532) -/

/-- The sense rate divides the sample rate by this (R37, R531). -/
def Chip.senseEvery (c : Chip) : Nat := match c.time.rate with | 0 | 1 => 1 | 2 | 3 => 2 | _ => 4

/-- A sense input changes. -/
def modSense (n : Nat) (f : SenseIn → SenseIn) (c : Chip) : Chip := modPorts (fun p => { p with senses := tmod {} p.senses n f }) c
/-- A sense input's record. -/
def Chip.sense (c : Chip) (n : Nat) : SenseIn := tget {} c.ports.senses n

/-- A channel that clips for 1 ms (R531). Entry 86, DESIGN CHOICE. -/
def senseClip (n code : Nat) (c : Chip) : Chip :=
  let x := c.sense n
  if code ≠ 0 ∧ code ≠ 0xFFFF then modSense n (fun x => { x with clipSince := none, clipped := false }) c
  else match x.clipSince with
    | none => modSense n (fun x => { x with clipSince := some c.now }) c
    | some t =>
      if x.clipped ∨ c.now < t + 1000000 then c
      else
        let c := emit (.source 210) (bump (Obj.senseClips n) (modSense n (fun x => { x with clipped := true }) c))
        if secondSince c x.clipAt then
          snagWith 0x0617 n 0xFF 0xFFFF code (modSense n (fun x => { x with clipAt := some c.now }) c)
        else c

/-- One sample of an input: filtered, kept and checked. -/
def senseSample (n code : Nat) (c : Chip) : Chip :=
  if !c.flag (Obj.senseEnable n) then c
  else
    let v : Int := (code : Int) - 32768
    let f := c.num (Obj.senseFilter n)
    let acc := if f = 0 then v else Config.senseSmoother f (c.fs / c.senseEvery) (c.sense n).acc v
    let y := if f = 0 then v else satQ15 (Config.senseOutput acc)
    senseClip n code (modSense n (fun x => { x with acc := acc, seen := ((c.time.stc, y) :: x.seen).take 2 })
      (setInt (Obj.senseValue n) y c))

/-- SENSE_SAMPLE: all inputs are sampled together on their ticks; `codes` are the converters' results by input. -/
def execSenseSample (codes : List (BitVec 16)) (s : State) : Host.Outcome State Fault Refusal :=
  s.onChip (fun c =>
    if c.time.stc % c.senseEvery = 0 ∧ !c.time.stopped then
      forEach ((codes.take 16).zipIdx) (fun x c => senseSample x.2 x.1.toNat c) c
    else c)

/-- At a boundary a bound input whose last value has moved sends a controller event (R532). -/
def sendSense (k : Nat) (c : Chip) : Chip :=
  forEach (upTo 16) (fun n c =>
    let t := c.num (Obj.senseTenant n)
    match (c.sense n).seen.find? (fun e => decide (e.1 < k * c.bsize)) with
    | some (_, v) =>
      let moved := match (c.sense n).sent with
        | some w => decide (c.num (Obj.senseDeadband n) ≤ (v - w).natAbs)
        | none => true
      if t < 16 ∧ moved = true then
        let cc := c.num (Obj.senseCc n)
        let w0 := 4 * 2 ^ 28 + bits cc 15 12 * 2 ^ 24 + 0xB * 2 ^ 20 + bits cc 11 8 * 65536 + bits cc 6 0 * 256
        produce (qix t (c.num (Obj.senseQueue n) % 8)) (16 + n) (madeEntry none 0xFFFF w0 ((v + 32768).toNat * 65536))
          (modSense n (fun x => { x with sent := some v }) c)
      else c
    | none => c) c

/-! ### TDM ports (R572, R583) -/

/-- A TDM port's record. -/
def Chip.tdm (c : Chip) (p : Nat) : TdmPort := tget {} c.ports.tdms p
/-- It changes. -/
def modTdm (p : Nat) (f : TdmPort → TdmPort) (c : Chip) : Chip := modPorts (fun x => { x with tdms := tmod {} x.tdms p f }) c

/-- The rule of Tdm.Mode and Tdm.Framing: W on every channel of the port; the next boundary takes it (R583).
Entry 86, DESIGN CHOICE. -/
def tdmAct (p o v : Nat) : Act := actWhen
  (fun m c =>
    let per := c.tdmChannels / 8
    if (upTo per).all (fun s => c.may 0x0A (per * p + s) m 1 && c.may 0x0B (per * p + s) m 1) then St.ok else St.noAccess)
  (fun _ c => modTdm p (fun x => { x with change := true }) (setNum o v c))

/-- TDM_MODE. -/
def execTdmMode (r : Req) (port : Fin 8) (framing : Bool) (v : Byte) (s : State) : Host.Outcome State Fault Refusal :=
  let o := if framing then Obj.tdmFraming port.val else Obj.tdmMode port.val
  serveRow r o [v] (tdmAct port.val o v.toNat) s

/-- At a boundary written modes take effect: a slave has no clock until its first frame start; inputs read 0 for the frame. -/
def tdmBoundary (c : Chip) : Chip :=
  forEach (upTo 8) (fun p c =>
    if (c.tdm p).change then
      setNum (Obj.tdmState p) (match c.num (Obj.tdmMode p) with | 0 => 0 | 1 => 1 | _ => 2)
        (modTdm p (fun _ => { change := false, quietUntil := c.time.stc + c.bsize }) c)
    else c) c

/-- Does a port run as a slave? -/
def Chip.tdmSlave (c : Chip) (p : Nat) : Bool := c.num (Obj.tdmMode p) == 2 && c.num (Obj.tdmState p) != 0

/-- TDM_REALIGNMENT: the second frame start in turn outside the window. -/
def execTdmRealignment (port : Fin 8) (s : State) : Host.Outcome State Fault Refusal :=
  s.onChip (fun c =>
    if c.tdmSlave port.val ∧ c.num (Obj.tdmState port.val) = 1 then
      bump (Obj.tdmSlips port.val) (setNum (Obj.tdmState port.val) 3 c)
    else c)

/-- TDM_NO_CLOCK: no frame start for 2 sample periods. -/
def execTdmNoClock (port : Fin 8) (s : State) : Host.Outcome State Fault Refusal :=
  s.onChip (fun c => if c.tdmSlave port.val then setNum (Obj.tdmState port.val) 2 c else c)

/-- TDM_FRAME_START: a frame start inside the window, or the one whose phase a realigning port adopts, its inputs 0 for that
frame. Entry 86, DESIGN CHOICE. -/
def execTdmFrameStart (port : Fin 8) (s : State) : Host.Outcome State Fault Refusal :=
  s.onChip (fun c =>
    let p := port.val
    if !c.tdmSlave p then c
    else if c.num (Obj.tdmState p) = 3 then
      setNum (Obj.tdmState p) 1 (modTdm p (fun x => { x with quietUntil := max x.quietUntil (c.time.stc + 1) }) c)
    else setNum (Obj.tdmState p) 1 c)

end Sys2Proof.Machine
end

