-- ==== Sys2Proof/Machine/Reset.lean ====
section
/-!
DEFINITION. Resets and their domains, main supply loss, the supervisor's restart, and dead crossings (R33, R313, R481, R486,
R487, R490, R494, R560, R561).
-/

namespace Sys2Proof.Machine

/-! ### What a reset keeps (R8, R453, R486) -/

/-- Is an object RETAINED? Entry 88, DEDUCED. -/
def isRetained (o : Nat) : Bool := match objFind o with | some d => d.per == .retained | none => false

/-- Numbers after a warm reset: STORED ones from flash, RETAINED ones as they are. Entry 88, DEDUCED. -/
def warmNums (c : Chip) : Table Nat := (c.nums.filter (fun x => isRetained x.1)).foldl (fun t x => tput t x.1 x.2) c.flashNums
/-- The same for octet objects. -/
def warmBlobs (c : Chip) : Table (List Byte) :=
  (c.blobs.filter (fun x => isRetained x.1)).foldl (fun t x => tput t x.1 x.2) c.flashBlobs

/-- Usable DRAM octets: what the inline check bits leave, less retired pages (R310, R315, R321). -/
def Chip.dramUsable (c : Chip) : Nat := Config.dramBytes * 7 / 8 - 1792 * c.retiredPages.length

/-- Regions 5 and 6 are made to fit: the cache shrinks by 1 GiB steps to 1 GiB, then the metadata halves to 256 MiB at the least;
each reduction is logged (R313). -/
def fitRegions : Nat → Nat → Nat → Chip → Chip
  | 0, cache, meta_, c => modHod (fun h => { h with cacheBytes := cache, metaBytes := meta_ }) c
  | fuel + 1, cache, meta_, c =>
    if cache + meta_ + mib 1296 ≤ c.dramUsable then modHod (fun h => { h with cacheBytes := cache, metaBytes := meta_ }) c
    else if mib 1024 < cache then fitRegions fuel (max (mib 1024) (cache - mib 1024)) meta_ (snag 0x0102 6 0xFF c)
    else if mib 256 < meta_ then fitRegions fuel cache (max (mib 256) (meta_ / 2)) (snag 0x0102 5 0xFF c)
    else modHod (fun h => { h with cacheBytes := cache, metaBytes := meta_ }) c

/-- What is set up at every reset from the objects that last it: DRAM regions, partitions, retired channels, CV mid-scale.
Entry 88, DEDUCED. -/
def setUp (cold : Bool) (c : Chip) : Chip :=
  let c := fitRegions 64 (c.num Obj.hodCacheBytes) (c.num Obj.hodMetaBytes) c
  let c := modTrowel (fun t => { t with voiceBytes := c.num Obj.trowelScratchVoiceBytes, tableBytes := c.num Obj.trowelScratchTableBytes }) c
  let c := forEach (upTo 256) (fun n c => when_ (c.flag (Obj.trowelCoreRetired n)) (setNum (Obj.trowelCoreClockMHz n) 0) c) c
  let c := forEach [0, 1] (fun k c => when_ (c.flag (Obj.canRetired k)) (setNum (Obj.canState k) 5) c) c
  let c := forEach [0, 1] (fun p c => when_ (c.flag (Obj.lathPortRetired p) && c.flag (Obj.lathPortEnable p)) (setPortState p portRetired) c) c
  let c := forEach (upTo 8) (fun l c => when_ (c.flag (Obj.lathLaneRetired l)) (setNum (Obj.lathLaneState l) 3) c) c
  forEach (upTo 32) (fun ch c =>
    let st := if !c.flag (Obj.cvEnable ch) then 3 else if c.flag (Obj.cvRetired ch) then 2 else 0
    let c := setNum (Obj.cvState ch) st c
    if cold then c else setNum (Obj.cvCode ch) (c.cvMid ch) c) c

/-- The journal over a warm reset: the local region stays, the mirror slots are lost. -/
def warmJournal (j : Journal) : Journal :=
  { blockA := j.blockA, blockB := j.blockB, expected := j.expected, recs := j.recs, retiredRows := j.retiredRows, nextOrder := j.nextOrder }

/-- Time over a warm reset: STC, chain time, tempo and beat position run on (R453). -/
def warmTime (t : Time) : Time :=
  { stc := t.stc, rate := t.rate, block := t.block, rebaseTick := t.rebaseTick, rebaseNs := t.rebaseNs, rebaseHz := t.rebaseHz,
    anchorStep := t.anchorStep, anchorBeat := t.anchorBeat }

/-- A warm reset with the cause that Fault.LastReset names (R486). Entry 88, DEDUCED. -/
def warmReset (cause : Nat) (s : State) : State :=
  let c := s.chip
  let n : Chip := {
    nums := warmNums c, blobs := warmBlobs c, flashNums := c.flashNums, flashBlobs := c.flashBlobs, draws := c.draws, out := c.out
    boot := { c.boot with warm := true, started := false, due := none, powerLost := false, idleSince := none, img := none }
    time := warmTime c.time
    work := { access := c.work.accessStored, accessStored := c.work.accessStored, port0Root := c.work.port0Root
              queues := (c.work.queues.map (fun q => (q.1, ({ seq := q.2.seq } : Queue)))).filter (fun q => q.2 != {})
              journal := warmJournal c.work.journal } }
  let n := setNum Obj.plumbSampleRate n.time.rate (setNum Obj.plumbBlockSize n.time.block n)
  { s with chip := snagWith 0x0703 0 0xFF 0xFFFF cause (setNum Obj.faultLastReset cause (setUp false n)) }

/-- A cold reset: only STORED objects, fuses and the firmware flash last it (R486). Entry 88, DEDUCED. -/
def coldReset (s : State) : State :=
  let c := s.chip
  let n : Chip := {
    nums := c.flashNums, blobs := c.flashBlobs, flashNums := c.flashNums, flashBlobs := c.flashBlobs, draws := c.draws, out := c.out
    boot := { c.boot with warm := false, started := false, due := none, powerLost := false, idleSince := none, img := none }
    work := { access := c.work.accessStored, accessStored := c.work.accessStored } }
  let n := modTime (fun t => { t with rate := n.num Obj.plumbSampleRate, block := n.num Obj.plumbBlockSize
                                      rebaseHz := rateHz (n.num Obj.plumbSampleRate) }) n
  let n := modWork (fun w => { w with port0Root := n.num Obj.pciePort0Mode == 1 }) n
  { s with chip := setUp true n, dust := { store := s.dust.store } }

/-- The reset that a served request asked for, once it has been answered. -/
def finishReset (s : State) : State :=
  match s.chip.boot.due with
  | some 1 => warmReset 1 s
  | some _ => coldReset s
  | none => s

/-- A service and the reset that follows it. -/
def thenReset (o : Host.Outcome State Fault Refusal) : Host.Outcome State Fault Refusal :=
  match o with
  | .next s => .next (finishReset s)
  | x => x

/-- The rule of Reset.Request: 1 warm, 2 cold. -/
def resetRequestAct (v : Nat) : Act := actWhen (fun _ _ => if v = 1 ∨ v = 2 then St.ok else St.badValue)
  (fun _ c => modBoot (fun b => { b with due := some v }) c)

/-- WARM_RESET: Reset.Request 1. -/
def execWarmReset (r : Req) (s : State) : Host.Outcome State Fault Refusal :=
  thenReset (serveRow r Obj.resetRequest [1] (resetRequestAct 1) s)

/-- COLD_RESET: Reset.Request 2. -/
def execColdReset (r : Req) (s : State) : Host.Outcome State Fault Refusal :=
  thenReset (serveRow r Obj.resetRequest [2] (resetRequestAct 2) s)

/-! ### Main supply loss (R487, R560, R561) -/

/-- POWER_FAIL: the dispatcher stops, and the control block is sealed. -/
def execPowerFail (s : State) : Host.Outcome State Fault Refusal :=
  s.onChip (fun c => if c.boot.powerLost then c else writeControl true (modBoot (fun b => { b with powerLost := true }) c))

/-- Cycles per second of the clock that counts an outage (R487, R582). -/
def slowHz : Nat := if Config.slowCrystal then 32768 else 25000000

/-- The STC resumes after an outage of `n` slow cycles that began in tick `last`: a new rebase point at Z, and a new tempo anchor
that carries the tempo and the beat position of that tick (R453, R487). -/
def resumeAfter (last n : Nat) (c : Chip) : Chip :=
  let f := c.fs
  let z := (last + (n * f + slowHz - 1) / slowHz + 63) / 64 * 64
  let d := last - c.time.rebaseTick
  let tr := c.time.rebaseNs + (d * 1000000000 * slowHz + n * 1000000000 * c.time.rebaseHz) / (c.time.rebaseHz * slowHz)
  let beat := c.beatPos (stepOf last)
  modTime (fun t => { t with stc := z, rebaseTick := z, rebaseNs := tr, rebaseHz := f, anchorStep := z, anchorBeat := beat
                             stopped := false }) c

/-- A power-fail restart: a warm reset whose STC resumes after the outage. -/
def powerFailRestart (cycles : Nat) (s : State) : State :=
  let last := s.chip.work.journal.control.stcLast
  let s := { s with chip := resumeAfter last cycles s.chip }
  let s := warmReset 2 s
  { s with chip := setNum Obj.faultOutageUs (cycles * 1000000 / slowHz) s.chip }

/-- POWER_FAIL_RESTART: main supply is back, VBAK has held, and the control block in force is sealed. -/
def execPowerFailRestart (cycles : Nat) (s : State) : Host.Outcome State Fault Refusal :=
  if s.chip.boot.powerLost ∧ s.chip.work.journal.control.isSealed = true then .next (powerFailRestart cycles s) else .next s

/-- RESET_N: low for `low` ns and released.  `supplies`: every supply was in tolerance; `ignored`: PWRFAIL_N is low or has risen
within 100 us; `cycles`: the outage, where one ends with it. Entry 89, DEDUCED. -/
def execResetN (low : Nat) (supplies ignored : Bool) (cycles : Nat) (s : State) : Host.Outcome State Fault Refusal :=
  if ignored || !supplies then .next s
  else if s.chip.boot.powerLost then
    (if s.chip.work.journal.control.isSealed then .next (powerFailRestart cycles s) else .next (coldReset s))
  else if 10000 ≤ low then .next (coldReset s)
  else .next s

/-- VBAK_LOSS: without main supply the always-on domain, the journal and the Dust Sheet are lost. -/
def execVbakLoss (s : State) : Host.Outcome State Fault Refusal :=
  if s.chip.boot.powerLost then
    .next { s with chip := modWork (fun w => { w with journal := {} }) s.chip,
                   dust := { s.dust with keys := [], lost := [] } }
  else .next s

/-! ### Gang and core resets (R490) -/

/-- The voices of a core are asked to leave, its tasks and leases end, and S is 0. -/
def beginCoreReset (n : Nat) (c : Chip) : Chip :=
  if (c.core n).inReset then c
  else
    let c := askMoves n 4 c
    let c := forEach (c.coreTasks n) disableTask c
    let c := forEach [1, 2, 3] (fun t c => threadOff (4 * n + t) c) (revokeThread (4 * n) c)
    modCore n (fun r => { r with inReset := true }) c

/-- The cores of a gang. -/
def gangCores (g : Nat) : List Nat := (upTo 16).map (fun i => 16 * g + i)

/-- GANG_RESET: Reset.Gang 1. -/
def gangResetAct (g : Nat) : Act := chipAct (fun _ c => (forEach (gangCores g) beginCoreReset c, St.ok))
def execGangReset (r : Req) (gang : Fin 16) (s : State) : Host.Outcome State Fault Refusal :=
  serveRow r (Obj.resetGang gang.val) [1] (gangResetAct gang.val) s

/-- CORE_RESET: Reset.Core 1. -/
def coreResetAct (n : Nat) : Act := chipAct (fun _ c => (beginCoreReset n c, St.ok))
def execCoreReset (r : Req) (core : Fin 256) (s : State) : Host.Outcome State Fault Refusal :=
  serveRow r (Obj.resetCore core.val) [1] (coreResetAct core.val) s

/-- A core's reset ends: voices that are still there are lost, and local data memory is cleared. -/
def endCoreReset (n : Nat) (c : Chip) : Chip :=
  if !(c.core n).inReset then c
  else
    let c := forEach ((c.coreVoices n).map Prod.fst) loseVoice c
    let c := clearMem (memLocal n 0) (memLocal n 0x14000) c
    modCore n (fun r => { r with inReset := false, voices := [], tasks := [], running := .nothing, doneAt := false }) c

/-- A gang's table partition is loaded by its DMA from its DRAM source. Entry 56, DESIGN CHOICE. -/
def loadTable (g : Nat) (table : List Byte) (c : Chip) : Chip :=
  writeBytes (memScratch g (0x100000 + c.trowel.voiceBytes)) (slice table 0 c.trowel.tableBytes) c

/-- GANG_RESET_DONE: a gang or core reset completes; `table` is the DRAM source of the gang's table partition.
Entry 56, DESIGN CHOICE. -/
def execGangResetDone (gang : Bool) (n : Fin 256) (table : List Byte) (s : State) : Host.Outcome State Fault Refusal :=
  s.onChip (fun c =>
    if gang then
      let g := n.val % 16
      if (gangCores g).any (fun k => (c.core k).inReset) then
        loadTable g table (clearMem (memScratch g 0) (memScratch g 0x200000) (forEach (gangCores g) endCoreReset c))
      else c
    else endCoreReset n.val c)

/-! ### Supervisor restart and dead crossings (R21, R33, R494) -/

/-- SUPERVISOR_RESTART: the third within 60 s is a warm reset. Entry 37, DESIGN CHOICE. Entry 89, DEDUCED. -/
def execSupervisorRestart (s : State) : Host.Outcome State Fault Refusal :=
  let c := s.chip
  let recent := c.work.supervisor.restarts.filter (fun t => decide (c.now < t + 60000000000))
  let c := modWork (fun w => { w with supervisor := { w.supervisor with restarting := true, restarts := c.now :: recent } })
    (snag 0x0701 0 0xFF (bump Obj.supervisorRestarts c))
  if 2 ≤ recent.length then .next (warmReset 3 { s with chip := c }) else .next { s with chip := c }

/-- What a dead crossing does to its far island (R33, R226, R270, R344, R438, R486). Entry 89, DEDUCED. -/
def islandDead : Island → Chip → Chip
  | .core n, c => retireCore n.val false c
  | .gang g, c => forEach (gangCores g.val) beginCoreReset c
  | .screed, c => snag 0x0002 0 0xFF (modScreed (fun x => { x with lost := true, rets := [], newRets := [] }) c)
  | .lathPort p, c => if c.portState p.val = portRetired then c else retirePort p.val c
  | .can k, c =>
    if c.num (Obj.canState k.val) = 5 then c
    else snag 0x0602 k.val 0xFF
      (emit (.source (211 + k.val)) (setNum (Obj.canRetired k.val) 1 (setNum (Obj.canState k.val) 5 (discardQueue k.val c))))
  | .other, c => c

/-- The number that CROSSING gives as UNIT. -/
def islandUnit : Island → Nat
  | .core n => n.val
  | .gang g => g.val
  | .lathPort p => p.val
  | .can k => k.val
  | _ => 0

/-- CROSSING_DEAD: the far side has not acknowledged within 1,024 cycles. Entry 89, DEDUCED. -/
def execCrossingDead (island : Island) (s : State) : Host.Outcome State Fault Refusal :=
  s.onChip (fun c => islandDead island (snag 0x0001 (islandUnit island) 0xFF c))

end Sys2Proof.Machine
end

