-- ==== Sys2Proof/Machine/Boot.lean ====
section
/-!
DEFINITION. The key coat, bring-up, power states, the life cycle and the key service (R536 to R552, R558).
-/

namespace Sys2Proof.Machine

/-! ### The key coat (R540 to R542, R549, R550) -/

/-- Boots of a slot that did not reach READY. -/
def Boot.fails (b : Boot) (slot : Nat) : Nat := if slot = 0 then b.failsA else b.failsB
/-- They become `n`. -/
def setFails (slot n : Nat) (c : Chip) : Chip :=
  modBoot (fun b => if slot = 0 then { b with failsA := n } else { b with failsB := n }) c

/-- May the key coat run a slot: its image is valid and fewer than 3 boots of it have failed? -/
def Chip.slotRuns (c : Chip) (slot : Nat) : Bool := c.imageResult (c.boot.slotBytes slot) == 0 && decide (c.boot.fails slot < 3)

/-- The slot the key coat runs: the preferred one, else the other (R540). Entry 90, DEDUCED. -/
def Chip.pickSlot (c : Chip) : Option Nat :=
  let p := c.boot.preferred
  if c.slotRuns p then some p else if c.slotRuns (1 - p) then some (1 - p) else none

/-- The key coat stops in RECOVERY with a Boot.Error; its own Kolef arms autobaud (R542, R553). Entry 90, DEDUCED. -/
def recovery (e : Nat) (c : Chip) : Chip :=
  setNum Obj.bootState 2 (setNum Obj.bootError e (modUart 0 (fun x => { x with autobaud := true }) c))

/-- The DRAM rate: the highest that training and MaxRate allow (R311). -/
def Chip.dramRateFor (c : Chip) (found : Nat) : Nat :=
  (([8533, 7500, 6400].find? (fun r => decide (r ≤ found) && decide (r ≤ c.num Obj.memoryDramMaxRate))).getD 0)

/-- Wrapped keys that unwrap return to the Dust Sheet when it holds none (R540, R551, R552). Entry 79, DEDUCED. -/
def unwrapAll (state : Nat) (d : DustSheet) : DustSheet :=
  if !d.keys.isEmpty || d.locked || d.state == .wiping then d
  else
    { d with keys := ((d.store.filterMap (fun x => (Config.unwrapKey state x.2).map (fun k => (x.1, k)))).filter (fun x => decide (x.2 ≠ []))).take 4096
             lost := [], state := if d.state = .wiped then .ready else d.state }

/-- The supervisor reads the control block in force: with a holder its chip's loss has been handled there, else every tenant with
records waits for its replay; records that cannot be read are lost (R502, R503). -/
def readJournal (c : Chip) : Chip :=
  let j := c.work.journal
  if j.control.holder ≠ 0xFF then modJournal (fun j => { j with recs := [], toReplay := [] }) c
  else
    let bad := j.recs.filterMap (fun x => match x.2 with | some r => if r.unreadable then some x.1 else none | none => none)
    let c := when_ (!bad.isEmpty) (loseRecords bad) c
    let left := c.work.journal.recs.filterMap (fun x => x.2.map (fun r => (x.1, r.tenant)))
    modJournal (fun j => { j with toReplay := left.map Prod.fst, retireList := []
                                  replay := left.foldl (fun t x => tset .none t x.2 .waiting) [] }) c

/-- What the supervisor brings up (R441, R543, R553): Kolef arms autobaud, CAN controllers enter their modes, Lath ports detect, and
TDM ports run from the next boundary. -/
def bringUp (c : Chip) : Chip :=
  let c := modUart 0 (fun x => { x with autobaud := true }) c
  let c := forEach [0, 1] (fun k c => when_ (c.num (Obj.canState k) != 5) (enterMode k) c) c
  let c := forEach [0, 1] (fun p c =>
    when_ (c.flag (Obj.lathPortEnable p) && c.portState p == portDisabled) (setPortState p portDetect) c) c
  forEach (upTo 8) (fun p c => when_ (c.num (Obj.tdmMode p) != 0) (modTdm p (fun x => { x with change := true })) c) c

/-- KEY_COAT: the key coat runs after a reset; `rate` is what DRAM training finds, none where it fails. Entry 90, DEDUCED. -/
def execKeyCoat (rate : Option (BitVec 16)) (s : State) : Host.Outcome State Fault Refusal :=
  if s.chip.num Obj.bootState ≠ 0 ∨ s.chip.boot.started then .next s
  else
    let st := s.chip.num Obj.lifecycleState
    let s := if s.chip.num Obj.lifecycleLastApplied = st then s
      else
        let s := wipeTrigger 0 s
        { s with chip := setNum Obj.lifecycleLastApplied st s.chip, dust := { s.dust with store := [] } }
    let c := setNum Obj.powerCoreMv Config.avsFusedMv s.chip
    match rate.map (fun r => c.dramRateFor r.toNat) with
    | none => .next { s with chip := recovery 2 c }
    | some 0 => .next { s with chip := recovery 2 c }
    | some mts =>
      let c := setNum Obj.memoryDramRate mts c
      match c.pickSlot with
      | none => .next { s with chip := recovery 1 c }
      | some slot =>
        let img := c.boot.slotBytes slot
        let c := setNum Obj.bootSlot slot (setNum Obj.bootError (if slot = c.boot.preferred then 0 else 3) c)
        let c := setNum Obj.identityFirmwareVersion (imageVersion img) c
        let c := setNum Obj.chainProtocolLevel (imageLevel img) (setNum Obj.chainLowestLevel (imageLowest img) c)
        let dust := unwrapAll st s.dust
        let c := setNum Obj.keyCount dust.keys.length c
        .next { s with chip := bringUp (readJournal (modBoot (fun b => { b with started := true }) c)), dust := dust }

/-- ALWAYS_ON_WATCHDOG: a boot that has not reached READY after 2 s; the third of a slot makes the other one preferred (R541). -/
def execAlwaysOnWatchdog (s : State) : Host.Outcome State Fault Refusal :=
  if s.chip.num Obj.bootState ≠ 0 then .next s
  else
    let c := s.chip
    let slot := if c.boot.started then c.num Obj.bootSlot else c.boot.preferred
    let c := setFails slot (c.boot.fails slot + 1) c
    let c := when_ (decide (3 ≤ c.boot.fails slot)) (modBoot (fun b => { b with preferred := 1 - slot })) c
    .next (warmReset 4 { s with chip := c })

/-- BOOT_READY: bring-up completes after `ms`; after a warm reset the control block is written, which clears SEALED (R495, R543).
Entry 90, DEDUCED. -/
def execBootReady (ms : BitVec 16) (s : State) : Host.Outcome State Fault Refusal :=
  s.onChip (fun c =>
    if c.num Obj.bootState = 0 ∧ c.boot.started then
      let c := when_ c.boot.warm (writeControl false) c
      setNum Obj.bootState 1 (setNum Obj.bootReadyMs ms.toNat (setFails (c.num Obj.bootSlot) 0 c))
    else c)

/-! ### Image updates (R539) -/

/-- The slot that is not running. -/
def Chip.otherSlot (c : Chip) : Nat := 1 - c.num Obj.bootSlot

/-- The rule of Boot.Update.Image: it fills the slot that is not running. -/
def updateImageAct (bs : List Byte) : Act := chipAct (fun m c =>
  if c.leasedByOther 2 Obj.bootUpdateImage m then (c, St.busy)
  else (setSlot c.otherSlot bs (setBlob Obj.bootUpdateImage bs c), St.ok))

/-- The rule of Boot.Update.Commit. -/
def updateCommitAct : Act := chipAct (fun _ c =>
  let r := c.imageResult (c.boot.slotBytes c.otherSlot)
  let c := setNum Obj.bootUpdateResult r c
  if r = 0 then (setFails c.otherSlot 0 (modBoot (fun b => { b with preferred := c.otherSlot }) c), St.ok) else (c, St.refused))

/-- UPDATE_COMMIT. -/
def execUpdateCommit (r : Req) (s : State) : Host.Outcome State Fault Refusal :=
  serveRow r Obj.bootUpdateCommit [1] updateCommitAct s

/-- The image that runs. -/
def Chip.runningImage (c : Chip) : List Byte := c.boot.slotBytes (c.num Obj.bootSlot)

/-- COMMIT_ROLLBACK: the fuse floor goes up to the running image's ROLLBACK. -/
def commitRollbackAct : Act := chipAct (fun _ c =>
  (flashStore Obj.bootRollbackFloor (setNum Obj.bootRollbackFloor (max (c.num Obj.bootRollbackFloor) (imageRollback c.runningImage)) c), St.ok))
def execCommitRollback (r : Req) (s : State) : Host.Outcome State Fault Refusal :=
  serveRow r Obj.bootCommitRollback [1] commitRollbackAct s

/-- REVOKE_KEY_SLOT: the running image's slot is refused. -/
def revokeAct (slot : Nat) : Act := actWhen
  (fun _ c => if 4 ≤ slot then St.badValue else if imageKeySlot c.runningImage = slot then St.busy else St.ok)
  (fun _ c => modBoot (fun b => { b with revoked := withBit b.revoked slot true }) c)
def execRevokeKeySlot (r : Req) (slot : Fin 4) (s : State) : Host.Outcome State Fault Refusal :=
  serveRow r Obj.bootRevokeKeySlot [BitVec.ofNat 8 slot.val] (revokeAct slot.val) s

/-! ### Power states (R546 to R548) -/

/-- Does nothing run that keeps the chip out of QUIET? -/
def Chip.nothingRuns (c : Chip) : Bool :=
  c.hawk.voices.isEmpty && c.trowel.tasks.isEmpty && c.stipple.globals.isEmpty && c.skim.current.isEmpty && c.skim.next.isEmpty &&
  c.skim.wet.phase == .idle

/-- The time since which nothing has run is kept from boundary to boundary. -/
def noteIdle (c : Chip) : Chip :=
  modBoot (fun b => { b with idleSince := if c.nothingRuns then some (b.idleSince.getD c.now) else none }) c

/-- QUIET_ENTRY: nothing has run for QuietDelayMs; gating clears Screed's instances (R270, R547). -/
def execQuietEntry (s : State) : Host.Outcome State Fault Refusal :=
  s.onChip (fun c =>
    match c.boot.idleSince with
    | some t =>
      if c.flag Obj.powerQuietEnable ∧ c.num Obj.powerState = 0 ∧ c.nothingRuns = true ∧
          t + c.num Obj.powerQuietDelayMs * 1000000 ≤ c.now then clearInstances (setNum Obj.powerState 1 c)
      else c
    | none => c)

/-- The rule of Power.Request. -/
def standbyAct : Act := actWhen
  (fun _ c =>
    if !c.hawk.voices.isEmpty ∨ !c.trowel.tasks.isEmpty ∨ c.skim.wet.phase ≠ .idle ∨ c.hod.import_.isOpen ∨ c.hod.import_.finishing
    then St.busy else St.ok)
  (fun _ c =>
    let c := forEach [0, 1] (fun p c =>
      if c.portState p = portDisabled ∨ c.portState p = portRetired then c else setPortState p portDown (portLeft p c)) c
    let c := forEach (upTo 32) (fun ch c => setNum (Obj.cvCode ch) (c.cvMid ch) c) c
    let c := forEach (upTo 256) (fun n c => clearMem (memLocal n 0) (memLocal n 0x100000) c) c
    let c := forEach (upTo 16) (fun g c => clearMem (memScratch g 0) (memScratch g 0x200000) c) c
    let c := clearMem (memExchange 0) (memExchange 0x100000) c
    let c := forEach (upTo 4) (fun u c => modUart u (fun x => { x with woke := false }) c) c
    modTime (fun t => { t with stopped := true }) (setNum Obj.powerState 2 c))

/-- STANDBY: Power.Request 2. -/
def execPowerStandby (r : Req) (s : State) : Host.Outcome State Fault Refusal := serveRow r Obj.powerRequest [2] standbyAct s

/-- May this source wake the chip (R548)? -/
def Chip.wakes (c : Chip) : WakeSource → Bool
  | .pin => true
  | .uart u => c.flag (Obj.uartWakeEnable u.val) && (c.uart u.val).woke
  | .can k => c.flag Obj.powerWakeCan && c.num (Obj.canMode (canCfg c k.val)) != 0
  | .lath p => c.flag (Obj.lathPortEnable p.val)

/-- WAKE: the islands come back, the STC resumes after the time spent, tables are reloaded, and enabled Lath ports detect.
Entry 90, DEDUCED. -/
def execPowerWake (source : WakeSource) (cycles : Nat) (tables : List (List Byte)) (s : State) : Host.Outcome State Fault Refusal :=
  s.onChip (fun c =>
    if c.num Obj.powerState ≠ 2 ∨ !c.wakes source then c
    else
      let c := setNum Obj.powerState 0 (resumeAfter c.time.stc cycles c)
      let c := forEach (upTo 16) (fun g c => loadTable g (tables.getD g []) c) c
      forEach [0, 1] (fun p c =>
        if c.flag (Obj.lathPortEnable p) ∧ c.portState p ≠ portRetired then setPortState p portDetect c else c) c)

/-! ### Life cycle (R549, R550) -/

/-- Is the token signed with a production key over the serial? -/
def Chip.tokenOk (c : Chip) : Bool :=
  [0, 1].any (fun k => Config.signatureOk (Config.productionKey k) (Config.sha384Digest (c.blob Obj.identitySerial))
    (slice (c.blob Obj.lifecycleToken) 0 96))

/-- The rule of Lifecycle.Advance: the fuses, the wipe, the key store, and a warm reset. -/
def advanceAct (v : Nat) : Act := fun _ s =>
  let st := s.chip.num Obj.lifecycleState
  if 4 < v ∨ v ≤ st ∨ (v ≠ st + 1 ∧ v ≠ 4) then (s, St.badValue)
  else if st = 2 ∧ v = 3 ∧ !s.chip.tokenOk then (s, St.refused)
  else
    let c := flashStore Obj.lifecycleState (setNum Obj.lifecycleState v s.chip)
    let s := wipeTrigger 0 { s with chip := c }
    let c := setNum Obj.lifecycleLastApplied v (modBoot (fun b => { b with due := some 1 }) s.chip)
    ({ s with chip := c, dust := { s.dust with store := [] } }, St.ok)

/-- ADVANCE. -/
def execLifeAdvance (r : Req) (next : Fin 5) (s : State) : Host.Outcome State Fault Refusal :=
  thenReset (serveRow r Obj.lifecycleAdvance [BitVec.ofNat 8 next.val] (advanceAct next.val) s)

/-- The rule of Tamper.Mask: DEVELOP alone masks cause 3. -/
def tamperMaskAct (v : Nat) : Act := actWhen
  (fun _ c => if v ≠ 0 ∧ v ≠ 8 then St.badValue else if c.num Obj.lifecycleState ≠ 1 then St.refused else St.ok)
  (fun _ c => setNum Obj.tamperMask v c)

/-! ### The key service (R317, R319, R551) -/

/-- The key check value of a key (R277). -/
def keyCheck (key : List Byte) : List Byte := slice (Config.aes256 key (zeros 16)) 0 8

/-- Why an installation is refused, if it is. Entry 79, DEDUCED. -/
def installStatus (s : State) (id : Nat) : Nat :=
  if s.chip.num Obj.lifecycleState = 3 ∨ s.dust.locked ∨ s.dust.state = .wiping then St.refused
  else if id = 0 ∨ 2 ^ 32 ≤ id then St.badValue
  else if 4096 ≤ s.dust.keys.length ∨ (tget [] s.dust.keys id) ≠ [] then St.busy
  else St.ok

/-- A failed installation shows its status. -/
def installFailed (st : Nat) (s : State) : State × Nat :=
  ({ s with chip := setBlob Obj.keyResult (leBytes 1 st ++ zeros 8) s.chip }, st)

/-- The rule of Key.Install: the key is unwrapped and kept, its wrapped form too, and its KCV shown. -/
def keyInstallAct (id : Nat) (wrapped : List Byte) : Act := fun _ s =>
  let st := installStatus s id
  if st ≠ St.ok then installFailed st s
  else match Config.unwrapKey (s.chip.num Obj.lifecycleState) wrapped with
    | none => installFailed St.refused s
    | some key =>
      if key = [] then installFailed St.refused s
      else
        let keys := tput s.dust.keys id key
        ({ s with dust := { s.dust with keys := keys, store := tput s.dust.store id wrapped },
                  chip := setNum Obj.keyCount keys.length (setBlob Obj.keyResult (leBytes 1 0 ++ keyCheck key) s.chip) }, St.ok)

/-- KEY_INSTALL. -/
def execKeyInstall (r : Req) (id : BitVec 32) (wrapped : List Byte) (s : State) : Host.Outcome State Fault Refusal :=
  serveRow r Obj.keyInstall (leBytes 4 id.toNat ++ wrapped) (keyInstallAct id.toNat wrapped) s

/-- The rule of Key.Remove: a key that is not held is refused. Entry 90, DEDUCED. -/
def keyRemoveAct (id : Nat) : Act := fun _ s =>
  if s.dust.locked ∨ s.dust.state = .wiping then (s, St.refused)
  else if tget [] s.dust.keys id = [] ∧ tget [] s.dust.store id = [] then (s, St.refused)
  else
    let keys := tdel s.dust.keys id
    ({ s with dust := { s.dust with keys := keys, store := tdel s.dust.store id, lost := s.dust.lost.filter (· != id) },
              chip := setNum Obj.keyCount keys.length s.chip }, St.ok)

/-- KEY_REMOVE. -/
def execKeyRemove (r : Req) (id : BitVec 32) (s : State) : Host.Outcome State Fault Refusal :=
  serveRow r Obj.keyRemove (leBytes 4 id.toNat) (keyRemoveAct id.toNat) s

end Sys2Proof.Machine
end

