-- ==== Sys2Proof/Machine/Frame.lean ====
section
/-!
DEFINITION. The frame: the lookahead pass, the frame boundary in its order, the end of a frame, and the deadline (R24 to
R30, R73 to R77, R92, R163, R477, R478).
-/

namespace Sys2Proof.Machine

/-! ### The deadline (R256, R478) -/

/-- The task board ends the work of frame `k`: putty for missed passes, Cuts, one FRAME_MISS entry, late returns.
Entry 48, DESIGN CHOICE. -/
def deadline (k : Nat) (c : Chip) : Chip :=
  if k + 1 ≤ c.hawk.deadlineDone then c
  else
    let r := (tkeys c.trowel.cores 0 256).foldl (fun (a : List Nat × Chip) n =>
      let x := cutCore k n a.2
      (if x.1 then a.1 ++ [n / 16] else a.1, x.2)) ([], c)
    let gangs := r.1.eraseDups
    let c := forEach gangs (fun g c => bump (Obj.trowelGangMissedFrames g) c) r.2
    let c := match gangs with | g :: _ => snag 0x100A g 0xFF c | [] => c
    modHawk (fun h => { h with deadlineDone := k + 1 }) (exchangeDeadline k c)

/-- FRAME_DEADLINE: tick (k+1)B of the frame k last dispatched. Entry 4, DEDUCED. Entry 11, DESIGN CHOICE.
Entry 17, DESIGN CHOICE. -/
def execFrameDeadline (s : State) : Host.Outcome State Fault Refusal :=
  s.onChip (fun c =>
    if 1 ≤ c.hawk.boundaryDone ∧ c.hawk.boundaryDone * c.bsize ≤ c.time.stc then deadline (c.hawk.boundaryDone - 1) c else c)

/-! ### The end of a frame (R73, R74, R77, R134) -/

/-- STAGE, ATTEN and finished of the end envelope where frame `k` begins. -/
def Chip.endEnvAt (c : Chip) (k : Nat) (v : Voice) : Nat × Nat × Bool :=
  let d := c.voiceDef v
  let gi := (genIndex d.slots).2
  let v := catchUp c v d gi k (k - v.modFrame)
  envStatus d gi (stepVoice c v d gi v.mods (k * c.bsize)).1

/-- The END_REASON of a voice whose end condition holds where frame `k` begins. Entry 48, DESIGN CHOICE. -/
def Chip.endReasonOf (c : Chip) (k n : Nat) (v : Voice) : Option Nat :=
  let img := c.voiceImage v
  let src := field img 0xE 1
  if v.control then
    if v.release.isSome && (field img 7 1 == 0xFF || (c.endEnvAt k v).2.2) then some 1 else none
  else if v.state = .sounding ∨ v.state = .releasing then
    if !v.incoming && !v.shadow && belowEndLevel v.peak (field img 0xF 1) then
      if bit src 0 && (c.endEnvAt k v).2.2 then some 1
      else if bit src 1 && c.samplesEnded n v then some 2 else none
    else none
  else none

/-- Has a voice's stream, cut off by its drive, faded out (R291, R295)? Entry 48, DESIGN CHOICE. -/
def Chip.streamDead (c : Chip) (n : Nat) : Bool :=
  c.cursorList.any (fun x => x.2.voice == n && x.2.dying && decide (x.2.fadeLen c.bsize ≤ x.2.missing))

/-- One voice at the end of frame `k - 1`: its feather, STAGE, ATTEN and AGE, and its end. Entry 48, DESIGN CHOICE. -/
def voiceFrameEnd (k n : Nat) (c : Chip) : Chip :=
  match c.voice n with
  | none => c
  | some v =>
    if !v.live then c
    else
      let src := field (c.voiceImage v) 0xE 1
      let env := c.endEnvAt k v
      let st : Nat × Nat := if v.state = .feathering then (v.stage, v.atten)
        else if bit src 0 && !v.control then (env.1, env.2.1)
        else (if v.state = .releasing then 3 else 2, attenOf v.peak 8388608)
      let runs := v.state != .placed
      let dead := c.streamDead n
      let w := if v.control || !runs then v else
        { (v.featherStep c.bsize) with stage := st.1, atten := st.2, age := min 1023 (v.age + 1),
                                       endAt := if dead && v.endAt.isNone then some (k + 1, 9) else v.endAt }
      let c := syncFrame n (modVoice n (fun _ => w) c)
      match c.endReasonOf k n v with
      | some r => endVoice n r (k * c.bsize) c
      | none =>
        if w.state = .feathering ∧ w.featherLeft = 0 then endVoice n w.endReason (k * c.bsize) c else c

/-- The end of the frame last dispatched, where frame `k` begins. Entry 47, DESIGN CHOICE. -/
def frameEnd (k : Nat) (c : Chip) : Chip :=
  if c.hawk.boundaryDone ≤ c.hawk.endDone then c
  else
    let c := forEach (c.voiceList.map Prod.fst) (voiceFrameEnd k) c
    modHawk (fun h => { h with endDone := h.boundaryDone }) c

/-- Voices whose end waits for this boundary (R166, R225, R226). -/
def endDue (k : Nat) (c : Chip) : Chip :=
  forEach c.voiceList (fun x c => match x.2.endAt with
    | some (f, reason) => if f ≤ k then endVoice x.1 reason (k * c.bsize) c else c
    | none => c) c

/-- MAX_RELEASE: the time has passed since the release tick: the voice feathers from the next boundary (R73). -/
def execMaxRelease (s : State) : Host.Outcome State Fault Refusal :=
  s.onChip (fun c => forEach c.voiceList (fun x c =>
    let ms := field (c.voiceImage x.2) 0x12 2
    match x.2.release with
    | some (t, _, _) =>
      if x.2.state = .releasing ∧ !x.2.control ∧ ms ≠ 0 ∧ t + c.msTicks ms ≤ c.time.stc then
        featherVoice x.1 (c.frame + 1) 3 c else c
    | none => c) c)

/-- FEATHER_END: the feather is over at this tick: slots return at the next boundary (R73, R87). -/
def execFeatherEnd (s : State) : Host.Outcome State Fault Refusal :=
  s.onChip (fun c => forEach c.voiceList (fun x c =>
    if x.2.state = .feathering ∧ (x.2.featherStart + x.2.featherLen ≤ c.time.stc ∨ x.2.featherLeft = 0) then
      modVoice x.1 (fun v => { v with endAt := some (c.frame + 1, v.endReason) }) c else c) c)

/-! ### Placement (R24, R28, R29, R84, R88) -/

/-- Is an event a note-on? -/
def Event.isNoteOn (e : Event) : Bool := match eventKind e.r.entry with | .noteOn _ => true | _ => false

/-- Note-ons among some events create their voices, in event order. -/
def expandEvents (pick : Event → Bool) (c : Chip) : Chip :=
  forEach (c.inOrder (c.waitingEvents.filter (fun e => e.isNoteOn && pick e))) (fun e c =>
    match eventKind e.r.entry with
    | .noteOn nd => expandNoteOn e nd c
    | _ => c) c

/-- The lookahead pass for frame `f` (R24, R83). Entry 19, DESIGN CHOICE. -/
def lookahead (f : Nat) (c : Chip) : Chip :=
  let b := c.bsize
  let c := modHawk (fun h => { h with searches := searchBound b }) c
  let c := expandEvents (fun e => decide (e.r.accepted < (f - 1) * b) && !entryImmediate e.r.entry &&
    !lateAt b e.r.accepted e.r.entry && (e.r.point b).1 / b == f) c
  buildCaches (forEach (c.lookaheadStarts f) (runStart f false) c)

/-- LOOKAHEAD_PASS: during frame k - 1 Hawk places events accepted before it began whose onsets fall in frame k. -/
def execLookaheadPass (s : State) : Host.Outcome State Fault Refusal :=
  s.onChip (fun c => if c.time.silent || c.time.stopped then c else lookahead (c.frame + 1) c)

/-- A cut steal chosen in the lookahead pass is made; one whose candidate has gone is started like any other (R88).
Entry 48, DESIGN CHOICE. -/
def makeCut (k : Nat) (x : Nat × Nat × Start) (c : Chip) : Chip :=
  let n := x.2.2.voice
  match c.voice n with
  | none => c
  | some v =>
    let d := c.need v
    match c.cutFits d x.2.1 with
    | none => modHawk (fun h => { h with starts := h.starts ++ [{ x.2.2 with frame := k }] }) c
    | some core =>
      let c := (commitPlace n core k d (cutOut x.2.1 k c)).1
      let lead := ((c.voice n).map Voice.lead).getD 0
      when_ (v.home == some c.me) (modOwned v.id (fun o => { o with lead := lead })) c

/-- The cut steals of frame `k`. -/
def makeCuts (k : Nat) (c : Chip) : Chip :=
  let due := c.hawk.cuts.filter (fun x => decide (x.1 ≤ k))
  forEach due (makeCut k) (modHawk (fun h => { h with cuts := h.cuts.filter (fun x => !decide (x.1 ≤ k)) }) c)

/-- The boundary pass of frame `k`: note-ons, starts, the other events, release samples and feathers (R24, R29, R71 to
R73, R87). Entry 19, DESIGN CHOICE. Entry 47, DESIGN CHOICE. -/
def boundaryPass (k : Nat) (c : Chip) : Chip :=
  let b := c.bsize
  let c := modHawk (fun h => { h with chainPlaced := 0, started := h.started.filter (fun x => decide (k ≤ x.1)),
                                      controlStarted := h.controlStarted.filter (fun x => decide (k ≤ x.1)) }) c
  let c := expandEvents (fun e => decide (e.r.accepted < k * b) && decide ((e.r.point b).1 / b ≤ k)) (makeCuts k c)
  let c := forEach (c.boundaryStarts k) (runStart k true) c
  let c := forEach (c.inOrder (c.waitingEvents.filter (fun e => !e.isNoteOn && decide ((e.r.point b).1 < (k + 1) * b)))) applyEvent c
  let c := forEach (c.voiceList.map Prod.fst) (fun n c => startRelease n ((k + 1) * b) c) c
  let c := forEach c.voiceList (fun x c => match x.2.featherFrom with
    | some (f, reason) => if f ≤ k ∧ x.2.live ∧ x.2.state ≠ .feathering then beginFeather x.1 k reason c else c
    | none => c) c
  forEach c.voiceList (fun x c =>
    let starts := decide (x.2.state = .placed) && !x.2.incoming && decide (x.2.n0 / b ≤ k)
    modVoice x.1 (fun v => { v with passed := false, state := if starts then .sounding else v.state }) c) c

/-! ### Modulation at the boundary (R30, R108, R137, R477) -/

/-- A cluster that was busy and has not computed frame `k` is late. Entry 46, DESIGN CHOICE. -/
def lateClusters (k : Nat) (c : Chip) : Chip :=
  forEach ((upTo 4).filter (fun cl => c.clusterBusy cl && tget 0 c.stipple.computed cl != k + 1)) (fun cl c =>
    stippleLate cl k c) c

/-- The mod blocks of frame `k` as the events up to the boundary leave them, the seed pass of new voices among them; a
late cluster's older voices hold. -/
def modBlocks (k : Nat) (c : Chip) : Chip :=
  let c := evalGlobals k c
  let c := forEach c.voiceList (fun x c =>
    if x.2.modulates then
      let late := tget 0 c.stipple.late x.2.cluster == k + 1
      modVoice x.1 (evalVoice c k (late && decide (0 < x.2.blockFrame))) c
    else c) c
  forEach (c.voiceList.map Prod.fst) (fun n c => syncFrame n (writeModBlock n c)) (controlOutputs k c)

/-! ### What the chip publishes (R92, R498) -/

/-- This chip's capacity digest (R92). -/
def Chip.ownDigest (c : Chip) (k : Nat) : List Byte :=
  let b (v : Bool) (n : Nat) : Nat := if v then n else 0
  let best := c.bestScore
  leBytes 1 c.me ++ leBytes 1 (b c.isQuarantined 1 + b c.thermalLimit 4 + b (c.flag Obj.hawkAcceptRemote) 8) ++
  leBytes 2 (k % 65536) ++ leBytes 2 c.freeSlots ++ leBytes 2 c.freeReserve ++
  [1, 2, 3, 4].flatMap (fun w => leBytes 2 (c.coresWith w)) ++
  leBytes 2 best.1 ++ leBytes 1 best.2 ++ zeros 1 ++
  (upTo 16).flatMap (fun t => leBytes 2 (c.slotMax t - c.slotsUsed t)) ++ zeros 12

/-- The digest goes to every member. -/
def sendDigest (k : Nat) (c : Chip) : Chip :=
  when_ (decide (2 ≤ c.num Obj.chainState) && c.num Obj.chainState != 4)
    (sendLath 3 4 0xFF 0 ((c.ownDigest k).map BitVec.toNat)) c

/-- Records of chain-wide events whose onset boundary has come, four boundaries after they were forwarded (R498).
Entry 19, DESIGN CHOICE. -/
def freeForwarded (k : Nat) (c : Chip) : Chip :=
  forEach (c.work.journal.recs.filterMap (fun x => match x.2 with
    | some r => if r.forwarded.any (fun f => decide (f + 4 ≤ k)) && decide ((r.point c.bsize).1 / c.bsize ≤ k) then some x.1 else none
    | none => none)) freeRecord c

/-- What no later frame reads is dropped. -/
def purge (k : Nat) (c : Chip) : Chip :=
  modSkim (fun x => { x with hostIn := x.hostIn.filter (fun e => e.1 / 1024 != k % 2) })
    (modHawk (fun h => { h with rendered := h.rendered.filter (fun r => decide (k ≤ r.frame + 1)) }) c)

/-! ### The boundary -/

/-- Reserves and clocks take effect, and cores come back (R106, R139, R228, R565). -/
def takeSettings (k : Nat) (c : Chip) : Chip :=
  let c := modStipple (fun x => { x with reserve := c.num Obj.stippleGenReserve })
    (modHawk (fun h => { h with reserve := c.num Obj.hawkStealReserve }) c)
  restoreCores (takeClockSteps k c)

/-- The self-check slice of every active core, and where it does not match (R227). -/
def selfChecks (bad : List Nat) (c : Chip) : Chip := forEach c.activeCores (fun n c => selfCheck n (bad.contains n) c) c

/-- The work of frame `k` at its strobe. Entry 47, DESIGN CHOICE. -/
def openFrame (k : Nat) (bad : List Nat) (c : Chip) : Chip :=
  let c := modBlocks k (boundaryPass k (lateClusters k (presentStems c)))
  let c := ownStems k c
  let c := shipAsks k (loadBalance c)
  let c := selfChecks bad c
  let c := dispatchAll k (exchangeHeaders k (startThreads (takeTrips c)))
  sendSense k (fillCv k (sendSlots (sendDigest k c)))

/-- The boundary of frame `k`. Entry 47, DESIGN CHOICE. -/
def frameBoundary (k : Nat) (bad : List Nat) (c : Chip) : Chip :=
  let c := when_ (decide (1 ≤ c.hawk.boundaryDone)) (deadline (c.hawk.boundaryDone - 1)) c
  let c := endDue k (frameEnd k (takeSettings k c))
  if c.time.silent then c
  else
    let c := stepMigrations k c
    let c := modHawk (fun h => { h with boundaryDone := k + 1 }) c
    let c := openFrame k bad (purge k c)
    let c := freeOldSlots (noteElection (recheckCauses (settleHops (tdmBoundary c))))
    noteIdle (clearConflicts (sendRetireList (freeForwarded k c)))

/-- FRAME_BOUNDARY: the frame strobe at tick kB; `selfCheck` names the cores whose self-check slice does not match.
Entry 3, DESIGN CHOICE. -/
def execFrameBoundary (selfCheck : List (Fin 256)) (s : State) : Host.Outcome State Fault Refusal :=
  s.onChip (fun c =>
    if c.time.stc % c.bsize = 0 ∧ c.hawk.boundaryDone ≤ c.frame ∧ !c.time.stopped then
      frameBoundary c.frame (selfCheck.map Fin.val) c else c)

end Sys2Proof.Machine
end

