-- ==== Sys2Proof/Machine/Actions.lean ====
section
/-!
DEFINITION. The own rule of every object that can be written, by object number: what a WRITE, or the end of a write
session, does with a value that has passed steps 1 to 7 of R427.
-/

namespace Sys2Proof.Machine

/-- An object with no rule of its own takes the value (R418). Entry 39, DEDUCED. -/
def plainAct (o : Nat) (data : List Byte) : Act := chipAct (fun _ c => (storeValue o data c, St.ok))

/-- It takes the value when a condition holds; else the write ends with a status. -/
def plainIf (o : Nat) (data : List Byte) (st : Nat) (ok : Nat → Chip → Bool) : Act :=
  actWhen (fun m c => if ok m c then St.ok else st) (fun _ c => storeValue o data c)

/-- A write that does nothing and is answered OK. -/
def idleAct : Act := chipAct (fun _ c => (c, St.ok))

/-! ### Areas 0x01, 0x10 -/

/-- The two scratchpad partitions fit a megabyte (R170). Entry 39, DEDUCED. -/
def scratchAct (o : Nat) (data : List Byte) : Act := plainIf o data St.badValue (fun _ c =>
  let c := storeValue o data c
  decide (c.num Obj.trowelScratchVoiceBytes + c.num Obj.trowelScratchTableBytes ≤ 1048576))

/-- Trowel.Code.Image is a staging image (R169, R492). -/
def codeImageAct (data : List Byte) : Act :=
  actWhen (fun m c => if c.leasedByOther 2 Obj.trowelCodeImage m then St.busy else St.ok)
    (fun m c => stageLease Obj.trowelCodeImage m (setBlob Obj.trowelCodeImage data c))

/-- Objects of a thread but its mode are written while it is OFF (R230). -/
def threadAct (k o : Nat) (data : List Byte) : Act :=
  plainIf o data St.refused (fun _ c => c.num (Obj.trowelThreadMode k) == 0)

/-- Core.Retired: the outcome of the self-check is an open value here (entry 6, DESIGN CHOICE); CORE_REINSTATE names it.
Entry 39, DEDUCED. -/
def retiredAct (core v : Nat) : Act := fun m s =>
  if v = 0 then
    let d := draw s.chip
    reinstateAct core (d.1 % 2 == 0) m { s with chip := d.2 }
  else (s, St.ok)

/-- Memory.Journal.Reinstate: which rows fail their test again is open here (entry 6, DESIGN CHOICE); JOURNAL_REINSTATE names them.
Entry 40, DESIGN CHOICE. -/
def journalReinstateAct : Act := chipAct (fun _ c =>
  let r := c.work.journal.retiredRows.foldl (fun (a : List Nat × Chip) row =>
    let d := draw a.2
    (if d.1 % 2 = 0 then a.1 else a.1 ++ [row], d.2)) ([], c)
  (reinstateRows r.1 r.2, St.ok))

/-- Every entry that is not EMPTY names a tenant's master; entries past those written read EMPTY (R423). -/
def bindAct (data : List Byte) : Act :=
  actWhen (fun _ _ => if (upTo (data.length / 8)).all (fun i =>
      let e := bindEntry data i
      decide (0x10 ≤ field e 3 1) && decide (field e 3 1 ≤ 0x1F)) then St.ok else St.badValue)
    (fun _ c => setBlob Obj.ndpBind (slice data 0 512) c)

/-- Area 0x01: the Trowel array, memories, the binding of requesters, boot and power. -/
def systemAction (o : Nat) (data : List Byte) : Act :=
  let ix := objIndexOf o
  let sub := objSubOf o
  let v := leNat data
  if ix = 0x1000 ∨ ix = 0x1001 then scratchAct o data
  else if o = Obj.trowelCodeImage then codeImageAct data
  else if o = Obj.trowelCodeLoad then codeLoadAct
  else if 0x1400 ≤ ix ∧ ix < 0x1800 ∧ sub = 7 then (if v = 1 then taskEnableAct (ix - 0x1400) else taskDisableAct (ix - 0x1400))
  else if 0x1800 ≤ ix ∧ ix < 0x1C00 then (if sub = 3 then threadModeAct (ix - 0x1800) v else threadAct (ix - 0x1800) o data)
  else if 0x1D00 ≤ ix ∧ ix < 0x1E00 ∧ sub = 2 then retiredAct (ix - 0x1D00) v
  else if o = Obj.memoryDramReinstate then dramReinstateAct
  else if o = Obj.memoryJournalReinstate then journalReinstateAct
  else if o = Obj.memoryConflictClear then conflictClearAct
  else if o = Obj.ndpBind then bindAct data
  else if o = Obj.bootCommitRollback then commitRollbackAct
  else if o = Obj.bootRevokeKeySlot then revokeAct v
  else if o = Obj.bootUpdateImage then updateImageAct data
  else if o = Obj.bootUpdateCommit then updateCommitAct
  else if o = Obj.powerRequest then standbyAct
  else plainAct o data

/-- Area 0x10: tenants and access tables. -/
def tenantAction (o : Nat) (data : List Byte) : Act :=
  let ix := objIndexOf o
  let sub := objSubOf o
  let v := leNat data
  if ix < 0x10 ∧ sub = 1 then tenantEnableAct ix (v == 1)
  else if ix < 0x10 ∧ sub = 4 then tenantResetAct ix (v == 2)
  else if ix < 0x10 ∧ sub = 0xF then chipAct (fun _ c => (setEnables ix v c, St.ok))
  else if o = Obj.accessTable then chipAct (fun _ c => (modWork (fun w => { w with accessStaged := data }) c, St.ok))
  else if o = Obj.accessWrite then accessAct (v == 2)
  else plainAct o data

/-! ### Areas 0x20 to 0x22 -/

/-- The Image and Commit objects of one handle (R53). -/
def handleAction (k : SetupKind) (n sub : Nat) (data : List Byte) : Act :=
  if sub = 1 then stageAct k n data
  else if leNat data = 1 then commitAct k n else withdrawAct k n

/-- Areas 0x20 and 0x22: handles, and global generators. -/
def setupAction (o : Nat) (data : List Byte) : Act :=
  let a := objAreaOf o
  let ix := objIndexOf o
  let sub := objSubOf o
  if 0x1000 ≤ ix ∧ ix < 0x2000 ∧ (sub = 1 ∨ sub = 2) then handleAction (if a = 0x20 then .template else .modset) (ix - 0x1000) sub data
  else if 0x2000 ≤ ix ∧ ix < 0x3000 ∧ (sub = 1 ∨ sub = 2) then handleAction (if a = 0x20 then .layer else .control) (ix - 0x2000) sub data
  else if a = 0x22 ∧ 0x3000 ≤ ix ∧ ix < 0x4000 ∧ sub = 3 then
    (if leNat data = 1 then globalEnableAct (ix - 0x3000) else chipAct (fun _ c => (globalDisable (ix - 0x3000) c, St.ok)))
  else plainAct o data

/-- Area 0x21: Hawk. Entry 39, DEDUCED. -/
def hawkAction (o : Nat) (data : List Byte) : Act :=
  if o = Obj.hawkStealReserve then stealReserveAct (leNat data)
  else if o = Obj.hawkMigrateGo then migrateAct
  else if 0x200 ≤ objIndexOf o ∧ objIndexOf o < 0x210 ∧ objSubOf o = 2 then
    plainIf o data St.refused (fun _ c => (storeValue o data c).slotMinFits (c.num Obj.hawkStealReserve))
  else plainAct o data

/-! ### Areas 0x30 and 0x31 -/

/-- Skim.Exchange.Task is written while Dir is OFF, with W on the channel (R411, R468). Entry 55, DEDUCED. -/
def exchangeTaskAct (x o : Nat) (data : List Byte) : Act :=
  actWhen (fun m c => if !c.may 0x0E x m 1 then St.noAccess
      else if c.num (Obj.skimExchangeDir x) ≠ 0 then St.busy else St.ok)
    (fun _ c => storeValue o data c)

/-- Area 0x30: coats, exchange channels, safe-load slots and the wet edge. -/
def skimAction (o : Nat) (data : List Byte) : Act :=
  let ix := objIndexOf o
  let sub := objSubOf o
  let v := leNat data
  if o = Obj.skimCoatImage then coatImageAct data
  else if o = Obj.skimCoatCommit then (if v = 1 then coatCommitAct else coatClearAct)
  else if o = Obj.skimWetEdgeGo then (if v = 1 then wetGoAct else wetCancelAct)
  else if 0x4000 ≤ ix ∧ ix < 0x4200 then (if sub = 1 then exchangeDirAct (ix - 0x4000) v else exchangeTaskAct (ix - 0x4000) o data)
  else if 0x5000 ≤ ix ∧ ix < 0x5100 then
    (if sub = 1 then safeLoadImageAct (ix - 0x5000) data
     else if v = 1 then safeLoadCommitAct (ix - 0x5000) else safeLoadCancelAct (ix - 0x5000))
  else plainAct o data

/-- LookAhead, DetSource and Link of an instance (R263, R264). -/
def screedSetupAct (n o : Nat) (data : List Byte) : Act :=
  let v := leNat data
  actWhen (fun m c =>
      if o = Obj.screedInstLink n ∧ v ≠ n ∧ v ≠ 0xFFFF ∧ (256 ≤ v ∨ c.num (Obj.screedInstLink v) ≠ v) then St.badValue
      else if !screedMay c n m then St.noAccess
      else if c.instOn n then St.busy else St.ok)
    (fun _ c => storeValue o data c)

/-- Area 0x31: Screed. -/
def screedAction (o : Nat) (data : List Byte) : Act :=
  let ix := objIndexOf o
  let sub := objSubOf o
  let v := leNat data
  if 0x1000 ≤ ix ∧ ix < 0x1100 then
    (if sub ≤ 8 then screedRwsAct (ix - 0x1000) (sub - 1) v else screedSetupAct (ix - 0x1000) o data)
  else if 0x2000 ≤ ix ∧ ix < 0x2080 then screedRwsAct (ix - 0x2000 + 0x100) (sub - 1) v
  else screedRwsAct (ix - 0x3000 + 0x200) (sub - 1) v

/-! ### Area 0x40 -/

/-- Hod.Volume.Serve: members learn of it (R292). -/
def serveAct (o : Nat) (data : List Byte) : Act := chipAct (fun _ c => (sendOffers (storeValue o data c), St.ok))

/-- Area 0x40: Hod. Entry 39, DEDUCED. -/
def hodAction (o : Nat) (data : List Byte) : Act :=
  let ix := objIndexOf o
  let sub := objSubOf o
  let v := leNat data
  if 0x100 ≤ ix ∧ ix < 0x10C then (if v = 0 then driveReinstateAct (ix - 0x100) else idleAct)
  else if 0x200 ≤ ix ∧ ix < 0x210 ∧ sub = 4 then
    (match v with | 0 => unmountAct (ix - 0x200) | 1 => mountAct (ix - 0x200) | _ => formatAct (ix - 0x200))
  else if 0x200 ≤ ix ∧ ix < 0x210 ∧ sub = 0xA then preloadAct (ix - 0x200) (v == 1)
  else if 0x200 ≤ ix ∧ ix < 0x210 ∧ sub = 0xB then serveAct o data
  else if o = Obj.hodImportData then importDataAct data
  else if o = Obj.hodImportCommit then
    (match v with | 1 => importBeginAct | 2 => importFinishAct | _ => importDeleteAct)
  else if o = Obj.hodCacheHeadBytes then plainIf o data St.badValue (fun _ c => decide (v ≤ c.num Obj.hodCacheBytes))
  else plainAct o data

/-! ### Areas 0x50, 0x60 and 0x70 -/

/-- Area 0x50: chain ports and the chain. -/
def chainAction (o : Nat) (data : List Byte) : Act :=
  let ix := objIndexOf o
  let sub := objSubOf o
  let v := leNat data
  if ix = 0x1000 ∨ ix = 0x1001 then
    (match sub with
      | 0x01 => portEnableAct (ix - 0x1000) v
      | 0x0C => portReinstateAct (ix - 0x1000) v
      | 0x0D => portResetAct (ix - 0x1000)
      | _ => lathAct (storeValue o data))
  else if 0x1100 ≤ ix ∧ ix < 0x1108 then laneReinstateAct (ix - 0x1100) v
  else if o = Obj.chainQuarantineRequest then quarantineRequestAct (v == 1)
  else if o = Obj.chainQuarantineResync then resyncAct
  else plainAct o data

/-- Q_BASE and Q_BIND (R392, R407, R416): sub-indices 1 and 3. Entry 39, DEDUCED. -/
def queueFieldAct (p : Path) (i sub v : Nat) : Act := fun m s =>
  let c := s.chip
  let bar := match p with | .bar _ => true | _ => false
  if sub = 1 ∧ !c.hasFunction (i / 32) then (s, St.readOnly)
  else if !queueMay c p m i then (s, St.noAccess)
  else if 28 ≤ i % 32 then (s, St.ok)
  else if (c.queue i).state ≠ .disabled then (s, if bar then St.ok else St.busy)
  else ({ s with chip := modQueue i (fun q => if sub = 1 then { q with base := v } else { q with bind := v }) c }, St.ok)

/-- Area 0x60: queues. -/
def queueAction (p : Path) (o : Nat) (data : List Byte) : Act :=
  let i := objIndexOf o
  let v := leNat data
  match objSubOf o with
  | 2 => cfgAct p i v
  | 7 => seqAct p i v
  | sub => queueFieldAct p i sub v

/-- A timer unit's object (R463 to R465). -/
def timerAct (u sub o : Nat) (data : List Byte) : Act :=
  let v := leNat data
  actWhen (fun _ c =>
      if 5 ≤ sub ∧ sub ≤ 8 ∧ 2 ^ c.num (Obj.timerWidth u) ≤ v then St.badValue
      else if (sub = 1 ∨ sub = 2 ∨ sub = 4) ∧ c.flag (Obj.timerEnable u) then St.busy else St.ok)
    (fun _ c =>
      let c := storeValue o data c
      if sub = 3 then markTimer u (c.clockCount (c.num (Obj.timerClock u))) c
      else if sub = 7 ∨ sub = 8 then setNum (Obj.timerStatus u) (withBit (c.num (Obj.timerStatus u)) (sub - 5) true) c
      else c)

/-- Area 0x70: Plumb. -/
def plumbAction (o : Nat) (data : List Byte) : Act :=
  let ix := objIndexOf o
  if o = Obj.plumbClockSource then clockSourceAct (leNat data)
  else if 0x1000 ≤ ix ∧ ix < 0x1010 then timerAct (ix - 0x1000) (objSubOf o) o data
  else plainAct o data

/-! ### Area 0x80 -/

/-- UARTs (R508 to R525). -/
def uartAction (u sub o : Nat) (data : List Byte) : Act :=
  let v := leNat data
  match sub with
  | 0x01 | 0x02 | 0x03 => uartCfgAct u (sub - 1) v
  | 0x07 | 0x08 => xonLevelAct u o v
  | 0x0B => muteAct u v
  | 0x0F => uartTxAct u data
  | 0x20 | 0x21 | 0x22 | 0x23 => dmxTimingAct u o v
  | 0x27 => rdmRequestAct u data
  | 0x2E => rdmOutboxAct u data
  | 0x30 => midiBindAct u false v
  | 0x31 => midiBindAct u true v
  | _ => uartAct u o data

/-- CAN controllers (R441, R442). -/
def canAction (k sub o : Nat) (data : List Byte) : Act :=
  let v := leNat data
  match sub with
  | 0x01 => canModeAct k v
  | 0x03 | 0x05 => canRateAct k o v
  | 0x08 | 0x09 => canIdAct k o v
  | 0x11 => canRestartAct k
  | 0x12 => if v = 0 then canReinstateAct k else idleAct
  | 0x13 => canAbortAct k
  | _ => plainAct o data

/-- Area 0x80: serial ports, CAN, CV, sense and TDM. -/
def portAction (o : Nat) (data : List Byte) : Act :=
  let ix := objIndexOf o
  let sub := objSubOf o
  let v := leNat data
  if 0x1000 ≤ ix ∧ ix < 0x1004 then uartAction (ix - 0x1000) sub o data
  else if ix = 0x2000 ∨ ix = 0x2001 then canAction (ix - 0x2000) sub o data
  else if o = Obj.canRedundancy then canRedundancyAct v
  else if 0x2100 ≤ ix ∧ ix < 0x2180 ∧ sub = 6 then slotEnableAct (ix - 0x2100) (v == 1)
  else if 0x3000 ≤ ix ∧ ix < 0x3020 then
    (match sub with | 1 => cvEnableAct (ix - 0x3000) v | 7 => cvReinstateAct (ix - 0x3000) v | _ => cvTrimAct (ix - 0x3000) o v)
  else if 0x4000 ≤ ix ∧ ix < 0x4010 ∧ (sub = 4 ∨ sub = 5) then senseBindAct (ix - 0x4000) (sub == 5) v
  else if 0x5000 ≤ ix ∧ ix < 0x5008 then tdmAct (ix - 0x5000) o v
  else plainAct o data

/-! ### Areas 0x90 and 0xA0, and all of them -/

/-- Area 0x90: resets, the supervisor, and replay. -/
def resetAction (o : Nat) (data : List Byte) : Act :=
  let ix := objIndexOf o
  if o = Obj.resetRequest then resetRequestAct (leNat data)
  else if 0x100 ≤ ix ∧ ix < 0x110 then gangResetAct (ix - 0x100)
  else if 0x200 ≤ ix ∧ ix < 0x300 then coreResetAct (ix - 0x200)
  else if 0x1000 ≤ ix ∧ ix < 0x1010 ∧ objSubOf o = 3 then replayGoAct (ix - 0x1000)
  else plainAct o data

/-- Area 0xA0: life cycle, tamper and keys. -/
def securityAction (o : Nat) (data : List Byte) : Act :=
  if o = Obj.lifecycleAdvance then advanceAct (leNat data)
  else if o = Obj.tamperMask then tamperMaskAct (leNat data)
  else if o = Obj.keyInstall then keyInstallAct (leNat (slice data 0 4)) (slice data 4 40)
  else if o = Obj.keyRemove then keyRemoveAct (leNat data)
  else plainAct o data

/-- What a write of `data` to object `o` by a path does. Entry 36, DESIGN CHOICE. -/
def objectAction (p : Path) (o : Nat) (data : List Byte) : Act :=
  match objAreaOf o with
  | 0x01 => systemAction o data
  | 0x10 => tenantAction o data
  | 0x20 | 0x22 => setupAction o data
  | 0x21 => hawkAction o data
  | 0x30 => skimAction o data
  | 0x31 => screedAction o data
  | 0x40 => hodAction o data
  | 0x50 => chainAction o data
  | 0x60 => queueAction p o data
  | 0x70 => plumbAction o data
  | 0x80 => portAction o data
  | 0x90 => resetAction o data
  | 0xA0 => securityAction o data
  | _ => plainAct o data

end Sys2Proof.Machine
end

