-- ==== Sys2Proof/Machine/Dictionary.lean ====
section
/-!
DEFINITION. What a READ returns: the values that the dictionary computes from the state, the stored ones, the checks of a read
and its side effects (R76, R415, R417, R424, R426, R427, R483, R510).
-/

namespace Sys2Proof.Machine

/-! ### Numbers that are computed -/

/-- THREAD STATE (R230). -/
def ThreadState.code : ThreadState → Nat
  | .off => 0 | .idle => 1 | .ready => 2 | .run => 3 | .parked => 4

/-- Area 0x01: Trowel, memory and Nerlil. -/
def systemNum (c : Chip) (o : Nat) : Option Nat :=
  let ix := objIndexOf o
  if o = Obj.trowelScratchEffectBytes then some c.effectBytes
  else if 0x1800 ≤ ix ∧ ix < 0x1C00 ∧ objSubOf o = 7 then some (c.threadState (ix - 0x1800)).code
  else if o = Obj.memoryDramBytes then some Config.dramBytes
  else if o = Obj.memoryDramUsable then some c.dramUsable
  else if o = Obj.ndpSessions then some (c.work.sessions.filter (fun x => x.ended == .isOpen)).length
  else none

/-- Area 0x10: tenants. -/
def tenantNum (c : Chip) (o : Nat) : Option Nat :=
  let t := objIndexOf o
  if 16 ≤ t then none else match objSubOf o with
  | 2 => some (match c.tenantState t with | .disabled => 0 | .active => 1 | .resetting => 2)
  | 3 => some (if c.hasFunction t then t else 0xFF)
  | _ => none

/-- The status, version and cost objects of one handle. -/
def handleNum (c : Chip) (k : SetupKind) (n sub : Nat) : Option Nat :=
  let v := c.newest k n
  let hash := v.elim 0 (·.hash)
  match k, sub with
  | _, 3 => some (c.handleStatus k n)
  | .template, 5 => some (v.elim 0 (fun x => templateCost x.image))
  | .template, 6 => some (v.elim 0 (fun x => if c.dormant x.image then 0 else c.weight x.image))
  | .template, 7 => some (c.ownerOf k n)
  | .template, 8 => some hash
  | .template, 9 => some (c.handle k n).versions.length
  | .layer, 5 | .modset, 5 => some (c.ownerOf k n)
  | .layer, 6 | .control, 5 => some hash
  | _, _ => none

/-- Committed handles of a kind. -/
def Chip.committedCount (c : Chip) (k : SetupKind) : Nat := ((c.handles k).filter (fun x => x.2.current.isSome)).length

/-- Areas 0x20 and 0x22: setup objects and Stipple. -/
def setupNum (c : Chip) (o : Nat) : Option Nat :=
  let ix := objIndexOf o
  let sub := objSubOf o
  if o = Obj.templatesCommitted then some (c.committedCount .template)
  else if o = Obj.layersCommitted then some (c.committedCount .layer)
  else if objAreaOf o = 0x20 then
    (if 0x1000 ≤ ix ∧ ix < 0x2000 then handleNum c .template (ix - 0x1000) sub
     else if 0x2000 ≤ ix ∧ ix < 0x3000 then handleNum c .layer (ix - 0x2000) sub else none)
  else if 0x1000 ≤ ix ∧ ix < 0x2000 then handleNum c .modset (ix - 0x1000) sub
  else if 0x2000 ≤ ix ∧ ix < 0x3000 then handleNum c .control (ix - 0x2000) sub
  else if 0x3000 ≤ ix ∧ ix < 0x4000 ∧ sub = 4 then
    some (if (c.stipple.globals.any (fun x => x.1 == ix - 0x3000)) then ofInt 16 (c.globalAt (ix - 0x3000) (stepOf c.time.stc)) else 0)
  else if o = Obj.stipplePoolSize then some (4 * c.genPool)
  else if o = Obj.stippleGenFree then some ((upTo 4).map c.genFree).sum
  else if ix = 3 then some (c.genFree (sub - 1))
  else if o = Obj.stippleControlVoices then some c.controlCount
  else none

/-- Area 0x21: Hawk. -/
def hawkNum (c : Chip) (o : Nat) : Option Nat :=
  let ix := objIndexOf o
  if o = Obj.hawkSlotsFree then some c.freeSlots
  else if o = Obj.hawkReserveFree then some c.freeReserve
  else if o = Obj.hawkStartsPerFrame then some (startBound c.bsize)
  else if o = Obj.hawkStealsPerFrame then some (searchBound c.bsize)
  else if o = Obj.hawkOwnershipUsed then some c.hawk.owned.length
  else if 0x200 ≤ ix ∧ ix < 0x210 ∧ objSubOf o = 5 then some (c.slotsUsed (ix - 0x200))
  else none

/-- Area 0x30: Skim. -/
def skimNum (c : Chip) (o : Nat) : Option Nat :=
  let ix := objIndexOf o
  if o = Obj.skimLaneCycles then some (laneCycles c.time.rate)
  else if o = Obj.skimSendReserve then some (sendReserve c.time.rate)
  else if o = Obj.skimCoatBudget then some (coatBudget c.time.rate)
  else if o = Obj.skimCoatStatus then some c.coatStatus
  else if 0x1000 ≤ ix ∧ ix < 0x3000 then
    (match objSubOf o with
     | 1 => some (ofInt 32 (c.rampGain (ix - 0x1000)))
     | 2 => some (ofInt 32 (c.rampTarget (ix - 0x1000)))
     | 3 => some (c.ramp (ix - 0x1000)).left
     | _ => none)
  else if 0x3000 ≤ ix ∧ ix < 0x3400 ∧ objSubOf o = 1 then some (min 0x7FFFFFFF (tget 0 c.skim.framePeaks (ix - 0x3000)))
  else none

/-- Q_STATUS (R392, R407). -/
def Chip.queueStatus (c : Chip) (i : Nat) : Nat :=
  if 28 ≤ i % 32 then (if c.tenantState (i / 32) = .active then 1 else 0)
  else
    let q := c.queue i
    (match q.state with | .disabled => 0 | .running => 1 | .halted => 2) +
    256 * (match q.error with | .none => 0 | .badConfig => 1 | .dmaError => 2 | .linkDown => 3 | .badDoorbell => 4 | .quota => 5)

/-- A register of a queue by the sub-index of its object (R392, R416). -/
def Chip.queueReg (c : Chip) (i sub : Nat) : Nat :=
  let q := c.queue i
  if sub = 4 then c.queueStatus i
  else if 28 ≤ i % 32 then 0
  else match sub with
    | 1 => q.base | 2 => q.cfg | 3 => q.bind | 5 => q.head | 6 => q.tail | 7 => q.seq | 8 => q.count | _ => 0

/-- Area 0x70: what Plumb computes. -/
def plumbNum (c : Chip) (o : Nat) : Option Nat :=
  if o = Obj.plumbChainTime then some c.now
  else if o = Obj.plumbBeatPos then some (c.beatPos (stepOf c.time.stc))
  else if o = Obj.plumbRefState then
    (match c.time.transition with | some x => if 1 ≤ x.phase then some 7 else none | none => none)
  else none

/-- Live local records of a tenant, or of all (R496, R499). -/
def Chip.liveRecords (c : Chip) (t : Option Nat) : Nat :=
  (c.work.journal.recs.filter (fun x => match x.2 with
    | some r => (match t with | some n => r.tenant == n | none => true)
    | none => false)).length

/-- The log of a tenant. -/
def Chip.tenantLog (c : Chip) (t : Nat) : SnagLog := tget {} c.work.tenantLogs t

/-- Area 0x90: faults and the journal. -/
def faultNum (c : Chip) (o : Nat) : Option Nat :=
  let ix := objIndexOf o
  if o = Obj.faultSystemLost then some c.work.systemLog.lost
  else if o = Obj.faultJournalCapacity then some c.work.journal.capacity
  else if o = Obj.faultJournalLive then some (c.liveRecords none)
  else if 0x1000 ≤ ix ∧ ix < 0x1010 then
    (match objSubOf o with
     | 2 => some (c.tenantLog (ix - 0x1000)).lost
     | 4 => some (match tget .none c.work.journal.replay (ix - 0x1000) with | .none => 0 | .waiting => 1 | .done => 2)
     | 5 => some (c.liveRecords (some (ix - 0x1000)))
     | _ => none)
  else none

/-- DustSheet.State (R321). -/
def DustState.code : DustState → Nat
  | .ready => 0 | .wiping => 1 | .wiped => 2 | .fault => 3

/-- What a number object reads: a computed value, else the stored one. Entry 65, DESIGN CHOICE. -/
def numValue (s : State) (o : Nat) : Nat :=
  let c := s.chip
  let x : Option Nat := match objAreaOf o with
    | 0x01 => systemNum c o
    | 0x10 => tenantNum c o
    | 0x20 | 0x22 => setupNum c o
    | 0x21 => hawkNum c o
    | 0x30 => skimNum c o
    | 0x40 => if o = Obj.hodCursorsFree then some c.cursorsFree else none
    | 0x50 => if o = Obj.chainConfigHash then some c.configHash
              else if o = Obj.chainClockClass then some c.electClass else none
    | 0x60 => some (c.queueReg (objIndexOf o) (objSubOf o))
    | 0x70 => plumbNum c o
    | 0x80 =>
      if 0x1000 ≤ objIndexOf o ∧ objIndexOf o < 0x1004 ∧ objSubOf o = 0x11 then some (c.uartStatus (objIndexOf o - 0x1000)) else none
    | 0x90 => faultNum c o
    | 0xA0 => if o = Obj.dustSheetState then some s.dust.state.code else none
    | _ => none
  x.getD (c.num o)

/-! ### Octets that are computed -/

/-- An entry of a gang's semaphore table (R230; its layout is not stated). Entry 29, DESIGN CHOICE. -/
def semBytes (x : Sem) : List Byte :=
  slice (Config.semEntry (match x.held with
    | some h => [1, h.core, h.thread, h.tenant, h.expiry, if x.revoked then 1 else 0]
    | none => [0, 0, 0, 0, 0, if x.revoked then 1 else 0])) 0 16

/-- Eight counts in quota order (R414, R415); `mbps` is the present use of StreamMBps, which the spec gives no count for. -/
def usedCounts (c : Chip) (t mbps : Nat) : List Nat :=
  [c.tenantCycles t, heldUnits c 6 (0x10 + t), heldUnits c 7 (0x10 + t), c.gensUsed t, c.controlUsed t, c.cursorsUsed t, mbps,
   max (hostChannels c t true) (hostChannels c t false)]

/-- A lease's 16 octets (R493). Entry 93, DEDUCED. -/
def leaseBytes (kind owner unit expiry : Nat) : List Byte :=
  leBytes 1 kind ++ leBytes 1 owner ++ zeros 2 ++ leBytes 4 unit ++ leBytes 8 expiry

/-- The leases that Fault.Leases lists: those held, and the open write sessions (R428, R492); a session's UNIT is its TXN.
Entry 93, DEDUCED. -/
def Chip.leaseList (c : Chip) : List Byte :=
  c.work.leases.flatMap (fun l => leaseBytes l.kind l.owner l.unit l.expiry) ++
  (c.work.sessions.filter (fun x => x.ended == .isOpen)).flatMap (fun x => leaseBytes 3 (x.master.getD 0xFF) x.txn x.expiry)

/-- A log as it is read, oldest entry first (R484). -/
def SnagLog.bytes (l : SnagLog) : List Byte := l.entries.reverse.flatMap Snag.bytes

/-- The kind and number of a handle's Image object. -/
def imageHandle (o : Nat) : Option (SetupKind × Nat) :=
  let ix := objIndexOf o
  if objSubOf o ≠ 1 then none
  else if objAreaOf o = 0x20 then
    (if 0x1000 ≤ ix ∧ ix < 0x2000 then some (.template, ix - 0x1000) else if 0x2000 ≤ ix ∧ ix < 0x3000 then some (.layer, ix - 0x2000)
     else none)
  else if objAreaOf o = 0x22 then
    (if 0x1000 ≤ ix ∧ ix < 0x2000 then some (.modset, ix - 0x1000) else if 0x2000 ≤ ix ∧ ix < 0x3000 then some (.control, ix - 0x2000)
     else none)
  else none

/-- Bit n of an octet string is set for every number listed. -/
def bitmap (n : Nat) (l : List Nat) : List Byte :=
  leBytes n ((l.filter (fun i => decide (i < 8 * n))).eraseDups.map (fun i => 2 ^ i)).sum

/-- Is an object one of the conflict tables (R310)? Entry 65, DESIGN CHOICE. -/
def isConflictTable (o : Nat) : Bool :=
  let ix := objIndexOf o
  objAreaOf o == 0x01 && ((decide (0x2100 ≤ ix) && decide (ix < 0x2210)) || ix == 0x2300 || ix == 0x2301 || ix == 0x2302)

/-- Octets of an open value. Entry 65, DESIGN CHOICE. -/
def drawBytes (n : Nat) (c : Chip) : List Byte × Chip := let d := draw c; (leBytes n d.1, d.2)

/-- What an octet object reads, but for the slot table; values the spec leaves open are drawn. -/
def bytesValue (o : Nat) (s : State) : List Byte × Chip :=
  let c := s.chip
  let ix := objIndexOf o
  if o = Obj.memorySramCorrected then ((tgets 0 c.errs.corrected 0 531).flatMap (leBytes 4), c)
  else if o = Obj.memorySramUncorrected then ((tgets 0 c.errs.uncorrected 0 547).flatMap (leBytes 4), c)
  else if o = Obj.memoryJournalRetiredMap then (bitmap 1024 c.work.journal.retiredRows, c)
  else if isConflictTable o then (if c.errs.clearedAt = c.time.stc + 1 then (zeros 2048, c) else drawBytes 2048 c)
  else if objAreaOf o = 0x01 ∧ 0x1C00 ≤ ix ∧ ix < 0x1C10 ∧ objSubOf o = 2 then
    ((tgets {} c.trowel.sems (64 * (ix - 0x1C00)) 64).flatMap semBytes, c)
  else if objAreaOf o = 0x10 ∧ ix < 16 ∧ objSubOf o = 0x0D then
    let d := draw c
    ((usedCounts c ix d.1).flatMap (leBytes 4), d.2)
  else if objAreaOf o = 0x10 ∧ ix < 16 ∧ objSubOf o = 0x0E then (leBytes 16 (c.tenant ix).evtStatus, c)
  else if objAreaOf o = 0x10 ∧ ix < 16 ∧ objSubOf o = 0x0F then (leBytes 16 (c.tenant ix).evtEnable, c)
  else if o = Obj.accessTable then (c.accessTable (c.num Obj.accessKind) (c.num Obj.accessFirst), c)
  else if objAreaOf o = 0x50 ∧ 0x3000 ≤ ix ∧ ix < 0x4000 then
    (leBytes 16 ((c.newest .template (ix - 0x3000)).elim 0 (·.holders)), c)
  else if o = Obj.plumbStc then
    let d := draw c
    (leBytes 8 c.time.stc ++ leBytes 1 d.1, d.2)
  else if o = Obj.plumbRebase then
    (leBytes 8 c.time.rebaseTick ++ leBytes 8 c.time.rebaseNs ++ leBytes 4 c.time.rebaseHz ++ zeros 4, c)
  else if o = Obj.faultSystemLog then (c.work.systemLog.bytes, c)
  else if objAreaOf o = 0x90 ∧ 0x1000 ≤ ix ∧ ix < 0x1010 ∧ objSubOf o = 1 then ((c.tenantLog (ix - 0x1000)).bytes, c)
  else if o = Obj.faultSnapshots then (c.work.snapshots.reverse.flatMap Prod.snd, c)
  else if o = Obj.faultLeases then (c.leaseList, c)
  else match imageHandle o with
    | some (k, n) => ((c.handle k n).staging, c)
    | none => (c.blob o, c)

/-- Octets `off` to `off + lim - 1` of the slot table: 16 octets an entry (R76). -/
def slotTable (c : Chip) (off lim : Nat) : List Byte :=
  let n := min lim (262144 - off)
  slice (((upTo (n / 16 + 2)).map (fun i => off / 16 + i)).flatMap (fun i => if i < 16384 then leBytes 16 (c.slotEntry i) else []))
    (off % 16) n

/-- An object's value from an octet on: its length, the octets returned, and the state with its open values drawn. -/
def valueFrom (o off lim : Nat) (s : State) : Nat × List Byte × Chip :=
  if o = Obj.hawkSlotTable then (262144, slotTable s.chip off lim, s.chip)
  else match objFind o with
    | some ⟨_, _, _, .num n _, _, _, _, _, _⟩ =>
      if objAreaOf o = 0x50 ∧ (objIndexOf o = 0x1000 ∨ objIndexOf o = 0x1001) ∧ objSubOf o = 9 then
        let d := draw s.chip
        (n, ((leBytes n d.1).drop off).take lim, d.2)
      else (n, ((leBytes n (numValue s o)).drop off).take lim, s.chip)
    | _ =>
      let v := bytesValue o s
      (v.1.length, (v.1.drop off).take lim, v.2)

/-! ### What a read does (R415, R463, R483, R510) -/

/-- Entries of a log that lie wholly inside the returned octets have been returned (R483). -/
def markReturned (off n : Nat) (l : SnagLog) : SnagLog :=
  let total := l.entries.length
  { l with entries := l.entries.zipIdx.map (fun x =>
      let at_ := 32 * (total - 1 - x.2)
      if off ≤ at_ ∧ at_ + 32 ≤ off + n then { x.1 with returned := true } else x.1) }

/-- What reading `n` octets from `off` leaves changed. -/
def readEffect (o off n : Nat) (c : Chip) : Chip :=
  let ix := objIndexOf o
  if o = Obj.faultSystemLog then modWork (fun w => { w with systemLog := markReturned off n w.systemLog }) c
  else if objAreaOf o = 0x90 ∧ 0x1000 ≤ ix ∧ ix < 0x1010 ∧ objSubOf o = 1 then
    modWork (fun w => { w with tenantLogs := tmod {} w.tenantLogs (ix - 0x1000) (markReturned off n) }) c
  else if objAreaOf o = 0x10 ∧ ix < 16 ∧ objSubOf o = 0x0E then (pendingRead ix off n c).2
  else if objAreaOf o = 0x70 ∧ 0x1000 ≤ ix ∧ ix < 0x1010 ∧ objSubOf o = 0x0D then setNum o (c.num o / 4 * 4) c
  else c

/-- Unit permissions that a read needs beside R on its area (R411). Entry 32, DEDUCED. -/
def mayReadUnit (c : Chip) (master o : Nat) : Bool :=
  match imageHandle o with
  | some (k, n) => c.may k.access n master 0
  | none => if objAreaOf o = 0x60 then c.may 0x16 (objIndexOf o) master 0 else true

/-- The READ service (R426, R427). Entry 31, DEDUCED. -/
def runRead (p : Path) (m : Msg) (master : Option Nat) (s : State) : State × Reply :=
  let o := m.object.toNat
  let off := m.offset.toNat
  let lim := pathLimit p
  match objFind o with
  | none => (s, { status := if objIndexAssigned o then St.noSubindex else St.noObject })
  | some d =>
    let isNum := match d.kind with | .num _ _ => true | .bytes _ => false
    let v := valueFrom o off lim s
    if isNum && off != 0 then (s, { status := St.badRequest })
    else if d.acc ≠ .wo ∧ v.1 < off then (s, { status := St.badRequest })
    else if !mayReadArea s.chip master o then (s, { status := St.noAccess })
    else if d.acc = .wo then (s, { status := St.writeOnly })
    else if !mayReadUnit s.chip (master.getD 0xFF) o then (s, { status := St.noAccess })
    else if objAreaOf o = 0x80 ∧ 0x1000 ≤ objIndexOf o ∧ objIndexOf o < 0x1004 ∧ objSubOf o = 0x10 then
      let r := uartRead (objIndexOf o - 0x1000) off lim s.chip
      ({ s with chip := r.2 }, r.1)
    else
      ({ s with chip := readEffect o off v.2.1.length v.2.2 },
       { status := St.ok, data := v.2.1, more := decide (off + v.2.1.length < v.1) })

end Sys2Proof.Machine
end

