-- ==== Sys2Proof/Machine/Nerlil.lean ====
section
/-!
DEFINITION. The Nerlil services: reads and writes, sessions, queues, messages from every path, NOTIFY, and the BAR0 registers
(R391, R407, R417 to R435).
-/

namespace Sys2Proof.Machine

/-! ### Messages (R425) -/

/-- A request as its octets give it; one that is shorter than its header or than its LENGTH, or longer where the path does not
pad it, has every reserved bit set, so that it is refused as BAD_REQUEST. -/
def parseMsg (bs : List Byte) (padded : Bool) : Msg :=
  let n := field bs 0xC 2
  let fits := decide (16 + n ≤ bs.length) && (padded || bs.length == 16 + n)
  { op := BitVec.ofNat 8 (field bs 0 1), txn := BitVec.ofNat 16 (field bs 2 2), object := BitVec.ofNat 32 (field bs 4 4),
    offset := BitVec.ofNat 32 (field bs 8 4), dst := BitVec.ofNat 8 (field bs 0xE 1),
    reserved := if fits then BitVec.ofNat 16 (field bs 1 1 + 256 * field bs 0xF 1) else BitVec.ofNat 16 0xFFFF,
    data := if fits then slice bs 16 n else [] }

/-- A request message of service `op`. -/
def request (r : Req) (op : BitVec 8) (object offset : BitVec 32) (dst : Byte) (data : List Byte) : Msg :=
  { op := op, txn := r.txn, object := object, offset := offset, dst := dst, reserved := 0, data := data }

/-! ### Writes, identity (R374, R418, R426) -/

/-- The WRITE service on any object. -/
def runAnyWrite (p : Path) (m : Msg) (master : Option Nat) (s : State) : State × Reply :=
  let o := m.object.toNat
  if isScope o ∨ o = Obj.plumbTempoGo then runScope p m master s
  else runWrite p m (objectAction p o m.data) master s

/-- The 32 octets of IDENTIFY. -/
def identity (c : Chip) : List Byte :=
  leBytes 4 (c.num Obj.identityVendor) ++ leBytes 4 (c.num Obj.identityPart) ++ leBytes 1 (c.num Obj.identityStepping) ++
  leBytes 1 (c.num Obj.identityGrade) ++ leBytes 1 (c.num Obj.identityChipNumber) ++ zeros 1 ++
  leBytes 4 (c.num Obj.identityFirmwareVersion) ++ slice (c.blob Obj.identitySerial) 0 16

/-! ### Sessions (R428) -/

/-- Sessions change. -/
def modSessions (f : List Session → List Session) (c : Chip) : Chip := modWork (fun w => { w with sessions := f w.sessions }) c

/-- Does a message belong to a session? -/
def Session.owns (x : Session) (p : Path) (master : Option Nat) (m : Msg) : Bool :=
  x.path == p && x.master == master && x.txn == m.txn.toNat && x.ended == .isOpen

/-- The open session of a message changes. -/
def modSession (p : Path) (master : Option Nat) (m : Msg) (f : Session → Session) (c : Chip) : Chip :=
  modSessions (fun l => l.map (fun x => if x.owns p master m then f x else x)) c

/-- It ends, and is kept for a second to judge later messages. Entry 33, DEDUCED. -/
def endSession (p : Path) (master : Option Nat) (m : Msg) (c : Chip) : Chip :=
  modSession p master m (fun x => { x with ended := .closed, at_ := c.now, data := [] }) c

/-- WRITE_BEGIN. -/
def runBegin (p : Path) (m : Msg) (master : Option Nat) (s : State) : State × Reply :=
  let c := s.chip
  let total := leNat m.data
  match writeTarget c master m.object.toNat with
  | .error st => (s, { status := st })
  | .ok d =>
    if lengthStatus d total ≠ St.ok then (s, { status := St.badLength })
    else if c.work.sessions.any (fun x => x.owns p master m) then (s, { status := St.badSession })
    else if 16 ≤ (c.work.sessions.filter (fun x => x.ended == .isOpen)).length then (s, { status := St.busy })
    else
      let x : Session := { path := p, master := master, txn := m.txn.toNat, object := m.object.toNat, total := total, data := [],
                           lastOffset := 0, lastLength := 0, at_ := c.now, expiry := c.time.stc + c.fs, ended := .isOpen }
      ({ s with chip := modSessions (fun l => l.filter (fun y => y.ended == .isOpen || withinSecond c y.at_) ++ [x]) c },
        { status := St.ok })

/-- The open session that a message of it names, with its object. -/
def openSession (c : Chip) (p : Path) (master : Option Nat) (m : Msg) : Except Nat Session :=
  if master.isNone then .error St.noAccess
  else match c.work.sessions.find? (fun x => x.owns p master m) with
  | some x => if x.object = m.object.toNat then .ok x else .error St.badSession
  | none => .error St.badSession

/-- WRITE_DATA. -/
def runData (p : Path) (m : Msg) (master : Option Nat) (s : State) : State × Reply :=
  let c := s.chip
  match openSession c p master m with
  | .error st => (s, { status := st })
  | .ok x =>
    let off := m.offset.toNat
    let s := { s with chip := modSession p master m (fun y => { y with at_ := c.now, expiry := c.time.stc + c.fs }) c }
    if !x.data.isEmpty && off == x.lastOffset && m.data.length == x.lastLength then (s, { status := St.ok })
    else if off ≠ x.data.length ∨ x.total < off + m.data.length then (s, { status := St.badSession })
    else
      ({ s with chip := modSession p master m (fun y =>
          { y with data := y.data ++ m.data, lastOffset := off, lastLength := m.data.length }) s.chip }, { status := St.ok })

/-- The value of a session is written as one WRITE; a response that waits is that of the WRITE_END message. -/
def writeWhole (p : Path) (m : Msg) (value : List Byte) (master : Option Nat) (s : State) : State × Reply :=
  let r := runAnyWrite p { m with data := value } master s
  if r.2.later && isStored m.object.toNat then
    let c := r.1.chip
    let l := c.flashPending.length - 1
    ({ r.1 with chip := { c with flashPending := c.flashPending.modify l (fun w => { w with length := m.data.length }) } }, r.2)
  else r

/-- WRITE_END. -/
def runEnd (p : Path) (m : Msg) (master : Option Nat) (s : State) : State × Reply :=
  match openSession s.chip p master m with
  | .error st => (s, { status := st })
  | .ok x =>
    let s := { s with chip := endSession p master m s.chip }
    if x.data.length < x.total then (s, { status := St.badSession })
    else if crc32c x.data ≠ leNat m.data then (s, { status := St.crc })
    else writeWhole p m x.data master s

/-- ABORT. -/
def runAbort (p : Path) (m : Msg) (master : Option Nat) (s : State) : State × Reply :=
  match openSession s.chip p master m with
  | .error st => (s, { status := st })
  | .ok _ => ({ s with chip := endSession p master m s.chip }, { status := St.ok })

/-! ### The queue services (R393, R431) -/

/-- Octets of a ring entry of a queue. -/
def Chip.entryBytes (c : Chip) (i : Nat) : Nat :=
  let n := i % 32
  if n < 16 then 32
  else if n < 24 then 64 + 256 * (c.queue i).channels n
  else 64 + 32 * (c.queue i).channels n

/-- The checks that both services share. -/
def queueStatusFor (c : Chip) (master : Option Nat) (i : Nat) (kind : Bool) : Nat :=
  match master with
  | none => St.noAccess
  | some m =>
    if !c.may 0x16 i m 1 then St.noAccess
    else if c.hasFunction (i / 32) || !kind then St.refused
    else if (c.queue i).state ≠ .running then St.queue
    else St.ok

/-- Entries put on a ring the tenant produces: TAIL goes past each. -/
def appendEntries (i size : Nat) : Nat → List Byte → Chip → Chip
  | 0, _, c => c
  | n + 1, bs, c =>
    appendEntries i size n (bs.drop size)
      (modQueue i (fun q => { q with ring := tset [] q.ring q.tail (bs.take size), tail := (q.tail + 1) % q.size }) c)

/-- QUEUE_PUT. Entry 31, DEDUCED. Entry 67, DESIGN CHOICE. -/
def runPut (m : Msg) (master : Option Nat) (s : State) : State × Reply :=
  let c := s.chip
  let i := objIndexOf m.object.toNat
  let size := c.entryBytes i
  let n := m.data.length / size
  let q := c.queue i
  let st := queueStatusFor c master i (isEsq (i % 32) || isAudioIn (i % 32))
  if st ≠ St.ok then (s, { status := st })
  else if m.data.length % size ≠ 0 then (s, { status := St.badLength })
  else if c.isBound i || decide (q.size - 1 < q.outstanding + n) then (s, { status := St.queue })
  else ({ s with chip := appendEntries i size n m.data c }, { status := St.ok })

/-- Entries taken from a ring the chip produces. Entry 31, DEDUCED. -/
def takeEntries (i : Nat) : Nat → Chip → List Byte × Chip
  | 0, c => ([], c)
  | n + 1, c =>
    let q := c.queue i
    let r := takeEntries i n (modQueue i (fun q => { q with ring := tset [] q.ring q.head [], head := (q.head + 1) % q.size }) c)
    (tget [] q.ring q.head ++ r.1, r.2)

/-- QUEUE_GET. -/
def runGet (p : Path) (m : Msg) (master : Option Nat) (s : State) : State × Reply :=
  let c := s.chip
  let i := objIndexOf m.object.toNat
  let q := c.queue i
  let st := queueStatusFor c master i (isNq (i % 32) || isAudioOut (i % 32) || isStemOut (i % 32))
  if st ≠ St.ok then (s, { status := st })
  else
    let n := min q.outstanding (pathLimit p / c.entryBytes i)
    let r := takeEntries i n c
    ({ s with chip := when_ (isNq (i % 32)) (nqRoom i) r.2 },
      { status := St.ok, data := r.1, more := decide (n < q.outstanding) })

/-! ### The BAR0 registers (R391, R392, R407, R409) -/

/-- The 2 KiB of a mailbox half: its header and the octets of its message. Entry 30, PRESUMED. -/
def mailHalf (x : Mailbox) (response : Bool) : List Byte :=
  if response then zeros 2 ++ leBytes 2 x.response.length ++ leBytes 4 x.respTag ++ zeros 8 ++ slice x.response 0 2032
  else
    leBytes 1 (match x.state with | .idle => 0 | .request => 1 | .busy => 2 | .response => 3) ++ zeros 1 ++ leBytes 2 x.length ++
    leBytes 4 x.tag ++ zeros 8 ++ slice x.request 0 2032

/-- What a function's aligned 32-bit read returns. Entry 38, DESIGN CHOICE. -/
def barValue (c : Chip) (t off : Nat) : Nat :=
  let x := c.tenant t
  if off = 0x00 then t
  else if off = 0x04 then (if x.resetting then 2 else 0) + (if x.ctlDiscard then 4 else 0)
  else if off = 0x08 then
    (if c.tenantState t = .active then 1 else 0) + (if x.resetting then 2 else 0) +
    (if 512 < c.work.journal.retiredRows.length then 4 else 0) + (if c.isQuarantined then 8 else 0)
  else if off = 0x10 then c.time.stc % 2 ^ 32
  else if off = 0x14 then x.stcHi
  else if off = 0x18 then x.stcFrac
  else if 0x20 ≤ off ∧ off < 0x30 then x.evtStatus / 2 ^ (8 * (off - 0x20)) % 2 ^ 32
  else if 0x30 ≤ off ∧ off < 0x40 then x.evtEnable / 2 ^ (8 * (off - 0x30)) % 2 ^ 32
  else if off = 0x40 then x.snagCount
  else if 0x1000 ≤ off ∧ off < 0x1800 then
    let i := qix t ((off - 0x1000) / 0x40)
    if !c.may 0x16 i (0x10 + t) 0 then 0
    else match off % 0x40 with
      | 0x00 => c.queueReg i 1 % 2 ^ 32 | 0x04 => c.queueReg i 1 / 2 ^ 32 | 0x08 => c.queueReg i 2 | 0x0C => c.queueReg i 3
      | 0x10 => c.queueReg i 4 | 0x14 => c.queueReg i 5 | 0x18 => c.queueReg i 6 | 0x1C => c.queueReg i 7 | 0x20 => c.queueReg i 8
      | _ => 0
  else if 0x3000 ≤ off ∧ off < 0x3800 then
    let k := (off - 0x3000) / 4
    let v := tget 0 x.msixTable k
    if k % 4 = 3 then withBit v 0 (!bit v 0) else v
  else if 0x3800 ≤ off ∧ off < 0x3810 then x.pba / 2 ^ (8 * (off - 0x3800)) % 2 ^ 32
  else if 0x100000 ≤ off ∧ off < 0x104000 then
    let w := off - 0x100000
    field (mailHalf (tget {} c.work.mailboxes (mix t (w / 0x1000))) (decide (0x800 ≤ w % 0x1000))) (w % 0x800) 4
  else 0

/-- A word of the MSI-X table is written: a vector that is unmasked while its message is pending sends it (R409).
Entry 30, PRESUMED. -/
def msixWrite (t k v : Nat) (c : Chip) : Chip :=
  let w := if k % 4 = 3 then withBit v 0 (!bit v 0) else v
  let c := modTenant t (fun x => { x with msixTable := tset 0 x.msixTable k w }) c
  if k % 4 = 3 ∧ bit w 0 ∧ bit (c.tenant t).pba (k / 4) then
    emit (.msix t (k / 4)) (modTenant t (fun x => { x with pba := withBit x.pba (k / 4) false }) c)
  else c

/-- A word of a mailbox window is written; octets of a response half are the chip's and stay (R407).
Entry 38, DESIGN CHOICE. -/
def mailWrite (i off v : Nat) (c : Chip) : Chip :=
  if 0x800 ≤ off then c
  else
    let c := if off = 0 ∧ v % 256 = 0 then idleMailbox i c else c
    let half := patch (mailHalf (tget {} c.work.mailboxes i) false) off (leBytes 4 v)
    modMail i (fun x => { x with length := field half 2 2, tag := field half 4 4, request := half.drop 16 }) c

/-- A word of a queue's block is written. Entry 38, DESIGN CHOICE. -/
def queueWordWrite (p : Path) (t i off v : Nat) (s : State) : State :=
  let m := 0x10 + t
  let b := (s.chip.queue i).base
  match off with
  | 0x00 => (queueFieldAct p i 1 (b / 2 ^ 32 * 2 ^ 32 + v) m s).1
  | 0x04 => (queueFieldAct p i 1 (v * 2 ^ 32 + b % 2 ^ 32) m s).1
  | 0x08 => (cfgAct p i v m s).1
  | 0x0C => (queueFieldAct p i 3 v m s).1
  | 0x1C => (seqAct p i v m s).1
  | _ => s

/-- A function's aligned 32-bit write. Entry 38, DESIGN CHOICE. -/
def barStore (p : Path) (t off v : Nat) (s : State) : State :=
  let on (f : Chip → Chip) : State := { s with chip := f s.chip }
  if off = 0x04 then
    on (fun c => if bit v 1 then startTenantReset t (bit v 2) c else modTenant t (fun x => { x with ctlDiscard := bit v 2 }) c)
  else if 0x20 ≤ off ∧ off < 0x30 then on (clearEvents t ((off - 0x20) / 4) v)
  else if 0x30 ≤ off ∧ off < 0x40 then on (setEnableWord t ((off - 0x30) / 4) v)
  else if 0x1000 ≤ off ∧ off < 0x1800 then queueWordWrite p t (qix t ((off - 0x1000) / 0x40)) (off % 0x40) v s
  else if 0x2000 ≤ off ∧ off < 0x3000 ∧ off % 0x80 = 0 then
    let q := (off - 0x2000) / 0x80
    on (fun c => when_ (c.may 0x16 (qix t q) (0x10 + t) 1)
      (fun c => if 28 ≤ q then when_ (v == 1) (ringMailbox t (mix t (q - 28))) c else ringDoorbell (qix t q) v c) c)
  else if 0x3000 ≤ off ∧ off < 0x3800 then on (msixWrite t ((off - 0x3000) / 4) v)
  else if 0x100000 ≤ off ∧ off < 0x104000 then on (mailWrite (mix t ((off - 0x100000) / 0x1000)) (off % 0x1000) v)
  else s

/-- A register access by the function of tenant `t`: OBJECT is the BAR0 offset of an aligned word. Entry 38, DESIGN CHOICE. -/
def barAccess (p : Path) (t : Nat) (m : Msg) (s : State) : State :=
  let off := m.object.toNat
  if !s.chip.hasFunction t || off % 4 != 0 then s
  else if m.op = 1 then
    { s with chip :=
      if off = 0x10 then let d := draw s.chip; latchStc t (d.1 % 256) d.2 else emit (.reg t off (barValue s.chip t off)) s.chip }
  else if m.op = 2 ∧ m.data.length = 4 then barStore p t off (leNat m.data) s
  else s

/-! ### The service a message asks for (R422, R426) -/

/-- Run the service of a message whose header has passed. -/
def runService (p : Path) (m : Msg) (master : Option Nat) (s : State) : State × Reply :=
  match p with
  | .bar t => (barAccess p t.val m s, { status := St.ok })
  | _ =>
    match m.op.toNat with
    | 1 => runRead p m master s
    | 2 => runAnyWrite p m master s
    | 3 => runBegin p m master s
    | 4 => runData p m master s
    | 5 => runEnd p m master s
    | 6 => runAbort p m master s
    | 7 => (s, { status := St.ok, data := identity s.chip })
    | 8 => runPut m master s
    | 9 => runGet p m master s
    | 10 => (s, { status := St.ok, data := m.data })
    | _ => (s, { status := St.badRequest })

/-- A message is served, and the reset it may have asked for follows. -/
def serveMsg (p : Path) (m : Msg) (s : State) : State := finishReset (serve p m (runService p m) s)

/-- READ. -/
def execNdpRead (r : Req) (object offset : BitVec 32) (dst : Byte) (s : State) : Host.Outcome State Fault Refusal :=
  .next (serveMsg r.path (request r 1 object offset dst []) s)

/-- WRITE, or a BAR0 register write of a function. -/
def execNdpWrite (r : Req) (object : BitVec 32) (dst : Byte) (data : List Byte) (s : State) : Host.Outcome State Fault Refusal :=
  .next (serveMsg r.path (request r 2 object 0 dst data) s)

/-- WRITE_BEGIN with TOTAL. -/
def execWriteBegin (r : Req) (object : BitVec 32) (dst : Byte) (total : BitVec 32) (s : State) : Host.Outcome State Fault Refusal :=
  .next (serveMsg r.path (request r 3 object 0 dst (leBytes 4 total.toNat)) s)

/-- WRITE_DATA. -/
def execWriteData (r : Req) (object offset : BitVec 32) (dst : Byte) (data : List Byte) (s : State) :
    Host.Outcome State Fault Refusal :=
  .next (serveMsg r.path (request r 4 object offset dst data) s)

/-- WRITE_END with the CRC-32C of the value. -/
def execWriteEnd (r : Req) (object : BitVec 32) (dst : Byte) (crc : BitVec 32) (s : State) : Host.Outcome State Fault Refusal :=
  .next (serveMsg r.path (request r 5 object 0 dst (leBytes 4 crc.toNat)) s)

/-- ABORT. -/
def execNdpAbort (r : Req) (object : BitVec 32) (dst : Byte) (s : State) : Host.Outcome State Fault Refusal :=
  .next (serveMsg r.path (request r 6 object 0 dst []) s)

/-- IDENTIFY. -/
def execNdpIdentify (r : Req) (dst : Byte) (s : State) : Host.Outcome State Fault Refusal :=
  .next (serveMsg r.path (request r 7 0 0 dst []) s)

/-- QUEUE_PUT on queue `q`. -/
def execQueuePut (r : Req) (q : Fin 512) (dst : Byte) (data : List Byte) (s : State) : Host.Outcome State Fault Refusal :=
  .next (serveMsg r.path (request r 8 (BitVec.ofNat 32 (0x60000000 + 256 * q.val)) 0 dst data) s)

/-- QUEUE_GET on queue `q`. -/
def execQueueGet (r : Req) (q : Fin 512) (dst : Byte) (s : State) : Host.Outcome State Fault Refusal :=
  .next (serveMsg r.path (request r 9 (BitVec.ofNat 32 (0x60000000 + 256 * q.val)) 0 dst []) s)

/-- PING. -/
def execNdpPing (r : Req) (dst : Byte) (data : List Byte) (s : State) : Host.Outcome State Fault Refusal :=
  .next (serveMsg r.path (request r 10 0 0 dst data) s)

/-! ### Where messages come from (R407, R432, R434, R435, R442) -/

/-- MAILBOX_TAKE: the oldest doorbell's mailbox goes from REQUEST to BUSY and is served. Entry 34, DESIGN CHOICE. -/
def execMailboxTake (s : State) : Host.Outcome State Fault Refusal :=
  let c := s.chip
  if c.work.supervisor.restarting then .next s
  else match c.work.mailOrder with
  | [] => .next s
  | i :: rest =>
    let x := tget {} c.work.mailboxes i
    let c := modWork (fun w => { w with mailOrder := rest }) (modMail i (fun x => { x with state := .busy }) c)
    .next (serveMsg (.mailbox (Fin.ofNat 16 (i / 4)) (Fin.ofNat 4 i)) (parseMsg (x.request.take x.length) false) { s with chip := c })

/-- The response to a request forwarded to a chip goes to where the request came from. -/
def takeResponse (chip : Nat) (message : List Byte) (c : Chip) : Chip :=
  let mine (a : Awaited) : Bool := a.dst == chip && a.txn == field message 2 2 && a.op + 128 == field message 0 1
  match c.work.awaited.find? mine with
  | some a => deliver a.path message (modWork (fun w => { w with awaited := w.awaited.erase a }) c)
  | none => c

/-- NDP: a Nerlil message from another chip; TAG gives [7:0] the acting master there and [8] ANON. -/
def execChainNdp (chip : Byte) (tag : BitVec 32) (message : List Byte) (s : State) : Host.Outcome State Fault Refusal :=
  if bit (field message 0 1) 7 then s.onChip (takeResponse chip.toNat message)
  else
    .next (serveMsg (.chain chip (BitVec.ofNat 8 tag.toNat) (bit tag.toNat 8)) (parseMsg message false) s)

/-- Source node and message of a received frame that is Nerlil on controller `k` (R433 to R435). -/
def nerlilOf (c : Chip) (k : Nat) (f : CanRx) : Option (Nat × Msg) :=
  let g := canCfg c k
  let fmt := c.num (Obj.canFormat g)
  let node := c.num (Obj.canNodeId g)
  let forMe (dst : Nat) (m : Msg) : Bool := dst == node || (dst == 0xFF && m.op == 7)
  if f.remote || f.format.val != fmt then none
  else if fmt = 0 then
    let m := parseMsg f.data false
    let af := f.af.toNat
    if !f.sec && f.sdt.toNat == c.num (Obj.canSdt g) && f.vcid.toNat == c.num (Obj.canVcid g) && bits af 15 0 == 0x4E01 &&
        forMe (bits af 31 24) m then some (bits af 23 16, m) else none
  else if fmt = 1 then
    let m := parseMsg f.data true
    let id := f.id.toNat
    if f.extended && bits id 28 24 == c.num (Obj.canFdBase g) && bits id 7 0 == 0 && forMe (bits id 23 16) m then
      some (bits id 15 8, m) else none
  else none

/-- In REDUNDANT a request that arrives on both buses within 1 s is executed once (R442). -/
def seenBefore (c : Chip) (node : Nat) (m : Msg) : Bool :=
  c.num Obj.canRedundancy == 1 &&
    c.can.seen.any (fun x => x.1 == node && x.2.1 == m.txn.toNat && x.2.2.1 == m.op.toNat && x.2.2.2.1 == m.object.toNat &&
      x.2.2.2.2.1 == m.offset.toNat && withinSecond c x.2.2.2.2.2)

/-- CAN_FRAME_RECEIVED: a frame of another node; a Nerlil request is served. Entry 37, DESIGN CHOICE. -/
def execCanFrameReceived (ctl : Fin 2) (frame : CanRx) (s : State) : Host.Outcome State Fault Refusal :=
  let st := s.chip.num (Obj.canState ctl.val)
  if st ≠ 1 ∧ st ≠ 2 ∧ st ≠ 6 then .next s
  else
    let c := frameReceived ctl.val s.chip
    match nerlilOf c ctl.val frame with
    | none => .next { s with chip := c }
    | some (node, m) =>
      if seenBefore c node m then .next { s with chip := c }
      else
        let c := { c with can := { c.can with seen := c.can.seen.filter (fun x => withinSecond c x.2.2.2.2.2) ++
          (if c.num Obj.canRedundancy = 1 then [(node, m.txn.toNat, m.op.toNat, m.object.toNat, m.offset.toNat, c.now)] else []) } }
        let k : Fin 2 := if c.num Obj.canRedundancy = 1 then 0 else ctl
        .next (serveMsg (.can k (BitVec.ofNat 8 node) (frame.format.val == 1)) m { s with chip := c })

/-- SUPERVISOR_RESTART_DONE: requests that waited are served in order (R21). -/
def execSupervisorRestartDone (s : State) : Host.Outcome State Fault Refusal :=
  let held := s.chip.work.supervisor.held
  let s := { s with chip := modWork (fun w => { w with supervisor := { w.supervisor with restarting := false, held := [] } }) s.chip }
  .next (held.foldl (fun s x => serveMsg x.1 x.2 s) s)

/-! ### What ends by time (R419, R428, R430 to R432) -/

/-- SESSION_EXPIRY: sessions whose last message is 1 s old close. Entry 4, DEDUCED. Entry 33, DEDUCED. -/
def execSessionExpiry (s : State) : Host.Outcome State Fault Refusal :=
  s.onChip (fun c => modSessions (fun l => l.map (fun x =>
    if x.ended = .isOpen ∧ x.expiry < c.time.stc then { x with ended := .expired, at_ := c.now, data := [] } else x)) c)

/-- The request that a waiting answer belongs to. -/
def Awaited.msg (a : Awaited) : Msg :=
  { op := BitVec.ofNat 8 a.op, txn := BitVec.ofNat 16 a.txn, object := BitVec.ofNat 32 a.object, offset := BitVec.ofNat 32 a.offset,
    dst := BitVec.ofNat 8 a.dst, reserved := 0, data := zeros a.length }

/-- FORWARD_TIMEOUT: forwarded requests with no response in 200 ms are answered TIMEOUT. -/
def execForwardTimeout (s : State) : Host.Outcome State Fault Refusal :=
  s.onChip (fun c =>
    let late := c.work.awaited.filter (fun a => decide (a.at_ + 200000000 ≤ c.now))
    let c := modWork (fun w => { w with awaited := w.awaited.filter (fun a => decide (c.now < a.at_ + 200000000)) }) c
    forEach late (fun a c => respond a.path a.msg (actingMaster c a.path) { status := St.timeout } c) c)

/-- The request that a flash record belongs to. -/
def FlashWrite.msg (w : FlashWrite) : Msg :=
  { op := BitVec.ofNat 8 w.op, txn := BitVec.ofNat 16 w.txn, object := BitVec.ofNat 32 w.object, offset := BitVec.ofNat 32 w.offset,
    dst := 0xFF, reserved := 0, data := zeros w.length }

/-- The value of a STORED write goes to flash. Entry 35, DEDUCED. -/
def recordFlash (w : FlashWrite) (c : Chip) : Chip :=
  match objFind w.object with
  | some ⟨_, _, _, .num _ _, _, _, _, _, _⟩ => { c with flashNums := tset (objDflt w.object) c.flashNums w.object (leNat w.data) }
  | some _ => { c with flashBlobs := tset (objDfltBytes w.object) c.flashBlobs w.object w.data }
  | none => c

/-- FLASH_RECORD_WRITTEN: the oldest record is written, or its three attempts have failed. Entry 35, DEDUCED. -/
def execFlashRecordWritten (ok : Bool) (s : State) : Host.Outcome State Fault Refusal :=
  s.onChip (fun c =>
    match c.flashPending with
    | [] => c
    | w :: rest =>
      let c := { c with flashPending := rest }
      if ok then respond w.path w.msg w.master { status := St.ok } (recordFlash w c)
      else respond w.path w.msg w.master { status := St.storeFailed } (snag 0x0702 0 0xFF c))

/-- Where a tenant's NOTIFY goes: its first bind entry with NOTIFY set (R423, R431). -/
def notifyEntry (c : Chip) (t : Nat) : Option (List Byte) :=
  ((upTo 64).map (bindEntry (c.blob Obj.ndpBind))).find? (fun e => field e 0 1 != 0 && field e 3 1 == 0x10 + t && bit (field e 4 1) 0)

/-- A NOTIFY message. -/
def notifyBytes (c : Chip) (t : Nat) : List Byte :=
  leBytes 1 0x40 ++ zeros 3 ++ leBytes 4 (Obj.tenantEventsPending t) ++ zeros 4 ++ leBytes 2 16 ++
  leBytes 1 (c.num Obj.identityChipNumber) ++ zeros 1 ++ leBytes 16 (c.tenant t).evtStatus

/-- NOTIFY: tenants with no function and a source both pending and enabled are notified, once in 10 ms each.
Entry 34, DESIGN CHOICE. -/
def execNdpNotify (s : State) : Host.Outcome State Fault Refusal :=
  s.onChip (fun c => forEach (upTo 16) (fun t c =>
    let x := c.tenant t
    let due := match x.notifyAt with | some a => decide (a + 10000000 ≤ c.now) | none => true
    if !c.hasFunction t && (x.evtStatus &&& x.evtEnable) != 0 && due then
      match notifyEntry c t with
      | none => c
      | some e =>
        let msg := notifyBytes c t
        let node := field e 1 1
        let c := modTenant t (fun x => { x with notifyAt := some c.now }) c
        if field e 0 1 = 3 then sendLath 5 0 node 0 (msg.map BitVec.toNat) c
        else
          let k := field e 0 1 - 1
          canNerlil k node (c.num (Obj.canFormat (canCfg c k)) == 1) msg c
    else c) c)

end Sys2Proof.Machine
end

