-- ==== Sys2Proof/Machine/Kolef.lean ====
section
/-!
DEFINITION. The Kolef monitor's commands (R542, R553 to R555).  A command is one row; the characters of its line, which UART0
has received before it, are taken from there.
-/

namespace Sys2Proof.Machine

/-! ### What a level and RECOVERY allow (R554, R555) -/

/-- The commands, in the order of R555. -/
inductive KolefCmd | id | rd | wr | log | stc | reset | img | lc | help
  deriving DecidableEq, Repr

/-- Their numbers in HELP's answer. -/
def KolefCmd.code : KolefCmd → Nat
  | .id => 0 | .rd => 1 | .wr => 2 | .log => 3 | .stc => 4 | .reset => 5 | .img => 6 | .lc => 7 | .help => 8

/-- All of them. -/
def kolefCmds : List KolefCmd := [.id, .rd, .wr, .log, .stc, .reset, .img, .lc, .help]

/-- Is a command in ROM (R555)? -/
def KolefCmd.inRom : KolefCmd → Bool
  | .id | .reset | .img | .lc | .help => true
  | _ => false

/-- Does a level allow a command (R554)? -/
def KolefCmd.allowed (level : Nat) : KolefCmd → Bool
  | .id | .help => true
  | .rd | .log | .stc | .reset => decide (level ≤ 1)
  | .wr | .img | .lc => level == 0

/-- Is Kolef the key coat's own, with the ROM commands alone (R542)? -/
def Chip.inRecovery (c : Chip) : Bool := c.num Obj.bootState == 2

/-- Read one command: none is read during IMG; an unknown one or one that the level does not allow is refused.
Entry 16, DESIGN CHOICE. -/
def kolefRun (k : KolefCmd) (body : State → State) (s : State) : Host.Outcome State Fault Refusal :=
  if s.chip.boot.img.isSome then .next s
  else
    let c := modUart 0 (fun x => { x with rx := [], timeout := false }) s.chip
    let s := { s with chip := c }
    if c.inRecovery && !k.inRom then .next { s with chip := kolefLine St.badRequest [] c }
    else if !k.allowed c.kolefLevel then .next { s with chip := kolefLine St.noAccess [] c }
    else .next (body s)

/-- A command that changes the chip alone. -/
def kolefChip (k : KolefCmd) (f : Chip → Chip) (s : State) : Host.Outcome State Fault Refusal :=
  kolefRun k (fun s => { s with chip := f s.chip }) s

/-! ### The commands (R555) -/

/-- ID: part, stepping, grade, serial, firmware version and life-cycle state. -/
def execKolefId (s : State) : Host.Outcome State Fault Refusal :=
  kolefChip .id (fun c => kolefLine St.ok
    [c.num Obj.identityPart, c.num Obj.identityStepping, c.num Obj.identityGrade, leNat (c.blob Obj.identitySerial),
     c.num Obj.identityFirmwareVersion, c.num Obj.lifecycleState] c) s

/-- A dictionary message of Kolef. -/
def kolefMsg (op : BitVec 8) (object : BitVec 32) (data : List Byte) : Msg :=
  request { path := .kolef, txn := 0 } op object 0 0xFF data

/-- RD: an object's value. -/
def execKolefRd (object : BitVec 32) (s : State) : Host.Outcome State Fault Refusal :=
  kolefRun .rd (serveMsg .kolef (kolefMsg 1 object [])) s

/-- WR: an object is written. -/
def execKolefWr (object : BitVec 32) (data : List Byte) (s : State) : Host.Outcome State Fault Refusal :=
  kolefRun .wr (serveMsg .kolef (kolefMsg 2 object data)) s

/-- LOG: the newest `count` entries of the system log or a tenant's, a line each. Entry 91, DEDUCED. -/
def execKolefLog (tenant : Option (Fin 16)) (count : BitVec 7) (s : State) : Host.Outcome State Fault Refusal :=
  kolefChip .log (fun c =>
    let l := match tenant with | some t => c.tenantLog t.val | none => c.work.systemLog
    if count.toNat = 0 ∨ 64 < count.toNat then kolefLine St.badRequest [] c
    else forEach (l.entries.take count.toNat) (fun x c => kolefLine St.ok (x.bytes.map BitVec.toNat) c) c) s

/-- STC: ticks, fraction and chain time; `frac` is where in its tick the read falls. -/
def execKolefStc (frac : Byte) (s : State) : Host.Outcome State Fault Refusal :=
  kolefChip .stc (fun c => kolefLine St.ok [c.time.stc, frac.toNat, c.now] c) s

/-- RESET: OK, then the reset. -/
def execKolefReset (cold : Bool) (s : State) : Host.Outcome State Fault Refusal :=
  kolefRun .reset (fun s =>
    let s := { s with chip := kolefLine St.ok [] s.chip }
    if cold then coldReset s else warmReset 1 s) s

/-- Octets of an image slot (R536). -/
def slotSize : Nat := 9437184

/-- IMG: OK READY, then the octets of an image; never of the slot that runs (R539). Entry 91, DEDUCED. -/
def execKolefImg (slotB : Bool) (length : BitVec 32) (s : State) : Host.Outcome State Fault Refusal :=
  kolefChip .img (fun c =>
    let slot := if slotB then 1 else 0
    if length.toNat = 0 ∨ slotSize < length.toNat then kolefLine St.badValue [] c
    else if !c.inRecovery && c.num Obj.bootSlot == slot then kolefLine St.refused [] c
    else kolefLine St.ok [] (modBoot (fun b => { b with img := some { slot := slot, length := length.toNat, at_ := c.now } }) c)) s

/-- IMG_TIMEOUT: 2 s with no octet end a transfer. -/
def execKolefImgTimeout (s : State) : Host.Outcome State Fault Refusal :=
  s.onChip (fun c =>
    match c.boot.img with
    | some x =>
      if x.at_ + 2000000000 ≤ c.now then kolefLine St.timeout [] (modBoot (fun b => { b with img := none }) c) else c
    | none => c)

/-- LC: life-cycle state and Boot.Error. -/
def execKolefLc (s : State) : Host.Outcome State Fault Refusal :=
  kolefChip .lc (fun c => kolefLine St.ok [c.num Obj.lifecycleState, c.num Obj.bootError] c) s

/-- HELP: the commands allowed. Entry 16, DESIGN CHOICE. Entry 91, DEDUCED. -/
def execKolefHelp (s : State) : Host.Outcome State Fault Refusal :=
  kolefChip .help (fun c => kolefLine St.ok
    ((kolefCmds.filter (fun k => k.allowed c.kolefLevel && (!c.inRecovery || k.inRom))).map KolefCmd.code) c) s

end Sys2Proof.Machine
end

