-- ==== Sys2Proof/Machine/Flags.lean ====
section
/-!
DEFINITION. The flag classes, products and narrowings of the Trowel core (R146 to R148, R175).
-/

namespace Sys2Proof.Machine

/-- Z, N and V of a 40-bit result (R175). -/
def zOf (r : BitVec 40) : Bool := r == 0
def nOf (r : BitVec 40) : Bool := r.msb
def vOf (r : BitVec 40) : Bool := r.extractLsb' 31 9 != 0 && r.extractLsb' 31 9 != 0x1FF

/-- The Add class: flags of `r` with a carry and a wrap (R175). -/
def flagsAdd (r : BitVec 40) (carry wrapped : Bool) : RegWrite := .flags (zOf r) (nOf r) (vOf r) carry wrapped false

/-- The Move class (R175). -/
def flagsMove (r : BitVec 40) : RegWrite := .flags (zOf r) (nOf r) (vOf r) false false false

/-- `a + b` in 40 bits with the Add class: the sum and its flags. -/
def add40 (a b : BitVec 40) : BitVec 40 × RegWrite :=
  let r := a + b
  (r, flagsAdd r (decide (2 ^ 40 ≤ a.toNat + b.toNat)) (decide (a.toInt + b.toInt ≠ r.toInt)))

/-- `a - b` in 40 bits with the Add class; C is the carry out of a + not b + 1 (R175). -/
def sub40 (a b : BitVec 40) : BitVec 40 × RegWrite :=
  let r := a - b
  (r, flagsAdd r (decide (b.toNat ≤ a.toNat)) (decide (a.toInt - b.toInt ≠ r.toInt)))

/-- The Compare class: the flags of `a - b`, OV left alone (R175). -/
def compare40 (a b : BitVec 40) : RegWrite :=
  let r := a - b
  .flags (zOf r) (nOf r) (vOf r) (decide (b.toNat ≤ a.toNat)) false false

/-- The product of a signed X and a second operand of value `y`: doubled when FRAC is 1 (R146, R176). -/
def product (frac : Bool) (x : BitVec 16) (y : Int) : BitVec 40 :=
  BitVec.ofInt 40 (x.toInt * y * (if frac then 2 else 1))

/-- ST.FRAC and ST.SAT in a view. -/
def Regs.frac (r : Regs) : Bool := r.st.getLsbD 9
def Regs.sat (r : Regs) : Bool := r.st.getLsbD 8

/-- Does a value lie outside Q1.31 (R148)? -/
def outside (a : BitVec 40) : Bool := vOf a

/-- Narrow to `w` bits with lowest bit `lo`, saturating if asked; the value and whether it saturated (R148). -/
def narrow (w lo : Nat) (sat : Bool) (a : BitVec 40) : BitVec w × Bool :=
  if sat && outside a then
    (if a.msb then BitVec.ofNat w (2 ^ (w - 1)) else BitVec.ofNat w (2 ^ (w - 1) - 1), true)
  else (a.extractLsb' lo w, false)

/-- SV is set when a narrowing saturated (R175, class Narrow). -/
def svWrite (saturated : Bool) : List (Nat × RegWrite) := if saturated then [(sAC, .setSv)] else []

/-- Shift left by `n` or arithmetically right by `-n`, with the Shift class (R175, R178). -/
def shift40 (a : BitVec 40) (n : Int) : BitVec 40 × RegWrite :=
  if 0 ≤ n then
    let k := n.toNat
    let r := a <<< k
    let lost := if 40 ≤ k then a != 0
                else (upTo k).any (fun i => a.getLsbD (39 - i) != r.msb)
    (r, .flags (zOf r) (nOf r) (vOf r) false lost false)
  else
    let r := a.sshiftRight (-n).toNat
    (r, flagsMove r)

/-- Leading bits equal to the sign bit (R179, R198). -/
def leadingSigns (w : Nat) (a : BitVec w) : Nat :=
  ((upTo w).takeWhile (fun i => a.getLsbD (w - 1 - i) == a.msb)).length

/-- The exponent of R179. -/
def exponent (a : BitVec 40) : Int := (leadingSigns 40 a : Int) - 9

/-- A condition of R185 on ST; none for the reserved ones. -/
def condHolds (n : Nat) (st : BitVec 32) : Option Bool :=
  let z := st.getLsbD 0
  let neg := st.getLsbD 1
  let v := st.getLsbD 2
  let c := st.getLsbD 3
  match n with
  | 0 => some true
  | 1 => some z | 2 => some (!z)
  | 3 => some neg | 4 => some (!neg)
  | 5 => some (!neg && !z) | 6 => some (neg || z)
  | 7 => some v | 8 => some (!v)
  | 9 => some c | 10 => some (!c)
  | 11 => some (st.getLsbD 4) | 12 => some (st.getLsbD 5)
  | _ => none

end Sys2Proof.Machine
end

