-- ==== Sys2Proof/Machine/Operands.lean ====
section
/-!
DEFINITION. The operand forms of the Trowel instructions: the fields of each format, address generation and the
loads and stores (R153 to R155, R172, R174, R177, R182, R183).
-/

namespace Sys2Proof.Machine

/-! ### Address modifiers (R153 to R155) -/

/-- The fields of M (R153). -/
def mMode (m : BitVec 32) : Nat := (m.extractLsb' 30 2).toNat
def mLen (m : BitVec 32) : Nat := (m.extractLsb' 10 20).toNat
def mStep (m : BitVec 32) : Int := (m.extractLsb' 0 10).toInt

/-- The least `k` with `n ≤ 2 ^ k`, for `n ≤ 2 ^ 20`. -/
def log2Up (n : Nat) : Nat := ((upTo 21).find? (fun k => decide (n ≤ 2 ^ k))).getD 21

/-- The greatest `k` with `2 ^ k ≤ n`, for 0 < n < 2 ^ 21. -/
def log2Down (n : Nat) : Nat := ((upTo 21).filter (fun k => decide (2 ^ k ≤ n))).length - 1

/-- The low `k` bits of `n` in reverse order. -/
def reverseBits (k n : Nat) : Nat := (upTo k).foldl (fun r i => if n.testBit i then r + 2 ^ (k - 1 - i) else r) 0

/-- The post-modified pointer (R154, R155). -/
def postModify (p : BitVec 24) (m : BitVec 32) : BitVec 24 :=
  let linear := BitVec.ofInt 24 ((p.toNat : Int) + mStep m)
  let len := mLen m
  match mMode m with
  | 1 =>
    if len = 0 then linear
    else
      let k := log2Up len
      let base := p.toNat / 2 ^ k * 2 ^ k
      let o := (p.toNat : Int) - base + mStep m
      let o := if (len : Int) ≤ o then o - len else if o < 0 then o + len else o
      BitVec.ofInt 24 ((base : Int) + o)
  | 2 =>
    if len < 2 then linear
    else
      let k := log2Down len
      let low := reverseBits k (p.toNat % 2 ^ k)
      let step := reverseBits k ((mStep m % (2 ^ k : Nat)).toNat)
      BitVec.ofNat 24 (p.toNat / 2 ^ k * 2 ^ k + reverseBits k ((low + step) % 2 ^ k))
  | _ => linear

/-- A pointer and a modifier as a stage sees them. -/
def Views.p (_v : Views) (r : Regs) (n : Nat) : BitVec 24 := tget 0 r.p n
def Views.m (_v : Views) (r : Regs) (n : Nat) : BitVec 32 := tget 0 r.m n
def Views.a (_v : Views) (r : Regs) (n : Nat) : BitVec 40 := tget 0 r.a n

/-- The post-modify of P by its own M, written in AG (R153, R160). -/
def Views.step (v : Views) (n : Nat) (u : Bool) : List (Nat × RegWrite) :=
  if u then [(sAG, .p n (postModify (v.p v.ag n) (v.m v.ag n)))] else []

/-! ### Loads and stores (R182, R183) -/

/-- The access address of Format L (R182). -/
def Views.ea (v : Views) (ptr : BitVec 3) (disp : BitVec 13) : Nat :=
  (BitVec.ofInt 24 (((v.p v.ag ptr.toNat).toNat : Int) + disp.toInt)).toNat

/-- The fault of an access that is not allowed, or of a load of an uncorrectable word (R166, R300). -/
def accessFault (c : Chip) (k addr n : Nat) (write : Bool) : Option Nat :=
  if !c.accessOk k addr n write then some codeAccess
  else if !write && c.badLoad k addr n then some codeMemory else none

/-- A load of `n` octets: `mk` gives the writes from the value loaded. -/
def loadEffect (v : Views) (c : Chip) (addr n : Nat) (mk : Nat → List (Nat × RegWrite))
    (more : List (Nat × RegWrite)) : Effect :=
  { writes := mk (c.loadData v.key addr n) ++ more, chip := c, fault := accessFault c v.key addr n false }

/-- A store of `n` octets of value `x`. -/
def storeEffect (v : Views) (c : Chip) (addr n x : Nat) (more : List (Nat × RegWrite)) : Effect :=
  { writes := more, chip := storeData v.key addr n x c, fault := accessFault c v.key addr n true }

/-- A halfword into a logical X register at the end of MX. -/
def loadX (v : Views) (n : Nat) (x : Nat) : List (Nat × RegWrite) := [(sMX, .x (physX v.id n) (BitVec.ofNat 16 x))]

/-- A word into an X pair: bits [31:16] in the even register (R171). -/
def loadPair (v : Views) (n : Nat) (x : Nat) : List (Nat × RegWrite) := loadX v n (x / 65536) ++ loadX v (n + 1) x

/-- An accumulator narrowed to 16 bits with saturation as asked (R148). -/
def narrow16 (sat : Bool) (a : BitVec 40) : BitVec 16 × Bool := narrow 16 16 sat a

end Sys2Proof.Machine
end

