-- ==== Sys2Proof/Machine/TrowelAlu.lean ====
section
/-!
DEFINITION. Format X, the X register ALU, and Formats I and P, the immediates (R180, R181).
-/

namespace Sys2Proof.Machine

/-! ### Format X (R180) -/

/-- A legal word with one operand. -/
def alu1Legal (f : AluFields) (_ : Views) : Bool := f.reserved == 0 && f.xb == 0 && f.shn == 0
/-- A legal word with two operands. -/
def alu2Legal (f : AluFields) (_ : Views) : Bool := f.reserved == 0 && f.shn == 0
/-- A legal shift. -/
def aluShLegal (f : AluFields) (_ : Views) : Bool := f.reserved == 0 && f.xb == 0

/-- XD takes an operation on XA and XB, read and written in MA. -/
def aluEffect (f : AluFields) (op : BitVec 16 → BitVec 16 → BitVec 16) (v : Views) (c : Chip) : Effect :=
  { writes := [(sMA, .x (physX v.id f.xd.toNat) (op (v.x v.ma f.xa.toNat) (v.x v.ma f.xb.toNat)))], chip := c }

/-- Saturate an exact sum to 16 bits. -/
def sat16 (z : Int) : BitVec 16 := BitVec.ofInt 16 (clampInt (-32768) 32767 z)

/-- The absolute value of ABSX: 0x8000 gives 0x7FFF. -/
def abs16 (a : BitVec 16) : BitVec 16 := if a.msb then sat16 (-a.toInt) else a

/-- MOVX. -/
def execMovx (t : Thr) (f : AluFields) (s : State) : Host.Outcome State Fault Refusal :=
  s.issue t (alu1Legal f) (aluEffect f (fun a _ => a))
/-- ADDX. -/
def execAddx (t : Thr) (f : AluFields) (s : State) : Host.Outcome State Fault Refusal :=
  s.issue t (alu2Legal f) (aluEffect f (fun a b => a + b))
/-- SUBX. -/
def execSubx (t : Thr) (f : AluFields) (s : State) : Host.Outcome State Fault Refusal :=
  s.issue t (alu2Legal f) (aluEffect f (fun a b => a - b))
/-- ADDSX: SV is not changed. -/
def execAddsx (t : Thr) (f : AluFields) (s : State) : Host.Outcome State Fault Refusal :=
  s.issue t (alu2Legal f) (aluEffect f (fun a b => sat16 (a.toInt + b.toInt)))
/-- SUBSX. -/
def execSubsx (t : Thr) (f : AluFields) (s : State) : Host.Outcome State Fault Refusal :=
  s.issue t (alu2Legal f) (aluEffect f (fun a b => sat16 (a.toInt - b.toInt)))
/-- ANDX. -/
def execAndx (t : Thr) (f : AluFields) (s : State) : Host.Outcome State Fault Refusal :=
  s.issue t (alu2Legal f) (aluEffect f (fun a b => a &&& b))
/-- ORX. -/
def execOrx (t : Thr) (f : AluFields) (s : State) : Host.Outcome State Fault Refusal :=
  s.issue t (alu2Legal f) (aluEffect f (fun a b => a ||| b))
/-- XORX. -/
def execXorx (t : Thr) (f : AluFields) (s : State) : Host.Outcome State Fault Refusal :=
  s.issue t (alu2Legal f) (aluEffect f (fun a b => a ^^^ b))
/-- NOTX. -/
def execNotx (t : Thr) (f : AluFields) (s : State) : Host.Outcome State Fault Refusal :=
  s.issue t (alu1Legal f) (aluEffect f (fun a _ => ~~~a))
/-- NEGX: 0x8000 stays 0x8000. -/
def execNegx (t : Thr) (f : AluFields) (s : State) : Host.Outcome State Fault Refusal :=
  s.issue t (alu1Legal f) (aluEffect f (fun a _ => -a))
/-- ABSX. -/
def execAbsx (t : Thr) (f : AluFields) (s : State) : Host.Outcome State Fault Refusal :=
  s.issue t (alu1Legal f) (aluEffect f (fun a _ => abs16 a))
/-- SHLX. -/
def execShlx (t : Thr) (f : AluFields) (s : State) : Host.Outcome State Fault Refusal :=
  s.issue t (aluShLegal f) (aluEffect f (fun a _ => a <<< f.shn.toNat))
/-- SHRX, arithmetic. -/
def execShrx (t : Thr) (f : AluFields) (s : State) : Host.Outcome State Fault Refusal :=
  s.issue t (aluShLegal f) (aluEffect f (fun a _ => a.sshiftRight f.shn.toNat))
/-- LSRX, logical. -/
def execLsrx (t : Thr) (f : AluFields) (s : State) : Host.Outcome State Fault Refusal :=
  s.issue t (aluShLegal f) (aluEffect f (fun a _ => a >>> f.shn.toNat))
/-- MAXX, signed. -/
def execMaxx (t : Thr) (f : AluFields) (s : State) : Host.Outcome State Fault Refusal :=
  s.issue t (alu2Legal f) (aluEffect f (fun a b => if a.toInt < b.toInt then b else a))
/-- MINX, signed. -/
def execMinx (t : Thr) (f : AluFields) (s : State) : Host.Outcome State Fault Refusal :=
  s.issue t (alu2Legal f) (aluEffect f (fun a b => if b.toInt < a.toInt then b else a))

/-- An X value times 2^16 in 40 bits (R178, R180). -/
def high40 (x : BitVec 16) : BitVec 40 := BitVec.ofInt 40 (x.toInt * 65536)

/-- CMPX: the Compare flags of XA * 2^16 - XB * 2^16; XD must be 0. -/
def execCmpx (t : Thr) (f : AluFields) (s : State) : Host.Outcome State Fault Refusal :=
  s.issue t (fun v => alu2Legal f v && f.xd == 0) (fun v c =>
    { writes := [(sAC, compare40 (high40 (v.x v.ma f.xa.toNat)) (high40 (v.x v.ma f.xb.toNat)))], chip := c })

/-! ### Format I and Format P (R181) -/

/-- A legal immediate whose REG names an X register. -/
def immLegal (f : ImmFields) (_ : Views) : Bool := f.reserved == 0
/-- One whose REG names one of `n` registers in its low bits, the unused high bits 0. -/
def immLegalOf (n : Nat) (f : ImmFields) (_ : Views) : Bool := f.reserved == 0 && decide (f.reg.toNat < n)

/-- X takes an operation on itself and the immediate, in MA. -/
def immEffect (f : ImmFields) (op : BitVec 16 → BitVec 16) (v : Views) (c : Chip) : Effect :=
  { writes := [(sMA, .x (physX v.id f.reg.toNat) (op (v.x v.ma f.reg.toNat)))], chip := c }

/-- MOVI. -/
def execMovi (t : Thr) (f : ImmFields) (s : State) : Host.Outcome State Fault Refusal :=
  s.issue t (immLegal f) (immEffect f (fun _ => f.imm))
/-- ADDI, modulo 2^16. -/
def execAddi (t : Thr) (f : ImmFields) (s : State) : Host.Outcome State Fault Refusal :=
  s.issue t (immLegal f) (immEffect f (fun x => x + f.imm))
/-- ANDI. -/
def execAndi (t : Thr) (f : ImmFields) (s : State) : Host.Outcome State Fault Refusal :=
  s.issue t (immLegal f) (immEffect f (fun x => x &&& f.imm))
/-- ORI. -/
def execOri (t : Thr) (f : ImmFields) (s : State) : Host.Outcome State Fault Refusal :=
  s.issue t (immLegal f) (immEffect f (fun x => x ||| f.imm))
/-- XORI. -/
def execXori (t : Thr) (f : ImmFields) (s : State) : Host.Outcome State Fault Refusal :=
  s.issue t (immLegal f) (immEffect f (fun x => x ^^^ f.imm))
/-- CMPI: the Compare flags of X * 2^16 - IMM * 2^16. -/
def execCmpi (t : Thr) (f : ImmFields) (s : State) : Host.Outcome State Fault Refusal :=
  s.issue t (immLegal f) (fun v c =>
    { writes := [(sAC, compare40 (high40 (v.x v.ma f.reg.toNat)) (high40 f.imm))], chip := c })
/-- MOVML: the low half of M, in AG. -/
def execMovml (t : Thr) (f : ImmFields) (s : State) : Host.Outcome State Fault Refusal :=
  s.issue t (immLegalOf 8 f) (fun _ c => { writes := [(sAG, .mLo f.reg.toNat f.imm)], chip := c })
/-- MOVMH: the high half of M, in AG. -/
def execMovmh (t : Thr) (f : ImmFields) (s : State) : Host.Outcome State Fault Refusal :=
  s.issue t (immLegalOf 8 f) (fun _ c => { writes := [(sAG, .mHi f.reg.toNat f.imm)], chip := c })
/-- MOVIA: IMM * 2^16 into A, in AC. -/
def execMovia (t : Thr) (f : ImmFields) (s : State) : Host.Outcome State Fault Refusal :=
  s.issue t (immLegalOf 4 f) (fun _ c =>
    { writes := [(sAC, .a f.reg.toNat (high40 f.imm)), (sAC, flagsMove (high40 f.imm))], chip := c })
/-- ADDIP: P plus the signed immediate, modulo 2^24, in AG. -/
def execAddip (t : Thr) (f : ImmFields) (s : State) : Host.Outcome State Fault Refusal :=
  s.issue t (immLegalOf 8 f) (fun v c =>
    { writes := [(sAG, .p f.reg.toNat (v.p v.ag f.reg.toNat + f.imm.signExtend 24))], chip := c })
/-- MOVILC: LC, in AG; REG must be 0. -/
def execMovilc (t : Thr) (f : ImmFields) (s : State) : Host.Outcome State Fault Refusal :=
  s.issue t (immLegalOf 1 f) (fun _ c => { writes := [(sAG, .lc f.imm)], chip := c })
/-- MOVIP: a 24-bit address into a pointer, in AG. -/
def execMovip (t : Thr) (pd : BitVec 3) (imm : BitVec 24) (s : State) : Host.Outcome State Fault Refusal :=
  s.issue t (fun _ => true) (fun _ c => { writes := [(sAG, .p pd.toNat imm)], chip := c })

end Sys2Proof.Machine
end

