-- ==== Sys2Proof/Machine/TrowelFlow.lean ====
section
/-!
DEFINITION. Formats B, R and S and the plain Format C instructions: branches, loops, repeats, moves to and from
special registers, and control (R184 to R194, R200).
-/

namespace Sys2Proof.Machine

/-! ### Branches (R184 to R187) -/

/-- B: a conditional branch with two delay slots, an optional link and an indirect target (R184). -/
def execBranch (t : Thr) (cond : BitVec 4) (l ind : Bool) (xr : BitVec 4) (target : BitVec 16) (s : State) :
    Host.Outcome State Fault Refusal :=
  s.issue t (fun v => !v.th.confined && (condHolds cond.toNat v.id.st).isSome && (!ind || target == 0)) (fun v c =>
    let taken := (condHolds cond.toNat v.id.st).getD false
    let goal := if ind then v.x v.id xr.toNat else target
    { writes := if taken && l then [(sID, .x (physX v.id xr.toNat) (v.th.pc + 3))] else [],
      flow := .delayed (if taken then some goal else none), chip := c })

/-- DBNZ: XD - 1 at the end of ID, and a branch while it is not 0 (R186). -/
def execDbnz (t : Thr) (xd : BitVec 4) (reserved : BitVec 3) (target : BitVec 16) (s : State) :
    Host.Outcome State Fault Refusal :=
  s.issue t (fun v => !v.th.confined && reserved == 0) (fun v c =>
    let n := v.x v.id xd.toNat - 1
    { writes := [(sID, .x (physX v.id xd.toNat) n)],
      flow := .delayed (if n = 0 then none else some target), chip := c })

/-! ### Loops (R188 to R190) -/

/-- May a loop open here: none is running, and its body holds two instructions (R188)? -/
def loopLegal (v : Views) (ofs : BitVec 11) : Bool := !v.th.confined && v.th.loop.isNone && ofs != 0

/-- Open a loop of `n` passes, or skip its body when `n` is 0 (R188). -/
def loopFlow (v : Views) (n : Nat) (ofs : BitVec 11) : Flow :=
  let first := v.th.pc.toNat + 1
  let last := first + ofs.toNat
  if n = 0 then .jump (BitVec.ofNat 16 (last + 1)) 2 else .loop first last

/-- LOOP: the count is LC as it stands in ID. -/
def execLoopLc (t : Thr) (reserved : BitVec 12) (ofs : BitVec 11) (s : State) : Host.Outcome State Fault Refusal :=
  s.issue t (fun v => loopLegal v ofs && reserved == 0) (fun v c => { flow := loopFlow v v.id.lc.toNat ofs, chip := c })

/-- LOOPI: the count is immediate, and LC takes it at the end of ID. -/
def execLoopi (t : Thr) (count : BitVec 12) (ofs : BitVec 11) (s : State) : Host.Outcome State Fault Refusal :=
  s.issue t (fun v => loopLegal v ofs) (fun v c =>
    { writes := [(sID, .lc (count.zeroExtend 16))], flow := loopFlow v count.toNat ofs, chip := c })

/-! ### Repeats (R191) -/

/-- May an instruction word be repeated: it is none that R187 names (R191). -/
def repeatable (w : Nat) : Bool :=
  let f := bits w 31 26
  let ctl := bits w 25 20
  !(f == 4 || f == 5 || (f == 7 && decide (bits w 25 24 < 2)) ||
    (f == 0 && !(ctl == 0 || ctl == 3 || ctl == 4 || ctl == 5)))

/-- The repeat of the next instruction: with a count of 0 it is discarded (R191). -/
def rptFlow (v : Views) (n : Nat) : Flow := if n = 0 then .jump (v.th.pc + 2) 1 else .repeat_ n

/-- RPTI: an immediate count of at most 256. -/
def execRpti (t : Thr) (reserved : BitVec 14) (count : BitVec 9) (s : State) : Host.Outcome State Fault Refusal :=
  s.issue t (fun v => !v.th.confined && reserved == 0 && decide (count.toNat ≤ 256) &&
      repeatable (s.chip.programWord (v.key / 4) (v.th.pc.toNat + 1))) (fun v c =>
    { flow := rptFlow v count.toNat, chip := c })

/-- RPTX: the count is XS as ID reads it, at most 256. -/
def execRptx (t : Thr) (xs : BitVec 4) (reserved : BitVec 19) (s : State) : Host.Outcome State Fault Refusal :=
  s.issue t (fun v => !v.th.confined && reserved == 0 && decide ((v.x v.id xs.toNat).toNat ≤ 256) &&
      repeatable (s.chip.programWord (v.key / 4) (v.th.pc.toNat + 1))) (fun v c =>
    { flow := rptFlow v (v.x v.id xs.toNat).toNat, chip := c })

/-! ### Special registers (R192) -/

/-- Is an S move legal: SREG is assigned, and P, M and ST move through an even pair (R192)? -/
def sregLegal (sreg : BitVec 5) (xr : BitVec 4) (reserved : BitVec 16) (_ : Views) : Bool :=
  reserved == 0 && decide (sreg.toNat < 19) && (sreg == 16 || sreg == 17 || xr % 2 == 0)

/-- MOVE_INTO_SREG: P, M, LC and BX in AG, ST in AC. -/
def execMoveIntoSreg (t : Thr) (sreg : BitVec 5) (xr : BitVec 4) (reserved : BitVec 16) (s : State) :
    Host.Outcome State Fault Refusal :=
  s.issue t (sregLegal sreg xr reserved) (fun v c =>
    let n := sreg.toNat
    { writes := [if n < 8 then (sAG, .p n ((v.pair v.ag xr.toNat).extractLsb' 0 24))
                 else if n < 16 then (sAG, .m (n - 8) (v.pair v.ag xr.toNat))
                 else if n = 16 then (sAG, .lc (v.x v.ag xr.toNat))
                 else if n = 17 then (sAG, .bx (v.x v.ag xr.toNat))
                 else (sAC, .stMove (v.pair v.ma xr.toNat))], chip := c })

/-- The writes of a 32-bit value into an X pair at the end of MA. -/
def pairWrites (v : Views) (n : Nat) (x : BitVec 32) : List (Nat × RegWrite) :=
  [(sMA, .x (physX v.id n) (x.extractLsb' 16 16)), (sMA, .x (physX v.id (n + 1)) (x.extractLsb' 0 16))]

/-- MOVE_OUT_OF_SREG: P, M, LC and BX are read in AG, ST in MA; X is written at the end of MA. -/
def execMoveOutOfSreg (t : Thr) (sreg : BitVec 5) (xr : BitVec 4) (reserved : BitVec 16) (s : State) :
    Host.Outcome State Fault Refusal :=
  s.issue t (sregLegal sreg xr reserved) (fun v c =>
    let n := sreg.toNat
    { writes := if n < 8 then pairWrites v xr.toNat ((v.p v.ag n).zeroExtend 32)
                else if n < 16 then pairWrites v xr.toNat (v.m v.ag (n - 8))
                else if n = 16 then [(sMA, .x (physX v.id xr.toNat) v.ag.lc)]
                else if n = 17 then [(sMA, .x (physX v.id xr.toNat) v.ag.bx)]
                else pairWrites v xr.toNat (v.th.readSt (v.key % 4) v.ma), chip := c })

/-! ### Format C (R193, R194, R200) -/

/-- NOP. -/
def execNopI (t : Thr) (opnd : BitVec 20) (s : State) : Host.Outcome State Fault Refusal :=
  s.issue t (fun _ => opnd == 0) (fun _ c => { chip := c })

/-- SYNC.P: the three instructions behind it are fetched anew; it costs 4 cycles. -/
def execSyncP (t : Thr) (opnd : BitVec 20) (s : State) : Host.Outcome State Fault Refusal :=
  s.issue t (fun v => opnd == 0 && !v.th.confined) (fun v c => { flow := .jump (v.th.pc + 1) 3, chip := c })

/-- ROTW: WB + K modulo 8, in ID. -/
def execRotw (t : Thr) (opnd : BitVec 20) (s : State) : Host.Outcome State Fault Refusal :=
  s.issue t (fun _ => opnd.toNat < 8) (fun v c =>
    { writes := [(sID, .wb ((v.id.st.extractLsb' 12 3 : BitVec 3) + opnd.extractLsb' 0 3))], chip := c })

/-- The ST bits that STSET and STCLR may name: IE, FRAC, SAT, SV, OV, Z, N, V and C (R194). -/
def stMask : BitVec 20 := 0x4033F

/-- STSET: named ST bits become 1 at the end of AC. -/
def execStset (t : Thr) (opnd : BitVec 20) (s : State) : Host.Outcome State Fault Refusal :=
  s.issue t (fun _ => opnd &&& ~~~stMask == 0) (fun _ c => { writes := [(sAC, .stSet (opnd.zeroExtend 32))], chip := c })

/-- STCLR: named ST bits become 0 at the end of AC. -/
def execStclr (t : Thr) (opnd : BitVec 20) (s : State) : Host.Outcome State Fault Refusal :=
  s.issue t (fun _ => opnd &&& ~~~stMask == 0) (fun _ c => { writes := [(sAC, .stClr (opnd.zeroExtend 32))], chip := c })

/-- What DONE ends: on thread 0 the instance or task that runs, on threads 1 to 3 the thread (R193, R206). -/
def endRun (k : Nat) (c : Chip) : Chip :=
  if k % 4 = 0 then
    let c := match (c.core (k / 4)).running with
      | .task t => modTrowel (fun w => { w with tasks := tmod {} w.tasks t (fun r => { r with doneFrame := c.hawk.boundaryDone }) }) c
      | _ => c
    modCore (k / 4) (fun r => { r with doneAt := true }) c
  else modThread k (fun t => { t with state := .idle, wait := .none }) c

/-- DONE: illegal with a full shadow (R215). -/
def execDoneI (t : Thr) (opnd : BitVec 20) (s : State) : Host.Outcome State Fault Refusal :=
  s.issue t (fun v => opnd == 0 && !v.th.confined && v.th.shadow.isNone) (fun v c =>
    { flow := .ended, chip := endRun v.key c })

end Sys2Proof.Machine
end

