-- ==== Sys2Proof/Machine/TrowelMac.lean ====
section
/-!
DEFINITION. Format M, the MAC family with its parallel move, and Format A, the accumulator operations
(R176 to R179, R196).
-/

namespace Sys2Proof.Machine

/-! ### Format M (R176, R177) -/

/-- Is a Format M word legal (R173)? -/
def macLegal (f : MacFields) (_ : Views) : Bool :=
  f.reserved == 0 && (f.pm != 0 || !f.u) && (f.pm != 2 || f.xd % 2 == 0) && (f.pm != 3 || f.xd.toNat < 4)

/-- The parallel move of a Format M word (R177). -/
def parallelMove (f : MacFields) (v : Views) (c : Chip) : Effect :=
  let addr := (v.p v.ag f.pp.toNat).toNat
  let stp := v.step f.pp.toNat f.u
  match f.pm.toNat with
  | 0 => { chip := c }
  | 1 => loadEffect v c addr 2 (loadX v f.xd.toNat) stp
  | 2 => loadEffect v c addr 4 (loadPair v f.xd.toNat) stp
  | _ =>
    let n := narrow16 v.ma.sat (v.a v.ma f.xd.toNat)
    storeEffect v c addr 2 n.1.toNat (svWrite n.2 ++ stp)

/-- A Format M instruction: `op` gives AD and the flags from AD and the product; `uns` reads XB unsigned. -/
def macEffect (f : MacFields) (uns : Bool) (op : BitVec 40 → BitVec 40 → BitVec 40 × RegWrite) (v : Views) (c : Chip) :
    Effect :=
  let xb := v.x v.ma f.xb.toNat
  let prod := product v.mx.frac (v.x v.ma f.xa.toNat) (if uns then (xb.toNat : Int) else xb.toInt)
  let r := op (v.a v.ac f.ad.toNat) prod
  let e := parallelMove f v c
  { e with writes := e.writes ++ [(sAC, .a f.ad.toNat r.1), (sAC, r.2)] }

/-- MAC: AD takes AD + XA * XB. -/
def execMac (t : Thr) (f : MacFields) (s : State) : Host.Outcome State Fault Refusal :=
  s.issue t (macLegal f) (macEffect f false add40)

/-- MSU: AD takes AD - XA * XB. -/
def execMsu (t : Thr) (f : MacFields) (s : State) : Host.Outcome State Fault Refusal :=
  s.issue t (macLegal f) (macEffect f false sub40)

/-- MPY: AD takes XA * XB, C cleared. -/
def execMpy (t : Thr) (f : MacFields) (s : State) : Host.Outcome State Fault Refusal :=
  s.issue t (macLegal f) (macEffect f false (fun _ p => (p, flagsMove p)))

/-- MACR: AD takes AD + XA * XB + 2^15, the rounding constant. -/
def execMacr (t : Thr) (f : MacFields) (s : State) : Host.Outcome State Fault Refusal :=
  s.issue t (macLegal f) (macEffect f false (fun a p => add40 a (p + 0x8000)))

/-- MPYSU: AD takes XA * unsigned XB, C cleared. -/
def execMpysu (t : Thr) (f : MacFields) (s : State) : Host.Outcome State Fault Refusal :=
  s.issue t (macLegal f) (macEffect f true (fun _ p => (p, flagsMove p)))

/-- MACSU: AD takes AD + XA * unsigned XB. -/
def execMacsu (t : Thr) (f : MacFields) (s : State) : Host.Outcome State Fault Refusal :=
  s.issue t (macLegal f) (macEffect f true add40)

/-- MACSH: AD takes AD shifted right by 16 plus XA * XB. -/
def execMacsh (t : Thr) (f : MacFields) (s : State) : Host.Outcome State Fault Refusal :=
  s.issue t (macLegal f) (macEffect f false (fun a p => add40 (a.sshiftRight 16) p))

/-- MSUSH: AD takes AD shifted right by 16 minus XA * XB. -/
def execMsush (t : Thr) (f : MacFields) (s : State) : Host.Outcome State Fault Refusal :=
  s.issue t (macLegal f) (macEffect f false (fun a p => sub40 (a.sshiftRight 16) p))

/-! ### Format A (R178, R179) -/

/-- Is a Format A word legal that uses neither COND nor SH (R173, R178)? -/
def accLegal (f : AccFields) (_ : Views) : Bool := f.reserved == 0 && f.cond == 0 && f.sh == 0

/-- One that uses SH within `lo` to `hi`. -/
def accShLegal (lo hi : Int) (f : AccFields) (_ : Views) : Bool :=
  f.reserved == 0 && f.cond == 0 && decide (lo ≤ f.sh.toInt) && decide (f.sh.toInt ≤ hi)

/-- One that names an X pair. -/
def accPairLegal (f : AccFields) (v : Views) : Bool := accLegal f v && f.xs % 2 == 0

/-- An operation on AD and AS in AC: the new AD and the flags. -/
def accEffect (f : AccFields) (op : BitVec 40 → BitVec 40 → BitVec 40 × RegWrite) (v : Views) (c : Chip) : Effect :=
  let r := op (v.a v.ac f.ad.toNat) (v.a v.ac f.as_.toNat)
  { writes := [(sAC, .a f.ad.toNat r.1), (sAC, r.2)], chip := c }

/-- A move into AD with the Move class. -/
def accMove (f : AccFields) (op : BitVec 40 → BitVec 40 → BitVec 40) : Views → Chip → Effect :=
  accEffect f (fun d a => (op d a, flagsMove (op d a)))

/-- ADDA. -/
def execAdda (t : Thr) (f : AccFields) (s : State) : Host.Outcome State Fault Refusal :=
  s.issue t (accLegal f) (accEffect f add40)
/-- SUBA. -/
def execSuba (t : Thr) (f : AccFields) (s : State) : Host.Outcome State Fault Refusal :=
  s.issue t (accLegal f) (accEffect f sub40)
/-- MOVA. -/
def execMova (t : Thr) (f : AccFields) (s : State) : Host.Outcome State Fault Refusal :=
  s.issue t (accLegal f) (accMove f (fun _ a => a))
/-- NEGA: 0 - AS. -/
def execNega (t : Thr) (f : AccFields) (s : State) : Host.Outcome State Fault Refusal :=
  s.issue t (accLegal f) (accEffect f (fun _ a => sub40 0 a))
/-- ABSA: 0 - AS when AS is negative, else 0 + AS. -/
def execAbsa (t : Thr) (f : AccFields) (s : State) : Host.Outcome State Fault Refusal :=
  s.issue t (accLegal f) (accEffect f (fun _ a => if a.msb then sub40 0 a else add40 0 a))
/-- CLRA. -/
def execClra (t : Thr) (f : AccFields) (s : State) : Host.Outcome State Fault Refusal :=
  s.issue t (accLegal f) (accMove f (fun _ _ => 0))
/-- CMPA: the flags of AD - AS alone. -/
def execCmpa (t : Thr) (f : AccFields) (s : State) : Host.Outcome State Fault Refusal :=
  s.issue t (accLegal f) (fun v c =>
    { writes := [(sAC, compare40 (v.a v.ac f.ad.toNat) (v.a v.ac f.as_.toNat))], chip := c })
/-- MAXA. -/
def execMaxa (t : Thr) (f : AccFields) (s : State) : Host.Outcome State Fault Refusal :=
  s.issue t (accLegal f) (accMove f (fun d a => if d.toInt < a.toInt then a else d))
/-- MINA. -/
def execMina (t : Thr) (f : AccFields) (s : State) : Host.Outcome State Fault Refusal :=
  s.issue t (accLegal f) (accMove f (fun d a => if a.toInt < d.toInt then a else d))
/-- SHA: AS shifted by the signed immediate. -/
def execSha (t : Thr) (f : AccFields) (s : State) : Host.Outcome State Fault Refusal :=
  s.issue t (accShLegal (-32) 31 f) (accEffect f (fun _ a => shift40 a f.sh.toInt))
/-- SHAX: AS shifted by the signed count in XS. -/
def execShax (t : Thr) (f : AccFields) (s : State) : Host.Outcome State Fault Refusal :=
  s.issue t (accLegal f) (fun v c => accEffect f (fun _ a => shift40 a (v.x v.ma f.xs.toNat).toInt) v c)
/-- LSRA: AS shifted right by 0 to 31, zeros filling. -/
def execLsra (t : Thr) (f : AccFields) (s : State) : Host.Outcome State Fault Refusal :=
  s.issue t (accShLegal 0 31 f) (accMove f (fun _ a => a >>> f.sh.toNat))
/-- SATA: AS held to Q1.31; SV set when it changes. -/
def execSata (t : Thr) (f : AccFields) (s : State) : Host.Outcome State Fault Refusal :=
  s.issue t (accLegal f) (accEffect f (fun _ a =>
    let r : BitVec 40 := if outside a then (if a.msb then 0xFF80000000 else 0x007FFFFFFF) else a
    (r, .flags (zOf r) (nOf r) (vOf r) false false (outside a))))
/-- ADDAX: AD + XS * 2^16. -/
def execAddax (t : Thr) (f : AccFields) (s : State) : Host.Outcome State Fault Refusal :=
  s.issue t (accLegal f) (fun v c =>
    accEffect f (fun d _ => add40 d (BitVec.ofInt 40 ((v.x v.ma f.xs.toNat).toInt * 65536))) v c)
/-- MOVAX: XS * 2^16. -/
def execMovax (t : Thr) (f : AccFields) (s : State) : Host.Outcome State Fault Refusal :=
  s.issue t (accLegal f) (fun v c => accMove f (fun _ _ => BitVec.ofInt 40 ((v.x v.ma f.xs.toNat).toInt * 65536)) v c)
/-- MOVAXP: an X pair, sign-extended. -/
def execMovaxp (t : Thr) (f : AccFields) (s : State) : Host.Outcome State Fault Refusal :=
  s.issue t (accPairLegal f) (fun v c => accMove f (fun _ _ => (v.pair v.ma f.xs.toNat).signExtend 40) v c)
/-- RNDA: AS plus the rounding constant. -/
def execRnda (t : Thr) (f : AccFields) (s : State) : Host.Outcome State Fault Refusal :=
  s.issue t (accLegal f) (accEffect f (fun _ a => add40 a 0x8000))
/-- CMOVA: AS into AD when COND holds of the flags AC sees; else no flag and no register changes (R185). -/
def execCmova (t : Thr) (f : AccFields) (s : State) : Host.Outcome State Fault Refusal :=
  s.issue t (fun _ => f.reserved == 0 && f.sh == 0 && (condHolds f.cond.toNat 0).isSome) (fun v c =>
    if condHolds f.cond.toNat v.ac.st = some true then accMove f (fun _ a => a) v c else { chip := c })
/-- NORM: AD shifted by its exponent, which goes to XS (R179). -/
def execNormA (t : Thr) (f : AccFields) (s : State) : Host.Outcome State Fault Refusal :=
  s.issue t (accLegal f) (fun v c =>
    let a := v.a v.ma f.ad.toNat
    let e := exponent a
    let r := (shift40 a e).1
    { writes := [(sMA, .x (physX v.id f.xs.toNat) (BitVec.ofInt 16 e)), (sAC, .a f.ad.toNat r), (sAC, flagsMove r)],
      chip := c })
/-- EXP: the exponent of AS to XS. -/
def execExpA (t : Thr) (f : AccFields) (s : State) : Host.Outcome State Fault Refusal :=
  s.issue t (accLegal f) (fun v c =>
    { writes := [(sMA, .x (physX v.id f.xs.toNat) (BitVec.ofInt 16 (exponent (v.a v.ma f.as_.toNat))))], chip := c })
/-- MOVXA: AS[31:16] narrowed to XS. -/
def execMovxa (t : Thr) (f : AccFields) (s : State) : Host.Outcome State Fault Refusal :=
  s.issue t (accLegal f) (fun v c =>
    let n := narrow16 v.ma.sat (v.a v.ma f.as_.toNat)
    { writes := (sMA, .x (physX v.id f.xs.toNat) n.1) :: svWrite n.2, chip := c })
/-- MOVXAP: AS[31:0] narrowed to an X pair. -/
def execMovxap (t : Thr) (f : AccFields) (s : State) : Host.Outcome State Fault Refusal :=
  s.issue t (accPairLegal f) (fun v c =>
    let n := narrow 32 0 v.ma.sat (v.a v.ma f.as_.toNat)
    { writes := (sMA, .x (physX v.id f.xs.toNat) (n.1.extractLsb' 16 16)) ::
        (sMA, .x (physX v.id (f.xs.toNat + 1)) (n.1.extractLsb' 0 16)) :: svWrite n.2, chip := c })
/-- MOVXR: a named part of AS to XS, G sign-extended. -/
def execMovxr (t : Thr) (f : AccFields) (s : State) : Host.Outcome State Fault Refusal :=
  s.issue t (fun v => accShLegal 0 2 f v) (fun v c =>
    let a := v.a v.ma f.as_.toNat
    let x : BitVec 16 := match f.sh.toNat with
      | 0 => a.extractLsb' 0 16
      | 1 => a.extractLsb' 16 16
      | _ => (a.extractLsb' 32 8).signExtend 16
    { writes := [(sMA, .x (physX v.id f.xs.toNat) x)], chip := c })
/-- MOVRX: XS to a named part of AD; the other parts stay. -/
def execMovrx (t : Thr) (f : AccFields) (s : State) : Host.Outcome State Fault Refusal :=
  s.issue t (fun v => accShLegal 0 2 f v) (fun v c =>
    let x := v.x v.ma f.xs.toNat
    let w : RegWrite := match f.sh.toNat with
      | 0 => .aL f.ad.toNat x
      | 1 => .aH f.ad.toNat x
      | _ => .aG f.ad.toNat (x.extractLsb' 0 8)
    { writes := [(sAC, w)], chip := c })

end Sys2Proof.Machine
end

