-- ==== Sys2Proof/Machine/TrowelMem.lean ====
section
/-!
DEFINITION. Format L, loads and stores through a pointer, TAPM and the block instructions
(R182, R183, R197 to R199).
-/

namespace Sys2Proof.Machine

/-- A legal Format L word: NS is 0 but for kinds 11 to 13, and REG suits the kind (R172, R182, R183). -/
def memLegal (reg : Nat → Bool) (f : MemFields) (_ : Views) : Bool := !f.ns && reg f.reg.toNat
def anyReg (_ : Nat) : Bool := true
def pairReg (n : Nat) : Bool := n % 2 == 0
def quadReg (n : Nat) : Bool := n % 4 == 0
def accReg (n : Nat) : Bool := decide (n < 4)
def lowReg (n : Nat) : Bool := decide (n < 8)

/-- A load of `n` octets through a pointer. -/
def loadL (f : MemFields) (n : Nat) (mk : Views → Nat → List (Nat × RegWrite)) (v : Views) (c : Chip) : Effect :=
  loadEffect v c (v.ea f.ptr f.disp) n (mk v) (v.step f.ptr.toNat f.u)

/-- A store of `n` octets through a pointer; `val` is what MA gives it, with the writes it causes. -/
def storeL (f : MemFields) (n : Nat) (val : Views → Nat × List (Nat × RegWrite)) (v : Views) (c : Chip) : Effect :=
  let x := val v
  storeEffect v c (v.ea f.ptr f.disp) n x.1 (x.2 ++ v.step f.ptr.toNat f.u)

/-- LDH: X takes a halfword. -/
def execLdh (t : Thr) (f : MemFields) (s : State) : Host.Outcome State Fault Refusal :=
  s.issue t (memLegal anyReg f) (loadL f 2 (fun v x => loadX v f.reg.toNat x))
/-- LDW: an X pair takes a word. -/
def execLdw (t : Thr) (f : MemFields) (s : State) : Host.Outcome State Fault Refusal :=
  s.issue t (memLegal pairReg f) (loadL f 4 (fun v x => loadPair v f.reg.toNat x))
/-- LDD: an X quad takes two words, the one at the lower address first (R171). -/
def execLdd (t : Thr) (f : MemFields) (s : State) : Host.Outcome State Fault Refusal :=
  s.issue t (memLegal quadReg f) (loadL f 8 (fun v x =>
    loadPair v f.reg.toNat (x % 2 ^ 32) ++ loadPair v (f.reg.toNat + 2) (x / 2 ^ 32)))
/-- LDA: A takes a word, sign-extended. -/
def execLda (t : Thr) (f : MemFields) (s : State) : Host.Outcome State Fault Refusal :=
  s.issue t (memLegal accReg f) (loadL f 4 (fun _ x => [(sMX, .a f.reg.toNat ((BitVec.ofNat 32 x).signExtend 40))]))
/-- LDAH: A takes a halfword in its H part, the guard its sign, the L part 0. -/
def execLdah (t : Thr) (f : MemFields) (s : State) : Host.Outcome State Fault Refusal :=
  s.issue t (memLegal accReg f) (loadL f 2 (fun _ x =>
    [(sMX, .a f.reg.toNat (BitVec.ofInt 40 ((BitVec.ofNat 16 x).toInt * 65536)))]))
/-- LDP: P takes bits [23:0] of a word. -/
def execLdp (t : Thr) (f : MemFields) (s : State) : Host.Outcome State Fault Refusal :=
  s.issue t (memLegal lowReg f) (loadL f 4 (fun _ x => [(sMX, .p f.reg.toNat (BitVec.ofNat 24 x))]))
/-- LDM: M takes a word. -/
def execLdm (t : Thr) (f : MemFields) (s : State) : Host.Outcome State Fault Refusal :=
  s.issue t (memLegal lowReg f) (loadL f 4 (fun _ x => [(sMX, .m f.reg.toNat (BitVec.ofNat 32 x))]))
/-- LDG: the guard bits of A take bits [7:0] of a halfword. -/
def execLdg (t : Thr) (f : MemFields) (s : State) : Host.Outcome State Fault Refusal :=
  s.issue t (memLegal accReg f) (loadL f 2 (fun _ x => [(sMX, .aG f.reg.toNat (BitVec.ofNat 8 x))]))
/-- STH: a halfword takes X. -/
def execSth (t : Thr) (f : MemFields) (s : State) : Host.Outcome State Fault Refusal :=
  s.issue t (memLegal anyReg f) (storeL f 2 (fun v => ((v.x v.ma f.reg.toNat).toNat, [])))
/-- STW: a word takes an X pair. -/
def execStw (t : Thr) (f : MemFields) (s : State) : Host.Outcome State Fault Refusal :=
  s.issue t (memLegal pairReg f) (storeL f 4 (fun v => ((v.pair v.ma f.reg.toNat).toNat, [])))
/-- STD: two words take an X quad. -/
def execStd (t : Thr) (f : MemFields) (s : State) : Host.Outcome State Fault Refusal :=
  s.issue t (memLegal quadReg f) (storeL f 8 (fun v =>
    ((v.pair v.ma f.reg.toNat).toNat + 2 ^ 32 * (v.pair v.ma (f.reg.toNat + 2)).toNat, [])))

/-- An accumulator store: kinds 11 to 13 narrow with SAT unless NS is set, and belong to the Narrow class. -/
def storeNarrow (f : MemFields) (n w lo : Nat) (wide : BitVec w → Nat) (v : Views) (c : Chip) : Effect :=
  storeL f n (fun v =>
    let x := narrow w lo (v.ma.sat && !f.ns) (v.a v.ma f.reg.toNat)
    (wide x.1, svWrite x.2)) v c

/-- STAW: a word takes A narrowed to Q1.31. -/
def execStaw (t : Thr) (f : MemFields) (s : State) : Host.Outcome State Fault Refusal :=
  s.issue t (fun _ => accReg f.reg.toNat) (storeNarrow f 4 32 0 (fun x => x.toNat))
/-- STAH: a halfword takes A narrowed to Q1.15. -/
def execStah (t : Thr) (f : MemFields) (s : State) : Host.Outcome State Fault Refusal :=
  s.issue t (fun _ => accReg f.reg.toNat) (storeNarrow f 2 16 16 (fun x => x.toNat))
/-- STA23: a word takes A narrowed to Q23, sign-extended. -/
def execSta23 (t : Thr) (f : MemFields) (s : State) : Host.Outcome State Fault Refusal :=
  s.issue t (fun _ => accReg f.reg.toNat) (storeNarrow f 4 24 8 (fun x => (x.signExtend 32).toNat))
/-- STPM: a word takes P, zero-extended, or M, as REG[3] says. -/
def execStpm (t : Thr) (f : MemFields) (s : State) : Host.Outcome State Fault Refusal :=
  s.issue t (memLegal anyReg f) (storeL f 4 (fun v =>
    (if f.reg.toNat < 8 then (v.p v.ag f.reg.toNat).toNat else (v.m v.ag (f.reg.toNat - 8)).toNat, [])))
/-- STG: a halfword takes the guard bits, sign-extended. -/
def execStg (t : Thr) (f : MemFields) (s : State) : Host.Outcome State Fault Refusal :=
  s.issue t (memLegal accReg f) (storeL f 2 (fun v =>
    ((((v.a v.ma f.reg.toNat).extractLsb' 32 8).signExtend 16).toNat, [])))

/-- TAPM: read a halfword, write it 2 octets up, accumulate its product with XC, step the pointer, and with R
rotate the window (R197). -/
def execTapm (t : Thr) (ad : BitVec 2) (xc : BitVec 4) (ps : BitVec 3) (r : Bool) (reserved : BitVec 14) (s : State) :
    Host.Outcome State Fault Refusal :=
  s.issue t (fun _ => reserved == 0) (fun v c =>
    let p := v.p v.ag ps.toNat
    let up := (p + 2).toNat
    let d : BitVec 16 := BitVec.ofNat 16 (c.loadData v.key p.toNat 2)
    let sum := add40 (v.a v.ac ad.toNat) (product v.mx.frac (v.x v.ma xc.toNat) d.toInt)
    let wb := (v.id.st.extractLsb' 12 3 : BitVec 3)
    { writes := [(sAC, .a ad.toNat sum.1), (sAC, sum.2), (sAG, .p ps.toNat (postModify p (v.m v.ag ps.toNat)))] ++
        (if r then [(sID, .wb (wb + 1))] else []),
      chip := storeData v.key up 2 d.toNat c,
      fault := (accessFault c v.key p.toNat 2 false) <|> (accessFault c v.key up 2 true) })

/-! ### Block instructions (R198, R199) -/

/-- The running values of a block instruction: words done, pointers, exponent, memory, fault. -/
structure BlockRun where
  done : Nat
  ps : BitVec 24
  pd : BitVec 24
  x : Nat
  chip : Chip
  fault : Option Nat

/-- Run words of a block until `stop` words are done or a fault ends it. Entry 54, DESIGN CHOICE. -/
def blockLoop (word : BlockRun → BlockRun) (stop : Nat) : Nat → BlockRun → BlockRun
  | 0, b => b
  | n + 1, b => if stop ≤ b.done ∨ b.fault.isSome then b else blockLoop word stop n (word b)

/-- The effect of a block instruction: resumed from BX when ACT is set, run to N words or to `stopAt`, where an
interrupt or a switch stops it with its progress in BX and PC at it (R199). Entry 54, DESIGN CHOICE. -/
def blockEffect (v : Views) (c : Chip) (ps pd : Nat) (n : Nat) (x0 : Nat) (stopAt : Option (BitVec 13))
    (word : BlockRun → BlockRun) (fin : BlockRun → List (Nat × RegWrite)) : Effect :=
  let bx := v.ag.bx
  let from_ := if bx.msb then (bx.extractLsb' 0 13).toNat else 0
  let b0 : BlockRun := ⟨from_, v.p v.ag ps, v.p v.ag pd, x0, c, none⟩
  let stop := match stopAt with | some k => min n k.toNat | none => n
  let b := blockLoop word stop (n - from_) b0
  let finished := n ≤ b.done || b.fault.isSome
  { writes := fin b ++ [(sAG, .bx (if finished then 0 else BitVec.ofNat 16 (0x8000 + b.done)))],
    flow := if finished then .seq else .stay, chip := b.chip, fault := b.fault }

/-- BLKEXP: the least count of leading sign bits less 1 over N words, into XD (R198). Entry 54, DESIGN CHOICE. -/
def execBlkexp (t : Thr) (xd : BitVec 4) (ps : BitVec 3) (xc : BitVec 4) (w : Bool) (reserved : BitVec 12)
    (stopAt : Option (BitVec 13)) (s : State) : Host.Outcome State Fault Refusal :=
  s.issue t (fun v => reserved == 0 && !v.th.confined && decide ((v.x v.ma xc.toNat).toNat ≤ 4096)) (fun v c =>
    let n := (v.x v.ma xc.toNat).toNat
    let size := if w then 4 else 2
    let full := if w then 31 else 15
    let x0 := if v.ag.bx.msb then (v.x v.ma xd.toNat).toNat else full
    let word (b : BlockRun) : BlockRun :=
      match accessFault c v.key b.ps.toNat size false with
      | some e => { b with fault := some e }
      | none =>
        let e := leadingSigns (8 * size) (BitVec.ofNat (8 * size) (c.loadData v.key b.ps.toNat size)) - 1
        { b with done := b.done + 1, ps := postModify b.ps (v.m v.ag ps.toNat), x := min b.x e }
    blockEffect v c ps.toNat ps.toNat n x0 stopAt word (fun b =>
      [(sMA, .x (physX v.id xd.toNat) (BitVec.ofNat 16 b.x)), (sAG, .p ps.toNat b.ps)]))

/-- BMOV: copy N words in order, each read before it is written (R198). Entry 54, DESIGN CHOICE. -/
def execBmov (t : Thr) (pd : BitVec 3) (ps : BitVec 3) (xc : BitVec 4) (reserved : BitVec 14)
    (stopAt : Option (BitVec 13)) (s : State) : Host.Outcome State Fault Refusal :=
  s.issue t (fun v => reserved == 0 && !v.th.confined && decide ((v.x v.ma xc.toNat).toNat ≤ 4096)) (fun v c =>
    let n := (v.x v.ma xc.toNat).toNat
    let word (b : BlockRun) : BlockRun :=
      match (accessFault b.chip v.key b.ps.toNat 4 false) <|> (accessFault b.chip v.key b.pd.toNat 4 true) with
      | some e => { b with fault := some e }
      | none =>
        let x := b.chip.loadData v.key b.ps.toNat 4
        { b with done := b.done + 1, ps := postModify b.ps (v.m v.ag ps.toNat),
                 pd := postModify b.pd (v.m v.ag pd.toNat), chip := storeData v.key b.pd.toNat 4 x b.chip }
    blockEffect v c ps.toNat pd.toNat n 0 stopAt word (fun b =>
      [(sAG, .p ps.toNat b.ps), (sAG, .p pd.toNat b.pd)]))

end Sys2Proof.Machine
end

