-- ==== Sys2Proof/Machine/TrowelThreads.lean ====
section
/-!
DEFINITION. The thread, event, interrupt and semaphore instructions, thread switches, interrupt entry and lease
revocation on the gang semaphores (R201 to R221).
-/

namespace Sys2Proof.Machine

/-! ### Events and interrupts (R208 to R215) -/

/-- A thread parks at its instruction (R201). -/
def park (k : Nat) (w : Wait) (c : Chip) : Chip := modThread k (fun t => { t with state := .parked, wait := w }) c

/-- WAITE: matching flags are taken and cleared, else the thread parks; a pending enabled interrupt comes first
(R209). -/
def execWaite (t : Thr) (opnd : BitVec 20) (s : State) : Host.Outcome State Fault Refusal :=
  if s.chip.canInterrupt (thrKey t) then s.onChip (enterInterrupt (thrKey t))
  else
    let mask : BitVec 16 := opnd.extractLsb' 0 16
    s.issue t (fun v => mask != 0 && !v.th.confined) (fun v c =>
      let got := v.th.ef &&& mask
      if got = 0 then { flow := .stay, chip := park v.key (.flags mask) c }
      else { writes := [(sMA, .x (physX v.id (opnd.extractLsb' 16 4).toNat) got)],
             chip := modThread v.key (fun t => { t with ef := t.ef &&& ~~~got, state := .run, wait := .none }) c })

/-- The thread that SIGE names: a core of this gang, or this core with SELF (R208, R210). -/
def sigeTarget (k : Nat) (opnd : BitVec 20) : Nat :=
  let core := if opnd.getLsbD 13 then k / 4 else k / 64 * 16 + (opnd.extractLsb' 16 4).toNat
  4 * core + (opnd.extractLsb' 14 2).toNat

/-- SIGE: set an event flag on a thread of this gang. -/
def execSige (t : Thr) (opnd : BitVec 20) (s : State) : Host.Outcome State Fault Refusal :=
  s.issue t (fun v => !v.th.confined && opnd.extractLsb' 4 9 == 0 &&
      (!opnd.getLsbD 13 || opnd.extractLsb' 16 4 == 0)) (fun v c =>
    { chip := setFlag (sigeTarget v.key opnd) (opnd.extractLsb' 0 4).toNat c })

/-- RTI: PC, ST and the loop state return from the shadow; illegal with an empty one (R215). -/
def execRti (t : Thr) (opnd : BitVec 20) (s : State) : Host.Outcome State Fault Refusal :=
  s.issue t (fun v => opnd == 0 && !v.th.confined && v.th.shadow.isSome) (fun v c =>
    match v.th.shadow with
    | none => { chip := c }
    | some sh =>
      { flow := .jump sh.pc 2,
        chip := modThread v.key (fun t =>
          let t := { t.drain with slot := t.slot }
          { t with regs := { t.regs with st := sh.st }, loop := sh.loop, shadow := none }) c })

/-- INTERRUPT_ENTRY: the lowest pending enabled flag of a thread enters its handler, unless it is held off
(R212 to R214). -/
def execInterruptEntry (t : Thr) (s : State) : Host.Outcome State Fault Refusal :=
  s.onChip (fun c => when_ (c.canInterrupt (thrKey t) &&
    (c.threadState (thrKey t) == .run || c.threadState (thrKey t) == .parked)) (enterInterrupt (thrKey t)) c)

/-! ### Thread switches (R202, R203) -/

/-- The thread of a core in RUN. -/
def Chip.runThread (c : Chip) (core : Nat) : Option Nat :=
  (upTo 4).find? (fun t => c.threadState (4 * core + t) == .run)

/-- The READY thread of a core with the highest priority: the lowest number. -/
def Chip.readyThread (c : Chip) (core : Nat) : Option Nat :=
  (upTo 4).find? (fun t => c.threadState (4 * core + t) == .ready)

/-- The outgoing thread's instructions complete and its PC stays at the discarded one (R203, R204). Entry 53, DEDUCED. -/
def switchOut (k : Nat) (c : Chip) : Chip :=
  modThread k (fun t => { ({ t with slot := t.slot - 4 }).drain with state := .ready }) c

/-- THREAD_SWITCH: a READY thread of higher priority preempts the one in RUN, but not in a delay slot; with none in
RUN it begins to run. -/
def execThreadSwitch (core : Fin 256) (s : State) : Host.Outcome State Fault Refusal :=
  s.onChip (fun c =>
    match c.readyThread core.val, c.runThread core.val with
    | some n, none => modThread (4 * core.val + n) (fun t => { t with state := .run }) c
    | some n, some o =>
      if n < o ∧ (c.thread (4 * core.val + o)).delay.isNone then
        modThread (4 * core.val + n) (fun t => { t with state := .run }) (switchOut (4 * core.val + o) c)
      else c
    | none, _ => c)

/-! ### Gang semaphores (R218 to R220) -/

/-- Is a thread the holder of a semaphore? -/
def holds (x : Sem) (k : Nat) : Bool :=
  match x.held with | some h => 4 * h.core + h.thread == k | none => false

/-- SEMA: acquire or renew a semaphore, or answer 0 or park on a held one. -/
def execSema (t : Thr) (opnd : BitVec 20) (s : State) : Host.Outcome State Fault Refusal :=
  s.issue t (fun v => !v.th.confined && opnd.extractLsb' 6 8 == 0 && !opnd.getLsbD 15) (fun v c =>
    let gang := v.key / 64
    let sem := (opnd.extractLsb' 0 6).toNat
    let xd := physX v.id (opnd.extractLsb' 16 4).toNat
    let x := c.sem gang sem
    let answer (n : BitVec 16) (c : Chip) : Effect := { writes := [(sMX, .x xd n)], chip := c }
    if x.held.isNone then answer (if x.revoked then 3 else 1) (grantSem gang sem v.key c)
    else if holds x v.key then
      answer 1 (modSem gang sem (fun x => { x with held := x.held.map (fun h => { h with expiry := c.semExpiry gang }) }) c)
    else if opnd.getLsbD 14 then answer 0 c
    else
      let me := (v.key / 4, v.key % 4, xd)
      { flow := .stay, chip := park v.key (.sema sem xd) (modSem gang sem (fun x =>
          { x with queue := if x.queue.contains me then x.queue else x.queue ++ [me] }) c) })

/-- SEMR: free a semaphore and grant it to the next waiter; a party that is not its holder does nothing and, unless
its lease was revoked, leaves a SEM_FOREIGN entry. -/
def execSemr (t : Thr) (opnd : BitVec 20) (s : State) : Host.Outcome State Fault Refusal :=
  s.issue t (fun v => !v.th.confined && opnd.extractLsb' 6 14 == 0) (fun v c =>
    let gang := v.key / 64
    let sem := (opnd.extractLsb' 0 6).toNat
    let x := c.sem gang sem
    { chip := if holds x v.key then passSem gang sem false c
              else if x.former.contains (v.key / 4, v.key % 4) then c
              else snag 0x1006 (64 * gang + sem) (c.semTenant v.key) c })

/-- The semaphores of all gangs that a lease holds past its expiry: those below the STC (R220). -/
def Chip.lapsedSems (c : Chip) : List Nat :=
  (tkeys c.trowel.sems 0 1024).filter (fun n =>
    match (tget {} c.trowel.sems n).held with | some h => decide (h.expiry < c.time.stc) | none => false)

/-- SEMAPHORE_REVOKE: every gang semaphore lease past its expiry is revoked and passed on. -/
def execSemaphoreRevoke (s : State) : Host.Outcome State Fault Refusal :=
  s.onChip (fun c => forEach c.lapsedSems (fun n c => revokeSem (n / 64) (n % 64) c) c)

end Sys2Proof.Machine
end

