-- ==== Sys2Proof/Machine/Dispatch.lean ====
section
/-!
DEFINITION. One arm per command: each is a direct call of its meaning.
-/

namespace Sys2Proof.Machine

/-- The effect of one command on everything but the queue. -/
def exec (i : Instr) (s : State) : Host.Outcome State Fault Refusal :=
  match i with
  | .sampleTick tdm => Sys2Proof.Machine.execSampleTick tdm s
  | .skimOverrun => Sys2Proof.Machine.execSkimOverrun s
  | .frameBoundary selfCheck => Sys2Proof.Machine.execFrameBoundary selfCheck s
  | .lookaheadPass => Sys2Proof.Machine.execLookaheadPass s
  | .maxRelease => Sys2Proof.Machine.execMaxRelease s
  | .featherEnd => Sys2Proof.Machine.execFeatherEnd s
  | .stippleFrame cluster => Sys2Proof.Machine.execStippleFrame cluster s
  | .stippleLate cluster => Sys2Proof.Machine.execStippleLate cluster s
  | .frameDeadline => Sys2Proof.Machine.execFrameDeadline s
  | .userOverrun core => Sys2Proof.Machine.execUserOverrun core s
  | .instanceEntry core => Sys2Proof.Machine.execInstanceEntry core s
  | .exchangeCopy x => Sys2Proof.Machine.execExchangeCopy x s
  | .exchangeReturnCopy x => Sys2Proof.Machine.execExchangeReturnCopy x s
  | .windowFill => Sys2Proof.Machine.execWindowFill s
  | .audioInFrame t q fetched => Sys2Proof.Machine.execAudioInFrame t q fetched s
  | .audioOutFrame t q => Sys2Proof.Machine.execAudioOutFrame t q s
  | .canHeartbeat slot => Sys2Proof.Machine.execCanHeartbeat slot s
  | .dmxPacket u => Sys2Proof.Machine.execDmxPacket u s
  | .cvLoad group => Sys2Proof.Machine.execCvLoad group s
  | .cvReadback ch code moved => Sys2Proof.Machine.execCvReadback ch code moved s
  | .cvFaultTimeout ch => Sys2Proof.Machine.execCvFaultTimeout ch s
  | .senseSample codes => Sys2Proof.Machine.execSenseSample codes s
  | .prefetch t q fetched => Sys2Proof.Machine.execPrefetch t q fetched s
  | .dispatch fails => Sys2Proof.Machine.execDispatch fails s
  | .migrateGo r => Sys2Proof.Machine.execMigrateGo r s
  | .migrationCutoff => Sys2Proof.Machine.execMigrationCutoff s
  | .migrationQueryTimer => Sys2Proof.Machine.execMigrationQueryTimer s
  | .migrationRetry => Sys2Proof.Machine.execMigrationRetry s
  | .stealReserve r v => Sys2Proof.Machine.execStealReserve r v s
  | .stagingImageWrite r k n image => Sys2Proof.Machine.execStagingImageWrite r k n image s
  | .templateCommit r n => Sys2Proof.Machine.execTemplateCommit r n s
  | .templateWithdraw r n => Sys2Proof.Machine.execTemplateWithdraw r n s
  | .layerCommit r n => Sys2Proof.Machine.execLayerCommit r n s
  | .layerWithdraw r n => Sys2Proof.Machine.execLayerWithdraw r n s
  | .modsetCommit r n => Sys2Proof.Machine.execModsetCommit r n s
  | .modsetWithdraw r n => Sys2Proof.Machine.execModsetWithdraw r n s
  | .controlCommit r n => Sys2Proof.Machine.execControlCommit r n s
  | .controlWithdraw r n => Sys2Proof.Machine.execControlWithdraw r n s
  | .versionSwitch => Sys2Proof.Machine.execVersionSwitch s
  | .versionRelease => Sys2Proof.Machine.execVersionRelease s
  | .globalEnable r n => Sys2Proof.Machine.execGlobalEnable r n s
  | .taskEnable r t => Sys2Proof.Machine.execTaskEnable r t s
  | .taskDisable r t => Sys2Proof.Machine.execTaskDisable r t s
  | .codeLoad r => Sys2Proof.Machine.execCodeLoad r s
  | .codeLoadDone => Sys2Proof.Machine.execCodeLoadDone s
  | .threadMode r core thread mode => Sys2Proof.Machine.execThreadMode r core thread mode s
  | .threadSwitch core => Sys2Proof.Machine.execThreadSwitch core s
  | .interruptEntry t => Sys2Proof.Machine.execInterruptEntry t s
  | .semaphoreRevoke => Sys2Proof.Machine.execSemaphoreRevoke s
  | .allWaitDetector gang => Sys2Proof.Machine.execAllWaitDetector gang s
  | .coreReinstate r core passed => Sys2Proof.Machine.execCoreReinstate r core passed s
  | .thermalStepDown gang reading => Sys2Proof.Machine.execThermalStepDown gang reading s
  | .thermalStepUp gang reading => Sys2Proof.Machine.execThermalStepUp gang reading s
  | .thermalTrip gang reading => Sys2Proof.Machine.execThermalTrip gang reading s
  | .thermalUngate gang reading => Sys2Proof.Machine.execThermalUngate gang reading s
  | .mac t f => Sys2Proof.Machine.execMac t f s
  | .msu t f => Sys2Proof.Machine.execMsu t f s
  | .mpy t f => Sys2Proof.Machine.execMpy t f s
  | .macr t f => Sys2Proof.Machine.execMacr t f s
  | .mpysu t f => Sys2Proof.Machine.execMpysu t f s
  | .macsu t f => Sys2Proof.Machine.execMacsu t f s
  | .macsh t f => Sys2Proof.Machine.execMacsh t f s
  | .msush t f => Sys2Proof.Machine.execMsush t f s
  | .adda t f => Sys2Proof.Machine.execAdda t f s
  | .suba t f => Sys2Proof.Machine.execSuba t f s
  | .mova t f => Sys2Proof.Machine.execMova t f s
  | .nega t f => Sys2Proof.Machine.execNega t f s
  | .absa t f => Sys2Proof.Machine.execAbsa t f s
  | .clra t f => Sys2Proof.Machine.execClra t f s
  | .cmpa t f => Sys2Proof.Machine.execCmpa t f s
  | .maxa t f => Sys2Proof.Machine.execMaxa t f s
  | .mina t f => Sys2Proof.Machine.execMina t f s
  | .sha t f => Sys2Proof.Machine.execSha t f s
  | .shax t f => Sys2Proof.Machine.execShax t f s
  | .lsra t f => Sys2Proof.Machine.execLsra t f s
  | .sata t f => Sys2Proof.Machine.execSata t f s
  | .addax t f => Sys2Proof.Machine.execAddax t f s
  | .movax t f => Sys2Proof.Machine.execMovax t f s
  | .movaxp t f => Sys2Proof.Machine.execMovaxp t f s
  | .rnda t f => Sys2Proof.Machine.execRnda t f s
  | .cmova t f => Sys2Proof.Machine.execCmova t f s
  | .normA t f => Sys2Proof.Machine.execNormA t f s
  | .expA t f => Sys2Proof.Machine.execExpA t f s
  | .movxa t f => Sys2Proof.Machine.execMovxa t f s
  | .movxap t f => Sys2Proof.Machine.execMovxap t f s
  | .movxr t f => Sys2Proof.Machine.execMovxr t f s
  | .movrx t f => Sys2Proof.Machine.execMovrx t f s
  | .movx t f => Sys2Proof.Machine.execMovx t f s
  | .addx t f => Sys2Proof.Machine.execAddx t f s
  | .subx t f => Sys2Proof.Machine.execSubx t f s
  | .addsx t f => Sys2Proof.Machine.execAddsx t f s
  | .subsx t f => Sys2Proof.Machine.execSubsx t f s
  | .andx t f => Sys2Proof.Machine.execAndx t f s
  | .orx t f => Sys2Proof.Machine.execOrx t f s
  | .xorx t f => Sys2Proof.Machine.execXorx t f s
  | .notx t f => Sys2Proof.Machine.execNotx t f s
  | .negx t f => Sys2Proof.Machine.execNegx t f s
  | .absx t f => Sys2Proof.Machine.execAbsx t f s
  | .shlx t f => Sys2Proof.Machine.execShlx t f s
  | .shrx t f => Sys2Proof.Machine.execShrx t f s
  | .lsrx t f => Sys2Proof.Machine.execLsrx t f s
  | .maxx t f => Sys2Proof.Machine.execMaxx t f s
  | .minx t f => Sys2Proof.Machine.execMinx t f s
  | .cmpx t f => Sys2Proof.Machine.execCmpx t f s
  | .movi t f => Sys2Proof.Machine.execMovi t f s
  | .addi t f => Sys2Proof.Machine.execAddi t f s
  | .andi t f => Sys2Proof.Machine.execAndi t f s
  | .ori t f => Sys2Proof.Machine.execOri t f s
  | .xori t f => Sys2Proof.Machine.execXori t f s
  | .cmpi t f => Sys2Proof.Machine.execCmpi t f s
  | .movml t f => Sys2Proof.Machine.execMovml t f s
  | .movmh t f => Sys2Proof.Machine.execMovmh t f s
  | .movia t f => Sys2Proof.Machine.execMovia t f s
  | .addip t f => Sys2Proof.Machine.execAddip t f s
  | .movilc t f => Sys2Proof.Machine.execMovilc t f s
  | .movip t pd imm => Sys2Proof.Machine.execMovip t pd imm s
  | .ldh t f => Sys2Proof.Machine.execLdh t f s
  | .ldw t f => Sys2Proof.Machine.execLdw t f s
  | .ldd t f => Sys2Proof.Machine.execLdd t f s
  | .lda t f => Sys2Proof.Machine.execLda t f s
  | .ldah t f => Sys2Proof.Machine.execLdah t f s
  | .ldp t f => Sys2Proof.Machine.execLdp t f s
  | .ldm t f => Sys2Proof.Machine.execLdm t f s
  | .ldg t f => Sys2Proof.Machine.execLdg t f s
  | .sth t f => Sys2Proof.Machine.execSth t f s
  | .stw t f => Sys2Proof.Machine.execStw t f s
  | .std t f => Sys2Proof.Machine.execStd t f s
  | .staw t f => Sys2Proof.Machine.execStaw t f s
  | .stah t f => Sys2Proof.Machine.execStah t f s
  | .sta23 t f => Sys2Proof.Machine.execSta23 t f s
  | .stpm t f => Sys2Proof.Machine.execStpm t f s
  | .stg t f => Sys2Proof.Machine.execStg t f s
  | .branch t cond l ind xr target => Sys2Proof.Machine.execBranch t cond l ind xr target s
  | .dbnz t xd reserved target => Sys2Proof.Machine.execDbnz t xd reserved target s
  | .loopLc t reserved ofs => Sys2Proof.Machine.execLoopLc t reserved ofs s
  | .loopi t count ofs => Sys2Proof.Machine.execLoopi t count ofs s
  | .rpti t reserved count => Sys2Proof.Machine.execRpti t reserved count s
  | .rptx t xs reserved => Sys2Proof.Machine.execRptx t xs reserved s
  | .moveIntoSreg t sreg xr reserved => Sys2Proof.Machine.execMoveIntoSreg t sreg xr reserved s
  | .moveOutOfSreg t sreg xr reserved => Sys2Proof.Machine.execMoveOutOfSreg t sreg xr reserved s
  | .blkexp t xd ps xc w reserved stopAt => Sys2Proof.Machine.execBlkexp t xd ps xc w reserved stopAt s
  | .bmov t pd ps xc reserved stopAt => Sys2Proof.Machine.execBmov t pd ps xc reserved stopAt s
  | .tapm t ad xc ps r reserved => Sys2Proof.Machine.execTapm t ad xc ps r reserved s
  | .nopI t opnd => Sys2Proof.Machine.execNopI t opnd s
  | .syncP t opnd => Sys2Proof.Machine.execSyncP t opnd s
  | .doneI t opnd => Sys2Proof.Machine.execDoneI t opnd s
  | .rotw t opnd => Sys2Proof.Machine.execRotw t opnd s
  | .stset t opnd => Sys2Proof.Machine.execStset t opnd s
  | .stclr t opnd => Sys2Proof.Machine.execStclr t opnd s
  | .waite t opnd => Sys2Proof.Machine.execWaite t opnd s
  | .sige t opnd => Sys2Proof.Machine.execSige t opnd s
  | .rti t opnd => Sys2Proof.Machine.execRti t opnd s
  | .sema t opnd => Sys2Proof.Machine.execSema t opnd s
  | .semr t opnd => Sys2Proof.Machine.execSemr t opnd s
  | .coatCommit r => Sys2Proof.Machine.execCoatCommit r s
  | .coatClear r => Sys2Proof.Machine.execCoatClear r s
  | .safeLoadCommit r slot => Sys2Proof.Machine.execSafeLoadCommit r slot s
  | .safeLoadCancel r slot => Sys2Proof.Machine.execSafeLoadCancel r slot s
  | .safeLoadTaken => Sys2Proof.Machine.execSafeLoadTaken s
  | .screedParameterWrite r unit param value => Sys2Proof.Machine.execScreedParameterWrite r unit param value s
  | .exchangeDir r x dir => Sys2Proof.Machine.execExchangeDir r x dir s
  | .wetEdgeGo r => Sys2Proof.Machine.execWetEdgeGo r s
  | .wetEdgeCancel r => Sys2Proof.Machine.execWetEdgeCancel r s
  | .crossfadeStart => Sys2Proof.Machine.execCrossfadeStart s
  | .crossfadeEnd => Sys2Proof.Machine.execCrossfadeEnd s
  | .dipOutStart => Sys2Proof.Machine.execDipOutStart s
  | .stageSwitch => Sys2Proof.Machine.execStageSwitch s
  | .dipEnd => Sys2Proof.Machine.execDipEnd s
  | .extentReadComplete volume object index result => Sys2Proof.Machine.execExtentReadComplete volume object index result s
  | .readTimeout => Sys2Proof.Machine.execReadTimeout s
  | .rootLinkDown port link => Sys2Proof.Machine.execRootLinkDown port link s
  | .controllerFatal drive => Sys2Proof.Machine.execControllerFatal drive s
  | .hodMount r slot => Sys2Proof.Machine.execHodMount r slot s
  | .mountDone slot found => Sys2Proof.Machine.execMountDone slot found s
  | .hodUnmount r slot => Sys2Proof.Machine.execHodUnmount r slot s
  | .hodFormat r slot => Sys2Proof.Machine.execHodFormat r slot s
  | .formatDone slot superblock => Sys2Proof.Machine.execFormatDone slot superblock s
  | .hodPreload r slot on => Sys2Proof.Machine.execHodPreload r slot on s
  | .remoteTimeout => Sys2Proof.Machine.execRemoteTimeout s
  | .importBegin r => Sys2Proof.Machine.execImportBegin r s
  | .importData r data => Sys2Proof.Machine.execImportData r data s
  | .importFinish r => Sys2Proof.Machine.execImportFinish r s
  | .importDelete r => Sys2Proof.Machine.execImportDelete r s
  | .driveReinstate r drive => Sys2Proof.Machine.execDriveReinstate r drive s
  | .patrolScrub inst word double => Sys2Proof.Machine.execPatrolScrub inst word double s
  | .dramScrub found => Sys2Proof.Machine.execDramScrub found s
  | .conflictClear r => Sys2Proof.Machine.execConflictClear r s
  | .journalReinstate r failing => Sys2Proof.Machine.execJournalReinstate r failing s
  | .dramReinstate r => Sys2Proof.Machine.execDramReinstate r s
  | .wipeTrigger cause => Sys2Proof.Machine.execWipeTrigger cause s
  | .wipeComplete verified => Sys2Proof.Machine.execWipeComplete verified s
  | .codeword port cw => Sys2Proof.Machine.execCodeword port cw s
  | .replayTimeout port => Sys2Proof.Machine.execReplayTimeout port s
  | .lathSync port fields residence offsetPs => Sys2Proof.Machine.execLathSync port fields residence offsetPs s
  | .pdelayReq port seq t2 t3 => Sys2Proof.Machine.execPdelayReq port seq t2 t3 s
  | .pdelayResp port seq t2 t3 t4 => Sys2Proof.Machine.execPdelayResp port seq t2 t3 t4 s
  | .lathHello port role version width serial => Sys2Proof.Machine.execLathHello port role version width serial s
  | .lathCredit port counts => Sys2Proof.Machine.execLathCredit port counts s
  | .heartbeat port fields => Sys2Proof.Machine.execHeartbeat port fields s
  | .eventMirror chip tag fields fails => Sys2Proof.Machine.execEventMirror chip tag fields fails s
  | .mirrorAck chip tag free => Sys2Proof.Machine.execMirrorAck chip tag free s
  | .eventForward chip fields => Sys2Proof.Machine.execEventForward chip fields s
  | .placement chip fields => Sys2Proof.Machine.execPlacement chip fields s
  | .placeRefuse chip fields => Sys2Proof.Machine.execPlaceRefuse chip fields s
  | .holderReport chip tag fields => Sys2Proof.Machine.execHolderReport chip tag fields s
  | .homeRelease chip fields => Sys2Proof.Machine.execHomeRelease chip fields s
  | .controllerFwd chip fields => Sys2Proof.Machine.execControllerFwd chip fields s
  | .migRecord chip fields => Sys2Proof.Machine.execMigRecord chip fields s
  | .migReady chip fields => Sys2Proof.Machine.execMigReady chip fields s
  | .migCommit chip fields => Sys2Proof.Machine.execMigCommit chip fields s
  | .migrationAbort chip fields => Sys2Proof.Machine.execMigrationAbort chip fields s
  | .migCommitted chip fields => Sys2Proof.Machine.execMigCommitted chip fields s
  | .migQuery chip fields => Sys2Proof.Machine.execMigQuery chip fields s
  | .migQueryReply chip fields => Sys2Proof.Machine.execMigQueryReply chip fields s
  | .busRising m contrib origin epoch values => Sys2Proof.Machine.execBusRising m contrib origin epoch values s
  | .busFalling m contrib origin epoch values => Sys2Proof.Machine.execBusFalling m contrib origin epoch values s
  | .stemRising m contrib origin epoch values => Sys2Proof.Machine.execStemRising m contrib origin epoch values s
  | .stemFalling m contrib origin epoch values => Sys2Proof.Machine.execStemFalling m contrib origin epoch values s
  | .hawkDigest chip octets => Sys2Proof.Machine.execHawkDigest chip octets s
  | .extentReq chip fields => Sys2Proof.Machine.execExtentReq chip fields s
  | .extentData chip fields => Sys2Proof.Machine.execExtentData chip fields s
  | .volumeOffer chip fields => Sys2Proof.Machine.execVolumeOffer chip fields s
  | .chainNdp chip tag message => Sys2Proof.Machine.execChainNdp chip tag message s
  | .chainCensus port fields => Sys2Proof.Machine.execChainCensus port fields s
  | .viewVote port fields => Sys2Proof.Machine.execViewVote port fields s
  | .viewApply port fields => Sys2Proof.Machine.execViewApply port fields s
  | .configPropose chip fields => Sys2Proof.Machine.execConfigPropose chip fields s
  | .configVote chip fields => Sys2Proof.Machine.execConfigVote chip fields s
  | .configApply chip fields => Sys2Proof.Machine.execConfigApply chip fields s
  | .configFetch chip fields => Sys2Proof.Machine.execConfigFetch chip fields s
  | .configData chip fields => Sys2Proof.Machine.execConfigData chip fields s
  | .replicate chip fields => Sys2Proof.Machine.execReplicate chip fields s
  | .replicateAck chip fields => Sys2Proof.Machine.execReplicateAck chip fields s
  | .chainAudit chip fields => Sys2Proof.Machine.execChainAudit chip fields s
  | .auditTimer => Sys2Proof.Machine.execAuditTimer s
  | .syncTimer ns frac => Sys2Proof.Machine.execSyncTimer ns frac s
  | .pdelayTimer port t1 => Sys2Proof.Machine.execPdelayTimer port t1 s
  | .helloTimer port => Sys2Proof.Machine.execHelloTimer port s
  | .heartbeatTimer => Sys2Proof.Machine.execHeartbeatTimer s
  | .portEnable r port => Sys2Proof.Machine.execPortEnable r port s
  | .portDisable r port => Sys2Proof.Machine.execPortDisable r port s
  | .signalDetected port => Sys2Proof.Machine.execSignalDetected port s
  | .lanesLock port lanes => Sys2Proof.Machine.execLanesLock port lanes s
  | .trainTimeout port => Sys2Proof.Machine.execTrainTimeout port s
  | .alignLock port => Sys2Proof.Machine.execAlignLock port s
  | .laneFailure port lane => Sys2Proof.Machine.execLaneFailure port lane s
  | .retrainLock port lanes => Sys2Proof.Machine.execRetrainLock port lanes s
  | .signalLost port => Sys2Proof.Machine.execSignalLost port s
  | .portReset r port => Sys2Proof.Machine.execPortReset r port s
  | .portReinstate r port => Sys2Proof.Machine.execPortReinstate r port s
  | .laneReinstate r lane => Sys2Proof.Machine.execLaneReinstate r lane s
  | .censusSettle => Sys2Proof.Machine.execCensusSettle s
  | .viewApplyTimeout => Sys2Proof.Machine.execViewApplyTimeout s
  | .applyBoundary => Sys2Proof.Machine.execApplyBoundary s
  | .remirrorDone => Sys2Proof.Machine.execRemirrorDone s
  | .heartbeatMiss port => Sys2Proof.Machine.execHeartbeatMiss port s
  | .lossSwitch => Sys2Proof.Machine.execLossSwitch s
  | .lossEffective => Sys2Proof.Machine.execLossEffective s
  | .inventoryWaitEnd => Sys2Proof.Machine.execInventoryWaitEnd s
  | .timeMasterElection => Sys2Proof.Machine.execTimeMasterElection s
  | .chainWrite r o data => Sys2Proof.Machine.execChainWrite r o data s
  | .configApplyTimer => Sys2Proof.Machine.execConfigApplyTimer s
  | .chainWriteApply => Sys2Proof.Machine.execChainWriteApply s
  | .quarantineRequest r on => Sys2Proof.Machine.execQuarantineRequest r on s
  | .resync r => Sys2Proof.Machine.execResync r s
  | .mirrorResend => Sys2Proof.Machine.execMirrorResend s
  | .tenantEnable r t on => Sys2Proof.Machine.execTenantEnable r t on s
  | .flr t => Sys2Proof.Machine.execFlr t s
  | .linkDown => Sys2Proof.Machine.execLinkDown s
  | .dmaError t q => Sys2Proof.Machine.execDmaError t q s
  | .queueEnable r q fields => Sys2Proof.Machine.execQueueEnable r q fields s
  | .queueDisable r q fields => Sys2Proof.Machine.execQueueDisable r q fields s
  | .doorbell t q v => Sys2Proof.Machine.execDoorbell t q v s
  | .queueSeq r q v => Sys2Proof.Machine.execQueueSeq r q v s
  | .coalTime t q => Sys2Proof.Machine.execCoalTime t q s
  | .tenantReset r t => Sys2Proof.Machine.execTenantReset r t s
  | .resetWithDiscard r t => Sys2Proof.Machine.execResetWithDiscard r t s
  | .resetDone t => Sys2Proof.Machine.execResetDone t s
  | .stcLoRead t frac => Sys2Proof.Machine.execStcLoRead t frac s
  | .pendingRead r t => Sys2Proof.Machine.execPendingRead r t s
  | .evtStatusClear t w v => Sys2Proof.Machine.execEvtStatusClear t w v s
  | .evtEnable t w v => Sys2Proof.Machine.execEvtEnable t w v s
  | .mailboxDoorbell t m tag request => Sys2Proof.Machine.execMailboxDoorbell t m tag request s
  | .mailboxTake => Sys2Proof.Machine.execMailboxTake s
  | .mailboxWithdraw t m => Sys2Proof.Machine.execMailboxWithdraw t m s
  | .accessApply r => Sys2Proof.Machine.execAccessApply r s
  | .accessApplyStore r => Sys2Proof.Machine.execAccessApplyStore r s
  | .ndpRead r object offset dst => Sys2Proof.Machine.execNdpRead r object offset dst s
  | .ndpWrite r object dst data => Sys2Proof.Machine.execNdpWrite r object dst data s
  | .writeBegin r object dst total => Sys2Proof.Machine.execWriteBegin r object dst total s
  | .writeData r object offset dst data => Sys2Proof.Machine.execWriteData r object offset dst data s
  | .writeEnd r object dst crc => Sys2Proof.Machine.execWriteEnd r object dst crc s
  | .ndpAbort r object dst => Sys2Proof.Machine.execNdpAbort r object dst s
  | .ndpIdentify r dst => Sys2Proof.Machine.execNdpIdentify r dst s
  | .queuePut r q dst data => Sys2Proof.Machine.execQueuePut r q dst data s
  | .queueGet r q dst => Sys2Proof.Machine.execQueueGet r q dst s
  | .ndpPing r dst data => Sys2Proof.Machine.execNdpPing r dst data s
  | .ndpNotify => Sys2Proof.Machine.execNdpNotify s
  | .sessionExpiry => Sys2Proof.Machine.execSessionExpiry s
  | .forwardTimeout => Sys2Proof.Machine.execForwardTimeout s
  | .flashRecordWritten ok => Sys2Proof.Machine.execFlashRecordWritten ok s
  | .canFrameReceived ctl frame => Sys2Proof.Machine.execCanFrameReceived ctl frame s
  | .canFrameSent ctl => Sys2Proof.Machine.execCanFrameSent ctl s
  | .canBusError ctl transmitter dominant => Sys2Proof.Machine.execCanBusError ctl transmitter dominant s
  | .busOffRecovery ctl => Sys2Proof.Machine.execBusOffRecovery ctl s
  | .collision ctl => Sys2Proof.Machine.execCollision ctl s
  | .canAbort r ctl => Sys2Proof.Machine.execCanAbort r ctl s
  | .slotEnable r slot on => Sys2Proof.Machine.execSlotEnable r slot on s
  | .canRestart r ctl => Sys2Proof.Machine.execCanRestart r ctl s
  | .canMode r ctl mode => Sys2Proof.Machine.execCanMode r ctl mode s
  | .canReinstate r ctl => Sys2Proof.Machine.execCanReinstate r ctl s
  | .wclkWindow after => Sys2Proof.Machine.execWclkWindow after s
  | .plumbLock => Sys2Proof.Machine.execPlumbLock s
  | .holdover => Sys2Proof.Machine.execHoldover s
  | .holdoverTimeout => Sys2Proof.Machine.execHoldoverTimeout s
  | .clockSource r source => Sys2Proof.Machine.execClockSource r source s
  | .chainHoldover => Sys2Proof.Machine.execChainHoldover s
  | .realignment => Sys2Proof.Machine.execRealignment s
  | .sampleRate r rate => Sys2Proof.Machine.execSampleRate r rate s
  | .rateTransition => Sys2Proof.Machine.execRateTransition s
  | .renderStop => Sys2Proof.Machine.execRenderStop s
  | .clockStop => Sys2Proof.Machine.execClockStop s
  | .rateTransitionResume => Sys2Proof.Machine.execRateTransitionResume s
  | .blockSize r b => Sys2Proof.Machine.execBlockSize r b s
  | .blockSizeChange => Sys2Proof.Machine.execBlockSizeChange s
  | .tempoSet r => Sys2Proof.Machine.execTempoSet r s
  | .tempoRelocate r => Sys2Proof.Machine.execTempoRelocate r s
  | .tempoAndRelocate r => Sys2Proof.Machine.execTempoAndRelocate r s
  | .tempoApply => Sys2Proof.Machine.execTempoApply s
  | .timerCount u => Sys2Proof.Machine.execTimerCount u s
  | .leaseExpiry => Sys2Proof.Machine.execLeaseExpiry s
  | .powerFail => Sys2Proof.Machine.execPowerFail s
  | .powerFailRestart cycles => Sys2Proof.Machine.execPowerFailRestart cycles s
  | .warmReset r => Sys2Proof.Machine.execWarmReset r s
  | .coldReset r => Sys2Proof.Machine.execColdReset r s
  | .resetN low supplies ignored cycles => Sys2Proof.Machine.execResetN low supplies ignored cycles s
  | .gangReset r gang => Sys2Proof.Machine.execGangReset r gang s
  | .coreReset r core => Sys2Proof.Machine.execCoreReset r core s
  | .supervisorRestart => Sys2Proof.Machine.execSupervisorRestart s
  | .supervisorRestartDone => Sys2Proof.Machine.execSupervisorRestartDone s
  | .crossingDead island => Sys2Proof.Machine.execCrossingDead island s
  | .replayGo r t => Sys2Proof.Machine.execReplayGo r t s
  | .characterReceived u x => Sys2Proof.Machine.execCharacterReceived u x s
  | .rxTimeout u => Sys2Proof.Machine.execRxTimeout u s
  | .characterSent u collision => Sys2Proof.Machine.execCharacterSent u collision s
  | .retryBackoff u => Sys2Proof.Machine.execRetryBackoff u s
  | .uartTx r u entries => Sys2Proof.Machine.execUartTx r u entries s
  | .uartRxRead r u offset => Sys2Proof.Machine.execUartRxRead r u offset s
  | .uartMode r u object v => Sys2Proof.Machine.execUartMode r u object v s
  | .uartMute r u => Sys2Proof.Machine.execUartMute r u s
  | .midiBind r u queue v => Sys2Proof.Machine.execMidiBind r u queue v s
  | .dmxBreak u => Sys2Proof.Machine.execDmxBreak u s
  | .dmxIdle u => Sys2Proof.Machine.execDmxIdle u s
  | .rdmRequest r u message => Sys2Proof.Machine.execRdmRequest r u message s
  | .rdmTimeout u => Sys2Proof.Machine.execRdmTimeout u s
  | .rdmResponse u => Sys2Proof.Machine.execRdmResponse u s
  | .rdmOutbox r u message => Sys2Proof.Machine.execRdmOutbox r u message s
  | .cvEnable r ch on => Sys2Proof.Machine.execCvEnable r ch on s
  | .cvReinstate r ch => Sys2Proof.Machine.execCvReinstate r ch s
  | .tdmMode r port framing v => Sys2Proof.Machine.execTdmMode r port framing v s
  | .tdmRealignment port => Sys2Proof.Machine.execTdmRealignment port s
  | .tdmNoClock port => Sys2Proof.Machine.execTdmNoClock port s
  | .keyCoat rate => Sys2Proof.Machine.execKeyCoat rate s
  | .alwaysOnWatchdog => Sys2Proof.Machine.execAlwaysOnWatchdog s
  | .bootReady ms => Sys2Proof.Machine.execBootReady ms s
  | .updateCommit r => Sys2Proof.Machine.execUpdateCommit r s
  | .commitRollback r => Sys2Proof.Machine.execCommitRollback r s
  | .revokeKeySlot r slot => Sys2Proof.Machine.execRevokeKeySlot r slot s
  | .quietEntry => Sys2Proof.Machine.execQuietEntry s
  | .powerStandby r => Sys2Proof.Machine.execPowerStandby r s
  | .powerWake source cycles tables => Sys2Proof.Machine.execPowerWake source cycles tables s
  | .lifeAdvance r next => Sys2Proof.Machine.execLifeAdvance r next s
  | .keyInstall r id wrapped => Sys2Proof.Machine.execKeyInstall r id wrapped s
  | .keyRemove r id => Sys2Proof.Machine.execKeyRemove r id s
  | .kolefId => Sys2Proof.Machine.execKolefId s
  | .kolefRd object => Sys2Proof.Machine.execKolefRd object s
  | .kolefWr object data => Sys2Proof.Machine.execKolefWr object data s
  | .kolefLog tenant count => Sys2Proof.Machine.execKolefLog tenant count s
  | .kolefStc frac => Sys2Proof.Machine.execKolefStc frac s
  | .kolefReset cold => Sys2Proof.Machine.execKolefReset cold s
  | .kolefImg slotB length => Sys2Proof.Machine.execKolefImg slotB length s
  | .kolefImgTimeout => Sys2Proof.Machine.execKolefImgTimeout s
  | .kolefLc => Sys2Proof.Machine.execKolefLc s
  | .kolefHelp => Sys2Proof.Machine.execKolefHelp s
  | .driveEnumerated found => Sys2Proof.Machine.execDriveEnumerated found s
  | .vfEnable t on => Sys2Proof.Machine.execVfEnable t on s
  | .importDone => Sys2Proof.Machine.execImportDone s
  | .gangResetDone gang n table => Sys2Proof.Machine.execGangResetDone gang n table s
  | .tdmFrameStart port => Sys2Proof.Machine.execTdmFrameStart port s
  | .rdmReplyIdle u => Sys2Proof.Machine.execRdmReplyIdle u s
  | .vbakLoss => Sys2Proof.Machine.execVbakLoss s
  | .chainClockClassExpiry => Sys2Proof.Machine.execChainClockClassExpiry s

end Sys2Proof.Machine
end

