-- ==== Sys2Proof/WellFormed.lean ====
section
/-!
DEFINITION. Well-formed commands: operands that the type of a command admits and the spec does not.  Every meaning is defined
on the others too.
-/

namespace Sys2Proof

/-- Largest data of one message on a path (R422). -/
def Path.maxData : Path → Nat
  | .can _ _ true => 48
  | .bar _ => 4
  | .kolef => 64
  | _ => 2016

/-- Data octets of a frame by its format (R433 to R435): 1 to 2,048 in XL, a DLC length in FD, up to 8 in CC. -/
def CanRx.lengthOk (f : CanRx) : Bool :=
  match f.format.val with
  | 0 => decide (1 ≤ f.data.length) && decide (f.data.length ≤ 2048)
  | 1 => [0, 1, 2, 3, 4, 5, 6, 7, 8, 12, 16, 20, 24, 32, 48, 64].contains f.data.length
  | _ => decide (f.data.length ≤ 8)

/-- A base identifier has 11 bits; XL has no extended one; only Classical frames are remote (R433). -/
def CanRx.idOk (f : CanRx) : Bool :=
  (f.extended || decide (f.id.toNat < 2048)) && !(f.extended && f.format.val == 0) && (!f.remote || f.format.val == 2)

/-- Are the operands of a command such as the spec admits? Entry 5, DESIGN CHOICE. -/
def Instr.wf : Instr → Bool
  | .ndpWrite r _ _ d => decide (d.length ≤ r.path.maxData)
  | .writeData r _ _ _ d => decide (d.length ≤ r.path.maxData)
  | .queuePut r _ _ d => decide (d.length ≤ r.path.maxData)
  | .ndpPing r _ d => decide (d.length ≤ r.path.maxData)
  | .kolefWr _ d => decide (d.length ≤ Path.kolef.maxData)
  | .kolefLog _ n => decide (1 ≤ n.toNat) && decide (n.toNat ≤ 64)
  | .mailboxDoorbell _ _ _ m => decide (m.length ≤ 2032)
  | .canFrameReceived _ f => f.lengthOk && f.idOk
  | .codeword _ w => decide (w.slots.length = 640) && decide (w.corrected.length ≤ 4)
  | .senseSample l => decide (l.length ≤ 16)
  | .sampleTick l => decide (l.map Prod.fst).Nodup
  | .frameBoundary l => decide l.Nodup
  | .hawkDigest _ o => decide (o.length = 64)
  | .lathHello _ _ _ _ s => decide (s.length = 16)
  | .busRising _ _ _ _ v => decide (v.length = 512)
  | .busFalling _ _ _ _ v => decide (v.length = 512)
  | .stemRising _ _ _ _ v => decide (v.length = 256)
  | .stemFalling _ _ _ _ v => decide (v.length = 256)
  | .prefetch _ _ l => l.all (fun e => decide (e.length = 32))
  | _ => true

end Sys2Proof
end

