-- ==== Sys2Proof/Safety.lean ====
section
/-!
DEFINITION. The notions that the statements are made of: a command that completes, a request that reaches its object's
rule and what answers it, an instruction that issues, and the invariants of the state.
-/

namespace Sys2Proof.Machine

/-! ### Completion -/

/-- The command ends in a next state, and that state meets `P`. -/
def Completes (i : Instr) (s : State) (P : State → Prop) : Prop := ∃ t, exec i s = .next t ∧ P t

/-- The command ends in the next state whose chip is `c`; the queue and the Dust Sheet are as they were. -/
def Leaves (i : Instr) (s : State) (c : Chip) : Prop := exec i s = .next { s with chip := c }

/-! ### Requests of the dictionary (R425 to R432) -/

/-- The state in which a request is judged: a Nerlil request has been counted (R444). Entry 32, DEDUCED.
Entry 43, DESIGN CHOICE. -/
def judged (p : Path) (s : State) : State :=
  if isNerlil p then { s with chip := bump Obj.ndpCountersRequests s.chip } else s

/-- A path that carries no message of the dictionary: a BAR0 access. -/
def isBar : Path → Bool
  | .bar _ => true
  | _ => false

/-- A request reaches its service on this chip: it comes by a message path, the supervisor runs, and on a Nerlil path it is
neither a repeat nor part of a session, stays within what may be outstanding, has a good header and names this chip. -/
abbrev Reaches (p : Path) (m : Msg) (s : State) : Prop :=
  isBar p = false ∧ s.chip.work.supervisor.restarting = false ∧
  (isNerlil p = true →
    keptFor (judged p s).chip p (actingMaster s.chip p) m = [] ∧
    sessionOf (judged p s).chip p (actingMaster s.chip p) m.txn.toNat = none ∧
    outstanding (judged p s).chip (fun q => decide (q = p)) < 4 ∧
    outstanding (judged p s).chip (samePathKind p) < 64 ∧
    badHeader p m = false ∧
    (m.dst.toNat = 0xFF ∨ m.dst.toNat = (judged p s).chip.num Obj.identityChipNumber))

/-- A WRITE of `data` to object `o` by master `a` passes steps 1 to 7 of R427 on this chip: what is left is the object's own
rule. -/
abbrev Writes (r : Req) (a : Nat) (o : Nat) (data : List Byte) (s : State) : Prop :=
  o < 2 ^ 32 ∧ Reaches r.path (writeMsg r o data) s ∧ actingMaster s.chip r.path = some a ∧
  (match writeTarget (judged r.path s).chip (some a) o with
    | .ok d => decide (valueStatus d data = St.ok)
    | .error _ => false) = true

/-- A request is answered: with its STATUS at once, or for a STORED object that took its value once the flash record is
written (R419). -/
def answered (r : Req) (a : Nat) (o : Nat) (data : List Byte) (x : State × Nat) : State :=
  if x.2 = St.ok ∧ isStored o = true then
    { x.1 with chip := { x.1.chip with flashPending := x.1.chip.flashPending ++
        [{ path := r.path, txn := r.txn.toNat, op := 2, object := o, offset := 0,
           length := data.length, master := some a, data := data }] } }
  else { x.1 with chip := respond r.path (writeMsg r o data) (some a) { status := x.2 } x.1.chip }

/-- The WRITE command `i` that reaches its object's rule leaves chip `c` and is answered with `st`. -/
def Answers (i : Instr) (r : Req) (a : Nat) (o : Nat) (data : List Byte) (s : State) (c : Chip) (st : Nat) : Prop :=
  exec i s = .next (answered r a o data ({ s with chip := c }, st))

/-- The request `m` on path `p` that command `i` makes is answered with `r`, and what it leaves else is `t`. -/
def Replies (i : Instr) (p : Path) (m : Msg) (s t : State) (r : Reply) : Prop :=
  exec i s = .next { t with chip := respond p m (actingMaster s.chip p) r t.chip }

/-- A message of the open session `x`, not seen before, reaches its service (R428, R429). -/
abbrev InSession (p : Path) (m : Msg) (x : Session) (s : State) : Prop :=
  isNerlil p = true ∧ s.chip.work.supervisor.restarting = false ∧ sessionOp m = true ∧ x.ended = .isOpen ∧
  sessionOf (judged p s).chip p (actingMaster s.chip p) m.txn.toNat = some x ∧
  (keptFor (judged p s).chip p (actingMaster s.chip p) m).find? (fun k => k.repeats true m) = none ∧
  outstanding (judged p s).chip (fun q => decide (q = p)) < 4 ∧ outstanding (judged p s).chip (samePathKind p) < 64 ∧
  badHeader p m = false ∧ (m.dst.toNat = 0xFF ∨ m.dst.toNat = (judged p s).chip.num Obj.identityChipNumber)

/-! ### Instructions of the Trowel cores (R159 to R161) -/

/-- A thread after one issue slot: the writes join the pending ones by stage, the program goes on as `fl` says, and what the
next slot's decode sees has landed. -/
def afterSlot (th : Thread) (ws : List (Nat × RegWrite)) (fl : Flow) : Thread := ((landWrites th ws).flow fl).settle

/-- The instruction at PC is fetched, and with chip `c` left by its access the program goes on at an index that can be
fetched. -/
abbrev CanIssue (s : State) (t : Thr) (ws : List (Nat × RegWrite)) (fl : Flow) (c : Chip) : Prop :=
  s.chip.badFetch (thrKey t) = false ∧
  fetchable (afterSlot (c.thread (thrKey t)) ws fl).pc.toNat = true

/-- Where it can issue, the instruction writes `ws`, goes on by `fl` and leaves all else of `c` as it is. -/
def IssuesAs (i : Instr) (t : Thr) (s : State) (ws : List (Nat × RegWrite)) (fl : Flow) (c : Chip) : Prop :=
  CanIssue s t ws fl c → Leaves i s (modThread (thrKey t) (fun th => afterSlot th ws fl) c)

/-- The registers of a thread once everything pending has landed. -/
def Thread.settled (t : Thread) : Regs := t.writes.foldl (fun r w => r.apply w.write) t.regs

/-! ### Invariants -/

/-- The Dust Sheet in order: its keys in canonical form, at most 4,096, none under KEY_ID 0, and the wrapped forms in flash in
rising order of KEY_ID, none of them 0 (R317, R551, R552). -/
def DustSheet.ok (d : DustSheet) : Prop :=
  twf [] d.keys = true ∧ d.keys.length ≤ 4096 ∧ (∀ e ∈ d.keys, e.1 ≠ 0) ∧
  tsorted none d.store = true ∧ (∀ e ∈ d.store, e.1 ≠ 0)

/-- Chip memory in canonical form. -/
def Chip.memOk (c : Chip) : Prop := Memory.wf c.mem = true

end Sys2Proof.Machine
end

