-- ==== Sys2Proof/Certificates/Slice0/Obligations.lean ====
section
/-!
DEFINITION. What the provers are asked: one statement per obligation, by family of commands.
-/

open Sys2Proof Sys2Proof.Machine

/-! ### Trowel instructions (chapters 6 and 7) -/

/-- R176, R177: the eight Format M operations on AD and the exact product, each beside its parallel move; what AD, the flags, the
load destination, the stored halfword and the pointer take, and when. -/
def Obligations.MacFamilyResults : Prop :=
  ∀ (t : Thr) (f : MacFields) (s : State),
    f.reserved = 0 → (f.pm = 0 → f.u = false) → (f.pm = 2 → f.xd % 2 = 0) → (f.pm = 3 → f.xd.toNat < 4) →
    let v := s.chip.views (thrKey t)
    let e := parallelMove f v s.chip
    let scale : Int := if v.mx.st.getLsbD 9 then 2 else 1
    let xa := (v.x v.ma f.xa.toNat).toInt
    let p := BitVec.ofInt 40 (xa * (v.x v.ma f.xb.toNat).toInt * scale)
    let pu := BitVec.ofInt 40 (xa * (v.x v.ma f.xb.toNat).toNat * scale)
    let d := v.a v.ac f.ad.toNat
    let d16 := d.sshiftRight 16
    let sum (a b : BitVec 40) := [(sAC, .a f.ad.toNat (a + b)),
      (sAC, flagsAdd (a + b) (decide (2 ^ 40 ≤ a.toNat + b.toNat)) (decide (a.toInt + b.toInt ≠ (a + b).toInt)))]
    let difference (a b : BitVec 40) := [(sAC, .a f.ad.toNat (a - b)),
      (sAC, flagsAdd (a - b) (decide (b.toNat ≤ a.toNat)) (decide (a.toInt - b.toInt ≠ (a - b).toInt)))]
    let plain (a : BitVec 40) := [(sAC, .a f.ad.toNat a), (sAC, flagsAdd a false false)]
    e.fault = none →
    IssuesAs (.mac t f) t s (e.writes ++ sum d p) .seq e.chip ∧
    IssuesAs (.msu t f) t s (e.writes ++ difference d p) .seq e.chip ∧
    IssuesAs (.mpy t f) t s (e.writes ++ plain p) .seq e.chip ∧
    IssuesAs (.macr t f) t s (e.writes ++ sum d (p + 0x8000)) .seq e.chip ∧
    IssuesAs (.mpysu t f) t s (e.writes ++ plain pu) .seq e.chip ∧
    IssuesAs (.macsu t f) t s (e.writes ++ sum d pu) .seq e.chip ∧
    IssuesAs (.macsh t f) t s (e.writes ++ sum d16 p) .seq e.chip ∧
    IssuesAs (.msush t f) t s (e.writes ++ difference d16 p) .seq e.chip

/-- R174, R177: what each parallel move is: nothing, a load of X or of an X pair at the end of MX, or a store of an accumulator
narrowed to Q1.15 as MA sees it; with U the pointer is post-modified in AG. -/
def Obligations.ParallelMoves : Prop :=
  ∀ (f : MacFields) (v : Views) (c : Chip),
    let p := (v.p v.ag f.pp.toNat).toNat
    let step := if f.u then [(sAG, RegWrite.p f.pp.toNat (postModify (v.p v.ag f.pp.toNat) (v.m v.ag f.pp.toNat)))] else []
    let word := c.loadData v.key p 4
    let a := tget 0 v.ma.a f.xd.toNat
    (f.pm = 0 → parallelMove f v c = { chip := c }) ∧
    (f.pm = 1 → (parallelMove f v c).writes = (sMX, .x (physX v.id f.xd.toNat) (BitVec.ofNat 16 (c.loadData v.key p 2))) :: step ∧
      (parallelMove f v c).chip = c) ∧
    (f.pm = 2 → (parallelMove f v c).writes = (sMX, .x (physX v.id f.xd.toNat) (BitVec.ofNat 16 (word / 65536))) ::
      (sMX, .x (physX v.id (f.xd.toNat + 1)) (BitVec.ofNat 16 word)) :: step ∧ (parallelMove f v c).chip = c) ∧
    (f.pm = 3 → v.ma.st.getLsbD 8 = false ∨ (-(2 ^ 31) ≤ a.toInt ∧ a.toInt < 2 ^ 31) →
      (parallelMove f v c).writes = step ∧
      (parallelMove f v c).chip = storeData v.key p 2 (a.extractLsb' 16 16).toNat c) ∧
    (f.pm = 3 → v.ma.st.getLsbD 8 = true → 2 ^ 31 ≤ a.toInt →
      (parallelMove f v c).writes = (sAC, .setSv) :: step ∧ (parallelMove f v c).chip = storeData v.key p 2 0x7FFF c) ∧
    (f.pm = 3 → v.ma.st.getLsbD 8 = true → a.toInt < -(2 ^ 31) →
      (parallelMove f v c).writes = (sAC, .setSv) :: step ∧ (parallelMove f v c).chip = storeData v.key p 2 0x8000 c)

/-- R178: ADDA, SUBA, MOVA, NEGA, ABSA, CLRA, CMPA, MAXA and MINA read and write accumulators in AC. -/
def Obligations.AccumulatorArithmetic : Prop :=
  ∀ (t : Thr) (f : AccFields) (s : State), f.reserved = 0 → f.cond = 0 → f.sh = 0 →
    let v := s.chip.views (thrKey t)
    let d := v.a v.ac f.ad.toNat
    let a := v.a v.ac f.as_.toNat
    let sum (x y : BitVec 40) := [(sAC, .a f.ad.toNat (x + y)),
      (sAC, flagsAdd (x + y) (decide (2 ^ 40 ≤ x.toNat + y.toNat)) (decide (x.toInt + y.toInt ≠ (x + y).toInt)))]
    let difference (x y : BitVec 40) := [(sAC, .a f.ad.toNat (x - y)),
      (sAC, flagsAdd (x - y) (decide (y.toNat ≤ x.toNat)) (decide (x.toInt - y.toInt ≠ (x - y).toInt)))]
    let move (x : BitVec 40) := [(sAC, .a f.ad.toNat x), (sAC, flagsAdd x false false)]
    IssuesAs (.adda t f) t s (sum d a) .seq s.chip ∧
    IssuesAs (.suba t f) t s (difference d a) .seq s.chip ∧
    IssuesAs (.mova t f) t s (move a) .seq s.chip ∧
    IssuesAs (.nega t f) t s (difference 0 a) .seq s.chip ∧
    (a.toInt < 0 → IssuesAs (.absa t f) t s (difference 0 a) .seq s.chip) ∧
    (0 ≤ a.toInt → IssuesAs (.absa t f) t s (sum 0 a) .seq s.chip) ∧
    IssuesAs (.clra t f) t s (move 0) .seq s.chip ∧
    IssuesAs (.cmpa t f) t s [(sAC, flagsAdd (d - a) (decide (a.toNat ≤ d.toNat)) false)] .seq s.chip ∧
    (a.toInt ≤ d.toInt → IssuesAs (.maxa t f) t s (move d) .seq s.chip ∧ IssuesAs (.mina t f) t s (move a) .seq s.chip) ∧
    (d.toInt ≤ a.toInt → IssuesAs (.maxa t f) t s (move a) .seq s.chip ∧ IssuesAs (.mina t f) t s (move d) .seq s.chip)

/-- R178: SHA, SHAX, LSRA, SATA, ADDAX, MOVAX, MOVAXP, RNDA and CMOVA. -/
def Obligations.AccumulatorShiftsAndMoves : Prop :=
  ∀ (t : Thr) (f : AccFields) (s : State), f.reserved = 0 →
    let v := s.chip.views (thrKey t)
    let d := v.a v.ac f.ad.toNat
    let a := v.a v.ac f.as_.toNat
    let x := v.x v.ma f.xs.toNat
    let shifted (r : BitVec 40 × RegWrite) := [(sAC, .a f.ad.toNat r.1), (sAC, r.2)]
    let sum (x y : BitVec 40) := [(sAC, .a f.ad.toNat (x + y)),
      (sAC, flagsAdd (x + y) (decide (2 ^ 40 ≤ x.toNat + y.toNat)) (decide (x.toInt + y.toInt ≠ (x + y).toInt)))]
    let move (x : BitVec 40) := [(sAC, .a f.ad.toNat x), (sAC, flagsAdd x false false)]
    (f.cond = 0 → IssuesAs (.sha t f) t s (shifted (shift40 a f.sh.toInt)) .seq s.chip) ∧
    (f.cond = 0 → f.sh = 0 → IssuesAs (.shax t f) t s (shifted (shift40 a x.toInt)) .seq s.chip) ∧
    (f.cond = 0 → 0 ≤ f.sh.toInt → IssuesAs (.lsra t f) t s (move (a >>> f.sh.toNat)) .seq s.chip) ∧
    (f.cond = 0 → f.sh = 0 → -(2 ^ 31) ≤ a.toInt → a.toInt < 2 ^ 31 → IssuesAs (.sata t f) t s (move a) .seq s.chip) ∧
    (f.cond = 0 → f.sh = 0 → 2 ^ 31 ≤ a.toInt →
      IssuesAs (.sata t f) t s [(sAC, .a f.ad.toNat 0x007FFFFFFF), (sAC, .flags false false false false false true)] .seq s.chip) ∧
    (f.cond = 0 → f.sh = 0 → a.toInt < -(2 ^ 31) →
      IssuesAs (.sata t f) t s [(sAC, .a f.ad.toNat 0xFF80000000), (sAC, .flags false true false false false true)] .seq s.chip) ∧
    (f.cond = 0 → f.sh = 0 → IssuesAs (.addax t f) t s (sum d (BitVec.ofInt 40 (x.toInt * 65536))) .seq s.chip) ∧
    (f.cond = 0 → f.sh = 0 → IssuesAs (.movax t f) t s (move (BitVec.ofInt 40 (x.toInt * 65536))) .seq s.chip) ∧
    (f.cond = 0 → f.sh = 0 → f.xs % 2 = 0 →
      IssuesAs (.movaxp t f) t s (move ((x ++ v.x v.ma (f.xs.toNat + 1)).signExtend 40)) .seq s.chip) ∧
    (f.cond = 0 → f.sh = 0 → IssuesAs (.rnda t f) t s (sum a 0x8000) .seq s.chip) ∧
    (f.sh = 0 → condHolds f.cond.toNat v.ac.st = some true → IssuesAs (.cmova t f) t s (move a) .seq s.chip) ∧
    (f.sh = 0 → condHolds f.cond.toNat v.ac.st = some false → IssuesAs (.cmova t f) t s [] .seq s.chip)

/-- R178, R179: NORM, EXP, MOVXA, MOVXAP, MOVXR and MOVRX: the moves between accumulators and X. -/
def Obligations.AccumulatorToX : Prop :=
  ∀ (t : Thr) (f : AccFields) (s : State), f.reserved = 0 → f.cond = 0 →
    let v := s.chip.views (thrKey t)
    let d := v.a v.ma f.ad.toNat
    let a := v.a v.ma f.as_.toNat
    let x (n : Nat) (w : BitVec 16) := (sMA, RegWrite.x (physX v.id n) w)
    (f.sh = 0 → IssuesAs (.expA t f) t s [x f.xs.toNat (BitVec.ofInt 16 (exponent a))] .seq s.chip) ∧
    (f.sh = 0 → IssuesAs (.normA t f) t s
      [x f.xs.toNat (BitVec.ofInt 16 (exponent d)), (sAC, .a f.ad.toNat (shift40 d (exponent d)).1),
       (sAC, flagsAdd (shift40 d (exponent d)).1 false false)] .seq s.chip) ∧
    (f.sh = 0 → v.ma.st.getLsbD 8 = false →
      IssuesAs (.movxa t f) t s [x f.xs.toNat (a.extractLsb' 16 16)] .seq s.chip ∧
      (f.xs % 2 = 0 → IssuesAs (.movxap t f) t s
        [x f.xs.toNat (a.extractLsb' 16 16), x (f.xs.toNat + 1) (a.extractLsb' 0 16)] .seq s.chip)) ∧
    (f.sh = 0 → v.ma.st.getLsbD 8 = true → -(2 ^ 31) ≤ a.toInt → a.toInt < 2 ^ 31 →
      IssuesAs (.movxa t f) t s [x f.xs.toNat (a.extractLsb' 16 16)] .seq s.chip ∧
      (f.xs % 2 = 0 → IssuesAs (.movxap t f) t s
        [x f.xs.toNat (a.extractLsb' 16 16), x (f.xs.toNat + 1) (a.extractLsb' 0 16)] .seq s.chip)) ∧
    (f.sh = 0 → v.ma.st.getLsbD 8 = true → 2 ^ 31 ≤ a.toInt →
      IssuesAs (.movxa t f) t s [x f.xs.toNat 0x7FFF, (sAC, .setSv)] .seq s.chip ∧
      (f.xs % 2 = 0 → IssuesAs (.movxap t f) t s
        [x f.xs.toNat 0x7FFF, x (f.xs.toNat + 1) 0xFFFF, (sAC, .setSv)] .seq s.chip)) ∧
    (f.sh = 0 → v.ma.st.getLsbD 8 = true → a.toInt < -(2 ^ 31) →
      IssuesAs (.movxa t f) t s [x f.xs.toNat 0x8000, (sAC, .setSv)] .seq s.chip ∧
      (f.xs % 2 = 0 → IssuesAs (.movxap t f) t s
        [x f.xs.toNat 0x8000, x (f.xs.toNat + 1) 0, (sAC, .setSv)] .seq s.chip)) ∧
    (f.sh = 0 → IssuesAs (.movxr t f) t s [x f.xs.toNat (a.extractLsb' 0 16)] .seq s.chip ∧
      IssuesAs (.movrx t f) t s [(sAC, .aL f.ad.toNat (v.x v.ma f.xs.toNat))] .seq s.chip) ∧
    (f.sh = 1 → IssuesAs (.movxr t f) t s [x f.xs.toNat (a.extractLsb' 16 16)] .seq s.chip ∧
      IssuesAs (.movrx t f) t s [(sAC, .aH f.ad.toNat (v.x v.ma f.xs.toNat))] .seq s.chip) ∧
    (f.sh = 2 → IssuesAs (.movxr t f) t s [x f.xs.toNat ((a.extractLsb' 32 8).signExtend 16)] .seq s.chip ∧
      IssuesAs (.movrx t f) t s [(sAC, .aG f.ad.toNat ((v.x v.ma f.xs.toNat).extractLsb' 0 8))] .seq s.chip)

/-- R179: the exponent lies between -8 and 31, is 31 for 0 and all ones, and NORM's shift leaves any value but 0 with bits [39:31]
equal and bit 30 unlike them; R148: a narrowing to Q1.15 that does not saturate truncates toward minus infinity, and a value lies
outside Q1.31 exactly when bits [39:31] are not all equal. -/
def Obligations.ExponentsAndNarrowing : Prop :=
  (∀ a : BitVec 40, -8 ≤ exponent a ∧ exponent a ≤ 31) ∧
  exponent 0 = 31 ∧ exponent (BitVec.allOnes 40) = 31 ∧
  (∀ a : BitVec 40, a ≠ 0 →
    let r := (shift40 a (exponent a)).1
    r.extractLsb' 31 9 = (if r.msb then BitVec.allOnes 9 else 0) ∧ r.getLsbD 30 ≠ r.msb) ∧
  (∀ a : BitVec 40, outside a = false ↔ -(2 ^ 31) ≤ a.toInt ∧ a.toInt < 2 ^ 31) ∧
  (∀ (sat : Bool) (a : BitVec 40), outside a = false →
    (narrow16 sat a).1.toInt = Int.fdiv a.toInt (2 ^ 16) ∧ (narrow16 sat a).2 = false)

/-- R180: the seventeen Format X operations read their operands and write XD in MA; only CMPX changes flags. -/
def Obligations.XRegisterResults : Prop :=
  ∀ (t : Thr) (f : AluFields) (s : State), f.reserved = 0 →
    let v := s.chip.views (thrKey t)
    let a := v.x v.ma f.xa.toNat
    let b := v.x v.ma f.xb.toNat
    let wide (x : BitVec 16) : BitVec 40 := BitVec.ofInt 40 (x.toInt * 2 ^ 16)
    let xd (w : BitVec 16) := [(sMA, RegWrite.x (physX v.id f.xd.toNat) w)]
    let held (z : Int) : BitVec 16 := BitVec.ofInt 16 (if z < -32768 then -32768 else if 32767 < z then 32767 else z)
    (f.shn = 0 →
      IssuesAs (.addx t f) t s (xd (a + b)) .seq s.chip ∧
      IssuesAs (.subx t f) t s (xd (a - b)) .seq s.chip ∧
      IssuesAs (.addsx t f) t s (xd (held (a.toInt + b.toInt))) .seq s.chip ∧
      IssuesAs (.subsx t f) t s (xd (held (a.toInt - b.toInt))) .seq s.chip ∧
      IssuesAs (.andx t f) t s (xd (a &&& b)) .seq s.chip ∧
      IssuesAs (.orx t f) t s (xd (a ||| b)) .seq s.chip ∧
      IssuesAs (.xorx t f) t s (xd (a ^^^ b)) .seq s.chip ∧
      (b.toInt ≤ a.toInt → IssuesAs (.maxx t f) t s (xd a) .seq s.chip ∧ IssuesAs (.minx t f) t s (xd b) .seq s.chip) ∧
      (a.toInt ≤ b.toInt → IssuesAs (.maxx t f) t s (xd b) .seq s.chip ∧ IssuesAs (.minx t f) t s (xd a) .seq s.chip) ∧
      (f.xd = 0 → IssuesAs (.cmpx t f) t s
        [(sAC, flagsAdd (wide a - wide b) (decide ((wide b).toNat ≤ (wide a).toNat)) false)] .seq s.chip)) ∧
    (f.xb = 0 → f.shn = 0 →
      IssuesAs (.movx t f) t s (xd a) .seq s.chip ∧
      IssuesAs (.notx t f) t s (xd (BitVec.ofInt 16 (-1 - a.toInt))) .seq s.chip ∧
      IssuesAs (.negx t f) t s (xd (BitVec.ofInt 16 (-a.toInt))) .seq s.chip ∧
      IssuesAs (.absx t f) t s (xd (held (if a.toInt < 0 then -a.toInt else a.toInt))) .seq s.chip) ∧
    (f.xb = 0 →
      IssuesAs (.shlx t f) t s (xd (BitVec.ofNat 16 (a.toNat * 2 ^ f.shn.toNat))) .seq s.chip ∧
      IssuesAs (.shrx t f) t s (xd (BitVec.ofInt 16 (Int.fdiv a.toInt (2 ^ f.shn.toNat)))) .seq s.chip ∧
      IssuesAs (.lsrx t f) t s (xd (BitVec.ofNat 16 (a.toNat / 2 ^ f.shn.toNat))) .seq s.chip)

/-- R181: every immediate operation writes at the stage its row gives. -/
def Obligations.ImmediateResults : Prop :=
  ∀ (t : Thr) (f : ImmFields) (s : State), f.reserved = 0 →
    let v := s.chip.views (thrKey t)
    let n := f.reg.toNat
    let x := v.x v.ma n
    let wide (w : BitVec 16) : BitVec 40 := BitVec.ofInt 40 (w.toInt * 2 ^ 16)
    let xd (w : BitVec 16) := [(sMA, RegWrite.x (physX v.id n) w)]
    IssuesAs (.movi t f) t s (xd f.imm) .seq s.chip ∧
    IssuesAs (.addi t f) t s (xd (x + f.imm)) .seq s.chip ∧
    IssuesAs (.andi t f) t s (xd (x &&& f.imm)) .seq s.chip ∧
    IssuesAs (.ori t f) t s (xd (x ||| f.imm)) .seq s.chip ∧
    IssuesAs (.xori t f) t s (xd (x ^^^ f.imm)) .seq s.chip ∧
    IssuesAs (.cmpi t f) t s
      [(sAC, flagsAdd (wide x - wide f.imm) (decide ((wide f.imm).toNat ≤ (wide x).toNat)) false)] .seq s.chip ∧
    (n < 8 → IssuesAs (.movml t f) t s [(sAG, .mLo n f.imm)] .seq s.chip) ∧
    (n < 8 → IssuesAs (.movmh t f) t s [(sAG, .mHi n f.imm)] .seq s.chip) ∧
    (n < 4 → IssuesAs (.movia t f) t s [(sAC, .a n (wide f.imm)), (sAC, flagsAdd (wide f.imm) false false)] .seq s.chip) ∧
    (n < 8 → IssuesAs (.addip t f) t s
      [(sAG, .p n (BitVec.ofInt 24 ((v.p v.ag n).toNat + f.imm.toInt)))] .seq s.chip) ∧
    (n = 0 → IssuesAs (.movilc t f) t s [(sAG, .lc f.imm)] .seq s.chip) ∧
    (∀ (pd : BitVec 3) (imm : BitVec 24), IssuesAs (.movip t pd imm) t s [(sAG, .p pd.toNat imm)] .seq s.chip)

/-- R182, R183: the eight loads, where the access is allowed and the word has no error: what the register takes at the end of MX,
and with U the post-modified pointer in AG. -/
def Obligations.LoadResults : Prop :=
  ∀ (t : Thr) (f : MemFields) (s : State), f.ns = false →
    let v := s.chip.views (thrKey t)
    let base := tget 0 v.ag.p f.ptr.toNat
    let ea := (BitVec.ofInt 24 (base.toNat + f.disp.toInt)).toNat
    let n := f.reg.toNat
    let step := if f.u then [(sAG, RegWrite.p f.ptr.toNat (postModify base (tget 0 v.ag.m f.ptr.toNat)))] else []
    let got (k : Nat) := s.chip.loadData (thrKey t) ea k
    let x (i w : Nat) := (sMX, RegWrite.x (physX v.id i) (BitVec.ofNat 16 w))
    let free (k : Nat) := accessFault s.chip (thrKey t) ea k false = none
    (free 2 → IssuesAs (.ldh t f) t s (x n (got 2) :: step) .seq s.chip) ∧
    (free 4 → n % 2 = 0 → IssuesAs (.ldw t f) t s (x n (got 4 / 65536) :: x (n + 1) (got 4) :: step) .seq s.chip) ∧
    (free 8 → n % 4 = 0 → IssuesAs (.ldd t f) t s (x n (got 8 % 2 ^ 32 / 65536) :: x (n + 1) (got 8 % 2 ^ 32) ::
      x (n + 2) (got 8 / 2 ^ 32 / 65536) :: x (n + 3) (got 8 / 2 ^ 32) :: step) .seq s.chip) ∧
    (free 4 → n < 4 → IssuesAs (.lda t f) t s ((sMX, .a n ((BitVec.ofNat 32 (got 4)).signExtend 40)) :: step) .seq s.chip) ∧
    (free 2 → n < 4 → IssuesAs (.ldah t f) t s
      ((sMX, .a n (BitVec.ofInt 40 ((BitVec.ofNat 16 (got 2)).toInt * 65536))) :: step) .seq s.chip) ∧
    (free 4 → n < 8 → IssuesAs (.ldp t f) t s ((sMX, .p n (BitVec.ofNat 24 (got 4))) :: step) .seq s.chip) ∧
    (free 4 → n < 8 → IssuesAs (.ldm t f) t s ((sMX, .m n (BitVec.ofNat 32 (got 4))) :: step) .seq s.chip) ∧
    (free 2 → n < 4 → IssuesAs (.ldg t f) t s ((sMX, .aG n (BitVec.ofNat 8 (got 2))) :: step) .seq s.chip)

/-- R182, R183: the eight stores, where the access is allowed: the octets that the access address names take the value as MA sees
it, STAW, STAH and STA23 narrowed with SAT unless NS is set. -/
def Obligations.StoreResults : Prop :=
  ∀ (t : Thr) (f : MemFields) (s : State),
    let v := s.chip.views (thrKey t)
    let base := tget 0 v.ag.p f.ptr.toNat
    let ea := (BitVec.ofInt 24 (base.toNat + f.disp.toInt)).toNat
    let n := f.reg.toNat
    let a := tget 0 v.ma.a n
    let step := if f.u then [(sAG, RegWrite.p f.ptr.toNat (postModify base (tget 0 v.ag.m f.ptr.toNat)))] else []
    let pair (i : Nat) := (v.x v.ma i).toNat * 65536 + (v.x v.ma (i + 1)).toNat
    let stored (k x : Nat) := storeData (thrKey t) ea k x s.chip
    let free (k : Nat) := accessFault s.chip (thrKey t) ea k true = none
    let asIs := f.ns = true ∨ v.ma.st.getLsbD 8 = false ∨ (-(2 ^ 31) ≤ a.toInt ∧ a.toInt < 2 ^ 31)
    let high := f.ns = false ∧ v.ma.st.getLsbD 8 = true ∧ 2 ^ 31 ≤ a.toInt
    let low := f.ns = false ∧ v.ma.st.getLsbD 8 = true ∧ a.toInt < -(2 ^ 31)
    (f.ns = false → free 2 → IssuesAs (.sth t f) t s step .seq (stored 2 (v.x v.ma n).toNat)) ∧
    (f.ns = false → free 4 → n % 2 = 0 → IssuesAs (.stw t f) t s step .seq (stored 4 (pair n))) ∧
    (f.ns = false → free 8 → n % 4 = 0 → IssuesAs (.std t f) t s step .seq (stored 8 (pair n + 2 ^ 32 * pair (n + 2)))) ∧
    (f.ns = false → free 4 → n < 8 → IssuesAs (.stpm t f) t s step .seq (stored 4 (tget 0 v.ag.p n).toNat)) ∧
    (f.ns = false → free 4 → 8 ≤ n → IssuesAs (.stpm t f) t s step .seq (stored 4 (tget 0 v.ag.m (n - 8)).toNat)) ∧
    (f.ns = false → free 2 → n < 4 →
      IssuesAs (.stg t f) t s step .seq (stored 2 ((a.extractLsb' 32 8).signExtend 16).toNat)) ∧
    (n < 4 → asIs →
      (free 4 → IssuesAs (.staw t f) t s step .seq (stored 4 (a.extractLsb' 0 32).toNat)) ∧
      (free 2 → IssuesAs (.stah t f) t s step .seq (stored 2 (a.extractLsb' 16 16).toNat)) ∧
      (free 4 → IssuesAs (.sta23 t f) t s step .seq (stored 4 ((a.extractLsb' 8 24).signExtend 32).toNat))) ∧
    (n < 4 → high →
      (free 4 → IssuesAs (.staw t f) t s ((sAC, .setSv) :: step) .seq (stored 4 0x7FFFFFFF)) ∧
      (free 2 → IssuesAs (.stah t f) t s ((sAC, .setSv) :: step) .seq (stored 2 0x7FFF)) ∧
      (free 4 → IssuesAs (.sta23 t f) t s ((sAC, .setSv) :: step) .seq (stored 4 0x7FFFFF))) ∧
    (n < 4 → low →
      (free 4 → IssuesAs (.staw t f) t s ((sAC, .setSv) :: step) .seq (stored 4 0x80000000)) ∧
      (free 2 → IssuesAs (.stah t f) t s ((sAC, .setSv) :: step) .seq (stored 2 0x8000)) ∧
      (free 4 → IssuesAs (.sta23 t f) t s ((sAC, .setSv) :: step) .seq (stored 4 0xFF800000)))

/-- The frame of a data store (R149, R171, R182): the named octets read as the value, little-endian; every other octet of the chip
memories reads as before; memory in canonical form stays so; and nothing else of the chip changes but the marks of bad words. -/
def Obligations.StoreFrame : Prop :=
  ∀ (k addr n x : Nat) (c : Chip),
    let c' := storeData k addr n x c
    (∀ p, c.accessOk k addr n true = true → placeOf (k / 4) addr = .mem p → c'.bytesAt p n = leBytes n x) ∧
    (∀ j, (∀ p, placeOf (k / 4) addr = .mem p → j < p ∨ p + n ≤ j) → c'.byte j = c.byte j) ∧
    (c.accessOk k addr n true = false → c' = c) ∧
    (Memory.wf c.mem = true → Memory.wf c'.mem = true) ∧
    c' = { c with mem := c'.mem, errs := { c.errs with bad := c'.errs.bad } } ∧
    (∀ w, w ∈ c'.errs.bad → w ∈ c.errs.bad)

/-- R184 to R194, R200: branches, loops, repeats, special-register moves and control: what each writes, at which stage, and where
the program goes on. -/
def Obligations.ProgramFlowResults : Prop :=
  ∀ (t : Thr) (s : State),
    let v := s.chip.views (thrKey t)
    let th := v.th
    let free := th.confined = false
    let x (n : Nat) := tget (0 : BitVec 16) v.id.x (physX v.id n)
    (∀ cond l ind xr target, free → condHolds cond.toNat v.id.st = some true → (ind = true → target = 0) →
      IssuesAs (.branch t cond l ind xr target) t s
        (if l then [(sID, .x (physX v.id xr.toNat) (th.pc + 3))] else [])
        (.delayed (some (if ind then x xr.toNat else target))) s.chip) ∧
    (∀ cond l ind xr target, free → condHolds cond.toNat v.id.st = some false → (ind = true → target = 0) →
      IssuesAs (.branch t cond l ind xr target) t s [] (.delayed none) s.chip) ∧
    (∀ xd target, free → x xd.toNat ≠ 1 → IssuesAs (.dbnz t xd 0 target) t s
      [(sID, .x (physX v.id xd.toNat) (x xd.toNat - 1))] (.delayed (some target)) s.chip) ∧
    (∀ xd target, free → x xd.toNat = 1 → IssuesAs (.dbnz t xd 0 target) t s
      [(sID, .x (physX v.id xd.toNat) 0)] (.delayed none) s.chip) ∧
    (∀ ofs, free → th.loop = none → ofs ≠ 0 → 1 ≤ v.id.lc.toNat → IssuesAs (.loopLc t 0 ofs) t s []
      (.loop (th.pc.toNat + 1) (th.pc.toNat + 1 + ofs.toNat)) s.chip) ∧
    (∀ ofs, free → th.loop = none → ofs ≠ 0 → v.id.lc.toNat = 0 → IssuesAs (.loopLc t 0 ofs) t s []
      (.jump (BitVec.ofNat 16 (th.pc.toNat + 2 + ofs.toNat)) 2) s.chip) ∧
    (∀ count ofs, free → th.loop = none → ofs ≠ 0 → 1 ≤ count.toNat → IssuesAs (.loopi t count ofs) t s
      [(sID, .lc (BitVec.ofNat 16 count.toNat))] (.loop (th.pc.toNat + 1) (th.pc.toNat + 1 + ofs.toNat)) s.chip) ∧
    (∀ ofs, free → th.loop = none → ofs ≠ 0 → IssuesAs (.loopi t 0 ofs) t s [(sID, .lc 0)]
      (.jump (BitVec.ofNat 16 (th.pc.toNat + 2 + ofs.toNat)) 2) s.chip) ∧
    (∀ count, free → count.toNat ≤ 256 → 1 ≤ count.toNat →
      repeatable (s.chip.programWord t.core.val (th.pc.toNat + 1)) = true →
      IssuesAs (.rpti t 0 count) t s [] (.repeat_ count.toNat) s.chip) ∧
    (∀ xs, free → (x xs.toNat).toNat ≤ 256 → 1 ≤ (x xs.toNat).toNat →
      repeatable (s.chip.programWord t.core.val (th.pc.toNat + 1)) = true →
      IssuesAs (.rptx t xs 0) t s [] (.repeat_ (x xs.toNat).toNat) s.chip) ∧
    (free → repeatable (s.chip.programWord t.core.val (th.pc.toNat + 1)) = true →
      IssuesAs (.rpti t 0 0) t s [] (.jump (th.pc + 2) 1) s.chip ∧
      (∀ xs, x xs.toNat = 0 → IssuesAs (.rptx t xs 0) t s [] (.jump (th.pc + 2) 1) s.chip)) ∧
    IssuesAs (.nopI t 0) t s [] .seq s.chip ∧
    (free → IssuesAs (.syncP t 0) t s [] (.jump (th.pc + 1) 3) s.chip) ∧
    (∀ k : BitVec 20, k.toNat < 8 → IssuesAs (.rotw t k) t s
      [(sID, .wb (BitVec.ofNat 3 ((v.id.st.extractLsb' 12 3).toNat + k.toNat)))] .seq s.chip) ∧
    (∀ mask : BitVec 20, mask &&& ~~~0x4033F#20 = 0 →
      IssuesAs (.stset t mask) t s [(sAC, .stSet (mask.zeroExtend 32))] .seq s.chip ∧
      IssuesAs (.stclr t mask) t s [(sAC, .stClr (mask.zeroExtend 32))] .seq s.chip)

/-- R192: the moves into and out of P, M, LC, BX and ST. -/
def Obligations.SpecialRegisterMoves : Prop :=
  ∀ (t : Thr) (sreg : BitVec 5) (xr : BitVec 4) (s : State),
    let v := s.chip.views (thrKey t)
    let n := sreg.toNat
    let pair (r : Regs) : BitVec 32 := v.x r xr.toNat ++ v.x r (xr.toNat + 1)
    let out (w : BitVec 32) := [(sMA, RegWrite.x (physX v.id xr.toNat) (w.extractLsb' 16 16)),
      (sMA, RegWrite.x (physX v.id (xr.toNat + 1)) (w.extractLsb' 0 16))]
    let one (w : BitVec 16) := [(sMA, RegWrite.x (physX v.id xr.toNat) w)]
    (n < 8 → xr % 2 = 0 →
      IssuesAs (.moveIntoSreg t sreg xr 0) t s [(sAG, .p n ((pair v.ag).extractLsb' 0 24))] .seq s.chip ∧
      IssuesAs (.moveOutOfSreg t sreg xr 0) t s (out ((tget 0 v.ag.p n).zeroExtend 32)) .seq s.chip) ∧
    (8 ≤ n → n < 16 → xr % 2 = 0 →
      IssuesAs (.moveIntoSreg t sreg xr 0) t s [(sAG, .m (n - 8) (pair v.ag))] .seq s.chip ∧
      IssuesAs (.moveOutOfSreg t sreg xr 0) t s (out (tget 0 v.ag.m (n - 8))) .seq s.chip) ∧
    (n = 16 →
      IssuesAs (.moveIntoSreg t sreg xr 0) t s [(sAG, .lc (v.x v.ag xr.toNat))] .seq s.chip ∧
      IssuesAs (.moveOutOfSreg t sreg xr 0) t s (one v.ag.lc) .seq s.chip) ∧
    (n = 17 →
      IssuesAs (.moveIntoSreg t sreg xr 0) t s [(sAG, .bx (v.x v.ag xr.toNat))] .seq s.chip ∧
      IssuesAs (.moveOutOfSreg t sreg xr 0) t s (one v.ag.bx) .seq s.chip) ∧
    (n = 18 → xr % 2 = 0 →
      IssuesAs (.moveIntoSreg t sreg xr 0) t s [(sAC, .stMove (pair v.ma))] .seq s.chip ∧
      IssuesAs (.moveOutOfSreg t sreg xr 0) t s (out (v.th.readSt t.thread.val v.ma)) .seq s.chip)

/-- R197 to R199: TAPM, and BLKEXP and BMOV from the first word or resumed from BX, run to their end or to where an interrupt or a
switch stops them. -/
def Obligations.TapAndBlockResults : Prop :=
  ∀ (t : Thr) (s : State),
    let k := thrKey t
    let v := s.chip.views k
    let c := s.chip
    let ptr (n : BitVec 3) := tget (0 : BitVec 24) v.ag.p n.toNat
    let next (n : BitVec 3) (p : BitVec 24) := postModify p (tget 0 v.ag.m n.toNat)
    let start := if v.ag.bx.msb then (v.ag.bx.extractLsb' 0 13).toNat else 0
    let bxLeft (n stop : Nat) : BitVec 16 := if n ≤ stop then 0 else BitVec.ofNat 16 (0x8000 + stop)
    let on (n stop : Nat) : Flow := if n ≤ stop then .seq else .stay
    (∀ (ad : BitVec 2) (xc : BitVec 4) (ps : BitVec 3) (r : Bool),
      accessFault c k (ptr ps).toNat 2 false = none → accessFault c k (ptr ps + 2).toNat 2 true = none →
      let d := c.loadData k (ptr ps).toNat 2
      let p := BitVec.ofInt 40 ((v.x v.ma xc.toNat).toInt * (BitVec.ofNat 16 d).toInt * (if v.mx.st.getLsbD 9 then 2 else 1))
      let sum := add40 (tget 0 v.ac.a ad.toNat) p
      IssuesAs (.tapm t ad xc ps r 0) t s
        ([(sAC, .a ad.toNat sum.1), (sAC, sum.2), (sAG, .p ps.toNat (next ps (ptr ps)))] ++
          (if r then [(sID, .wb (BitVec.ofNat 3 ((v.id.st.extractLsb' 12 3).toNat + 1)))] else [])) .seq
        (storeData k (ptr ps + 2).toNat 2 (d % 65536) c)) ∧
    (∀ (xd : BitVec 4) (ps : BitVec 3) (xc : BitVec 4) (w : Bool) (stopAt : Option (BitVec 13)),
      let n := (v.x v.ma xc.toNat).toNat
      let stop := match stopAt with | some i => min n i.toNat | none => n
      let size := if w then 4 else 2
      let first := if v.ag.bx.msb then (v.x v.ma xd.toNat).toNat else if w then 31 else 15
      let place (i : Nat) := (Nat.repeat (next ps) i (ptr ps)).toNat
      v.th.confined = false → n ≤ 4096 → start ≤ stop →
      (∀ i, i < stop - start → accessFault c k (place i) size false = none) →
      IssuesAs (.blkexp t xd ps xc w 0 stopAt) t s
        [(sMA, .x (physX v.id xd.toNat) (BitVec.ofNat 16 ((List.range (stop - start)).foldl (fun m i =>
            min m (leadingSigns (8 * size) (BitVec.ofNat (8 * size) (c.loadData k (place i) size)) - 1)) first))),
         (sAG, .p ps.toNat (Nat.repeat (next ps) (stop - start) (ptr ps))), (sAG, .bx (bxLeft n stop))]
        (on n stop) c) ∧
    (∀ (pd ps : BitVec 3) (xc : BitVec 4) (stopAt : Option (BitVec 13)),
      let n := (v.x v.ma xc.toNat).toNat
      let stop := match stopAt with | some i => min n i.toNat | none => n
      let src (i : Nat) := (Nat.repeat (next ps) i (ptr ps)).toNat
      let dst (i : Nat) := (Nat.repeat (next pd) i (ptr pd)).toNat
      let copied (m : Nat) := (List.range m).foldl (fun c i => storeData k (dst i) 4 (c.loadData k (src i) 4) c) c
      v.th.confined = false → n ≤ 4096 → start ≤ stop →
      (∀ i, i < stop - start → accessFault (copied i) k (src i) 4 false = none ∧ accessFault (copied i) k (dst i) 4 true = none) →
      IssuesAs (.bmov t pd ps xc 0 stopAt) t s
        [(sAG, .p ps.toNat (Nat.repeat (next ps) (stop - start) (ptr ps))),
         (sAG, .p pd.toNat (Nat.repeat (next pd) (stop - start) (ptr pd))), (sAG, .bx (bxLeft n stop))]
        (on n stop) (copied (stop - start)))

/-- R159 to R161: a write made at the end of a stage is seen by every reader in a later cycle and by none before; of two writes of
one register in one cycle the later slot's stands; and what has landed is never lost to a later reader. -/
def Obligations.PipelineVisibility : Prop :=
  (∀ (th : Thread) (g : Nat) (w : RegWrite) (cyc : Nat), th.writes = [] →
    (landWrites th [(g, w)]).view cyc = if th.slot + g < cyc then th.regs.apply w else th.regs) ∧
  (∀ (th : Thread) (r g n cyc : Nat) (a b : BitVec 16), n < th.slot → th.writes = [⟨th.slot + g, n, .x r a⟩] → th.slot + g < cyc →
    tget 0 ((landWrites th [(g, .x r b)]).view cyc).x r = b) ∧
  (∀ (th : Thread) (r g n cyc : Nat) (a b : BitVec 40), n < th.slot → th.writes = [⟨th.slot + g, n, .a r a⟩] → th.slot + g < cyc →
    tget 0 ((landWrites th [(g, .a r b)]).view cyc).a r = b) ∧
  (∀ (th : Thread) (cyc : Nat), th.slot + 3 ≤ cyc → th.settle.view cyc = th.view cyc)

/-- R184, R188 to R191: the two delay slots, the hardware loop and the repeat as the program counter sees them. -/
def Obligations.BranchesLoopsAndRepeats : Prop :=
  (∀ (th : Thread) (g : BitVec 16), th.delay = none → th.rpt = 0 → th.loop = none →
    (((th.flow (.delayed (some g))).flow .seq).flow .seq).pc = g ∧
    (((th.flow (.delayed (some g))).flow .seq).flow .seq).delay = none ∧
    (((th.flow (.delayed none)).flow .seq).flow .seq).pc = th.pc + 3 ∧
    (((th.flow (.delayed none)).flow .seq).flow .seq).slot = th.slot + 3) ∧
  (∀ (th : Thread) (e s : Nat), th.delay = none → th.rpt = 0 → th.loop = some (s, e) → th.pc.toNat = e →
    let lc := (th.view (th.slot + sID)).lc
    (2 ≤ lc.toNat → (th.flow .seq).pc = BitVec.ofNat 16 s ∧ (th.flow .seq).loop = some (s, e) ∧ (th.flow .seq).slot = th.slot + 1 ∧
      (th.writes = [] → ((th.flow .seq).settled).lc = lc - 1)) ∧
    (lc.toNat < 2 → (th.flow .seq).pc = BitVec.ofNat 16 (e + 1) ∧ (th.flow .seq).loop = none ∧ (th.flow .seq).slot = th.slot + 3 ∧
      (th.writes = [] → ((th.flow .seq).settled).lc = 0))) ∧
  (∀ (th : Thread) (s e : Nat) (g : BitVec 16), th.delay = none → th.rpt = 0 → th.loop = some (s, e) → th.pc.toNat ≠ e →
    ((th.flow (.delayed (some g))).loop = if s ≤ g.toNat ∧ g.toNat ≤ e then some (s, e) else none)) ∧
  (∀ (th : Thread), th.delay = none → th.loop = none → 2 ≤ th.rpt →
    (th.flow .seq).pc = th.pc ∧ (th.flow .seq).rpt = th.rpt - 1) ∧
  (∀ (th : Thread), th.delay = none → th.loop = none → th.rpt = 1 →
    (th.flow .seq).pc = th.pc + 1 ∧ (th.flow .seq).rpt = 0)

/-- R193, R206, R209, R210, R215: DONE, WAITE, SIGE and RTI. -/
def Obligations.ThreadControlResults : Prop :=
  ∀ (t : Thr) (s : State),
    let k := thrKey t
    let c := s.chip
    let v := c.views k
    let free := v.th.confined = false
    (free → v.th.shadow = none → t.thread ≠ 0 →
      IssuesAs (.doneI t 0) t s [] .ended (modThread k (fun th => { th with state := .idle, wait := .none }) c)) ∧
    (free → v.th.shadow = none → t.thread = 0 → (∀ n, (c.core t.core.val).running ≠ .task n) →
      IssuesAs (.doneI t 0) t s [] .ended (modCore t.core.val (fun r => { r with doneAt := true }) c)) ∧
    (∀ (xd : BitVec 4) (mask : BitVec 16), c.canInterrupt k = false → free → mask ≠ 0 → v.th.ef &&& mask ≠ 0 →
      IssuesAs (.waite t (xd ++ mask)) t s [(sMA, .x (physX v.id xd.toNat) (v.th.ef &&& mask))] .seq
        (modThread k (fun th => { th with ef := th.ef &&& ~~~(v.th.ef &&& mask), state := .run, wait := .none }) c)) ∧
    (∀ (xd : BitVec 4) (mask : BitVec 16), c.canInterrupt k = false → free → mask ≠ 0 → v.th.ef &&& mask = 0 →
      IssuesAs (.waite t (xd ++ mask)) t s [] .stay (modThread k (fun th => { th with state := .parked, wait := .flags mask }) c)) ∧
    (∀ (opnd : BitVec 20), c.canInterrupt k = true → Leaves (.waite t opnd) s (enterInterrupt k c)) ∧
    (∀ (core : BitVec 4) (thread : BitVec 2) (flag : BitVec 4), free →
      IssuesAs (.sige t (core ++ thread ++ 0#1 ++ 0#9 ++ flag)) t s [] .seq
        (setFlag (4 * (t.core.val / 16 * 16 + core.toNat) + thread.toNat) flag.toNat c) ∧
      IssuesAs (.sige t (0#4 ++ thread ++ 1#1 ++ 0#9 ++ flag)) t s [] .seq (setFlag (4 * t.core.val + thread.toNat) flag.toNat c)) ∧
    (∀ sh, free → v.th.shadow = some sh →
      IssuesAs (.rti t 0) t s [] (.jump sh.pc 2) (modThread k (fun th =>
        { th with regs := { th.settled with st := sh.st }, writes := [], loop := sh.loop, shadow := none }) c))

/-- R202, R203, R212, R213: a thread in RUN or PARKED with a pending enabled flag enters its handler: PC, ST and the loop state go to
the shadow, ST.IE and the flag are cleared, and PC is four words per flag past the base.  A READY thread of a lower number preempts
the one in RUN outside a delay slot, whose own instructions complete; with none in RUN the first READY thread begins; otherwise
nothing changes. -/
def Obligations.InterruptsAndThreadSwitches : Prop :=
  (∀ (t : Thr) (s : State) (f : Nat),
    let k := thrKey t
    let c := s.chip
    c.canInterrupt k = true → c.pendingInt k = some f → c.threadState k = .run ∨ c.threadState k = .parked →
    Completes (.interruptEntry t) s (fun s' =>
      let th := c.thread k
      let th' := s'.chip.thread k
      th'.shadow = some ⟨th.pc, th.settled.st, th.loop⟩ ∧
      th'.pc = BitVec.ofNat 16 (c.intBase k + 4 * f) ∧
      th'.regs.st = th.settled.st &&& ~~~0x00040000#32 ∧
      th'.ef = th.ef &&& ~~~(1#16 <<< f) ∧
      th'.loop = none ∧ th'.writes = [] ∧ th'.state = .run ∧
      (∀ j, j ≠ k → s'.chip.thread j = c.thread j) ∧
      s' = { s with chip := { c with trowel := { c.trowel with threads := s'.chip.trowel.threads } } })) ∧
  (∀ (core : Fin 256) (s : State) (n : Nat),
    let c := s.chip
    let at_ (i : Nat) := 4 * core.val + i
    c.readyThread core.val = some n →
    (c.runThread core.val = none → Completes (.threadSwitch core) s (fun s' =>
      (s'.chip.thread (at_ n)).state = .run ∧ s'.chip = modThread (at_ n) (fun th => { th with state := .run }) c)) ∧
    (∀ o, c.runThread core.val = some o → n < o → (c.thread (at_ o)).delay = none → Completes (.threadSwitch core) s (fun s' =>
      (s'.chip.thread (at_ n)).state = .run ∧ (s'.chip.thread (at_ o)).state = .ready ∧
      (s'.chip.thread (at_ o)).regs = (c.thread (at_ o)).settled ∧ (s'.chip.thread (at_ o)).pc = (c.thread (at_ o)).pc ∧
      (∀ j, j ≠ at_ n → j ≠ at_ o → s'.chip.thread j = c.thread j))) ∧
    (∀ o, c.runThread core.val = some o → o < n ∨ (c.thread (at_ o)).delay ≠ none → Leaves (.threadSwitch core) s c))

/-- R218 to R220: SEMA, SEMR and the revocation of a lease past its expiry. -/
def Obligations.SemaphoreResults : Prop :=
  ∀ (t : Thr) (xd : BitVec 4) (sem : BitVec 6) (s : State),
    let k := thrKey t
    let c := s.chip
    let v := c.views k
    let gang := t.core.val / 16
    let x := c.sem gang sem.toNat
    let me := (t.core.val, t.thread.val)
    let sema (try_ : BitVec 1) := Instr.sema t (xd ++ 0#1 ++ try_ ++ 0#8 ++ sem)
    let semr := Instr.semr t (0#14 ++ sem)
    let answer (n : BitVec 16) := [(sMX, RegWrite.x (physX v.id xd.toNat) n)]
    let lapse := c.time.stc + c.num (Obj.trowelGangSemLease gang)
    v.th.confined = false →
    (x.held = none → ∀ b, IssuesAs (sema b) t s (answer (if x.revoked then 3 else 1)) .seq
      (modSem gang sem.toNat (fun y =>
        { y with held := some ⟨me.1, me.2, c.semTenant k, lapse⟩, revoked := false, former := y.former.filter (· != me) }) c)) ∧
    (∀ h, x.held = some h → h.core = me.1 → h.thread = me.2 → ∀ b, IssuesAs (sema b) t s (answer 1) .seq
      (modSem gang sem.toNat (fun y => { y with held := y.held.map (fun h => { h with expiry := lapse }) }) c)) ∧
    (∀ h, x.held = some h → 4 * h.core + h.thread ≠ k →
      IssuesAs (sema 1) t s (answer 0) .seq c ∧
      (x.queue.contains (me.1, me.2, physX v.id xd.toNat) = false → IssuesAs (sema 0) t s [] .stay
        (modThread k (fun th => { th with state := .parked, wait := .sema sem.toNat (physX v.id xd.toNat) })
          (modSem gang sem.toNat (fun y => { y with queue := y.queue ++ [(me.1, me.2, physX v.id xd.toNat)] }) c)))) ∧
    (∀ h, x.held = some h → 4 * h.core + h.thread = k → x.queue = [] → IssuesAs semr t s [] .seq
      (modSem gang sem.toNat (fun y => { y with held := none }) c)) ∧
    (∀ h w rest, x.held = some h → 4 * h.core + h.thread = k → x.queue = w :: rest → IssuesAs semr t s [] .seq
      (wakeSem (4 * w.1 + w.2.1) w.2.2 1 (grantSem gang sem.toNat (4 * w.1 + w.2.1)
        (modSem gang sem.toNat (fun y => { y with queue := rest, held := none }) c)))) ∧
    (∀ h, x.held = some h → 4 * h.core + h.thread ≠ k → x.former.contains me = true → IssuesAs semr t s [] .seq c) ∧
    (∀ h, x.held = some h → 4 * h.core + h.thread ≠ k → x.former.contains me = false → IssuesAs semr t s [] .seq
      (snag 0x1006 (64 * gang + sem.toNat) (c.semTenant k) c)) ∧
    (c.lapsedSems = [] → Leaves .semaphoreRevoke s c) ∧
    (∀ h, c.lapsedSems = [64 * gang + sem.toNat] → x.held = some h → Leaves .semaphoreRevoke s
      (passSem gang sem.toNat true (setFlag (4 * h.core + h.thread) 11
        (modSem gang sem.toNat (fun y => { y with former := (h.core, h.thread) :: y.former.filter (· != (h.core, h.thread)) }) c))))

/-- R166, R173, R300: an illegal word has no effect of its own and raises a core fault ILLEGAL; a word of an uncorrectable program
location passes as a NOP with a MEMORY fault; an access that is not allowed raises ACCESS after the instruction's other writes. -/
def Obligations.CoreFaultsOfWords : Prop :=
  ∀ (t : Thr) (s : State),
    let k := thrKey t
    (s.chip.badFetch k = false →
      (∀ f : MacFields, f.reserved ≠ 0 → ∀ i ∈ [Instr.mac t f, .msu t f, .mpy t f, .macr t f, .mpysu t f, .macsu t f, .macsh t f, .msush t f],
        Leaves i s (coreFault codeIllegal k s.chip)) ∧
      (∀ f : AccFields, f.reserved ≠ 0 → ∀ i ∈ [Instr.adda t f, .suba t f, .mova t f, .nega t f, .absa t f, .clra t f, .cmpa t f,
          .maxa t f, .mina t f, .sha t f, .shax t f, .lsra t f, .sata t f, .addax t f, .movax t f, .movaxp t f, .rnda t f, .cmova t f,
          .normA t f, .expA t f, .movxa t f, .movxap t f, .movxr t f, .movrx t f], Leaves i s (coreFault codeIllegal k s.chip)) ∧
      (∀ f : AluFields, f.reserved ≠ 0 → ∀ i ∈ [Instr.movx t f, .addx t f, .subx t f, .addsx t f, .subsx t f, .andx t f, .orx t f,
          .xorx t f, .notx t f, .negx t f, .absx t f, .shlx t f, .shrx t f, .lsrx t f, .maxx t f, .minx t f, .cmpx t f],
        Leaves i s (coreFault codeIllegal k s.chip)) ∧
      (∀ f : MemFields, f.reg.toNat % 2 = 1 → ∀ i ∈ [Instr.ldw t f, .ldd t f, .stw t f, .std t f],
        Leaves i s (coreFault codeIllegal k s.chip)) ∧
      (∀ f : MemFields, f.ns = false → s.chip.accessOk k ((s.chip.views k).ea f.ptr f.disp) 2 true = false →
        Leaves (.sth t f) s (coreFault codeAccess k (modThread k (fun th => afterSlot th
          ((s.chip.views k).step f.ptr.toNat f.u) .seq) s.chip)))) ∧
    (s.chip.badFetch k = true → Leaves (.nopI t 0) s
      (coreFault codeMemory k (modThread k (fun th => (th.flow .seq).settle) s.chip)))

/-- R129, R167, R169, R201, R230, R414: effects tasks, code loads, thread modes and global generators as a WRITE that reaches their
rule leaves them. -/
def Obligations.TasksCodeAndGenerators : Prop :=
  ∀ (r : Req) (a : Nat) (s : State),
    let c := (judged r.path s).chip
    (∀ t : Fin 1024, Writes r a (Obj.trowelTaskEnable t.val) [1] s → c.flag (Obj.trowelTaskEnable t.val) = false →
      (taskStatus c t.val a = St.ok → taskQuota c t.val a = false →
        Answers (.taskEnable r t) r a (Obj.trowelTaskEnable t.val) [1] s
          (quietExit (setNum (Obj.trowelTaskEnable t.val) 1 (modTrowel (fun w =>
            { w with tasks := tput w.tasks t.val { enabledAt := w.enableCount }, enableCount := w.enableCount + 1 })
            (setNum (Obj.trowelTaskOwner t.val) ((masterTenant a).getD 0xFF) (assignBases t.val c))))) St.ok) ∧
      (taskStatus c t.val a = St.ok → taskQuota c t.val a = true →
        Answers (.taskEnable r t) r a (Obj.trowelTaskEnable t.val) [1] s (raise (a - 0x10) 36 c) St.refused) ∧
      (taskStatus c t.val a ≠ St.ok →
        Answers (.taskEnable r t) r a (Obj.trowelTaskEnable t.val) [1] s c (taskStatus c t.val a))) ∧
    (∀ t : Fin 1024, Writes r a (Obj.trowelTaskEnable t.val) [0] s → c.flag (Obj.trowelTaskEnable t.val) = true →
      Answers (.taskDisable r t) r a (Obj.trowelTaskEnable t.val) [0] s (disableTask t.val c) St.ok) ∧
    (Writes r a Obj.trowelCodeLoad [1] s →
      let image := c.blob Obj.trowelCodeImage
      let base := c.num Obj.trowelCodeBase
      let last := base + (image.length + 3) / 4
      last ≤ 0x3000 → c.trowel.load = none →
      (∀ k ∈ c.loadCores, codeBusy c k base last = false ∧ c.may 0x14 k a 1 = true) →
      Answers (.codeLoad r) r a Obj.trowelCodeLoad [1] s (setNum Obj.trowelCodeStatus 1 (modTrowel (fun w =>
        { w with load := some (image, base, leNat (c.blob Obj.trowelCodeCoreMask)) }) c)) St.ok) ∧
    (∀ image base mask, s.chip.trowel.load = some (image, base, mask) → Completes .codeLoadDone s (fun s' =>
      s'.chip.trowel.load = none ∧ s'.chip.num Obj.trowelCodeStatus = 2 ∧
      (∀ n, n < 256 → bit mask n = true → 4 * base + image.length ≤ 0x80000 → s'.chip.bytesAt (memProgram n (4 * base)) image.length = image) ∧
      s'.pending = s.pending ∧ s'.dust = s.dust)) ∧
    (∀ (core : Fin 256) (thread : Fin 3),
      let k := 4 * core.val + thread.val + 1
      Writes r a (Obj.trowelThreadMode k) [0] s → Answers (.threadMode r core thread 0) r a (Obj.trowelThreadMode k) [0] s
        (setNum (Obj.trowelThreadMode k) 0 (threadOff k c)) St.ok) ∧
    (∀ (core : Fin 256) (thread : Fin 3) (mode : Fin 3),
      let k := 4 * core.val + thread.val + 1
      let t := c.num (Obj.trowelThreadTask k)
      mode ≠ 0 → Writes r a (Obj.trowelThreadMode k) [BitVec.ofNat 8 mode.val] s →
      t < 1024 → c.flag (Obj.trowelTaskEnable t) = true → c.num (Obj.trowelTaskCore t) = core.val →
      c.num (Obj.trowelThreadMode k) = 0 →
      Answers (.threadMode r core thread mode) r a (Obj.trowelThreadMode k) [BitVec.ofNat 8 mode.val] s
        (wakeFlags k (modThread k (fun th => { th with state := .idle, wait := .none })
          (setNum (Obj.trowelThreadMode k) mode.val c))) St.ok) ∧
    (∀ n : Fin 4096, Writes r a (Obj.stippleGlobalEnable n.val) [1] s →
      let d := c.blob (Obj.stippleGlobalDef n.val)
      (tget {} c.stipple.globals n.val).def_ = [] → genFormat true d = true →
      c.globalUnitsIn (c.num (Obj.stippleGlobalCluster n.val)) + globalUnits d ≤ 4096 →
      (field d 0 1 = 8 → c.pitchCount < 64) →
      (∀ t, masterTenant a = some t → c.num (Obj.stippleGlobalOwner n.val) = t →
        c.gensUsed t + globalUnits d ≤ c.num (Obj.tenantQuotaGenerators t)) →
      Answers (.globalEnable r n) r a (Obj.stippleGlobalEnable n.val) [1] s
        (quietExit (modStipple (fun x => { x with globals := tput x.globals n.val (Gen.begin d (256 * c.time.stc) n.val none) })
          (setNum (Obj.stippleGlobalEnable n.val) 1 c))) St.ok)

/-- R222 to R225, R228, R564 to R566: the all-wait detector, the reinstatement of a core, and the thermal steps, trip and ungating. -/
def Obligations.StallsAndThermal : Prop :=
  (∀ (gang : Fin 16) (s : State), s.chip.allWait gang.val = false → Leaves (.allWaitDetector gang) s s.chip) ∧
  (∀ (gang : Fin 16) (s : State), s.chip.allWait gang.val = true →
    let c := s.chip
    let ks := c.blocked gang.val
    let tenants := ((ks.map (fun k => (c.runOf k).1)).filter (fun t => decide (t < 16))).eraseDups
    let snap := addSnapshot (stallSnapshot c gang.val ks) c
    let logged := forEach tenants (fun t c => snagWith 0x1007 gang.val t snap.1 0 c) snap.2
    let broken := forEach ks breakThread (bump (Obj.trowelGangStalls gang.val) logged)
    Leaves (.allWaitDetector gang) s (forEach (ks.filterMap c.taskOf).eraseDups (fun t c =>
      if 3 ≤ (tget {} c.trowel.tasks t).stallFrames then disableTaskLogged t c else c) broken)) ∧
  (∀ (r : Req) (a : Nat) (core : Fin 256) (s : State), Writes r a (Obj.trowelCoreRetired core.val) [0] s →
    let c := (judged r.path s).chip
    (c.may 0x14 core.val a 3 = false → ∀ b, Answers (.coreReinstate r core b) r a (Obj.trowelCoreRetired core.val) [0] s c St.noAccess) ∧
    (c.may 0x14 core.val a 3 = true → c.flag (Obj.trowelCoreRetired core.val) = true →
      Answers (.coreReinstate r core true) r a (Obj.trowelCoreRetired core.val) [0] s
        (modCore core.val (fun x => { x with reinstate := true }) c) St.ok ∧
      Answers (.coreReinstate r core false) r a (Obj.trowelCoreRetired core.val) [0] s
        (bump (Obj.trowelCoreSelfCheckFails core.val) c) St.ok)) ∧
  (∀ (gang : Fin 16) (z : BitVec 8) (s : State),
    let c := takeReading gang.val z.toInt s.chip
    let mhz := c.gangClock gang.val
    let cores := (upTo 16).map (fun i => 16 * gang.val + i)
    (z.toInt < c.snum 8 Obj.powerThermalWarn → Leaves (.thermalStepDown gang z) s c) ∧
    (c.snum 8 Obj.powerThermalWarn ≤ z.toInt → z.toInt < 115 → 800 < mhz → tget (0, 0) c.trowel.clockStep gang.val = (0, 0) →
      (∀ n ∈ cores, c.occupancy n ≤ c.slotsAt n (mhz - 200)) →
      Completes (.thermalStepDown gang z) s (fun s' =>
        tget (0, 0) s'.chip.trowel.clockStep gang.val = (mhz - 200, c.now) ∧ s'.chip.hawk.asks = c.hawk.asks)) ∧
    (z.toInt < c.snum 8 Obj.powerThermalWarn - 5 → 0 < mhz → mhz < 1600 → Leaves (.thermalStepUp gang z) s
      (setGangClock gang.val (mhz + 200) (modTrowel (fun w => { w with clockStep := tdel w.clockStep gang.val }) c))) ∧
    (c.snum 8 Obj.powerThermalWarn - 5 ≤ z.toInt ∨ mhz = 0 ∨ 1600 ≤ mhz → Leaves (.thermalStepUp gang z) s c) ∧
    (115 ≤ z.toInt → Completes (.thermalTrip gang z) s (fun s' => gang.val ∈ s'.chip.trowel.trips ∧
      tget (0, 0) s'.chip.trowel.clockStep gang.val = (0, 0) ∧
      s'.chip = { c with trowel := { c.trowel with trips := s'.chip.trowel.trips, clockStep := s'.chip.trowel.clockStep } })) ∧
    (z.toInt < 115 → Leaves (.thermalTrip gang z) s c) ∧
    (z.toInt ≤ 100 → (c.core (16 * gang.val)).tripped = true → Leaves (.thermalUngate gang z) s
      (setGangClock gang.val 800 (forEach cores (fun n c => modCore n (fun x => { x with tripped := false }) c) c))) ∧
    (100 < z.toInt ∨ (c.core (16 * gang.val)).tripped = false → Leaves (.thermalUngate gang z) s c))

/-- R53 to R55, R110, R132, R376, R492: staging writes, commits and withdrawals of templates, layers, modulation sets and control
templates, as a WRITE that reaches their rule leaves them. -/
def Obligations.CommitsAndWithdrawals : Prop :=
  ∀ (r : Req) (a : Nat) (n : Fin 4096) (s : State),
    let c := (judged r.path s).chip
    (∀ (j : Fin 4) (image : List Byte),
      let k := setupKind j
      Writes r a (k.imageObj n.val) image s → c.may k.access n.val a 1 = true → c.leasedByOther 2 (k.imageObj n.val) a = false →
      Answers (.stagingImageWrite r j n image) r a (k.imageObj n.val) image s
        (leaseSet 2 (k.imageObj n.val) a (c.time.stc + 10 * c.fs) (modHandle k n.val (fun h => { h with staging := image }) c)) St.ok) ∧
    (∀ (k : SetupKind) (commit withdrawal : Instr),
      (k, commit, withdrawal) ∈ [(.template, .templateCommit r n, .templateWithdraw r n), (.layer, .layerCommit r n, .layerWithdraw r n),
        (.modset, .modsetCommit r n, .modsetWithdraw r n), (.control, .controlCommit r n, .controlWithdraw r n)] →
      let c0 := collect k n.val c
      let verdict := commitCheck c0 k n.val a
      let c1 := addVersion k n.val a verdict.2 (setNum (k.resultObj n.val) 0 c0)
      let chainWide (img : List Byte) (d : Chip) := k == .layer && isChainLayer img && d.isMember
      (Writes r a (k.commitObj n.val) [1] s →
        (verdict.1 = 0 → Answers commit r a (k.commitObj n.val) [1] s
          (if chainWide (c1.handle k n.val).staging c1 then replicate n.val a (c1.handle k n.val).staging c1 else c1) St.ok) ∧
        (verdict.1 = 8 → Answers commit r a (k.commitObj n.val) [1] s (setNum (k.resultObj n.val) 8 c0) St.noAccess) ∧
        (verdict.1 ≠ 0 → verdict.1 ≠ 8 →
          Answers commit r a (k.commitObj n.val) [1] s (setNum (k.resultObj n.val) verdict.1 c0) St.refused)) ∧
      (Writes r a (k.commitObj n.val) [2] s →
        (c.may k.access n.val a 3 = false → Answers withdrawal r a (k.commitObj n.val) [2] s c St.noAccess) ∧
        (c.may k.access n.val a 3 = true → c.newest k n.val = none → Answers withdrawal r a (k.commitObj n.val) [2] s c St.ok) ∧
        (∀ v, c.may k.access n.val a 3 = true → c.newest k n.val = some v →
          let w := collect k n.val (modHandle k n.val (fun h => { h with current := none, next := none }) c)
          Answers withdrawal r a (k.commitObj n.val) [2] s
            (if chainWide v.image w then sendLath 5 1 0xFF 8 [1, n.val, a - 0x10, 0] w else w) St.ok)))

/-- R19, R55: at its boundary the next version of a handle becomes the one events bind to, and none before; a version that is neither
in force nor next is kept exactly while a voice or an accepted event refers to it. -/
def Obligations.VersionSwitchAndRelease : Prop :=
  ∀ s : State,
    let c := s.chip
    Completes .versionSwitch s (fun s' => ∀ (k : SetupKind) (n : Nat),
      let h := c.handle k n
      let h' := s'.chip.handle k n
      (∀ v t, h.next = some (v, t) → t ≤ c.time.stc → h'.current = some v ∧ h'.next = none) ∧
      (∀ v t, h.next = some (v, t) → c.time.stc < t → h'.current = h.current ∧ h'.next = h.next) ∧
      (h.next = none → h'.current = h.current ∧ h'.next = none) ∧
      h'.staging = h.staging ∧ h'.nextVer = h.nextVer ∧
      s' = { s with chip := { c with setup := s'.chip.setup } }) ∧
    Completes .versionRelease s (fun s' => ∀ (k : SetupKind) (n : Nat),
      let h := c.handle k n
      (s'.chip.handle k n).versions = h.versions.filter (fun v =>
        h.current == some v.ver || h.next.map Prod.fst == some v.ver || c.voiceUses k n v.ver || c.eventUses k n v.ver) ∧
      (s'.chip.handle k n).current = h.current ∧ (s'.chip.handle k n).next = h.next ∧
      s' = { s with chip := { c with setup := s'.chip.setup } })

/-- R24, R73, R108, R163, R165, R193, R457, R477, R478: what the strobes of the sample clock, of the frame and of the task board do. -/
def Obligations.FrameClockEffects : Prop :=
  ∀ s : State,
    let c := s.chip
    (∀ tdm, c.time.stopped = true → Leaves (.sampleTick tdm) s c) ∧
    (∀ tdm, c.time.stopped = false →
      let c1 := modTime (fun t => { t with stc := t.stc + 1 }) c
      let c2 := modScreed (fun x =>
        { x with pins := (x.limited.filter (fun e => e.1 / 4096 == 2)).map (fun e => (e.1 % 4096, e.2)) }) c1
      let c3 := stepLimiters (if c2.quiet then modSkim (fun k => { k with outs := [] }) c2 else stepInstances c2)
      let ending (d : Chip) := modSkim (fun k => { k with tdmIn1 := k.tdmIn, tdmIn := d.tdmInputs tdm })
        (modScreed (fun x => { x with rets := x.newRets }) d)
      (c3.passNow = none → Leaves (.sampleTick tdm) s (ending c3)) ∧
      (c3.passNow = some 0 → Leaves (.sampleTick tdm) s (ending (if c3.quiet then c3 else skimPass 0 c3))) ∧
      (∀ p, c3.passNow = some (p + 1) →
        Leaves (.sampleTick tdm) s (ending (if c3.quiet then keepHost p c3 else skimPass (p + 1) (keepHost p c3))))) ∧
    (∀ bad, (c.time.stc % c.bsize ≠ 0 ∨ c.frame < c.hawk.boundaryDone ∨ c.time.stopped = true) → Leaves (.frameBoundary bad) s c) ∧
    (∀ bad, c.time.stc % c.bsize = 0 → c.hawk.boundaryDone ≤ c.frame → c.time.stopped = false →
      let k := c.frame
      let c1 := if 1 ≤ c.hawk.boundaryDone then deadline (c.hawk.boundaryDone - 1) c else c
      let c2 := endDue k (frameEnd k (takeSettings k c1))
      (c2.time.silent = true → Leaves (.frameBoundary bad) s c2) ∧
      (c2.time.silent = false →
        let c3 := modHawk (fun h => { h with boundaryDone := k + 1 }) (stepMigrations k c2)
        let c4 := openFrame k (bad.map Fin.val) (purge k c3)
        let c5 := freeOldSlots (noteElection (recheckCauses (settleHops (tdmBoundary c4))))
        Leaves (.frameBoundary bad) s (noteIdle (clearConflicts (sendRetireList (freeForwarded k c5)))))) ∧
    (c.time.silent = true ∨ c.time.stopped = true → Leaves .lookaheadPass s c) ∧
    (c.time.silent = false → c.time.stopped = false →
      let f := c.frame + 1
      let c1 := expandEvents (fun e => decide (e.r.accepted < (f - 1) * c.bsize) && !entryImmediate e.r.entry &&
        !lateAt c.bsize e.r.accepted e.r.entry && (e.r.point c.bsize).1 / c.bsize == f)
        (modHawk (fun h => { h with searches := searchBound c.bsize }) c)
      Leaves .lookaheadPass s (buildCaches (forEach (c1.lookaheadStarts f) (runStart f false) c1))) ∧
    Leaves .maxRelease s (forEach (c.voiceList.filter (fun x =>
        let ms := field (c.voiceImage x.2) 0x12 2
        decide (x.2.state = .releasing) && !x.2.control && decide (ms ≠ 0) &&
          (match x.2.release with | some (t, _, _) => decide (t + (ms * c.fs + 999) / 1000 ≤ c.time.stc) | none => false)))
      (fun x c => featherVoice x.1 (c.frame + 1) 3 c) c) ∧
    Leaves .featherEnd s (forEach (c.voiceList.filter (fun x => decide (x.2.state = .feathering) &&
        (decide (x.2.featherStart + x.2.featherLen ≤ c.time.stc) || decide (x.2.featherLeft = 0))))
      (fun x d => modVoice x.1 (fun v => { v with endAt := some (c.frame + 1, v.endReason) }) d) c) ∧
    (∀ cl : Fin 4, Completes (.stippleFrame cl) s (fun s' =>
      tget 0 s'.chip.stipple.computed cl.val = c.frame + 2 ∧
      s'.chip = controlOutputs (c.frame + 1) (modStipple (fun x => { x with computed := tset 0 x.computed cl.val (c.frame + 2) })
        (evalCluster cl.val (c.frame + 1) false c)))) ∧
    (∀ cl : Fin 4, (tget 0 c.stipple.late cl.val = c.frame + 2 → Leaves (.stippleLate cl) s c) ∧
      (tget 0 c.stipple.late cl.val ≠ c.frame + 2 → Completes (.stippleLate cl) s (fun s' =>
        tget 0 s'.chip.stipple.late cl.val = c.frame + 2 ∧
        s'.chip = bump Obj.stippleCountersLateFrames (modStipple (fun x => { x with late := tset 0 x.late cl.val (c.frame + 2) })
          (evalCluster cl.val (c.frame + 1) true c))))) ∧
    (c.hawk.boundaryDone = 0 ∨ c.time.stc < c.hawk.boundaryDone * c.bsize ∨ c.hawk.boundaryDone ≤ c.hawk.deadlineDone →
      Leaves .frameDeadline s c) ∧
    (1 ≤ c.hawk.boundaryDone → c.hawk.boundaryDone * c.bsize ≤ c.time.stc → c.hawk.deadlineDone < c.hawk.boundaryDone →
      Completes .frameDeadline s (fun s' => s'.chip.hawk.deadlineDone = c.hawk.boundaryDone ∧ s'.pending = s.pending ∧ s'.dust = s.dust)) ∧
    (∀ (core : Fin 256) (lead inst n : Nat) (v : Voice),
      (c.core core.val).running = .voice lead inst true → c.leadVoice lead = some (n, v) →
      Leaves (.userOverrun core) s (abandonPass core.val lead (snag 0x1008 v.lead v.tenant c))) ∧
    (∀ core : Fin 256, (∀ lead inst, (c.core core.val).running ≠ .voice lead inst true) → Leaves (.userOverrun core) s c) ∧
    (∀ core : Fin 256, (c.core core.val).free = false → Leaves (.instanceEntry core) s c) ∧
    (∀ (core : Fin 256) (t : Nat) (rest : List Nat), (c.core core.val).free = true → (c.core core.val).running = .nothing →
      (c.core core.val).voices = [] → (c.core core.val).tasks = t :: rest →
      Leaves (.instanceEntry core) s (enterTask core.val t
        (modCore core.val (fun r => { r with tasks := rest, running := .nothing, doneAt := false }) c))) ∧
    (∀ core : Fin 256, (c.core core.val).free = true → (∀ lead inst, (c.core core.val).running ≠ .voice lead inst true) →
      (c.core core.val).voices = [] → (c.core core.val).tasks = [] →
      Leaves (.instanceEntry core) s (modThread (4 * core.val) (fun t => { t with state := .idle })
        (modCore core.val (fun r => { r with running := .nothing }) c)))

/-- R254 to R256, R289, R389, R404 to R406, R479: late Skim passes, the gang DMA's copies, stream windows, and the audio rings of a
frame. -/
def Obligations.AudioAndExchangeFrames : Prop :=
  ∀ s : State,
    let c := s.chip
    (c.passNow = none → Leaves .skimOverrun s c) ∧
    (∀ p, c.passNow = some p → c.skim.passed ≠ p + 1 → Leaves .skimOverrun s c) ∧
    (∀ p, c.passNow = some p → c.skim.passed = p + 1 → c.skim.overrun = 0 →
      let c1 := modSkim (fun k => { k with outs := k.prevOuts, own := if p = 0 then k.own else tput k.own p (tget [] k.own (p - 1)), overrun := p + 1 }) c
      let c2 := snag 0x1203 0 0xFF (bump Obj.skimCountersOverruns (writeSends p c1))
      (c2.skim.wet.phase ≠ .crossing → Leaves .skimOverrun s c2) ∧
      (c2.skim.wet.phase = .crossing → Leaves .skimOverrun s (setNum Obj.skimWetEdgeStatus (5 + (if c2.skim.wet.late then 0x80 else 0))
        (modSkim (fun k => { k with wet := {} }) c2)))) ∧
    (∀ (x : Fin 512) (t : Nat), c.exchangeTask x.val = some t → c.num (Obj.skimExchangeDir x.val) = 1 → 2 ≤ c.frame →
      let core := c.num (Obj.trowelTaskCore t)
      let c1 := writeBytes (c.bufferPlace x.val t ((c.frame - 2) % 4)) (c.bytesAt (exchangeWord x.val (c.frame - 2) 0) (4 * c.bsize)) c
      Leaves (.exchangeCopy x) s
        (forEach ((upTo 4).filter (fun i => c1.taskOf (4 * core + i) == some t)) (fun i c => setFlag (4 * core + i) 9 c) c1)) ∧
    (∀ x : Fin 512, c.exchangeTask x.val = none ∨ c.num (Obj.skimExchangeDir x.val) ≠ 1 ∨ c.frame < 2 → Leaves (.exchangeCopy x) s c) ∧
    (∀ (x : Fin 512) (t : Nat), c.exchangeTask x.val = some t → c.num (Obj.skimExchangeDir x.val) = 2 → 1 ≤ c.frame →
      ((tget {} c.trowel.tasks t).doneFrame = c.frame → Completes (.exchangeReturnCopy x) s (fun s' =>
        s'.chip.bytesAt (exchangeWord x.val c.frame 0) (4 * c.bsize) = c.bytesAt (c.bufferPlace x.val t ((c.frame - 1) % 4)) (4 * c.bsize) ∧
        (∀ j, j < exchangeWord x.val c.frame 0 ∨ exchangeWord x.val c.frame 0 + 4 * c.bsize ≤ j → s'.chip.byte j = c.byte j) ∧
        s'.chip = { c with mem := s'.chip.mem, errs := s'.chip.errs })) ∧
      ((tget {} c.trowel.tasks t).doneFrame ≠ c.frame → Leaves (.exchangeReturnCopy x) s c)) ∧
    (c.cursorList = [] → Leaves .windowFill s c) ∧
    (∀ n x, c.cursorList = [(n, x)] → Leaves .windowFill s (fillCursor c.frame n c)) ∧
    (∀ (t : Fin 16) (q : Fin 4) (fetched : List (List Byte)),
      let i := qix t.val (16 + q.val)
      let r := findEntry i c.frame (!c.hasFunction t.val) (c.queue i).size fetched c
      c.time.stc % c.bsize = c.bsize / 2 → (c.queue i).audioFrame ≠ c.frame + 1 →
      (∀ e, (c.queue i).state = .running → r.1 = some e →
        Leaves (.audioInFrame t q fetched) s (raise t.val (16 + q.val) (takeAudio i c.frame e r.2))) ∧
      ((c.queue i).state = .running → r.1 = none →
        Leaves (.audioInFrame t q fetched) s (raise t.val (16 + q.val) (missAudio i c.frame r.2))) ∧
      ((c.queue i).state = .halted →
        Leaves (.audioInFrame t q fetched) s (raise t.val (16 + q.val) (missAudio i c.frame c))) ∧
      ((c.queue i).state = .disabled → Leaves (.audioInFrame t q fetched) s c)) ∧
    (∀ (t : Fin 16) (q : Fin 8),
      let i := qix t.val (20 + q.val)
      let x := c.queue i
      let k := (c.time.stc - 2) / c.bsize - 2
      x.state = .running → 2 * c.bsize + 2 ≤ c.time.stc → x.audioFrame ≠ k + 1 →
      (x.hasSlot = false → Leaves (.audioOutFrame t q) s
        (modQueue i (fun y => { y with count := satAdd 32 y.count 1, filled := true, audioFrame := k + 1 }) c)) ∧
      (x.hasSlot = true →
        let n := x.channels (20 + q.val)
        let filled := x.filled || (decide (q.val < 4) && frameFaded c k)
        let body := if q.val < 4 then audioBody c k x.first n else stemBody c t.val (q.val - 4) k n
        Leaves (.audioOutFrame t q) s (raise t.val (20 + q.val)
          (modQueue i (fun y => { y with filled := false, audioFrame := k + 1 })
            (ringPost i (fun p => audioHeader c.bsize k n filled p ++ body) c)))))

/-- R97 to R104: the migration of a voice: the request, the record, READY, COMMIT, COMMITTED, ABORT, QUERY and its reply, the cut-off
and the timers. -/
def Obligations.MigrationProtocol : Prop :=
  ∀ s : State,
    let c := s.chip
    (∀ (r : Req) (a : Nat), Writes r a Obj.hawkMigrateGo [1] s →
      let d := (judged r.path s).chip
      let named := d.voiceList.find? (fun x => x.2.id == d.num Obj.hawkMigrateVoiceId && x.2.live && !x.2.control && !x.2.incoming)
      (d.num Obj.hawkMigrateStatus = 1 ∨ d.num Obj.hawkMigrateStatus = 2 →
        Answers (.migrateGo r) r a Obj.hawkMigrateGo [1] s d St.busy) ∧
      (d.num Obj.hawkMigrateStatus ≠ 1 → d.num Obj.hawkMigrateStatus ≠ 2 →
        (named = none → Answers (.migrateGo r) r a Obj.hawkMigrateGo [1] s (setNum Obj.hawkMigrateStatus 5 d) St.ok) ∧
        (∀ n v, named = some (n, v) → d.movable v = false →
          Answers (.migrateGo r) r a Obj.hawkMigrateGo [1] s (setNum Obj.hawkMigrateStatus 6 d) St.ok) ∧
        (∀ n v, named = some (n, v) → d.movable v = true →
          Answers (.migrateGo r) r a Obj.hawkMigrateGo [1] s (setNum Obj.hawkMigrateStatus 1 (modHawk (fun h =>
            { h with asks := h.asks ++ [{ voice := n, frame := d.frame + 1, chip := some (d.num Obj.hawkMigrateTargetChip),
                                          core := if d.num Obj.hawkMigrateTargetCore = 0xFFFF then none
                                                  else some (d.num Obj.hawkMigrateTargetCore), attempts := 0, cause := 3 }] }) d)) St.ok))) ∧
    (∀ m, c.hawk.migIn = [m] → m.commit = false → (m.frame + 1) * c.bsize + c.bsize / 2 ≤ c.time.stc →
      Completes .migrationCutoff s (fun s' => s'.chip.hawk.migIn = [] ∧ s'.chip.voice m.voice = none ∧
        s'.chip.out = c.out ++ [.lath 2 2 3 m.source 0 [((c.voice m.voice).map (fun v => v.id)).getD 0]])) ∧
    ((∀ m ∈ c.hawk.migIn, m.commit = true ∨ c.time.stc < (m.frame + 1) * c.bsize + c.bsize / 2) → Leaves .migrationCutoff s c) ∧
    (∀ m v, c.hawk.migOut = [m] → m.phase ≠ .shipped → m.resolved = none → m.localCopy = none → m.frame + 4 ≤ c.frame →
      (c.frame - m.frame) % 4 = 0 → c.voice m.voice = some v →
      Completes .migrationQueryTimer s (fun s' => s'.chip.hawk.migOut = [{ m with phase := .queried }] ∧
        s'.chip.out = c.out ++ [.lath 2 2 5 m.targetChip 0 [v.id]] ∧
        s'.chip = { c with hawk := s'.chip.hawk, out := s'.chip.out })) ∧
    (c.time.stc % c.bsize ≠ 0 → Leaves .migrationRetry s c) ∧
    (∀ a, c.time.stc % c.bsize = 0 → c.hawk.asks = [a] → a.frame ≤ c.frame → 0 < a.attempts →
      Leaves .migrationRetry s (shipOne c.frame a (modHawk (fun h => { h with asks := [] }) c))) ∧
    (∀ (chip : Byte) (fields : List Nat),
      let v := recordVoice c fields
      let named := fields.getD 10 0xFFFF
      let cores := if named = 0xFFFF then c.poolCores (c.poolOf v.tenant) else [named]
      let core := c.chooseCore (cores.filter (fun n => decide (n < 256))) 0 (c.need v)
      (recordOk c fields v core = false → Completes (.migRecord chip fields) s (fun s' =>
        s'.chip = { c with out := c.out ++ [.lath 2 2 3 chip.toNat 0 [fields.getD 0 0]] })) ∧
      (recordOk c fields v core = true → c.hawk.boundaryDone ≤ fields.getD 6 0 → Completes (.migRecord chip fields) s (fun s' =>
        s'.chip.hawk.migIn = c.hawk.migIn ++ [{ voice := c.hawk.nextVoice, frame := fields.getD 6 0, source := chip.toNat }] ∧
        s'.chip.hawk.nextVoice = c.hawk.nextVoice + 1 ∧ (s'.chip.voice c.hawk.nextVoice).isSome = true ∧
        s'.pending = s.pending ∧ s'.dust = s.dust))) ∧
    (∀ (chip : Byte) (fields : List Nat) (m : MigOut), c.outOf (fields.headD 0) = some m →
      (m.targetChip = chip.toNat →
        Leaves (.migReady chip fields) s (modOut m.voice (fun m => { m with ready := true }) c) ∧
        Leaves (.migCommitted chip fields) s (modOut m.voice (fun m => { m with resolved := some true }) c) ∧
        Leaves (.migrationAbort chip fields) s (modOut m.voice (fun m => { m with resolved := some false }) c) ∧
        (m.phase ≠ .shipped → Leaves (.migQueryReply chip fields) s
          (modOut m.voice (fun m => { m with resolved := some (fields.getD 1 0 != 0) }) c))) ∧
      (m.targetChip ≠ chip.toNat → Leaves (.migReady chip fields) s c ∧ Leaves (.migCommitted chip fields) s c ∧
        Leaves (.migrationAbort chip fields) s c ∧ Leaves (.migQueryReply chip fields) s c)) ∧
    (∀ (chip : Byte) (fields : List Nat) (m : MigIn), c.outOf (fields.headD 0) = none → c.inOf (fields.headD 0) = some m →
      (m.source = chip.toNat → Leaves (.migrationAbort chip fields) s (discardCopy m c)) ∧
      (m.source ≠ chip.toNat → Leaves (.migrationAbort chip fields) s c)) ∧
    (∀ (chip : Byte) (fields : List Nat) (m : MigIn), c.inOf (fields.headD 0) = some m →
      (c.time.stc < (m.frame + 1) * c.bsize + c.bsize / 2 → m.lost = false → Completes (.migCommit chip fields) s (fun s' =>
        s'.chip.hawk.migIn = c.hawk.migIn.map (fun x => if x.voice = m.voice then { x with commit := true } else x) ∧
        s'.chip.out = c.out ++ [.lath 2 2 4 chip.toNat 0 [fields.headD 0]])) ∧
      ((m.frame + 1) * c.bsize + c.bsize / 2 ≤ c.time.stc ∨ m.lost = true →
        Leaves (.migCommit chip fields) s (sendLath 2 3 chip.toNat 0 [fields.headD 0] (discardCopy m c)))) ∧
    (∀ (chip : Byte) (fields : List Nat), Leaves (.migQuery chip fields) s (emit (.lath 2 2 6 chip.toNat 0 [fields.headD 0,
      if c.holdsHeard (fields.headD 0) || (match c.inOf (fields.headD 0) with | some m => m.commit | none => false) then 1 else 0]) c))

/-- R91, R94 to R96, R127, R367, R382, R500, R501: events, voices and journal records that cross chips. -/
def Obligations.EventsAcrossChips : Prop :=
  ∀ (chip : Byte) (fields : List Nat) (s : State),
    let c := s.chip
    let g (i : Nat) : Nat := fields.getD i 0
    (∀ (tag : BitVec 32) (fails i : Nat), tag.getLsbD 31 = true → c.work.journal.slotOf chip.toNat = some i →
      let d := forEach (retireEntries fields) (fun x c => applyRetire i x.1 x.2.1 x.2.2.1 x.2.2.2 c) c
      Leaves (.eventMirror chip tag fields fails) s (sendLath 1 1 chip.toNat tag.toNat [d.work.journal.mirrorFreeIn i] d)) ∧
    (∀ (tag : BitVec 32) (fails i : Nat) (d : Chip), tag.getLsbD 31 = false →
      assignSlot chip.toNat (fields.headD 0 == 1) c = (some i, d) →
      let r := jrecOf fields.tail
      let known := (d.work.journal.mirror i).any (fun x => match x.2 with
        | some y => y.tenant == r.tenant && y.queue == r.queue && entrySeq y.entry == entrySeq r.entry
        | none => false)
      let e := if known then d else writeMirror i r fails d
      Leaves (.eventMirror chip tag fields fails) s (sendLath 1 1 chip.toNat tag.toNat [e.work.journal.mirrorFreeIn i] e)) ∧
    (∀ (tag : BitVec 32) (free : Nat), chip.toNat ≠ c.num Obj.chainMirrorHolder → Leaves (.mirrorAck chip tag free) s c) ∧
    (∀ (tag : BitVec 32) (free : Nat), chip.toNat = c.num Obj.chainMirrorHolder →
      c.work.journal.unacked.find? (fun x => x.1 == tag.toNat) = none →
      Leaves (.mirrorAck chip tag free) s
        (setNum Obj.faultJournalMirrorFree free (modJournal (fun j => { j with mirrorFree := some free }) c))) ∧
    (∀ (tag : BitVec 32) (free x t : Nat) (f : List Nat), chip.toNat = c.num Obj.chainMirrorHolder → c.work.journal.remirroring = true →
      c.work.journal.unacked.find? (fun x => x.1 == tag.toNat) = some (x, t, f) →
      Completes (.mirrorAck chip tag free) s (fun s' =>
        s'.chip.work.journal.unacked = c.work.journal.unacked.filter (fun x => x.1 != tag.toNat) ∧
        s'.chip.work.journal.mirrorFree = some free ∧ s'.chip.work.queues = c.work.queues)) ∧
    (Leaves (.eventForward chip fields) s (receiveForward
      { jrecOf fields with src := (if (jrecOf fields).reissued then (jrecOf fields).src else chip.toNat) } c)) ∧
    (let r := jrecOf fields
     r.reissued = false → c.knowsEvent chip.toNat r.tenant r.queue (entrySeq r.entry) = false →
     Completes (.eventForward chip fields) s (fun s' => ∃ x, s'.chip.work.journal.inbox = c.work.journal.inbox ++ [x] ∧
       x.entry = r.entry ∧ x.src = chip.toNat ∧ x.acceptTick = c.time.stc ∧ x.state = .pending ∧
       s'.chip.work.journal.nextOrder = c.work.journal.nextOrder + 1)) ∧
    (let r := jrecOf fields
     r.reissued = false → c.knowsEvent chip.toNat r.tenant r.queue (entrySeq r.entry) = true → Leaves (.eventForward chip fields) s c) ∧
    (let v := orderVoice c chip.toNat fields
     (c.isQuarantined = true ∨ (c.handle .template v.template).versions.any (fun x => x.hash == g 1) = false) →
     Leaves (.placement chip fields) s (sendLath 1 4 chip.toNat 0 [v.id] c)) ∧
    (let v := orderVoice c chip.toNat fields
     let f := orderFrame c v.n0
     let n := c.hawk.nextVoice
     let v' := if f.2 then { v with onsetTick := f.1 * c.bsize, onsetFrac := 0, late := true } else v
     let st : Start := { voice := n, frame := f.1, immediate := f.2, order := 0, accepted := c.time.stc, onsetTick := v'.onsetTick, onsetFrac := v'.onsetFrac, ordered := true }
     let d := runStart f.1 false st (modHawk (fun h =>
       { h with voices := tput h.voices n (some v'), nextVoice := n + 1, starts := h.starts ++ [st] }) c)
     c.isQuarantined = false → (c.handle .template v.template).versions.any (fun x => x.hash == g 1) = true →
     d.hawk.boundaryDone ≠ f.1 + 1 → Leaves (.placement chip fields) s d) ∧
    (tget none c.hawk.owned (g 0) = none → fields ≠ [] → Leaves (.placeRefuse chip fields) s c) ∧
    (∀ o, fields ≠ [] → tget none c.hawk.owned (g 0) = some o →
      (o.chip = chip.toNat → Leaves (.placeRefuse chip fields) s (reown (g 0) o false (chip.toNat :: o.refused) c)) ∧
      (o.chip ≠ chip.toNat → Leaves (.placeRefuse chip fields) s c)) ∧
    (∀ tag : BitVec 32, tag.getLsbD 31 = false → fields ≠ [] →
      (g 0 < 0x100 → Leaves (.holderReport chip tag fields) s (relayNotice fields c)) ∧
      (∀ o, g 0 = 0x102 → tget none c.hawk.owned (g 1) = some o → Leaves (.holderReport chip tag fields) s
        (modOwned (g 1) (fun o => { o with feathering := true }) c)) ∧
      (∀ o, g 0 = 0x100 → tget none c.hawk.owned (g 1) = some o → Leaves (.holderReport chip tag fields) s
        (modOwned (g 1) (fun o => { o with chip := chip.toNat, lead := g 2, known := true }) c)) ∧
      (∀ o, g 0 = 0x104 → tget none c.hawk.owned (g 1) = some o →
        Leaves (.holderReport chip tag fields) s (lostVoice (g 1) o c))) ∧
    (∀ tag : BitVec 32, tag.getLsbD 31 = true → c.num (Obj.chainLayerHome (tag.toNat % 4096)) ≠ c.me →
      Leaves (.holderReport chip tag fields) s c) ∧
    (c.voiceList.find? (fun x => x.2.id == g 0) = none → Leaves (.homeRelease chip fields) s c) ∧
    (∀ n v, c.voiceList.find? (fun x => x.2.id == g 0) = some (n, v) → c.time.stc < g 1 / c.bsize * c.bsize + c.bsize / 2 →
      (g 4 = 0 → Leaves (.homeRelease chip fields) s (setRelease n (g 1) (g 2) (g 3) (modVoice n (fun v => { v with held := false }) c))) ∧
      (g 4 = 1 → Leaves (.homeRelease chip fields) s (killVoice n (g 1) 5 c)) ∧
      (g 4 = 2 → Leaves (.homeRelease chip fields) s (featherVoice n (c.frameFrom (g 1)) 4 c))) ∧
    (∀ n v, c.voiceList.find? (fun x => x.2.id == g 0) = some (n, v) → g 1 / c.bsize * c.bsize + c.bsize / 2 ≤ c.time.stc →
      g 4 = 0 → Leaves (.homeRelease chip fields) s
        (setRelease n ((c.frame + 1) * c.bsize) 0 (g 3) (modVoice n (fun v => { v with held := false }) c))) ∧
    (g 0 = 1 → c.time.stc < g 7 / c.bsize * c.bsize + c.bsize / 2 →
      Leaves (.controllerFwd chip fields) s (applyPerNote (g 1) (g 2) (g 3) (g 4) (g 5) (g 6) (g 7) [] c)) ∧
    (g 0 ≠ 1 → c.time.stc < g 7 / c.bsize * c.bsize + c.bsize / 2 →
      Leaves (.controllerFwd chip fields) s (applyController (g 1) (g 3) (g 5) (g 6) (g 7) 0 false c)) ∧
    (g 0 ≠ 1 → g 7 / c.bsize * c.bsize + c.bsize / 2 ≤ c.time.stc →
      Leaves (.controllerFwd chip fields) s (applyController (g 1) (g 3) (g 5) (g 6) ((c.frame + 1) * c.bsize) 0 false c)) ∧
    (∀ x t f, c.work.journal.unacked = [(x, t, f)] →
      (t + 1000000 ≤ c.now → Completes .mirrorResend s (fun s' =>
        s'.chip.out = c.out ++ [.lath 2 1 0 (c.num Obj.chainMirrorHolder) x f] ∧
        s'.chip.work.journal.unacked = [(x, c.now, f)])) ∧
      (c.now < t + 1000000 → Leaves .mirrorResend s c)) ∧
    Completes .inventoryWaitEnd s (fun s' =>
      s'.chip.chain.waits = c.chain.waits.filter (fun w => decide (c.time.stc < w.start + c.bsize / 2)) ∧
      s'.chip = { c with chain := { c.chain with waits := s'.chip.chain.waits } }) ∧
    (c.work.journal.remirroring = true → c.work.journal.unacked = [] →
      Leaves .remirrorDone s (readyAll (modJournal (fun j => { j with remirroring := false }) c))) ∧
    (c.work.journal.remirroring = false ∨ c.work.journal.unacked ≠ [] → Leaves .remirrorDone s c)

/-- R245 to R247, R469 to R474: coat commits and clears, the wet edge from Go to its end, and its cancellation. -/
def Obligations.CoatsAndWetEdges : Prop :=
  (∀ (r : Req) (a : Nat) (s : State),
    let c := (judged r.path s).chip
    (Writes r a Obj.skimCoatCommit [1] s →
      let d := setNum Obj.skimCoatResult (coatResult c a) c
      (coatResult c a = 0 → Answers (.coatCommit r) r a Obj.skimCoatCommit [1] s
        (quietExit (leaseSet 4 Obj.skimCoatCommit a noTerm (setNext (d.blob Obj.skimCoatImage) d))) St.ok) ∧
      (coatResult c a = 6 → Answers (.coatCommit r) r a Obj.skimCoatCommit [1] s d St.noAccess) ∧
      (coatResult c a = 7 → Answers (.coatCommit r) r a Obj.skimCoatCommit [1] s d St.busy) ∧
      (0 < coatResult c a → coatResult c a < 6 → Answers (.coatCommit r) r a Obj.skimCoatCommit [1] s d St.refused)) ∧
    (Writes r a Obj.skimCoatCommit [2] s →
      (c.skim.wet.phase = .idle → Answers (.coatClear r) r a Obj.skimCoatCommit [2] s
        (leaseDrop 4 Obj.skimCoatCommit (setNext [] (setNum Obj.skimCoatResult 0 c))) St.ok) ∧
      (c.skim.wet.phase ≠ .idle → Answers (.coatClear r) r a Obj.skimCoatCommit [2] s (setNum Obj.skimCoatResult 7 c) St.busy)) ∧
    (Writes r a Obj.skimWetEdgeGo [1] s →
      let d := setNum Obj.skimWetEdgeResult (wetGoResult c) c
      (c.may 0x01 0x30 a 2 = false → Answers (.wetEdgeGo r) r a Obj.skimWetEdgeGo [1] s d St.noAccess) ∧
      (c.may 0x01 0x30 a 2 = true → wetGoResult c = 7 → Answers (.wetEdgeGo r) r a Obj.skimWetEdgeGo [1] s d St.busy) ∧
      (c.may 0x01 0x30 a 2 = true → wetGoResult c = 5 ∨ wetGoResult c = 9 →
        Answers (.wetEdgeGo r) r a Obj.skimWetEdgeGo [1] s d St.refused) ∧
      (c.may 0x01 0x30 a 2 = true → c.skim.next ≠ [] → c.skim.wet.phase = .idle → c.num Obj.skimWetEdgeMode = 2 →
        let dip := (d.num Obj.skimWetEdgeDipMs * d.fs + 999) / 1000
        let start := max (d.num Obj.skimWetEdgeApplyTick) (d.time.stc + 2 + dip)
        Completes (.wetEdgeGo r) s (fun t => ∃ e, t = answered r a Obj.skimWetEdgeGo [1] ({ s with chip := e }, St.ok) ∧
          e.skim.wet.phase = .pending ∧ e.skim.wet.cross = false ∧ e.skim.wet.start = start ∧ e.skim.wet.len = dip ∧
          e.skim.wet.changed = changedSet c.skim.current c.skim.next ∧ e.skim.current = c.skim.current ∧ e.skim.next = c.skim.next))) ∧
    (Writes r a Obj.skimWetEdgeGo [2] s →
      (c.may 0x01 0x30 a 2 = true → c.skim.wet.phase = .pending → Answers (.wetEdgeCancel r) r a Obj.skimWetEdgeGo [2] s
        (setNum Obj.skimWetEdgeResult 0 (setWetStatus 5 c.skim.wet.late (modSkim (fun k => { k with wet := {} }) c))) St.ok) ∧
      (c.may 0x01 0x30 a 2 = true → c.skim.wet.phase ≠ .pending → Answers (.wetEdgeCancel r) r a Obj.skimWetEdgeGo [2] s
        (setNum Obj.skimWetEdgeResult 8 c) St.refused) ∧
      (c.may 0x01 0x30 a 2 = false → Answers (.wetEdgeCancel r) r a Obj.skimWetEdgeGo [2] s c St.noAccess))) ∧
  (∀ s : State,
    let c := s.chip
    let w := c.skim.wet
    let p := c.time.stc - c.bsize
    (w.phase = .pending → w.cross = true → w.start ≤ p → Completes .crossfadeStart s (fun t =>
      t.chip.skim = { c.skim with wet := { w with phase := .crossing } } ∧
      (t.chip.num Obj.skimWetEdgeStatus) % 128 = 2 ∧ t.pending = s.pending ∧ t.dust = s.dust)) ∧
    (w.phase ≠ .pending ∨ w.cross = false ∨ p < w.start → Leaves .crossfadeStart s c) ∧
    (w.phase = .crossing → w.start + w.len ≤ p → Completes .crossfadeEnd s (fun t =>
      t.chip.skim = { c.skim with current := c.skim.next, next := [], wet := {} } ∧
      (t.chip.num Obj.skimWetEdgeStatus) % 128 = 4 ∧ t.chip.num Obj.skimCoatCurrentCycles = coatCycles c.skim.next % 2 ^ 16 ∧
      (∀ x, w.tenant = some x → bit (t.chip.tenant x).evtStatus 37 = true))) ∧
    (w.phase ≠ .crossing ∨ p < w.start + w.len → Leaves .crossfadeEnd s c) ∧
    (w.phase = .pending → w.cross = false → w.start ≤ p + w.len → Completes .dipOutStart s (fun t =>
      t.chip.skim = { c.skim with wet := { w with phase := .dipOut } } ∧ (t.chip.num Obj.skimWetEdgeStatus) % 128 = 3)) ∧
    (w.phase ≠ .pending ∨ w.cross = true ∨ p + w.len < w.start → Leaves .dipOutStart s c) ∧
    (w.phase = .dipOut → w.start ≤ p → Completes .stageSwitch s (fun t =>
      t.chip.skim = { c.skim with current := c.skim.next, next := [], wet := { w with phase := .dipIn } } ∧
      (∀ x, w.tenant = some x → bit (t.chip.tenant x).evtStatus 37 = true))) ∧
    (w.phase ≠ .dipOut ∨ p < w.start → Leaves .stageSwitch s c) ∧
    (w.phase = .dipIn → w.start + w.len ≤ p → Completes .dipEnd s (fun t =>
      t.chip.skim = { c.skim with wet := {} } ∧ (t.chip.num Obj.skimWetEdgeStatus) % 128 = 4)) ∧
    (w.phase ≠ .dipIn ∨ p < w.start + w.len → Leaves .dipEnd s c))

/-- R249, R250, R254, R268, R269: safe-load sets from their commit to their application, the dictionary write of a Screed
parameter, and the binding of an exchange channel. -/
def Obligations.SafeLoadsAndExchange : Prop :=
  (∀ (r : Req) (a : Nat) (slot : Fin 256) (s : State),
    let c := (judged r.path s).chip
    let o := Obj.skimSafeLoadCommit slot.val
    let image := c.blob (Obj.skimSafeLoadImage slot.val)
    (Writes r a o [1] s →
      let d := setNum (Obj.skimSafeLoadResult slot.val) (safeLoadResult c slot.val) c
      (safeLoadResult c slot.val = 2 → Answers (.safeLoadCommit r slot) r a o [1] s d St.badValue) ∧
      (safeLoadResult c slot.val = 1 → Answers (.safeLoadCommit r slot) r a o [1] s d St.refused) ∧
      (safeLoadResult c slot.val = 6 → Answers (.safeLoadCommit r slot) r a o [1] s d St.noAccess) ∧
      (safeLoadResult c slot.val = 7 → Answers (.safeLoadCommit r slot) r a o [1] s d St.busy) ∧
      (safeLoadResult c slot.val = 0 → Completes (.safeLoadCommit r slot) s (fun t => ∃ e x,
        t = answered r a o [1] ({ s with chip := e }, St.ok) ∧ e.skim.sets = c.skim.sets ++ [x] ∧ x.slot = some slot.val ∧
        x.entries = setEntries image ∧ x.taken = none ∧ x.applyTick = field image 8 8 ∧
        x.due = max x.applyTick (c.time.stc + 1 - c.bsize) ∧ (x.late = true ↔ x.applyTick = 0 ∨ x.applyTick < x.due)))) ∧
    (∀ x, Writes r a o [2] s → c.setOf slot.val = some x →
      (x.taken = none → Answers (.safeLoadCancel r slot) r a o [2] s
        (setNum (Obj.skimSafeLoadResult slot.val) 0 (setLoadStatus slot.val 1 false
          (modSkim (fun k => { k with sets := k.sets.filter (fun y => y.slot != some slot.val) }) c))) St.ok) ∧
      (x.taken ≠ none → Answers (.safeLoadCancel r slot) r a o [2] s
        (setNum (Obj.skimSafeLoadResult slot.val) 8 c) St.refused)) ∧
    (Writes r a o [2] s → c.setOf slot.val = none →
      (c.num (Obj.skimSafeLoadStatus slot.val) % 128 = 4 → Answers (.safeLoadCancel r slot) r a o [2] s
        (setNum (Obj.skimSafeLoadResult slot.val) 8 c) St.refused) ∧
      (c.num (Obj.skimSafeLoadStatus slot.val) % 128 ≠ 4 → Answers (.safeLoadCancel r slot) r a o [2] s c St.ok))) ∧
  (∀ s : State,
    let c := s.chip
    let p := c.time.stc - c.bsize
    (c.time.stc < c.bsize → Leaves .safeLoadTaken s c) ∧
    (c.bsize ≤ c.time.stc → (∀ x ∈ c.skim.sets, x.taken ≠ none ∨ p < x.due) → Leaves .safeLoadTaken s c) ∧
    (∀ x : LoadSet, c.bsize ≤ c.time.stc → c.skim.sets = [x] → x.taken = none → x.due ≤ p → Completes .safeLoadTaken s (fun t =>
      t.chip.skim = { c.skim with sets := [{ x with taken := some p, late := x.late || x.deferred }] } ∧
      (∀ i, x.slot = some i → t.chip.num (Obj.skimSafeLoadStatus i) % 128 = 3)))) ∧
  (∀ (r : Req) (a : Nat) (unit : Fin 1536) (param : Fin 8) (value : BitVec 32) (s : State),
    let c := (judged r.path s).chip
    let ix := unit.val * 4096 + param.val
    (∀ o, screedParam ix = some o → Writes r a o (leBytes (objWidth o) value.toNat) s →
      (screedMay c unit.val a = true → Answers (.screedParameterWrite r unit param value) r a o (leBytes (objWidth o) value.toNat) s
        (addSet none 0 [{ addr := 0x31000000 + ix, value := value.toNat, time := 0 }] c) St.ok) ∧
      (screedMay c unit.val a = false → Answers (.screedParameterWrite r unit param value) r a o
        (leBytes (objWidth o) value.toNat) s c St.noAccess)) ∧
    (screedParam ix = none → Leaves (.screedParameterWrite r unit param value) s s.chip)) ∧
  (∀ (r : Req) (a : Nat) (x : Fin 512) (dir : Fin 3) (s : State),
    let c := (judged r.path s).chip
    let o := Obj.skimExchangeDir x.val
    let res (n : Nat) (c : Chip) : Chip := setNum (Obj.skimExchangeResult x.val) n c
    Writes r a o [BitVec.ofNat 8 dir.val] s →
    (c.may 0x0E x.val a 1 = false → Answers (.exchangeDir r x dir) r a o [BitVec.ofNat 8 dir.val] s (res 6 c) St.noAccess) ∧
    (c.may 0x0E x.val a 1 = true →
      (dir = 0 → Answers (.exchangeDir r x dir) r a o [BitVec.ofNat 8 dir.val] s
        (res 0 (setNum o 0 (setNum (Obj.skimExchangeAddr x.val) 0 c))) St.ok) ∧
      (dir ≠ 0 → c.exchangeTask x.val = none →
        Answers (.exchangeDir r x dir) r a o [BitVec.ofNat 8 dir.val] s (res 2 c) St.refused) ∧
      (∀ t, dir ≠ 0 → c.exchangeTask x.val = some t → c.num o ≠ 0 →
        Answers (.exchangeDir r x dir) r a o [BitVec.ofNat 8 dir.val] s (res 0 (setNum o dir.val c)) St.ok) ∧
      (∀ t p, dir ≠ 0 → c.exchangeTask x.val = some t → c.num o = 0 →
        c.exchangePlace (c.num (Obj.trowelTaskCore t) / 16) = some p →
        Answers (.exchangeDir r x dir) r a o [BitVec.ofNat 8 dir.val] s
          (res 0 (setNum (Obj.skimExchangeAddr x.val) p (setNum o dir.val c))) St.ok) ∧
      (∀ t, dir ≠ 0 → c.exchangeTask x.val = some t → c.num o = 0 →
        c.exchangePlace (c.num (Obj.trowelTaskCore t) / 16) = none →
        Answers (.exchangeDir r x dir) r a o [BitVec.ofNat 8 dir.val] s (res 1 c) St.refused)))

/-- R251 to R253, R294 to R295, R336, R432: bus and stem packets, digests, extents, volume offers and messages that arrive from
another chip. -/
def Obligations.PacketsFromChips : Prop :=
  (∀ (m : BitVec 64) (contrib origin : Byte) (epoch : BitVec 32) (values : List (BitVec 64)) (s : State),
    let c := s.chip
    let sum : Table Int := ((values.zipIdx).map (fun v => (v.2, v.1.toInt))).filter (fun e => e.2 != 0 && decide (e.1 < 512))
    let put (st : Stream) : Stream := { st with packets := tput st.packets m.toNat (contrib.toNat, sum), origin := origin.toNat }
    let missed (port : Nat) : Prop := c.busPort port m.toNat = false ∨ epoch.toNat ≠ c.epochOf m.toNat ∨
      m.toNat + c.presentDelay < c.skim.passed
    (missed 1 → Leaves (.busRising m contrib origin epoch values) s c) ∧
    (missed 0 → Leaves (.busFalling m contrib origin epoch values) s c) ∧
    (¬ missed 1 → c.skim.passed ≤ m.toNat → Leaves (.busRising m contrib origin epoch values) s
      { c with skim := { c.skim with rising := put c.skim.rising } }) ∧
    (¬ missed 0 → c.skim.passed ≤ m.toNat → Leaves (.busFalling m contrib origin epoch values) s
      { c with skim := { c.skim with falling := put c.skim.falling } }) ∧
    (¬ missed 1 → m.toNat < c.skim.passed → c.busPort 0 m.toNat = true → Leaves (.busRising m contrib origin epoch values) s
      (sendBus true m.toNat (contrib.toNat + (if c.contributes then 1 else 0)) origin.toNat
        (addBuses sum (tget [] c.skim.own m.toNat)) { c with skim := { c.skim with rising := put c.skim.rising } }))) ∧
  (∀ (m : BitVec 64) (contrib origin : Byte) (epoch : BitVec 32) (values : List (BitVec 32)) (s : State),
    let c := s.chip
    let missed (port : Nat) : Prop := c.busPort port m.toNat = false ∨ epoch.toNat ≠ c.epochOf m.toNat ∨ m.toNat < c.chain.stemShown
    (missed 1 → Leaves (.stemRising m contrib origin epoch values) s c) ∧
    (missed 0 → Leaves (.stemFalling m contrib origin epoch values) s c) ∧
    (¬ missed 1 → Completes (.stemRising m contrib origin epoch values) s (fun t =>
      t.chip.chain.ports = c.chain.ports ∧ t.chip.nums = c.nums ∧ t.pending = s.pending ∧ t.dust = s.dust ∧
      (tget (0, []) (t.chip.stemStream true).packets m.toNat).1 = contrib.toNat)) ∧
    (¬ missed 0 → Completes (.stemFalling m contrib origin epoch values) s (fun t =>
      t.chip.chain.ports = c.chain.ports ∧ t.chip.nums = c.nums ∧ t.pending = s.pending ∧ t.dust = s.dust ∧
      (tget (0, []) (t.chip.stemStream false).packets m.toNat).1 = contrib.toNat))) ∧
  (∀ (chip : Byte) (octets : List Byte) (s : State),
    let c := s.chip
    (inView c chip.toNat = true → chip.toNat ≠ c.me → Leaves (.hawkDigest chip octets) s
      { c with hawk := { c.hawk with digests := tput c.hawk.digests chip.toNat (slice octets 0 64) } }) ∧
    (inView c chip.toNat = false ∨ chip.toNat = c.me → Leaves (.hawkDigest chip octets) s c)) ∧
  (∀ (chip : Byte) (tag : BitVec 32) (message : List Byte) (s : State),
    let c := s.chip
    (bit (field message 0 1) 7 = false → exec (.chainNdp chip tag message) s =
      .next (serveMsg (.chain chip (BitVec.ofNat 8 tag.toNat) (bit tag.toNat 8)) (parseMsg message false) s)) ∧
    (bit (field message 0 1) 7 = true → c.work.awaited = [] → Leaves (.chainNdp chip tag message) s c) ∧
    (∀ w, bit (field message 0 1) 7 = true → c.work.awaited = [w] → w.dst = chip.toNat → w.txn = field message 2 2 →
      w.op + 128 = field message 0 1 → Leaves (.chainNdp chip tag message) s
        (deliver w.path message { c with work := { c.work with awaited := [] } })))

/-- R39, R289, R290, R293 to R295: drives that are found, lost and reinstated, extents that are read here and on other chips, and
reads that fail or time out. -/
def Obligations.DrivesAndExtents : Prop :=
  (∀ (found : FoundDrive) (s : State),
    let c := s.chip
    let loc := found.port.val * 256 + found.link.val * 16 + found.down.val
    (found.isNvme = false → Leaves (.driveEnumerated found) s (snag 0x0304 loc 0xFF c)) ∧
    (found.isNvme = true → (∀ d, d < 12 → c.num (Obj.hodDriveState d) ≠ 0 ∧ c.num (Obj.hodDriveLocation d) ≠ loc) →
      Leaves (.driveEnumerated found) s (snag 0x0305 loc 0xFF c)) ∧
    (found.isNvme = true → found.meets = true → (∀ d, d < 12 → c.num (Obj.hodDriveState d) = 0) → c.num (Obj.hodDriveRetired 0) = 0 →
      Completes (.driveEnumerated found) s (fun t =>
        t.chip.num (Obj.hodDriveState 0) = 2 ∧ t.chip.num (Obj.hodDriveLocation 0) = loc ∧ t.chip.num Obj.hodDriveCount = 1 ∧
        t.chip.num (Obj.hodDriveLink 0) = found.width.val * 16 + found.generation.val ∧
        t.chip.hod = c.hod ∧ t.pending = s.pending ∧ t.dust = s.dust))) ∧
  (∀ (port link : Fin 4) (s : State),
    let c := s.chip
    (c.linkDrives port.val link.val = [] → Leaves (.rootLinkDown port link) s c) ∧
    (∀ d, c.linkDrives port.val link.val = [d] →
      let recent := (c.drive d).linkDowns.filter (fun t => decide (c.now < t + 1000000000))
      (recent.length < 3 → Completes (.rootLinkDown port link) s (fun t =>
        t.chip.num (Obj.hodDriveState d) = 1 ∧ (t.chip.drive d).linkDowns = c.now :: recent ∧ t.chip.mem = c.mem)) ∧
      (3 ≤ recent.length → Leaves (.rootLinkDown port link) s (retireDrive d c)))) ∧
  (∀ (d : Fin 12) (s : State),
    let c := s.chip
    let st := c.num (Obj.hodDriveState d.val)
    (st ≠ 1 → st ≠ 2 → Leaves (.controllerFatal d) s c) ∧
    (st = 1 ∨ st = 2 → (c.drive d.val).controllerReset = true → Completes (.controllerFatal d) s (fun t =>
      t.chip.num (Obj.hodDriveState d.val) = 3 ∧ t.chip.num (Obj.hodDriveRetired d.val) = 1)) ∧
    (st = 1 ∨ st = 2 → (c.drive d.val).controllerReset = false → Completes (.controllerFatal d) s (fun t =>
      t.chip.num (Obj.hodDriveState d.val) = 1 ∧ (t.chip.drive d.val).controllerReset = true))) ∧
  (∀ (r : Req) (a : Nat) (d : Fin 12) (s : State), Writes r a (Obj.hodDriveRetired d.val) [0] s →
    let c := (judged r.path s).chip
    (c.may 0x01 0x40 a 3 = false → Answers (.driveReinstate r d) r a (Obj.hodDriveRetired d.val) [0] s c St.noAccess) ∧
    (c.may 0x01 0x40 a 3 = true → c.flag (Obj.hodDriveRetired d.val) = true →
      Answers (.driveReinstate r d) r a (Obj.hodDriveRetired d.val) [0] s
        (countDrives (setNum (Obj.hodDriveErrors d.val) 0 (setNum (Obj.hodDriveState d.val) 1
          (setNum (Obj.hodDriveRetired d.val) 0 (modDrive d.val (fun _ => {}) c))))) St.ok)) ∧
  (∀ (volume : Fin 65536) (object index : BitVec 32) (result : ReadResult) (s : State) (x : Read) (slot : Nat),
    let c := s.chip
    x.volume = volume.val → x.object = object.toNat → x.index = index.toNat → x.server = none →
    c.volumeSlot volume.val = some slot →
    (c.hod.reads = [] → Leaves (.extentReadComplete volume object index result) s c) ∧
    (c.hod.reads = [x] → x.attempts < 3 → Leaves (.extentReadComplete volume object index .error) s
      (countFailure (c.num (Obj.hodVolumeDrive slot))
        (bump Obj.hodCountersReadRetries (modRead x (fun x => { x with attempts := x.attempts + 1, issued := c.now }) c)))) ∧
    (∀ extent tag p, c.hod.reads = [x] → result = .data extent tag →
      let v := c.volume slot
      let e := v.extentNumber x.object x.index
      v.tags.find? (fun y => y.1 == e) = none →
      verifyExtent s.dust v x.object x.index (tagEntry tag) (slice extent 0 65536) = some p →
      Completes (.extentReadComplete volume object index result) s (fun t => t.chip.hod.reads = [] ∧
        (∃ y ∈ t.chip.hod.cache, y.volume = x.volume ∧ y.object = x.object ∧ y.index = x.index ∧ y.data = p ∧ y.pinned = x.pin) ∧
        t.dust = s.dust ∧ t.pending = s.pending))) ∧
  (∀ s : State,
    let c := s.chip
    ((∀ x ∈ c.hod.reads, x.server ≠ none ∨ c.now < x.issued + 50000000) → Leaves .readTimeout s c) ∧
    (∀ x slot, c.hod.reads = [x] → x.server = none → x.issued + 50000000 ≤ c.now → c.volumeSlot x.volume = some slot →
      Leaves .readTimeout s (readFailed slot x c)) ∧
    ((∀ x ∈ c.hod.reads, x.server = none ∨ c.now < x.issued + 2000000) → Leaves .remoteTimeout s c) ∧
    (∀ x, c.hod.reads = [x] → x.server ≠ none → x.issued + 2000000 ≤ c.now →
      ((c.servers x.volume).find? (fun m => !x.tried.contains m) = none → Leaves .remoteTimeout s
        (modHod (fun h => { h with reads := [] }) (bump Obj.hodCountersRemoteTimeouts c))) ∧
      (∀ m, (c.servers x.volume).find? (fun m => !x.tried.contains m) = some m → Completes .remoteTimeout s (fun t =>
        t.chip.hod.reads = [{ x with server := some m, tried := x.tried ++ [m], issued := c.now }] ∧
        t.chip.out = c.out ++ [.lath 2 4 0 m 0 [x.volume, x.object, x.index, x.need.getD 0]])))) ∧
  (∀ (chip : Byte) (fields : List Nat) (s : State),
    let c := s.chip
    let vol := fields.getD 0 0
    let obj := fields.getD 1 0
    let ix := fields.getD 2 0
    (c.volumeSlot vol = none → Leaves (.extentReq chip fields) s c) ∧
    (∀ slot, c.volumeSlot vol = some slot → c.flag (Obj.hodVolumeServe slot) = false → Leaves (.extentReq chip fields) s c) ∧
    (∀ slot, c.volumeSlot vol = some slot → c.flag (Obj.hodVolumeServe slot) = true → c.num (Obj.hodVolumeState slot) ≠ 5 →
      (tget {} (c.volume slot).dir obj).state = 1 → ix < (tget {} (c.volume slot).dir obj).extents →
      c.extentBad vol obj ix = false →
      (∀ x, c.cached vol obj ix = some x → Leaves (.extentReq chip fields) s
        (emit (.lath 2 4 1 chip.toNat 0 ([vol, obj, ix] ++ x.data.map BitVec.toNat)) c)) ∧
      (c.cached vol obj ix = none → c.inFlight vol obj ix = true → Leaves (.extentReq chip fields) s
        { c with hod := { c.hod with served := c.hod.served ++ [⟨chip.toNat, vol, obj, ix⟩] } }) ∧
      (c.cached vol obj ix = none → c.inFlight vol obj ix = false → Leaves (.extentReq chip fields) s
        { c with hod := { c.hod with served := c.hod.served ++ [⟨chip.toNat, vol, obj, ix⟩], reads := c.hod.reads ++
          [{ volume := vol, object := obj, index := ix, need := some (fields.getD 3 0), issued := c.now }] } })) ∧
    (c.hod.reads = [] → Leaves (.extentData chip fields) s c) ∧
    (∀ x, c.hod.reads = [x] → x.volume = vol → x.object = obj → x.index = ix → chip.toNat ∈ x.tried →
      Leaves (.extentData chip fields) s (finishRead x (slice ((fields.drop 3).map (BitVec.ofNat 8)) 0 65536) c)) ∧
    Completes (.volumeOffer chip fields) s (fun t =>
      t.chip.hod.offers = c.hod.offers.filter (fun o => o.1 != chip.toNat) ++ offerEntries chip.toNat fields ∧
      t.chip.hod.volumes = c.hod.volumes ∧ t.chip.mem = c.mem ∧
      (∀ slot, slot < 16 → t.chip.num (Obj.hodVolumeState slot) = c.num (Obj.hodVolumeState slot) ∨
        t.chip.num (Obj.hodVolumeState slot) = 5)))

/-- R282, R283, R289, R297, R492: volumes are mounted, unmounted, formatted and preloaded, and objects imported and deleted. -/
def Obligations.VolumesAndImports : Prop :=
  (∀ (r : Req) (a : Nat) (slot : Fin 16) (s : State),
    let c := (judged r.path s).chip
    let n := slot.val
    let o := Obj.hodVolumeMount n
    let st := c.num (Obj.hodVolumeState n)
    let vol := c.num (Obj.hodVolumeNumber n)
    (Writes r a o [1] s →
      (st = 0 ∨ st = 4 ∨ st = 6 → Answers (.hodMount r slot) r a o [1] s (setNum o 1 (setNum (Obj.hodVolumeState n) 1
        (modHod (fun h => { h with mounting := tput h.mounting n (a + 1) }) c))) St.ok) ∧
      (st = 1 ∨ st = 2 ∨ st = 3 ∨ st = 5 → Answers (.hodMount r slot) r a o [1] s c St.ok)) ∧
    (Writes r a o [0] s →
      (c.may 0x15 n a 3 = false → Answers (.hodUnmount r slot) r a o [0] s (setNum (Obj.hodVolumeResult n) 6 c) St.noAccess) ∧
      (c.may 0x15 n a 3 = true → c.mounted n = true →
        c.cursorList.any (fun x => x.2.volume == vol && !x.2.remote) = true →
        Answers (.hodUnmount r slot) r a o [0] s (setNum (Obj.hodVolumeResult n) 7 c) St.refused) ∧
      (c.may 0x15 n a 3 = true → c.mounted n = false → c.hod.import_.isOpen = false →
        Answers (.hodUnmount r slot) r a o [0] s
          (setNum o 0 (setNum (Obj.hodVolumeResult n) 0 (setNum (Obj.hodVolumeState n) 0 c))) St.ok) ∧
      (c.may 0x15 n a 3 = true → c.mounted n = true → c.hod.import_.isOpen = false →
        c.cursorList.any (fun x => x.2.volume == vol && !x.2.remote) = false →
        Completes (.hodUnmount r slot) s (fun t => ∃ d, t = answered r a o [0] ({ s with chip := d }, St.ok) ∧
          d.num (Obj.hodVolumeState n) = 0 ∧ d.num (Obj.hodVolumeResult n) = 0 ∧ d.num o = 0 ∧
          d.hod.volumes = tdel c.hod.volumes n ∧ d.hod.cache = c.hod.cache.filter (fun e => e.volume != vol)))) ∧
    (Writes r a o [3] s →
      (c.may 0x15 n a 3 = false → Answers (.hodFormat r slot) r a o [3] s (setNum (Obj.hodVolumeResult n) 6 c) St.noAccess) ∧
      (c.may 0x15 n a 3 = true → st ≠ 0 → st ≠ 4 →
        Answers (.hodFormat r slot) r a o [3] s (setNum (Obj.hodVolumeResult n) 7 c) St.refused) ∧
      (c.may 0x15 n a 3 = true → st = 0 ∨ st = 4 →
        Answers (.hodFormat r slot) r a o [3] s (setNum o 3 (setNum (Obj.hodVolumeState n) 1 c)) St.ok)) ∧
    (∀ on : Bool, Writes r a (Obj.hodVolumePreload n) [if on then 1 else 0] s → c.flag (Obj.hodVolumePreload n) = on →
      Answers (.hodPreload r slot on) r a (Obj.hodVolumePreload n) [if on then 1 else 0] s
        (setNum (Obj.hodVolumePreload n) (if on then 1 else 0) c) St.ok) ∧
    (Writes r a (Obj.hodVolumePreload n) [1] s → c.flag (Obj.hodVolumePreload n) = false → st = 2 →
      Answers (.hodPreload r slot true) r a (Obj.hodVolumePreload n) [1] s (preload n (setNum (Obj.hodVolumePreload n) 1 c)) St.ok) ∧
    (Writes r a (Obj.hodVolumePreload n) [0] s → c.flag (Obj.hodVolumePreload n) = true → Completes (.hodPreload r slot false) s (fun t =>
      ∃ d, t = answered r a (Obj.hodVolumePreload n) [0] ({ s with chip := d }, St.ok) ∧ d.num (Obj.hodVolumePreload n) = 0 ∧
        (∀ e ∈ d.hod.cache, e.volume = vol → e.pinned = false)))) ∧
  (∀ (slot : Fin 16) (s : State),
    let c := s.chip
    let n := slot.val
    let o := Obj.hodVolumeMount n
    (∀ found, c.num (Obj.hodVolumeState n) ≠ 1 ∨ c.num o ≠ 1 → Leaves (.mountDone slot found) s c) ∧
    (∀ found, c.num (Obj.hodVolumeState n) = 1 → c.num o = 1 →
      exec (.mountDone slot found) s = .next { s with chip := finishMount s.dust n found c }) ∧
    (c.num (Obj.hodVolumeState n) = 1 → c.num o = 1 → Completes (.mountDone slot none) s (fun t =>
      t.chip.num (Obj.hodVolumeState n) = 4 ∧ t.chip.num (Obj.hodVolumeResult n) = 1 ∧ t.chip.hod.volumes = c.hod.volumes)) ∧
    (∀ x, c.num o ≠ 3 → Leaves (.formatDone slot x) s c) ∧
    (c.num o = 3 → Completes (.formatDone slot none) s (fun t =>
      t.chip.num (Obj.hodVolumeState n) = 4 ∧ t.chip.num o = 0 ∧ t.chip.hod = c.hod)) ∧
    (∀ sb, c.num o = 3 → Completes (.formatDone slot (some sb)) s (fun t =>
      t.chip.num o = 1 ∧ (t.chip.num (Obj.hodVolumeState n) = 2 ∨ t.chip.num (Obj.hodVolumeState n) = 3 ∨
        t.chip.num (Obj.hodVolumeState n) = 4 ∨ t.chip.num (Obj.hodVolumeState n) = 5)))) ∧
  (∀ (r : Req) (a : Nat) (s : State),
    let c := (judged r.path s).chip
    let i := c.hod.import_
    let slot := c.num Obj.hodImportVolume
    let entry := slice (c.blob Obj.hodImportEntry) 0 64
    let d := dirEntry entry
    let opened : Import := { slot := slot, object := c.num Obj.hodImportObject, master := a, entry := entry, isOpen := true }
    (Writes r a Obj.hodImportCommit [1] s →
      (i.isOpen = true → i.master ≠ a → Answers (.importBegin r) r a Obj.hodImportCommit [1] s c St.busy) ∧
      (i.isOpen = false → importTarget c = false → Answers (.importBegin r) r a Obj.hodImportCommit [1] s c St.refused) ∧
      (i.isOpen = false → importTarget c = true → importCheck c a = 6 →
        Answers (.importBegin r) r a Obj.hodImportCommit [1] s (setNum Obj.hodImportStatus 6 c) St.noAccess) ∧
      (i.isOpen = false → importTarget c = true → importCheck c a = 0 →
        dirValid { d with state := 1, extents := (d.length * d.frameBytes + 65535) / 65536 } = true →
        Answers (.importBegin r) r a Obj.hodImportCommit [1] s (leaseSet 5 slot a (c.time.stc + 10 * c.fs)
          (setNum Obj.hodImportStatus 1 (modHod (fun h => { h with import_ := opened }) c))) St.ok)) ∧
    (∀ data, Writes r a Obj.hodImportData data s →
      (i.isOpen = false ∨ i.finishing = true → Answers (.importData r data) r a Obj.hodImportData data s c St.refused) ∧
      (i.isOpen = true → i.finishing = false → i.master ≠ a → Answers (.importData r data) r a Obj.hodImportData data s c St.busy) ∧
      (i.isOpen = true → i.finishing = false → i.master = a → Answers (.importData r data) r a Obj.hodImportData data s
        (leaseSet 5 i.slot a (c.time.stc + 10 * c.fs)
          (modHod (fun h => { h with import_ := { i with data := i.data ++ data } }) c)) St.ok)) ∧
    (Writes r a Obj.hodImportCommit [2] s →
      let f := dirEntry i.entry
      let n := (f.length * f.frameBytes + 65535) / 65536
      (i.isOpen = true → i.master ≠ a → Answers (.importFinish r) r a Obj.hodImportCommit [2] s c St.busy) ∧
      (i.isOpen = false → Answers (.importFinish r) r a Obj.hodImportCommit [2] s c St.refused) ∧
      (i.isOpen = true → i.master = a → i.finishing = false → objectOpen c i.slot i.object = false →
        n ≤ (freeExtents (c.volume i.slot) 0 n).length → Answers (.importFinish r) r a Obj.hodImportCommit [2] s
          (modHod (fun h => { h with import_ := { i with finishing := true } }) c) St.ok) ∧
      (i.isOpen = true → i.master = a → i.finishing = false → objectOpen c i.slot i.object = false →
        (freeExtents (c.volume i.slot) 0 n).length < n → Answers (.importFinish r) r a Obj.hodImportCommit [2] s
          (setNum Obj.hodImportStatus 3 (importAbort c)) St.refused)) ∧
    (Writes r a Obj.hodImportCommit [3] s →
      (i.isOpen = true → Answers (.importDelete r) r a Obj.hodImportCommit [3] s c St.busy) ∧
      (i.isOpen = false → importTarget c = true → importCheck c a = 0 → Completes (.importDelete r) s (fun t =>
        ∃ e, t = answered r a Obj.hodImportCommit [3] ({ s with chip := e }, St.ok) ∧ e.num Obj.hodImportStatus = 2 ∧
          (tget {} (e.volume slot).dir (c.num Obj.hodImportObject)).state ≠ 1 ∧
          (e.volume slot).sb.generation = (c.volume slot).sb.generation + 1)))) ∧
  (∀ s : State,
    let c := s.chip
    let i := c.hod.import_
    (i.finishing = false → Leaves .importDone s c) ∧
    (i.finishing = true → Completes .importDone s (fun t => t.chip.num Obj.hodImportStatus = 2 ∧ t.chip.hod.import_ = {} ∧
      (tget {} (t.chip.volume i.slot).dir i.object).state = 1 ∧ t.pending = s.pending ∧ t.dust = s.dust)))

/-- R299 to R301, R309, R310, R315, R316, R318 to R320: errors that the scrubbers find, what returns retired rows and pages, and a
wipe of the Dust Sheet from its trigger to its end. -/
def Obligations.MemoryErrorsAndWipe : Prop :=
  (∀ (inst : Fin 531) (word : BitVec 19) (s : State),
    let c := s.chip
    let key := 2 ^ 20 * inst.val + word.toNat
    let recent := (tget [] c.errs.fixes key).filter (fun t => decide (c.now < t + 10000000000))
    (∀ double, instWords inst.val ≤ word.toNat → Leaves (.patrolScrub inst word double) s c) ∧
    (word.toNat < instWords inst.val → recent.length < 2 → Completes (.patrolScrub inst word false) s (fun t =>
      t.chip.errs.corrected = tset 0 c.errs.corrected inst.val (satAdd 32 (tget 0 c.errs.corrected inst.val) 1) ∧
      t.chip.errs.fixes = tset [] c.errs.fixes key (c.now :: recent) ∧
      t.chip = { c with errs := { c.errs with corrected := t.chip.errs.corrected, fixes := t.chip.errs.fixes } } ∧
      t.dust = s.dust)) ∧
    (word.toNat < instWords inst.val → Completes (.patrolScrub inst word true) s (fun t =>
      tget 0 t.chip.errs.uncorrected inst.val = satAdd 32 (tget 0 c.errs.uncorrected inst.val) 1 ∧
      (∀ p, inst.val < 528 → wordPlace inst.val word.toNat = some p → p / 8 ∈ t.chip.errs.bad ∧ t.chip.mem = c.mem) ∧
      (∀ id k, inst.val = 530 → s.dust.keys[word.toNat / 8]? = some (id, k) → t.dust.key id = none) ∧
      (inst.val ≠ 530 → t.dust = s.dust) ∧ t.dust.keys = s.dust.keys))) ∧
  (∀ s : State,
    let c := s.chip
    Leaves (.dramScrub none) s (bump Obj.memoryDramScrubPasses c) ∧
    (∀ (p : BitVec 26) (double : Bool), Config.dramBytes ≤ 2048 * p.toNat ∨ p.toNat ∈ c.retiredPages →
      Leaves (.dramScrub (some (p, double))) s c) ∧
    (∀ p : BitVec 26, 2048 * p.toNat < Config.dramBytes → p.toNat ∉ c.retiredPages →
      Leaves (.dramScrub (some (p, true))) s (retirePage p.toNat (badPage p.toNat (bump Obj.memoryDramUncorrected c))) ∧
      (c.retiredPages.length < 4096 → (c.blob Obj.memoryDramRetiredList).length % 4 = 0 →
        p.toNat ∈ (retirePage p.toNat c).retiredPages ∧ (retirePage p.toNat c).mem = c.mem) ∧
      (tget [] c.errs.pages p.toNat = [] → Leaves (.dramScrub (some (p, false))) s
        (modErrs (fun e => { e with pages := tset [] e.pages p.toNat [c.now] }) (bump Obj.memoryDramCorrected c))))) ∧
  (∀ (r : Req) (a : Nat) (s : State),
    let c := (judged r.path s).chip
    (Writes r a Obj.memoryConflictClear [1] s → Answers (.conflictClear r) r a Obj.memoryConflictClear [1] s
      { c with errs := { c.errs with clearConflicts := true } } St.ok) ∧
    (∀ failing, Writes r a Obj.memoryJournalReinstate [1] s → Completes (.journalReinstate r failing) s (fun t => ∃ d,
      t = answered r a Obj.memoryJournalReinstate [1] ({ s with chip := d }, St.ok) ∧
      d.work.journal.retiredRows = c.work.journal.retiredRows.filter (fun x => (failing.map Fin.val).contains x) ∧
      d.work.journal.recs = c.work.journal.recs ∧ d.work.queues = c.work.queues)) ∧
    (Writes r a Obj.memoryDramReinstate [1] s → Completes (.dramReinstate r) s (fun t => ∃ d,
      t = answered r a Obj.memoryDramReinstate [1] ({ s with chip := d }, St.ok) ∧ d.retiredPages = [] ∧ d.errs.pages = [] ∧
      d.errs.degraded = false ∧ d.mem = c.mem ∧ d.nums = c.nums))) ∧
  (∀ (cause : Fin 5) (verified : Bool) (s : State),
    let c := s.chip
    (s.dust.state = .wiping → Completes (.wipeTrigger cause) s (fun t => t.dust = s.dust ∧
      bit (t.chip.num Obj.dustSheetLastCause) cause.val = true ∧ t.chip.mem = c.mem)) ∧
    (s.dust.state ≠ .wiping → Completes (.wipeTrigger cause) s (fun t =>
      t.dust = { s.dust with state := .wiping, repeated := false } ∧ t.chip.num Obj.dustSheetLastCause = 2 ^ cause.val ∧
      (∀ id, t.dust.key id = none))) ∧
    (s.dust.state ≠ .wiping → Leaves (.wipeComplete verified) s c) ∧
    (s.dust.state = .wiping → Completes (.wipeComplete true) s (fun t =>
      t.dust = { s.dust with keys := [], lost := [], state := .wiped, repeated := false } ∧
      t.chip.num Obj.dustSheetWipes = satAdd (8 * objWidth Obj.dustSheetWipes) (c.num Obj.dustSheetWipes) 1 ∧
      (∀ e ∈ t.chip.hod.cache, c.encrypted e.volume e.object = false))) ∧
    (s.dust.state = .wiping → s.dust.repeated = true → Completes (.wipeComplete false) s (fun t =>
      t.dust = { s.dust with keys := [], lost := [], state := .fault, locked := true, repeated := false })) ∧
    (s.dust.state = .wiping → s.dust.repeated = false → Completes (.wipeComplete false) s (fun t =>
      t.dust = { s.dust with repeated := true } ∧ t.chip = c)))

/-- R538 to R543: the key coat's run, the boot watchdog, the end of bring-up, and the commitment of images, rollback floors and key
slots. -/
def Obligations.BootAndUpdates : Prop :=
  (∀ (rate : Option (BitVec 16)) (s : State),
    let c := s.chip
    (c.num Obj.bootState ≠ 0 ∨ c.boot.started = true → Leaves (.keyCoat rate) s c) ∧
    (c.num Obj.bootState = 0 → c.boot.started = false → Completes (.keyCoat none) s (fun t =>
      t.chip.num Obj.bootState = 2 ∧ t.chip.num Obj.bootError = 2 ∧ t.chip.boot.started = false)) ∧
    (∀ f, rate = some f → c.num Obj.bootState = 0 → c.boot.started = false → c.dramRateFor f.toNat = 0 →
      Completes (.keyCoat rate) s (fun t => t.chip.num Obj.bootState = 2 ∧ t.chip.num Obj.bootError = 2)) ∧
    (∀ f, rate = some f → c.num Obj.bootState = 0 → c.boot.started = false → c.dramRateFor f.toNat ≠ 0 → c.boot.preferred ≤ 1 →
      Completes (.keyCoat rate) s (fun t => t.chip.num Obj.memoryDramRate = c.dramRateFor f.toNat ∧ match c.pickSlot with
        | none => t.chip.num Obj.bootState = 2 ∧ t.chip.num Obj.bootError = 1 ∧ t.chip.boot.started = false
        | some slot => t.chip.num Obj.bootState = 0 ∧ t.chip.boot.started = true ∧ t.chip.num Obj.bootSlot = slot ∧
          t.chip.num Obj.bootError = (if slot = c.boot.preferred then 0 else 3) ∧
          t.chip.num Obj.identityFirmwareVersion = imageVersion (c.boot.slotBytes slot) % 2 ^ 32)) ∧
    (c.num Obj.bootState = 0 → c.boot.started = false → c.num Obj.lifecycleState ≠ c.num Obj.lifecycleLastApplied →
      Completes (.keyCoat none) s (fun t => t.dust.state = .wiping ∧ t.dust.store = []))) ∧
  (∀ s : State,
    let c := s.chip
    let slot := if c.boot.started then c.num Obj.bootSlot else c.boot.preferred
    (c.num Obj.bootState ≠ 0 → Leaves .alwaysOnWatchdog s c) ∧
    (c.num Obj.bootState = 0 → Completes .alwaysOnWatchdog s (fun t => t.chip.num Obj.faultLastReset = 4 ∧
      t.chip.boot.fails slot = c.boot.fails slot + 1 ∧
      t.chip.boot.preferred = (if 3 ≤ c.boot.fails slot + 1 then 1 - slot else c.boot.preferred) ∧ t.chip.boot.started = false)) ∧
    (∀ ms : BitVec 16, c.num Obj.bootState = 0 → c.boot.started = true → Completes (.bootReady ms) s (fun t =>
      t.chip.num Obj.bootState = 1 ∧ t.chip.num Obj.bootReadyMs = ms.toNat ∧ t.chip.boot.fails (c.num Obj.bootSlot) = 0 ∧
      (c.boot.warm = true → t.chip.work.journal.control.isSealed = false))) ∧
    (∀ ms : BitVec 16, c.num Obj.bootState ≠ 0 ∨ c.boot.started = false → Leaves (.bootReady ms) s c)) ∧
  (∀ (r : Req) (a : Nat) (s : State),
    let c := (judged r.path s).chip
    let result := c.imageResult (c.boot.slotBytes c.otherSlot)
    (Writes r a Obj.bootUpdateCommit [1] s → Completes (.updateCommit r) s (fun t => ∃ d,
      t = answered r a Obj.bootUpdateCommit [1] ({ s with chip := d }, if result = 0 then St.ok else St.refused) ∧
      d.num Obj.bootUpdateResult = result ∧
      d.boot.preferred = (if result = 0 then c.otherSlot else c.boot.preferred) ∧ d.boot.slotA = c.boot.slotA ∧
      d.boot.slotB = c.boot.slotB)) ∧
    (Writes r a Obj.bootCommitRollback [1] s → Answers (.commitRollback r) r a Obj.bootCommitRollback [1] s
      (flashStore Obj.bootRollbackFloor (setNum Obj.bootRollbackFloor
        (max (c.num Obj.bootRollbackFloor) (imageRollback (c.boot.slotBytes (c.num Obj.bootSlot)))) c)) St.ok) ∧
    (∀ slot : Fin 4, Writes r a Obj.bootRevokeKeySlot [BitVec.ofNat 8 slot.val] s →
      (imageKeySlot (c.boot.slotBytes (c.num Obj.bootSlot)) = slot.val →
        Answers (.revokeKeySlot r slot) r a Obj.bootRevokeKeySlot [BitVec.ofNat 8 slot.val] s c St.busy) ∧
      (imageKeySlot (c.boot.slotBytes (c.num Obj.bootSlot)) ≠ slot.val →
        Answers (.revokeKeySlot r slot) r a Obj.bootRevokeKeySlot [BitVec.ofNat 8 slot.val] s
          { c with boot := { c.boot with revoked := withBit c.boot.revoked slot.val true } } St.ok)))

/-- R317, R319, R547 to R551: power states, the advance of the life cycle, and keys that are installed and removed. -/
def Obligations.PowerLifeCycleAndKeys : Prop :=
  (∀ s : State,
    let c := s.chip
    (∀ since, c.boot.idleSince = some since → c.num Obj.powerQuietEnable ≠ 0 → c.num Obj.powerState = 0 → c.nothingRuns = true →
      since + c.num Obj.powerQuietDelayMs * 1000000 ≤ c.now → Completes .quietEntry s (fun t =>
        t.chip.num Obj.powerState = 1 ∧ t.chip.screed.insts = [] ∧ t.chip.screed.gains = c.screed.gains ∧ t.chip.mem = c.mem)) ∧
    (c.boot.idleSince = none ∨ c.num Obj.powerQuietEnable = 0 ∨ c.num Obj.powerState ≠ 0 ∨ c.nothingRuns = false →
      Leaves .quietEntry s c)) ∧
  (∀ (r : Req) (a : Nat) (s : State),
    let c := (judged r.path s).chip
    Writes r a Obj.powerRequest [2] s →
    (c.hawk.voices ≠ [] ∨ c.trowel.tasks ≠ [] ∨ c.skim.wet.phase ≠ .idle ∨ c.hod.import_.isOpen = true ∨
      c.hod.import_.finishing = true → Answers (.powerStandby r) r a Obj.powerRequest [2] s c St.busy) ∧
    (c.hawk.voices = [] → c.trowel.tasks = [] → c.skim.wet.phase = .idle → c.hod.import_.isOpen = false →
      c.hod.import_.finishing = false → Completes (.powerStandby r) s (fun t => ∃ d,
        t = answered r a Obj.powerRequest [2] ({ s with chip := d }, St.ok) ∧ d.num Obj.powerState = 2 ∧ d.time.stopped = true ∧
        d.time.stc = c.time.stc ∧ d.work.journal.recs = c.work.journal.recs))) ∧
  (∀ (source : WakeSource) (cycles : Nat) (tables : List (List Byte)) (s : State),
    let c := s.chip
    (c.num Obj.powerState ≠ 2 ∨ c.wakes source = false → Leaves (.powerWake source cycles tables) s c) ∧
    (c.num Obj.powerState = 2 → c.wakes source = true → Completes (.powerWake source cycles tables) s (fun t =>
      t.chip.num Obj.powerState = 0 ∧ t.chip.time.stopped = false ∧ c.time.stc ≤ t.chip.time.stc ∧ t.chip.time.stc % 64 = 0 ∧
      t.chip.time.rebaseTick = t.chip.time.stc ∧ t.dust = s.dust))) ∧
  (∀ (r : Req) (a : Nat) (next : Fin 5) (s : State),
    let c := (judged r.path s).chip
    let st := c.num Obj.lifecycleState
    Writes r a Obj.lifecycleAdvance [BitVec.ofNat 8 next.val] s → c.boot.due = none →
    (next.val ≤ st ∨ (next.val ≠ st + 1 ∧ next.val ≠ 4) →
      Answers (.lifeAdvance r next) r a Obj.lifecycleAdvance [BitVec.ofNat 8 next.val] s c St.badValue) ∧
    (st < next.val → next.val = st + 1 ∨ next.val = 4 → next.val ≠ 3 ∨ st ≠ 2 → Completes (.lifeAdvance r next) s (fun t =>
      t.chip.num Obj.lifecycleState = next.val ∧ t.chip.num Obj.lifecycleLastApplied = next.val ∧
      t.chip.num Obj.faultLastReset = 1 ∧ t.dust.state = .wiping ∧ t.dust.store = [] ∧ t.pending = s.pending))) ∧
  (∀ (r : Req) (a : Nat) (id : BitVec 32) (wrapped : List Byte) (s : State),
    let c := (judged r.path s).chip
    let o := Obj.keyInstall
    let data := leBytes 4 id.toNat ++ wrapped
    let failed (st : Nat) : State × Nat := ({ s with chip := setBlob Obj.keyResult (leBytes 1 st ++ zeros 8) c }, st)
    Writes r a o data s →
    (c.num Obj.lifecycleState = 3 ∨ s.dust.locked = true ∨ s.dust.state = .wiping →
      exec (.keyInstall r id wrapped) s = .next (answered r a o data (failed St.refused))) ∧
    (c.num Obj.lifecycleState ≠ 3 → s.dust.locked = false → s.dust.state ≠ .wiping →
      (id.toNat = 0 → exec (.keyInstall r id wrapped) s = .next (answered r a o data (failed St.badValue))) ∧
      (id.toNat ≠ 0 → 4096 ≤ s.dust.keys.length ∨ tget [] s.dust.keys id.toNat ≠ [] →
        exec (.keyInstall r id wrapped) s = .next (answered r a o data (failed St.busy))) ∧
      (id.toNat ≠ 0 → s.dust.keys.length < 4096 → tget [] s.dust.keys id.toNat = [] → exec (.keyInstall r id wrapped) s = .next
        (match Config.unwrapKey (c.num Obj.lifecycleState) wrapped with
          | none => answered r a o data (failed St.refused)
          | some [] => answered r a o data (failed St.refused)
          | some key => answered r a o data
            ({ s with chip := setNum Obj.keyCount (tput s.dust.keys id.toNat key).length
                        (setBlob Obj.keyResult (leBytes 1 0 ++ keyCheck key) c),
                      dust := { s.dust with keys := tput s.dust.keys id.toNat key, store := tput s.dust.store id.toNat wrapped } }, St.ok))))) ∧
  (∀ (r : Req) (a : Nat) (id : BitVec 32) (s : State),
    let c := (judged r.path s).chip
    let o := Obj.keyRemove
    let data := leBytes 4 id.toNat
    Writes r a o data s →
    (s.dust.locked = true ∨ s.dust.state = .wiping → Answers (.keyRemove r id) r a o data s c St.refused) ∧
    (tget [] s.dust.keys id.toNat = [] → tget [] s.dust.store id.toNat = [] → Answers (.keyRemove r id) r a o data s c St.refused) ∧
    (s.dust.locked = false → s.dust.state ≠ .wiping → tget [] s.dust.keys id.toNat ≠ [] → Completes (.keyRemove r id) s (fun t =>
      t.dust.key id.toNat = none ∧ (∀ j, j ≠ id.toNat → t.dust.key j = s.dust.key j) ∧ t.dust.state = s.dust.state ∧
      t.pending = s.pending)))

/-- R542, R553 to R555: the monitor's commands, where its level and the boot state allow them, and where they do not. -/
def Obligations.KolefCommands : Prop :=
  ∀ (s : State) (frac : Byte) (cold b : Bool) (n : BitVec 32) (tenant : Option (Fin 16)) (count : BitVec 7) (object : BitVec 32)
    (data : List Byte),
    let c := s.chip
    let u := modUart 0 (fun x => { x with rx := [], timeout := false }) c
    let commands : List (KolefCmd × Instr) := [(.id, .kolefId), (.stc, .kolefStc frac), (.reset, .kolefReset cold), (.lc, .kolefLc),
      (.help, .kolefHelp), (.img, .kolefImg b n), (.log, .kolefLog tenant count), (.rd, .kolefRd object), (.wr, .kolefWr object data)]
    (c.boot.img ≠ none → ∀ x ∈ commands, Leaves x.2 s c) ∧
    (c.boot.img = none →
      (∀ x ∈ commands, c.inRecovery = true → x.1.inRom = false →
        Leaves x.2 s (emit (.kolef St.badRequest []) u)) ∧
      (∀ x ∈ commands, c.inRecovery = false ∨ x.1.inRom = true → x.1.allowed c.kolefLevel = false →
        Leaves x.2 s (emit (.kolef St.noAccess []) u)) ∧
      (Leaves .kolefId s (emit (.kolef St.ok [c.num Obj.identityPart, c.num Obj.identityStepping, c.num Obj.identityGrade,
        leNat (c.blob Obj.identitySerial), c.num Obj.identityFirmwareVersion, c.num Obj.lifecycleState]) u)) ∧
      (c.inRecovery = false → c.kolefLevel ≤ 1 →
        (Leaves (.kolefStc frac) s (emit (.kolef St.ok [c.time.stc, frac.toNat, c.now]) u)) ∧
        (exec (.kolefRd object) s = .next (serveMsg .kolef (kolefMsg 1 object []) { s with chip := u })) ∧
        (count.toNat = 0 ∨ 64 < count.toNat →
          Leaves (.kolefLog tenant count) s (emit (.kolef St.badRequest []) u)) ∧
        (0 < count.toNat → count.toNat ≤ 64 → Completes (.kolefLog none count) s (fun t =>
          t.chip.out = c.out ++ (c.work.systemLog.entries.take count.toNat).map (fun x => .kolef St.ok (x.bytes.map BitVec.toNat))))) ∧
      (c.kolefLevel ≤ 1 →
        exec (.kolefReset true) s = .next (coldReset { s with chip := emit (.kolef St.ok []) u }) ∧
        exec (.kolefReset false) s = .next (warmReset 1 { s with chip := emit (.kolef St.ok []) u })) ∧
      (c.kolefLevel = 0 →
        Leaves .kolefLc s (emit (.kolef St.ok [c.num Obj.lifecycleState, c.num Obj.bootError]) u) ∧
        (n.toNat = 0 ∨ 9437184 < n.toNat →
          Leaves (.kolefImg b n) s (emit (.kolef St.badValue []) u)) ∧
        (0 < n.toNat → n.toNat ≤ 9437184 → c.inRecovery = false →
          c.num Obj.bootSlot = (if b then 1 else 0) → Leaves (.kolefImg b n) s (emit (.kolef St.refused []) u)) ∧
        (0 < n.toNat → n.toNat ≤ 9437184 →
          c.inRecovery = true ∨ c.num Obj.bootSlot ≠ (if b then 1 else 0) → Completes (.kolefImg b n) s (fun t =>
            t.chip.boot.img = some { slot := if b then 1 else 0, length := n.toNat, at_ := c.now } ∧
            t.chip.out = c.out ++ [.kolef St.ok []])) ∧
        (c.inRecovery = false →
          exec (.kolefWr object data) s = .next (serveMsg .kolef (kolefMsg 2 object data) { s with chip := u }))) ∧
      Completes .kolefHelp s (fun t => ∃ codes, t.chip.out = c.out ++ [.kolef St.ok codes] ∧ 0 ∈ codes ∧ 8 ∈ codes ∧
        (6 ∈ codes ↔ c.kolefLevel = 0) ∧ (2 ∈ codes ↔ c.kolefLevel = 0 ∧ c.inRecovery = false)) ∧
      Leaves .kolefImgTimeout s c) ∧
    (∀ x, c.boot.img = some x →
      (c.now < x.at_ + 2000000000 → Leaves .kolefImgTimeout s c) ∧
      (x.at_ + 2000000000 ≤ c.now → Leaves .kolefImgTimeout s
        (emit (.kolef St.timeout []) { c with boot := { c.boot with img := none } })))

/-- R21, R33, R486, R487, R490, R491, R494, R502, R560, R561: leases that lapse, warm, cold and power-fail resets, gang and core
resets, the supervisor's restart, dead crossings, replays and the loss of VBAK. -/
def Obligations.LeasesPowerAndResets : Prop :=
  (∀ s : State,
    let c := s.chip
    ((∀ l ∈ c.work.leases, l.kind = 1 ∨ l.expiry = noTerm ∨ c.time.stc ≤ l.expiry) → Leaves .leaseExpiry s c) ∧
    (∀ l, c.work.leases = [l] → l.kind ≠ 1 → l.expiry ≠ noTerm → l.expiry < c.time.stc → Leaves .leaseExpiry s (revokeLease l c)) ∧
    (∀ l, c.work.leases = [l] → l.kind = 4 → l.unit = Obj.skimCoatCommit → l.expiry ≠ noTerm → l.expiry < c.time.stc →
      c.skim.wet.phase = .idle → Completes .leaseExpiry s (fun t => t.chip.skim.next = [] ∧ t.chip.work.leases = [])) ∧
    (c.boot.powerLost = true → Leaves .powerFail s c) ∧
    (c.boot.powerLost = false → Completes .powerFail s (fun t => t.chip.boot.powerLost = true ∧
      t.chip.work.journal.control.isSealed = true ∧ t.chip.work.journal.control.stcLast = c.time.stc ∧
      t.chip.work.journal.recs = c.work.journal.recs ∧ t.dust = s.dust)) ∧
    (∀ cycles, c.boot.powerLost = true → c.work.journal.control.isSealed = true → Completes (.powerFailRestart cycles) s (fun t =>
      t.chip.num Obj.faultLastReset = 2 ∧ t.chip.boot.powerLost = false ∧ t.chip.work.journal.recs = c.work.journal.recs ∧
      c.work.journal.control.stcLast ≤ t.chip.time.stc ∧ t.chip.time.stc % 64 = 0 ∧ t.dust = s.dust)) ∧
    (∀ cycles, c.boot.powerLost = false ∨ c.work.journal.control.isSealed = false → Leaves (.powerFailRestart cycles) s c) ∧
    (∀ low supplies ignored cycles, supplies = false ∨ ignored = true → Leaves (.resetN low supplies ignored cycles) s c) ∧
    (∀ low cycles, c.boot.powerLost = false → low < 10000 → Leaves (.resetN low true false cycles) s c) ∧
    (∀ low cycles, c.boot.powerLost = false → 10000 ≤ low →
      exec (.resetN low true false cycles) s = .next (coldReset s)) ∧
    (∀ low cycles, c.boot.powerLost = true → exec (.resetN low true false cycles) s =
      .next (if c.work.journal.control.isSealed then powerFailRestart cycles s else coldReset s)) ∧
    ((coldReset s).chip.time.stc = 0 ∧ (coldReset s).chip.hawk = {} ∧ (coldReset s).chip.mem = [] ∧ (coldReset s).dust.keys = [] ∧
      (coldReset s).dust.store = s.dust.store ∧ (coldReset s).chip.work.journal = {} ∧ (coldReset s).chip.flashNums = c.flashNums) ∧
    (c.boot.powerLost = true → Completes .vbakLoss s (fun t => t.chip.work.journal = {} ∧ t.dust.keys = [] ∧
      t.dust.store = s.dust.store ∧ t.chip.nums = c.nums)) ∧
    (c.boot.powerLost = false → Leaves .vbakLoss s c) ∧
    (c.work.supervisor.held = [] → Leaves .supervisorRestartDone s
      { c with work := { c.work with supervisor := { c.work.supervisor with restarting := false } } }) ∧
    (∀ p m, c.work.supervisor.held = [(p, m)] → exec .supervisorRestartDone s = .next (serveMsg p m { s with chip :=
      { c with work := { c.work with supervisor := { c.work.supervisor with restarting := false, held := [] } } } })) ∧
    (let recent := c.work.supervisor.restarts.filter (fun t => decide (c.now < t + 60000000000))
     (recent.length < 2 → Completes .supervisorRestart s (fun t => t.chip.work.supervisor.restarting = true ∧
       t.chip.work.supervisor.restarts = c.now :: recent ∧ t.chip.hawk = c.hawk ∧ t.chip.time = c.time)) ∧
     (2 ≤ recent.length → Completes .supervisorRestart s (fun t => t.chip.num Obj.faultLastReset = 3 ∧ t.chip.hawk = {}))) ∧
    Leaves (.crossingDead .other) s (snag 0x0001 0 0xFF c) ∧
    (∀ n : Fin 256, Completes (.crossingDead (.core n)) s (fun t => t.chip.flag (Obj.trowelCoreRetired n.val) = true)) ∧
    Completes (.crossingDead .screed) s (fun t => t.chip.screed.lost = true ∧ t.chip.screed.rets = []) ∧
    (∀ g : Fin 16, Leaves (.crossingDead (.gang g)) s (forEach (gangCores g.val) beginCoreReset (snag 0x0001 g.val 0xFF c)))) ∧
  (∀ (r : Req) (a : Nat) (s : State),
    let c := (judged r.path s).chip
    (Writes r a Obj.resetRequest [1] s → Completes (.warmReset r) s (fun t =>
      t.chip.num Obj.faultLastReset = 1 ∧ t.chip.time.stc = c.time.stc ∧ t.chip.hawk = {} ∧ t.chip.skim = {} ∧ t.chip.mem = [] ∧
      t.chip.work.journal.recs = c.work.journal.recs ∧ t.chip.flashNums = c.flashNums ∧ t.dust = s.dust ∧ t.pending = s.pending)) ∧
    (Writes r a Obj.resetRequest [2] s → Completes (.coldReset r) s (fun t =>
      t.chip.time.stc = 0 ∧ t.chip.hawk = {} ∧ t.chip.skim = {} ∧ t.chip.mem = [] ∧ t.chip.work.journal = {} ∧
      t.chip.flashNums = c.flashNums ∧ t.dust.keys = [] ∧ t.dust.store = s.dust.store ∧ t.pending = s.pending)) ∧
    (∀ gang : Fin 16, Writes r a (Obj.resetGang gang.val) [1] s → Answers (.gangReset r gang) r a (Obj.resetGang gang.val) [1] s
      (forEach (gangCores gang.val) beginCoreReset c) St.ok) ∧
    (∀ core : Fin 256, Writes r a (Obj.resetCore core.val) [1] s → Answers (.coreReset r core) r a (Obj.resetCore core.val) [1] s
      (beginCoreReset core.val c) St.ok) ∧
    (∀ n, ((beginCoreReset n c).core n).inReset = true) ∧
    (∀ t : Fin 16, Writes r a (Obj.faultTenantReplayGo t.val) [1] s →
      (tget .none c.work.journal.replay t.val ≠ .waiting →
        Answers (.replayGo r t) r a (Obj.faultTenantReplayGo t.val) [1] s c St.busy) ∧
      (tget .none c.work.journal.replay t.val = .waiting → c.work.journal.toReplay = [] →
        Answers (.replayGo r t) r a (Obj.faultTenantReplayGo t.val) [1] s
          (writeControl false (modJournal (fun j => { j with replay := tset .none j.replay t.val .done }) c)) St.ok))) ∧
  (∀ (n : Fin 256) (table : List Byte) (s : State),
    let c := s.chip
    ((c.core n.val).inReset = false → Leaves (.gangResetDone false n table) s c) ∧
    ((c.core n.val).inReset = true → c.coreVoices n.val = [] → Completes (.gangResetDone false n table) s (fun t =>
      (t.chip.core n.val).inReset = false ∧ (∀ a, memLocal n.val 0 ≤ a → a < memLocal n.val 0x14000 → t.chip.byte a = 0) ∧
      (∀ a, a < memLocal n.val 0 ∨ memLocal n.val 0x14000 ≤ a → t.chip.byte a = c.byte a))) ∧
    ((∀ k ∈ gangCores (n.val % 16), (c.core k).inReset = false) → Leaves (.gangResetDone true n table) s c))

/-- R386 to R390, R392, R400, R408, R416, R488, R489: tenants that are enabled and reset, queues that are enabled, disabled and halted,
prefetch, dispatch, and the coalescing timer. -/
def Obligations.TenantsAndQueues : Prop :=
  (∀ (r : Req) (a : Nat) (t : Fin 16) (on : Bool) (s : State),
    let c := (judged r.path s).chip
    (Writes r a (Obj.tenantEnable t.val) [1] s → Answers (.tenantEnable r t true) r a (Obj.tenantEnable t.val) [1] s
      (setNum (Obj.tenantEnable t.val) 1 c) St.ok) ∧
    (Writes r a (Obj.tenantEnable t.val) [0] s →
      (t = 0 → Answers (.tenantEnable r t false) r a (Obj.tenantEnable t.val) [0] s c St.refused) ∧
      (t ≠ 0 → tenantOwns c t.val = true ∨ (∃ q, q < 28 ∧ (c.queue (32 * t.val + q)).state ≠ .disabled) →
        Answers (.tenantEnable r t false) r a (Obj.tenantEnable t.val) [0] s c St.busy) ∧
      (t ≠ 0 → tenantOwns c t.val = false → (∀ q, q < 28 → (c.queue (32 * t.val + q)).state = .disabled) →
        Answers (.tenantEnable r t false) r a (Obj.tenantEnable t.val) [0] s (setNum (Obj.tenantEnable t.val) 0 c) St.ok)) ∧
    (Writes r a (Obj.tenantReset t.val) [1] s →
      Answers (.tenantReset r t) r a (Obj.tenantReset t.val) [1] s (startTenantReset t.val false c) St.ok) ∧
    (Writes r a (Obj.tenantReset t.val) [2] s →
      Answers (.resetWithDiscard r t) r a (Obj.tenantReset t.val) [2] s (startTenantReset t.val true c) St.ok) ∧
    (∀ f, r.path = .bar f → s.chip.hasFunction f.val = true →
      Leaves (.tenantReset r t) s (startTenantReset f.val false s.chip) ∧
      Leaves (.resetWithDiscard r t) s (startTenantReset f.val true s.chip)) ∧
    ((c.tenant t.val).resetting = true → startTenantReset t.val on c = c)) ∧
  (∀ (t : Fin 16) (on : Bool) (s : State),
    let c := s.chip
    (c.hasFunction t.val = false → Leaves (.flr t) s c) ∧
    (c.hasFunction t.val = true → Leaves (.flr t) s
      (startTenantReset t.val false (modTenant t.val (fun x => { x with inFlr := true }) c))) ∧
    ((c.tenant t.val).resetting = false → Leaves (.resetDone t) s c) ∧
    ((c.tenant t.val).resetting = true → Completes (.resetDone t) s (fun u =>
      (u.chip.tenant t.val).resetting = false ∧ (u.chip.tenant t.val).inFlr = false ∧
      bit (u.chip.tenant t.val).evtStatus 35 = true ∧ u.chip.mem = c.mem)) ∧
    (t.val = 0 → Leaves (.vfEnable t on) s c) ∧
    (t.val ≠ 0 → Leaves (.vfEnable t on) s (modTenant t.val (fun x => { x with vfEnabled := on }) c))) ∧
  (∀ s : State,
    let c := s.chip
    (c.work.queues = [] → Leaves .linkDown s c) ∧
    (∀ i q, c.work.queues = [(i, q)] → i < 512 → i % 32 < 28 → c.hasFunction (i / 32) = true → q.state ≠ .disabled →
      Completes .linkDown s (fun u => (u.chip.queue i).state = .halted ∧ (u.chip.queue i).error = .linkDown ∧
        (u.chip.queue i).prefetch = [] ∧ (u.chip.queue i).head = q.head ∧ (u.chip.queue i).tail = q.tail))) ∧
  (∀ (t : Fin 16) (q : Fin 28) (s : State),
    let c := s.chip
    let i := 32 * t.val + q.val
    ((c.queue i).state ≠ .running → Leaves (.dmaError t q) s c) ∧
    ((c.queue i).state = .running → Completes (.dmaError t q) s (fun u => (u.chip.queue i).state = .halted ∧
      (u.chip.queue i).error = .dmaError ∧ (u.chip.queue i).head = (c.queue i).head ∧ (u.chip.queue i).tail = (c.queue i).tail))) ∧
  (∀ (r : Req) (a : Nat) (q : Fin 512) (fields : BitVec 31) (v : BitVec 32) (s : State),
    let c := (judged r.path s).chip
    let i := q.val
    let o := Obj.queueConfig i
    let w := 0x80000000 + fields.toNat
    (Writes r a o (leBytes 4 w) s → queueMay c r.path a i = true → i % 32 < 28 →
      (cfgBusy c r.path i w = true → Answers (.queueEnable r q fields) r a o (leBytes 4 w) s c St.busy) ∧
      (cfgBusy c r.path i w = false → Answers (.queueEnable r q fields) r a o (leBytes 4 w) s (queueEnable i w c) St.ok)) ∧
    (∀ f, r.path = .bar f → s.chip.hasFunction f.val = true → f.val = i / 32 → i % 32 < 28 →
      s.chip.may 0x16 i (0x10 + f.val) 1 = true → barRegister f.val o = true →
      Leaves (.queueEnable r q fields) s (queueEnable i w s.chip) ∧
      Leaves (.queueDisable r q fields) s (queueDisable i fields.toNat s.chip)) ∧
    (16 ≤ i % 32 → i % 32 < 28 → (c.queue i).state = .disabled →
      let x : Queue := { c.queue i with cfg := (w ||| 0x80000000) &&& cfgFields }
      let d := modQueue i (fun _ => x) c
      (badConfig d i x = true → ((queueEnable i w c).queue i).state = .halted ∧ ((queueEnable i w c).queue i).error = .badConfig) ∧
      (badConfig d i x = false → overHostQuota d i x = true →
        ((queueEnable i w c).queue i).state = .halted ∧ ((queueEnable i w c).queue i).error = .quota) ∧
      (badConfig d i x = false → overHostQuota d i x = false →
        ((queueEnable i w c).queue i).state = .running ∧ ((queueEnable i w c).queue i).phase = true)) ∧
    (Writes r a o (leBytes 4 fields.toNat) s → queueMay c r.path a i = true → i % 32 < 28 →
      (cfgBusy c r.path i fields.toNat = true → Answers (.queueDisable r q fields) r a o (leBytes 4 fields.toNat) s c St.busy) ∧
      (cfgBusy c r.path i fields.toNat = false →
        Answers (.queueDisable r q fields) r a o (leBytes 4 fields.toNat) s (queueDisable i fields.toNat c) St.ok)) ∧
    (((queueDisable i w c).queue i).state = .disabled ∧ ((queueDisable i w c).queue i).head = 0 ∧
      ((queueDisable i w c).queue i).tail = 0 ∧ ((queueDisable i w c).queue i).prefetch = [] ∧
      ((queueDisable i w c).queue i).seq = (c.queue i).seq) ∧
    (Writes r a (Obj.queueSeq i) (leBytes 4 v.toNat) s →
      (queueMay c r.path a i = false → Answers (.queueSeq r q v) r a (Obj.queueSeq i) (leBytes 4 v.toNat) s c St.noAccess) ∧
      (queueMay c r.path a i = true → i % 32 < 28 → (c.queue i).state ≠ .disabled →
        Answers (.queueSeq r q v) r a (Obj.queueSeq i) (leBytes 4 v.toNat) s c St.busy) ∧
      (queueMay c r.path a i = true → 8 ≤ i % 32 → i % 32 < 28 → (c.queue i).state = .disabled →
        Answers (.queueSeq r q v) r a (Obj.queueSeq i) (leBytes 4 v.toNat) s (modQueue i (fun q => { q with seq := v.toNat }) c) St.ok) ∧
      (queueMay c r.path a i = true → i % 32 < 8 → (c.queue i).state = .disabled →
        Answers (.queueSeq r q v) r a (Obj.queueSeq i) (leBytes 4 v.toNat) s
          (modJournal (fun j => { j with expected := tset 0 j.expected (8 * (i / 32) + i % 32) v.toNat })
            (modQueue i (fun q => { q with seq := v.toNat }) c)) St.ok))) ∧
  (∀ (t : Fin 16) (q : Fin 8) (s : State),
    let c := s.chip
    let i := 32 * t.val + q.val
    let n := 32 * t.val + 8 + q.val
    (∀ fetched, (c.queue i).state ≠ .running ∨ c.isBound i = true → Leaves (.prefetch t q fetched) s c) ∧
    (∀ e, (c.queue i).state = .running → c.isBound i = false → c.hasFunction t.val = true → (c.queue i).outstanding ≠ 0 →
      (c.queue i).prefetch.length < 8 → Leaves (.prefetch t q [e]) s (modQueue i (fun x =>
        { x with prefetch := x.prefetch ++ [slice e 0 32], head := (x.head + 1) % x.size }) c)) ∧
    ((c.queue n).unsignalledAt = none → Leaves (.coalTime t q) s c) ∧
    (∀ at_, (c.queue n).unsignalledAt = some at_ → bits (c.queue n).bind 15 0 ≠ 0 → at_ + bits (c.queue n).bind 15 0 * 1000 ≤ c.now →
      Completes (.coalTime t q) s (fun u => (u.chip.queue n).unsignalled = 0 ∧ (u.chip.queue n).unsignalledAt = none ∧
        bit (u.chip.tenant t.val).evtStatus (8 + q.val) = true)) ∧
    (∀ at_, (c.queue n).unsignalledAt = some at_ → c.now < at_ + bits (c.queue n).bind 15 0 * 1000 → Leaves (.coalTime t q) s c)) ∧
  (∀ (fails : Nat) (s : State),
    let c := s.chip
    (c.chooseEsq = none → Leaves (.dispatch fails) s c) ∧
    (∀ t q p, c.chooseEsq = some (t, q, p) →
      let e := c.nextEntry t q
      let d := servedEsq t q p (modQueue (qix t q) (fun x =>
        if x.made.isEmpty then { x with prefetch := x.prefetch.tail } else { x with made := x.made.tail }) c)
      let st := entryStatus d t q e
      (st ≠ 0 → Leaves (.dispatch fails) s (rejectEntry t q st e d)) ∧
      (∀ x, st = 0 → placeRecord fails 0 d = (none, x) → Leaves (.dispatch fails) s (rejectEntry t q 8 e x)) ∧
      (∀ place x, st = 0 → placeRecord fails 0 d = (some place, x) → Leaves (.dispatch fails) s (acceptEntry t q place e x))))

/-- R395: what a doorbell does to a ring that runs, for the rings a tenant produces and for those the chip produces. -/
def Obligations.Doorbells : Prop :=
  ∀ (t : Fin 16) (q : Fin 28) (v : BitVec 32) (s : State),
    let c := s.chip
    let i := 32 * t.val + q.val
    let x := c.queue i
    let produced := q.val < 8 ∨ (16 ≤ q.val ∧ q.val < 20)
    let halts := Completes (.doorbell t q v) s (fun u => (u.chip.queue i).state = .halted ∧
      (u.chip.queue i).error = .badDoorbell ∧ (u.chip.queue i).head = x.head ∧ (u.chip.queue i).tail = x.tail)
    c.hasFunction t.val = true → c.may 0x16 i (0x10 + t.val) 1 = true → c.isBound i = false →
    x.head < x.size → x.tail < x.size →
    (x.state ≠ .running → Leaves (.doorbell t q v) s c) ∧
    (x.state = .running → x.size ≤ v.toNat → halts) ∧
    (x.state = .running → v.toNat < x.size → produced →
      let added := (v.toNat + x.size - x.tail) % x.size
      (x.size - 1 < (x.tail + x.size - x.head) % x.size + added → halts) ∧
      ((x.tail + x.size - x.head) % x.size + added ≤ x.size - 1 → Leaves (.doorbell t q v) s
        (modQueue i (fun x => { x with tail := v.toNat }) c))) ∧
    (x.state = .running → v.toNat < x.size → ¬ produced →
      let back := (v.toNat + x.size - x.head) % x.size
      ((x.tail + x.size - x.head) % x.size < back → halts) ∧
      (back ≤ (x.tail + x.size - x.head) % x.size → 16 ≤ q.val → Leaves (.doorbell t q v) s
        (modQueue i (fun x => { x with head := v.toNat }) c)) ∧
      (back ≤ (x.tail + x.size - x.head) % x.size → q.val < 16 → Leaves (.doorbell t q v) s
        (nqRoom i (modQueue i (fun x => { x with head := v.toNat }) c)))) ∧
    (x.state = .running → produced → v.toNat = x.tail → Completes (.doorbell t q v) s (fun u =>
      (∀ j, u.chip.queue j = c.queue j) ∧ u.chip.work.tenants = c.work.tenants ∧ u.chip.mem = c.mem ∧ u.chip.nums = c.nums))

/-- R391, R407 to R409, R411 to R415, R455: BAR0 reads and writes of event registers and the STC, mailboxes, and the access tables. -/
def Obligations.RegistersMailboxesAndTables : Prop :=
  (∀ (t : Fin 16) (frac : Byte) (w : Fin 4) (v : BitVec 32) (s : State),
    let c := s.chip
    (c.hasFunction t.val = false → Leaves (.stcLoRead t frac) s c ∧ Leaves (.evtStatusClear t w v) s c ∧ Leaves (.evtEnable t w v) s c) ∧
    (c.hasFunction t.val = true →
      Completes (.stcLoRead t frac) s (fun u => u.chip.out = c.out ++ [.reg t.val 0x10 (c.time.stc % 2 ^ 32)] ∧
        (u.chip.tenant t.val).stcHi = c.time.stc / 2 ^ 32 % 2 ^ 32 ∧ (u.chip.tenant t.val).stcFrac = frac.toNat ∧
        (∀ n, n ≠ t.val → u.chip.tenant n = c.tenant n)) ∧
      Completes (.evtStatusClear t w v) s (fun u => ∀ k, bit (u.chip.tenant t.val).evtStatus k =
        (bit (c.tenant t.val).evtStatus k && !(decide (32 * w.val ≤ k) && decide (k < 32 * w.val + 32) && v.getLsbD (k - 32 * w.val)))) ∧
      Completes (.evtEnable t w v) s (fun u => ∀ k, k < 128 → (c.tenant t.val).evtEnable < 2 ^ 128 →
        bit (u.chip.tenant t.val).evtEnable k =
          (if 32 * w.val ≤ k ∧ k < 32 * w.val + 32 then v.getLsbD (k - 32 * w.val) else bit (c.tenant t.val).evtEnable k)))) ∧
  (∀ (r : Req) (t : Fin 16) (a : Nat) (s : State),
    let m := readMsg r (Obj.tenantEventsPending t.val) 0
    let c := (judged r.path s).chip
    Reaches r.path m s → actingMaster s.chip r.path = some a →
    (c.may 0x01 0x10 a 0 = false → exec (.pendingRead r t) s = .next { s with chip := respond r.path m (some a) { status := St.noAccess } c }) ∧
    (c.may 0x01 0x10 a 0 = true →
      let reply : Reply := { status := St.ok, data := leBytes 16 (c.tenant t.val).evtStatus }
      let cleared := modTenant t.val (fun x => { x with evtStatus := 0 }) c
      exec (.pendingRead r t) s = .next { s with chip := respond r.path m (some a) reply cleared })) ∧
  (∀ (t : Fin 16) (m : Fin 4) (tag : BitVec 32) (request : List Byte) (s : State),
    let c := s.chip
    let i := 4 * t.val + m.val
    let x : Mailbox := tget {} c.work.mailboxes i
    (x.state ≠ .idle → Leaves (.mailboxDoorbell t m tag request) s c) ∧
    (x.state = .idle → c.tenantState t.val = .active → Completes (.mailboxDoorbell t m tag request) s (fun u =>
      tget {} u.chip.work.mailboxes i = { x with state := .request, tag := tag.toNat, length := request.length, request := request.take 2032 } ∧
      u.chip.work.mailOrder = c.work.mailOrder ++ [i] ∧ ⟨6, 0x10 + t.val, i, noTerm⟩ ∈ u.chip.work.leases)) ∧
    (x.state = .busy → Leaves (.mailboxWithdraw t m) s c) ∧
    (x.state ≠ .busy → Completes (.mailboxWithdraw t m) s (fun u =>
      (tget ({} : Mailbox) u.chip.work.mailboxes i).state = .idle ∧ i ∉ u.chip.work.mailOrder)) ∧
    (c.work.mailOrder = [] ∨ c.work.supervisor.restarting = true → Leaves .mailboxTake s c) ∧
    (∀ rest, c.work.supervisor.restarting = false → c.work.mailOrder = i :: rest → exec .mailboxTake s =
      .next (serveMsg (.mailbox t m) (parseMsg (x.request.take x.length) false)
        { s with chip := modWork (fun w => { w with mailOrder := rest }) (modMail i (fun x => { x with state := .busy }) c) }))) ∧
  (∀ (r : Req) (a : Nat) (store : Bool) (s : State),
    let c := (judged r.path s).chip
    let k := c.num Obj.accessKind
    let first := c.num Obj.accessFirst
    let count := c.num Obj.accessCount
    let data : List Byte := [if store then 2 else 1]
    let command : Instr := if store then .accessApplyStore r else .accessApply r
    let applied := applyAccess c store k first count (slice c.work.accessStaged 0 128)
    Writes r a Obj.accessWrite data s →
    (k = 0 ∨ accessUnits k < first + count ∨ count = 0 →
      Answers command r a Obj.accessWrite data s (setNum Obj.accessResult 2 c) St.badValue) ∧
    (0 < k → first + count ≤ accessUnits k → 0 < count → (∃ j, j < count ∧ c.may k (first + j) a 3 = false) →
      Answers command r a Obj.accessWrite data s (setNum Obj.accessResult 6 c) St.noAccess) ∧
    (0 < k → k ≠ 6 → k ≠ 7 → first + count ≤ accessUnits k → 0 < count → (∀ j, j < count → c.may k (first + j) a 3 = true) →
      Answers command r a Obj.accessWrite data s (setNum Obj.accessResult 0 applied) St.ok) ∧
    (∀ unit master right, accessConst k master = true → applied.may k unit master right = c.may k unit master right) ∧
    (∀ kind unit master right, kind ≠ k → unit < 65536 → first + count ≤ 65536 →
      applied.may kind unit master right = c.may kind unit master right))

/-- R137, R437 to R442: the frames of CAN slots and controllers, bus errors, bus-off and its recovery, collisions, aborts and modes. -/
def Obligations.CanControllers : Prop :=
  (∀ (slot : Fin 128) (s : State),
    let c := s.chip
    let u := slot.val
    let h := c.num (Obj.stippleCanHeartbeat u)
    (c.time.stc % c.bsize ≠ 0 ∨ c.num (Obj.canSlotEnable u) = 0 ∨ h = 0 ∨ c.now < (c.slot u).lastAt + h * 1000000 ∨
      c.slotValue u = none → Leaves (.canHeartbeat slot) s c) ∧
    (∀ v, c.time.stc % c.bsize = 0 → c.num (Obj.canSlotEnable u) ≠ 0 → h ≠ 0 → (c.slot u).lastAt + h * 1000000 ≤ c.now →
      c.slotValue u = some v → Leaves (.canHeartbeat slot) s (queueSlot u v c))) ∧
  (∀ (k : Fin 2) (s : State),
    let c := s.chip
    let x := c.ctl k.val
    (canSends c k.val = false ∨ c.headFrame k.val = none → Leaves (.canFrameSent k) s c ∧ Leaves (.collision k) s c) ∧
    (∀ i f, canSends c k.val = true → c.headFrame k.val = some (i, f) → f.slot = none → f.late = false →
      Completes (.canFrameSent k) s (fun t => (t.chip.ctl k.val).queue = x.queue.eraseIdx i ∧
        (t.chip.ctl k.val).tec = x.tec - 1 ∧ (t.chip.ctl k.val).rec_ = x.rec_ ∧
        t.chip.num (Obj.canCountersTxFrames k.val) =
          satAdd (8 * objWidth (Obj.canCountersTxFrames k.val)) (c.num (Obj.canCountersTxFrames k.val)) 1)) ∧
    (∀ i f u, canSends c k.val = true → c.headFrame k.val = some (i, f) → f.slot = some u → (c.slot u).next = none → u < 128 →
      Completes (.canFrameSent k) s (fun t => (t.chip.ctl k.val).queue = x.queue.eraseIdx i ∧
        t.chip.num (Obj.canSlotLastStatus u) = (if f.late then 3 else 1) ∧ (t.chip.slot u).lastAt = c.now ∧
        (t.chip.slot u).last = some (sfield f.data 0 2))) ∧
    (∀ tx dominant, canSends c k.val = false → Leaves (.canBusError k tx dominant) s c) ∧
    (∀ dominant, canSends c k.val = true → Leaves (.canBusError k false dominant) s
      (setCounts k.val x.tec (x.rec_ + if dominant then 8 else 1) c)) ∧
    (∀ i f dominant, canSends c k.val = true → c.headFrame k.val = some (i, f) → f.late = false → x.tec + 8 ≤ 255 →
      Leaves (.canBusError k true dominant) s
        (setCounts k.val (x.tec + 8) x.rec_ (putFrame k.val i (some { f with phase := .waiting }) c))) ∧
    (∀ dominant, canSends c k.val = true → 255 < x.tec + 8 → x.busOffs = [] →
      Completes (.canBusError k true dominant) s (fun t => t.chip.num (Obj.canState k.val) = 3 ∧ (t.chip.ctl k.val).queue = [] ∧
        (t.chip.ctl k.val).busOffs = [c.now])) ∧
    (c.num (Obj.canState k.val) = 3 → Completes (.busOffRecovery k) s (fun t => t.chip.num (Obj.canState k.val) = 1 ∧
      (t.chip.ctl k.val).tec = 0 ∧ (t.chip.ctl k.val).rec_ = 0 ∧ (t.chip.ctl k.val).queue = x.queue)) ∧
    (c.num (Obj.canState k.val) ≠ 3 → Leaves (.busOffRecovery k) s c) ∧
    (∀ i f, canSends c k.val = true → c.headFrame k.val = some (i, f) → f.late = false → x.tec + 8 ≤ 127 → x.rec_ ≤ 127 →
      x.collisions = [] → Completes (.collision k) s (fun t => (t.chip.ctl k.val).collisions = [(f.shownId, c.now)] ∧
        t.chip.num (Obj.canState k.val) ≠ 4 ∧ (t.chip.ctl k.val).tec = x.tec + 8)) ∧
    (∀ i f, canSends c k.val = true → c.headFrame k.val = some (i, f) → f.late = false → x.tec + 8 ≤ 127 → x.rec_ ≤ 127 →
      x.collisions = [(f.shownId, c.now), (f.shownId, c.now)] → Completes (.collision k) s (fun t =>
        t.chip.num (Obj.canState k.val) = 4 ∧ t.chip.num (Obj.canConflictId k.val) = f.shownId % 2 ^ 32 ∧
        (t.chip.ctl k.val).queue = []))) ∧
  (∀ (r : Req) (a : Nat) (k : Fin 2) (slot : Fin 128) (mode : Fin 3) (s : State),
    let c := (judged r.path s).chip
    let u := slot.val
    (Writes r a (Obj.canAbort k.val) [1] s → Answers (.canAbort r k) r a (Obj.canAbort k.val) [1] s
      (abortFrames k.val (fun _ => true) c) St.ok) ∧
    (Writes r a (Obj.canSlotEnable u) [1] s → Answers (.slotEnable r slot true) r a (Obj.canSlotEnable u) [1] s
      (setNum (Obj.canSlotEnable u) 1 c) St.ok) ∧
    (Writes r a (Obj.canSlotEnable u) [0] s → Answers (.slotEnable r slot false) r a (Obj.canSlotEnable u) [0] s
      (modSlot u (fun x => { x with next := none }) (abortFrames 1 (fun f => f.slot == some u)
        (abortFrames 0 (fun f => f.slot == some u) (setNum (Obj.canSlotEnable u) 0 c)))) St.ok) ∧
    (Writes r a (Obj.canRestart k.val) [1] s →
      (c.num (Obj.canState k.val) = 4 → Answers (.canRestart r k) r a (Obj.canRestart k.val) [1] s (enterMode k.val c) St.ok) ∧
      (c.num (Obj.canState k.val) ≠ 4 → Answers (.canRestart r k) r a (Obj.canRestart k.val) [1] s c St.ok)) ∧
    (Writes r a (Obj.canMode k.val) [BitVec.ofNat 8 mode.val] s → c.num Obj.canRedundancy ≠ 1 →
      let d := setNum (Obj.canMode k.val) mode.val c
      let st := c.num (Obj.canState k.val)
      (st = 5 → Answers (.canMode r k mode) r a (Obj.canMode k.val) [BitVec.ofNat 8 mode.val] s d St.ok) ∧
      (st ≠ 5 → mode = 0 → Answers (.canMode r k mode) r a (Obj.canMode k.val) [BitVec.ofNat 8 mode.val] s
        (setNum (Obj.canState k.val) 0 (discardQueue k.val d)) St.ok) ∧
      (st = 0 ∨ st = 4 → mode ≠ 0 → Answers (.canMode r k mode) r a (Obj.canMode k.val) [BitVec.ofNat 8 mode.val] s
        (enterMode k.val d) St.ok)) ∧
    (Writes r a (Obj.canRetired k.val) [0] s →
      (c.num (Obj.canState k.val) = 5 → Answers (.canReinstate r k) r a (Obj.canRetired k.val) [0] s
        (enterMode k.val (modCtl k.val (fun x => { x with busOffs := [] }) (setNum (Obj.canRetired k.val) 0 c))) St.ok) ∧
      (c.num (Obj.canState k.val) ≠ 5 → Answers (.canReinstate r k) r a (Obj.canRetired k.val) [0] s c St.ok)) ∧
    (∀ c : Chip, ((enterMode k.val c).ctl k.val).queue = [] ∧ ((enterMode k.val c).ctl k.val).tec = 0 ∧
      (enterMode k.val c).num (Obj.canState k.val) =
        (if c.num (Obj.canMode (canCfg c k.val)) = 1 then 1 else if c.num (Obj.canMode (canCfg c k.val)) = 2 then 6 else 0)))

/-- R391, R418 to R420, R424, R426 to R428, R431: the services of the dictionary by message: reads and writes and what refuses them,
sessions, queue services, identity and PING. -/
def Obligations.DictionaryServices : Prop :=
  (∀ (r : Req) (object offset : BitVec 32) (dst : Byte) (data : List Byte) (s : State),
    let p := r.path
    let who := actingMaster s.chip p
    let j := judged p s
    let c := j.chip
    let o := object.toNat
    let ask (op : BitVec 8) (object offset : BitVec 32) (data : List Byte) : Msg := request r op object offset dst data
    c.boot.due = none →
    (Reaches p (ask 10 0 0 data) s → Replies (.ndpPing r dst data) p (ask 10 0 0 data) s j { status := St.ok, data := data }) ∧
    (Reaches p (ask 7 0 0 []) s → Replies (.ndpIdentify r dst) p (ask 7 0 0 []) s j { status := St.ok, data := identity c }) ∧
    (let m := ask 1 object offset []
     Reaches p m s →
      (objFind o = none → objIndexAssigned o = false → Replies (.ndpRead r object offset dst) p m s j { status := St.noObject }) ∧
      (objFind o = none → objIndexAssigned o = true → Replies (.ndpRead r object offset dst) p m s j { status := St.noSubindex }) ∧
      (∀ d, objFind o = some d → offset = 0 → mayReadArea c who o = false →
        Replies (.ndpRead r object offset dst) p m s j { status := St.noAccess }) ∧
      (∀ d, objFind o = some d → offset = 0 → mayReadArea c who o = true → d.acc = .wo →
        Replies (.ndpRead r object offset dst) p m s j { status := St.writeOnly }) ∧
      (∀ d w sg, objFind o = some d → d.kind = .num w sg → offset ≠ 0 →
        Replies (.ndpRead r object offset dst) p m s j { status := St.badRequest }) ∧
      (∀ d w sg, objFind o = some d → d.kind = .num w sg → offset = 0 → d.acc ≠ .wo → mayReadArea c who o = true →
        objAreaOf o = 0x30 → w ≤ 8 → Replies (.ndpRead r object offset dst) p m s j { status := St.ok, data := leBytes w (numValue j o) })) ∧
    (let m := ask 2 object 0 data
     Reaches p m s → isScope o = false → o ≠ Obj.plumbTempoGo →
      (∀ st, writeTarget c who o = .error st → Replies (.ndpWrite r object dst data) p m s j { status := st }) ∧
      (∀ d, writeTarget c who o = .ok d → valueStatus d data ≠ St.ok →
        Replies (.ndpWrite r object dst data) p m s j { status := valueStatus d data }) ∧
      (∀ d, writeTarget c who o = .ok d → valueStatus d data = St.ok →
        let x := objectAction p o data (who.getD 0) j
        let w : FlashWrite := { path := p, txn := r.txn.toNat, op := 2, object := o, offset := 0, length := data.length,
                                master := who, data := data }
        (isStored o = false ∨ x.2 ≠ St.ok → exec (.ndpWrite r object dst data) s =
          .next (finishReset { x.1 with chip := respond p m who { status := x.2 } x.1.chip })) ∧
        (isStored o = true → x.2 = St.ok → exec (.ndpWrite r object dst data) s =
          .next (finishReset { x.1 with chip := { x.1.chip with flashPending := x.1.chip.flashPending ++ [w] } }))))) ∧
  (∀ (r : Req) (object offset : BitVec 32) (dst : Byte) (data : List Byte) (total crc : BitVec 32) (s : State),
    let p := r.path
    let who := actingMaster s.chip p
    let j := judged p s
    let c := j.chip
    let ask (op : BitVec 8) (offset : BitVec 32) (data : List Byte) : Msg := request r op object offset dst data
    let opened : Session := { path := p, master := who, txn := r.txn.toNat, object := object.toNat, total := total.toNat, data := [],
                              lastOffset := 0, lastLength := 0, at_ := c.now, expiry := c.time.stc + c.fs, ended := .isOpen }
    c.boot.due = none →
    (let m := ask 3 0 (leBytes 4 total.toNat)
     Reaches p m s →
      (∀ d, writeTarget c who object.toNat = .ok d → lengthStatus d total.toNat = St.ok →
        (c.work.sessions.filter (fun x => x.ended == .isOpen)).length < 16 →
        Completes (.writeBegin r object dst total) s (fun t => opened ∈ t.chip.work.sessions ∧ t.chip.time = c.time ∧ t.dust = s.dust)) ∧
      (∀ d, writeTarget c who object.toNat = .ok d → lengthStatus d total.toNat ≠ St.ok →
        Replies (.writeBegin r object dst total) p m s j { status := St.badLength }) ∧
      (∀ d, writeTarget c who object.toNat = .ok d → lengthStatus d total.toNat = St.ok →
        16 ≤ (c.work.sessions.filter (fun x => x.ended == .isOpen)).length →
        Replies (.writeBegin r object dst total) p m s j { status := St.busy })) ∧
    (∀ x : Session, x.path = p → x.master = who → x.txn = r.txn.toNat → x.object = object.toNat → who ≠ none →
      c.work.sessions = [x] →
      (InSession p (ask 4 offset data) x s → x.data = [] → offset = 0 → data.length ≤ x.total →
        Completes (.writeData r object offset dst data) s (fun t => t.chip.work.sessions =
          [{ x with at_ := c.now, expiry := c.time.stc + c.fs, data := data, lastOffset := 0, lastLength := data.length }])) ∧
      (InSession p (ask 4 offset data) x s → offset.toNat ≠ x.data.length → x.data = [] →
        Completes (.writeData r object offset dst data) s (fun t =>
          t.chip.work.sessions = [{ x with at_ := c.now, expiry := c.time.stc + c.fs }])) ∧
      (InSession p (ask 6 0 []) x s → Completes (.ndpAbort r object dst) s (fun t =>
        t.chip.work.sessions = [{ x with ended := .closed, at_ := c.now, data := [] }] ∧ t.chip.flashPending = c.flashPending)) ∧
      (InSession p (ask 5 0 (leBytes 4 crc.toNat)) x s →
        (x.data.length < x.total ∨ crc32c x.data ≠ crc.toNat → Completes (.writeEnd r object dst crc) s (fun t =>
          t.chip.work.sessions = [{ x with ended := .closed, at_ := c.now, data := [] }] ∧ t.chip.flashPending = c.flashPending)) ∧
        (x.total ≤ x.data.length → crc32c x.data = crc.toNat →
          let m := ask 5 0 (leBytes 4 crc.toNat)
          let w := writeWhole p m x.data who { j with chip := endSession p who m c }
          (w.2.later = false → exec (.writeEnd r object dst crc) s =
            .next (finishReset { w.1 with chip := respond p m who w.2 w.1.chip })) ∧
          (w.2.later = true → exec (.writeEnd r object dst crc) s = .next (finishReset w.1)))))) ∧
  (∀ (r : Req) (q : Fin 512) (dst : Byte) (data : List Byte) (a : Nat) (s : State),
    let p := r.path
    let j := judged p s
    let c := j.chip
    let i := q.val
    let o := BitVec.ofNat 32 (0x60000000 + 256 * i)
    let put := request r 8 o 0 dst data
    let get := request r 9 o 0 dst []
    let x := c.queue i
    let n := data.length / c.entryBytes i
    c.boot.due = none → actingMaster s.chip p = some a →
    (Reaches p put s →
      (c.may 0x16 i a 1 = false → Replies (.queuePut r q dst data) p put s j { status := St.noAccess }) ∧
      (c.may 0x16 i a 1 = true → c.hasFunction (i / 32) = true → Replies (.queuePut r q dst data) p put s j { status := St.refused }) ∧
      (c.may 0x16 i a 1 = true → c.hasFunction (i / 32) = false → i % 32 < 8 →
        (x.state ≠ .running → Replies (.queuePut r q dst data) p put s j { status := St.queue }) ∧
        (x.state = .running → data.length % 32 ≠ 0 → Replies (.queuePut r q dst data) p put s j { status := St.badLength }) ∧
        (x.state = .running → data.length % 32 = 0 → c.isBound i = false → x.outstanding + n ≤ x.size - 1 →
          Replies (.queuePut r q dst data) p put s { j with chip := appendEntries i 32 n data c } { status := St.ok }) ∧
        (x.state = .running → data.length % 32 = 0 → x.size - 1 < x.outstanding + n →
          Replies (.queuePut r q dst data) p put s j { status := St.queue }))) ∧
    (Reaches p get s →
      (c.may 0x16 i a 1 = false → Replies (.queueGet r q dst) p get s j { status := St.noAccess }) ∧
      (c.may 0x16 i a 1 = true → i % 32 < 8 → Replies (.queueGet r q dst) p get s j { status := St.refused }) ∧
      (c.may 0x16 i a 1 = true → c.hasFunction (i / 32) = false → 20 ≤ i % 32 → i % 32 < 28 → x.state = .running →
        let k := min x.outstanding (pathLimit p / c.entryBytes i)
        Replies (.queueGet r q dst) p get s { j with chip := (takeEntries i k c).2 }
          { status := St.ok, data := (takeEntries i k c).1, more := decide (k < x.outstanding) })))

/-- R404, R419, R423, R428, R431, R432, R434, R435, R442: NOTIFY messages, sessions and forwarded requests that end by time, flash
records, and Nerlil that arrives by CAN. -/
def Obligations.NoticesAndTimeouts : Prop :=
  (∀ s : State,
    let c := s.chip
    ((∀ t, t < 16 → c.hasFunction t = true ∨ (c.tenant t).evtStatus &&& (c.tenant t).evtEnable = 0) → Leaves .ndpNotify s c) ∧
    (∀ (t : Nat) (e : List Byte), t < 16 → c.hasFunction t = false → (c.tenant t).evtStatus &&& (c.tenant t).evtEnable ≠ 0 →
      (c.tenant t).notifyAt = none → (∀ n, n < 16 → n ≠ t → c.hasFunction n = true ∨ (c.tenant n).evtStatus &&& (c.tenant n).evtEnable = 0) →
      notifyEntry c t = some e → field e 0 1 = 3 → Completes .ndpNotify s (fun u => (u.chip.tenant t).notifyAt = some c.now ∧
        u.chip.out = c.out ++ [.lath 2 5 0 (field e 1 1) 0 ((notifyBytes c t).map BitVec.toNat)])) ∧
    Completes .sessionExpiry s (fun u => u.chip.work.sessions = c.work.sessions.map (fun x =>
      if x.ended = .isOpen ∧ x.expiry < c.time.stc then { x with ended := .expired, at_ := c.now, data := [] } else x) ∧
      u.chip = { c with work := { c.work with sessions := u.chip.work.sessions } }) ∧
    ((∀ x ∈ c.work.awaited, c.now < x.at_ + 200000000) → Leaves .forwardTimeout s c) ∧
    (∀ x, c.work.awaited = [x] → x.at_ + 200000000 ≤ c.now →
      let d := { c with work := { c.work with awaited := [] } }
      Leaves .forwardTimeout s (respond x.path x.msg (actingMaster d x.path) { status := St.timeout } d)) ∧
    (∀ ok, c.flashPending = [] → Leaves (.flashRecordWritten ok) s c) ∧
    (∀ w rest, c.flashPending = w :: rest →
      let d := { c with flashPending := rest }
      Leaves (.flashRecordWritten true) s (respond w.path w.msg w.master { status := St.ok } (recordFlash w d)) ∧
      Leaves (.flashRecordWritten false) s (respond w.path w.msg w.master { status := St.storeFailed } (snag 0x0702 0 0xFF d)))) ∧
  (∀ (k : Fin 2) (f : CanRx) (s : State),
    let c := s.chip
    let st := c.num (Obj.canState k.val)
    let d := frameReceived k.val c
    (st ≠ 1 → st ≠ 2 → st ≠ 6 → Leaves (.canFrameReceived k f) s c) ∧
    (st = 1 ∨ st = 2 ∨ st = 6 → nerlilOf d k.val f = none → Leaves (.canFrameReceived k f) s d) ∧
    (∀ node m, st = 1 ∨ st = 2 ∨ st = 6 → nerlilOf d k.val f = some (node, m) → d.num Obj.canRedundancy ≠ 1 →
      exec (.canFrameReceived k f) s = .next (serveMsg (.can k (BitVec.ofNat 8 node) (f.format.val == 1)) m
        { s with chip := { d with can := { d.can with seen := d.can.seen.filter (fun x => withinSecond d x.2.2.2.2.2) } } })) ∧
    (∀ node m, st = 1 ∨ st = 2 ∨ st = 6 → nerlilOf d k.val f = some (node, m) → seenBefore d node m = true →
      Leaves (.canFrameReceived k f) s d) ∧
    (nerlilOf d k.val { f with remote := true } = none))

/-- R324, R327 to R331, R337, R340 to R346, R348, R351, R359 to R361: codewords, replays and credits, time transfer, heartbeats, the
port's states and its lanes. -/
def Obligations.LathLinks : Prop :=
  (∀ (port : Fin 2) (s : State),
    let c := s.chip
    let p := port.val
    let st := c.portState p
    let x := c.port p
    (∀ cw, st ≠ portAlign → st ≠ portUp → st ≠ portRetrain → Leaves (.codeword port cw) s c) ∧
    (∀ cw, st = portUp → cw.corrected = [] → cw.uncorrectable = true → Leaves (.codeword port cw) s
      (modPort p (fun x => { x with nak := true }) (bump (Obj.lathPortUncorrectable p) c))) ∧
    (∀ cw, st = portUp → cw.corrected = [] → cw.uncorrectable = false → cw.ack.toNat = x.ack → cw.nak = false →
      let ahead := (cw.seq.toNat + 256 - x.expect) % 256
      let flits := takeFlits (slotsOf 20 cw.slots) x.part
      (128 ≤ ahead → Leaves (.codeword port cw) s c) ∧
      (0 < ahead → ahead < 128 → Leaves (.codeword port cw) s (modPort p (fun x => { x with nak := true }) c)) ∧
      (ahead = 0 → flits.1.all flitCrcOk = false → Leaves (.codeword port cw) s
        (modPort p (fun x => { x with nak := true }) (bump (Obj.lathPortUncorrectable p) c))) ∧
      (ahead = 0 → flits.1 = [] → Leaves (.codeword port cw) s
        (modPort p (fun x => { x with expect := (x.expect + 1) % 256, nak := false, part := flits.2 }) c))) ∧
    (st ≠ portUp → Leaves (.replayTimeout port) s c) ∧
    (st = portUp → x.replays = [] → x.resends < 7 → Completes (.replayTimeout port) s (fun t =>
      t.chip.out = c.out ++ [.resend p ((x.ack + 1) % 256)] ∧ t.chip.portState p = portUp ∧ (t.chip.port p).resends = x.resends + 1)) ∧
    (st = portUp → x.resends = 7 → x.retrains = [] → Completes (.replayTimeout port) s (fun t => t.chip.portState p = portRetrain)) ∧
    (∀ (k : Nat) (counts : List (BitVec 16)), 0 < k → k < 6 → counts.length ≤ 6 → Completes (.lathCredit port counts) s (fun t =>
      tget 0 (t.chip.port p).spent k = tget 0 x.spent k - (counts.getD k 0).toNat ∧ t.chip.nums = c.nums ∧ t.chip.out = c.out)) ∧
    (∀ fields residence off, st ≠ portUp ∨ c.isMaster = true → Leaves (.lathSync port fields residence off) s c) ∧
    (∀ fields residence (off : BitVec 32), st = portUp → c.isMaster = false → c.refState = refChain → c.time.chainHoldover = false →
      Completes (.lathSync port fields residence off) s (fun t => t.chip.time.syncAt = c.now ∧
        t.chip.snum 32 Obj.plumbMasterOffsetPs = off.toInt ∧ t.chip.time.stc = c.time.stc ∧
        t.chip.out = (if c.isUp (1 - p) then c.out ++ [.lath (1 - p) 0 0 0xFE 0 [fields.getD 0 0, fields.getD 1 0, fields.getD 2 0,
          ofInt 64 (toSigned 64 (fields.getD 3 0) + c.delayToward p + residence.toNat), fields.getD 4 0, (fields.getD 5 0 + 1) % 256]]
          else c.out))) ∧
    (∀ seq t2 t3, st ≠ portUp → Leaves (.pdelayReq port seq t2 t3) s c) ∧
    (∀ seq t2 t3, st = portUp → Leaves (.pdelayReq port seq t2 t3) s
      (emit (.lath p 0 2 0xFE 0 [seq.toNat, t2.toNat, t3.toNat]) c)) ∧
    (∀ t1, st = portUp → Leaves (.pdelayTimer port t1) s (modPort p
      (fun y => { y with delaySeq := (x.delaySeq + 1) % 65536, delayAsked := some (x.delaySeq, t1.toNat) })
      (emit (.lath p 0 1 0xFE 0 [x.delaySeq]) c))) ∧
    (∀ t1, st ≠ portUp → Leaves (.pdelayTimer port t1) s c) ∧
    (∀ seq t2 t3 t4, x.delayAsked = none → Leaves (.pdelayResp port seq t2 t3 t4) s c) ∧
    (∀ (seq : BitVec 16) (t2 t3 t4 : BitVec 64) t1, x.delayAsked = some (seq.toNat, t1) →
      Completes (.pdelayResp port seq t2 t3 t4) s (fun t => (t.chip.port p).delayAsked = none ∧ (t.chip.port p).delays =
        (((((t4.toNat : Int) - t1) - ((t3.toNat : Int) - t2.toNat)) / 2).toNat :: x.delays).take 16)) ∧
    (∀ role version width serial, st ≠ portAlign → st ≠ portUp → Leaves (.lathHello port role version width serial) s c) ∧
    (∀ role version width serial, st = portAlign ∨ (st = portUp ∧ x.peer = none) →
      let h : Hello := { role := role.toNat, version := version.toNat, width := width.toNat, serial := slice serial 0 16 }
      Leaves (.lathHello port role version width serial) s
        (setBlob (Obj.lathPortPeerSerial p) (slice serial 0 16) (modPort p (fun y => { y with peer := some h }) c))) ∧
    (st ≠ portAlign → st ≠ portUp → Leaves (.helloTimer port) s c) ∧
    (st = portAlign ∨ st = portUp → Leaves (.helloTimer port) s (emit (.lath p 0 3 0xFE 0
      ([p, 1, c.num (Obj.lathPortWidth p)] ++ Config.serial.map BitVec.toNat)) c)) ∧
    (∀ fields, st ≠ portUp → Leaves (.heartbeat port fields) s c) ∧
    (∀ n fields, st = portUp → c.neighbourOf p = some n → fields.headD 0 = n → bit (fields.getD 2 0) 0 = true →
      bit (fields.getD 2 0) 1 = false → Leaves (.heartbeat port fields) s (modPort p (fun x => { x with heard := c.now, idleBeats := 0 }) c)) ∧
    (c.now < x.heard + c.num Obj.chainHeartbeatMiss * 100000 → Leaves (.heartbeatMiss port) s c) ∧
    (x.heard + c.num Obj.chainHeartbeatMiss * 100000 ≤ c.now → Leaves (.heartbeatMiss port) s (declareLost p c)) ∧
    (st ≠ portDetect → Leaves (.signalDetected port) s c) ∧
    (st = portDetect → Leaves (.signalDetected port) s (setNum (Obj.lathPortState p) portTrain c)) ∧
    (st ≠ portTrain → Leaves (.trainTimeout port) s c) ∧
    (st = portTrain → Completes (.trainTimeout port) s (fun t => t.chip.portState p = portDetect ∧
      (t.chip.port p).failedTrainings = x.failedTrainings + 1)) ∧
    (∀ lanes : BitVec 4, st ≠ portTrain ∨ c.usable p lanes.toNat = 0 → Leaves (.lanesLock port lanes) s c) ∧
    (∀ lanes : BitVec 4, st = portTrain → 0 < c.usable p lanes.toNat → Completes (.lanesLock port lanes) s (fun t =>
      t.chip.portState p = portAlign ∧ t.chip.num (Obj.lathPortWidth p) = widthFor (c.usable p lanes.toNat) ∧
      (t.chip.port p).expect = 0 ∧ (t.chip.port p).ack = 255 ∧ (t.chip.port p).peer = none)) ∧
    (st ≠ portAlign ∨ x.peer = none → Leaves (.alignLock port) s c) ∧
    (∀ h, st = portAlign → x.peer = some h →
      (h.version ≠ 1 → Completes (.alignLock port) s (fun t => t.chip.portState p = portMiswired ∧ t.chip.num (Obj.lathPortCause p) = 5)) ∧
      (h.version = 1 → h.role = p →
        Completes (.alignLock port) s (fun t => t.chip.portState p = portMiswired ∧ t.chip.num (Obj.lathPortCause p) = 4)) ∧
      (h.version = 1 → h.role ≠ p → Completes (.alignLock port) s (fun t => t.chip.portState p = portUp ∧
        t.chip.num (Obj.lathPortAdmit p) = 0 ∧ t.chip.chain.censusOn = true))) ∧
    (∀ lane, st ≠ portUp → st ≠ portRetrain → Leaves (.laneFailure port lane) s c) ∧
    (∀ lane : Fin 4, st = portUp → x.retrains = [] → Completes (.laneFailure port lane) s (fun t => t.chip.portState p = portRetrain ∧
      t.chip.num (Obj.lathPortCause p) = 2)) ∧
    (∀ lanes : BitVec 4, st ≠ portRetrain ∨ c.usable p lanes.toNat = 0 → Leaves (.retrainLock port lanes) s c) ∧
    (∀ lanes : BitVec 4, st = portRetrain → c.usable p lanes.toNat = 4 → (∀ l ∈ portLanes p, c.num (Obj.lathLaneState l) ≠ 1 ∨ bit lanes.toNat (l - 4 * p) = true) →
      Completes (.retrainLock port lanes) s (fun t => t.chip.portState p = portUp ∧ t.chip.num (Obj.lathPortWidth p) = 4 ∧
        t.chip.out = c.out ++ [.resend p ((x.ack + 1) % 256)])) ∧
    (st ≠ portUp → st ≠ portRetrain → st ≠ portMiswired → Leaves (.signalLost port) s c) ∧
    (st = portUp ∨ st = portRetrain ∨ st = portMiswired → Completes (.signalLost port) s (fun t => t.chip.portState p = portDetect ∧
      t.chip.num (Obj.lathPortCause p) = 6 ∧ t.chip.num (Obj.lathPortAdmit p) = 0 ∧ t.chip.num (Obj.lathPortWidth p) = 0))) ∧
  (∀ (ns : BitVec 64) (frac : BitVec 16) (s : State),
    let c := s.chip
    (c.isMaster = false → Leaves (.syncTimer ns frac) s c) ∧
    (c.isMaster = true → Leaves (.syncTimer ns frac) s (modChain (fun h => { h with syncSeq := (h.syncSeq + 1) % 65536 })
      (sendUp 0 0 0 [ns.toNat, frac.toNat, c.chain.syncSeq, 0, c.num Obj.chainClockClass, 1] c))) ∧
    (c.chain.losses = [] → Leaves .heartbeatTimer s (sendUp 0 5 0 (c.heartbeat none) c))) ∧
  (∀ (r : Req) (a : Nat) (port : Fin 2) (lane : Fin 8) (s : State),
    let c := (judged r.path s).chip
    let p := port.val
    let st := c.portState p
    (c.may 0x18 0 a 3 = false →
      (Writes r a (Obj.lathPortEnable p) [1] s → Answers (.portEnable r port) r a (Obj.lathPortEnable p) [1] s c St.noAccess) ∧
      (Writes r a (Obj.lathPortEnable p) [0] s → Answers (.portDisable r port) r a (Obj.lathPortEnable p) [0] s c St.noAccess) ∧
      (Writes r a (Obj.lathPortReset p) [1] s → Answers (.portReset r port) r a (Obj.lathPortReset p) [1] s c St.noAccess) ∧
      (Writes r a (Obj.lathPortRetired p) [0] s → Answers (.portReinstate r port) r a (Obj.lathPortRetired p) [0] s c St.noAccess) ∧
      (Writes r a (Obj.lathLaneRetired lane.val) [0] s →
        Answers (.laneReinstate r lane) r a (Obj.lathLaneRetired lane.val) [0] s c St.noAccess)) ∧
    (c.may 0x18 0 a 3 = true →
      (Writes r a (Obj.lathPortEnable p) [1] s → st = portDisabled → c.num (Obj.lathPortRetired p) = 0 →
        Answers (.portEnable r port) r a (Obj.lathPortEnable p) [1] s
          (setNum (Obj.lathPortState p) portDetect (setNum (Obj.lathPortEnable p) 1 c)) St.ok) ∧
      (Writes r a (Obj.lathPortEnable p) [1] s → st ≠ portDisabled → Answers (.portEnable r port) r a (Obj.lathPortEnable p) [1] s
        (setNum (Obj.lathPortEnable p) 1 c) St.ok) ∧
      (Writes r a (Obj.lathPortEnable p) [0] s → st ≠ portDisabled → Completes (.portDisable r port) s (fun t => ∃ d,
        t = answered r a (Obj.lathPortEnable p) [0] ({ s with chip := d }, St.ok) ∧ d.portState p = portDisabled ∧
        d.num (Obj.lathPortEnable p) = 0 ∧ d.num (Obj.lathPortWidth p) = 0)) ∧
      (Writes r a (Obj.lathPortReset p) [1] s → st ≠ portUp → st ≠ portRetrain →
        Answers (.portReset r port) r a (Obj.lathPortReset p) [1] s c St.ok) ∧
      (Writes r a (Obj.lathPortReset p) [1] s → st = portUp → (c.port p).retrains = [] → Completes (.portReset r port) s (fun t => ∃ d,
        t = answered r a (Obj.lathPortReset p) [1] ({ s with chip := d }, St.ok) ∧ d.portState p = portRetrain)) ∧
      (Writes r a (Obj.lathPortRetired p) [0] s → st = portRetired → Answers (.portReinstate r port) r a (Obj.lathPortRetired p) [0] s
        (setNum (Obj.lathPortState p) portDetect (setNum (Obj.lathPortRetired p) 0 c)) St.ok) ∧
      (Writes r a (Obj.lathLaneRetired lane.val) [0] s → c.num (Obj.lathLaneRetired lane.val) ≠ 0 →
        Answers (.laneReinstate r lane) r a (Obj.lathLaneRetired lane.val) [0] s
          (modChain (fun h => { h with lanes := tmod {} h.lanes lane.val (fun x => { x with failures := [] }) })
            (setNum (Obj.lathLaneState lane.val) 0 (setNum (Obj.lathLaneRetired lane.val) 0 c))) St.ok)))

/-- R352, R353, R357, R361 to R363, R365, R372: census records, votes, the view that a vote settles on and its apply boundary, elections
and the two ticks of a loss. -/
def Obligations.ChainViews : Prop :=
  (∀ (port : Fin 2) (fields : List Nat) (s : State),
    let c := s.chip
    let p := port.val
    let r := CensusRec.ofFields fields
    let kept (d : Chip) : Chip := modChain (fun h => { h with relayed := ((r.serial, r.seq) :: h.relayed).take 1024, newAt := d.now, recs := h.recs.filter (fun x => x.1.serial != r.serial) ++ [(r, p)] }) d
    let on (d : Chip) : Chip := relay p 5 1 0 { r with hops := (r.hops + 1) % 256 }.fields d
    (c.isUp p = false → Leaves (.chainCensus port fields) s c ∧ Leaves (.viewVote port fields) s c ∧ Leaves (.viewApply port fields) s c) ∧
    (c.isUp p = true → r.serial = mySerial → Leaves (.chainCensus port fields) s (modChain (fun h => { h with ring := some r.hops }) c)) ∧
    (c.isUp p = true → r.serial ≠ mySerial → (r.serial, r.seq) ∈ c.chain.relayed → Leaves (.chainCensus port fields) s c) ∧
    (∀ sent, c.isUp p = true → r.serial ≠ mySerial → (r.serial, r.seq) ∉ c.chain.relayed → c.chain.sentAt = some sent →
      (c.now < sent + 10000000 → Leaves (.chainCensus port fields) s (on (kept c))) ∧
      (sent + 10000000 ≤ c.now → Leaves (.chainCensus port fields) s (on (kept (startCensus c))))) ∧
    (c.isUp p = true → r.serial ≠ mySerial → (r.serial, r.seq) ∉ c.chain.relayed → c.chain.sentAt = none →
      Leaves (.chainCensus port fields) s (on (kept (startCensus c)))) ∧
    (let serial := fields.getD 0 0
     let seq := fields.getD 1 0
     let hash := fields.getD 2 0
     let d := relay p 5 1 1 fields (modChain (fun h => { h with voteRelayed := ((serial, seq) :: h.voteRelayed).take 1024, votes := h.votes.filter (fun x => x.1 != serial) ++ [(serial, hash)] }) c)
     (serial = mySerial ∨ (serial, seq) ∈ c.chain.voteRelayed → Leaves (.viewVote port fields) s c) ∧
     (c.isUp p = true → serial ≠ mySerial → (serial, seq) ∉ c.chain.voteRelayed → c.chain.computed = none →
       Leaves (.viewVote port fields) s d) ∧
     (∀ v, c.isUp p = true → serial ≠ mySerial → (serial, seq) ∉ c.chain.voteRelayed → c.chain.computed = some v →
       Leaves (.viewVote port fields) s (if hash = v.digest then tryApply d else startCensus d))) ∧
    (let key := (fields.headD 0, fields.getD 1 0)
     let v := View.ofFields fields
     let d := relay p 5 1 2 fields (modChain (fun h => { h with applyRelayed := (key :: h.applyRelayed).take 16 }) c)
     (key ∈ c.chain.applyRelayed → Leaves (.viewApply port fields) s c) ∧
     (c.isUp p = true → key ∉ c.chain.applyRelayed → c.num Obj.chainState < 2 → Leaves (.viewApply port fields) s (applyView v d)) ∧
     (c.isUp p = true → key ∉ c.chain.applyRelayed → 2 ≤ c.num Obj.chainState → c.chain.view.anchor = v.anchor →
       bit (c.num Obj.chainQuarantineCause) 2 = false →
       Leaves (.viewApply port fields) s (modChain (fun h => { h with nextView := some (v, key.2) }) d)) ∧
     (c.isUp p = true → key ∉ c.chain.applyRelayed → bit (c.num Obj.chainQuarantineCause) 2 = true →
       Leaves (.viewApply port fields) s (applyView v d)))) ∧
  (∀ s : State,
    let c := s.chip
    let v := viewOf c.ownRecord c.chain.recs c.chain.ring.isSome
    let d := modChain (fun h => { h with computed := some v, settledAt := c.now, nextView := none, votes := h.votes.filter (fun x => x.1 != mySerial) ++ [(mySerial, v.digest)] }) c
    (c.chain.censusOn = false ∨ c.chain.computed.isSome = true ∨ c.now < c.chain.newAt + 20000000 → Leaves .censusSettle s c) ∧
    (c.chain.censusOn = true → c.chain.computed = none → c.chain.newAt + 20000000 ≤ c.now → c.chain.votes = [] →
      Leaves .censusSettle s (tryApply (sendUp 5 1 1 [mySerial, c.chain.censusSeq, v.digest] d))) ∧
    (c.chain.computed = none ∨ c.chain.nextView.isSome = true ∨ c.now < c.chain.settledAt + 100000000 → Leaves .viewApplyTimeout s c) ∧
    (c.chain.computed.isSome = true → c.chain.nextView = none → c.chain.settledAt + 100000000 ≤ c.now →
      Leaves .viewApplyTimeout s (startCensus c)) ∧
    (c.isUp 0 = true → c.isUp 1 = false → c.chain.computed.isSome = true → c.chain.nextView = none → c.chain.settledAt + 100000000 ≤ c.now →
      Completes .viewApplyTimeout s (fun t => t.chip.chain.censusSeq = (c.chain.censusSeq + 1) % 65536 ∧ t.chip.chain.recs = [] ∧
        t.chip.chain.votes = [] ∧ t.chip.chain.computed = none ∧ t.chip.out.length = c.out.length + 1)) ∧
    (c.chain.nextView = none ∨ c.time.stc % 64 ≠ 0 → Leaves .applyBoundary s c) ∧
    (∀ w t, c.chain.nextView = some (w, t) →
      (c.time.stc < t → Leaves .applyBoundary s c) ∧
      (t ≤ c.time.stc → c.time.stc % 64 = 0 → Leaves .applyBoundary s (applyView w c))) ∧
    (c.num Obj.chainState < 2 ∨ c.num Obj.chainState = 4 ∨ c.elected = none → Leaves .timeMasterElection s c) ∧
    (∀ n, 2 ≤ c.num Obj.chainState → c.num Obj.chainState ≠ 4 →
      let gone := c.chain.view.entries.any (fun e => e.serial == c.chain.view.master && (c.recOf e).cls == 255)
      c.elected = some n →
      (n = c.chain.view.master → Leaves .timeMasterElection s (modChain (fun h => { h with elect := none }) c)) ∧
      (n ≠ c.chain.view.master → gone = true → Leaves .timeMasterElection s (setMaster n c)) ∧
      (n ≠ c.chain.view.master → gone = false → c.chain.elect = none →
        Leaves .timeMasterElection s (modChain (fun h => { h with elect := some (n, c.now) }) c)) ∧
      (∀ t, n ≠ c.chain.view.master → gone = false → c.chain.elect = some (n, t) →
        (c.now < t + 1000000000 → Leaves .timeMasterElection s c) ∧
        (t + 1000000000 ≤ c.now → Leaves .timeMasterElection s (setMaster n c)))) ∧
    ((∀ l ∈ c.chain.losses, l.switched = true ∨ c.time.stc < l.switch) → Leaves .lossSwitch s c) ∧
    (∀ l, c.chain.losses = [l] → l.switched = false → l.switch ≤ c.time.stc →
      Completes .lossSwitch s (fun t => t.chip.chain.losses = [{ l with switched := true }] ∧ t.chip.chain.switchAt = l.switch ∧
        t.chip.chain.oldCut = [0, 1].filter (fun p => c.flag (Obj.lathPortCut p)) ∧
        t.chip.num (Obj.lathPortCut 0) = 0 ∧ t.chip.num (Obj.lathPortCut 1) = 0 ∧ t.chip.chain.view = c.chain.view ∧
        (∀ p, p < 2 → c.neighbourOf p = some l.lost → (t.chip.port p).declared = true))) ∧
    ((∀ l ∈ c.chain.losses, c.time.stc < l.effective) → Leaves .lossEffective s c) ∧
    (∀ l, c.chain.losses = [l] → l.effective ≤ c.time.stc → Leaves .lossEffective s (lossEffective l c)))

/-- R373, R374, R376 to R378, R380, R382: chain writes from the writer to their apply tick, quarantine requests and resynchronisation,
replication and its acknowledgements, and the audit. -/
def Obligations.ChainConfiguration : Prop :=
  (∀ (r : Req) (a : Nat) (o : BitVec 32) (data : List Byte) (s : State),
    let c := (judged r.path s).chip
    let j := judged r.path s
    let n := o.toNat
    let m := writeMsg r n data
    let v := leNat data
    let w : ChainWriter := { path := r.path, txn := r.txn.toNat, op := 2, object := n, data := data, master := some a }
    (isScope n = false → Leaves (.chainWrite r o data) s s.chip) ∧
    (Writes r a n data s → isScope n = true → c.isMember = false → c.isQuarantined = false →
      belowMin c n v = true → Answers (.chainWrite r o data) r a n data s c St.refused) ∧
    (Writes r a n data s → isScope n = true → c.isMember = false → c.isQuarantined = false → belowMin c n v = false →
      Answers (.chainWrite r o data) r a n data s (applyScope n v c.next64 [] c) St.ok) ∧
    (Writes r a n data s → isScope n = true → c.isQuarantined = true →
      (c.may 0x19 0 a 3 = true → Replies (.chainWrite r o data) r.path m s { j with chip := setNum Obj.chainWriteResult 2 c } { status := St.refused }) ∧
      (c.may 0x19 0 a 3 = false → Replies (.chainWrite r o data) r.path m s j { status := St.noAccess })) ∧
    (Writes r a n data s → isScope n = true → c.isMember = true → c.may 0x19 0 a 3 = true →
      (belowMin c n v = true →
        Replies (.chainWrite r o data) r.path m s { j with chip := setNum Obj.chainWriteResult 4 c } { status := St.refused }) ∧
      (belowMin c n v = false → c.chain.writer.isSome = true ∨ c.chain.proposal.isSome = true ∨ c.num Obj.chainAnchor = 0xFF →
        Replies (.chainWrite r o data) r.path m s { j with chip := setNum Obj.chainWriteResult 1 c } { status := St.busy }) ∧
      (belowMin c n v = false → c.chain.writer = none → c.chain.proposal = none → c.num Obj.chainAnchor ≠ 0xFF →
        (c.num Obj.chainAnchor = c.me → Leaves (.chainWrite r o data) s (propose n v [] (modChain (fun h => { h with writer := some w }) c))) ∧
        (c.num Obj.chainAnchor ≠ c.me → Leaves (.chainWrite r o data) s
          (sendLath 5 1 (c.num Obj.chainAnchor) 3 [n, v, 0, 0] (modChain (fun h => { h with writer := some w }) c)))))) ∧
  (∀ (chip : Byte) (fields : List Nat) (s : State),
    let c := s.chip
    let g (i : Nat) : Nat := fields.getD i 0
    let extra := fields.drop 4
    (c.isMember = false → c.isQuarantined = false → Leaves (.configPropose chip fields) s c) ∧
    (c.isMember = true → g 3 = 0 →
      (c.num Obj.chainAnchor = c.me → c.chain.proposal = none → Leaves (.configPropose chip fields) s (propose (g 0) (g 1) extra c)) ∧
      (c.num Obj.chainAnchor ≠ c.me ∨ c.chain.proposal.isSome = true → Leaves (.configPropose chip fields) s c)) ∧
    (c.isMember = true → g 3 ≠ 0 → chip.toNat ≠ c.num Obj.chainAnchor → Leaves (.configPropose chip fields) s c) ∧
    (c.isMember = true → g 3 ≠ 0 → chip.toNat = c.num Obj.chainAnchor → c.chain.writer = none → Completes (.configPropose chip fields) s (fun t =>
      t.chip.chain.proposal = some { object := g 0, value := g 1, epoch := g 2, applyAt := g 3, extra := extra } ∧
      t.chip.out = c.out ++ [.lath 2 5 1 chip.toNat 4 [g 2, hashAfter c (g 0) (g 1)]] ∧ t.chip.nums = c.nums)) ∧
    (c.chain.proposal = none ∨ c.chain.anchorVotes = none → Leaves (.configVote chip fields) s c ∧ Leaves .configApplyTimer s c) ∧
    (c.chain.proposal = none → Leaves (.configApply chip fields) s c ∧ Leaves .chainWriteApply s c) ∧
    (∀ p, c.chain.proposal = some p →
      (∀ vs, c.chain.anchorVotes = some vs →
        (g 0 = p.epoch → Leaves (.configVote chip fields) s (modChain (fun h =>
          { h with anchorVotes := some (vs.filter (fun x => x.1 != chip.toNat) ++ [(chip.toNat, g 1)]) }) c)) ∧
        (g 0 ≠ p.epoch → Leaves (.configVote chip fields) s c) ∧
        (c.chain.applySent = true ∨ c.time.stc + c.msTicks 5 < p.applyAt → Leaves .configApplyTimer s c) ∧
        (c.chain.applySent = false → p.applyAt ≤ c.time.stc + c.msTicks 5 →
          let hash := hashAfter c p.object p.value
          let listed := (c.chain.view.entries.filter (fun e => decide (e.number < 128) && !vs.contains (e.number, hash))).map (fun e => e.number)
          Leaves .configApplyTimer s (sendLath 5 1 0xFF 5 ([p.epoch, hash, p.applyAt] ++ listed)
            (modChain (fun h => { h with applySent := true, proposal := some { p with listed := some listed, hash := hash } }) c)))) ∧
      (g 0 ≠ p.epoch ∨ chip.toNat ≠ c.num Obj.chainAnchor → Leaves (.configApply chip fields) s c) ∧
      (g 0 = p.epoch → chip.toNat = c.num Obj.chainAnchor →
        let d := modChain (fun h => { h with proposal := some { p with listed := some (fields.drop 3), hash := g 1 } }) c
        Leaves (.configApply chip fields) s (setCauses (d.causes (d.num Obj.chainQuarantineCause)) d)) ∧
      (c.time.stc < p.applyAt → Leaves .chainWriteApply s c) ∧
      (let closed := modChain (fun h => { h with proposal := none, anchorVotes := none, applySent := false }) c
       p.applyAt ≤ c.time.stc →
       (p.listed = none → Leaves .chainWriteApply s (when_ c.chain.writer.isSome (endWrite 3) closed)) ∧
       (∀ l, p.listed = some l → p.object = Obj.chainHeartbeatMiss →
        let d := setNum Obj.chainEpoch p.epoch (flashStore p.object (setNum p.object p.value closed))
        let e := modChain (fun h => { h with oldEpoch := c.num Obj.chainEpoch, epochFrom := p.applyAt, view := { h.view with epoch := p.epoch, hash := p.hash } }) d
        let cause := e.causes (e.num Obj.chainQuarantineCause)
        let f := setCauses (if c.me ∈ l then withBit cause 0 true else cause) e
        Leaves .chainWriteApply s (when_ f.chain.writer.isSome (endWrite 0) f)))) ∧
    (c.num Obj.chainAnchor ≠ c.me → Leaves (.configFetch chip fields) s c) ∧
    (c.num Obj.chainAnchor = c.me → Leaves (.configFetch chip fields) s (sendLath 5 1 chip.toNat 7
      (scopeObjects.flatMap (fun o => [o, c.num o]) ++ [c.time.rebaseTick, c.time.rebaseNs, c.time.rebaseHz]) c)) ∧
    (chip.toNat ≠ c.num Obj.chainAnchor → Leaves (.configData chip fields) s c) ∧
    (chip.toNat = c.num Obj.chainAnchor → c.chain.resync = false →
      (bit (c.num Obj.chainQuarantineCause) 2 = false → Leaves (.configData chip fields) s c) ∧
      (bit (c.num Obj.chainQuarantineCause) 2 = true →
        let n := scopeObjects.length
        Leaves (.configData chip fields) s
          (modTime (fun t => { t with chainRebase := some (g (2 * n), g (2 * n + 1), g (2 * n + 2)) }) c))) ∧
    (c.num Obj.chainState < 2 ∨ c.num Obj.chainState = 4 → Leaves (.replicate chip fields) s c) ∧
    (∀ (n tenant : Nat) (image : List Nat), 2 ≤ c.num Obj.chainState → c.num Obj.chainState ≠ 4 →
      (fields = [0, n, tenant, 0] → Leaves (.replicate chip fields) s (withdraw .template n c)) ∧
      (fields = [0, n, tenant, image.length] ++ image → 0 < image.length →
        let x := commitReplica .template n (0x10 + tenant) (image.map (BitVec.ofNat 8)) c
        x.2.me ≠ 0xFF → Leaves (.replicate chip fields) s (sendLath 5 1 chip.toNat 9 [0, n, x.1.2, x.1.1] x.2))) ∧
    (g 3 ≠ 0 → Leaves (.replicateAck chip fields) s (bump Obj.chainCountersReplicationFailures c)) ∧
    (g 3 = 0 → g 0 = 0 → Leaves (.replicateAck chip fields) s (noteHolder (g 1) (g 2) c.me (noteHolder (g 1) (g 2) chip.toNat c))) ∧
    (g 3 = 0 → g 0 ≠ 0 → Leaves (.replicateAck chip fields) s c) ∧
    (let a := auditOf ((c.layerVoices (g 0)).map (fun x => x.2.id))
     (fields.drop 1 = [a.1, a.2] → Leaves (.chainAudit chip fields) s c) ∧
     (fields.drop 1 ≠ [a.1, a.2] → Leaves (.chainAudit chip fields) s (sendInventory (g 0) chip.toNat c))) ∧
    (c.isMember = false → Leaves .auditTimer s c) ∧
    (∀ n e, c.isMember = true → c.setup.layers.map Prod.fst = [n] → c.num (Obj.chainLayerHome n) = c.me →
      c.chain.view.entries.filter (fun e => decide (e.number < 128) && e.number != c.me) = [e] →
      let x := auditOf (c.believed n e.number)
      Leaves .auditTimer s (sendLath 5 1 e.number 10 [n, x.1, x.2] c))) ∧
  (∀ (r : Req) (a : Nat) (s : State),
    let c := (judged r.path s).chip
    (∀ on : Bool, let b : Byte := if on then 1 else 0
      Writes r a Obj.chainQuarantineRequest [b] s →
      (c.num Obj.chainState < 2 → Answers (.quarantineRequest r on) r a Obj.chainQuarantineRequest [b] s
        (setNum Obj.chainQuarantineRequest (if on then 1 else 0) c) St.ok) ∧
      (2 ≤ c.num Obj.chainState → Answers (.quarantineRequest r on) r a Obj.chainQuarantineRequest [b] s
        (setCauses (withBit (c.num Obj.chainQuarantineCause) 3 on) (setNum Obj.chainQuarantineRequest (if on then 1 else 0) c)) St.ok)) ∧
    (Writes r a Obj.chainQuarantineResync [1] s →
      (c.may 0x19 0 a 3 = false → Answers (.resync r) r a Obj.chainQuarantineResync [1] s c St.noAccess) ∧
      (c.may 0x19 0 a 3 = true → Answers (.resync r) r a Obj.chainQuarantineResync [1] s
        (fetchConfig (modChain (fun h => { h with resync := true, recheck := true }) c)) St.ok)) ∧
    (∀ v : Byte, Writes r a Obj.hawkStealReserve [v] s →
      (c.slotMinFits v.toNat = true → Answers (.stealReserve r v) r a Obj.hawkStealReserve [v] s
        (setNum Obj.hawkStealReserve v.toNat c) St.ok) ∧
      (c.slotMinFits v.toNat = false → Answers (.stealReserve r v) r a Obj.hawkStealReserve [v] s c St.refused)))

/-- R448 to R451, R454, R460: the windows of the word clock, its reference states and clock class, chain holdover and realignment. -/
def Obligations.ClockReferences : Prop :=
  (∀ s : State,
    let c := s.chip
    let r := c.time.ref
    let p := r.mean
    let upset (d : Chip) : Chip := modRef (fun r => { r with sinceAnomaly := some 0, good := 0, flyGood := 0 }) d
    (∀ after, c.filters = false → Leaves (.wclkWindow after) s c) ∧
    (∀ a : BitVec 64, c.filters = true → r.periods = [] → a ≠ 0 → c.refState = refAcquiring → r.good < 255 →
      let now := { r with periods := [a.toNat], stoodIn := 0, good := r.good + 1, flyGood := r.flyGood + 1, sinceAnomaly := r.sinceAnomaly.map (· + 1) }
      Leaves (.wclkWindow (some a)) s (setNum Obj.plumbWclkMilliHz (1000000000000000 / a.toNat) (modTime (fun t => { t with ref := now }) c))) ∧
    (∀ a : BitVec 64, c.filters = true → 0 < p → 7 * p ≤ 8 * (a.toNat - r.stoodIn * p) → 8 * (a.toNat - r.stoodIn * p) ≤ 9 * p →
      let now := { r with periods := ((a.toNat - r.stoodIn * p) :: r.periods).take 16, stoodIn := 0, good := r.good + 1, flyGood := r.flyGood + 1, sinceAnomaly := r.sinceAnomaly.map (· + 1) }
      (c.refState = refLocked → r.acquiring = false → inPullRange c.fs now.mean = true → Completes (.wclkWindow (some a)) s (fun t =>
        t.chip.time.ref = now ∧ t.chip.refState = refLocked ∧ t.chip.work = c.work ∧ t.chip.out = c.out)) ∧
      (c.refState = refAcquiring → r.good < 255 → Completes (.wclkWindow (some a)) s (fun t =>
        t.chip.time.ref = now ∧ t.chip.refState = refAcquiring ∧ t.chip.work = c.work ∧ t.chip.out = c.out)) ∧
      (c.refState = refAcquiring → 255 ≤ r.good → inPullRange c.fs now.mean = true → Completes (.wclkWindow (some a)) s (fun t =>
        t.chip.time.ref = { now with acquiring := false } ∧ t.chip.refState = refSlewing)) ∧
      (c.refState = refFlywheel → r.acquiring = false → 15 ≤ r.flyGood → r.before = refSlewing → Completes (.wclkWindow (some a)) s (fun t =>
        t.chip.time.ref = now ∧ t.chip.refState = refSlewing))) ∧
    (∀ a : BitVec 64, c.filters = true → 0 < p → 8 * a.toNat + p < 8 * ((r.stoodIn + 1) * p) ∨ 8 * ((r.stoodIn + 1) * p) + p < 8 * a.toNat →
      (r.sinceAnomaly = none → Leaves (.wclkWindow (some a)) s (bump Obj.plumbCountersWclkShort (upset c))) ∧
      (∀ n, r.sinceAnomaly = some n → 16 < n → Leaves (.wclkWindow (some a)) s (bump Obj.plumbCountersWclkShort (upset c))) ∧
      (∀ n, r.sinceAnomaly = some n → n ≤ 16 → Leaves (.wclkWindow (some a)) s (declareLoss (upset c)))) ∧
    (let gap := modRef (fun r => { r with stoodIn := r.stoodIn + 1, sinceAnomaly := r.sinceAnomaly.map (· + 1) }) c
     c.filters = true → 0 < p →
     (r.sinceAnomaly = none → Leaves (.wclkWindow none) s (bump Obj.plumbCountersWclkMissing (upset gap))) ∧
     (∀ n, r.sinceAnomaly = some n → 16 ≤ n → Leaves (.wclkWindow none) s (bump Obj.plumbCountersWclkMissing (upset gap))) ∧
     (∀ n, r.sinceAnomaly = some n → n < 16 → Leaves (.wclkWindow none) s (declareLoss (upset gap)))) ∧
    (c.refState ≠ refSlewing → Leaves .plumbLock s c) ∧
    (c.refState = refSlewing → Leaves .plumbLock s (setNum Obj.chainClockClass 0 (setNum Obj.plumbRefState refLocked c))) ∧
    (c.refState ≠ refFlywheel ∨ c.time.stc < r.lossTick + 64 → Leaves .holdover s c) ∧
    (c.refState = refFlywheel → r.lossTick + 64 ≤ c.time.stc → Leaves .holdover s (snag 0x0402 0 0xFF
      (bump Obj.plumbCountersSwitchovers (setNum Obj.plumbRefState refHoldover (modRef (fun r => { r.restart true with heldAt := c.now }) c))))) ∧
    (c.refState ≠ refHoldover ∨ c.now < r.heldAt + 10000000000 → Leaves .holdoverTimeout s c) ∧
    (c.refState = refHoldover → r.heldAt + 10000000000 ≤ c.now → Completes .holdoverTimeout s (fun t => t.chip.refState = refFree ∧
      t.chip.num Obj.chainClockClass = 2 ∧ t.chip.snum 32 Obj.plumbOffsetPpm = 0 ∧ t.chip.time = c.time)) ∧
    (c.refState ≠ refChain ∨ c.time.chainHoldover = true ∨ c.now < c.time.syncAt + 64000 → Leaves .chainHoldover s c) ∧
    (c.refState = refChain → c.time.chainHoldover = false → c.time.syncAt + 64000 ≤ c.now →
      Leaves .chainHoldover s (snag 0x0206 0 0xFF (modTime (fun t => { t with chainHoldover := true }) c))) ∧
    (c.refState ≠ refChain ∨ c.num Obj.chainClockClass ≠ 1 ∨ c.now < r.heldAt + 10000000000 → Leaves .chainClockClassExpiry s c) ∧
    (c.refState = refChain → c.num Obj.chainClockClass = 1 → r.heldAt + 10000000000 ≤ c.now →
      Leaves .chainClockClassExpiry s (setNum Obj.chainClockClass 2 c)) ∧
    (c.time.chainRebase = none ∨ bit (c.num Obj.chainQuarantineCause) 2 = false ∨ c.time.transition.isSome = true → Leaves .realignment s c) ∧
    (∀ rb, c.time.chainRebase = some rb → bit (c.num Obj.chainQuarantineCause) 2 = true → c.time.transition = none →
      Leaves .realignment s (modTime (fun t => { t with chainRebase := none, transition := some (c.schedule ((c.time.stc / 64 + 1) * 64) c.time.rate (some rb)) }) c))) ∧
  (∀ (r : Req) (a : Nat) (source : Fin 2) (s : State), Writes r a Obj.plumbClockSource [BitVec.ofNat 8 source.val] s →
    let c := (judged r.path s).chip
    let set := setNum Obj.plumbClockSource source.val c
    let o := Obj.plumbClockSource
    let b : List Byte := [BitVec.ofNat 8 source.val]
    (c.refState = refChain → Answers (.clockSource r source) r a o b s set St.ok) ∧
    (c.refState ≠ refChain → source = 0 → Completes (.clockSource r source) s (fun t => ∃ d,
      t = answered r a o b ({ s with chip := d }, St.ok) ∧ d.refState = refFree ∧ d.num Obj.chainClockClass = 2)) ∧
    (c.refState = refFree → source = 1 → Answers (.clockSource r source) r a o b s
      (setNum Obj.plumbRefState refAcquiring (modRef (fun r => r.restart false) set)) St.ok) ∧
    (c.refState ≠ refFree → c.refState ≠ refChain → source = 1 → Answers (.clockSource r source) r a o b s set St.ok))

/-- R41, R45, R456, R457, R459, R462 to R465: the sample rate and its transition, changes of B, tempo and the timer units.  That the
transition's ticks come as commands is the model's choice (entry 4). -/
def Obligations.RatesTempoAndTimers : Prop :=
  (∀ (r : Req) (a : Nat) (s : State),
    let c := (judged r.path s).chip
    c.isMember = false → c.isQuarantined = false →
    (∀ rate : Fin 6, let b := leBytes 1 rate.val
      Writes r a Obj.plumbSampleRate b s →
      (c.time.transition = none → Answers (.sampleRate r rate) r a Obj.plumbSampleRate b s (modTime (fun t =>
        { t with transition := some (c.schedule ((c.time.stc / 64 + 1) * 64) rate.val none) }) (setNum Obj.plumbSampleRate rate.val c)) St.ok) ∧
      (c.time.transition.isSome = true → Answers (.sampleRate r rate) r a Obj.plumbSampleRate b s (modTime (fun t =>
        { t with second := some ((c.time.stc / 64 + 1) * 64, rate.val, none) }) (setNum Obj.plumbSampleRate rate.val c)) St.ok)) ∧
    (∀ b : Byte, Writes r a Obj.plumbBlockSize [b] s →
      (b.toNat = c.bsize → c.time.blockNext = none →
        Answers (.blockSize r b) r a Obj.plumbBlockSize [b] s (setNum Obj.plumbBlockSize b.toNat c) St.ok) ∧
      (b.toNat ≠ c.bsize → c.time.transition = none → Answers (.blockSize r b) r a Obj.plumbBlockSize [b] s (modTime (fun t =>
        { t with blockNext := some (b.toNat, (c.time.stc / 64 + 1) * 64) }) (setNum Obj.plumbBlockSize b.toNat c)) St.ok)) ∧
    (let go (k : Nat) : Chip :=
       let at_ := c.num Obj.plumbTempoApplyTick
       let late := decide (at_ ≤ c.time.stc)
       let x : TempoChange := { kind := k, tempo := c.num Obj.plumbTempoSet, position := c.num Obj.plumbTempoRelocate, tick := if late then c.time.stc + 1 else at_, late := late }
       setNum Obj.plumbTempoStatus (if late then 0x81 else 1) (modTime (fun t => { t with tempoChange := some x }) c)
     (Writes r a Obj.plumbTempoGo [1] s → Completes (.tempoSet r) s (fun t => ∃ d, t = answered r a Obj.plumbTempoGo [1] ({ s with chip := d }, St.ok) ∧
       d.time = (go 1).time ∧ d.num Obj.plumbTempoStatus = (go 1).num Obj.plumbTempoStatus)) ∧
     (Writes r a Obj.plumbTempoGo [2] s → Completes (.tempoRelocate r) s (fun t => ∃ d, t = answered r a Obj.plumbTempoGo [2] ({ s with chip := d }, St.ok) ∧
       d.time = (go 2).time ∧ d.num Obj.plumbTempoStatus = (go 2).num Obj.plumbTempoStatus)) ∧
     (Writes r a Obj.plumbTempoGo [3] s → Completes (.tempoAndRelocate r) s (fun t => ∃ d, t = answered r a Obj.plumbTempoGo [3] ({ s with chip := d }, St.ok) ∧
       d.time = (go 3).time ∧ d.num Obj.plumbTempoStatus = (go 3).num Obj.plumbTempoStatus)))) ∧
  (∀ s : State,
    let c := s.chip
    (c.time.transition = none → Leaves .rateTransition s c ∧ Leaves .renderStop s c ∧ Leaves .clockStop s c ∧ Leaves .rateTransitionResume s c) ∧
    (∀ x, c.time.transition = some x →
      (x.phase ≠ 0 ∨ c.time.stc < x.x → Leaves .rateTransition s c) ∧
      (x.phase = 0 → x.x ≤ c.time.stc → Leaves .rateTransition s (rateTransition x c)) ∧
      (x.phase ≠ 1 ∨ c.time.stc < x.y → Leaves .renderStop s c) ∧
      (x.phase = 1 → x.y ≤ c.time.stc →
        Leaves .renderStop s (modTime (fun t => { t with transition := some { x with phase := 2 }, silent := true }) c)) ∧
      (x.phase ≠ 2 ∨ c.time.stc < x.z → Leaves .clockStop s c) ∧
      (x.phase = 2 → x.z ≤ c.time.stc → Leaves .clockStop s
        (modTime (fun t => { t with transition := some { x with phase := 3, tz := c.nsOf x.z }, stopped := true, stc := x.z }) c)) ∧
      (x.phase ≠ 3 → Leaves .rateTransitionResume s c) ∧
      (x.phase = 3 → c.time.second = none → Leaves .rateTransitionResume s (resume x c)) ∧
      (∀ tick rate rb, x.phase = 3 → c.time.second = some (tick, rate, rb) →
        let d := resume x c
        Leaves .rateTransitionResume s (trigger (max tick d.time.stc) rate rb d))) ∧
    (c.time.blockNext = none ∨ c.time.stc % 64 ≠ 0 ∨ c.time.silent = true → Leaves .blockSizeChange s c) ∧
    (∀ b tick, c.time.blockNext = some (b, tick) → c.time.stc < tick → Leaves .blockSizeChange s c) ∧
    (∀ b tick, c.time.blockNext = some (b, tick) → tick ≤ c.time.stc → c.time.stc % 64 = 0 → c.time.silent = false → c.time.transition = none →
      Completes .blockSizeChange s (fun t => t.chip.time.block = b ∧ t.chip.time.blockNext = none ∧ t.chip.time.stc = c.time.stc ∧
        t.chip.time.rate = c.time.rate ∧ t.chip.time.rebaseTick = c.time.rebaseTick ∧ t.chip.time.rebaseNs = c.time.rebaseNs ∧
        t.chip.time.rebaseHz = c.time.rebaseHz ∧ t.chip.time.transition = none)) ∧
    (c.time.tempoChange = none ∨ c.time.silent = true → Leaves .tempoApply s c) ∧
    (∀ x, c.time.tempoChange = some x → c.time.silent = false →
      let step := max ((x.tick + 3) / 4 * 4) c.time.anchorStep
      let tempo := c.num Obj.plumbTempo
      let beat := beatAt c.time.anchorStep c.time.anchorBeat tempo c.fs step
      (c.time.stc < step → Leaves .tempoApply s c) ∧
      (step ≤ c.time.stc → Leaves .tempoApply s (setNum Obj.plumbTempoStatus (2 + if x.late then 0x80 else 0)
        (setNum Obj.plumbTempo (if x.kind = 2 then tempo else x.tempo) (modTime (fun t =>
          { t with anchorStep := step, anchorBeat := if x.kind = 1 then beat else x.position, tempoChange := none }) c))))) ∧
    (∀ u : Fin 16,
      let unit := u.val
      let clk := c.num (Obj.timerClock unit)
      let now := c.clockCount clk
      let mark := (tget {} c.time.timers unit).mark
      let w := c.num (Obj.timerWidth unit)
      let n := (c.num (Obj.timerCounter unit) + 1) % 2 ^ w
      let d := setNum (Obj.timerCounter unit) n (modTime (fun t => { t with timers := tset {} t.timers unit { mark := if clk = 3 then now else mark + 1 } }) c)
      (c.flag (Obj.timerEnable unit) = false ∨ now = mark → Leaves (.timerCount u) s c) ∧
      (c.flag (Obj.timerEnable unit) = true → mark < now →
        (n ≠ 0 → c.num (Obj.timerMode unit) = 0 → Leaves (.timerCount u) s d) ∧
        (n ≠ 0 → c.num (Obj.timerMode unit) = 1 → c.num (Obj.timerCompare0 unit) ≠ n → Leaves (.timerCount u) s d) ∧
        (n ≠ 0 → c.num (Obj.timerMode unit) = 1 → c.num (Obj.timerCompare0 unit) = n → 16 ≤ c.num (Obj.timerOwner unit) →
          256 ≤ c.num (Obj.timerCore unit) → Leaves (.timerCount u) s
            (setNum (Obj.timerStatus unit) (withBit (c.num (Obj.timerStatus unit)) 0 true) d)) ∧
        (n ≠ 0 → c.num (Obj.timerMode unit) = 2 → c.num (Obj.timerCompare0 unit) = n → c.num (Obj.timerOwner unit) < 16 →
          256 ≤ c.num (Obj.timerCore unit) → Leaves (.timerCount u) s (raise (c.num (Obj.timerOwner unit)) (56 + unit)
            (setNum (Obj.timerMode unit) 0 (setNum (Obj.timerStatus unit) (withBit (c.num (Obj.timerStatus unit)) 0 true) d)))) ∧
        (n = 0 → c.num (Obj.timerMode unit) = 0 → c.num (Obj.timerStatus unit) = 4 → Leaves (.timerCount u) s
          (setNum (Obj.timerCompare0 unit) (c.num (Obj.timerPreload0 unit)) (setNum (Obj.timerStatus unit) 0 d))))))

/-- R509 to R520, R525, R534, R555: characters received and sent, a Kolef line that is no command, flow control, MULTIDROP, collisions, STANDBY, MIDI, and the objects of a
UART that commands write or read. -/
def Obligations.UartCharacters : Prop :=
  (∀ (u : Fin 4) (x : RxChar) (s : State),
    let c := s.chip
    let k := u.val
    let m := c.uartMode k
    let f := (c.uartCfg k).2.2
    let d := x.data.toNat
    let y := c.uart k
    let char := d % 2 ^ (5 + f % 8)
    (m = 0 → c.num Obj.powerState ≠ 2 → Leaves (.characterReceived u x) s c) ∧
    (c.num Obj.powerState ≠ 2 → u ≠ 0 →
      (m = 3 → x.parity = false → x.framing = false → x.brk = false → y.rx.length < 128 → Completes (.characterReceived u x) s (fun t =>
        let e := rxEntry x f false
        (t.chip.uart k).rx = y.rx ++ [if y.lost then e + 8192 else e] ∧ (t.chip.uart k).lost = false ∧
        (t.chip.uart k).timeout = false ∧ (t.chip.uart k).tx = y.tx ∧ t.chip.nums = c.nums ∧ t.chip.mem = c.mem)) ∧
      (m = 3 → x.parity = false → x.framing = false → x.brk = false → 128 ≤ y.rx.length → Completes (.characterReceived u x) s (fun t =>
        (t.chip.uart k).rx = y.rx ∧ (t.chip.uart k).lost = true)) ∧
      (m = 3 → Leaves (.characterReceived u x) s (storeChar k (rxEntry x f false)
        (when_ x.brk (bump (Obj.uartCountersBreaks k)) (when_ x.framing (bump (Obj.uartCountersFraming k))
          (when_ x.parity (bump (Obj.uartCountersParity k)) c))))) ∧
      (m = 1 → c.flowOn k = true → x.parity = false → x.framing = false → x.brk = false →
        (char = 0x13 → Leaves (.characterReceived u x) s (modUart k (fun y => { y with paused := true }) c)) ∧
        (char = 0x11 → Leaves (.characterReceived u x) s (startNext k (modUart k (fun y => { y with paused := false }) c))) ∧
        (char ≠ 0x13 → char ≠ 0x11 → Leaves (.characterReceived u x) s (storeChar k (rxEntry x f false) c))) ∧
      (m = 2 → x.parity = false → x.framing = false → x.brk = false →
        (bit d 8 = false → c.flag (Obj.uartMute k) = true → Leaves (.characterReceived u x) s c) ∧
        (bit d 8 = false → c.flag (Obj.uartMute k) = false → Leaves (.characterReceived u x) s (storeChar k (rxEntry x f false) c)) ∧
        (bit d 8 = true → c.addressed k d = false → Leaves (.characterReceived u x) s (setNum (Obj.uartMute k) 1 c)) ∧
        (bit d 8 = true → c.addressed k d = true →
          Leaves (.characterReceived u x) s (storeChar k (rxEntry x f true) (setNum (Obj.uartMute k) 0 c)))) ∧
      (m = 4 → x.parity = false → x.framing = false → x.brk = false → Leaves (.characterReceived u x) s
        (midiThru k (d % 256) (midiOctet k (d % 256) (storeChar k (rxEntry x f false) c)))) ∧
      (m = 5 → x.parity = false → x.framing = false → x.brk = false →
        Leaves (.characterReceived u x) s (rdmOctet k x (storeChar k (rxEntry x f false) c))) ∧
      (m = 6 → x.parity = false → x.framing = false → x.brk = false → Leaves (.characterReceived u x) s
        (dmxOctet k (BitVec.ofNat 8 d) false (storeChar k (rxEntry x f false) c)))) ∧
    (c.num Obj.powerState ≠ 2 → u = 0 → m ≠ 0 →
      (x.brk = false → c.boot.img.isSome = true → Leaves (.characterReceived u x) s (imgOctet (BitVec.ofNat 8 d) c)) ∧
      (x.brk = true → Leaves (.characterReceived u x) s (receiveChar 0 x (modUart 0 (fun y => { y with autobaud := true }) c))) ∧
      (x.brk = false → c.boot.img = none → y.autobaud = false →
        (m ≠ 1 ∨ d ≠ 0x0D ∨ kolefKnown c.kolefHeld = true → Leaves (.characterReceived u x) s (receiveChar 0 x c)) ∧
        (m = 1 → d = 0x0D → kolefKnown c.kolefHeld = false → Leaves (.characterReceived u x) s
          (emit (.kolef St.badRequest []) (modUart 0 (fun z =>
            { z with rx := y.rx.take (y.rx.length - c.kolefHeld.length) }) (receiveChar 0 x c))))) ∧
      (x.brk = false → c.boot.img = none → y.autobaud = true → d = 0x0D → m ≠ 1 ∨ kolefKnown c.kolefHeld = true →
        435 ≤ 4 * x.low → 4 * x.low ≤ 41666 →
        Leaves (.characterReceived u x) s
          (receiveChar 0 x (setNum (Obj.uartDivider 0) (4 * x.low) (modUart 0 (fun y => { y with autobaud := false }) c))))) ∧
    (c.num Obj.powerState = 2 →
      (c.flag (Obj.uartWakeEnable k) = false → Leaves (.characterReceived u x) s c) ∧
      (c.flag (Obj.uartWakeEnable k) = true → m = 2 → 400000000 ≤ 9600 * (c.uartCfg k).2.1 →
        (x.brk = true ∨ bit d 8 = false ∨ c.addressed k d = false → Leaves (.characterReceived u x) s c) ∧
        (x.brk = false → bit d 8 = true → c.addressed k d = true → Leaves (.characterReceived u x) s (emit (.source (192 + 4 * k + 3))
          (storeChar k (rxEntry x f true) (setNum (Obj.uartMute k) 0 (modUart k (fun y => { y with woke := true }) c)))))) ∧
      (c.flag (Obj.uartWakeEnable k) = true → m ≠ 0 → m ≠ 2 ∨ 9600 * (c.uartCfg k).2.1 < 400000000 → Leaves (.characterReceived u x) s (emit (.source (192 + 4 * k + 3))
        (snag 0x0618 k 0xFF (bump (Obj.uartCountersWakeLost k) (modUart k (fun y => { y with woke := true, lost := true }) c)))))) ∧
    (y.rx = [] → Leaves (.rxTimeout u) s c) ∧
    (y.rx ≠ [] → Leaves (.rxTimeout u) s (emit (.source (192 + 4 * k)) (modUart k (fun x => { x with timeout := true }) c))) ∧
    (∀ coll, y.sending = none → Leaves (.characterSent u coll) s c) ∧
    (∀ e, y.sending = some e →
      let sent := emit (.serial k e) (modUart k (fun x => { x with sending := none, attempts := 0 }) c)
      (y.cfg = none → Leaves (.characterSent u false) s (startNext k sent)) ∧
      (y.cfg.isSome = true → Leaves (.characterSent u false) s (applyUart k sent)) ∧
      (m ≠ 3 → y.cfg = none → Leaves (.characterSent u true) s (startNext k sent)) ∧
      (m = 3 → y.cfg = none → y.attempts < c.num (Obj.uartRetries k) → Completes (.characterSent u true) s (fun t =>
        t.chip.uart k = { y with collision := true, sending := none, attempts := y.attempts + 1, retry := some e } ∧
        t.chip.out = c.out ++ [.source (192 + 4 * k + 2)])) ∧
      (m = 3 → y.cfg = none → c.num (Obj.uartRetries k) ≤ y.attempts → Completes (.characterSent u true) s (fun t =>
        (t.chip.uart k).tx = [] ∧ (t.chip.uart k).attempts = 0 ∧ (t.chip.uart k).collision = true ∧ (t.chip.uart k).rx = y.rx))) ∧
    Completes (.retryBackoff u) s (fun t => t.chip.uart k = (match y.retry with
      | some e => { y with retry := none, sending := some e, deUntil := noTerm }
      | none => y) ∧ t.chip.nums = c.nums ∧ t.chip.out = c.out)) ∧
  (∀ (r : Req) (a : Nat) (u : Fin 4) (s : State),
    let c := (judged r.path s).chip
    let k := u.val
    (∀ entries : List (BitVec 16),
      let bs := entries.flatMap (fun e => leBytes 2 e.toNat)
      Writes r a (Obj.uartTx k) bs s →
      (uartMay k a = false → Answers (.uartTx r u entries) r a (Obj.uartTx k) bs s c St.noAccess) ∧
      (uartMay k a = true → 128 < (c.uart k).tx.length + entries.length → Answers (.uartTx r u entries) r a (Obj.uartTx k) bs s c St.busy) ∧
      (uartMay k a = true → (c.uart k).tx.length + entries.length ≤ 128 → Answers (.uartTx r u entries) r a (Obj.uartTx k) bs s
        (startNext k (modUart k (fun x => { x with tx := x.tx ++ entries.map BitVec.toNat }) c)) St.ok)) ∧
    (∀ offset : BitVec 32,
      let q := readMsg r (Obj.uartRx k) offset.toNat
      let all := (c.uart k).rx.flatMap (leBytes 2)
      Reaches r.path q s →
      (mayReadArea c (actingMaster s.chip r.path) (Obj.uartRx k) = false →
        Replies (.uartRxRead r u offset) r.path q s (judged r.path s) { status := St.noAccess }) ∧
      (mayReadArea c (actingMaster s.chip r.path) (Obj.uartRx k) = true → all.length < offset.toNat →
        Replies (.uartRxRead r u offset) r.path q s (judged r.path s) { status := St.badRequest }) ∧
      (mayReadArea c (actingMaster s.chip r.path) (Obj.uartRx k) = true → offset = 0 → all.length ≤ pathLimit r.path → c.flowOn k = false →
        Completes (.uartRxRead r u offset) s (fun t => (t.chip.uart k).rx = [] ∧ (t.chip.uart k).timeout = false ∧
          (t.chip.uart k).tx = (c.uart k).tx))) ∧
    (∀ (object : Fin 3) (v : BitVec 32),
      let o := Obj.uartMode k + object.val
      let bs := leBytes (if object.val = 1 then 4 else 1) v.toNat
      let n := if object.val = 1 then v.toNat else v.toNat % 256
      Writes r a o bs s →
      (uartMay k a = false → Answers (.uartMode r u object v) r a o bs s c St.noAccess) ∧
      (uartMay k a = true → uartCfgStatus c k object.val n ≠ St.ok →
        Answers (.uartMode r u object v) r a o bs s c (uartCfgStatus c k object.val n)) ∧
      (uartMay k a = true → uartCfgStatus c k object.val n = St.ok → (c.uart k).sending = none →
        Answers (.uartMode r u object v) r a o bs s (applyUart k (setNum o n c)) St.ok) ∧
      (uartMay k a = true → uartCfgStatus c k object.val n = St.ok → (c.uart k).sending.isSome = true →
        Answers (.uartMode r u object v) r a o bs s (modUart k (fun x => { x with cfg := some (c.uartCfg k) }) (setNum o n c)) St.ok)) ∧
    (Writes r a (Obj.uartMute k) [1] s →
      (uartMay k a = false → Answers (.uartMute r u) r a (Obj.uartMute k) [1] s c St.noAccess) ∧
      (uartMay k a = true → Answers (.uartMute r u) r a (Obj.uartMute k) [1] s (setNum (Obj.uartMute k) 1 c) St.ok)) ∧
    (∀ v : Byte, Writes r a (Obj.uartMidiTenant k) [v] s →
      let o := Obj.uartMidiTenant k
      let i := qix v.toNat (c.num (Obj.uartMidiQueue k) % 8)
      (uartMay k a = false → Answers (.midiBind r u false v) r a o [v] s c St.noAccess) ∧
      (uartMay k a = true → v.toNat < 16 →
        (c.may 0x16 i a 1 = false → Answers (.midiBind r u false v) r a o [v] s c St.noAccess) ∧
        (c.may 0x16 i a 1 = true → (c.queue i).state ≠ .running ∨ (c.queue i).head ≠ (c.queue i).tail →
          Answers (.midiBind r u false v) r a o [v] s c St.busy) ∧
        (c.may 0x16 i a 1 = true → (c.queue i).state = .running → (c.queue i).head = (c.queue i).tail →
          Answers (.midiBind r u false v) r a o [v] s (setNum o v.toNat c) St.ok)) ∧
      (uartMay k a = true → 16 ≤ v.toNat → 16 ≤ c.num o → Answers (.midiBind r u false v) r a o [v] s (setNum o v.toNat c) St.ok)) ∧
    (∀ v : Byte, Writes r a (Obj.uartMidiQueue k) [v] s → uartMay k a = true → 16 ≤ c.num (Obj.uartMidiTenant k) →
      Answers (.midiBind r u true v) r a (Obj.uartMidiQueue k) [v] s (setNum (Obj.uartMidiQueue k) v.toNat c) St.ok))

/-- R521 to R524: DMX packets out and in, and RDM as controller and as responder; the message forms are E1.20's as the model presumes
them (entry 28). -/
def Obligations.DmxAndRdm : Prop :=
  (∀ (u : Fin 4) (s : State),
    let c := s.chip
    let k := u.val
    let x := c.uart k
    let rdm := c.num (Obj.uartRdmStatus k)
    let packet : List Byte := BitVec.ofNat 8 (c.num (Obj.uartDmxStartCode k)) ::
      (upTo (c.num (Obj.uartDmxSlots k))).map (fun i => c.dmxSlot k (i + 1))
    let sent := emit (.packet k (c.num (Obj.uartDmxBreakUs k)) (c.num (Obj.uartDmxMabUs k)) packet) (modUart k (fun x => { x with dmxAt := some c.now }) c)
    (c.uartMode k ≠ 5 ∨ rdm = 1 → Leaves (.dmxPacket u) s c) ∧
    (∀ t, x.dmxAt = some t → c.now < t + c.num (Obj.uartDmxPeriodUs k) * 1000 → Leaves (.dmxPacket u) s c) ∧
    (c.uartMode k = 5 → rdm ≠ 1 → x.dmxAt = none → Leaves (.dmxPacket u) s sent) ∧
    (∀ t, c.uartMode k = 5 → rdm ≠ 1 → x.dmxAt = some t → t + c.num (Obj.uartDmxPeriodUs k) * 1000 ≤ c.now →
      Leaves (.dmxPacket u) s sent) ∧
    (c.uartMode k ≠ 6 → Leaves (.dmxBreak u) s c ∧ Leaves (.dmxIdle u) s c ∧ Leaves (.rdmResponse u) s c) ∧
    (let fresh (opened : Bool) (d : Chip) : Chip := modUart k (fun x => { x with dmxOpen := opened, dmxBuf := [], dmxBad := false }) d
     c.uartMode k = 6 →
     (x.dmxOpen = false ∨ x.dmxBuf = [] ∨ x.dmxBad = true ∨ x.dmxBuf.head? = some 0xCC →
       Leaves (.dmxBreak u) s (fresh true c) ∧ Leaves (.dmxIdle u) s (fresh false c)) ∧
     (x.dmxOpen = true → x.dmxBuf ≠ [] → x.dmxBad = false → x.dmxBuf.head? ≠ some 0xCC →
       let got := bump (Obj.uartDmxPackets k) (setBlob (Obj.uartDmxRxData k) x.dmxBuf c)
       Leaves (.dmxBreak u) s (fresh true got) ∧ Leaves (.dmxIdle u) s (fresh false got))) ∧
    (x.request = none → Leaves (.rdmResponse u) s c) ∧
    (∀ t, x.request = some t → c.uartMode k = 6 →
      (c.now < t + 200000 → Leaves (.rdmResponse u) s c) ∧
      (∀ brk bs, t + 200000 ≤ c.now → x.answer = some (brk, bs) → Leaves (.rdmResponse u) s
        (emit (.packet k (if brk then 176 else 0) (if brk then 12 else 0) bs) (modUart k (fun y => { y with answer := none, request := none }) c))) ∧
      (∀ bs, t + 200000 ≤ c.now → x.answer = none → x.response = some bs → Leaves (.rdmResponse u) s
        (emit (.packet k 176 12 bs) (modUart k (fun y => { y with response := none, request := none }) c))) ∧
      (t + 200000 ≤ c.now → x.answer = none → x.response = none → Leaves (.rdmResponse u) s c)) ∧
    (rdm ≠ 1 ∨ x.capture.isSome = true ∨ c.now < x.rdmEnd + 2800000 → Leaves (.rdmTimeout u) s c) ∧
    (rdm = 1 → x.capture = none → x.rdmEnd + 2800000 ≤ c.now → Leaves (.rdmTimeout u) s (setNum (Obj.uartRdmStatus k) 3 c)) ∧
    (rdm ≠ 1 ∨ x.capture = none → Leaves (.rdmReplyIdle u) s c) ∧
    (∀ brk bs bad, rdm = 1 → x.capture = some (brk, bs, bad) → Completes (.rdmReplyIdle u) s (fun t =>
      t.chip.blob (Obj.uartRdmReply k) = bs ∧ (t.chip.uart k).capture = none ∧
      t.chip.num (Obj.uartRdmStatus k) = if bad = false ∧ (if brk then rdmValid bs else rdmDiscoveryValid bs) = true then 2 else 4))) ∧
  (∀ (r : Req) (a : Nat) (u : Fin 4) (bs : List Byte) (s : State),
    let c := (judged r.path s).chip
    let k := u.val
    let x := c.uart k
    (Writes r a (Obj.uartRdmRequest k) bs s →
      let o := Obj.uartRdmRequest k
      (uartMay k a = false → Answers (.rdmRequest r u bs) r a o bs s c St.noAccess) ∧
      (uartMay k a = true → c.uartMode k ≠ 5 → Answers (.rdmRequest r u bs) r a o bs s c St.refused) ∧
      (uartMay k a = true → c.uartMode k = 5 → c.num (Obj.uartRdmStatus k) = 1 → Answers (.rdmRequest r u bs) r a o bs s c St.busy) ∧
      (uartMay k a = true → c.uartMode k = 5 → c.num (Obj.uartRdmStatus k) ≠ 1 → Completes (.rdmRequest r u bs) s (fun t => ∃ d,
        t = answered r a o bs ({ s with chip := d }, St.ok) ∧ d.num (Obj.uartRdmStatus k) = 1 ∧ d.blob (Obj.uartRdmReply k) = [] ∧
        (d.uart k).capture = none ∧
        d.out = c.out ++ [.packet k (c.num (Obj.uartDmxBreakUs k)) (c.num (Obj.uartDmxMabUs k)) bs]))) ∧
    (Writes r a (Obj.uartRdmOutbox k) bs s →
      let o := Obj.uartRdmOutbox k
      (uartMay k a = false → Answers (.rdmOutbox r u bs) r a o bs s c St.noAccess) ∧
      (uartMay k a = true → c.uartMode k ≠ 6 ∨ c.flag (Obj.uartRdmResponder k) = false ∨ x.answer.isSome = true ∨ x.request = none →
        Answers (.rdmOutbox r u bs) r a o bs s c St.refused) ∧
      (∀ t, uartMay k a = true → c.uartMode k = 6 → c.flag (Obj.uartRdmResponder k) = true → x.answer = none → x.request = some t →
        (c.now - t < 200000 → Answers (.rdmOutbox r u bs) r a o bs s (modUart k (fun y => { y with response := some bs }) c) St.ok) ∧
        (200000 ≤ c.now - t → c.now - t ≤ 1800000 → Answers (.rdmOutbox r u bs) r a o bs s
          (emit (.packet k 176 12 bs) (modUart k (fun y => { y with response := none, request := none }) c)) St.ok) ∧
        (1800000 < c.now - t → Answers (.rdmOutbox r u bs) r a o bs s
          (snagWith 0x0613 k 0xFF 0xFFFF ((c.now - t) / 1000) c) St.ok))))

/-- R526 to R531, R481, R535, R572, R583: CV strobes, read-backs, faults and retirement, sense samples, and TDM ports. -/
def Obligations.CvSenseAndTdm : Prop :=
  (∀ (group : Fin 4) (i : Fin 8) (s : State),
    let c := s.chip
    let n := c.time.stc - (c.bsize + 5)
    let ch := 8 * group.val + i.val
    let x := c.cv ch
    (c.time.stc < c.bsize + 5 ∨ n % c.cvEvery group.val ≠ 0 ∨ c.time.stopped = true ∨ c.time.silent = true → Leaves (.cvLoad group) s c) ∧
    (c.bsize + 5 ≤ c.time.stc → n % c.cvEvery group.val = 0 → c.time.stopped = false → c.time.silent = false →
      (∀ code rest, x.queue = (n, code) :: rest → Completes (.cvLoad group) s (fun t => (t.chip.cv ch).queue = rest ∧
        (t.chip.cv ch).base = code ∧ (t.chip.cv ch).before = c.num (Obj.cvCode ch) ∧ t.chip.num (Obj.cvRepeats ch) = c.num (Obj.cvRepeats ch) ∧
        t.chip.num (Obj.cvCode ch) = (if c.cvState ch = 0 then c.cvTrim ch code else c.cvMid ch))) ∧
      (x.queue = [] → c.num (Obj.cvRepeats ch) < 0xFFFFFFFF → Completes (.cvLoad group) s (fun t => (t.chip.cv ch).queue = [] ∧
        (t.chip.cv ch).base = x.base ∧ t.chip.num (Obj.cvRepeats ch) = c.num (Obj.cvRepeats ch) + 1 ∧
        t.chip.num (Obj.cvCode ch) = (if c.cvState ch = 0 then c.cvTrim ch x.base else c.cvMid ch))))) ∧
  (∀ (ch : Fin 32) (code : BitVec 16) (moved : Bool) (s : State),
    let c := s.chip
    let k := ch.val
    let x := c.cv k
    let tol := c.num Obj.cvTolerance
    let now := c.num (Obj.cvCode k)
    let apart (a b : Nat) : Bool := decide (tol < a - b) || decide (tol < b - a)
    let bad := apart code.toNat now
    (apart now x.before = true → Leaves (.cvReadback ch code true) s c) ∧
    (moved = false ∨ apart now x.before = false →
      (bad = false → c.cvState k = 0 → Completes (.cvReadback ch code moved) s (fun t => t.chip.cvState k = 0 ∧
        t.chip.num (Obj.cvReadback k) = code.toNat ∧ (t.chip.cv k).backs = (true :: x.backs).take 16 ∧
        t.chip.num (Obj.cvMismatches k) = c.num (Obj.cvMismatches k) ∧ t.chip.num (Obj.cvCode k) = now)) ∧
      (bad = true → c.cvState k = 0 → x.backs.take 2 ≠ [false, false] → Completes (.cvReadback ch code moved) s (fun t =>
        t.chip.cvState k = 0 ∧ t.chip.num (Obj.cvCode k) = now ∧
        t.chip.num (Obj.cvMismatches k) = min (c.num (Obj.cvMismatches k) + 1) 0xFFFFFFFF)) ∧
      (bad = true → c.cvState k = 0 → x.backs.take 2 = [false, false] → x.faults = [] → Completes (.cvReadback ch code moved) s (fun t =>
        t.chip.cvState k = 1 ∧ t.chip.num (Obj.cvCode k) = c.cvMid k ∧ (t.chip.cv k).faults = [c.now] ∧ .source 208 ∈ t.chip.out)) ∧
      (∀ t1 t2, bad = true → c.cvState k = 0 → x.backs.take 2 = [false, false] → x.faults = [t1, t2] → c.now < t1 + 10000000000 →
        c.now < t2 + 10000000000 → Completes (.cvReadback ch code moved) s (fun t => t.chip.cvState k = 2 ∧
          t.chip.num (Obj.cvRetired k) = 1 ∧ t.chip.flag (Obj.cvOutputOff k) = true ∧ t.chip.num (Obj.cvCode k) = c.cvMid k ∧
          .source 209 ∈ t.chip.out)) ∧
      (∀ t1, bad = false → c.cvState k = 1 → x.backs.take 15 = List.replicate 15 true → x.faults = [t1] →
        t1 + c.num Obj.cvHoldMs * 1000000 ≤ c.now → Completes (.cvReadback ch code moved) s (fun t => t.chip.cvState k = 0)) ∧
      (bad = true → c.cvState k = 1 → Completes (.cvReadback ch code moved) s (fun t => t.chip.cvState k = 1)) ∧
      (bad = true → c.cvState k = 2 → x.backs.take 2 = [false, false] → Completes (.cvReadback ch code moved) s (fun t =>
        t.chip.cvState k = 2 ∧ t.chip.flag (Obj.cvOutputOff k) = true)) ∧
      (c.cvState k = 3 → Completes (.cvReadback ch code moved) s (fun t => t.chip.cvState k = 3 ∧
        t.chip.num (Obj.cvReadback k) = code.toNat))) ∧
    (c.cvState k ≠ 1 → Leaves (.cvFaultTimeout ch) s c) ∧
    (∀ t rest, x.faults = t :: rest →
      (c.now < t + 1000000000 → Leaves (.cvFaultTimeout ch) s c) ∧
      (c.cvState k = 1 → t + 1000000000 ≤ c.now → Completes (.cvFaultTimeout ch) s (fun u => u.chip.cvState k = 2 ∧
        u.chip.num (Obj.cvRetired k) = 1 ∧ u.chip.num (Obj.cvCode k) = c.cvMid k ∧ .source 209 ∈ u.chip.out)))) ∧
  (∀ (codes : List (BitVec 16)) (n : Fin 16) (s : State),
    let c := s.chip
    (c.time.stc % c.senseEvery ≠ 0 ∨ c.time.stopped = true → Leaves (.senseSample codes) s c) ∧
    (c.time.stc % c.senseEvery = 0 → c.time.stopped = false →
      (c.flag (Obj.senseEnable n.val) = true → c.num (Obj.senseFilter n.val) = 0 → n.val < codes.length →
        Completes (.senseSample codes) s (fun t =>
          let v : Int := ((codes.getD n.val 0).toNat : Int) - 32768
          t.chip.snum 16 (Obj.senseValue n.val) = v ∧ (t.chip.sense n.val).seen = ((c.time.stc, v) :: (c.sense n.val).seen).take 2)) ∧
      (c.flag (Obj.senseEnable n.val) = false ∨ codes.length ≤ n.val → Completes (.senseSample codes) s (fun t =>
        t.chip.num (Obj.senseValue n.val) = c.num (Obj.senseValue n.val) ∧ t.chip.sense n.val = c.sense n.val)))) ∧
  (∀ (r : Req) (a : Nat) (ch : Fin 32) (s : State),
    let c := (judged r.path s).chip
    let k := ch.val
    let o := Obj.cvEnable k
    (c.may 0x10 k a 1 = false →
      (Writes r a o [0] s → Answers (.cvEnable r ch false) r a o [0] s c St.noAccess) ∧
      (Writes r a o [1] s → Answers (.cvEnable r ch true) r a o [1] s c St.noAccess)) ∧
    (c.may 0x10 k a 1 = true →
      (Writes r a o [0] s → Completes (.cvEnable r ch false) s (fun t => ∃ d, t = answered r a o [0] ({ s with chip := d }, St.ok) ∧
        d.cvState k = 3 ∧ d.num o = 0 ∧ d.num (Obj.cvCode k) = c.cvMid k)) ∧
      (Writes r a o [1] s → c.cvState k ≠ 3 → Answers (.cvEnable r ch true) r a o [1] s (setNum o 1 c) St.ok) ∧
      (Writes r a o [1] s → c.cvState k = 3 → c.num (Obj.cvRetired k) = 0 → Completes (.cvEnable r ch true) s (fun t => ∃ d,
        t = answered r a o [1] ({ s with chip := d }, St.ok) ∧ d.cvState k = 0 ∧ d.num (Obj.cvCode k) = c.cvTrim k (c.cv k).base))) ∧
    (Writes r a (Obj.cvRetired k) [0] s →
      (c.may 0x10 k a 1 = false ∨ c.may 0x10 k a 3 = false → Answers (.cvReinstate r ch) r a (Obj.cvRetired k) [0] s c St.noAccess) ∧
      (c.may 0x10 k a 1 = true → c.may 0x10 k a 3 = true → c.num (Obj.cvRetired k) = 0 →
        Answers (.cvReinstate r ch) r a (Obj.cvRetired k) [0] s c St.ok) ∧
      (c.may 0x10 k a 1 = true → c.may 0x10 k a 3 = true → c.num (Obj.cvRetired k) ≠ 0 → Completes (.cvReinstate r ch) s (fun t => ∃ d,
        t = answered r a (Obj.cvRetired k) [0] ({ s with chip := d }, St.ok) ∧ d.cvState k = 0 ∧ d.num (Obj.cvRetired k) = 0 ∧
        d.num (Obj.cvOutputOff k) = 0 ∧ (d.cv k).faults = [] ∧ (d.cv k).backs = [])))) ∧
  (∀ (r : Req) (a : Nat) (port : Fin 8) (framing : Bool) (v : Byte) (s : State),
    let c := (judged r.path s).chip
    let p := port.val
    let o := if framing then Obj.tdmFraming p else Obj.tdmMode p
    let per := c.tdmChannels / 8
    let all := (upTo per).all (fun i => c.may 0x0A (per * p + i) a 1 && c.may 0x0B (per * p + i) a 1)
    Writes r a o [v] s →
    (all = false → Answers (.tdmMode r port framing v) r a o [v] s c St.noAccess) ∧
    (all = true → Answers (.tdmMode r port framing v) r a o [v] s (modTdm p (fun x => { x with change := true }) (setNum o v.toNat c)) St.ok)) ∧
  (∀ (port : Fin 8) (s : State),
    let c := s.chip
    let p := port.val
    let st := c.num (Obj.tdmState p)
    (c.num (Obj.tdmMode p) ≠ 2 ∨ st = 0 →
      Leaves (.tdmRealignment port) s c ∧ Leaves (.tdmNoClock port) s c ∧ Leaves (.tdmFrameStart port) s c) ∧
    (c.num (Obj.tdmMode p) = 2 → st ≠ 0 →
      (st = 1 → Leaves (.tdmRealignment port) s (bump (Obj.tdmSlips p) (setNum (Obj.tdmState p) 3 c))) ∧
      (st ≠ 1 → Leaves (.tdmRealignment port) s c) ∧
      Leaves (.tdmNoClock port) s (setNum (Obj.tdmState p) 2 c) ∧
      (st ≠ 3 → Leaves (.tdmFrameStart port) s (setNum (Obj.tdmState p) 1 c)) ∧
      (st = 3 → Completes (.tdmFrameStart port) s (fun t => t.chip.num (Obj.tdmState p) = 1 ∧
        (t.chip.tdm p).quietUntil = max (c.tdm p).quietUntil (c.time.stc + 1)))))

/-- R238: the windows of LD and MAC (24 bits) and of LDW and MACW (48 bits) on a source in units of 2^-39, at every exponent E: their
limits, what they drop, and the count of what they clip. -/
def Obligations.LaneWindows : Prop :=
  (∀ (e : Nat) (x : Int), e ≤ 15 →
    let narrow := window false e x
    let wide := window true e x
    (x < -(2 ^ (39 + e)) → narrow = (-(2 ^ 23), true) ∧ wide = (-(2 ^ 47), true)) ∧
    (2 ^ (39 + e) ≤ x → narrow = (2 ^ 23 - 1, true) ∧ wide = (2 ^ 47 - 1, true)) ∧
    (-(2 ^ (39 + e)) ≤ x → x < 2 ^ (39 + e) →
      narrow.2 = false ∧ wide.2 = false ∧
      narrow.1 * 2 ^ (16 + e) ≤ x ∧ x < (narrow.1 + 1) * 2 ^ (16 + e) ∧ -(2 ^ 23) ≤ narrow.1 ∧ narrow.1 < 2 ^ 23 ∧
      wide.1 * 2 ^ e ≤ x * 2 ^ 8 ∧ x * 2 ^ 8 < (wide.1 + 1) * 2 ^ e ∧ -(2 ^ 47) ≤ wide.1 ∧ wide.1 < 2 ^ 47 ∧
      (e ≤ 8 → wide.1 * 2 ^ e = x * 2 ^ 8)) ∧
    (2 ^ 54 ≤ x → narrow.1 = 2 ^ 23 - 1 ∧ wide.1 = 2 ^ 47 - 1) ∧
    (x ≤ -(2 ^ 54) → narrow.1 = -(2 ^ 23) ∧ wide.1 = -(2 ^ 47))) ∧
  (∀ (c : Chip) (n lane : Nat) (pres : Table Int) (w : CoatWord) (p : Pass), 1 ≤ w.op → w.op ≤ 4 →
    (runWord c n lane pres w p).windowClips =
      p.windowClips + (if (window (decide (3 ≤ w.op)) w.e (c.source n pres p w.sk w.si).1).2 = true then 1 else 0)) ∧
  (∀ (c : Chip) (n : Nat),
    let d := presented n (advanceRamps (applySets n c))
    let a := runCoat d.2.skim.current n d.1 d.2 (sendStage n d.2)
    d.2.skim.wet.phase ≠ .crossing → (skimPass n c).num Obj.skimCountersWindowClips =
      min (c.num Obj.skimCountersWindowClips + a.windowClips) 0xFFFFFFFF)

/-- R239, R240: the gain and product of a lane's word, the accumulator it is loaded into or added to, and what PUT makes of the
accumulator at each destination, with the saturations counted. -/
def Obligations.LaneProducts : Prop :=
  (∀ (c : Chip) (n lane : Nat) (pres : Table Int) (w : CoatWord) (p : Pass), w.e ≤ 15 →
    let acc := match p.acc.find? (fun e => e.1 == lane) with | some e => e.2 | none => satBus (Config.laneAcc n lane)
    let g : Int := if w.g = 1 then c.rampGain w.ramp else 2 ^ 21
    let q := runWord c n lane pres w p
    let win (wide : Bool) : Int := (window wide w.e (c.source n pres p w.sk w.si).1).1
    let narrow := win false * g * 2 ^ w.e / 2 ^ 5
    let broad := win true * g * 2 ^ w.e / 2 ^ 29
    let load (z : Int) : Prop := tget 0 q.acc lane = max (-(2 ^ 55)) (min (2 ^ 55 - 1) z) ∧
      q.accClips = p.accClips + (if -(2 ^ 55) ≤ z ∧ z < 2 ^ 55 then 0 else 1)
    (w.op = 1 → load narrow) ∧ (w.op = 2 → load (narrow + acc)) ∧ (w.op = 3 → load broad) ∧ (w.op = 4 → load (broad + acc)) ∧
    (w.op = 1 → w.g = 0 → w.e = 0 → ∀ x, (c.source n pres p w.sk w.si).1 = x → -(2 ^ 39) ≤ x → x < 2 ^ 39 →
      tget 0 q.acc lane = x / 2 ^ 16 * 2 ^ 16)) ∧
  (∀ (c : Chip) (n lane : Nat) (pres : Table Int) (w : CoatWord) (p : Pass) (acc : Int), w.op = 5 →
    p.acc.find? (fun e => e.1 == lane) = some (lane, acc) →
    let q := runWord c n lane pres w p
    let sum := tget 0 p.buses w.di + acc
    q.acc = p.acc ∧
    (w.dk = 0 → tget 0 q.buses w.di = max (-(2 ^ 55)) (min (2 ^ 55 - 1) sum) ∧ (∀ k, k ≠ w.di → tget 0 q.buses k = tget 0 p.buses k) ∧
      q.busClips = p.busClips + (if -(2 ^ 55) ≤ sum ∧ sum < 2 ^ 55 then 0 else 1)) ∧
    (w.dk = 1 → tget 0 q.chain w.di = toSigned 64 (ofInt 64 (tget 0 p.chain w.di + acc)) ∧
      (∀ k, k ≠ w.di → tget 0 q.chain k = tget 0 p.chain k)) ∧
    (2 ≤ w.dk → tget 0 q.outs (tapKey w.dk w.di) = max (-(2 ^ 31)) (min (2 ^ 31 - 1) (acc / 2 ^ 16)) ∧
      (∀ k, k ≠ tapKey w.dk w.di → tget 0 q.outs k = tget 0 p.outs k) ∧
      q.tapClips = p.tapClips + (if -(2 ^ 47) ≤ acc ∧ acc < 2 ^ 47 then 0 else 1))) ∧
  (∀ (c : Chip) (n : Nat),
    let d := presented n (advanceRamps (applySets n c))
    let a := runCoat d.2.skim.current n d.1 d.2 (sendStage n d.2)
    let t := skimPass n c
    d.2.skim.wet.phase ≠ .crossing →
      t.num Obj.skimCountersAccClips = min (c.num Obj.skimCountersAccClips + a.accClips) 0xFFFFFFFF ∧
      t.num Obj.skimCountersBusClips = min (c.num Obj.skimCountersBusClips + a.busClips) 0xFFFFFFFF ∧
      t.num Obj.skimCountersTapClips = min (c.num Obj.skimCountersTapClips + a.tapClips) 0xFFFFFFFF)

/-- A step takes the command at the front of the queue and runs it with the queue's rest. -/
def Obligations.StepRunsFrontCommand : Prop :=
  ∀ (i : Instr) (rest : List Instr) (s : State), step { s with pending := i :: rest } = exec i { s with pending := rest }

/-- The model's choice (entry 2): with no command waiting the block idles. -/
def Obligations.EmptyQueueIdles : Prop := ∀ s : State, s.pending = [] → step s = .next s

/-- Every command, with any operands and in any state, ends in a next state, and no command touches the queue. -/
def Obligations.EveryCommandEndsAndKeepsQueue : Prop :=
  ∀ (i : Instr) (s : State), Completes i s (fun t => t.pending = s.pending)

/-- R317, R551: every step from a state whose Dust Sheet is in order ends in one whose Dust Sheet is in order: at most 4,096 keys in
canonical form, none under KEY_ID 0, and the flash key store in rising order of KEY_ID. -/
def Obligations.StepKeepsDustSheet : Prop :=
  ∀ s t : State, s.dust.ok → step s = .next t → t.dust.ok

/-- The state after reset: an empty queue, every object at the value its table gives (R418), an empty memory and Dust Sheet in
canonical form, STC and draws at 0, no voice, no session, no message.  The empty memory and the 0 values that no table gives are the
model's choice (entry 1). -/
def Obligations.ResetState : Prop :=
  let s := State.reset
  s.pending = [] ∧ (∀ o, s.chip.num o = objDflt o) ∧ s.chip.memOk ∧ s.dust.ok ∧ s.dust.keys = [] ∧ s.dust.store = [] ∧
  s.chip.time.stc = 0 ∧ s.chip.draws = 0 ∧ s.chip.out = [] ∧ s.chip.voiceList = [] ∧ s.chip.work.sessions = [] ∧
  s.chip.num Obj.chainState = 0 ∧ s.chip.num Obj.identityChipNumber = 0xFF ∧ s.chip.refState = refFree ∧
  (∀ u, (s.chip.uart u).rx = [] ∧ (s.chip.uart u).tx = [])

/-- R317: what a read returns, and all else it leaves of the chip, does not depend on the keys in the Dust Sheet or on their wrapped forms:
no master can read them. -/
def Obligations.KeysCannotBeRead : Prop :=
  ∀ (s : State) (keys store : Table (List Byte)) (t t' : State) (i : Instr),
    (∃ r object offset dst, i = .ndpRead r object offset dst) ∨ (∃ r q dst, i = .queueGet r q dst) ∨ (∃ r dst, i = .ndpIdentify r dst) ∨
      (∃ r u offset, i = .uartRxRead r u offset) ∨ (∃ o, i = .kolefRd o) ∨ i = .kolefId ∨ (∃ tenant n, i = .kolefLog tenant n) →
    exec i s = .next t → exec i { s with dust := { s.dust with keys := keys, store := store } } = .next t' → t'.chip = t.chip
end

