-- ==== Sys2Proof/Laws/Maps.lean ====
section
/-!
SUPPORT. The laws of sparse tables: read after write, and that every operation keeps the canonical form.
-/

namespace Sys2Proof.Machine

variable {α : Type}

/-- Sortedness above a bound holds above any lower one. -/
theorem tsorted_mono {t : Table α} {a b : Nat} (h : tsorted (some b) t = true) (hab : a ≤ b) : tsorted (some a) t = true := by
  cases t with
  | nil => rfl
  | cons e t =>
    simp only [tsorted, Bool.and_eq_true, decide_eq_true_eq] at h ⊢
    exact ⟨by omega, h.2⟩

/-- Sortedness above a bound is sortedness. -/
theorem tsorted_none {t : Table α} {a : Nat} (h : tsorted (some a) t = true) : tsorted none t = true := by
  cases t with
  | nil => rfl
  | cons e t =>
    simp only [tsorted, Bool.and_eq_true, decide_eq_true_eq] at h ⊢
    exact h.2

/-- What was put is read. -/
@[simp] theorem tget_tput_same (d : α) (t : Table α) (k : Nat) (v : α) : tget d (tput t k v) k = v := by
  induction t with
  | nil => simp [tput, tget]
  | cons e t ih =>
    obtain ⟨k', w⟩ := e
    by_cases h : k' = k
    · simp [tput, tget, h]
    · by_cases h2 : k < k' <;> simp [tput, tget, h, h2, ih]

/-- Putting leaves every other key alone. -/
theorem tget_tput_other (d : α) (t : Table α) {k j : Nat} (v : α) (h : j ≠ k) : tget d (tput t k v) j = tget d t j := by
  have h' : k ≠ j := Ne.symm h
  induction t with
  | nil => simp [tput, tget, h']
  | cons e t ih =>
    obtain ⟨k', w⟩ := e
    by_cases h1 : k' = k
    · subst h1
      simp [tput, tget, h']
    · by_cases h2 : k < k'
      · simp [tput, tget, h1, h2, h']
      · simp [tput, tget, h1, h2, ih]

/-- A deleted key reads the default. -/
@[simp] theorem tget_tdel_same (d : α) (t : Table α) (k : Nat) : tget d (tdel t k) k = d := by
  induction t with
  | nil => rfl
  | cons e t ih =>
    obtain ⟨k', w⟩ := e
    by_cases h : k' = k <;> simp [tdel, tget, h, ih]

/-- Deleting leaves every other key alone. -/
theorem tget_tdel_other (d : α) (t : Table α) {k j : Nat} (h : j ≠ k) : tget d (tdel t k) j = tget d t j := by
  induction t with
  | nil => rfl
  | cons e t ih =>
    obtain ⟨k', w⟩ := e
    by_cases h1 : k' = k
    · subst h1
      simp [tdel, tget, Ne.symm h, ih]
    · simp [tdel, tget, h1, ih]

/-- Read after write. -/
@[simp] theorem tget_tset_same [DecidableEq α] (d : α) (t : Table α) (k : Nat) (v : α) : tget d (tset d t k v) k = v := by
  simp only [tset]
  split
  · subst_vars
    exact tget_tdel_same _ t k
  · simp

/-- A write leaves every other key alone. -/
theorem tget_tset_other [DecidableEq α] (e : α) {d : α} (t : Table α) {k j : Nat} (v : α) (h : j ≠ k) :
    tget e (tset d t k v) j = tget e t j := by
  simp only [tset]
  split
  · exact tget_tdel_other e t h
  · exact tget_tput_other e t v h

/-- The record that changed. -/
@[simp] theorem tget_tmod_same [DecidableEq α] (d : α) (t : Table α) (k : Nat) (f : α → α) :
    tget d (tmod d t k f) k = f (tget d t k) := by simp [tmod]

/-- The others. -/
theorem tget_tmod_other [DecidableEq α] (d : α) (t : Table α) {k j : Nat} (f : α → α) (h : j ≠ k) :
    tget d (tmod d t k f) j = tget d t j := by
  simp only [tmod]
  exact tget_tset_other d t _ h

/-- A list of values is written at consecutive keys: every key outside them is left alone. -/
theorem tget_tsets_other [DecidableEq α] (d : α) (t : Table α) {k j : Nat} (vs : List α) (h : j < k ∨ k + vs.length ≤ j) :
    tget d (tsets d t k vs) j = tget d t j := by
  induction vs generalizing t k with
  | nil => rfl
  | cons v vs ih =>
    simp only [List.length_cons] at h
    rw [tsets, ih _ (by omega), tget_tset_other d t v (by omega)]

/-- A list of values written is read back. -/
theorem tgets_tsets_same [DecidableEq α] (d : α) (t : Table α) (k : Nat) (vs : List α) :
    tgets d (tsets d t k vs) k vs.length = vs := by
  induction vs generalizing t k with
  | nil => rfl
  | cons v vs ih =>
    simp only [List.length_cons, tgets, tsets]
    rw [ih, tget_tsets_other d _ vs (by omega), tget_tset_same]

/-- Putting above a bound keeps the order above it. -/
theorem tsorted_tput_some {t : Table α} {lo k : Nat} (v : α) (hs : tsorted (some lo) t = true) (hk : lo < k) :
    tsorted (some lo) (tput t k v) = true := by
  induction t generalizing lo with
  | nil => simp [tput, tsorted, hk]
  | cons e t ih =>
    obtain ⟨k', w⟩ := e
    simp only [tsorted, Bool.and_eq_true, decide_eq_true_eq] at hs
    simp only [tput]
    split
    · subst_vars
      simp [tsorted, hs.2, hk]
    · split
      · rename_i h1 h2
        simp [tsorted, hk, h2, hs.2]
      · rename_i h1 h2
        have : k' < k := by omega
        simp [tsorted, hs.1, ih hs.2 this]

/-- Putting keeps the order. -/
theorem tsorted_tput {t : Table α} {k : Nat} (v : α) (hs : tsorted none t = true) : tsorted none (tput t k v) = true := by
  cases t with
  | nil => simp [tput, tsorted]
  | cons e t =>
    obtain ⟨k', w⟩ := e
    have hs' : tsorted (some k') t = true := hs
    simp only [tput]
    split
    · subst_vars
      exact hs'
    · split
      · rename_i h1 h2
        simp [tsorted, h2, hs']
      · rename_i h1 h2
        exact tsorted_tput_some v hs' (by omega)

/-- Deleting keeps the order above a bound. -/
theorem tsorted_tdel_some {t : Table α} {lo k : Nat} (hs : tsorted (some lo) t = true) : tsorted (some lo) (tdel t k) = true := by
  induction t generalizing lo with
  | nil => rfl
  | cons e t ih =>
    obtain ⟨k', w⟩ := e
    simp only [tsorted, Bool.and_eq_true, decide_eq_true_eq] at hs
    simp only [tdel]
    split
    · exact ih (tsorted_mono hs.2 (Nat.le_of_lt hs.1))
    · simp [tsorted, hs.1, ih hs.2]

/-- Deleting keeps the order. -/
theorem tsorted_tdel {t : Table α} {k : Nat} (hs : tsorted none t = true) : tsorted none (tdel t k) = true := by
  induction t with
  | nil => rfl
  | cons e t ih =>
    obtain ⟨k', w⟩ := e
    have hs' : tsorted (some k') t = true := hs
    simp only [tdel]
    split
    · exact ih (tsorted_none hs')
    · exact tsorted_tdel_some hs'

/-- Everything listed after a deletion was listed before. -/
theorem mem_tdel {t : Table α} {k : Nat} {e : Nat × α} (h : e ∈ tdel t k) : e ∈ t := by
  induction t with
  | nil => exact h
  | cons f t ih =>
    obtain ⟨k', w⟩ := f
    simp only [tdel] at h
    split at h
    · exact List.mem_cons_of_mem _ (ih h)
    · rcases List.mem_cons.1 h with h | h
      · exact h ▸ List.mem_cons_self
      · exact List.mem_cons_of_mem _ (ih h)

/-- Everything listed after a put is the new entry or was listed before. -/
theorem mem_tput {t : Table α} {k : Nat} {v : α} {e : Nat × α} (h : e ∈ tput t k v) : e = (k, v) ∨ e ∈ t := by
  induction t with
  | nil => exact Or.inl (List.mem_singleton.1 h)
  | cons f t ih =>
    obtain ⟨k', w⟩ := f
    simp only [tput] at h
    split at h
    · rcases List.mem_cons.1 h with h | h
      · exact Or.inl h
      · exact Or.inr (List.mem_cons_of_mem _ h)
    · split at h
      · rcases List.mem_cons.1 h with h | h
        · exact Or.inl h
        · exact Or.inr h
      · rcases List.mem_cons.1 h with h | h
        · exact Or.inr (h ▸ List.mem_cons_self)
        · rcases ih h with h | h
          · exact Or.inl h
          · exact Or.inr (List.mem_cons_of_mem _ h)

/-- Dropping entries above a bound keeps the order. -/
theorem tsorted_filter {t : Table α} (p : Nat × α → Bool) {lo : Nat} (h : tsorted (some lo) t = true) :
    tsorted (some lo) (t.filter p) = true := by
  induction t generalizing lo with
  | nil => rfl
  | cons e t ih =>
    obtain ⟨k', w⟩ := e
    simp only [tsorted, Bool.and_eq_true, decide_eq_true_eq] at h
    by_cases hp : p (k', w) = true
    · simp [List.filter, hp, tsorted, h.1, ih h.2]
    · simp only [List.filter, hp]
      exact ih (tsorted_mono h.2 (Nat.le_of_lt h.1))

variable [DecidableEq α]

/-- The canonical form says that the keys rise. -/
theorem twf_sorted {d : α} {t : Table α} (h : twf d t = true) : tsorted none t = true := by
  simp only [twf, Bool.and_eq_true] at h
  exact h.1

/-- The empty table is in canonical form. -/
@[simp] theorem twf_nil (d : α) : twf d [] = true := rfl

/-- A deletion keeps the canonical form. -/
theorem twf_tdel {d : α} {t : Table α} (k : Nat) (h : twf d t = true) : twf d (tdel t k) = true := by
  simp only [twf, Bool.and_eq_true, List.all_eq_true] at h ⊢
  exact ⟨tsorted_tdel h.1, fun e he => h.2 e (mem_tdel he)⟩

/-- Putting a value other than the default keeps the canonical form. -/
theorem twf_tput {d : α} {t : Table α} (k : Nat) {v : α} (hv : v ≠ d) (h : twf d t = true) : twf d (tput t k v) = true := by
  simp only [twf, Bool.and_eq_true, List.all_eq_true, decide_eq_true_eq] at h ⊢
  refine ⟨tsorted_tput v h.1, fun e he => ?_⟩
  rcases mem_tput he with rfl | he
  · exact hv
  · exact h.2 e he

/-- A write keeps the canonical form. -/
theorem twf_tset {d : α} {t : Table α} (k : Nat) (v : α) (h : twf d t = true) : twf d (tset d t k v) = true := by
  simp only [tset]
  split
  · exact twf_tdel k h
  · exact twf_tput k ‹_› h

/-- Writing a list of values keeps the canonical form. -/
theorem twf_tsets {d : α} {t : Table α} (k : Nat) (vs : List α) (h : twf d t = true) : twf d (tsets d t k vs) = true := by
  induction vs generalizing t k with
  | nil => exact h
  | cons v vs ih => exact ih (k + 1) (twf_tset k v h)

/-- Dropping entries keeps the canonical form. -/
theorem twf_filter {d : α} {t : Table α} (p : Nat × α → Bool) (h : twf d t = true) : twf d (t.filter p) = true := by
  simp only [twf, Bool.and_eq_true, List.all_eq_true] at h ⊢
  refine ⟨?_, fun e he => h.2 e (List.mem_filter.1 he).1⟩
  have h1 := h.1
  clear h
  induction t with
  | nil => rfl
  | cons e t ih =>
    obtain ⟨k', w⟩ := e
    have hs' : tsorted (some k') t = true := h1
    by_cases hp : p (k', w) = true
    · simp only [List.filter, hp]
      exact tsorted_filter p hs'
    · simp only [List.filter, hp]
      exact ih (tsorted_none hs')

/-- Clearing a range keeps the canonical form. -/
theorem twf_tclear {d : α} {t : Table α} (lo hi : Nat) (h : twf d t = true) : twf d (tclear t lo hi) = true := twf_filter _ h

end Sys2Proof.Machine
end

