-- ==== Sys2Proof/Laws/State.lean ====
section
/-!
SUPPORT. What each named update of the chip leaves alone, field by field, and what it reads back.
-/

namespace Sys2Proof.Machine

variable (c : Chip)

/-! ### Read after write -/

/-- A number object takes its value, wrapped to its width. -/
@[simp] theorem num_setNum_same (o v : Nat) : (setNum o v c).num o = wrap (8 * objWidth o) v := tget_tset_same _ c.nums o _

/-- The other number objects. -/
theorem num_setNum_other {o p : Nat} (v : Nat) (h : p ≠ o) : (setNum o v c).num p = c.num p :=
  tget_tset_other _ c.nums _ h

/-- An octet object takes its value. -/
@[simp] theorem blob_setBlob_same (o : Nat) (v : List Byte) : (setBlob o v c).blob o = v := tget_tset_same _ c.blobs o v

/-- The other octet objects. -/
theorem blob_setBlob_other {o p : Nat} (v : List Byte) (h : p ≠ o) : (setBlob o v c).blob p = c.blob p :=
  tget_tset_other _ c.blobs _ h

/-- A counter goes up by one and saturates. -/
theorem num_bump_same (o : Nat) :
    (bump o c).num o = wrap (8 * objWidth o) (satAdd (8 * objWidth o) (c.num o) 1) := num_setNum_same c o _

/-- The other number objects. -/
theorem num_bump_other {o p : Nat} (h : p ≠ o) : (bump o c).num p = c.num p := num_setNum_other c _ h

/-- A tenant's record. -/
@[simp] theorem tenant_modTenant_same (t : Nat) (f : Tenant → Tenant) : (modTenant t f c).tenant t = f (c.tenant t) :=
  tget_tmod_same _ c.work.tenants t f

/-- The other tenants. -/
theorem tenant_modTenant_other {t u : Nat} (f : Tenant → Tenant) (h : u ≠ t) : (modTenant t f c).tenant u = c.tenant u :=
  tget_tmod_other _ c.work.tenants f h

/-- A queue's record. -/
@[simp] theorem queue_modQueue_same (i : Nat) (f : Queue → Queue) : (modQueue i f c).queue i = f (c.queue i) :=
  tget_tmod_same _ c.work.queues i f

/-- The other queues. -/
theorem queue_modQueue_other {i j : Nat} (f : Queue → Queue) (h : j ≠ i) : (modQueue i f c).queue j = c.queue j :=
  tget_tmod_other _ c.work.queues f h

/-- A thread's record. -/
@[simp] theorem thread_modThread_same (k : Nat) (f : Thread → Thread) : (modThread k f c).thread k = f (c.thread k) :=
  tget_tmod_same _ c.trowel.threads k f

/-- The other threads. -/
theorem thread_modThread_other {k j : Nat} (f : Thread → Thread) (h : j ≠ k) : (modThread k f c).thread j = c.thread j :=
  tget_tmod_other _ c.trowel.threads f h

/-- A core's record. -/
@[simp] theorem core_modCore_same (n : Nat) (f : CoreRun → CoreRun) : (modCore n f c).core n = f (c.core n) :=
  tget_tmod_same _ c.trowel.cores n f

/-- The other cores. -/
theorem core_modCore_other {n m : Nat} (f : CoreRun → CoreRun) (h : m ≠ n) : (modCore n f c).core m = c.core m :=
  tget_tmod_other _ c.trowel.cores f h

/-- A semaphore's record. -/
@[simp] theorem sem_modSem_same (g n : Nat) (f : Sem → Sem) : (modSem g n f c).sem g n = f (c.sem g n) :=
  tget_tmod_same _ c.trowel.sems (64 * g + n) f

/-- A UART's record. -/
@[simp] theorem uart_modUart_same (u : Nat) (f : Uart → Uart) : (modUart u f c).uart u = f (c.uart u) :=
  tget_tmod_same _ c.ports.uarts u f

/-! ### Field by field -/

@[simp] theorem setNum_blobs (o v : Nat) : (setNum o v c).blobs = c.blobs := rfl
@[simp] theorem setNum_flashNums (o v : Nat) : (setNum o v c).flashNums = c.flashNums := rfl
@[simp] theorem setNum_flashBlobs (o v : Nat) : (setNum o v c).flashBlobs = c.flashBlobs := rfl
@[simp] theorem setNum_flashPending (o v : Nat) : (setNum o v c).flashPending = c.flashPending := rfl
@[simp] theorem setNum_draws (o v : Nat) : (setNum o v c).draws = c.draws := rfl
@[simp] theorem setNum_time (o v : Nat) : (setNum o v c).time = c.time := rfl
@[simp] theorem setNum_work (o v : Nat) : (setNum o v c).work = c.work := rfl
@[simp] theorem setNum_can (o v : Nat) : (setNum o v c).can = c.can := rfl
@[simp] theorem setNum_trowel (o v : Nat) : (setNum o v c).trowel = c.trowel := rfl
@[simp] theorem setNum_setup (o v : Nat) : (setNum o v c).setup = c.setup := rfl
@[simp] theorem setNum_hawk (o v : Nat) : (setNum o v c).hawk = c.hawk := rfl
@[simp] theorem setNum_stipple (o v : Nat) : (setNum o v c).stipple = c.stipple := rfl
@[simp] theorem setNum_hod (o v : Nat) : (setNum o v c).hod = c.hod := rfl
@[simp] theorem setNum_skim (o v : Nat) : (setNum o v c).skim = c.skim := rfl
@[simp] theorem setNum_screed (o v : Nat) : (setNum o v c).screed = c.screed := rfl
@[simp] theorem setNum_boot (o v : Nat) : (setNum o v c).boot = c.boot := rfl
@[simp] theorem setNum_chain (o v : Nat) : (setNum o v c).chain = c.chain := rfl
@[simp] theorem setNum_errs (o v : Nat) : (setNum o v c).errs = c.errs := rfl
@[simp] theorem setNum_ports (o v : Nat) : (setNum o v c).ports = c.ports := rfl
@[simp] theorem setNum_mem (o v : Nat) : (setNum o v c).mem = c.mem := rfl
@[simp] theorem setNum_out (o v : Nat) : (setNum o v c).out = c.out := rfl
@[simp] theorem setNum_blob (o v : Nat) (p : Nat) : (setNum o v c).blob p = c.blob p := rfl

@[simp] theorem setInt_blobs (o : Nat) (z : Int) : (setInt o z c).blobs = c.blobs := rfl
@[simp] theorem setInt_flashNums (o : Nat) (z : Int) : (setInt o z c).flashNums = c.flashNums := rfl
@[simp] theorem setInt_flashBlobs (o : Nat) (z : Int) : (setInt o z c).flashBlobs = c.flashBlobs := rfl
@[simp] theorem setInt_flashPending (o : Nat) (z : Int) : (setInt o z c).flashPending = c.flashPending := rfl
@[simp] theorem setInt_draws (o : Nat) (z : Int) : (setInt o z c).draws = c.draws := rfl
@[simp] theorem setInt_time (o : Nat) (z : Int) : (setInt o z c).time = c.time := rfl
@[simp] theorem setInt_work (o : Nat) (z : Int) : (setInt o z c).work = c.work := rfl
@[simp] theorem setInt_can (o : Nat) (z : Int) : (setInt o z c).can = c.can := rfl
@[simp] theorem setInt_trowel (o : Nat) (z : Int) : (setInt o z c).trowel = c.trowel := rfl
@[simp] theorem setInt_setup (o : Nat) (z : Int) : (setInt o z c).setup = c.setup := rfl
@[simp] theorem setInt_hawk (o : Nat) (z : Int) : (setInt o z c).hawk = c.hawk := rfl
@[simp] theorem setInt_stipple (o : Nat) (z : Int) : (setInt o z c).stipple = c.stipple := rfl
@[simp] theorem setInt_hod (o : Nat) (z : Int) : (setInt o z c).hod = c.hod := rfl
@[simp] theorem setInt_skim (o : Nat) (z : Int) : (setInt o z c).skim = c.skim := rfl
@[simp] theorem setInt_screed (o : Nat) (z : Int) : (setInt o z c).screed = c.screed := rfl
@[simp] theorem setInt_boot (o : Nat) (z : Int) : (setInt o z c).boot = c.boot := rfl
@[simp] theorem setInt_chain (o : Nat) (z : Int) : (setInt o z c).chain = c.chain := rfl
@[simp] theorem setInt_errs (o : Nat) (z : Int) : (setInt o z c).errs = c.errs := rfl
@[simp] theorem setInt_ports (o : Nat) (z : Int) : (setInt o z c).ports = c.ports := rfl
@[simp] theorem setInt_mem (o : Nat) (z : Int) : (setInt o z c).mem = c.mem := rfl
@[simp] theorem setInt_out (o : Nat) (z : Int) : (setInt o z c).out = c.out := rfl
@[simp] theorem setInt_blob (o : Nat) (z : Int) (p : Nat) : (setInt o z c).blob p = c.blob p := rfl

@[simp] theorem setBlob_nums (o : Nat) (v : List Byte) : (setBlob o v c).nums = c.nums := rfl
@[simp] theorem setBlob_flashNums (o : Nat) (v : List Byte) : (setBlob o v c).flashNums = c.flashNums := rfl
@[simp] theorem setBlob_flashBlobs (o : Nat) (v : List Byte) : (setBlob o v c).flashBlobs = c.flashBlobs := rfl
@[simp] theorem setBlob_flashPending (o : Nat) (v : List Byte) : (setBlob o v c).flashPending = c.flashPending := rfl
@[simp] theorem setBlob_draws (o : Nat) (v : List Byte) : (setBlob o v c).draws = c.draws := rfl
@[simp] theorem setBlob_time (o : Nat) (v : List Byte) : (setBlob o v c).time = c.time := rfl
@[simp] theorem setBlob_work (o : Nat) (v : List Byte) : (setBlob o v c).work = c.work := rfl
@[simp] theorem setBlob_can (o : Nat) (v : List Byte) : (setBlob o v c).can = c.can := rfl
@[simp] theorem setBlob_trowel (o : Nat) (v : List Byte) : (setBlob o v c).trowel = c.trowel := rfl
@[simp] theorem setBlob_setup (o : Nat) (v : List Byte) : (setBlob o v c).setup = c.setup := rfl
@[simp] theorem setBlob_hawk (o : Nat) (v : List Byte) : (setBlob o v c).hawk = c.hawk := rfl
@[simp] theorem setBlob_stipple (o : Nat) (v : List Byte) : (setBlob o v c).stipple = c.stipple := rfl
@[simp] theorem setBlob_hod (o : Nat) (v : List Byte) : (setBlob o v c).hod = c.hod := rfl
@[simp] theorem setBlob_skim (o : Nat) (v : List Byte) : (setBlob o v c).skim = c.skim := rfl
@[simp] theorem setBlob_screed (o : Nat) (v : List Byte) : (setBlob o v c).screed = c.screed := rfl
@[simp] theorem setBlob_boot (o : Nat) (v : List Byte) : (setBlob o v c).boot = c.boot := rfl
@[simp] theorem setBlob_chain (o : Nat) (v : List Byte) : (setBlob o v c).chain = c.chain := rfl
@[simp] theorem setBlob_errs (o : Nat) (v : List Byte) : (setBlob o v c).errs = c.errs := rfl
@[simp] theorem setBlob_ports (o : Nat) (v : List Byte) : (setBlob o v c).ports = c.ports := rfl
@[simp] theorem setBlob_mem (o : Nat) (v : List Byte) : (setBlob o v c).mem = c.mem := rfl
@[simp] theorem setBlob_out (o : Nat) (v : List Byte) : (setBlob o v c).out = c.out := rfl
@[simp] theorem setBlob_num (o : Nat) (v : List Byte) (p : Nat) : (setBlob o v c).num p = c.num p := rfl

@[simp] theorem bumpBy_blobs (o k : Nat) : (bumpBy o k c).blobs = c.blobs := rfl
@[simp] theorem bumpBy_flashNums (o k : Nat) : (bumpBy o k c).flashNums = c.flashNums := rfl
@[simp] theorem bumpBy_flashBlobs (o k : Nat) : (bumpBy o k c).flashBlobs = c.flashBlobs := rfl
@[simp] theorem bumpBy_flashPending (o k : Nat) : (bumpBy o k c).flashPending = c.flashPending := rfl
@[simp] theorem bumpBy_draws (o k : Nat) : (bumpBy o k c).draws = c.draws := rfl
@[simp] theorem bumpBy_time (o k : Nat) : (bumpBy o k c).time = c.time := rfl
@[simp] theorem bumpBy_work (o k : Nat) : (bumpBy o k c).work = c.work := rfl
@[simp] theorem bumpBy_can (o k : Nat) : (bumpBy o k c).can = c.can := rfl
@[simp] theorem bumpBy_trowel (o k : Nat) : (bumpBy o k c).trowel = c.trowel := rfl
@[simp] theorem bumpBy_setup (o k : Nat) : (bumpBy o k c).setup = c.setup := rfl
@[simp] theorem bumpBy_hawk (o k : Nat) : (bumpBy o k c).hawk = c.hawk := rfl
@[simp] theorem bumpBy_stipple (o k : Nat) : (bumpBy o k c).stipple = c.stipple := rfl
@[simp] theorem bumpBy_hod (o k : Nat) : (bumpBy o k c).hod = c.hod := rfl
@[simp] theorem bumpBy_skim (o k : Nat) : (bumpBy o k c).skim = c.skim := rfl
@[simp] theorem bumpBy_screed (o k : Nat) : (bumpBy o k c).screed = c.screed := rfl
@[simp] theorem bumpBy_boot (o k : Nat) : (bumpBy o k c).boot = c.boot := rfl
@[simp] theorem bumpBy_chain (o k : Nat) : (bumpBy o k c).chain = c.chain := rfl
@[simp] theorem bumpBy_errs (o k : Nat) : (bumpBy o k c).errs = c.errs := rfl
@[simp] theorem bumpBy_ports (o k : Nat) : (bumpBy o k c).ports = c.ports := rfl
@[simp] theorem bumpBy_mem (o k : Nat) : (bumpBy o k c).mem = c.mem := rfl
@[simp] theorem bumpBy_out (o k : Nat) : (bumpBy o k c).out = c.out := rfl
@[simp] theorem bumpBy_blob (o k : Nat) (p : Nat) : (bumpBy o k c).blob p = c.blob p := rfl

@[simp] theorem bump_blobs (o : Nat) : (bump o c).blobs = c.blobs := rfl
@[simp] theorem bump_flashNums (o : Nat) : (bump o c).flashNums = c.flashNums := rfl
@[simp] theorem bump_flashBlobs (o : Nat) : (bump o c).flashBlobs = c.flashBlobs := rfl
@[simp] theorem bump_flashPending (o : Nat) : (bump o c).flashPending = c.flashPending := rfl
@[simp] theorem bump_draws (o : Nat) : (bump o c).draws = c.draws := rfl
@[simp] theorem bump_time (o : Nat) : (bump o c).time = c.time := rfl
@[simp] theorem bump_work (o : Nat) : (bump o c).work = c.work := rfl
@[simp] theorem bump_can (o : Nat) : (bump o c).can = c.can := rfl
@[simp] theorem bump_trowel (o : Nat) : (bump o c).trowel = c.trowel := rfl
@[simp] theorem bump_setup (o : Nat) : (bump o c).setup = c.setup := rfl
@[simp] theorem bump_hawk (o : Nat) : (bump o c).hawk = c.hawk := rfl
@[simp] theorem bump_stipple (o : Nat) : (bump o c).stipple = c.stipple := rfl
@[simp] theorem bump_hod (o : Nat) : (bump o c).hod = c.hod := rfl
@[simp] theorem bump_skim (o : Nat) : (bump o c).skim = c.skim := rfl
@[simp] theorem bump_screed (o : Nat) : (bump o c).screed = c.screed := rfl
@[simp] theorem bump_boot (o : Nat) : (bump o c).boot = c.boot := rfl
@[simp] theorem bump_chain (o : Nat) : (bump o c).chain = c.chain := rfl
@[simp] theorem bump_errs (o : Nat) : (bump o c).errs = c.errs := rfl
@[simp] theorem bump_ports (o : Nat) : (bump o c).ports = c.ports := rfl
@[simp] theorem bump_mem (o : Nat) : (bump o c).mem = c.mem := rfl
@[simp] theorem bump_out (o : Nat) : (bump o c).out = c.out := rfl
@[simp] theorem bump_blob (o : Nat) (p : Nat) : (bump o c).blob p = c.blob p := rfl

@[simp] theorem modWork_nums (f : Work → Work) : (modWork f c).nums = c.nums := rfl
@[simp] theorem modWork_blobs (f : Work → Work) : (modWork f c).blobs = c.blobs := rfl
@[simp] theorem modWork_flashNums (f : Work → Work) : (modWork f c).flashNums = c.flashNums := rfl
@[simp] theorem modWork_flashBlobs (f : Work → Work) : (modWork f c).flashBlobs = c.flashBlobs := rfl
@[simp] theorem modWork_flashPending (f : Work → Work) : (modWork f c).flashPending = c.flashPending := rfl
@[simp] theorem modWork_draws (f : Work → Work) : (modWork f c).draws = c.draws := rfl
@[simp] theorem modWork_time (f : Work → Work) : (modWork f c).time = c.time := rfl
@[simp] theorem modWork_can (f : Work → Work) : (modWork f c).can = c.can := rfl
@[simp] theorem modWork_trowel (f : Work → Work) : (modWork f c).trowel = c.trowel := rfl
@[simp] theorem modWork_setup (f : Work → Work) : (modWork f c).setup = c.setup := rfl
@[simp] theorem modWork_hawk (f : Work → Work) : (modWork f c).hawk = c.hawk := rfl
@[simp] theorem modWork_stipple (f : Work → Work) : (modWork f c).stipple = c.stipple := rfl
@[simp] theorem modWork_hod (f : Work → Work) : (modWork f c).hod = c.hod := rfl
@[simp] theorem modWork_skim (f : Work → Work) : (modWork f c).skim = c.skim := rfl
@[simp] theorem modWork_screed (f : Work → Work) : (modWork f c).screed = c.screed := rfl
@[simp] theorem modWork_boot (f : Work → Work) : (modWork f c).boot = c.boot := rfl
@[simp] theorem modWork_chain (f : Work → Work) : (modWork f c).chain = c.chain := rfl
@[simp] theorem modWork_errs (f : Work → Work) : (modWork f c).errs = c.errs := rfl
@[simp] theorem modWork_ports (f : Work → Work) : (modWork f c).ports = c.ports := rfl
@[simp] theorem modWork_mem (f : Work → Work) : (modWork f c).mem = c.mem := rfl
@[simp] theorem modWork_out (f : Work → Work) : (modWork f c).out = c.out := rfl
@[simp] theorem modWork_num (f : Work → Work) (p : Nat) : (modWork f c).num p = c.num p := rfl
@[simp] theorem modWork_blob (f : Work → Work) (p : Nat) : (modWork f c).blob p = c.blob p := rfl

@[simp] theorem modJournal_nums (f : Journal → Journal) : (modJournal f c).nums = c.nums := rfl
@[simp] theorem modJournal_blobs (f : Journal → Journal) : (modJournal f c).blobs = c.blobs := rfl
@[simp] theorem modJournal_flashNums (f : Journal → Journal) : (modJournal f c).flashNums = c.flashNums := rfl
@[simp] theorem modJournal_flashBlobs (f : Journal → Journal) : (modJournal f c).flashBlobs = c.flashBlobs := rfl
@[simp] theorem modJournal_flashPending (f : Journal → Journal) : (modJournal f c).flashPending = c.flashPending := rfl
@[simp] theorem modJournal_draws (f : Journal → Journal) : (modJournal f c).draws = c.draws := rfl
@[simp] theorem modJournal_time (f : Journal → Journal) : (modJournal f c).time = c.time := rfl
@[simp] theorem modJournal_can (f : Journal → Journal) : (modJournal f c).can = c.can := rfl
@[simp] theorem modJournal_trowel (f : Journal → Journal) : (modJournal f c).trowel = c.trowel := rfl
@[simp] theorem modJournal_setup (f : Journal → Journal) : (modJournal f c).setup = c.setup := rfl
@[simp] theorem modJournal_hawk (f : Journal → Journal) : (modJournal f c).hawk = c.hawk := rfl
@[simp] theorem modJournal_stipple (f : Journal → Journal) : (modJournal f c).stipple = c.stipple := rfl
@[simp] theorem modJournal_hod (f : Journal → Journal) : (modJournal f c).hod = c.hod := rfl
@[simp] theorem modJournal_skim (f : Journal → Journal) : (modJournal f c).skim = c.skim := rfl
@[simp] theorem modJournal_screed (f : Journal → Journal) : (modJournal f c).screed = c.screed := rfl
@[simp] theorem modJournal_boot (f : Journal → Journal) : (modJournal f c).boot = c.boot := rfl
@[simp] theorem modJournal_chain (f : Journal → Journal) : (modJournal f c).chain = c.chain := rfl
@[simp] theorem modJournal_errs (f : Journal → Journal) : (modJournal f c).errs = c.errs := rfl
@[simp] theorem modJournal_ports (f : Journal → Journal) : (modJournal f c).ports = c.ports := rfl
@[simp] theorem modJournal_mem (f : Journal → Journal) : (modJournal f c).mem = c.mem := rfl
@[simp] theorem modJournal_out (f : Journal → Journal) : (modJournal f c).out = c.out := rfl
@[simp] theorem modJournal_num (f : Journal → Journal) (p : Nat) : (modJournal f c).num p = c.num p := rfl
@[simp] theorem modJournal_blob (f : Journal → Journal) (p : Nat) : (modJournal f c).blob p = c.blob p := rfl

@[simp] theorem modTenant_nums (t : Nat) (f : Tenant → Tenant) : (modTenant t f c).nums = c.nums := rfl
@[simp] theorem modTenant_blobs (t : Nat) (f : Tenant → Tenant) : (modTenant t f c).blobs = c.blobs := rfl
@[simp] theorem modTenant_flashNums (t : Nat) (f : Tenant → Tenant) : (modTenant t f c).flashNums = c.flashNums := rfl
@[simp] theorem modTenant_flashBlobs (t : Nat) (f : Tenant → Tenant) : (modTenant t f c).flashBlobs = c.flashBlobs := rfl
@[simp] theorem modTenant_flashPending (t : Nat) (f : Tenant → Tenant) : (modTenant t f c).flashPending = c.flashPending := rfl
@[simp] theorem modTenant_draws (t : Nat) (f : Tenant → Tenant) : (modTenant t f c).draws = c.draws := rfl
@[simp] theorem modTenant_time (t : Nat) (f : Tenant → Tenant) : (modTenant t f c).time = c.time := rfl
@[simp] theorem modTenant_can (t : Nat) (f : Tenant → Tenant) : (modTenant t f c).can = c.can := rfl
@[simp] theorem modTenant_trowel (t : Nat) (f : Tenant → Tenant) : (modTenant t f c).trowel = c.trowel := rfl
@[simp] theorem modTenant_setup (t : Nat) (f : Tenant → Tenant) : (modTenant t f c).setup = c.setup := rfl
@[simp] theorem modTenant_hawk (t : Nat) (f : Tenant → Tenant) : (modTenant t f c).hawk = c.hawk := rfl
@[simp] theorem modTenant_stipple (t : Nat) (f : Tenant → Tenant) : (modTenant t f c).stipple = c.stipple := rfl
@[simp] theorem modTenant_hod (t : Nat) (f : Tenant → Tenant) : (modTenant t f c).hod = c.hod := rfl
@[simp] theorem modTenant_skim (t : Nat) (f : Tenant → Tenant) : (modTenant t f c).skim = c.skim := rfl
@[simp] theorem modTenant_screed (t : Nat) (f : Tenant → Tenant) : (modTenant t f c).screed = c.screed := rfl
@[simp] theorem modTenant_boot (t : Nat) (f : Tenant → Tenant) : (modTenant t f c).boot = c.boot := rfl
@[simp] theorem modTenant_chain (t : Nat) (f : Tenant → Tenant) : (modTenant t f c).chain = c.chain := rfl
@[simp] theorem modTenant_errs (t : Nat) (f : Tenant → Tenant) : (modTenant t f c).errs = c.errs := rfl
@[simp] theorem modTenant_ports (t : Nat) (f : Tenant → Tenant) : (modTenant t f c).ports = c.ports := rfl
@[simp] theorem modTenant_mem (t : Nat) (f : Tenant → Tenant) : (modTenant t f c).mem = c.mem := rfl
@[simp] theorem modTenant_out (t : Nat) (f : Tenant → Tenant) : (modTenant t f c).out = c.out := rfl
@[simp] theorem modTenant_num (t : Nat) (f : Tenant → Tenant) (p : Nat) : (modTenant t f c).num p = c.num p := rfl
@[simp] theorem modTenant_blob (t : Nat) (f : Tenant → Tenant) (p : Nat) : (modTenant t f c).blob p = c.blob p := rfl

@[simp] theorem modQueue_nums (i : Nat) (f : Queue → Queue) : (modQueue i f c).nums = c.nums := rfl
@[simp] theorem modQueue_blobs (i : Nat) (f : Queue → Queue) : (modQueue i f c).blobs = c.blobs := rfl
@[simp] theorem modQueue_flashNums (i : Nat) (f : Queue → Queue) : (modQueue i f c).flashNums = c.flashNums := rfl
@[simp] theorem modQueue_flashBlobs (i : Nat) (f : Queue → Queue) : (modQueue i f c).flashBlobs = c.flashBlobs := rfl
@[simp] theorem modQueue_flashPending (i : Nat) (f : Queue → Queue) : (modQueue i f c).flashPending = c.flashPending := rfl
@[simp] theorem modQueue_draws (i : Nat) (f : Queue → Queue) : (modQueue i f c).draws = c.draws := rfl
@[simp] theorem modQueue_time (i : Nat) (f : Queue → Queue) : (modQueue i f c).time = c.time := rfl
@[simp] theorem modQueue_can (i : Nat) (f : Queue → Queue) : (modQueue i f c).can = c.can := rfl
@[simp] theorem modQueue_trowel (i : Nat) (f : Queue → Queue) : (modQueue i f c).trowel = c.trowel := rfl
@[simp] theorem modQueue_setup (i : Nat) (f : Queue → Queue) : (modQueue i f c).setup = c.setup := rfl
@[simp] theorem modQueue_hawk (i : Nat) (f : Queue → Queue) : (modQueue i f c).hawk = c.hawk := rfl
@[simp] theorem modQueue_stipple (i : Nat) (f : Queue → Queue) : (modQueue i f c).stipple = c.stipple := rfl
@[simp] theorem modQueue_hod (i : Nat) (f : Queue → Queue) : (modQueue i f c).hod = c.hod := rfl
@[simp] theorem modQueue_skim (i : Nat) (f : Queue → Queue) : (modQueue i f c).skim = c.skim := rfl
@[simp] theorem modQueue_screed (i : Nat) (f : Queue → Queue) : (modQueue i f c).screed = c.screed := rfl
@[simp] theorem modQueue_boot (i : Nat) (f : Queue → Queue) : (modQueue i f c).boot = c.boot := rfl
@[simp] theorem modQueue_chain (i : Nat) (f : Queue → Queue) : (modQueue i f c).chain = c.chain := rfl
@[simp] theorem modQueue_errs (i : Nat) (f : Queue → Queue) : (modQueue i f c).errs = c.errs := rfl
@[simp] theorem modQueue_ports (i : Nat) (f : Queue → Queue) : (modQueue i f c).ports = c.ports := rfl
@[simp] theorem modQueue_mem (i : Nat) (f : Queue → Queue) : (modQueue i f c).mem = c.mem := rfl
@[simp] theorem modQueue_out (i : Nat) (f : Queue → Queue) : (modQueue i f c).out = c.out := rfl
@[simp] theorem modQueue_num (i : Nat) (f : Queue → Queue) (p : Nat) : (modQueue i f c).num p = c.num p := rfl
@[simp] theorem modQueue_blob (i : Nat) (f : Queue → Queue) (p : Nat) : (modQueue i f c).blob p = c.blob p := rfl

@[simp] theorem modMail_nums (i : Nat) (f : Mailbox → Mailbox) : (modMail i f c).nums = c.nums := rfl
@[simp] theorem modMail_blobs (i : Nat) (f : Mailbox → Mailbox) : (modMail i f c).blobs = c.blobs := rfl
@[simp] theorem modMail_flashNums (i : Nat) (f : Mailbox → Mailbox) : (modMail i f c).flashNums = c.flashNums := rfl
@[simp] theorem modMail_flashBlobs (i : Nat) (f : Mailbox → Mailbox) : (modMail i f c).flashBlobs = c.flashBlobs := rfl
@[simp] theorem modMail_flashPending (i : Nat) (f : Mailbox → Mailbox) : (modMail i f c).flashPending = c.flashPending := rfl
@[simp] theorem modMail_draws (i : Nat) (f : Mailbox → Mailbox) : (modMail i f c).draws = c.draws := rfl
@[simp] theorem modMail_time (i : Nat) (f : Mailbox → Mailbox) : (modMail i f c).time = c.time := rfl
@[simp] theorem modMail_can (i : Nat) (f : Mailbox → Mailbox) : (modMail i f c).can = c.can := rfl
@[simp] theorem modMail_trowel (i : Nat) (f : Mailbox → Mailbox) : (modMail i f c).trowel = c.trowel := rfl
@[simp] theorem modMail_setup (i : Nat) (f : Mailbox → Mailbox) : (modMail i f c).setup = c.setup := rfl
@[simp] theorem modMail_hawk (i : Nat) (f : Mailbox → Mailbox) : (modMail i f c).hawk = c.hawk := rfl
@[simp] theorem modMail_stipple (i : Nat) (f : Mailbox → Mailbox) : (modMail i f c).stipple = c.stipple := rfl
@[simp] theorem modMail_hod (i : Nat) (f : Mailbox → Mailbox) : (modMail i f c).hod = c.hod := rfl
@[simp] theorem modMail_skim (i : Nat) (f : Mailbox → Mailbox) : (modMail i f c).skim = c.skim := rfl
@[simp] theorem modMail_screed (i : Nat) (f : Mailbox → Mailbox) : (modMail i f c).screed = c.screed := rfl
@[simp] theorem modMail_boot (i : Nat) (f : Mailbox → Mailbox) : (modMail i f c).boot = c.boot := rfl
@[simp] theorem modMail_chain (i : Nat) (f : Mailbox → Mailbox) : (modMail i f c).chain = c.chain := rfl
@[simp] theorem modMail_errs (i : Nat) (f : Mailbox → Mailbox) : (modMail i f c).errs = c.errs := rfl
@[simp] theorem modMail_ports (i : Nat) (f : Mailbox → Mailbox) : (modMail i f c).ports = c.ports := rfl
@[simp] theorem modMail_mem (i : Nat) (f : Mailbox → Mailbox) : (modMail i f c).mem = c.mem := rfl
@[simp] theorem modMail_out (i : Nat) (f : Mailbox → Mailbox) : (modMail i f c).out = c.out := rfl
@[simp] theorem modMail_num (i : Nat) (f : Mailbox → Mailbox) (p : Nat) : (modMail i f c).num p = c.num p := rfl
@[simp] theorem modMail_blob (i : Nat) (f : Mailbox → Mailbox) (p : Nat) : (modMail i f c).blob p = c.blob p := rfl

@[simp] theorem modTime_nums (f : Time → Time) : (modTime f c).nums = c.nums := rfl
@[simp] theorem modTime_blobs (f : Time → Time) : (modTime f c).blobs = c.blobs := rfl
@[simp] theorem modTime_flashNums (f : Time → Time) : (modTime f c).flashNums = c.flashNums := rfl
@[simp] theorem modTime_flashBlobs (f : Time → Time) : (modTime f c).flashBlobs = c.flashBlobs := rfl
@[simp] theorem modTime_flashPending (f : Time → Time) : (modTime f c).flashPending = c.flashPending := rfl
@[simp] theorem modTime_draws (f : Time → Time) : (modTime f c).draws = c.draws := rfl
@[simp] theorem modTime_work (f : Time → Time) : (modTime f c).work = c.work := rfl
@[simp] theorem modTime_can (f : Time → Time) : (modTime f c).can = c.can := rfl
@[simp] theorem modTime_trowel (f : Time → Time) : (modTime f c).trowel = c.trowel := rfl
@[simp] theorem modTime_setup (f : Time → Time) : (modTime f c).setup = c.setup := rfl
@[simp] theorem modTime_hawk (f : Time → Time) : (modTime f c).hawk = c.hawk := rfl
@[simp] theorem modTime_stipple (f : Time → Time) : (modTime f c).stipple = c.stipple := rfl
@[simp] theorem modTime_hod (f : Time → Time) : (modTime f c).hod = c.hod := rfl
@[simp] theorem modTime_skim (f : Time → Time) : (modTime f c).skim = c.skim := rfl
@[simp] theorem modTime_screed (f : Time → Time) : (modTime f c).screed = c.screed := rfl
@[simp] theorem modTime_boot (f : Time → Time) : (modTime f c).boot = c.boot := rfl
@[simp] theorem modTime_chain (f : Time → Time) : (modTime f c).chain = c.chain := rfl
@[simp] theorem modTime_errs (f : Time → Time) : (modTime f c).errs = c.errs := rfl
@[simp] theorem modTime_ports (f : Time → Time) : (modTime f c).ports = c.ports := rfl
@[simp] theorem modTime_mem (f : Time → Time) : (modTime f c).mem = c.mem := rfl
@[simp] theorem modTime_out (f : Time → Time) : (modTime f c).out = c.out := rfl
@[simp] theorem modTime_num (f : Time → Time) (p : Nat) : (modTime f c).num p = c.num p := rfl
@[simp] theorem modTime_blob (f : Time → Time) (p : Nat) : (modTime f c).blob p = c.blob p := rfl

@[simp] theorem emit_nums (x : Out) : (emit x c).nums = c.nums := rfl
@[simp] theorem emit_blobs (x : Out) : (emit x c).blobs = c.blobs := rfl
@[simp] theorem emit_flashNums (x : Out) : (emit x c).flashNums = c.flashNums := rfl
@[simp] theorem emit_flashBlobs (x : Out) : (emit x c).flashBlobs = c.flashBlobs := rfl
@[simp] theorem emit_flashPending (x : Out) : (emit x c).flashPending = c.flashPending := rfl
@[simp] theorem emit_draws (x : Out) : (emit x c).draws = c.draws := rfl
@[simp] theorem emit_time (x : Out) : (emit x c).time = c.time := rfl
@[simp] theorem emit_work (x : Out) : (emit x c).work = c.work := rfl
@[simp] theorem emit_can (x : Out) : (emit x c).can = c.can := rfl
@[simp] theorem emit_trowel (x : Out) : (emit x c).trowel = c.trowel := rfl
@[simp] theorem emit_setup (x : Out) : (emit x c).setup = c.setup := rfl
@[simp] theorem emit_hawk (x : Out) : (emit x c).hawk = c.hawk := rfl
@[simp] theorem emit_stipple (x : Out) : (emit x c).stipple = c.stipple := rfl
@[simp] theorem emit_hod (x : Out) : (emit x c).hod = c.hod := rfl
@[simp] theorem emit_skim (x : Out) : (emit x c).skim = c.skim := rfl
@[simp] theorem emit_screed (x : Out) : (emit x c).screed = c.screed := rfl
@[simp] theorem emit_boot (x : Out) : (emit x c).boot = c.boot := rfl
@[simp] theorem emit_chain (x : Out) : (emit x c).chain = c.chain := rfl
@[simp] theorem emit_errs (x : Out) : (emit x c).errs = c.errs := rfl
@[simp] theorem emit_ports (x : Out) : (emit x c).ports = c.ports := rfl
@[simp] theorem emit_mem (x : Out) : (emit x c).mem = c.mem := rfl
@[simp] theorem emit_num (x : Out) (p : Nat) : (emit x c).num p = c.num p := rfl
@[simp] theorem emit_blob (x : Out) (p : Nat) : (emit x c).blob p = c.blob p := rfl

@[simp] theorem modPorts_nums (f : Ports → Ports) : (modPorts f c).nums = c.nums := rfl
@[simp] theorem modPorts_blobs (f : Ports → Ports) : (modPorts f c).blobs = c.blobs := rfl
@[simp] theorem modPorts_flashNums (f : Ports → Ports) : (modPorts f c).flashNums = c.flashNums := rfl
@[simp] theorem modPorts_flashBlobs (f : Ports → Ports) : (modPorts f c).flashBlobs = c.flashBlobs := rfl
@[simp] theorem modPorts_flashPending (f : Ports → Ports) : (modPorts f c).flashPending = c.flashPending := rfl
@[simp] theorem modPorts_draws (f : Ports → Ports) : (modPorts f c).draws = c.draws := rfl
@[simp] theorem modPorts_time (f : Ports → Ports) : (modPorts f c).time = c.time := rfl
@[simp] theorem modPorts_work (f : Ports → Ports) : (modPorts f c).work = c.work := rfl
@[simp] theorem modPorts_can (f : Ports → Ports) : (modPorts f c).can = c.can := rfl
@[simp] theorem modPorts_trowel (f : Ports → Ports) : (modPorts f c).trowel = c.trowel := rfl
@[simp] theorem modPorts_setup (f : Ports → Ports) : (modPorts f c).setup = c.setup := rfl
@[simp] theorem modPorts_hawk (f : Ports → Ports) : (modPorts f c).hawk = c.hawk := rfl
@[simp] theorem modPorts_stipple (f : Ports → Ports) : (modPorts f c).stipple = c.stipple := rfl
@[simp] theorem modPorts_hod (f : Ports → Ports) : (modPorts f c).hod = c.hod := rfl
@[simp] theorem modPorts_skim (f : Ports → Ports) : (modPorts f c).skim = c.skim := rfl
@[simp] theorem modPorts_screed (f : Ports → Ports) : (modPorts f c).screed = c.screed := rfl
@[simp] theorem modPorts_boot (f : Ports → Ports) : (modPorts f c).boot = c.boot := rfl
@[simp] theorem modPorts_chain (f : Ports → Ports) : (modPorts f c).chain = c.chain := rfl
@[simp] theorem modPorts_errs (f : Ports → Ports) : (modPorts f c).errs = c.errs := rfl
@[simp] theorem modPorts_mem (f : Ports → Ports) : (modPorts f c).mem = c.mem := rfl
@[simp] theorem modPorts_out (f : Ports → Ports) : (modPorts f c).out = c.out := rfl
@[simp] theorem modPorts_num (f : Ports → Ports) (p : Nat) : (modPorts f c).num p = c.num p := rfl
@[simp] theorem modPorts_blob (f : Ports → Ports) (p : Nat) : (modPorts f c).blob p = c.blob p := rfl

@[simp] theorem modUart_nums (u : Nat) (f : Uart → Uart) : (modUart u f c).nums = c.nums := rfl
@[simp] theorem modUart_blobs (u : Nat) (f : Uart → Uart) : (modUart u f c).blobs = c.blobs := rfl
@[simp] theorem modUart_flashNums (u : Nat) (f : Uart → Uart) : (modUart u f c).flashNums = c.flashNums := rfl
@[simp] theorem modUart_flashBlobs (u : Nat) (f : Uart → Uart) : (modUart u f c).flashBlobs = c.flashBlobs := rfl
@[simp] theorem modUart_flashPending (u : Nat) (f : Uart → Uart) : (modUart u f c).flashPending = c.flashPending := rfl
@[simp] theorem modUart_draws (u : Nat) (f : Uart → Uart) : (modUart u f c).draws = c.draws := rfl
@[simp] theorem modUart_time (u : Nat) (f : Uart → Uart) : (modUart u f c).time = c.time := rfl
@[simp] theorem modUart_work (u : Nat) (f : Uart → Uart) : (modUart u f c).work = c.work := rfl
@[simp] theorem modUart_can (u : Nat) (f : Uart → Uart) : (modUart u f c).can = c.can := rfl
@[simp] theorem modUart_trowel (u : Nat) (f : Uart → Uart) : (modUart u f c).trowel = c.trowel := rfl
@[simp] theorem modUart_setup (u : Nat) (f : Uart → Uart) : (modUart u f c).setup = c.setup := rfl
@[simp] theorem modUart_hawk (u : Nat) (f : Uart → Uart) : (modUart u f c).hawk = c.hawk := rfl
@[simp] theorem modUart_stipple (u : Nat) (f : Uart → Uart) : (modUart u f c).stipple = c.stipple := rfl
@[simp] theorem modUart_hod (u : Nat) (f : Uart → Uart) : (modUart u f c).hod = c.hod := rfl
@[simp] theorem modUart_skim (u : Nat) (f : Uart → Uart) : (modUart u f c).skim = c.skim := rfl
@[simp] theorem modUart_screed (u : Nat) (f : Uart → Uart) : (modUart u f c).screed = c.screed := rfl
@[simp] theorem modUart_boot (u : Nat) (f : Uart → Uart) : (modUart u f c).boot = c.boot := rfl
@[simp] theorem modUart_chain (u : Nat) (f : Uart → Uart) : (modUart u f c).chain = c.chain := rfl
@[simp] theorem modUart_errs (u : Nat) (f : Uart → Uart) : (modUart u f c).errs = c.errs := rfl
@[simp] theorem modUart_mem (u : Nat) (f : Uart → Uart) : (modUart u f c).mem = c.mem := rfl
@[simp] theorem modUart_out (u : Nat) (f : Uart → Uart) : (modUart u f c).out = c.out := rfl
@[simp] theorem modUart_num (u : Nat) (f : Uart → Uart) (p : Nat) : (modUart u f c).num p = c.num p := rfl
@[simp] theorem modUart_blob (u : Nat) (f : Uart → Uart) (p : Nat) : (modUart u f c).blob p = c.blob p := rfl

@[simp] theorem modCan_nums (f : Can → Can) : (modCan f c).nums = c.nums := rfl
@[simp] theorem modCan_blobs (f : Can → Can) : (modCan f c).blobs = c.blobs := rfl
@[simp] theorem modCan_flashNums (f : Can → Can) : (modCan f c).flashNums = c.flashNums := rfl
@[simp] theorem modCan_flashBlobs (f : Can → Can) : (modCan f c).flashBlobs = c.flashBlobs := rfl
@[simp] theorem modCan_flashPending (f : Can → Can) : (modCan f c).flashPending = c.flashPending := rfl
@[simp] theorem modCan_draws (f : Can → Can) : (modCan f c).draws = c.draws := rfl
@[simp] theorem modCan_time (f : Can → Can) : (modCan f c).time = c.time := rfl
@[simp] theorem modCan_work (f : Can → Can) : (modCan f c).work = c.work := rfl
@[simp] theorem modCan_trowel (f : Can → Can) : (modCan f c).trowel = c.trowel := rfl
@[simp] theorem modCan_setup (f : Can → Can) : (modCan f c).setup = c.setup := rfl
@[simp] theorem modCan_hawk (f : Can → Can) : (modCan f c).hawk = c.hawk := rfl
@[simp] theorem modCan_stipple (f : Can → Can) : (modCan f c).stipple = c.stipple := rfl
@[simp] theorem modCan_hod (f : Can → Can) : (modCan f c).hod = c.hod := rfl
@[simp] theorem modCan_skim (f : Can → Can) : (modCan f c).skim = c.skim := rfl
@[simp] theorem modCan_screed (f : Can → Can) : (modCan f c).screed = c.screed := rfl
@[simp] theorem modCan_boot (f : Can → Can) : (modCan f c).boot = c.boot := rfl
@[simp] theorem modCan_chain (f : Can → Can) : (modCan f c).chain = c.chain := rfl
@[simp] theorem modCan_errs (f : Can → Can) : (modCan f c).errs = c.errs := rfl
@[simp] theorem modCan_ports (f : Can → Can) : (modCan f c).ports = c.ports := rfl
@[simp] theorem modCan_mem (f : Can → Can) : (modCan f c).mem = c.mem := rfl
@[simp] theorem modCan_out (f : Can → Can) : (modCan f c).out = c.out := rfl
@[simp] theorem modCan_num (f : Can → Can) (p : Nat) : (modCan f c).num p = c.num p := rfl
@[simp] theorem modCan_blob (f : Can → Can) (p : Nat) : (modCan f c).blob p = c.blob p := rfl

@[simp] theorem modCtl_nums (k : Nat) (f : CanCtl → CanCtl) : (modCtl k f c).nums = c.nums := rfl
@[simp] theorem modCtl_blobs (k : Nat) (f : CanCtl → CanCtl) : (modCtl k f c).blobs = c.blobs := rfl
@[simp] theorem modCtl_flashNums (k : Nat) (f : CanCtl → CanCtl) : (modCtl k f c).flashNums = c.flashNums := rfl
@[simp] theorem modCtl_flashBlobs (k : Nat) (f : CanCtl → CanCtl) : (modCtl k f c).flashBlobs = c.flashBlobs := rfl
@[simp] theorem modCtl_flashPending (k : Nat) (f : CanCtl → CanCtl) : (modCtl k f c).flashPending = c.flashPending := rfl
@[simp] theorem modCtl_draws (k : Nat) (f : CanCtl → CanCtl) : (modCtl k f c).draws = c.draws := rfl
@[simp] theorem modCtl_time (k : Nat) (f : CanCtl → CanCtl) : (modCtl k f c).time = c.time := rfl
@[simp] theorem modCtl_work (k : Nat) (f : CanCtl → CanCtl) : (modCtl k f c).work = c.work := rfl
@[simp] theorem modCtl_trowel (k : Nat) (f : CanCtl → CanCtl) : (modCtl k f c).trowel = c.trowel := rfl
@[simp] theorem modCtl_setup (k : Nat) (f : CanCtl → CanCtl) : (modCtl k f c).setup = c.setup := rfl
@[simp] theorem modCtl_hawk (k : Nat) (f : CanCtl → CanCtl) : (modCtl k f c).hawk = c.hawk := rfl
@[simp] theorem modCtl_stipple (k : Nat) (f : CanCtl → CanCtl) : (modCtl k f c).stipple = c.stipple := rfl
@[simp] theorem modCtl_hod (k : Nat) (f : CanCtl → CanCtl) : (modCtl k f c).hod = c.hod := rfl
@[simp] theorem modCtl_skim (k : Nat) (f : CanCtl → CanCtl) : (modCtl k f c).skim = c.skim := rfl
@[simp] theorem modCtl_screed (k : Nat) (f : CanCtl → CanCtl) : (modCtl k f c).screed = c.screed := rfl
@[simp] theorem modCtl_boot (k : Nat) (f : CanCtl → CanCtl) : (modCtl k f c).boot = c.boot := rfl
@[simp] theorem modCtl_chain (k : Nat) (f : CanCtl → CanCtl) : (modCtl k f c).chain = c.chain := rfl
@[simp] theorem modCtl_errs (k : Nat) (f : CanCtl → CanCtl) : (modCtl k f c).errs = c.errs := rfl
@[simp] theorem modCtl_ports (k : Nat) (f : CanCtl → CanCtl) : (modCtl k f c).ports = c.ports := rfl
@[simp] theorem modCtl_mem (k : Nat) (f : CanCtl → CanCtl) : (modCtl k f c).mem = c.mem := rfl
@[simp] theorem modCtl_out (k : Nat) (f : CanCtl → CanCtl) : (modCtl k f c).out = c.out := rfl
@[simp] theorem modCtl_num (k : Nat) (f : CanCtl → CanCtl) (p : Nat) : (modCtl k f c).num p = c.num p := rfl
@[simp] theorem modCtl_blob (k : Nat) (f : CanCtl → CanCtl) (p : Nat) : (modCtl k f c).blob p = c.blob p := rfl

@[simp] theorem modChain_nums (f : ChainNet → ChainNet) : (modChain f c).nums = c.nums := rfl
@[simp] theorem modChain_blobs (f : ChainNet → ChainNet) : (modChain f c).blobs = c.blobs := rfl
@[simp] theorem modChain_flashNums (f : ChainNet → ChainNet) : (modChain f c).flashNums = c.flashNums := rfl
@[simp] theorem modChain_flashBlobs (f : ChainNet → ChainNet) : (modChain f c).flashBlobs = c.flashBlobs := rfl
@[simp] theorem modChain_flashPending (f : ChainNet → ChainNet) : (modChain f c).flashPending = c.flashPending := rfl
@[simp] theorem modChain_draws (f : ChainNet → ChainNet) : (modChain f c).draws = c.draws := rfl
@[simp] theorem modChain_time (f : ChainNet → ChainNet) : (modChain f c).time = c.time := rfl
@[simp] theorem modChain_work (f : ChainNet → ChainNet) : (modChain f c).work = c.work := rfl
@[simp] theorem modChain_can (f : ChainNet → ChainNet) : (modChain f c).can = c.can := rfl
@[simp] theorem modChain_trowel (f : ChainNet → ChainNet) : (modChain f c).trowel = c.trowel := rfl
@[simp] theorem modChain_setup (f : ChainNet → ChainNet) : (modChain f c).setup = c.setup := rfl
@[simp] theorem modChain_hawk (f : ChainNet → ChainNet) : (modChain f c).hawk = c.hawk := rfl
@[simp] theorem modChain_stipple (f : ChainNet → ChainNet) : (modChain f c).stipple = c.stipple := rfl
@[simp] theorem modChain_hod (f : ChainNet → ChainNet) : (modChain f c).hod = c.hod := rfl
@[simp] theorem modChain_skim (f : ChainNet → ChainNet) : (modChain f c).skim = c.skim := rfl
@[simp] theorem modChain_screed (f : ChainNet → ChainNet) : (modChain f c).screed = c.screed := rfl
@[simp] theorem modChain_boot (f : ChainNet → ChainNet) : (modChain f c).boot = c.boot := rfl
@[simp] theorem modChain_errs (f : ChainNet → ChainNet) : (modChain f c).errs = c.errs := rfl
@[simp] theorem modChain_ports (f : ChainNet → ChainNet) : (modChain f c).ports = c.ports := rfl
@[simp] theorem modChain_mem (f : ChainNet → ChainNet) : (modChain f c).mem = c.mem := rfl
@[simp] theorem modChain_out (f : ChainNet → ChainNet) : (modChain f c).out = c.out := rfl
@[simp] theorem modChain_num (f : ChainNet → ChainNet) (p : Nat) : (modChain f c).num p = c.num p := rfl
@[simp] theorem modChain_blob (f : ChainNet → ChainNet) (p : Nat) : (modChain f c).blob p = c.blob p := rfl

@[simp] theorem modPort_nums (p : Nat) (f : Port → Port) : (modPort p f c).nums = c.nums := rfl
@[simp] theorem modPort_blobs (p : Nat) (f : Port → Port) : (modPort p f c).blobs = c.blobs := rfl
@[simp] theorem modPort_flashNums (p : Nat) (f : Port → Port) : (modPort p f c).flashNums = c.flashNums := rfl
@[simp] theorem modPort_flashBlobs (p : Nat) (f : Port → Port) : (modPort p f c).flashBlobs = c.flashBlobs := rfl
@[simp] theorem modPort_flashPending (p : Nat) (f : Port → Port) : (modPort p f c).flashPending = c.flashPending := rfl
@[simp] theorem modPort_draws (p : Nat) (f : Port → Port) : (modPort p f c).draws = c.draws := rfl
@[simp] theorem modPort_time (p : Nat) (f : Port → Port) : (modPort p f c).time = c.time := rfl
@[simp] theorem modPort_work (p : Nat) (f : Port → Port) : (modPort p f c).work = c.work := rfl
@[simp] theorem modPort_can (p : Nat) (f : Port → Port) : (modPort p f c).can = c.can := rfl
@[simp] theorem modPort_trowel (p : Nat) (f : Port → Port) : (modPort p f c).trowel = c.trowel := rfl
@[simp] theorem modPort_setup (p : Nat) (f : Port → Port) : (modPort p f c).setup = c.setup := rfl
@[simp] theorem modPort_hawk (p : Nat) (f : Port → Port) : (modPort p f c).hawk = c.hawk := rfl
@[simp] theorem modPort_stipple (p : Nat) (f : Port → Port) : (modPort p f c).stipple = c.stipple := rfl
@[simp] theorem modPort_hod (p : Nat) (f : Port → Port) : (modPort p f c).hod = c.hod := rfl
@[simp] theorem modPort_skim (p : Nat) (f : Port → Port) : (modPort p f c).skim = c.skim := rfl
@[simp] theorem modPort_screed (p : Nat) (f : Port → Port) : (modPort p f c).screed = c.screed := rfl
@[simp] theorem modPort_boot (p : Nat) (f : Port → Port) : (modPort p f c).boot = c.boot := rfl
@[simp] theorem modPort_errs (p : Nat) (f : Port → Port) : (modPort p f c).errs = c.errs := rfl
@[simp] theorem modPort_ports (p : Nat) (f : Port → Port) : (modPort p f c).ports = c.ports := rfl
@[simp] theorem modPort_mem (p : Nat) (f : Port → Port) : (modPort p f c).mem = c.mem := rfl
@[simp] theorem modPort_out (p : Nat) (f : Port → Port) : (modPort p f c).out = c.out := rfl
@[simp] theorem modPort_num (p : Nat) (f : Port → Port) (k : Nat) : (modPort p f c).num k = c.num k := rfl
@[simp] theorem modPort_blob (p : Nat) (f : Port → Port) (k : Nat) : (modPort p f c).blob k = c.blob k := rfl

@[simp] theorem modBoot_nums (f : Boot → Boot) : (modBoot f c).nums = c.nums := rfl
@[simp] theorem modBoot_blobs (f : Boot → Boot) : (modBoot f c).blobs = c.blobs := rfl
@[simp] theorem modBoot_flashNums (f : Boot → Boot) : (modBoot f c).flashNums = c.flashNums := rfl
@[simp] theorem modBoot_flashBlobs (f : Boot → Boot) : (modBoot f c).flashBlobs = c.flashBlobs := rfl
@[simp] theorem modBoot_flashPending (f : Boot → Boot) : (modBoot f c).flashPending = c.flashPending := rfl
@[simp] theorem modBoot_draws (f : Boot → Boot) : (modBoot f c).draws = c.draws := rfl
@[simp] theorem modBoot_time (f : Boot → Boot) : (modBoot f c).time = c.time := rfl
@[simp] theorem modBoot_work (f : Boot → Boot) : (modBoot f c).work = c.work := rfl
@[simp] theorem modBoot_can (f : Boot → Boot) : (modBoot f c).can = c.can := rfl
@[simp] theorem modBoot_trowel (f : Boot → Boot) : (modBoot f c).trowel = c.trowel := rfl
@[simp] theorem modBoot_setup (f : Boot → Boot) : (modBoot f c).setup = c.setup := rfl
@[simp] theorem modBoot_hawk (f : Boot → Boot) : (modBoot f c).hawk = c.hawk := rfl
@[simp] theorem modBoot_stipple (f : Boot → Boot) : (modBoot f c).stipple = c.stipple := rfl
@[simp] theorem modBoot_hod (f : Boot → Boot) : (modBoot f c).hod = c.hod := rfl
@[simp] theorem modBoot_skim (f : Boot → Boot) : (modBoot f c).skim = c.skim := rfl
@[simp] theorem modBoot_screed (f : Boot → Boot) : (modBoot f c).screed = c.screed := rfl
@[simp] theorem modBoot_chain (f : Boot → Boot) : (modBoot f c).chain = c.chain := rfl
@[simp] theorem modBoot_errs (f : Boot → Boot) : (modBoot f c).errs = c.errs := rfl
@[simp] theorem modBoot_ports (f : Boot → Boot) : (modBoot f c).ports = c.ports := rfl
@[simp] theorem modBoot_mem (f : Boot → Boot) : (modBoot f c).mem = c.mem := rfl
@[simp] theorem modBoot_out (f : Boot → Boot) : (modBoot f c).out = c.out := rfl
@[simp] theorem modBoot_num (f : Boot → Boot) (p : Nat) : (modBoot f c).num p = c.num p := rfl
@[simp] theorem modBoot_blob (f : Boot → Boot) (p : Nat) : (modBoot f c).blob p = c.blob p := rfl

@[simp] theorem modErrs_nums (f : MemErr → MemErr) : (modErrs f c).nums = c.nums := rfl
@[simp] theorem modErrs_blobs (f : MemErr → MemErr) : (modErrs f c).blobs = c.blobs := rfl
@[simp] theorem modErrs_flashNums (f : MemErr → MemErr) : (modErrs f c).flashNums = c.flashNums := rfl
@[simp] theorem modErrs_flashBlobs (f : MemErr → MemErr) : (modErrs f c).flashBlobs = c.flashBlobs := rfl
@[simp] theorem modErrs_flashPending (f : MemErr → MemErr) : (modErrs f c).flashPending = c.flashPending := rfl
@[simp] theorem modErrs_draws (f : MemErr → MemErr) : (modErrs f c).draws = c.draws := rfl
@[simp] theorem modErrs_time (f : MemErr → MemErr) : (modErrs f c).time = c.time := rfl
@[simp] theorem modErrs_work (f : MemErr → MemErr) : (modErrs f c).work = c.work := rfl
@[simp] theorem modErrs_can (f : MemErr → MemErr) : (modErrs f c).can = c.can := rfl
@[simp] theorem modErrs_trowel (f : MemErr → MemErr) : (modErrs f c).trowel = c.trowel := rfl
@[simp] theorem modErrs_setup (f : MemErr → MemErr) : (modErrs f c).setup = c.setup := rfl
@[simp] theorem modErrs_hawk (f : MemErr → MemErr) : (modErrs f c).hawk = c.hawk := rfl
@[simp] theorem modErrs_stipple (f : MemErr → MemErr) : (modErrs f c).stipple = c.stipple := rfl
@[simp] theorem modErrs_hod (f : MemErr → MemErr) : (modErrs f c).hod = c.hod := rfl
@[simp] theorem modErrs_skim (f : MemErr → MemErr) : (modErrs f c).skim = c.skim := rfl
@[simp] theorem modErrs_screed (f : MemErr → MemErr) : (modErrs f c).screed = c.screed := rfl
@[simp] theorem modErrs_boot (f : MemErr → MemErr) : (modErrs f c).boot = c.boot := rfl
@[simp] theorem modErrs_chain (f : MemErr → MemErr) : (modErrs f c).chain = c.chain := rfl
@[simp] theorem modErrs_ports (f : MemErr → MemErr) : (modErrs f c).ports = c.ports := rfl
@[simp] theorem modErrs_mem (f : MemErr → MemErr) : (modErrs f c).mem = c.mem := rfl
@[simp] theorem modErrs_out (f : MemErr → MemErr) : (modErrs f c).out = c.out := rfl
@[simp] theorem modErrs_num (f : MemErr → MemErr) (p : Nat) : (modErrs f c).num p = c.num p := rfl
@[simp] theorem modErrs_blob (f : MemErr → MemErr) (p : Nat) : (modErrs f c).blob p = c.blob p := rfl

@[simp] theorem modHod_nums (f : Hod → Hod) : (modHod f c).nums = c.nums := rfl
@[simp] theorem modHod_blobs (f : Hod → Hod) : (modHod f c).blobs = c.blobs := rfl
@[simp] theorem modHod_flashNums (f : Hod → Hod) : (modHod f c).flashNums = c.flashNums := rfl
@[simp] theorem modHod_flashBlobs (f : Hod → Hod) : (modHod f c).flashBlobs = c.flashBlobs := rfl
@[simp] theorem modHod_flashPending (f : Hod → Hod) : (modHod f c).flashPending = c.flashPending := rfl
@[simp] theorem modHod_draws (f : Hod → Hod) : (modHod f c).draws = c.draws := rfl
@[simp] theorem modHod_time (f : Hod → Hod) : (modHod f c).time = c.time := rfl
@[simp] theorem modHod_work (f : Hod → Hod) : (modHod f c).work = c.work := rfl
@[simp] theorem modHod_can (f : Hod → Hod) : (modHod f c).can = c.can := rfl
@[simp] theorem modHod_trowel (f : Hod → Hod) : (modHod f c).trowel = c.trowel := rfl
@[simp] theorem modHod_setup (f : Hod → Hod) : (modHod f c).setup = c.setup := rfl
@[simp] theorem modHod_hawk (f : Hod → Hod) : (modHod f c).hawk = c.hawk := rfl
@[simp] theorem modHod_stipple (f : Hod → Hod) : (modHod f c).stipple = c.stipple := rfl
@[simp] theorem modHod_skim (f : Hod → Hod) : (modHod f c).skim = c.skim := rfl
@[simp] theorem modHod_screed (f : Hod → Hod) : (modHod f c).screed = c.screed := rfl
@[simp] theorem modHod_boot (f : Hod → Hod) : (modHod f c).boot = c.boot := rfl
@[simp] theorem modHod_chain (f : Hod → Hod) : (modHod f c).chain = c.chain := rfl
@[simp] theorem modHod_errs (f : Hod → Hod) : (modHod f c).errs = c.errs := rfl
@[simp] theorem modHod_ports (f : Hod → Hod) : (modHod f c).ports = c.ports := rfl
@[simp] theorem modHod_mem (f : Hod → Hod) : (modHod f c).mem = c.mem := rfl
@[simp] theorem modHod_out (f : Hod → Hod) : (modHod f c).out = c.out := rfl
@[simp] theorem modHod_num (f : Hod → Hod) (p : Nat) : (modHod f c).num p = c.num p := rfl
@[simp] theorem modHod_blob (f : Hod → Hod) (p : Nat) : (modHod f c).blob p = c.blob p := rfl

@[simp] theorem modScreed_nums (f : Screed → Screed) : (modScreed f c).nums = c.nums := rfl
@[simp] theorem modScreed_blobs (f : Screed → Screed) : (modScreed f c).blobs = c.blobs := rfl
@[simp] theorem modScreed_flashNums (f : Screed → Screed) : (modScreed f c).flashNums = c.flashNums := rfl
@[simp] theorem modScreed_flashBlobs (f : Screed → Screed) : (modScreed f c).flashBlobs = c.flashBlobs := rfl
@[simp] theorem modScreed_flashPending (f : Screed → Screed) : (modScreed f c).flashPending = c.flashPending := rfl
@[simp] theorem modScreed_draws (f : Screed → Screed) : (modScreed f c).draws = c.draws := rfl
@[simp] theorem modScreed_time (f : Screed → Screed) : (modScreed f c).time = c.time := rfl
@[simp] theorem modScreed_work (f : Screed → Screed) : (modScreed f c).work = c.work := rfl
@[simp] theorem modScreed_can (f : Screed → Screed) : (modScreed f c).can = c.can := rfl
@[simp] theorem modScreed_trowel (f : Screed → Screed) : (modScreed f c).trowel = c.trowel := rfl
@[simp] theorem modScreed_setup (f : Screed → Screed) : (modScreed f c).setup = c.setup := rfl
@[simp] theorem modScreed_hawk (f : Screed → Screed) : (modScreed f c).hawk = c.hawk := rfl
@[simp] theorem modScreed_stipple (f : Screed → Screed) : (modScreed f c).stipple = c.stipple := rfl
@[simp] theorem modScreed_hod (f : Screed → Screed) : (modScreed f c).hod = c.hod := rfl
@[simp] theorem modScreed_skim (f : Screed → Screed) : (modScreed f c).skim = c.skim := rfl
@[simp] theorem modScreed_boot (f : Screed → Screed) : (modScreed f c).boot = c.boot := rfl
@[simp] theorem modScreed_chain (f : Screed → Screed) : (modScreed f c).chain = c.chain := rfl
@[simp] theorem modScreed_errs (f : Screed → Screed) : (modScreed f c).errs = c.errs := rfl
@[simp] theorem modScreed_ports (f : Screed → Screed) : (modScreed f c).ports = c.ports := rfl
@[simp] theorem modScreed_mem (f : Screed → Screed) : (modScreed f c).mem = c.mem := rfl
@[simp] theorem modScreed_out (f : Screed → Screed) : (modScreed f c).out = c.out := rfl
@[simp] theorem modScreed_num (f : Screed → Screed) (p : Nat) : (modScreed f c).num p = c.num p := rfl
@[simp] theorem modScreed_blob (f : Screed → Screed) (p : Nat) : (modScreed f c).blob p = c.blob p := rfl

@[simp] theorem modSkim_nums (f : Skim → Skim) : (modSkim f c).nums = c.nums := rfl
@[simp] theorem modSkim_blobs (f : Skim → Skim) : (modSkim f c).blobs = c.blobs := rfl
@[simp] theorem modSkim_flashNums (f : Skim → Skim) : (modSkim f c).flashNums = c.flashNums := rfl
@[simp] theorem modSkim_flashBlobs (f : Skim → Skim) : (modSkim f c).flashBlobs = c.flashBlobs := rfl
@[simp] theorem modSkim_flashPending (f : Skim → Skim) : (modSkim f c).flashPending = c.flashPending := rfl
@[simp] theorem modSkim_draws (f : Skim → Skim) : (modSkim f c).draws = c.draws := rfl
@[simp] theorem modSkim_time (f : Skim → Skim) : (modSkim f c).time = c.time := rfl
@[simp] theorem modSkim_work (f : Skim → Skim) : (modSkim f c).work = c.work := rfl
@[simp] theorem modSkim_can (f : Skim → Skim) : (modSkim f c).can = c.can := rfl
@[simp] theorem modSkim_trowel (f : Skim → Skim) : (modSkim f c).trowel = c.trowel := rfl
@[simp] theorem modSkim_setup (f : Skim → Skim) : (modSkim f c).setup = c.setup := rfl
@[simp] theorem modSkim_hawk (f : Skim → Skim) : (modSkim f c).hawk = c.hawk := rfl
@[simp] theorem modSkim_stipple (f : Skim → Skim) : (modSkim f c).stipple = c.stipple := rfl
@[simp] theorem modSkim_hod (f : Skim → Skim) : (modSkim f c).hod = c.hod := rfl
@[simp] theorem modSkim_screed (f : Skim → Skim) : (modSkim f c).screed = c.screed := rfl
@[simp] theorem modSkim_boot (f : Skim → Skim) : (modSkim f c).boot = c.boot := rfl
@[simp] theorem modSkim_chain (f : Skim → Skim) : (modSkim f c).chain = c.chain := rfl
@[simp] theorem modSkim_errs (f : Skim → Skim) : (modSkim f c).errs = c.errs := rfl
@[simp] theorem modSkim_ports (f : Skim → Skim) : (modSkim f c).ports = c.ports := rfl
@[simp] theorem modSkim_mem (f : Skim → Skim) : (modSkim f c).mem = c.mem := rfl
@[simp] theorem modSkim_out (f : Skim → Skim) : (modSkim f c).out = c.out := rfl
@[simp] theorem modSkim_num (f : Skim → Skim) (p : Nat) : (modSkim f c).num p = c.num p := rfl
@[simp] theorem modSkim_blob (f : Skim → Skim) (p : Nat) : (modSkim f c).blob p = c.blob p := rfl

@[simp] theorem modHawk_nums (f : Hawk → Hawk) : (modHawk f c).nums = c.nums := rfl
@[simp] theorem modHawk_blobs (f : Hawk → Hawk) : (modHawk f c).blobs = c.blobs := rfl
@[simp] theorem modHawk_flashNums (f : Hawk → Hawk) : (modHawk f c).flashNums = c.flashNums := rfl
@[simp] theorem modHawk_flashBlobs (f : Hawk → Hawk) : (modHawk f c).flashBlobs = c.flashBlobs := rfl
@[simp] theorem modHawk_flashPending (f : Hawk → Hawk) : (modHawk f c).flashPending = c.flashPending := rfl
@[simp] theorem modHawk_draws (f : Hawk → Hawk) : (modHawk f c).draws = c.draws := rfl
@[simp] theorem modHawk_time (f : Hawk → Hawk) : (modHawk f c).time = c.time := rfl
@[simp] theorem modHawk_work (f : Hawk → Hawk) : (modHawk f c).work = c.work := rfl
@[simp] theorem modHawk_can (f : Hawk → Hawk) : (modHawk f c).can = c.can := rfl
@[simp] theorem modHawk_trowel (f : Hawk → Hawk) : (modHawk f c).trowel = c.trowel := rfl
@[simp] theorem modHawk_setup (f : Hawk → Hawk) : (modHawk f c).setup = c.setup := rfl
@[simp] theorem modHawk_stipple (f : Hawk → Hawk) : (modHawk f c).stipple = c.stipple := rfl
@[simp] theorem modHawk_hod (f : Hawk → Hawk) : (modHawk f c).hod = c.hod := rfl
@[simp] theorem modHawk_skim (f : Hawk → Hawk) : (modHawk f c).skim = c.skim := rfl
@[simp] theorem modHawk_screed (f : Hawk → Hawk) : (modHawk f c).screed = c.screed := rfl
@[simp] theorem modHawk_boot (f : Hawk → Hawk) : (modHawk f c).boot = c.boot := rfl
@[simp] theorem modHawk_chain (f : Hawk → Hawk) : (modHawk f c).chain = c.chain := rfl
@[simp] theorem modHawk_errs (f : Hawk → Hawk) : (modHawk f c).errs = c.errs := rfl
@[simp] theorem modHawk_ports (f : Hawk → Hawk) : (modHawk f c).ports = c.ports := rfl
@[simp] theorem modHawk_mem (f : Hawk → Hawk) : (modHawk f c).mem = c.mem := rfl
@[simp] theorem modHawk_out (f : Hawk → Hawk) : (modHawk f c).out = c.out := rfl
@[simp] theorem modHawk_num (f : Hawk → Hawk) (p : Nat) : (modHawk f c).num p = c.num p := rfl
@[simp] theorem modHawk_blob (f : Hawk → Hawk) (p : Nat) : (modHawk f c).blob p = c.blob p := rfl

@[simp] theorem modVoice_nums (n : Nat) (f : Voice → Voice) : (modVoice n f c).nums = c.nums := rfl
@[simp] theorem modVoice_blobs (n : Nat) (f : Voice → Voice) : (modVoice n f c).blobs = c.blobs := rfl
@[simp] theorem modVoice_flashNums (n : Nat) (f : Voice → Voice) : (modVoice n f c).flashNums = c.flashNums := rfl
@[simp] theorem modVoice_flashBlobs (n : Nat) (f : Voice → Voice) : (modVoice n f c).flashBlobs = c.flashBlobs := rfl
@[simp] theorem modVoice_flashPending (n : Nat) (f : Voice → Voice) : (modVoice n f c).flashPending = c.flashPending := rfl
@[simp] theorem modVoice_draws (n : Nat) (f : Voice → Voice) : (modVoice n f c).draws = c.draws := rfl
@[simp] theorem modVoice_time (n : Nat) (f : Voice → Voice) : (modVoice n f c).time = c.time := rfl
@[simp] theorem modVoice_work (n : Nat) (f : Voice → Voice) : (modVoice n f c).work = c.work := rfl
@[simp] theorem modVoice_can (n : Nat) (f : Voice → Voice) : (modVoice n f c).can = c.can := rfl
@[simp] theorem modVoice_trowel (n : Nat) (f : Voice → Voice) : (modVoice n f c).trowel = c.trowel := rfl
@[simp] theorem modVoice_setup (n : Nat) (f : Voice → Voice) : (modVoice n f c).setup = c.setup := rfl
@[simp] theorem modVoice_stipple (n : Nat) (f : Voice → Voice) : (modVoice n f c).stipple = c.stipple := rfl
@[simp] theorem modVoice_hod (n : Nat) (f : Voice → Voice) : (modVoice n f c).hod = c.hod := rfl
@[simp] theorem modVoice_skim (n : Nat) (f : Voice → Voice) : (modVoice n f c).skim = c.skim := rfl
@[simp] theorem modVoice_screed (n : Nat) (f : Voice → Voice) : (modVoice n f c).screed = c.screed := rfl
@[simp] theorem modVoice_boot (n : Nat) (f : Voice → Voice) : (modVoice n f c).boot = c.boot := rfl
@[simp] theorem modVoice_chain (n : Nat) (f : Voice → Voice) : (modVoice n f c).chain = c.chain := rfl
@[simp] theorem modVoice_errs (n : Nat) (f : Voice → Voice) : (modVoice n f c).errs = c.errs := rfl
@[simp] theorem modVoice_ports (n : Nat) (f : Voice → Voice) : (modVoice n f c).ports = c.ports := rfl
@[simp] theorem modVoice_mem (n : Nat) (f : Voice → Voice) : (modVoice n f c).mem = c.mem := rfl
@[simp] theorem modVoice_out (n : Nat) (f : Voice → Voice) : (modVoice n f c).out = c.out := rfl
@[simp] theorem modVoice_num (n : Nat) (f : Voice → Voice) (p : Nat) : (modVoice n f c).num p = c.num p := rfl
@[simp] theorem modVoice_blob (n : Nat) (f : Voice → Voice) (p : Nat) : (modVoice n f c).blob p = c.blob p := rfl

@[simp] theorem modStipple_nums (f : Stipple → Stipple) : (modStipple f c).nums = c.nums := rfl
@[simp] theorem modStipple_blobs (f : Stipple → Stipple) : (modStipple f c).blobs = c.blobs := rfl
@[simp] theorem modStipple_flashNums (f : Stipple → Stipple) : (modStipple f c).flashNums = c.flashNums := rfl
@[simp] theorem modStipple_flashBlobs (f : Stipple → Stipple) : (modStipple f c).flashBlobs = c.flashBlobs := rfl
@[simp] theorem modStipple_flashPending (f : Stipple → Stipple) : (modStipple f c).flashPending = c.flashPending := rfl
@[simp] theorem modStipple_draws (f : Stipple → Stipple) : (modStipple f c).draws = c.draws := rfl
@[simp] theorem modStipple_time (f : Stipple → Stipple) : (modStipple f c).time = c.time := rfl
@[simp] theorem modStipple_work (f : Stipple → Stipple) : (modStipple f c).work = c.work := rfl
@[simp] theorem modStipple_can (f : Stipple → Stipple) : (modStipple f c).can = c.can := rfl
@[simp] theorem modStipple_trowel (f : Stipple → Stipple) : (modStipple f c).trowel = c.trowel := rfl
@[simp] theorem modStipple_setup (f : Stipple → Stipple) : (modStipple f c).setup = c.setup := rfl
@[simp] theorem modStipple_hawk (f : Stipple → Stipple) : (modStipple f c).hawk = c.hawk := rfl
@[simp] theorem modStipple_hod (f : Stipple → Stipple) : (modStipple f c).hod = c.hod := rfl
@[simp] theorem modStipple_skim (f : Stipple → Stipple) : (modStipple f c).skim = c.skim := rfl
@[simp] theorem modStipple_screed (f : Stipple → Stipple) : (modStipple f c).screed = c.screed := rfl
@[simp] theorem modStipple_boot (f : Stipple → Stipple) : (modStipple f c).boot = c.boot := rfl
@[simp] theorem modStipple_chain (f : Stipple → Stipple) : (modStipple f c).chain = c.chain := rfl
@[simp] theorem modStipple_errs (f : Stipple → Stipple) : (modStipple f c).errs = c.errs := rfl
@[simp] theorem modStipple_ports (f : Stipple → Stipple) : (modStipple f c).ports = c.ports := rfl
@[simp] theorem modStipple_mem (f : Stipple → Stipple) : (modStipple f c).mem = c.mem := rfl
@[simp] theorem modStipple_out (f : Stipple → Stipple) : (modStipple f c).out = c.out := rfl
@[simp] theorem modStipple_num (f : Stipple → Stipple) (p : Nat) : (modStipple f c).num p = c.num p := rfl
@[simp] theorem modStipple_blob (f : Stipple → Stipple) (p : Nat) : (modStipple f c).blob p = c.blob p := rfl

@[simp] theorem modTrowel_nums (f : Trowel → Trowel) : (modTrowel f c).nums = c.nums := rfl
@[simp] theorem modTrowel_blobs (f : Trowel → Trowel) : (modTrowel f c).blobs = c.blobs := rfl
@[simp] theorem modTrowel_flashNums (f : Trowel → Trowel) : (modTrowel f c).flashNums = c.flashNums := rfl
@[simp] theorem modTrowel_flashBlobs (f : Trowel → Trowel) : (modTrowel f c).flashBlobs = c.flashBlobs := rfl
@[simp] theorem modTrowel_flashPending (f : Trowel → Trowel) : (modTrowel f c).flashPending = c.flashPending := rfl
@[simp] theorem modTrowel_draws (f : Trowel → Trowel) : (modTrowel f c).draws = c.draws := rfl
@[simp] theorem modTrowel_time (f : Trowel → Trowel) : (modTrowel f c).time = c.time := rfl
@[simp] theorem modTrowel_work (f : Trowel → Trowel) : (modTrowel f c).work = c.work := rfl
@[simp] theorem modTrowel_can (f : Trowel → Trowel) : (modTrowel f c).can = c.can := rfl
@[simp] theorem modTrowel_setup (f : Trowel → Trowel) : (modTrowel f c).setup = c.setup := rfl
@[simp] theorem modTrowel_hawk (f : Trowel → Trowel) : (modTrowel f c).hawk = c.hawk := rfl
@[simp] theorem modTrowel_stipple (f : Trowel → Trowel) : (modTrowel f c).stipple = c.stipple := rfl
@[simp] theorem modTrowel_hod (f : Trowel → Trowel) : (modTrowel f c).hod = c.hod := rfl
@[simp] theorem modTrowel_skim (f : Trowel → Trowel) : (modTrowel f c).skim = c.skim := rfl
@[simp] theorem modTrowel_screed (f : Trowel → Trowel) : (modTrowel f c).screed = c.screed := rfl
@[simp] theorem modTrowel_boot (f : Trowel → Trowel) : (modTrowel f c).boot = c.boot := rfl
@[simp] theorem modTrowel_chain (f : Trowel → Trowel) : (modTrowel f c).chain = c.chain := rfl
@[simp] theorem modTrowel_errs (f : Trowel → Trowel) : (modTrowel f c).errs = c.errs := rfl
@[simp] theorem modTrowel_ports (f : Trowel → Trowel) : (modTrowel f c).ports = c.ports := rfl
@[simp] theorem modTrowel_mem (f : Trowel → Trowel) : (modTrowel f c).mem = c.mem := rfl
@[simp] theorem modTrowel_out (f : Trowel → Trowel) : (modTrowel f c).out = c.out := rfl
@[simp] theorem modTrowel_num (f : Trowel → Trowel) (p : Nat) : (modTrowel f c).num p = c.num p := rfl
@[simp] theorem modTrowel_blob (f : Trowel → Trowel) (p : Nat) : (modTrowel f c).blob p = c.blob p := rfl

@[simp] theorem modThread_nums (k : Nat) (f : Thread → Thread) : (modThread k f c).nums = c.nums := rfl
@[simp] theorem modThread_blobs (k : Nat) (f : Thread → Thread) : (modThread k f c).blobs = c.blobs := rfl
@[simp] theorem modThread_flashNums (k : Nat) (f : Thread → Thread) : (modThread k f c).flashNums = c.flashNums := rfl
@[simp] theorem modThread_flashBlobs (k : Nat) (f : Thread → Thread) : (modThread k f c).flashBlobs = c.flashBlobs := rfl
@[simp] theorem modThread_flashPending (k : Nat) (f : Thread → Thread) : (modThread k f c).flashPending = c.flashPending := rfl
@[simp] theorem modThread_draws (k : Nat) (f : Thread → Thread) : (modThread k f c).draws = c.draws := rfl
@[simp] theorem modThread_time (k : Nat) (f : Thread → Thread) : (modThread k f c).time = c.time := rfl
@[simp] theorem modThread_work (k : Nat) (f : Thread → Thread) : (modThread k f c).work = c.work := rfl
@[simp] theorem modThread_can (k : Nat) (f : Thread → Thread) : (modThread k f c).can = c.can := rfl
@[simp] theorem modThread_setup (k : Nat) (f : Thread → Thread) : (modThread k f c).setup = c.setup := rfl
@[simp] theorem modThread_hawk (k : Nat) (f : Thread → Thread) : (modThread k f c).hawk = c.hawk := rfl
@[simp] theorem modThread_stipple (k : Nat) (f : Thread → Thread) : (modThread k f c).stipple = c.stipple := rfl
@[simp] theorem modThread_hod (k : Nat) (f : Thread → Thread) : (modThread k f c).hod = c.hod := rfl
@[simp] theorem modThread_skim (k : Nat) (f : Thread → Thread) : (modThread k f c).skim = c.skim := rfl
@[simp] theorem modThread_screed (k : Nat) (f : Thread → Thread) : (modThread k f c).screed = c.screed := rfl
@[simp] theorem modThread_boot (k : Nat) (f : Thread → Thread) : (modThread k f c).boot = c.boot := rfl
@[simp] theorem modThread_chain (k : Nat) (f : Thread → Thread) : (modThread k f c).chain = c.chain := rfl
@[simp] theorem modThread_errs (k : Nat) (f : Thread → Thread) : (modThread k f c).errs = c.errs := rfl
@[simp] theorem modThread_ports (k : Nat) (f : Thread → Thread) : (modThread k f c).ports = c.ports := rfl
@[simp] theorem modThread_mem (k : Nat) (f : Thread → Thread) : (modThread k f c).mem = c.mem := rfl
@[simp] theorem modThread_out (k : Nat) (f : Thread → Thread) : (modThread k f c).out = c.out := rfl
@[simp] theorem modThread_num (k : Nat) (f : Thread → Thread) (p : Nat) : (modThread k f c).num p = c.num p := rfl
@[simp] theorem modThread_blob (k : Nat) (f : Thread → Thread) (p : Nat) : (modThread k f c).blob p = c.blob p := rfl

@[simp] theorem modCore_nums (n : Nat) (f : CoreRun → CoreRun) : (modCore n f c).nums = c.nums := rfl
@[simp] theorem modCore_blobs (n : Nat) (f : CoreRun → CoreRun) : (modCore n f c).blobs = c.blobs := rfl
@[simp] theorem modCore_flashNums (n : Nat) (f : CoreRun → CoreRun) : (modCore n f c).flashNums = c.flashNums := rfl
@[simp] theorem modCore_flashBlobs (n : Nat) (f : CoreRun → CoreRun) : (modCore n f c).flashBlobs = c.flashBlobs := rfl
@[simp] theorem modCore_flashPending (n : Nat) (f : CoreRun → CoreRun) : (modCore n f c).flashPending = c.flashPending := rfl
@[simp] theorem modCore_draws (n : Nat) (f : CoreRun → CoreRun) : (modCore n f c).draws = c.draws := rfl
@[simp] theorem modCore_time (n : Nat) (f : CoreRun → CoreRun) : (modCore n f c).time = c.time := rfl
@[simp] theorem modCore_work (n : Nat) (f : CoreRun → CoreRun) : (modCore n f c).work = c.work := rfl
@[simp] theorem modCore_can (n : Nat) (f : CoreRun → CoreRun) : (modCore n f c).can = c.can := rfl
@[simp] theorem modCore_setup (n : Nat) (f : CoreRun → CoreRun) : (modCore n f c).setup = c.setup := rfl
@[simp] theorem modCore_hawk (n : Nat) (f : CoreRun → CoreRun) : (modCore n f c).hawk = c.hawk := rfl
@[simp] theorem modCore_stipple (n : Nat) (f : CoreRun → CoreRun) : (modCore n f c).stipple = c.stipple := rfl
@[simp] theorem modCore_hod (n : Nat) (f : CoreRun → CoreRun) : (modCore n f c).hod = c.hod := rfl
@[simp] theorem modCore_skim (n : Nat) (f : CoreRun → CoreRun) : (modCore n f c).skim = c.skim := rfl
@[simp] theorem modCore_screed (n : Nat) (f : CoreRun → CoreRun) : (modCore n f c).screed = c.screed := rfl
@[simp] theorem modCore_boot (n : Nat) (f : CoreRun → CoreRun) : (modCore n f c).boot = c.boot := rfl
@[simp] theorem modCore_chain (n : Nat) (f : CoreRun → CoreRun) : (modCore n f c).chain = c.chain := rfl
@[simp] theorem modCore_errs (n : Nat) (f : CoreRun → CoreRun) : (modCore n f c).errs = c.errs := rfl
@[simp] theorem modCore_ports (n : Nat) (f : CoreRun → CoreRun) : (modCore n f c).ports = c.ports := rfl
@[simp] theorem modCore_mem (n : Nat) (f : CoreRun → CoreRun) : (modCore n f c).mem = c.mem := rfl
@[simp] theorem modCore_out (n : Nat) (f : CoreRun → CoreRun) : (modCore n f c).out = c.out := rfl
@[simp] theorem modCore_num (n : Nat) (f : CoreRun → CoreRun) (p : Nat) : (modCore n f c).num p = c.num p := rfl
@[simp] theorem modCore_blob (n : Nat) (f : CoreRun → CoreRun) (p : Nat) : (modCore n f c).blob p = c.blob p := rfl

@[simp] theorem modSem_nums (g n : Nat) (f : Sem → Sem) : (modSem g n f c).nums = c.nums := rfl
@[simp] theorem modSem_blobs (g n : Nat) (f : Sem → Sem) : (modSem g n f c).blobs = c.blobs := rfl
@[simp] theorem modSem_flashNums (g n : Nat) (f : Sem → Sem) : (modSem g n f c).flashNums = c.flashNums := rfl
@[simp] theorem modSem_flashBlobs (g n : Nat) (f : Sem → Sem) : (modSem g n f c).flashBlobs = c.flashBlobs := rfl
@[simp] theorem modSem_flashPending (g n : Nat) (f : Sem → Sem) : (modSem g n f c).flashPending = c.flashPending := rfl
@[simp] theorem modSem_draws (g n : Nat) (f : Sem → Sem) : (modSem g n f c).draws = c.draws := rfl
@[simp] theorem modSem_time (g n : Nat) (f : Sem → Sem) : (modSem g n f c).time = c.time := rfl
@[simp] theorem modSem_work (g n : Nat) (f : Sem → Sem) : (modSem g n f c).work = c.work := rfl
@[simp] theorem modSem_can (g n : Nat) (f : Sem → Sem) : (modSem g n f c).can = c.can := rfl
@[simp] theorem modSem_setup (g n : Nat) (f : Sem → Sem) : (modSem g n f c).setup = c.setup := rfl
@[simp] theorem modSem_hawk (g n : Nat) (f : Sem → Sem) : (modSem g n f c).hawk = c.hawk := rfl
@[simp] theorem modSem_stipple (g n : Nat) (f : Sem → Sem) : (modSem g n f c).stipple = c.stipple := rfl
@[simp] theorem modSem_hod (g n : Nat) (f : Sem → Sem) : (modSem g n f c).hod = c.hod := rfl
@[simp] theorem modSem_skim (g n : Nat) (f : Sem → Sem) : (modSem g n f c).skim = c.skim := rfl
@[simp] theorem modSem_screed (g n : Nat) (f : Sem → Sem) : (modSem g n f c).screed = c.screed := rfl
@[simp] theorem modSem_boot (g n : Nat) (f : Sem → Sem) : (modSem g n f c).boot = c.boot := rfl
@[simp] theorem modSem_chain (g n : Nat) (f : Sem → Sem) : (modSem g n f c).chain = c.chain := rfl
@[simp] theorem modSem_errs (g n : Nat) (f : Sem → Sem) : (modSem g n f c).errs = c.errs := rfl
@[simp] theorem modSem_ports (g n : Nat) (f : Sem → Sem) : (modSem g n f c).ports = c.ports := rfl
@[simp] theorem modSem_mem (g n : Nat) (f : Sem → Sem) : (modSem g n f c).mem = c.mem := rfl
@[simp] theorem modSem_out (g n : Nat) (f : Sem → Sem) : (modSem g n f c).out = c.out := rfl
@[simp] theorem modSem_num (g n : Nat) (f : Sem → Sem) (p : Nat) : (modSem g n f c).num p = c.num p := rfl
@[simp] theorem modSem_blob (g n : Nat) (f : Sem → Sem) (p : Nat) : (modSem g n f c).blob p = c.blob p := rfl

@[simp] theorem writeBytes_nums (k : Nat) (bs : List Byte) : (writeBytes k bs c).nums = c.nums := rfl
@[simp] theorem writeBytes_blobs (k : Nat) (bs : List Byte) : (writeBytes k bs c).blobs = c.blobs := rfl
@[simp] theorem writeBytes_flashNums (k : Nat) (bs : List Byte) : (writeBytes k bs c).flashNums = c.flashNums := rfl
@[simp] theorem writeBytes_flashBlobs (k : Nat) (bs : List Byte) : (writeBytes k bs c).flashBlobs = c.flashBlobs := rfl
@[simp] theorem writeBytes_flashPending (k : Nat) (bs : List Byte) : (writeBytes k bs c).flashPending = c.flashPending := rfl
@[simp] theorem writeBytes_draws (k : Nat) (bs : List Byte) : (writeBytes k bs c).draws = c.draws := rfl
@[simp] theorem writeBytes_time (k : Nat) (bs : List Byte) : (writeBytes k bs c).time = c.time := rfl
@[simp] theorem writeBytes_work (k : Nat) (bs : List Byte) : (writeBytes k bs c).work = c.work := rfl
@[simp] theorem writeBytes_can (k : Nat) (bs : List Byte) : (writeBytes k bs c).can = c.can := rfl
@[simp] theorem writeBytes_trowel (k : Nat) (bs : List Byte) : (writeBytes k bs c).trowel = c.trowel := rfl
@[simp] theorem writeBytes_setup (k : Nat) (bs : List Byte) : (writeBytes k bs c).setup = c.setup := rfl
@[simp] theorem writeBytes_hawk (k : Nat) (bs : List Byte) : (writeBytes k bs c).hawk = c.hawk := rfl
@[simp] theorem writeBytes_stipple (k : Nat) (bs : List Byte) : (writeBytes k bs c).stipple = c.stipple := rfl
@[simp] theorem writeBytes_hod (k : Nat) (bs : List Byte) : (writeBytes k bs c).hod = c.hod := rfl
@[simp] theorem writeBytes_skim (k : Nat) (bs : List Byte) : (writeBytes k bs c).skim = c.skim := rfl
@[simp] theorem writeBytes_screed (k : Nat) (bs : List Byte) : (writeBytes k bs c).screed = c.screed := rfl
@[simp] theorem writeBytes_boot (k : Nat) (bs : List Byte) : (writeBytes k bs c).boot = c.boot := rfl
@[simp] theorem writeBytes_chain (k : Nat) (bs : List Byte) : (writeBytes k bs c).chain = c.chain := rfl
@[simp] theorem writeBytes_ports (k : Nat) (bs : List Byte) : (writeBytes k bs c).ports = c.ports := rfl
@[simp] theorem writeBytes_out (k : Nat) (bs : List Byte) : (writeBytes k bs c).out = c.out := rfl
@[simp] theorem writeBytes_num (k : Nat) (bs : List Byte) (p : Nat) : (writeBytes k bs c).num p = c.num p := rfl
@[simp] theorem writeBytes_blob (k : Nat) (bs : List Byte) (p : Nat) : (writeBytes k bs c).blob p = c.blob p := rfl

@[simp] theorem clearMem_nums (lo hi : Nat) : (clearMem lo hi c).nums = c.nums := rfl
@[simp] theorem clearMem_blobs (lo hi : Nat) : (clearMem lo hi c).blobs = c.blobs := rfl
@[simp] theorem clearMem_flashNums (lo hi : Nat) : (clearMem lo hi c).flashNums = c.flashNums := rfl
@[simp] theorem clearMem_flashBlobs (lo hi : Nat) : (clearMem lo hi c).flashBlobs = c.flashBlobs := rfl
@[simp] theorem clearMem_flashPending (lo hi : Nat) : (clearMem lo hi c).flashPending = c.flashPending := rfl
@[simp] theorem clearMem_draws (lo hi : Nat) : (clearMem lo hi c).draws = c.draws := rfl
@[simp] theorem clearMem_time (lo hi : Nat) : (clearMem lo hi c).time = c.time := rfl
@[simp] theorem clearMem_work (lo hi : Nat) : (clearMem lo hi c).work = c.work := rfl
@[simp] theorem clearMem_can (lo hi : Nat) : (clearMem lo hi c).can = c.can := rfl
@[simp] theorem clearMem_trowel (lo hi : Nat) : (clearMem lo hi c).trowel = c.trowel := rfl
@[simp] theorem clearMem_setup (lo hi : Nat) : (clearMem lo hi c).setup = c.setup := rfl
@[simp] theorem clearMem_hawk (lo hi : Nat) : (clearMem lo hi c).hawk = c.hawk := rfl
@[simp] theorem clearMem_stipple (lo hi : Nat) : (clearMem lo hi c).stipple = c.stipple := rfl
@[simp] theorem clearMem_hod (lo hi : Nat) : (clearMem lo hi c).hod = c.hod := rfl
@[simp] theorem clearMem_skim (lo hi : Nat) : (clearMem lo hi c).skim = c.skim := rfl
@[simp] theorem clearMem_screed (lo hi : Nat) : (clearMem lo hi c).screed = c.screed := rfl
@[simp] theorem clearMem_boot (lo hi : Nat) : (clearMem lo hi c).boot = c.boot := rfl
@[simp] theorem clearMem_chain (lo hi : Nat) : (clearMem lo hi c).chain = c.chain := rfl
@[simp] theorem clearMem_ports (lo hi : Nat) : (clearMem lo hi c).ports = c.ports := rfl
@[simp] theorem clearMem_out (lo hi : Nat) : (clearMem lo hi c).out = c.out := rfl
@[simp] theorem clearMem_num (lo hi : Nat) (p : Nat) : (clearMem lo hi c).num p = c.num p := rfl
@[simp] theorem clearMem_blob (lo hi : Nat) (p : Nat) : (clearMem lo hi c).blob p = c.blob p := rfl

end Sys2Proof.Machine
end

