-- ==== Sys2Proof/Laws/Issue.lean ====
section
/-!
SUPPORT. The issue of one Trowel instruction: everything it can do.
-/

namespace Sys2Proof.Machine

/-- A legal instruction whose access does not fault lands its writes and goes on. -/
theorem issue_runs {k : Nat} {legal : Views → Bool} {f : Views → Chip → Effect} {c : Chip}
    (hb : c.badFetch k = false) (hl : legal (c.views k) = true) (hf : (f (c.views k) c).fault = none)
    (hp : fetchable (afterSlot ((f (c.views k) c).chip.thread k) (f (c.views k) c).writes (f (c.views k) c).flow).pc.toNat = true) :
    Machine.issue k legal f c =
      modThread k (fun th => afterSlot th (f (c.views k) c).writes (f (c.views k) c).flow) (f (c.views k) c).chip := by
  unfold Machine.issue
  simp only [hb, hl, hf, Bool.not_true, Bool.false_eq_true, if_false]
  rw [← thread_modThread_same _ k (fun th => afterSlot th (f (c.views k) c).writes (f (c.views k) c).flow)] at hp
  unfold afterSlot at hp
  simp only [hp, if_true]
  rfl

/-- The same for the next state of a Trowel command: its effect is `ws`, `fl` and chip `c`. -/
theorem issue_as {i : Instr} {t : Thr} {s : State} {legal : Views → Bool} {f : Views → Chip → Effect}
    {ws : List (Nat × RegWrite)} {fl : Flow} {c : Chip} (hi : exec i s = s.issue t legal f)
    (hl : legal (s.chip.views (thrKey t)) = true) (hf : (f (s.chip.views (thrKey t)) s.chip).fault = none)
    (hw : (f (s.chip.views (thrKey t)) s.chip).writes = ws) (hg : (f (s.chip.views (thrKey t)) s.chip).flow = fl)
    (hc : (f (s.chip.views (thrKey t)) s.chip).chip = c) : IssuesAs i t s ws fl c := by
  intro h
  subst hw hg hc
  simp only [Leaves, hi, State.issue, State.onChip]
  rw [issue_runs h.1 hl hf h.2]

/-- An illegal word that is fetched raises a core fault of code ILLEGAL and changes nothing else. -/
theorem issue_illegal {k : Nat} {legal : Views → Bool} {f : Views → Chip → Effect} {c : Chip}
    (hb : c.badFetch k = false) (hl : legal (c.views k) = false) : Machine.issue k legal f c = coreFault codeIllegal k c := by
  unfold Machine.issue
  simp [hb, hl]

/-- Landing writes moves neither the program nor its delay slots, repeat and loop. -/
theorem landWrites_same (ws : List (Nat × RegWrite)) (th : Thread) :
    (landWrites th ws).pc = th.pc ∧ (landWrites th ws).delay = th.delay ∧ (landWrites th ws).rpt = th.rpt ∧
      (landWrites th ws).loop = th.loop := by
  unfold landWrites
  induction ws generalizing th with
  | nil => exact ⟨rfl, rfl, rfl, rfl⟩
  | cons w ws ih => exact ih _

/-- Outside delay slots, repeats and loops the program goes on at the next index. -/
theorem afterSlot_seq_pc (th : Thread) (ws : List (Nat × RegWrite)) (hd : th.delay = none) (hr : th.rpt = 0) (hl : th.loop = none) :
    (afterSlot th ws .seq).pc = th.pc + 1 := by
  obtain ⟨h1, h2, h3, h4⟩ := landWrites_same ws th
  unfold afterSlot Thread.settle Thread.flow
  simp [h1, h2, h3, h4, hd, hr, hl, Thread.advance, Thread.loopEnd]

/-- Outside delay slots, repeats and loops, whatever a program writes, it goes on by one instruction. -/
theorem canIssue_plain {s : State} {t : Thr} {c : Chip}
    (h : s.chip.badFetch (thrKey t) = false ∧ (c.thread (thrKey t)).delay = none ∧ (c.thread (thrKey t)).rpt = 0 ∧
      (c.thread (thrKey t)).loop = none ∧ fetchable ((c.thread (thrKey t)).pc + 1).toNat = true) (ws : List (Nat × RegWrite)) :
    CanIssue s t ws .seq c := by
  refine ⟨h.1, ?_⟩
  rw [afterSlot_seq_pc _ _ h.2.1 h.2.2.1 h.2.2.2.1]
  exact h.2.2.2.2
end Sys2Proof.Machine
end

