-- ==== Sys2Proof/Laws/Memory.lean ====
section
/-!
SUPPORT. The laws of the chip memories: read after write, and that every operation keeps the canonical form.
-/

namespace Sys2Proof.Machine

/-- A write of octets leaves every other place alone. -/
theorem byte_writeBytes_other {k j : Nat} (bs : List Byte) (c : Chip) (h : j < k ∨ k + bs.length ≤ j) :
    (writeBytes k bs c).byte j = c.byte j := tget_tsets_other 0 c.mem bs h

/-- Octets written are read back. -/
theorem bytesAt_writeBytes (k : Nat) (bs : List Byte) (c : Chip) : (writeBytes k bs c).bytesAt k bs.length = bs :=
  tgets_tsets_same 0 c.mem k bs

/-- A write of octets keeps the canonical form. -/
theorem mem_wf_writeBytes {k : Nat} {bs : List Byte} {c : Chip} (h : Memory.wf c.mem = true) :
    Memory.wf (writeBytes k bs c).mem = true := twf_tsets k bs h

/-- Clearing a range keeps the canonical form. -/
theorem mem_wf_clearMem {lo hi : Nat} {c : Chip} (h : Memory.wf c.mem = true) :
    Memory.wf (clearMem lo hi c).mem = true := twf_tclear lo hi h

/-- A data store keeps the canonical form. -/
theorem mem_wf_storeData {k addr n v : Nat} {c : Chip} (h : Memory.wf c.mem = true) :
    Memory.wf (storeData k addr n v c).mem = true := by
  unfold storeData
  split
  · split
    · exact mem_wf_writeBytes h
    · exact h
  · exact h

/-- A data store of `n` octets leaves every place alone that it does not name. -/
theorem byte_storeData_other {k addr n v j : Nat} {c : Chip}
    (h : ∀ p, placeOf (k / 4) addr = .mem p → j < p ∨ p + n ≤ j) : (storeData k addr n v c).byte j = c.byte j := by
  have hlen : ∀ n v, (leBytes n v).length = n := by
    intro n
    induction n with
    | zero => intro v; rfl
    | succ n ih => intro v; simp [leBytes, ih]
  unfold storeData
  split
  · split
    · rename_i p hp
      exact byte_writeBytes_other _ _ (by rw [hlen]; exact h p hp)
    · rfl
  · rfl

/-- Reset's memory is in canonical form. -/
theorem mem_wf_reset : Memory.wf State.reset.chip.mem = true := rfl

end Sys2Proof.Machine
end

