-- ==== Sys2Proof/Laws/Service.lean ====
section
/-!
SUPPORT. The request service: what a command that writes one object answers once it reaches the object's own rule, and what a
service keeps whatever it is asked.
-/

namespace Sys2Proof.Machine

/-- A command of the chip alone leaves what its function leaves. -/
theorem leaves_onChip {i : Instr} {s : State} {f : Chip → Chip} {c : Chip} (hi : exec i s = s.onChip f) (hc : f s.chip = c) :
    Leaves i s c := by
  rw [Leaves, hi, State.onChip, hc]

/-- Such a command keeps the queue and the Dust Sheet. -/
theorem completes_onChip {i : Instr} {s : State} {f : Chip → Chip} {P : State → Prop} (hi : exec i s = s.onChip f)
    (hp : P { s with chip := f s.chip }) : Completes i s P := ⟨_, hi, hp⟩

/-- Counting a request changes the chip alone. -/
theorem judged_state (p : Path) (s : State) (c : Chip) : { judged p s with chip := c } = { s with chip := c } := by
  unfold judged
  split <;> rfl

@[simp] theorem judged_pending (p : Path) (s : State) : (judged p s).pending = s.pending := by
  unfold judged
  split <;> rfl

@[simp] theorem judged_dust (p : Path) (s : State) : (judged p s).dust = s.dust := by
  unfold judged
  split <;> rfl

/-- A Nerlil request that reaches its service is answered by it. -/
theorem serve_reaches {p : Path} {m : Msg} {s : State} (run : Option Nat → State → State × Reply) (h : Reaches p m s) :
    serve p m run s = answerBy p m (actingMaster s.chip p) (run (actingMaster s.chip p) (judged p s)) := by
  obtain ⟨hb, hr, hn⟩ := h
  unfold serve
  cases p with
  | bar t => exact absurd hb (by simp [isBar])
  | kolef => simp [hr, judged, isNerlil]
  | mailbox t b | can a b d | chain a b d =>
    obtain ⟨h1, h2, h3, h4, h5, h6⟩ := hn rfl
    simp only [judged, isNerlil] at h1 h2 h3 h4 h5 h6 ⊢
    simp only [hr, Bool.false_eq_true, if_false, reduceCtorEq]
    unfold serveNerlil
    simp only [if_true] at h1 h2 h3 h4 h5 h6 ⊢
    simp only [h1, h2, h5, List.find?_nil, List.isEmpty_nil, Bool.not_true, Bool.false_and, Bool.false_eq_true, if_false]
    rw [if_neg (by omega), if_neg (by omega)]

/-- A WRITE that reaches its object's rule is answered by what the rule leaves. -/
theorem serveRow_writes {r : Req} {a o : Nat} {data : List Byte} {s : State} {act : Act} {x : State × Nat}
    (h : Writes r a o data s) (hx : act a (judged r.path s) = x) :
    serveRow r o data act s = .next (answered r a o data x) := by
  obtain ⟨ho, hr, ha, hd⟩ := h
  obtain ⟨d, ht, hv⟩ : ∃ d, writeTarget (judged r.path s).chip (some a) o = .ok d ∧ valueStatus d data = St.ok := by
    split at hd
    · exact ⟨_, ‹_›, of_decide_eq_true hd⟩
    · cases hd
  have e : (BitVec.ofNat 32 o).toNat = o := by
    rw [BitVec.toNat_ofNat]
    exact Nat.mod_eq_of_lt ho
  have hw : writeObject act (some a) o data (judged r.path s) = x := by
    unfold writeObject
    simp only [ht]
    rw [if_neg (by simp [hv]), Option.getD_some, hx]
  have hb := hr.1
  show Host.Outcome.next (serve r.path (writeMsg r o data) (runWrite r.path (writeMsg r o data) act) s) = _
  rw [serve_reaches _ hr, ha]
  congr 1
  unfold runWrite answered
  cases hp : r.path with
  | bar t => exact absurd hb (by rw [hp]; simp [isBar])
  | kolef | mailbox t b | can a b d | chain a b d =>
    simp only [writeMsg, e, hp] at hw ⊢
    rw [if_neg (by simp), hw]
    by_cases hs : x.2 = St.ok ∧ isStored o = true
    · rw [if_pos hs, if_pos (by simp [hs.1, hs.2])]
      rfl
    · rw [if_neg hs, if_neg (by simpa using hs)]
      rfl

/-- The same for a rule of the chip alone. -/
theorem serveRow_chip {r : Req} {a o : Nat} {data : List Byte} {s : State} {f : Nat → Chip → Chip × Nat} {c : Chip} {st : Nat}
    (h : Writes r a o data s) (hx : f a (judged r.path s).chip = (c, st)) :
    serveRow r o data (chipAct f) s = .next (answered r a o data ({ s with chip := c }, st)) := by
  refine serveRow_writes h ?_
  simp only [chipAct, hx, judged_state]

end Sys2Proof.Machine
end

