-- ==== Sys2Proof/Tests/Slice0.lean ====
section
/-!
SUPPORT. Tests: what well-formedness refuses, the queue, small results, and for every statement with hypotheses states and
operands that meet them (one part of the conjunction for each clause of the statement).
-/

namespace Sys2Proof.Tests
open Sys2Proof Sys2Proof.Machine
set_option maxRecDepth 100000
set_option Elab.async false

/-! ### Well-formedness: one ill-formed command for each check -/

theorem test_wf_refuses_long_data :
    (Instr.ndpWrite ⟨.mailbox 0 0, 1⟩ 0 0xFF (zeros 2017)).wf = false ∧
    (Instr.ndpWrite ⟨.can 0 7 true, 1⟩ 0 0xFF (zeros 49)).wf = false ∧
    (Instr.ndpWrite ⟨.bar 0, 1⟩ 0 0xFF (zeros 5)).wf = false ∧
    (Instr.writeData ⟨.mailbox 0 0, 1⟩ 0 0 0xFF (zeros 2017)).wf = false ∧
    (Instr.queuePut ⟨.mailbox 0 0, 1⟩ 0 0xFF (zeros 2017)).wf = false ∧
    (Instr.ndpPing ⟨.mailbox 0 0, 1⟩ 0xFF (zeros 2017)).wf = false ∧
    (Instr.kolefWr 0 (zeros 65)).wf = false ∧
    (Instr.mailboxDoorbell 0 0 0 (zeros 2033)).wf = false := by decide +kernel

theorem test_wf_refuses_kolefLog_count :
    (Instr.kolefLog none 0).wf = false ∧ (Instr.kolefLog none 65).wf = false ∧ (Instr.kolefLog none 64).wf = true := by
  decide +kernel

theorem test_wf_refuses_can_frames :
    (Instr.canFrameReceived 0 ⟨0, 0, false, false, false, 0, 0, 0, []⟩).wf = false ∧
    (Instr.canFrameReceived 0 ⟨1, 0, false, false, false, 0, 0, 0, zeros 9⟩).wf = false ∧
    (Instr.canFrameReceived 0 ⟨2, 0, false, false, false, 0, 0, 0, zeros 9⟩).wf = false ∧
    (Instr.canFrameReceived 0 ⟨2, 2048, false, false, false, 0, 0, 0, []⟩).wf = false ∧
    (Instr.canFrameReceived 0 ⟨0, 0, true, false, false, 0, 0, 0, zeros 1⟩).wf = false ∧
    (Instr.canFrameReceived 0 ⟨1, 0, false, false, true, 0, 0, 0, []⟩).wf = false ∧
    (Instr.canFrameReceived 0 ⟨1, 0, false, false, false, 0, 0, 0, zeros 12⟩).wf = true := by decide +kernel

theorem test_wf_refuses_lengths :
    (Instr.codeword 0 ⟨0, 255, false, false, [], false, zeros 639⟩).wf = false ∧
    (Instr.codeword 0 ⟨0, 255, false, false, [0, 0, 0, 0, 0], false, zeros 640⟩).wf = false ∧
    (Instr.hawkDigest 0 (zeros 63)).wf = false ∧ (Instr.lathHello 0 0 1 4 (zeros 15)).wf = false ∧
    (Instr.busRising 0 0 0 0 (List.replicate 511 0)).wf = false ∧ (Instr.busFalling 0 0 0 0 (List.replicate 511 0)).wf = false ∧
    (Instr.stemRising 0 0 0 0 (List.replicate 255 0)).wf = false ∧ (Instr.stemFalling 0 0 0 0 (List.replicate 255 0)).wf = false ∧
    (Instr.prefetch 0 0 [zeros 31]).wf = false ∧ (Instr.senseSample (List.replicate 17 0)).wf = false := by decide +kernel

theorem test_wf_refuses_repeats :
    (Instr.sampleTick [(3, 1), (3, 2)]).wf = false ∧ (Instr.frameBoundary [7, 7]).wf = false ∧
    (Instr.sampleTick [(3, 1), (4, 1)]).wf = true ∧ (Instr.frameBoundary [7, 8]).wf = true := by decide +kernel

/-! ### The queue -/

/-- The queue of reset is empty: the block idles. -/
theorem test_reset_idles : State.reset.pending = [] ∧ step State.reset = .next State.reset := ⟨rfl, rfl⟩

/-- The front command runs, and the rest of the queue stays (R24: each sample tick advances STC by one). -/
theorem test_step_takes_the_front :
    (match step { State.reset with pending := [.sampleTick [], .maxRelease, .sampleTick []] } with
      | .next t => decide (t.pending = [.maxRelease, .sampleTick []] ∧ t.chip.time.stc = 1)
      | _ => false) = true := by decide +kernel

/-- No row of the table gives bits. -/
theorem test_no_word_spells_a_command : decodeTableWord 32 0 = none ∧ State.reset.withFetchWord 32 0 = State.reset := ⟨rfl, rfl⟩

/-! ### Small results -/

/-- CRC-32C of the nine characters 1 to 9 is the catalogued check value E3069283. -/
theorem test_crc32c_check : crc32c [0x31, 0x32, 0x33, 0x34, 0x35, 0x36, 0x37, 0x38, 0x39] = 0xE3069283 := by decide +kernel

/-- R181: MOVI writes its immediate, visible to the next instruction that reads X, and goes on by one. -/
theorem test_movi :
    (match exec (.movi ⟨0, 0⟩ ⟨3, 0, 0x8001⟩) State.reset with
      | .next t => decide (((t.chip.thread 0).settled.x = [(3, 0x8001)]) ∧ (t.chip.thread 0).pc = (State.reset.chip.thread 0).pc + 1)
      | _ => false) = true := by decide +kernel

/-- R555: a line that is no command of Kolef's is answered ER BAD_REQUEST; one that names a command waits for its row. -/
theorem test_kolef_unknown_line :
    (match exec (.characterReceived 0 ⟨0x0D, false, false, false, false, 500⟩)
        { State.reset with chip := modUart 0 (fun y => { y with rx := [0x4C, 0x43, 0x0D, 0x46, 0x4F] }) State.reset.chip } with
      | .next t => decide ((t.chip.uart 0).rx = [0x4C, 0x43, 0x0D] ∧ t.chip.out = [.kolef St.badRequest []])
      | _ => false) = true ∧
    (match exec (.characterReceived 0 ⟨0x0D, false, false, false, false, 500⟩)
        { State.reset with chip := modUart 0 (fun y => { y with rx := [0x4C, 0x43] }) State.reset.chip } with
      | .next t => decide ((t.chip.uart 0).rx = [0x4C, 0x43, 0x0D] ∧ t.chip.out = [])
      | _ => false) = true := by decide +kernel

/-- R513's worked example: 868 cycles of start bit give Divider 0x0D90. -/
theorem test_autobaud_example :
    (match exec (.characterReceived 0 ⟨0x0D, false, false, false, false, 868⟩)
        { State.reset with chip := modUart 0 (fun y => { y with autobaud := true }) State.reset.chip } with
      | .next t => decide (t.chip.num (Obj.uartDivider 0) = 0x0D90 ∧ (t.chip.uart 0).autobaud = false)
      | _ => false) = true := by decide +kernel

/-- What the inputs that some statements ask for share: a Dust Sheet in order, and a step from it. -/
theorem test_meets_StepKeepsDustSheet :
    let d : DustSheet := { State.reset.dust with keys := [(5, zeros 32)], store := [(5, zeros 40)] }
    let s := { State.reset with dust := d, pending := [.sampleTick []] }
    s.dust.ok ∧ ∃ t, step s = .next t := by
  refine ⟨⟨by decide, by decide, by decide, by decide, by decide⟩, _, rfl⟩

/-- A read answers, whatever keys the Dust Sheet holds. -/
theorem test_meets_KeysCannotBeRead :
    ∃ t t', exec .kolefId State.reset = .next t ∧
      exec .kolefId { State.reset with dust := { State.reset.dust with keys := [(5, zeros 32)], store := [(5, zeros 40)] } } = .next t' :=
  ⟨_, _, rfl, rfl⟩

theorem test_meets_EmptyQueueIdles : State.reset.pending = [] := rfl

/-! ### States the parts below share -/

/-- The state after reset with another chip. -/
def stateOf (c : Chip) : State := { State.reset with chip := c }
/-- The chip after reset. -/
def c0 : Chip := State.reset.chip
/-- Objects set on a chip. -/
def withNums (c : Chip) (l : List (Nat × Nat)) : Chip := l.foldl (fun c x => setNum x.1 x.2 c) c
/-- An access table without permission. -/
def deny (kind unit : Nat) (c : Chip) : Chip :=
  { c with work := { c.work with access := tset [] c.work.access (kind * 65536 + unit) [0#8] } }
/-- An access table with the same nibble for every master. -/
def grant (kind unit : Nat) (v : Nat) (c : Chip) : Chip :=
  { c with work := { c.work with access := tset [] c.work.access (kind * 65536 + unit) (List.replicate 128 (BitVec.ofNat 8 (17 * v))) } }
/-- The chip at another sample tick. -/
def at_ (n : Nat) (c : Chip) : Chip := { c with time := { c.time with stc := n } }
/-- List object `k` at value `v` on a chip, whatever its reset value. -/
def putNum (k v : Nat) (s : State) : State := { s with chip := { s.chip with nums := tput s.chip.nums k v } }
/-- The part in a state of its life cycle. -/
def life (v : Nat) (s : State) : State := putNum Obj.lifecycleState v s

namespace P10
def lcg (n : Nat) : Nat := (n * 6364136223846793005 + 1442695040888963407) % 2^64
def rn (seed i : Nat) : Nat := (lcg (lcg (lcg (seed * 7919 + i * 104729 + 12345)))) / 2^20
def aVals : List Nat := [0, 1, 2^31-1, 2^31, 2^40 - 2^31, 2^40 - 2^31 - 1, 2^39, 2^39-1, 2^40-1, 0x12345678, 0xFF00000000, 0x7FFF0000]
def xVals : List Nat := [0, 1, 2, 0x7FFF, 0x8000, 0x8001, 0xFFFF, 0x1234, 0xABCD, 5, 255, 256, 257]
def pickN (l : List Nat) (n : Nat) : Nat := l.getD (n % l.length) 0
def rregs (s : Nat) : Regs :=
  { x := ((List.range 16).map (fun i => (i, BitVec.ofNat 16 (if (rn s i) % 3 = 0 then rn s (i+100) else pickN xVals (rn s (i + 200)))))).filter (fun e => e.2 != 0)
    a := ((List.range 4).map (fun i => (i, BitVec.ofNat 40 (if rn s (i+300) % 4 = 0 then rn s (i+400) else pickN aVals (rn s (i + 500)))))).filter (fun e => e.2 != 0)
    p := ((List.range 8).map (fun i => (i, BitVec.ofNat 24 (if rn s (i+600) % 6 = 0 then rn s (i+700) else 8 * (rn s (i + 800) % 4096))))).filter (fun e => e.2 != 0)
    m := ((List.range 8).map (fun i => (i, BitVec.ofNat 32 (if rn s (i+900) % 2 = 0 then rn s (i+910) else 4 * (rn s (i+920) % 3) + 65536 * (pickN [0, 16, 64, 1000] (rn s (i+930))))))).filter (fun e => e.2 != 0)
    lc := BitVec.ofNat 16 (pickN [0,1,2,3,500] (rn s 950)), bx := BitVec.ofNat 16 (pickN [0, 0x8001, 0x8000, 3] (rn s 951)), st := BitVec.ofNat 32 (pickN [0x300, 0x200, 0x100, 0, 0x4037F, 0x1300, 0x7300, 0x4130F] (rn s 952)) }
def rpend : List Pending := [Pending.mk 11 7 (RegWrite.x 3 77), Pending.mk 12 8 (RegWrite.a 1 0x7F00000000), Pending.mk 13 9 (RegWrite.flags true false true false false true)]
def rthread (s : Nat) : Thread :=
  { regs := rregs s, slot := 10, pc := BitVec.ofNat 16 (pickN [0, 0x100, 0x4000, 0x2FFE, 0x7FF0] (rn s 960)),
    writes := (if rn s 961 % 2 = 0 then [] else rpend), ef := BitVec.ofNat 16 (pickN [0, 1, 0x8000, 0x8001] (rn s 963)), state := .run }
def rstate (s : Nat) : Chip := { c0 with mem := (List.range 64).filterMap (fun i => if BitVec.ofNat 8 (rn s (i+1000)) = 0 then none else some (memLocal 0 (8*(rn s 1 % 4) + i), BitVec.ofNat 8 (rn s (i+1000)))), trowel := { c0.trowel with threads := [(0, rthread s)] } }
def state1 : State := (fun s => stateOf (rstate s)) 0
def state7 : State := (fun s => stateOf (rstate s)) 6
def state31 : State := (fun s => stateOf (rstate s)) 30
def views0 : Views := (fun s => (rstate s).views 0) 0
def views3 : Views := (fun s => (rstate s).views 0) 3
def views4 : Views := (fun s => (rstate s).views 0) 4
end P10
namespace P11
def lcg (n : Nat) : Nat := (n * 6364136223846793005 + 1442695040888963407) % 2^64
def rn (seed i : Nat) : Nat := (lcg (lcg (lcg (seed * 7919 + i * 104729 + 12345)))) / 2^20
def aVals : List Nat := [0, 1, 2^31-1, 2^31, 2^40 - 2^31, 2^40 - 2^31 - 1, 2^39, 2^39-1, 2^40-1, 0x12345678, 0xFF00000000, 0x7FFF0000]
def xVals : List Nat := [0, 1, 2, 0x7FFF, 0x8000, 0x8001, 0xFFFF, 0x1234, 0xABCD, 5, 255, 256, 257]
def pickN (l : List Nat) (n : Nat) : Nat := l.getD (n % l.length) 0
def rregs (s : Nat) : Regs :=
  { x := ((List.range 16).map (fun i => (i, BitVec.ofNat 16 (if (rn s i) % 3 = 0 then rn s (i+100) else pickN xVals (rn s (i + 200)))))).filter (fun e => e.2 != 0)
    a := ((List.range 4).map (fun i => (i, BitVec.ofNat 40 (if rn s (i+300) % 4 = 0 then rn s (i+400) else pickN aVals (rn s (i + 500)))))).filter (fun e => e.2 != 0)
    p := ((List.range 8).map (fun i => (i, BitVec.ofNat 24 (if rn s (i+600) % 6 = 0 then rn s (i+700) else 8 * (rn s (i + 800) % 4096))))).filter (fun e => e.2 != 0)
    m := ((List.range 8).map (fun i => (i, BitVec.ofNat 32 (if rn s (i+900) % 2 = 0 then rn s (i+910) else 4 * (rn s (i+920) % 3) + 65536 * (pickN [0, 16, 64, 1000] (rn s (i+930))))))).filter (fun e => e.2 != 0)
    lc := BitVec.ofNat 16 (pickN [0,1,2,3,500] (rn s 950)), bx := BitVec.ofNat 16 (pickN [0, 0x8001, 0x8000, 3] (rn s 951)), st := BitVec.ofNat 32 (pickN [0x300, 0x200, 0x100, 0, 0x4037F, 0x1300, 0x7300, 0x4130F] (rn s 952)) }
def rpend : List Pending := [Pending.mk 11 7 (RegWrite.x 3 77), Pending.mk 12 8 (RegWrite.a 1 0x7F00000000), Pending.mk 13 9 (RegWrite.flags true false true false false true)]
def rthread (s : Nat) : Thread :=
  { regs := rregs s, slot := 10, pc := BitVec.ofNat 16 (pickN [0, 0x100, 0x4000, 0x2FFE, 0x7FF0] (rn s 960)),
    writes := (if rn s 961 % 2 = 0 then [] else rpend), ef := BitVec.ofNat 16 (pickN [0, 1, 0x8000, 0x8001] (rn s 963)), state := .run }
def rstate (s : Nat) : Chip := { c0 with mem := (List.range 64).filterMap (fun i => if BitVec.ofNat 8 (rn s (i+1000)) = 0 then none else some (memLocal 0 (8*(rn s 1 % 4) + i), BitVec.ofNat 8 (rn s (i+1000)))), trowel := { c0.trowel with threads := [(0, rthread s)] } }
def fn (f : Thread → Thread) (c : Chip) : Chip := modThread 0 f c
def state1 : State := (fun s => stateOf (rstate s)) 0
def state2 : State := (fun s => stateOf (rstate s)) 1
def state7 : State := (fun s => stateOf (rstate s)) 6
def state8 : State := (fun s => stateOf (rstate s)) 7
def state9 : State := (fun s => stateOf (rstate s)) 8
def state15 : State := (fun s => stateOf (fn (fun t => { t with writes := [], regs := { t.regs with x := [(0, 3), (1, 0), (2, 1), (3, 256)], p := [(0, 8), (1, 64), (2, 0x200000)], m := [(0, 0x00000004), (1, 0x00000008)], bx := if s % 2 = 0 then 0 else 0x8001 }, pc := if s % 4 < 2 then 0x10 else 0x4000 }) (rstate s))) 0
end P11
namespace P12
def lcg (n : Nat) : Nat := (n * 6364136223846793005 + 1442695040888963407) % 2^64
def rn (seed i : Nat) : Nat := (lcg (lcg (lcg (seed * 7919 + i * 104729 + 12345)))) / 2^20
def aVals : List Nat := [0, 1, 2^31-1, 2^31, 2^40 - 2^31, 2^40 - 2^31 - 1, 2^39, 2^39-1, 2^40-1, 0x12345678, 0xFF00000000, 0x7FFF0000]
def xVals : List Nat := [0, 1, 2, 0x7FFF, 0x8000, 0x8001, 0xFFFF, 0x1234, 0xABCD, 5, 255, 256, 257]
def pickN (l : List Nat) (n : Nat) : Nat := l.getD (n % l.length) 0
def rregs (s : Nat) : Regs :=
  { x := ((List.range 16).map (fun i => (i, BitVec.ofNat 16 (if (rn s i) % 3 = 0 then rn s (i+100) else pickN xVals (rn s (i + 200)))))).filter (fun e => e.2 != 0)
    a := ((List.range 4).map (fun i => (i, BitVec.ofNat 40 (if rn s (i+300) % 4 = 0 then rn s (i+400) else pickN aVals (rn s (i + 500)))))).filter (fun e => e.2 != 0)
    p := ((List.range 8).map (fun i => (i, BitVec.ofNat 24 (if rn s (i+600) % 6 = 0 then rn s (i+700) else 8 * (rn s (i + 800) % 4096))))).filter (fun e => e.2 != 0)
    m := ((List.range 8).map (fun i => (i, BitVec.ofNat 32 (if rn s (i+900) % 2 = 0 then rn s (i+910) else 4 * (rn s (i+920) % 3) + 65536 * (pickN [0, 16, 64, 1000] (rn s (i+930))))))).filter (fun e => e.2 != 0)
    lc := BitVec.ofNat 16 (pickN [0,1,2,3,500] (rn s 950)), bx := BitVec.ofNat 16 (pickN [0, 0x8001, 0x8000, 3] (rn s 951)), st := BitVec.ofNat 32 (pickN [0x300, 0x200, 0x100, 0, 0x4037F, 0x1300, 0x7300, 0x4130F] (rn s 952)) }
def rpend : List Pending := [Pending.mk 11 7 (RegWrite.x 3 77), Pending.mk 12 8 (RegWrite.a 1 0x7F00000000), Pending.mk 13 9 (RegWrite.flags true false true false false true)]
def rthread (s : Nat) : Thread :=
  { regs := rregs s, slot := 10, pc := BitVec.ofNat 16 (pickN [0, 0x100, 0x4000, 0x2FFE, 0x7FF0] (rn s 960)),
    writes := (if rn s 961 % 2 = 0 then [] else rpend), ef := BitVec.ofNat 16 (pickN [0, 1, 0x8000, 0x8001] (rn s 963)), state := .run }
def rstate (s : Nat) : Chip := { c0 with mem := (List.range 64).filterMap (fun i => if BitVec.ofNat 8 (rn s (i+1000)) = 0 then none else some (memLocal 0 (8*(rn s 1 % 4) + i), BitVec.ofNat 8 (rn s (i+1000)))), trowel := { c0.trowel with threads := [(0, rthread s)] } }
def thr1 (s : Nat) : List Thread :=
  let t := rthread s
  [t, { t with writes := [] }, { t with delay := some (1, some 5) }, { t with loop := some (0x90, 0x100), pc := 0x100 }, { t with loop := some (0x90, 0x100), pc := 0x100, writes := [] },
   { t with loop := some (0x90, 0x120), pc := 0x100 }, { t with rpt := 1 }, { t with rpt := 5 }, { t with writes := [⟨11, 7, .x 3 77⟩] }, { t with writes := [⟨12, 9, .a 1 0x7F00000000⟩] }]
def TW (f : Trowel → Trowel) (c : Chip) : Chip := { c with trowel := f c.trowel }
def th (l : List (Nat × Thread)) (c : Chip) : Chip := TW (fun w => { w with threads := l }) c
def ie (n : Nat) : Thread := { (rthread n) with regs := { (rthread n).regs with st := 0x40300 }, writes := [], ef := 0x8001, shadow := none }
def sm (x : Sem) (c : Chip) : Chip := TW (fun w => { w with sems := [(0, x)] }) c
def tn (l : List (Nat × Nat)) (c : Chip) : Chip := withNums c l
def mask (c : Chip) : Chip := tn [(Obj.trowelThreadTask 1, 5), (Obj.trowelThreadMode 1, 1), (Obj.trowelThreadIntMask 1, 0xFFFF), (Obj.trowelThreadIntBase 1, 0x200)] c
def state1 : State := stateOf (rstate 1)
def state4 : State := stateOf (th [(1, ie 2)] (mask c0))
def state7 : State := stateOf (th [(0, { ie 2 with shadow := some ⟨0x77, 0x300, some (1, 2)⟩ })] c0)
def state8 : State := stateOf (th [(1, { rthread 2 with state := .ready })] c0)
def state9 : State := stateOf (th [(1, { rthread 2 with state := .ready }), (2, rthread 3)] c0)
def state10 : State := stateOf (th [(1, { rthread 2 with state := .ready }), (2, { rthread 3 with delay := some (1, none) })] c0)
def state14 : State := stateOf (th [(1, rthread 1)] (sm { held := some ⟨0, 1, 255, 100⟩ } c0))
def state15 : State := stateOf (th [(0, rthread 1)] (sm { held := some ⟨0, 0, 255, 100⟩ } c0))
def state16 : State := stateOf (th [(1, rthread 1)] (sm { held := some ⟨0, 1, 255, 100⟩, queue := [(0, 2, 3), (0, 3, 4)] } c0))
def state17 : State := stateOf (th [(1, rthread 1)] (sm { held := some ⟨0, 2, 255, 100⟩, former := [(0, 1)], queue := [(0, 3, 4)] } c0))
def state18 : State := stateOf (th [(1, rthread 1)] (sm { held := some ⟨0, 2, 255, 100⟩ } { c0 with time := { stc := 200 } }))
def thread0 : Thread := (thr1 0).getD 0 ({ } : Thread)
def thread3 : Thread := (thr1 0).getD 3 ({ } : Thread)
def thread5 : Thread := (thr1 0).getD 5 ({ } : Thread)
def thread6 : Thread := (thr1 0).getD 6 ({ } : Thread)
def thread7 : Thread := (thr1 0).getD 7 ({ } : Thread)
def thread23 : Thread := (thr1 2).getD 3 ({ } : Thread)
end P12
namespace P20
def N (l : List (Nat × Nat)) (c : Chip) : Chip := withNums c l
def TW (f : Trowel → Trowel) (c : Chip) : Chip := { c with trowel := f c.trowel }
def TH (k : Nat) (th : Thread) (c : Chip) : Chip := modThread k (fun _ => th) c
def gdef (t : Nat) : List Byte := [BitVec.ofNat 8 t, 0] ++ zeros 14 ++ [1, 0xFF] ++ zeros 110
def state1 : State := stateOf (TW (fun w => { w with tasks := [(5, {})] }) (N [(Obj.trowelTaskEnable 5, 1), (Obj.trowelThreadTask 1, 5), (Obj.trowelThreadTask 2, 5)] c0))
def state3 : State := stateOf (N [(Obj.trowelTaskCycles 5, 10), (Obj.tenantQuotaTaskCycles 0, 0)] c0)
def state6 : State := stateOf (N [(Obj.trowelTaskCycles 5, 100)] (deny 0x14 0 c0))
def state9 : State := stateOf (TW (fun w => { w with load := some ([1,2,3], 5, 1) }) c0)
def state11 : State := stateOf (setBlob (Obj.stippleGlobalDef 0) (gdef 1) c0)
def state14 : State := stateOf (TH 0 { state := .parked, wait := .sema 0 0 } (TW (fun w => { w with sems := [(0, { held := some ⟨0, 0, 0, 5⟩ })] }) c0))
def state16 : State := stateOf (N [(Obj.trowelCoreRetired 0, 1)] c0)
def state19 : State := stateOf (TW (fun w => { w with cores := [(0, { tripped := true })] }) c0)
def state20 : State := stateOf (N ((List.range 16).map (fun i => (Obj.trowelCoreClockMHz i, 1000))) c0)
end P20
namespace P21
def img (k : SetupKind) (hd : List Byte) : List Byte := slice (leBytes 4 k.magic ++ [1, 0] ++ hd ++ zeros 6000) 0 k.size
def tmpl : List Byte := img .template (zeros (0x40-6) ++ leBytes 8 (0xA*2^58 + 0x40*2^40 + 0x60*2^32))
def lay : List Byte := img .layer ([1, 0, 1] ++ zeros 7 ++ [0, 0, 0, 127])
def mset : List Byte := img .modset ([1] ++ zeros 25 ++ [1] ++ zeros 15 ++ [1, 0xFF])
def ctl : List Byte := img .control [1, 0xFF, 0]
def H (k : SetupKind) (h : Handle) (c : Chip) : Chip := modHandle k 0 (fun _ => h) c
def stg : SetupKind → List Byte | .template => tmpl | .layer => lay | .modset => mset | .control => ctl
def ver (n : Nat) (k : SetupKind) : Version := { ver := n, image := stg k, hash := 5 }
def octets1 : List Byte := zeros 272
def state1 : State := stateOf (((fun k => H k { staging := stg k } (H .template { versions := [ver 0 .template], current := some 0 } c0)) SetupKind.template))
def state2 : State := stateOf (((fun k => H k { staging := stg k } (H .template { versions := [ver 0 .template], current := some 0 } c0)) SetupKind.layer))
def state3 : State := stateOf (((fun k => H k { staging := stg k } (H .template { versions := [ver 0 .template], current := some 0 } c0)) SetupKind.modset))
def state4 : State := stateOf (((fun k => H k { staging := stg k } (H .template { versions := [ver 0 .template], current := some 0 } c0)) SetupKind.control))
def state9 : State := stateOf (((fun k => deny k.access 0 (H k { staging := stg k } (H .template { versions := [ver 0 .template], current := some 0 } c0))) SetupKind.template))
def state10 : State := stateOf (((fun k => deny k.access 0 (H k { staging := stg k } (H .template { versions := [ver 0 .template], current := some 0 } c0))) SetupKind.layer))
def state11 : State := stateOf (((fun k => deny k.access 0 (H k { staging := stg k } (H .template { versions := [ver 0 .template], current := some 0 } c0))) SetupKind.modset))
def state12 : State := stateOf (((fun k => deny k.access 0 (H k { staging := stg k } (H .template { versions := [ver 0 .template], current := some 0 } c0))) SetupKind.control))
def state13 : State := stateOf (((fun k => H k { versions := [ver 3 k, ver 2 k], current := some 2, next := some (3, 64), nextVer := 4, staging := [4] } c0) SetupKind.template))
def state14 : State := stateOf (((fun k => H k { versions := [ver 3 k, ver 2 k], current := some 2, next := some (3, 64), nextVer := 4, staging := [4] } c0) SetupKind.layer))
def state15 : State := stateOf (((fun k => H k { versions := [ver 3 k, ver 2 k], current := some 2, next := some (3, 64), nextVer := 4, staging := [4] } c0) SetupKind.modset))
def state16 : State := stateOf (((fun k => H k { versions := [ver 3 k, ver 2 k], current := some 2, next := some (3, 64), nextVer := 4, staging := [4] } c0) SetupKind.control))
def state17 : State := stateOf (((fun k => at_ 64 (H k { versions := [ver 3 k, ver 2 k], current := some 2, next := some (3, 64), nextVer := 4, staging := [4] } c0)) SetupKind.template))
end P21
namespace P30
def N (l : List (Nat × Nat)) (c : Chip) : Chip := withNums c l
def K (f : Skim → Skim) (c : Chip) : Chip := modSkim f c
def cw (op g ramp e sk si dk di : Nat) : List Byte := leBytes 8 (op * 2^60 + g * 2^59 + ramp * 2^46 + e * 2^42 + sk * 2^38 + si * 2^26 + dk * 2^22 + di * 2^10)
def coat (ws : List (List Byte)) (lv : Nat := 1) : List Byte := leBytes 4 0x434F5431 ++ leBytes 2 1 ++ leBytes 1 1 ++ leBytes 1 lv ++ zeros 56 ++ leBytes 4 0 ++ leBytes 4 ws.length ++ zeros (63 * 8) ++ ws.flatten
def coatA : List Byte := coat [cw 1 0 0 0 2 0 0 0, cw 5 0 0 0 0 0 2 0, cw 7 0 0 0 0 0 0 0]
def st (i : List Byte) (c : Chip) : Chip := setBlob Obj.skimCoatImage i c
def sl (addr val time : Nat) : List Byte := leBytes 4 0x534C5331 ++ leBytes 1 1 ++ zeros 27 ++ leBytes 4 addr ++ leBytes 4 val ++ leBytes 2 time ++ zeros 6 ++ zeros (16*63)
def sli (i : List Byte) (c : Chip) : Chip := setBlob (Obj.skimSafeLoadImage 0) i c
def set0 (t : Option Nat) : LoadSet := { slot := some 0, applyTick := 0, due := 5, seq := 0, entries := [⟨0x30000000, 5, 0⟩], late := false, taken := t }
def wet (p : WetPhase) (cross : Bool) (tick : Nat) (c : Chip) : Chip := at_ tick (K (fun k => { k with next := coatA, wet := { phase := p, cross := cross, start := 100, len := 50, changed := [8192], tenant := some 0 } }) c)
def task (f : Chip → Chip) : Chip := f (N [(Obj.trowelTaskEnable 5, 1), (Obj.trowelTaskCore 5, 0), (Obj.skimExchangeTask 0, 5)] c0)
def chip1 (h : ChainNet) (k : Skim) : Chip := { N [(Obj.lathPortState 0, 4), (Obj.lathPortState 1, 4), (Obj.lathPortAdmit 0, 1), (Obj.lathPortAdmit 1, 1)] c0 with chain := h, skim := k }
def state1 : State := stateOf (wet .pending true 81 c0)
def state4 : State := stateOf (wet .pending false 82 c0)
def state7 : State := stateOf (wet .pending true 132 c0)
def state23 : State := stateOf (wet .crossing true 182 c0)
def state31 : State := stateOf (wet .dipOut true 132 c0)
def state47 : State := stateOf (wet .dipIn true 182 c0)
def state49 : State := stateOf (st coatA c0)
def state54 : State := stateOf (deny 0xB 0 (st coatA c0))
def state55 : State := stateOf (st coatA (wet .pending true 0 c0))
def state57 : State := stateOf (N [(Obj.skimWetEdgeMode, 2)] (K (fun k => { k with next := coatA, current := coat [cw 7 0 0 0 0 0 0 0] }) c0))
def state59 : State := stateOf (N [(Obj.skimWetEdgeMode, 2)] (K (fun k => { k with next := coatA }) (grant 1 0x30 11 c0)))
def state61 : State := stateOf (sli (sl 0x30000000 5 0) c0)
def state62 : State := stateOf (sli (sl 0x30000000 0x5000000 0) c0)
def state64 : State := stateOf (deny 8 0 (sli (sl 0x30000000 5 0) c0))
def state65 : State := stateOf (sli (sl 0x30000000 5 0) (K (fun k => { k with sets := [set0 none] }) c0))
def state66 : State := stateOf (at_ 38 (K (fun k => { k with sets := [set0 none] }) c0))
def state68 : State := stateOf (at_ 38 (K (fun k => { k with sets := [set0 (some 3)] }) c0))
def state69 : State := stateOf (N [(Obj.skimSafeLoadStatus 0, 4)] c0)
def state71 : State := stateOf (deny 9 0 c0)
def state72 : State := stateOf (deny 0xE 0 c0)
def state73 : State := stateOf (task id)
def state74 : State := stateOf (task (fun c => N [(Obj.skimExchangeDir 0, 1)] c))
def state75 : State := stateOf (chip1 {} {})
def state77 : State := stateOf (N [(Obj.skimChainPresentDelay, 64)] (chip1 {} { passed := 9 }))
def state78 : State := stateOf (setBlob Obj.chainView (List.replicate 16 3 ++ [1, 2] ++ zeros 100) c0)
def state81 : State := stateOf (modWork (fun w => { w with awaited := [⟨.mailbox 0 0, 1, 1, 0, 0, 0, 1, 0⟩] }) c0)
end P30
namespace P31
def N (l : List (Nat × Nat)) (c : Chip) : Chip := withNums c l
def H (f : Hod → Hod) (c : Chip) : Chip := modHod f c
def vol (v : Volume) (st num : Nat) (c : Chip) : Chip := N [(Obj.hodVolumeState 0, st), (Obj.hodVolumeNumber 0, num)] (H (fun h => { h with volumes := tset {} h.volumes 0 v }) c)
def e1 : List Byte := [1, 1, 0, 0] ++ leBytes 2 0 ++ zeros 2 ++ leBytes 4 48000 ++ leBytes 4 0 ++ leBytes 8 100 ++ zeros 16 ++ leBytes 4 1 ++ zeros 20
def V : Volume := { sb := { extents := 10, slots := 8, dataExt := 1 }, dir := [(5, { state := 1, extents := 1, length := 10 })], map := [(0, 3)], tags := [] }
def imp (n : Nat) (c : Chip) : Chip := setBlob Obj.hodImportEntry e1 (N [(Obj.hodImportVolume, 0), (Obj.hodImportObject, n)] c)
def R0 : Read := { volume := 7, object := 5, index := 0, need := some 3 }
def state1 : State := stateOf (N ((List.range 12).map (fun d => (Obj.hodDriveState d, 2)) ++ (List.range 12).map (fun d => (Obj.hodDriveLocation d, 99))) c0)
def state2 : State := stateOf (N [(Obj.hodDriveState 3, 2), (Obj.hodDriveLocation 3, 5)] c0)
def state3 : State := stateOf (H (fun h => { h with drives := [(3, { linkDowns := [0, 0, 0] })] }) (N [(Obj.hodDriveState 3, 2), (Obj.hodDriveLocation 3, 5)] c0))
def state5 : State := stateOf (H (fun h => { h with drives := [(0, { controllerReset := true })] }) (N [(Obj.hodDriveState 0, 1)] c0))
def state6 : State := stateOf (N [(Obj.hodDriveRetired 0, 1), (Obj.hodDriveState 0, 3)] c0)
def state7 : State := stateOf (grant 1 0x40 7 c0)
def state8 : State := stateOf (vol V 2 7 c0)
def state9 : State := stateOf (vol V 2 7 (H (fun h => { h with reads := [R0] }) c0))
def state10 : State := stateOf (at_ 100000 (vol V 2 7 (H (fun h => { h with reads := [{ R0 with attempts := 3 }] }) c0)))
def state11 : State := stateOf (at_ 100000 (vol V 2 7 (H (fun h => { h with reads := [{ R0 with server := some 2, tried := [2] }] }) c0)))
def state12 : State := stateOf (at_ 100000 (H (fun h => { h with reads := [{ R0 with server := some 2, tried := [2] }], offers := [(2, 7, 1, 1), (3, 7, 1, 1)] }) c0))
def state14 : State := stateOf (N [(Obj.hodVolumeServe 0, 1)] (vol V 2 7 (H (fun h => { h with cache := [⟨7, 5, 0, [1,2], 0, false⟩] }) c0)))
def state16 : State := stateOf (N [(Obj.hodVolumeServe 0, 0)] (vol V 2 7 c0))
def state18 : State := stateOf (N [(Obj.hodVolumeState 0, 1), (Obj.hodVolumeMount 0, 1)] c0)
def state19 : State := stateOf (N [(Obj.hodVolumeState 0, 1), (Obj.hodVolumeMount 0, 3)] c0)
def state20 : State := stateOf (deny 0x15 0 c0)
def state22 : State := stateOf (N [(Obj.hodVolumePreload 0, 1)] (vol V 2 7 c0))
def state23 : State := stateOf (deny 0x15 0 (imp 3 (vol V 2 7 c0)))
def state24 : State := stateOf (imp 3 (vol V 2 7 c0))
def state26 : State := stateOf (H (fun h => { h with import_ := { slot := 0, object := 3, master := 0x10, entry := e1, isOpen := true } }) (imp 3 (vol V 2 7 c0)))
def state27 : State := stateOf (H (fun h => { h with import_ := { slot := 0, object := 3, master := 0x10, entry := e1, isOpen := true } }) (imp 3 (vol { V with sb := { V.sb with extents := 2 } } 2 7 c0)))
def state28 : State := stateOf (H (fun h => { h with import_ := { slot := 0, object := 3, master := 0x11, entry := e1, isOpen := true } }) (imp 3 (vol V 2 7 c0)))
def state29 : State := stateOf (H (fun h => { h with import_ := { slot := 0, object := 3, master := 0x10, entry := e1, isOpen := true, finishing := true, data := zeros 100 } }) (imp 3 (vol V 2 7 c0)))
def state30 : State := stateOf (H (fun h => { h with cursors := [(0, some { voice := 1, instance_ := 0, tenant := 0, volume := 7, object := 5, start := 0, mode := 0, rmax := 1 })] }) (vol V 2 7 c0))
end P31
namespace P32
def N (l : List (Nat × Nat)) (c : Chip) : Chip := withNums c l
def S (d : DustSheet) (c : Chip) : State := { chip := c, dust := d }
def bt (f : Boot → Boot) (c : Chip) : Chip := { c with boot := f c.boot }
def octets1 : List Byte := zeros 40
def state1 : State := S {state := .wiping} c0
def state2 : State := S {state := .wiping, repeated := true} c0
def state3 : State := S {keys := [(5, zeros 32 ++ [1])], store := [(5, zeros 40)]} c0
def state8 : State := stateOf (N [(Obj.bootState, 1)] c0)
def state9 : State := stateOf (bt (fun b => { b with started := true }) c0)
def state14 : State := stateOf (bt (fun b => { b with started := true, warm := true, failsA := 2 }) c0)
def state17 : State := stateOf (at_ 1000000000 (N [(Obj.powerQuietEnable, 1)] (bt (fun b => { b with idleSince := some 0 }) c0)))
def state18 : State := stateOf (N [(Obj.powerState, 2)] c0)
def state19 : State := stateOf ({ c0 with hawk := { c0.hawk with voices := [(0, none)] } })
end P32
namespace P33
def W (f : Work → Work) (c : Chip) : Chip := modWork f c
def lost (sealed : Bool) (c : Chip) : Chip := let d := W (fun w => { w with journal := { w.journal with blockA := { isSealed := sealed, stcLast := 100, gen := 3 } } }) c; { d with boot := { d.boot with powerLost := true } }
def state2 : State := stateOf (at_ 5 (W (fun w => { w with leases := [⟨4, 0x10, Obj.skimCoatCommit, 4⟩] }) c0))
def state4 : State := stateOf (lost true c0)
def state6 : State := stateOf (W (fun w => { w with supervisor := { held := [(.mailbox 0 0, { op := 1, txn := 1, object := 0, offset := 0, dst := 0, reserved := 0, data := [] })], restarting := true } }) c0)
def state7 : State := stateOf (W (fun w => { w with supervisor := { restarts := [0, 0] } }) c0)
def state9 : State := stateOf (W (fun w => { w with journal := { w.journal with replay := [(0, .waiting)] } }) c0)
def state10 : State := stateOf (beginCoreReset 0 c0)
def state11 : State := stateOf (beginCoreReset 17 c0)
end P33
namespace P34
def N (l : List (Nat × Nat)) (c : Chip) : Chip := withNums c l
def q (i : Nat) (f : Queue → Queue) (c : Chip) : Chip := modQueue i f c
def T (t : Nat) (f : Tenant → Tenant) (c : Chip) : Chip := modTenant t f c
def entry (seq : Nat) : List Byte := leBytes 8 0 ++ zeros 1 ++ leBytes 1 1 ++ leBytes 2 0xFFFF ++ leBytes 4 seq ++ leBytes 4 0x40903C00 ++ leBytes 4 0x80000000 ++ zeros 8
def mail (x : Mailbox) (o : List Nat) (c : Chip) : Chip := modWork (fun w => { w with mailboxes := [(0, x)], mailOrder := o }) c
def state2 : State := stateOf (q 32 (fun x => { x with state := .running, cfg := 6 }) (N [(Obj.tenantEnable 1, 1)] c0))
def state4 : State := stateOf (T 0 (fun t => { t with resetting := true }) (N [(Obj.tenantEnable 1, 1)] c0))
def state5 : State := stateOf (T 0 (fun t => { t with inFlr := true, resetting := true }) c0)
def state7 : State := stateOf (q 0 (fun x => { x with state := .running, cfg := 6 }) c0)
def state8 : State := stateOf (q 0 (fun x => { x with state := .running, cfg := 6, tail := 3 }) c0)
def state12 : State := stateOf (q 8 (fun x => { x with state := .running, cfg := 6, tail := 3, unsignalledAt := some 0, unsignalled := 2, bind := 10 }) c0)
def state13 : State := stateOf (at_ 9600 (q 8 (fun x => { x with state := .running, cfg := 6, tail := 3, unsignalledAt := some 0, unsignalled := 2, bind := 10 }) c0))
def state15 : State := stateOf (q 20 (fun x => { x with state := .running, cfg := 6, tail := 30 }) c0)
def state17 : State := stateOf (deny 0x16 0 c0)
def state18 : State := stateOf (q 16 (fun x => { x with bind := 2 * 65536 }) c0)
def state20 : State := stateOf (N [(Obj.tenantQuotaHostChannels 0, 1)] (q 16 (fun x => { x with bind := 2 * 65536 }) c0))
def state21 : State := stateOf ((fun e => q 8 (fun x => { x with state := .running, cfg := 6 }) (q 0 (fun x => { x with state := .running, cfg := 5, tail := 3, prefetch := [e] }) c0)) (entry 0))
def state23 : State := stateOf ((fun e => q 8 (fun x => { x with state := .running, cfg := 6 }) (q 0 (fun x => { x with state := .running, cfg := 5, tail := 3, prefetch := [e] }) c0)) (zeros 32))
def state26 : State := stateOf (mail { state := .busy } [] c0)
def state27 : State := stateOf (mail { state := .request, request := entry 0 } [0] c0)
def state31 : State := stateOf (N [(Obj.accessKind, 1), (Obj.accessFirst, 0), (Obj.accessCount, 1)] c0)
def state35 : State := stateOf (deny 0xA 1 (N [(Obj.accessKind, 0xA), (Obj.accessFirst, 0), (Obj.accessCount, 2)] c0))
def state36 : State := stateOf (deny 1 16 c0)
end P34
namespace P35
def N (l : List (Nat × Nat)) (c : Chip) : Chip := withNums c l
def F (slot : Option Nat) (late : Bool) (id : Nat := 5) : CanFrame := ⟨1, id, false, 0, 0, 0, [1, 2], slot, .waiting, late⟩
def ct (x : CanCtl) (c : Chip) : Chip := N [(Obj.canState 0, 1)] (modCtl 0 (fun _ => x) c)
def heart (c : Chip) : Chip := N [(Obj.canSlotEnable 0, 1), (Obj.stippleCanHeartbeat 0, 10)] { c with stipple := { c.stipple with steps := [(canKey 0, [(0, 77)])] } }
def state2 : State := stateOf (at_ 960 (heart c0))
def state4 : State := stateOf (ct { queue := [F none false 9, F none false] } c0)
def state5 : State := stateOf (ct { queue := [F (some 0) false] } c0)
def state8 : State := stateOf (ct { tec := 250 } c0)
def state11 : State := stateOf (N [(Obj.canState 0, 3)] c0)
def state14 : State := stateOf (ct { queue := [F none false], collisions := [((F none false).shownId, 0), ((F none false).shownId, 0)] } c0)
def state15 : State := stateOf (N [(Obj.canState 0, 4)] c0)
def state16 : State := stateOf (N [(Obj.canState 0, 5)] c0)
end P35
namespace P36
def N (l : List (Nat × Nat)) (c : Chip) : Chip := withNums c l
def B (o : Nat) (v : List Byte) (c : Chip) : Chip := setBlob o v c
def bind1 : List Byte := [1, 0xFF, 0xFF, 0x10, 1, 0, 0, 0, 3, 0xFF, 0xFF, 0x10, 1, 0, 0, 0]
def S1 (data : List Byte) (tot obj : Nat) : Session := { path := .can 0 7 false, master := some 0x10, txn := 1, object := obj, total := tot, data := data, lastOffset := 0, lastLength := 0, at_ := 0, expiry := 96000, ended := .isOpen }
def cb (c : Chip) : Chip := B Obj.ndpBind bind1 c
def sess (l : List Session) (c : Chip) : Chip := modWork (fun w => { w with sessions := l }) c
def q (i : Nat) (f : Queue → Queue) (c : Chip) : Chip := modQueue i f c
def noFn (c : Chip) : Chip := modWork (fun w => { w with port0Root := true }) c
def xlReq (op : Nat) : List Byte := [BitVec.ofNat 8 op, 0, 1, 0] ++ zeros 8 ++ [0, 0, 0xFF, 0]
def canrx1 : CanRx := ⟨0, 0, false, false, false, BitVec.ofNat 8 (c0.num (Obj.canSdt 0)), BitVec.ofNat 8 (c0.num (Obj.canVcid 0)), 0xFF074E01, xlReq 7⟩
def state2 : State := stateOf (cb (sess [S1 [] 4 Obj.hawkStealReserve] c0))
def state3 : State := stateOf (cb (sess [S1 [5] 1 Obj.hawkStealReserve] c0))
def state7 : State := stateOf (noFn c0)
def state8 : State := stateOf (deny 0x16 0 (noFn c0))
def state9 : State := stateOf (q 0 (fun x => { x with state := .running, cfg := 6 }) (noFn c0))
def state10 : State := stateOf (q 20 (fun x => { x with state := .running, cfg := 6, tail := 1, ring := [(0, zeros 16)] }) (noFn c0))
def state13 : State := stateOf ({ c0 with flashPending := [⟨.mailbox 0 0, 1, 2, Obj.hawkStealReserve, 0, 1, some 0x10, [5]⟩] })
def state14 : State := stateOf (at_ 96000 (modWork (fun w => { w with awaited := [⟨.mailbox 0 0, 1, 2, 0, 0, 0, 5, 0⟩] }) c0))
def state17 : State := stateOf (modTenant 0 (fun t => { t with evtStatus := 3, evtEnable := 1 }) (noFn (B Obj.ndpBind [3, 9, 0xFF, 0x10, 1, 0, 0, 0] c0)))
def state18 : State := stateOf (N [(Obj.canState 0, 1), (Obj.canRetired 0, 0)] (cb c0))
end P36
namespace P37
def N (l : List (Nat × Nat)) (c : Chip) : Chip := withNums c l
def st (n : Nat) (x : Port) (c : Chip) : Chip := modPort 0 (fun _ => x) (N [(Obj.lathPortState 0, n)] c)
def ch (h : ChainNet) (c : Chip) : Chip := { c with chain := h }
def V : View := { entries := [⟨0, 0, 2, 0, 1⟩, ⟨5, 1, 2, 0, 1⟩], master := 5, anchor := 5 }
def codeword3 : Codeword := ⟨1, 255, false, false, [], false, List.replicate 240 0⟩
def codeword4 : Codeword := ⟨255, 255, false, false, [], false, List.replicate 240 0⟩
def state1 : State := stateOf (st 3 {} c0)
def state2 : State := stateOf (st 4 {} c0)
def state3 : State := stateOf (st 5 {} c0)
def state5 : State := stateOf (st 4 {resends := 7} c0)
def state6 : State := stateOf (st 4 {delayAsked := some (0, 0)} c0)
def state7 : State := stateOf (st 3 {peer := some ⟨1, 1, 4, []⟩} c0)
def state8 : State := stateOf (st 3 {peer := some ⟨0, 1, 4, []⟩} c0)
def state9 : State := stateOf (st 3 {peer := some ⟨0, 2, 4, []⟩} c0)
def state10 : State := stateOf (N [(Obj.plumbRefState, 6), (Obj.chainState, 2), (Obj.lathPortState 1, 4)] (st 4 {} (ch { view := V } c0)))
def state12 : State := stateOf (N [(Obj.chainTimeMaster, 0),(Obj.identityChipNumber,0),(Obj.chainState, 2)] (st 4 {} (ch { view := { V with master := 0 } } c0)))
def state13 : State := stateOf (at_ 100000 c0)
def state15 : State := stateOf (st 1 {} c0)
def state16 : State := stateOf (st 2 {} c0)
def state18 : State := stateOf (st 8 {} c0)
def state20 : State := stateOf (deny 0x18 0 c0)
def state23 : State := stateOf (N [(Obj.lathLaneRetired 0, 1)] c0)
end P37
namespace P38
def N (l : List (Nat × Nat)) (c : Chip) : Chip := withNums c l
def up (c : Chip) : Chip := N [(Obj.lathPortState 0, 4)] c
def ch (h : ChainNet) (c : Chip) : Chip := { c with chain := h }
def V : View := { entries := [⟨0, 0, 2, 0, 1⟩, ⟨5, 1, 2, 0, 1⟩], master := 5, anchor := 5 }
def VF : List Nat := [7, 64, 5, 5, 255, 0, 0, 0, 0, 0, 2, 0, 1, 5, 1, 2, 0, 1]
def V2 : View := View.ofFields VF
def state1 : State := stateOf (up c0)
def state3 : State := stateOf (up (ch {sentAt := some 0} c0))
def state4 : State := stateOf (at_ 1000000 (up (ch {sentAt := some 0} c0)))
def state5 : State := stateOf (up (ch {relayed := [(5, 0), (5,3)], voteRelayed := [(5,3)], applyRelayed := [(7,64)]} c0))
def state6 : State := stateOf (up (ch {computed := some V} c0))
def state9 : State := stateOf (N [(Obj.chainState, 2)] (up (ch {view := V} c0)))
def state11 : State := stateOf (N [(Obj.chainState, 3), (Obj.chainQuarantineCause, 4)] (up (ch {view := V2} c0)))
def state12 : State := stateOf (at_ 10000000 (up (ch {censusOn := true } c0)))
def state13 : State := stateOf (at_ 10000000 (up (ch {computed := some V } c0)))
def state14 : State := stateOf (ch { nextView := some (V, 64) } c0)
def state15 : State := stateOf (at_ 64 (ch { nextView := some (V, 64) } c0))
def state25 : State := stateOf (at_ 64 (N [(Obj.lathPortCut 0, 1), (Obj.chainState, 2)] (ch {view := V, losses := [⟨1, 40, 64, false, false⟩]} c0)))
end P38
namespace P39
def N (l : List (Nat × Nat)) (c : Chip) : Chip := withNums c l
def ch (h : ChainNet) (c : Chip) : Chip := { c with chain := h }
def V : View := { entries := [⟨0, 0, 2, 0, 1⟩, ⟨5, 1, 2, 0, 1⟩], master := 5, anchor := 5 }
def mem (st me anchor : Nat) (h : ChainNet) : Chip := N [(Obj.chainState, st), (Obj.identityChipNumber, me), (Obj.chainAnchor, anchor)] (ch h c0)
def P : Proposal := { object := Obj.chainHeartbeatMiss, value := 5, epoch := 7, applyAt := 64 }
def W : ChainWriter := { path := .mailbox 0 0, txn := 1, op := 2, object := 5, data := [], master := none }
def state1 : State := stateOf (N [(Obj.chainHopTotal, 1000)] c0)
def state2 : State := stateOf (N [(Obj.chainHopTotal, 1000)] (mem 2 0 0 {}))
def state3 : State := stateOf (mem 3 0 0 {})
def state4 : State := stateOf (deny 0x19 0 (mem 3 0 0 {}))
def state8 : State := stateOf (mem 2 1 0 {})
def state9 : State := stateOf (mem 2 0 255 {})
def state11 : State := stateOf (mem 2 0 1 { proposal := some P, anchorVotes := some [(0, 0)], view := V })
def state12 : State := stateOf (at_ 64 (mem 2 0 1 { proposal := some P, anchorVotes := some [(0, 0)], view := V }))
def state13 : State := stateOf (at_ 64 (mem 2 0 1 { proposal := some P, anchorVotes := some [(0, 0)], applySent := true, writer := some W, view := V }))
def state14 : State := stateOf (at_ 64 (mem 2 0 1 { proposal := some { P with listed := some [0, 3] }, anchorVotes := some [(0, 0)], applySent := true, writer := some W, view := V }))
def state17 : State := stateOf (N [(Obj.chainQuarantineCause, 4)] (mem 3 0 1 {}))
def state18 : State := stateOf ({ N [(Obj.chainLayerHome 7, 0)] (mem 2 0 1 { view := V }) with setup := { c0.setup with layers := [(7, {})] } })
def state20 : State := stateOf (N [(Obj.hawkTenantSlotMin 0, 4000),(Obj.hawkTenantSlotMin 1, 4000),(Obj.hawkTenantSlotMin 2, 4000),(Obj.hawkTenantSlotMin 3, 4000),(Obj.hawkTenantSlotMin 4, 4000)] c0)
end P39
namespace P40
def N (l : List (Nat × Nat)) (c : Chip) : Chip := withNums c l
def rf (st : Nat) (r : Ref) (c : Chip) : Chip := N [(Obj.plumbRefState, st)] { c with time := { c.time with ref := r } }
def P96 : List Nat := List.replicate 16 10416667
def tm (t : Time) : Chip := { c0 with time := t }
def tr (ph : Nat) : Transition := { x := 64, y := 256, z := 320, rate := 4, block := 32, phase := ph }
def state1 : State := stateOf (rf 1 {} c0)
def state2 : State := stateOf (rf 1 {periods := P96, good := 3} c0)
def state3 : State := stateOf (rf 1 {periods := P96, good := 255} c0)
def state4 : State := stateOf (rf 3 {periods := P96} c0)
def state7 : State := stateOf (rf 4 {periods := P96, flyGood := 15, before := 2} c0)
def state10 : State := stateOf (rf 3 {periods := P96, sinceAnomaly := some 16} c0)
def state11 : State := stateOf (rf 3 {periods := P96, sinceAnomaly := some 17} c0)
def state12 : State := stateOf (rf 3 {periods := P96, sinceAnomaly := some 15} c0)
def state13 : State := stateOf (rf 2 {} c0)
def state16 : State := stateOf (at_ 64 (rf 4 {} c0))
def state18 : State := stateOf (at_ 100000000 (rf 5 {} c0))
def state20 : State := stateOf (rf 6 {} c0)
def state21 : State := stateOf (at_ 10000 (rf 6 {} c0))
def state22 : State := stateOf (N [(Obj.chainClockClass, 1)] (at_ 100000000 (rf 6 {} c0)))
def state24 : State := stateOf (N [(Obj.chainQuarantineCause, 4)] (tm { chainRebase := some (5, 6, 96000) }))
def state26 : State := stateOf (N [(Obj.chainQuarantineCause, 4)] (tm { chainRebase := some (5, 6, 96000), transition := some (tr 0) }))
def state28 : State := stateOf (tm { transition := some (tr 0), stc := 64 })
def state30 : State := stateOf (tm { transition := some (tr 1), stc := 256 })
def state32 : State := stateOf (tm { transition := some (tr 2), stc := 320 })
def state33 : State := stateOf (tm { transition := some (tr 3), stc := 320, stopped := true })
def state34 : State := stateOf (tm { transition := some (tr 3), stc := 320, stopped := true, second := some (64, 2, none) })
def state35 : State := stateOf (tm { blockNext := some (64, 64) })
def state36 : State := stateOf (tm { blockNext := some (64, 64), stc := 64 })
def state39 : State := stateOf (tm { tempoChange := some ⟨1, 65536 * 60, 77, 101, false⟩ })
def state40 : State := stateOf (tm { tempoChange := some ⟨1, 65536 * 60, 77, 101, false⟩, stc := 104 })
def state44 : State := stateOf (N [(Obj.timerEnable 0, 1), (Obj.timerWidth 0, 32)] (at_ 5 c0))
def state46 : State := stateOf (N [(Obj.timerEnable 0, 1), (Obj.timerWidth 0, 32), (Obj.timerMode 0, 1)] (at_ 5 c0))
def state47 : State := stateOf (N [(Obj.timerEnable 0, 1), (Obj.timerWidth 0, 32), (Obj.timerMode 0, 1), (Obj.timerCompare0 0, 1), (Obj.timerCompare1 0, 1), (Obj.timerOwner 0, 0xFF), (Obj.timerCore 0, 0xFFFF)] (at_ 5 c0))
def state48 : State := stateOf (N [(Obj.timerEnable 0, 1), (Obj.timerWidth 0, 32), (Obj.timerMode 0, 2), (Obj.timerCompare0 0, 1), (Obj.timerOwner 0, 0), (Obj.timerCore 0, 0xFFFF)] (at_ 5 c0))
def state49 : State := stateOf (N [(Obj.timerEnable 0, 1), (Obj.timerWidth 0, 16), (Obj.timerMode 0, 0), (Obj.timerCounter 0, 65535), (Obj.timerPreload0 0, 9), (Obj.timerCompare0 0, 1), (Obj.timerStatus 0, 4)] (at_ 5 c0))
end P40
namespace P41
def U (k : Nat) (x : Uart) (c : Chip) : Chip := modUart k (fun _ => x) c
def N (l : List (Nat × Nat)) (c : Chip) : Chip := withNums c l
def M1 (m : Nat) (c : Chip) : Chip := N [(Obj.uartMode 1, m), (Obj.uartFormat 1, if m = 2 then 4 else 3)] c
def wake (k m : Nat) (c : Chip) := N [(Obj.powerState, 2), (Obj.uartWakeEnable k, 1), (Obj.uartMode k, m), (Obj.uartFormat k, 4), (Obj.uartAddress k, 5), (Obj.uartAddrMask k, 255)] c
def R (c : Chip) : Chip := modQueue (qix 0 0) (fun q => { q with state := .running }) c
def state1 : State := stateOf (M1 3 c0)
def state2 : State := stateOf (U 1 {rx := List.replicate 128 5} (M1 3 c0))
def state4 : State := stateOf (N [(Obj.uartXonXoff 1, 1)] (M1 1 c0))
def state6 : State := stateOf (M1 2 c0)
def state7 : State := stateOf (N [(Obj.uartMute 1, 1)] (M1 2 c0))
def state8 : State := stateOf (N [(Obj.uartAddress 1, 5), (Obj.uartAddrMask 1, 255)] (M1 2 c0))
def state9 : State := stateOf (M1 4 c0)
def state10 : State := stateOf (M1 5 c0)
def state11 : State := stateOf (M1 6 c0)
def state12 : State := stateOf ({ c0 with boot := { c0.boot with img := some ⟨1, 4, [], 0⟩ } })
def state13 : State := stateOf (U 0 {autobaud := true} c0)
def state14 : State := stateOf (N [(Obj.powerState, 2)] c0)
def state15 : State := stateOf (wake 1 2 c0)
def state17 : State := stateOf (N [(Obj.uartDivider 1, 2000000)] (wake 1 2 c0))
def state19 : State := stateOf (U 0 {rx := [1]} c0)
def state20 : State := stateOf (U 1 { sending := some 5 } (M1 1 c0))
def state21 : State := stateOf (U 1 { sending := some 5, cfg := some (3, 64, 3) } (M1 1 c0))
def state22 : State := stateOf (U 1 { sending := some 5, retry := some 3, rx := [1,2] } (N [(Obj.uartRetries 1, 3)] (M1 3 c0)))
def state23 : State := stateOf (U 1 { sending := some 5, attempts := 3, tx := [4,5] } (N [(Obj.uartRetries 1, 3)] (M1 3 c0)))
def state24 : State := stateOf (U 1 { tx := List.replicate 128 3 } (M1 3 c0))
def state28 : State := stateOf (R c0)
def state30 : State := stateOf (deny 0x16 0 c0)
def state32 : State := stateOf (at_ 10 (U 1 { dmxAt := some 0 } (M1 5 c0)))
def state33 : State := stateOf (at_ 100000 (U 1 { dmxAt := some 0 } (M1 5 c0)))
def state34 : State := stateOf (N [(Obj.uartRdmStatus 1, 1)] (M1 5 c0))
def state35 : State := stateOf (U 1 { dmxOpen := true, dmxBuf := [0, 4] } (M1 6 c0))
def state36 : State := stateOf (U 1 { request := some 0 } (M1 6 c0))
def state37 : State := stateOf (at_ 96 (U 1 { request := some 0, answer := some (true, [4]) } (M1 6 c0)))
def state38 : State := stateOf (at_ 96 (U 1 { request := some 0, response := some [4] } (M1 6 c0)))
def state39 : State := stateOf (at_ 96 (U 1 { request := some 0 } (M1 6 c0)))
def state40 : State := stateOf (at_ 1000 (N [(Obj.uartRdmStatus 1, 1)] (M1 5 c0)))
def state41 : State := stateOf (N [(Obj.uartRdmStatus 1, 1)] (U 1 {capture := some (true, [1,2], false)} (M1 5 c0)))
def state43 : State := stateOf (U 1 { request := some 0 } (N [(Obj.uartRdmResponder 1, 1)] (M1 6 c0)))
def state44 : State := stateOf (at_ 96 (U 1 { request := some 0 } (N [(Obj.uartRdmResponder 1, 1)] (M1 6 c0))))
def state45 : State := stateOf (at_ 960 (U 1 { request := some 0 } (N [(Obj.uartRdmResponder 1, 1)] (M1 6 c0))))
end P41
namespace P42
def cvs (x : CvChan) (st : Nat) (c : Chip) : Chip := setNum (Obj.cvState 0) st (modCv 0 (fun _ => x) c)
def state1 : State := stateOf (at_ 37 c0)
def state2 : State := stateOf (at_ 37 (cvs { queue := [(0, 5)] } 0 c0))
def state3 : State := stateOf (at_ 37 (cvs { queue := [(0, 5)] } 3 c0))
def state6 : State := stateOf (cvs { before := 5 } 0 c0)
def state7 : State := stateOf (withNums c0 [(Obj.cvTolerance, 65535)])
def state8 : State := stateOf (cvs { backs := [false, false], before := 5 } 0 c0)
def state9 : State := stateOf (cvs { backs := [false, false], faults := [0, 0] } 0 c0)
def state10 : State := stateOf (cvs { backs := [false, false], faults := [0] } 1 c0)
def state11 : State := stateOf (at_ 10000000 (withNums (cvs { backs := List.replicate 16 true, faults := [0] } 1 c0) [(Obj.cvTolerance, 65535)]))
def state14 : State := stateOf (cvs { backs := [false, false], faults := [0] } 2 c0)
def state21 : State := stateOf (deny 16 0 c0)
def state22 : State := stateOf (withNums c0 [(Obj.cvRetired 0, 1), (Obj.cvState 0, 2)])
def state25 : State := stateOf (deny 10 0 c0)
def state26 : State := stateOf (withNums c0 [(Obj.tdmMode 0, 2),(Obj.tdmState 0, 1)])
def state27 : State := stateOf (withNums c0 [(Obj.tdmMode 0, 2),(Obj.tdmState 0, 3)])
end P42
namespace P50
def lcg (n : Nat) : Nat := (n * 6364136223846793005 + 1442695040888963407) % 2^64
def rn (seed i : Nat) : Nat := (lcg (lcg (lcg (seed * 7919 + i * 104729 + 12345)))) / 2^20
def pr (s : Nat) : Int := (match s % 6 with | 0 => 2^54 | 1 => -(2^54) - 5 | 2 => 2^39 - 1 | 3 => -(2^39) + 77 | _ => (rn s 9 % 2^(30 + s % 30) : Nat) - 2^(29 + s % 30))
def pass0 : Pass := (fun s => { buses := [(0, pr s), (1, pr (s+1)), (2, 2^55-1)], chain := [(0, 2^63 - 5), (1, pr (s+7))], acc := if s % 3 = 0 then [] else [(0, pr (s+2)), (1, 2^55-1)], accClips := s }) 0
def pass1 : Pass := (fun s => { buses := [(0, pr s), (1, pr (s+1)), (2, 2^55-1)], chain := [(0, 2^63 - 5), (1, pr (s+7))], acc := if s % 3 = 0 then [] else [(0, pr (s+2)), (1, 2^55-1)], accClips := s }) 1
end P50
namespace P11c
def lcg (n : Nat) : Nat := (n * 6364136223846793005 + 1442695040888963407) % 2^64
def rn (seed i : Nat) : Nat := (lcg (lcg (lcg (seed * 7919 + i * 104729 + 12345)))) / 2^20
def aVals : List Nat := [0, 1, 2^31-1, 2^31, 2^40 - 2^31, 2^40 - 2^31 - 1, 2^39, 2^39-1, 2^40-1, 0x12345678, 0xFF00000000, 0x7FFF0000]
def xVals : List Nat := [0, 1, 2, 0x7FFF, 0x8000, 0x8001, 0xFFFF, 0x1234, 0xABCD, 5, 255, 256, 257]
def pickN (l : List Nat) (n : Nat) : Nat := l.getD (n % l.length) 0
def rregs (s : Nat) : Regs :=
  { x := ((List.range 16).map (fun i => (i, BitVec.ofNat 16 (if (rn s i) % 3 = 0 then rn s (i+100) else pickN xVals (rn s (i + 200)))))).filter (fun e => e.2 != 0)
    a := ((List.range 4).map (fun i => (i, BitVec.ofNat 40 (if rn s (i+300) % 4 = 0 then rn s (i+400) else pickN aVals (rn s (i + 500)))))).filter (fun e => e.2 != 0)
    p := ((List.range 8).map (fun i => (i, BitVec.ofNat 24 (if rn s (i+600) % 6 = 0 then rn s (i+700) else 8 * (rn s (i + 800) % 4096))))).filter (fun e => e.2 != 0)
    m := ((List.range 8).map (fun i => (i, BitVec.ofNat 32 (if rn s (i+900) % 2 = 0 then rn s (i+910) else 4 * (rn s (i+920) % 3) + 65536 * (pickN [0, 16, 64, 1000] (rn s (i+930))))))).filter (fun e => e.2 != 0)
    lc := BitVec.ofNat 16 (pickN [0,1,2,3,500] (rn s 950)), bx := BitVec.ofNat 16 (pickN [0, 0x8001, 0x8000, 3] (rn s 951)), st := BitVec.ofNat 32 (pickN [0x300, 0x200, 0x100, 0, 0x4037F, 0x1300, 0x7300, 0x4130F] (rn s 952)) }
def rpend : List Pending := [Pending.mk 11 7 (RegWrite.x 3 77), Pending.mk 12 8 (RegWrite.a 1 0x7F00000000), Pending.mk 13 9 (RegWrite.flags true false true false false true)]
def rthread (s : Nat) : Thread :=
  { regs := rregs s, slot := 10, pc := BitVec.ofNat 16 (pickN [0, 0x100, 0x4000, 0x2FFE, 0x7FF0] (rn s 960)),
    writes := (if rn s 961 % 2 = 0 then [] else rpend), ef := BitVec.ofNat 16 (pickN [0, 1, 0x8000, 0x8001] (rn s 963)), state := .run }
def rstate (s : Nat) : Chip := { c0 with mem := (List.range 64).filterMap (fun i => if BitVec.ofNat 8 (rn s (i+1000)) = 0 then none else some (memLocal 0 (8*(rn s 1 % 4) + i), BitVec.ofNat 8 (rn s (i+1000)))), trowel := { c0.trowel with threads := [(0, rthread s)] } }
def state0 : State := (fun s => stateOf (modThread 0 (fun t => { t with writes := [], regs := { t.regs with x := [(0, 3), (1, 0), (2, 1), (3, 40)], p := [(0, 8), (1, 64), (2, 0x200000)], m := [(0, 0x00000004), (1, 0x00000008)], bx := if s % 2 = 0 then 0 else 0x8001 }, pc := if s % 4 < 2 then 0x10 else 0x4000 }) (rstate s))) (0)
end P11c
namespace P12b
def lcg (n : Nat) : Nat := (n * 6364136223846793005 + 1442695040888963407) % 2^64
def rn (seed i : Nat) : Nat := (lcg (lcg (lcg (seed * 7919 + i * 104729 + 12345)))) / 2^20
def aVals : List Nat := [0, 1, 2^31-1, 2^31, 2^40 - 2^31, 2^40 - 2^31 - 1, 2^39, 2^39-1, 2^40-1, 0x12345678, 0xFF00000000, 0x7FFF0000]
def xVals : List Nat := [0, 1, 2, 0x7FFF, 0x8000, 0x8001, 0xFFFF, 0x1234, 0xABCD, 5, 255, 256, 257]
def pickN (l : List Nat) (n : Nat) : Nat := l.getD (n % l.length) 0
def rregs (s : Nat) : Regs :=
  { x := ((List.range 16).map (fun i => (i, BitVec.ofNat 16 (if (rn s i) % 3 = 0 then rn s (i+100) else pickN xVals (rn s (i + 200)))))).filter (fun e => e.2 != 0)
    a := ((List.range 4).map (fun i => (i, BitVec.ofNat 40 (if rn s (i+300) % 4 = 0 then rn s (i+400) else pickN aVals (rn s (i + 500)))))).filter (fun e => e.2 != 0)
    p := ((List.range 8).map (fun i => (i, BitVec.ofNat 24 (if rn s (i+600) % 6 = 0 then rn s (i+700) else 8 * (rn s (i + 800) % 4096))))).filter (fun e => e.2 != 0)
    m := ((List.range 8).map (fun i => (i, BitVec.ofNat 32 (if rn s (i+900) % 2 = 0 then rn s (i+910) else 4 * (rn s (i+920) % 3) + 65536 * (pickN [0, 16, 64, 1000] (rn s (i+930))))))).filter (fun e => e.2 != 0)
    lc := BitVec.ofNat 16 (pickN [0,1,2,3,500] (rn s 950)), bx := BitVec.ofNat 16 (pickN [0, 0x8001, 0x8000, 3] (rn s 951)), st := BitVec.ofNat 32 (pickN [0x300, 0x200, 0x100, 0, 0x4037F, 0x1300, 0x7300, 0x4130F] (rn s 952)) }
def rpend : List Pending := [Pending.mk 11 7 (RegWrite.x 3 77), Pending.mk 12 8 (RegWrite.a 1 0x7F00000000), Pending.mk 13 9 (RegWrite.flags true false true false false true)]
def rthread (s : Nat) : Thread :=
  { regs := rregs s, slot := 10, pc := BitVec.ofNat 16 (pickN [0, 0x100, 0x4000, 0x2FFE, 0x7FF0] (rn s 960)),
    writes := (if rn s 961 % 2 = 0 then [] else rpend), ef := BitVec.ofNat 16 (pickN [0, 1, 0x8000, 0x8001] (rn s 963)), state := .run }
def thr1 (s : Nat) : List Thread :=
  let t := rthread s
  [t, { t with writes := [] }, { t with delay := some (1, some 5) }, { t with loop := some (0x90, 0x100), pc := 0x100 }, { t with loop := some (0x90, 0x100), pc := 0x100, writes := [] },
   { t with loop := some (0x90, 0x120), pc := 0x100 }, { t with rpt := 1 }, { t with rpt := 5 }, { t with slot := 10, writes := [⟨12, 8, .x 3 5⟩] }, { t with slot := 10, writes := [⟨12, 8, .a 4 5⟩] }]
def TW (f : Trowel → Trowel) (c : Chip) : Chip := { c with trowel := f c.trowel }
def th (l : List (Nat × Thread)) (c : Chip) : Chip := TW (fun w => { w with threads := l }) c
def state20 : State := stateOf (th [(0, { rthread 1 with pc := 3 }), (1, rthread 1)] { c0 with errs := { c0.errs with bad := (List.range 9).map (fun i => memProgram 0 0 / 8 + i) } })
def thread0 : Thread := (thr1 0).getD 0 ({ } : Thread)
def thread8 : Thread := (thr1 0).getD 8 ({ } : Thread)
def thread9 : Thread := (thr1 0).getD 9 ({ } : Thread)
end P12b
namespace P22a
def N (l : List (Nat × Nat)) (c : Chip) : Chip := withNums c l
def HK (f : Hawk → Hawk) (c : Chip) : Chip := { c with hawk := f c.hawk }
def TW (f : Trowel → Trowel) (c : Chip) : Chip := { c with trowel := f c.trowel }
def v1 : Voice := { id := 77, control := false, tenant := 0, handle := 3, zone := 0, template := 0, version := 0, origin := ⟨255, 0, 0, 9⟩, key := [], noteOn := 0, note := ⟨0, 60, 1, 0, 0⟩, state := .sounding, slots := [0] }
def T0 (c : Chip) : Chip := { c with setup := { c.setup with templates := [(0, { versions := [{ ver := 0, image := zeros 18 ++ [1, 0] ++ zeros 1000, hash := 99 }], current := some 0 })] } }
def V (l : List Voice) (c : Chip) : Chip := T0 (HK (fun h => { h with voices := l.zipIdx.map (fun x => (x.2, some x.1)), nextVoice := l.length }) c)
def task (f : Chip → Chip) (t : TaskRun := {}) : Chip := f (TW (fun w => { w with tasks := [(5, t)] }) (N [(Obj.trowelTaskEnable 5, 1), (Obj.trowelTaskCore 5, 0), (Obj.skimExchangeTask 0, 5)] { c0 with mem := [(5, 6)] }))
def core (r : CoreRun) (c : Chip) : Chip := TW (fun w => { w with cores := [(0, r)] }) c
def state1 : State := stateOf ({ c0 with time := { stopped := true } })
def state2 : State := stateOf (at_ 32 c0)
def state3 : State := stateOf (at_ 33 c0)
def state6 : State := stateOf ({ c0 with time := { stc := 32, silent := true } })
def state8 : State := stateOf (HK (fun h => { h with boundaryDone := 1 }) (at_ 32 c0))
def state14 : State := stateOf ({ c0 with stipple := { c0.stipple with late := [(0, 2)] } })
def state15 : State := stateOf (core { running := .voice 0 1 true } (V [v1] c0))
def state17 : State := stateOf (core { tasks := [5] } (task id))
end P22a
namespace P22b
def N (l : List (Nat × Nat)) (c : Chip) : Chip := withNums c l
def TW (f : Trowel → Trowel) (c : Chip) : Chip := { c with trowel := f c.trowel }
def q (i : Nat) (f : Queue → Queue) (c : Chip) : Chip := modQueue i f c
def task (f : Chip → Chip) (t : TaskRun := {}) : Chip := f (TW (fun w => { w with tasks := [(5, t)] }) (N [(Obj.trowelTaskEnable 5, 1), (Obj.trowelTaskCore 5, 0), (Obj.skimExchangeTask 0, 5)] { c0 with mem := [(5, 6)] }))
def cur : Cursor := { voice := 0, instance_ := 0, tenant := 0, volume := 7, object := 5, start := 0, mode := 0, rmax := 1 }
def state2 : State := stateOf (at_ 33 { c0 with skim := { c0.skim with passed := 1 } })
def state3 : State := stateOf (at_ 33 { c0 with skim := { c0.skim with passed := 1, wet := { phase := .crossing } } })
def state5 : State := stateOf (task (fun c => at_ 96 (N [(Obj.skimExchangeDir 0, 1)] c)))
def state6 : State := stateOf (task (fun c => at_ 32 (N [(Obj.skimExchangeDir 0, 2)] c)))
def state7 : State := stateOf (task (fun c => at_ 64 (N [(Obj.skimExchangeDir 0, 2)] c)) { doneFrame := 2 })
def state8 : State := stateOf ({ c0 with hod := { c0.hod with cursors := [(0, some cur)] } })
def state9 : State := stateOf (at_ 16 (q 16 (fun x => { x with state := .running, cfg := 4, bind := 65536 }) c0))
def state10 : State := stateOf (at_ 16 (q 16 (fun x => { x with state := .running, cfg := 4, bind := 65536, tail := 1 }) c0))
def state11 : State := stateOf (at_ 16 (q 16 (fun x => { x with state := .halted, cfg := 4 }) c0))
def state12 : State := stateOf (at_ 16 c0)
def state13 : State := stateOf (at_ 66 (q 20 (fun x => { x with state := .running, cfg := 4, bind := 65536 }) c0))
def state14 : State := stateOf (at_ 66 (q 20 (fun x => { x with state := .running, cfg := 4, bind := 65536, tail := 15 }) c0))
end P22b
namespace P23a
def N (l : List (Nat × Nat)) (c : Chip) : Chip := withNums c l
def HK (f : Hawk → Hawk) (c : Chip) : Chip := { c with hawk := f c.hawk }
def v1 : Voice := { id := 77, control := false, tenant := 0, handle := 3, zone := 0, template := 0, version := 0, origin := ⟨255, 0, 0, 9⟩, key := [], noteOn := 0, note := ⟨0, 60, 1, 0, 0⟩, state := .sounding, slots := [0] }
def T0 (c : Chip) : Chip := { c with setup := { c.setup with templates := [(0, { versions := [{ ver := 0, image := zeros 1024, hash := 99 }], current := some 0 })] } }
def V (l : List Voice) (c : Chip) : Chip := T0 (HK (fun h => { h with voices := l.zipIdx.map (fun x => (x.2, some x.1)), nextVoice := l.length }) c)
def rec_ (k : Nat) : List Nat := [88, 99, 0, 0, 99, 0, k, 0, 0, 0, 0xFFFF, 0, 0, 0, 0, 255, 0, 0, 255, 0, 0, 4] ++ List.replicate 1100 0
def fields4 : List Nat := rec_ 5
def fields17 : List Nat := [99,99] ++ List.replicate 60 0
def state1 : State := stateOf (V [v1] c0)
def state2 : State := stateOf (N [(Obj.hawkMigrateStatus, 1)] (V [v1] c0))
def state3 : State := stateOf (N [(Obj.hawkMigrateVoiceId, 77)] (V [v1] c0))
def state4 : State := stateOf (N [(Obj.hawkMigrateVoiceId, 77)] (V [{ v1 with pinned := true }] c0))
def state5 : State := stateOf (HK (fun h => { h with migIn := [{ voice := 0, frame := 1, source := 2 }] }) (V [{ v1 with incoming := true }] c0))
def state6 : State := stateOf (at_ 80 (HK (fun h => { h with migIn := [{ voice := 0, frame := 1, source := 2 }] }) (V [{ v1 with incoming := true }] c0)))
def state7 : State := stateOf (at_ 160 (HK (fun h => { h with migOut := [{ voice := 0, frame := 1, targetChip := 2, targetCore := 0, phase := .committed }] }) (V [{ v1 with shadow := true }] c0)))
def state8 : State := stateOf (at_ 32 (HK (fun h => { h with asks := [{ voice := 0, frame := 1, chip := some 2, core := none, attempts := 1, cause := 3 }] }) (V [v1] c0)))
end P23a
namespace P23b
def N (l : List (Nat × Nat)) (c : Chip) : Chip := withNums c l
def HK (f : Hawk → Hawk) (c : Chip) : Chip := { c with hawk := f c.hawk }
def T0 (c : Chip) : Chip := { c with setup := { c.setup with templates := [(0, { versions := [{ ver := 0, image := zeros 1024, hash := 99 }], current := some 0 })] } }
def V (l : List Voice) (c : Chip) : Chip := T0 (HK (fun h => { h with voices := l.zipIdx.map (fun x => (x.2, some x.1)), nextVoice := l.length }) c)
def O : Owned := { chip := 2, lead := 0, tenant := 0, key := [], origin := ⟨255, 0, 0, 9⟩, noteOn := 0, note := ⟨0, 60, 1, 0, 0⟩, handle := 3, template := 0, version := 0, zone := 0, group := 0, weight := 1 }
def J (f : Journal → Journal) (c : Chip) : Chip := modJournal f c
def state1 : State := stateOf (J (fun j => { j with mirrorOf0 := some 2 }) c0)
def state2 : State := stateOf (N [(Obj.chainMirrorHolder, 2)] c0)
def state3 : State := stateOf (N [(Obj.chainMirrorHolder, 2)] (J (fun j => { j with remirroring := true, unacked := [(5, 0, [1])] }) c0))
def state5 : State := stateOf (at_ 1000 (J (fun j => { j with unacked := [(5, 0, [1])] }) c0))
def state6 : State := stateOf (J (fun j => { j with remirroring := true }) c0)
def state7 : State := stateOf (J (fun j => { j with received := [(2, 0, 0, 0, 0)] }) c0)
def state10 : State := stateOf (HK (fun h => { h with owned := [(77, some O)] }) (V [] c0))
def state11 : State := stateOf (HK (fun h => { h with owned := [(77, some { O with chip := 9 })] }) (V [] c0))
def state15 : State := stateOf (N [(Obj.identityChipNumber, 3)] c0)
end P23b
namespace P32k
def N (l : List (Nat × Nat)) (c : Chip) : Chip := withNums c l
def bt (f : Boot → Boot) (c : Chip) : Chip := { c with boot := f c.boot }
def state20 : State := stateOf (bt (fun b => { b with img := some ⟨0, 10, [], 0⟩ }) c0)
def state21 : State := stateOf (at_ 1000000000 (bt (fun b => { b with img := some ⟨0, 10, [], 0⟩ }) c0))
def state22 : State := stateOf (N [(Obj.bootState, 2)] c0)
def state23 : State := stateOf (N [(Obj.bootSlot, 1)] c0)
end P32k
namespace P36b
def N (l : List (Nat × Nat)) (c : Chip) : Chip := withNums c l
def B (o : Nat) (v : List Byte) (c : Chip) : Chip := setBlob o v c
def bind1 : List Byte := [1, 0xFF, 0xFF, 0x10, 1, 0, 0, 0, 3, 0xFF, 0xFF, 0x10, 1, 0, 0, 0]
def S1 (data : List Byte) (tot obj : Nat) : Session := { path := .can 0 7 false, master := some 0x10, txn := 1, object := obj, total := tot, data := data, lastOffset := 0, lastLength := 0, at_ := 0, expiry := 96000, ended := .isOpen }
def cb (c : Chip) : Chip := B Obj.ndpBind bind1 c
def sess (l : List Session) (c : Chip) : Chip := modWork (fun w => { w with sessions := l }) c
def q (i : Nat) (f : Queue → Queue) (c : Chip) : Chip := modQueue i f c
def noFn (c : Chip) : Chip := modWork (fun w => { w with port0Root := true }) c
def xlReq (op : Nat) : List Byte := [BitVec.ofNat 8 op, 0, 1, 0] ++ zeros 8 ++ [0, 0, 0xFF, 0]
def canrx0 : CanRx := ⟨0, 0, false, false, false, 0, 0, 0, []⟩
def canrx1 : CanRx := ⟨0, 0, false, false, false, BitVec.ofNat 8 (c0.num (Obj.canSdt 0)), BitVec.ofNat 8 (c0.num (Obj.canVcid 0)), 0xFF074E01, xlReq 7⟩
def octets1 : List Byte := zeros 32
def state1 : State := stateOf (cb (sess (List.replicate 16 (S1 [] 4 0)) c0))
def state2 : State := stateOf (N [(Obj.canState 0, 1), (Obj.canRedundancy, 1)] (cb { c0 with can := { c0.can with seen := [(7, 1, 7, 0, 0, 0)] } }))
def state3 : State := stateOf (cb (sess [S1 (List.replicate 8 5) 8 Obj.plumbTempoApplyTick] c0))
def state4 : State := stateOf (q 0 (fun x => { x with state := .running, cfg := 6, tail := 63 }) (noFn c0))
end P36b

/-! ### What the statements ask for -/

/-- What ParallelMoves asks for is met. -/
theorem test_meets_ParallelMoves :
    (let f : MacFields :=
         { ad := 0x1#2, xa := 0x6#4, xb := 0x7#4, pm := 0x0#2, pp := 0x2#3, xd := 0xa#4, u := false, reserved := 0x0#7 }
     f.pm = 0) ∧
    (let f : MacFields :=
         { ad := 0x2#2, xa := 0xf#4, xb := 0x0#4, pm := 0x1#2, pp := 0x2#3, xd := 0x2#4, u := true, reserved := 0x0#7 }
     f.pm = 1) ∧
    (let f : MacFields :=
         { ad := 0x3#2, xa := 0x8#4, xb := 0x9#4, pm := 0x2#2, pp := 0x3#3, xd := 0xc#4, u := false, reserved := 0x0#7 }
     f.pm = 2) ∧
    (let f : MacFields :=
         { ad := 0x0#2, xa := 0x5#4, xb := 0x6#4, pm := 0x3#2, pp := 0x0#3, xd := 0x2#4, u := false, reserved := 0x0#7 }
     let v := P10.views4
     f.pm = 3 ∧ (v.ma.st.getLsbD 8 = false ∨ -2 ^ 31 ≤ (tget 0 v.ma.a f.xd.toNat).toInt ∧ (tget 0 v.ma.a
         f.xd.toNat).toInt < 2 ^ 31)) ∧
    (let f : MacFields :=
         { ad := 0x0#2, xa := 0x5#4, xb := 0x6#4, pm := 0x3#2, pp := 0x0#3, xd := 0x2#4, u := false, reserved := 0x0#7 }
     let v := P10.views0
     f.pm = 3 ∧ v.ma.st.getLsbD 8 = true ∧ 2 ^ 31 ≤ (tget 0 v.ma.a f.xd.toNat).toInt) ∧
    (let f : MacFields :=
         { ad := 0x0#2, xa := 0x5#4, xb := 0x6#4, pm := 0x3#2, pp := 0x0#3, xd := 0x2#4, u := false, reserved := 0x0#7 }
     let v := P10.views3
     f.pm = 3 ∧ v.ma.st.getLsbD 8 = true ∧ (tget 0 v.ma.a f.xd.toNat).toInt < -2 ^ 31) := by
  refine ⟨?_, ?_, ?_, ?_, ?_, ?_⟩
  all_goals decide +kernel

/-- What MacFamilyResults asks for is met. -/
theorem test_meets_MacFamilyResults :
    (let t : Thr := { core := 0, thread := 0 }
     let f : MacFields :=
         { ad := 0x3#2, xa := 0x8#4, xb := 0x9#4, pm := 0x2#2, pp := 0x3#3, xd := 0xc#4, u := false, reserved := 0x0#7 }
     let s := State.reset
     (f.reserved = 0 ∧ (f.pm = 0 → f.u = false) ∧ (f.pm = 2 → f.xd % 2 = 0) ∧ (f.pm = 3 → f.xd.toNat < 4) ∧
         (parallelMove f (s.chip.views (thrKey t)) s.chip).fault = none) ∧ ∀ ws, CanIssue s t ws .seq (parallelMove f
         (s.chip.views (thrKey t)) s.chip).chip) :=
  by exact ⟨by decide +kernel, canIssue_plain (by decide +kernel)⟩

/-- What AccumulatorArithmetic asks for is met. -/
theorem test_meets_AccumulatorArithmetic :
    (let t : Thr := { core := 0, thread := 0 }
     let f : AccFields := { ad := 0x3#2, as_ := 0x0#2, xs := 0x9#4, cond := 0x0#4, sh := 0x0#6, reserved := 0x0#6 }
     let s := State.reset
     (f.reserved = 0 ∧ f.cond = 0 ∧ f.sh = 0) ∧ ∀ ws, CanIssue s t ws .seq s.chip) ∧
    (let t : Thr := { core := 0, thread := 0 }
     let f : AccFields := { ad := 0x3#2, as_ := 0x0#2, xs := 0x9#4, cond := 0x0#4, sh := 0x0#6, reserved := 0x0#6 }
     let s := P10.state7
     (f.reserved = 0 ∧ f.cond = 0 ∧ f.sh = 0 ∧ ((s.chip.views (thrKey t)).a (s.chip.views (thrKey t)).ac
         f.as_.toNat).toInt < 0) ∧ ∀ ws, CanIssue s t ws .seq s.chip) ∧
    (let t : Thr := { core := 0, thread := 0 }
     let f : AccFields := { ad := 0x3#2, as_ := 0x0#2, xs := 0x9#4, cond := 0x0#4, sh := 0x0#6, reserved := 0x0#6 }
     let s := State.reset
     (f.reserved = 0 ∧ f.cond = 0 ∧ f.sh = 0 ∧ 0 ≤ ((s.chip.views (thrKey t)).a (s.chip.views (thrKey t)).ac
         f.as_.toNat).toInt) ∧ ∀ ws, CanIssue s t ws .seq s.chip) ∧
    (let t : Thr := { core := 0, thread := 0 }
     let f : AccFields := { ad := 0x3#2, as_ := 0x0#2, xs := 0x9#4, cond := 0x0#4, sh := 0x0#6, reserved := 0x0#6 }
     let s := State.reset
     (f.reserved = 0 ∧ f.cond = 0 ∧ f.sh = 0 ∧ ((s.chip.views (thrKey t)).a (s.chip.views (thrKey t)).ac
         f.as_.toNat).toInt ≤ ((s.chip.views (thrKey t)).a (s.chip.views (thrKey t)).ac f.ad.toNat).toInt) ∧ ∀ ws,
         CanIssue s t ws .seq s.chip) ∧
    (let t : Thr := { core := 0, thread := 0 }
     let f : AccFields := { ad := 0x3#2, as_ := 0x0#2, xs := 0x9#4, cond := 0x0#4, sh := 0x0#6, reserved := 0x0#6 }
     let s := State.reset
     (f.reserved = 0 ∧ f.cond = 0 ∧ f.sh = 0 ∧ ((s.chip.views (thrKey t)).a (s.chip.views (thrKey t)).ac
         f.ad.toNat).toInt ≤ ((s.chip.views (thrKey t)).a (s.chip.views (thrKey t)).ac f.as_.toNat).toInt) ∧ ∀ ws,
         CanIssue s t ws .seq s.chip) := by
  refine ⟨?_, ?_, ?_, ?_, ?_⟩
  · exact ⟨by decide +kernel, canIssue_plain (by decide +kernel)⟩
  · exact ⟨by decide +kernel, canIssue_plain (by decide +kernel)⟩
  · exact ⟨by decide +kernel, canIssue_plain (by decide +kernel)⟩
  · exact ⟨by decide +kernel, canIssue_plain (by decide +kernel)⟩
  · exact ⟨by decide +kernel, canIssue_plain (by decide +kernel)⟩

/-- What AccumulatorShiftsAndMoves asks for is met. -/
theorem test_meets_AccumulatorShiftsAndMoves :
    (let t : Thr := { core := 0, thread := 0 }
     let f : AccFields := { ad := 0x3#2, as_ := 0x0#2, xs := 0x9#4, cond := 0x0#4, sh := 0x0#6, reserved := 0x0#6 }
     let s := State.reset
     (f.reserved = 0 ∧ f.cond = 0) ∧ ∀ ws, CanIssue s t ws .seq s.chip) ∧
    (let t : Thr := { core := 0, thread := 0 }
     let f : AccFields := { ad := 0x3#2, as_ := 0x0#2, xs := 0x9#4, cond := 0x0#4, sh := 0x0#6, reserved := 0x0#6 }
     let s := State.reset
     (f.reserved = 0 ∧ f.cond = 0 ∧ f.sh = 0) ∧ ∀ ws, CanIssue s t ws .seq s.chip) ∧
    (let t : Thr := { core := 0, thread := 0 }
     let f : AccFields := { ad := 0x3#2, as_ := 0x0#2, xs := 0x9#4, cond := 0x0#4, sh := 0x0#6, reserved := 0x0#6 }
     let s := State.reset
     (f.reserved = 0 ∧ f.cond = 0 ∧ 0 ≤ f.sh.toInt) ∧ ∀ ws, CanIssue s t ws .seq s.chip) ∧
    (let t : Thr := { core := 0, thread := 0 }
     let f : AccFields := { ad := 0x3#2, as_ := 0x0#2, xs := 0x9#4, cond := 0x0#4, sh := 0x0#6, reserved := 0x0#6 }
     let s := State.reset; let e1 := (s.chip.views (thrKey t)).a (s.chip.views (thrKey t)).ac f.as_.toNat
     (f.reserved = 0 ∧ f.cond = 0 ∧ f.sh = 0 ∧ -2 ^ 31 ≤ e1.toInt ∧ e1.toInt < 2 ^ 31) ∧ ∀ ws, CanIssue s t ws .seq
         s.chip) ∧
    (let t : Thr := { core := 0, thread := 0 }
     let f : AccFields := { ad := 0x3#2, as_ := 0x0#2, xs := 0x9#4, cond := 0x0#4, sh := 0x0#6, reserved := 0x0#6 }
     let s := P10.state1
     (f.reserved = 0 ∧ f.cond = 0 ∧ f.sh = 0 ∧ 2 ^ 31 ≤ ((s.chip.views (thrKey t)).a (s.chip.views (thrKey t)).ac
         f.as_.toNat).toInt) ∧ ∀ ws, CanIssue s t ws .seq s.chip) ∧
    (let t : Thr := { core := 0, thread := 0 }
     let f : AccFields := { ad := 0x3#2, as_ := 0x0#2, xs := 0x9#4, cond := 0x0#4, sh := 0x0#6, reserved := 0x0#6 }
     let s := P10.state7
     (f.reserved = 0 ∧ f.cond = 0 ∧ f.sh = 0 ∧ ((s.chip.views (thrKey t)).a (s.chip.views (thrKey t)).ac
         f.as_.toNat).toInt < -2 ^ 31) ∧ ∀ ws, CanIssue s t ws .seq s.chip) ∧
    (let t : Thr := { core := 0, thread := 0 }
     let f : AccFields := { ad := 0x2#2, as_ := 0x3#2, xs := 0x8#4, cond := 0x0#4, sh := 0x0#6, reserved := 0x0#6 }
     let s := State.reset
     (f.reserved = 0 ∧ f.cond = 0 ∧ f.sh = 0 ∧ f.xs % 2 = 0) ∧ ∀ ws, CanIssue s t ws .seq s.chip) ∧
    (let t : Thr := { core := 0, thread := 0 }
     let f : AccFields := { ad := 0x3#2, as_ := 0x0#2, xs := 0x9#4, cond := 0x0#4, sh := 0x0#6, reserved := 0x0#6 }
     let s := State.reset
     (f.reserved = 0 ∧ f.sh = 0 ∧ condHolds f.cond.toNat (s.chip.views (thrKey t)).ac.st = some true) ∧ ∀ ws, CanIssue
         s t ws .seq s.chip) ∧
    (let t : Thr := { core := 0, thread := 0 }
     let f : AccFields := { ad := 0x2#2, as_ := 0x3#2, xs := 0x8#4, cond := 0xa#4, sh := 0x0#6, reserved := 0x0#6 }
     let s := P10.state1
     (f.reserved = 0 ∧ f.sh = 0 ∧ condHolds f.cond.toNat (s.chip.views (thrKey t)).ac.st = some false) ∧ ∀ ws,
         CanIssue s t ws .seq s.chip) := by
  refine ⟨?_, ?_, ?_, ?_, ?_, ?_, ?_, ?_, ?_⟩
  · exact ⟨by decide +kernel, canIssue_plain (by decide +kernel)⟩
  · exact ⟨by decide +kernel, canIssue_plain (by decide +kernel)⟩
  · exact ⟨by decide +kernel, canIssue_plain (by decide +kernel)⟩
  · exact ⟨by decide +kernel, canIssue_plain (by decide +kernel)⟩
  · exact ⟨by decide +kernel, canIssue_plain (by decide +kernel)⟩
  · exact ⟨by decide +kernel, canIssue_plain (by decide +kernel)⟩
  · exact ⟨by decide +kernel, canIssue_plain (by decide +kernel)⟩
  · exact ⟨by decide +kernel, canIssue_plain (by decide +kernel)⟩
  · exact ⟨by decide +kernel, canIssue_plain (by decide +kernel)⟩

/-- What AccumulatorToX asks for is met. -/
theorem test_meets_AccumulatorToX :
    (let t : Thr := { core := 0, thread := 0 }
     let f : AccFields := { ad := 0x3#2, as_ := 0x0#2, xs := 0x9#4, cond := 0x0#4, sh := 0x0#6, reserved := 0x0#6 }
     let s := State.reset
     (f.reserved = 0 ∧ f.cond = 0 ∧ f.sh = 0) ∧ ∀ ws, CanIssue s t ws .seq s.chip) ∧
    (let t : Thr := { core := 0, thread := 0 }
     let f : AccFields := { ad := 0x3#2, as_ := 0x0#2, xs := 0x9#4, cond := 0x0#4, sh := 0x0#6, reserved := 0x0#6 }
     let s := P10.state31
     (f.reserved = 0 ∧ f.cond = 0 ∧ f.sh = 0 ∧ (s.chip.views (thrKey t)).ma.st.getLsbD 8 = false) ∧ ∀ ws, CanIssue s t
         ws .seq s.chip) ∧
    (let t : Thr := { core := 0, thread := 0 }
     let f : AccFields := { ad := 0x2#2, as_ := 0x3#2, xs := 0x8#4, cond := 0x0#4, sh := 0x0#6, reserved := 0x0#6 }
     let s := P10.state31
     (f.reserved = 0 ∧ f.cond = 0 ∧ f.sh = 0 ∧ (s.chip.views (thrKey t)).ma.st.getLsbD 8 = false ∧ f.xs % 2 = 0) ∧ ∀
         ws, CanIssue s t ws .seq s.chip) ∧
    (let t : Thr := { core := 0, thread := 0 }
     let f : AccFields := { ad := 0x3#2, as_ := 0x0#2, xs := 0x9#4, cond := 0x0#4, sh := 0x0#6, reserved := 0x0#6 }
     let s := State.reset; let e1 := (s.chip.views (thrKey t)).a (s.chip.views (thrKey t)).ma f.as_.toNat
     (f.reserved = 0 ∧ f.cond = 0 ∧ f.sh = 0 ∧ (s.chip.views (thrKey t)).ma.st.getLsbD 8 = true ∧ -2 ^ 31 ≤ e1.toInt ∧
         e1.toInt < 2 ^ 31) ∧ ∀ ws, CanIssue s t ws .seq s.chip) ∧
    (let t : Thr := { core := 0, thread := 0 }
     let f : AccFields := { ad := 0x2#2, as_ := 0x3#2, xs := 0x8#4, cond := 0x0#4, sh := 0x0#6, reserved := 0x0#6 }
     let s := State.reset; let e1 := (s.chip.views (thrKey t)).a (s.chip.views (thrKey t)).ma f.as_.toNat
     (f.reserved = 0 ∧ f.cond = 0 ∧ f.sh = 0 ∧ (s.chip.views (thrKey t)).ma.st.getLsbD 8 = true ∧ -2 ^ 31 ≤ e1.toInt ∧
         e1.toInt < 2 ^ 31 ∧ f.xs % 2 = 0) ∧ ∀ ws, CanIssue s t ws .seq s.chip) ∧
    (let t : Thr := { core := 0, thread := 0 }
     let f : AccFields := { ad := 0x3#2, as_ := 0x0#2, xs := 0x9#4, cond := 0x0#4, sh := 0x0#6, reserved := 0x0#6 }
     let s := P10.state1
     (f.reserved = 0 ∧ f.cond = 0 ∧ f.sh = 0 ∧ (s.chip.views (thrKey t)).ma.st.getLsbD 8 = true ∧ 2 ^ 31 ≤
         ((s.chip.views (thrKey t)).a (s.chip.views (thrKey t)).ma f.as_.toNat).toInt) ∧ ∀ ws, CanIssue s t ws .seq
         s.chip) ∧
    (let t : Thr := { core := 0, thread := 0 }
     let f : AccFields := { ad := 0x2#2, as_ := 0x3#2, xs := 0x8#4, cond := 0x0#4, sh := 0x0#6, reserved := 0x0#6 }
     let s := P10.state7
     (f.reserved = 0 ∧ f.cond = 0 ∧ f.sh = 0 ∧ (s.chip.views (thrKey t)).ma.st.getLsbD 8 = true ∧ 2 ^ 31 ≤
         ((s.chip.views (thrKey t)).a (s.chip.views (thrKey t)).ma f.as_.toNat).toInt ∧ f.xs % 2 = 0) ∧ ∀ ws, CanIssue
         s t ws .seq s.chip) ∧
    (let t : Thr := { core := 0, thread := 0 }
     let f : AccFields := { ad := 0x3#2, as_ := 0x0#2, xs := 0x9#4, cond := 0x0#4, sh := 0x0#6, reserved := 0x0#6 }
     let s := P10.state7
     (f.reserved = 0 ∧ f.cond = 0 ∧ f.sh = 0 ∧ (s.chip.views (thrKey t)).ma.st.getLsbD 8 = true ∧ ((s.chip.views
         (thrKey t)).a (s.chip.views (thrKey t)).ma f.as_.toNat).toInt < -2 ^ 31) ∧ ∀ ws, CanIssue s t ws .seq s.chip) ∧
    (let t : Thr := { core := 0, thread := 0 }
     let f : AccFields := { ad := 0x2#2, as_ := 0x3#2, xs := 0x8#4, cond := 0x0#4, sh := 0x0#6, reserved := 0x0#6 }
     let s := P10.state1
     (f.reserved = 0 ∧ f.cond = 0 ∧ f.sh = 0 ∧ (s.chip.views (thrKey t)).ma.st.getLsbD 8 = true ∧ ((s.chip.views
         (thrKey t)).a (s.chip.views (thrKey t)).ma f.as_.toNat).toInt < -2 ^ 31 ∧ f.xs % 2 = 0) ∧ ∀ ws, CanIssue s t
         ws .seq s.chip) ∧
    (let t : Thr := { core := 0, thread := 0 }
     let f : AccFields := { ad := 0x3#2, as_ := 0x0#2, xs := 0x9#4, cond := 0x0#4, sh := 0x1#6, reserved := 0x0#6 }
     let s := State.reset
     (f.reserved = 0 ∧ f.cond = 0 ∧ f.sh = 1) ∧ ∀ ws, CanIssue s t ws .seq s.chip) ∧
    (let t : Thr := { core := 0, thread := 0 }
     let f : AccFields := { ad := 0x1#2, as_ := 0x2#2, xs := 0x7#4, cond := 0x0#4, sh := 0x2#6, reserved := 0x0#6 }
     let s := State.reset
     (f.reserved = 0 ∧ f.cond = 0 ∧ f.sh = 2) ∧ ∀ ws, CanIssue s t ws .seq s.chip) := by
  refine ⟨?_, ?_, ?_, ?_, ?_, ?_, ?_, ?_, ?_, ?_, ?_⟩
  · exact ⟨by decide +kernel, canIssue_plain (by decide +kernel)⟩
  · exact ⟨by decide +kernel, canIssue_plain (by decide +kernel)⟩
  · exact ⟨by decide +kernel, canIssue_plain (by decide +kernel)⟩
  · exact ⟨by decide +kernel, canIssue_plain (by decide +kernel)⟩
  · exact ⟨by decide +kernel, canIssue_plain (by decide +kernel)⟩
  · exact ⟨by decide +kernel, canIssue_plain (by decide +kernel)⟩
  · exact ⟨by decide +kernel, canIssue_plain (by decide +kernel)⟩
  · exact ⟨by decide +kernel, canIssue_plain (by decide +kernel)⟩
  · exact ⟨by decide +kernel, canIssue_plain (by decide +kernel)⟩
  · exact ⟨by decide +kernel, canIssue_plain (by decide +kernel)⟩
  · exact ⟨by decide +kernel, canIssue_plain (by decide +kernel)⟩

/-- What ExponentsAndNarrowing asks for is met. -/
theorem test_meets_ExponentsAndNarrowing :
    (let a : BitVec 40 := 0x1#40
     a ≠ 0) ∧
    (let a : BitVec 40 := 0x0#40
     outside a = false) := by
  refine ⟨?_, ?_⟩
  all_goals decide +kernel

/-- What XRegisterResults asks for is met. -/
theorem test_meets_XRegisterResults :
    (let t : Thr := { core := 0, thread := 0 }
     let f : AluFields := { xd := 0x0#4, xa := 0x8#4, xb := 0x0#4, shn := 0x0#4, reserved := 0x0#5 }
     let s := State.reset
     (f.reserved = 0 ∧ f.shn = 0) ∧ ∀ ws, CanIssue s t ws .seq s.chip) ∧
    (let t : Thr := { core := 0, thread := 0 }
     let f : AluFields := { xd := 0x0#4, xa := 0x8#4, xb := 0x0#4, shn := 0x0#4, reserved := 0x0#5 }
     let s := State.reset
     (f.reserved = 0 ∧ f.shn = 0 ∧ ((s.chip.views (thrKey t)).x (s.chip.views (thrKey t)).ma f.xb.toNat).toInt ≤
         ((s.chip.views (thrKey t)).x (s.chip.views (thrKey t)).ma f.xa.toNat).toInt) ∧ ∀ ws, CanIssue s t ws .seq
         s.chip) ∧
    (let t : Thr := { core := 0, thread := 0 }
     let f : AluFields := { xd := 0x0#4, xa := 0x8#4, xb := 0x0#4, shn := 0x0#4, reserved := 0x0#5 }
     let s := State.reset
     (f.reserved = 0 ∧ f.shn = 0 ∧ ((s.chip.views (thrKey t)).x (s.chip.views (thrKey t)).ma f.xa.toNat).toInt ≤
         ((s.chip.views (thrKey t)).x (s.chip.views (thrKey t)).ma f.xb.toNat).toInt) ∧ ∀ ws, CanIssue s t ws .seq
         s.chip) ∧
    (let t : Thr := { core := 0, thread := 0 }
     let f : AluFields := { xd := 0x0#4, xa := 0x8#4, xb := 0x0#4, shn := 0x0#4, reserved := 0x0#5 }
     let s := State.reset
     (f.reserved = 0 ∧ f.shn = 0 ∧ f.xd = 0) ∧ ∀ ws, CanIssue s t ws .seq s.chip) ∧
    (let t : Thr := { core := 0, thread := 0 }
     let f : AluFields := { xd := 0x0#4, xa := 0x8#4, xb := 0x0#4, shn := 0x0#4, reserved := 0x0#5 }
     let s := State.reset
     (f.reserved = 0 ∧ f.xb = 0 ∧ f.shn = 0) ∧ ∀ ws, CanIssue s t ws .seq s.chip) ∧
    (let t : Thr := { core := 0, thread := 0 }
     let f : AluFields := { xd := 0x0#4, xa := 0x8#4, xb := 0x0#4, shn := 0x0#4, reserved := 0x0#5 }
     let s := State.reset
     (f.reserved = 0 ∧ f.xb = 0) ∧ ∀ ws, CanIssue s t ws .seq s.chip) := by
  refine ⟨?_, ?_, ?_, ?_, ?_, ?_⟩
  · exact ⟨by decide +kernel, canIssue_plain (by decide +kernel)⟩
  · exact ⟨by decide +kernel, canIssue_plain (by decide +kernel)⟩
  · exact ⟨by decide +kernel, canIssue_plain (by decide +kernel)⟩
  · exact ⟨by decide +kernel, canIssue_plain (by decide +kernel)⟩
  · exact ⟨by decide +kernel, canIssue_plain (by decide +kernel)⟩
  · exact ⟨by decide +kernel, canIssue_plain (by decide +kernel)⟩

/-- What ImmediateResults asks for is met. -/
theorem test_meets_ImmediateResults :
    (let t : Thr := { core := 0, thread := 0 }
     let f : ImmFields := { reg := 0x0#4, reserved := 0x0#6, imm := 0xffff#16 }; let s := State.reset
     (f.reserved = 0) ∧ ∀ ws, CanIssue s t ws .seq s.chip) ∧
    (let t : Thr := { core := 0, thread := 0 }
     let f : ImmFields := { reg := 0x0#4, reserved := 0x0#6, imm := 0xffff#16 }; let s := State.reset
     (f.reserved = 0 ∧ f.reg.toNat < 8) ∧ ∀ ws, CanIssue s t ws .seq s.chip) ∧
    (let t : Thr := { core := 0, thread := 0 }
     let f : ImmFields := { reg := 0x0#4, reserved := 0x0#6, imm := 0xffff#16 }; let s := State.reset
     (f.reserved = 0 ∧ f.reg.toNat < 4) ∧ ∀ ws, CanIssue s t ws .seq s.chip) ∧
    (let t : Thr := { core := 0, thread := 0 }
     let f : ImmFields := { reg := 0x0#4, reserved := 0x0#6, imm := 0xffff#16 }; let s := State.reset
     (f.reserved = 0 ∧ f.reg.toNat = 0) ∧ ∀ ws, CanIssue s t ws .seq s.chip) := by
  refine ⟨?_, ?_, ?_, ?_⟩
  · exact ⟨by decide +kernel, canIssue_plain (by decide +kernel)⟩
  · exact ⟨by decide +kernel, canIssue_plain (by decide +kernel)⟩
  · exact ⟨by decide +kernel, canIssue_plain (by decide +kernel)⟩
  · exact ⟨by decide +kernel, canIssue_plain (by decide +kernel)⟩

/-- What LoadResults asks for is met. -/
theorem test_meets_LoadResults :
    (let t : Thr := { core := 0, thread := 0 }
     let f : MemFields := { ptr := 0x7#3, u := true, reg := 0x1#4, ns := false, disp := 0x1f20#13 }
     let s := P11.state1
     (f.ns = false ∧ accessFault s.chip (thrKey t) (BitVec.ofInt 24 (↑(tget 0 (s.chip.views (thrKey t)).ag.p
         f.ptr.toNat).toNat + f.disp.toInt)).toNat 2 false = none) ∧ ∀ ws, CanIssue s t ws .seq s.chip) ∧
    (let t : Thr := { core := 0, thread := 0 }
     let f : MemFields := { ptr := 0x6#3, u := false, reg := 0x0#4, ns := false, disp := 0x18#13 }
     let s := State.reset
     (f.ns = false ∧ accessFault s.chip (thrKey t) (BitVec.ofInt 24 (↑(tget 0 (s.chip.views (thrKey t)).ag.p
         f.ptr.toNat).toNat + f.disp.toInt)).toNat 4 false = none ∧ f.reg.toNat % 2 = 0) ∧ ∀ ws, CanIssue s t ws .seq
         s.chip) ∧
    (let t : Thr := { core := 0, thread := 0 }
     let f : MemFields := { ptr := 0x6#3, u := false, reg := 0x0#4, ns := false, disp := 0x18#13 }
     let s := State.reset
     (f.ns = false ∧ accessFault s.chip (thrKey t) (BitVec.ofInt 24 (↑(tget 0 (s.chip.views (thrKey t)).ag.p
         f.ptr.toNat).toNat + f.disp.toInt)).toNat 8 false = none ∧ f.reg.toNat % 4 = 0) ∧ ∀ ws, CanIssue s t ws .seq
         s.chip) ∧
    (let t : Thr := { core := 0, thread := 0 }
     let f : MemFields := { ptr := 0x7#3, u := true, reg := 0x1#4, ns := false, disp := 0x1f20#13 }
     let s := P11.state1
     (f.ns = false ∧ accessFault s.chip (thrKey t) (BitVec.ofInt 24 (↑(tget 0 (s.chip.views (thrKey t)).ag.p
         f.ptr.toNat).toNat + f.disp.toInt)).toNat 4 false = none ∧ f.reg.toNat < 4) ∧ ∀ ws, CanIssue s t ws .seq
         s.chip) ∧
    (let t : Thr := { core := 0, thread := 0 }
     let f : MemFields := { ptr := 0x7#3, u := true, reg := 0x1#4, ns := false, disp := 0x1f20#13 }
     let s := P11.state1
     (f.ns = false ∧ accessFault s.chip (thrKey t) (BitVec.ofInt 24 (↑(tget 0 (s.chip.views (thrKey t)).ag.p
         f.ptr.toNat).toNat + f.disp.toInt)).toNat 2 false = none ∧ f.reg.toNat < 4) ∧ ∀ ws, CanIssue s t ws .seq
         s.chip) ∧
    (let t : Thr := { core := 0, thread := 0 }
     let f : MemFields := { ptr := 0x7#3, u := true, reg := 0x1#4, ns := false, disp := 0x1f20#13 }
     let s := P11.state1
     (f.ns = false ∧ accessFault s.chip (thrKey t) (BitVec.ofInt 24 (↑(tget 0 (s.chip.views (thrKey t)).ag.p
         f.ptr.toNat).toNat + f.disp.toInt)).toNat 4 false = none ∧ f.reg.toNat < 8) ∧ ∀ ws, CanIssue s t ws .seq
         s.chip) := by
  refine ⟨?_, ?_, ?_, ?_, ?_, ?_⟩
  · exact ⟨by decide +kernel, canIssue_plain (by decide +kernel)⟩
  · exact ⟨by decide +kernel, canIssue_plain (by decide +kernel)⟩
  · exact ⟨by decide +kernel, canIssue_plain (by decide +kernel)⟩
  · exact ⟨by decide +kernel, canIssue_plain (by decide +kernel)⟩
  · exact ⟨by decide +kernel, canIssue_plain (by decide +kernel)⟩
  · exact ⟨by decide +kernel, canIssue_plain (by decide +kernel)⟩

/-- What StoreResults asks for is met. -/
theorem test_meets_StoreResults :
    (let t : Thr := { core := 0, thread := 0 }
     let f : MemFields := { ptr := 0x7#3, u := true, reg := 0x1#4, ns := false, disp := 0x1f20#13 }
     let s := P11.state1
     (f.ns = false ∧ accessFault s.chip (thrKey t) (BitVec.ofInt 24 (↑(tget 0 (s.chip.views (thrKey t)).ag.p
         f.ptr.toNat).toNat + f.disp.toInt)).toNat 2 true = none) ∧ ∀ ws, CanIssue s t ws .seq (storeData (thrKey t)
         (BitVec.ofInt 24 (↑(tget 0 (s.chip.views (thrKey t)).ag.p f.ptr.toNat).toNat + f.disp.toInt)).toNat 2
         ((s.chip.views (thrKey t)).x (s.chip.views (thrKey t)).ma f.reg.toNat).toNat s.chip)) ∧
    (let t : Thr := { core := 0, thread := 0 }
     let f : MemFields := { ptr := 0x6#3, u := false, reg := 0x0#4, ns := false, disp := 0x18#13 }
     let s := State.reset
     (f.ns = false ∧ accessFault s.chip (thrKey t) (BitVec.ofInt 24 (↑(tget 0 (s.chip.views (thrKey t)).ag.p
         f.ptr.toNat).toNat + f.disp.toInt)).toNat 4 true = none ∧ f.reg.toNat % 2 = 0) ∧ ∀ ws, CanIssue s t ws .seq
         (storeData (thrKey t) (BitVec.ofInt 24 (↑(tget 0 (s.chip.views (thrKey t)).ag.p f.ptr.toNat).toNat +
         f.disp.toInt)).toNat 4 (((s.chip.views (thrKey t)).x (s.chip.views (thrKey t)).ma f.reg.toNat).toNat * 65536
         + ((s.chip.views (thrKey t)).x (s.chip.views (thrKey t)).ma (f.reg.toNat + 1)).toNat) s.chip)) ∧
    (let t : Thr := { core := 0, thread := 0 }
     let f : MemFields := { ptr := 0x6#3, u := false, reg := 0x0#4, ns := false, disp := 0x18#13 }
     let s := State.reset
     (f.ns = false ∧ accessFault s.chip (thrKey t) (BitVec.ofInt 24 (↑(tget 0 (s.chip.views (thrKey t)).ag.p
         f.ptr.toNat).toNat + f.disp.toInt)).toNat 8 true = none ∧ f.reg.toNat % 4 = 0) ∧ ∀ ws, CanIssue s t ws .seq
         (storeData (thrKey t) (BitVec.ofInt 24 (↑(tget 0 (s.chip.views (thrKey t)).ag.p f.ptr.toNat).toNat +
         f.disp.toInt)).toNat 8 (((s.chip.views (thrKey t)).x (s.chip.views (thrKey t)).ma f.reg.toNat).toNat * 65536
         + ((s.chip.views (thrKey t)).x (s.chip.views (thrKey t)).ma (f.reg.toNat + 1)).toNat + 2 ^ 32 *
         (((s.chip.views (thrKey t)).x (s.chip.views (thrKey t)).ma (f.reg.toNat + 2)).toNat * 65536 + ((s.chip.views
         (thrKey t)).x (s.chip.views (thrKey t)).ma (f.reg.toNat + 2 + 1)).toNat)) s.chip)) ∧
    (let t : Thr := { core := 0, thread := 0 }
     let f : MemFields := { ptr := 0x7#3, u := true, reg := 0x1#4, ns := false, disp := 0x1f20#13 }
     let s := P11.state1
     (f.ns = false ∧ accessFault s.chip (thrKey t) (BitVec.ofInt 24 (↑(tget 0 (s.chip.views (thrKey t)).ag.p
         f.ptr.toNat).toNat + f.disp.toInt)).toNat 4 true = none ∧ f.reg.toNat < 8) ∧ ∀ ws, CanIssue s t ws .seq
         (storeData (thrKey t) (BitVec.ofInt 24 (↑(tget 0 (s.chip.views (thrKey t)).ag.p f.ptr.toNat).toNat +
         f.disp.toInt)).toNat 4 (tget 0 (s.chip.views (thrKey t)).ag.p f.reg.toNat).toNat s.chip)) ∧
    (let t : Thr := { core := 0, thread := 0 }
     let f : MemFields := { ptr := 0x5#3, u := true, reg := 0xf#4, ns := false, disp := 0x10#13 }
     let s := State.reset
     (f.ns = false ∧ accessFault s.chip (thrKey t) (BitVec.ofInt 24 (↑(tget 0 (s.chip.views (thrKey t)).ag.p
         f.ptr.toNat).toNat + f.disp.toInt)).toNat 4 true = none ∧ 8 ≤ f.reg.toNat) ∧ ∀ ws, CanIssue s t ws .seq
         (storeData (thrKey t) (BitVec.ofInt 24 (↑(tget 0 (s.chip.views (thrKey t)).ag.p f.ptr.toNat).toNat +
         f.disp.toInt)).toNat 4 (tget 0 (s.chip.views (thrKey t)).ag.m (f.reg.toNat - 8)).toNat s.chip)) ∧
    (let t : Thr := { core := 0, thread := 0 }
     let f : MemFields := { ptr := 0x7#3, u := true, reg := 0x1#4, ns := false, disp := 0x1f20#13 }
     let s := P11.state1
     (f.ns = false ∧ accessFault s.chip (thrKey t) (BitVec.ofInt 24 (↑(tget 0 (s.chip.views (thrKey t)).ag.p
         f.ptr.toNat).toNat + f.disp.toInt)).toNat 2 true = none ∧ f.reg.toNat < 4) ∧ ∀ ws, CanIssue s t ws .seq
         (storeData (thrKey t) (BitVec.ofInt 24 (↑(tget 0 (s.chip.views (thrKey t)).ag.p f.ptr.toNat).toNat +
         f.disp.toInt)).toNat 2 (BitVec.signExtend 16 (BitVec.extractLsb' 32 8 (tget 0 (s.chip.views (thrKey t)).ma.a
         f.reg.toNat))).toNat s.chip)) ∧
    (let t : Thr := { core := 0, thread := 0 }
     let f : MemFields := { ptr := 0x7#3, u := true, reg := 0x1#4, ns := false, disp := 0x1f20#13 }
     let s := P11.state1
     (f.reg.toNat < 4 ∧ (f.ns = true ∨ (s.chip.views (thrKey t)).ma.st.getLsbD 8 = false ∨ -2 ^ 31 ≤ (tget 0
         (s.chip.views (thrKey t)).ma.a f.reg.toNat).toInt ∧ (tget 0 (s.chip.views (thrKey t)).ma.a f.reg.toNat).toInt
         < 2 ^ 31) ∧ accessFault s.chip (thrKey t) (BitVec.ofInt 24 (↑(tget 0 (s.chip.views (thrKey t)).ag.p
         f.ptr.toNat).toNat + f.disp.toInt)).toNat 4 true = none) ∧ ∀ ws, CanIssue s t ws .seq (storeData (thrKey t)
         (BitVec.ofInt 24 (↑(tget 0 (s.chip.views (thrKey t)).ag.p f.ptr.toNat).toNat + f.disp.toInt)).toNat 4
         (BitVec.extractLsb' 0 32 (tget 0 (s.chip.views (thrKey t)).ma.a f.reg.toNat)).toNat s.chip)) ∧
    (let t : Thr := { core := 0, thread := 0 }
     let f : MemFields := { ptr := 0x7#3, u := true, reg := 0x1#4, ns := false, disp := 0x1f20#13 }
     let s := P11.state1
     (f.reg.toNat < 4 ∧ (f.ns = true ∨ (s.chip.views (thrKey t)).ma.st.getLsbD 8 = false ∨ -2 ^ 31 ≤ (tget 0
         (s.chip.views (thrKey t)).ma.a f.reg.toNat).toInt ∧ (tget 0 (s.chip.views (thrKey t)).ma.a f.reg.toNat).toInt
         < 2 ^ 31) ∧ accessFault s.chip (thrKey t) (BitVec.ofInt 24 (↑(tget 0 (s.chip.views (thrKey t)).ag.p
         f.ptr.toNat).toNat + f.disp.toInt)).toNat 2 true = none) ∧ ∀ ws, CanIssue s t ws .seq (storeData (thrKey t)
         (BitVec.ofInt 24 (↑(tget 0 (s.chip.views (thrKey t)).ag.p f.ptr.toNat).toNat + f.disp.toInt)).toNat 2
         (BitVec.extractLsb' 16 16 (tget 0 (s.chip.views (thrKey t)).ma.a f.reg.toNat)).toNat s.chip)) ∧
    (let t : Thr := { core := 0, thread := 0 }
     let f : MemFields := { ptr := 0x7#3, u := true, reg := 0x1#4, ns := false, disp := 0x1f20#13 }
     let s := P11.state1
     (f.reg.toNat < 4 ∧ (f.ns = true ∨ (s.chip.views (thrKey t)).ma.st.getLsbD 8 = false ∨ -2 ^ 31 ≤ (tget 0
         (s.chip.views (thrKey t)).ma.a f.reg.toNat).toInt ∧ (tget 0 (s.chip.views (thrKey t)).ma.a f.reg.toNat).toInt
         < 2 ^ 31) ∧ accessFault s.chip (thrKey t) (BitVec.ofInt 24 (↑(tget 0 (s.chip.views (thrKey t)).ag.p
         f.ptr.toNat).toNat + f.disp.toInt)).toNat 4 true = none) ∧ ∀ ws, CanIssue s t ws .seq (storeData (thrKey t)
         (BitVec.ofInt 24 (↑(tget 0 (s.chip.views (thrKey t)).ag.p f.ptr.toNat).toNat + f.disp.toInt)).toNat 4
         (BitVec.signExtend 32 (BitVec.extractLsb' 8 24 (tget 0 (s.chip.views (thrKey t)).ma.a f.reg.toNat))).toNat
         s.chip)) ∧
    (let t : Thr := { core := 0, thread := 0 }
     let f : MemFields := { ptr := 0x7#3, u := true, reg := 0x1#4, ns := false, disp := 0x1f20#13 }
     let s := P11.state8
     (f.reg.toNat < 4 ∧ (f.ns = false ∧ (s.chip.views (thrKey t)).ma.st.getLsbD 8 = true ∧ 2 ^ 31 ≤ (tget 0
         (s.chip.views (thrKey t)).ma.a f.reg.toNat).toInt) ∧ accessFault s.chip (thrKey t) (BitVec.ofInt 24 (↑(tget 0
         (s.chip.views (thrKey t)).ag.p f.ptr.toNat).toNat + f.disp.toInt)).toNat 4 true = none) ∧ ∀ ws, CanIssue s t
         ws .seq (storeData (thrKey t) (BitVec.ofInt 24 (↑(tget 0 (s.chip.views (thrKey t)).ag.p f.ptr.toNat).toNat +
         f.disp.toInt)).toNat 4 2147483647 s.chip)) ∧
    (let t : Thr := { core := 0, thread := 0 }
     let f : MemFields := { ptr := 0x7#3, u := true, reg := 0x1#4, ns := false, disp := 0x1f20#13 }
     let s := P11.state8
     (f.reg.toNat < 4 ∧ (f.ns = false ∧ (s.chip.views (thrKey t)).ma.st.getLsbD 8 = true ∧ 2 ^ 31 ≤ (tget 0
         (s.chip.views (thrKey t)).ma.a f.reg.toNat).toInt) ∧ accessFault s.chip (thrKey t) (BitVec.ofInt 24 (↑(tget 0
         (s.chip.views (thrKey t)).ag.p f.ptr.toNat).toNat + f.disp.toInt)).toNat 2 true = none) ∧ ∀ ws, CanIssue s t
         ws .seq (storeData (thrKey t) (BitVec.ofInt 24 (↑(tget 0 (s.chip.views (thrKey t)).ag.p f.ptr.toNat).toNat +
         f.disp.toInt)).toNat 2 32767 s.chip)) ∧
    (let t : Thr := { core := 0, thread := 0 }
     let f : MemFields := { ptr := 0x7#3, u := true, reg := 0x1#4, ns := false, disp := 0x1f20#13 }
     let s := P11.state8
     (f.reg.toNat < 4 ∧ (f.ns = false ∧ (s.chip.views (thrKey t)).ma.st.getLsbD 8 = true ∧ 2 ^ 31 ≤ (tget 0
         (s.chip.views (thrKey t)).ma.a f.reg.toNat).toInt) ∧ accessFault s.chip (thrKey t) (BitVec.ofInt 24 (↑(tget 0
         (s.chip.views (thrKey t)).ag.p f.ptr.toNat).toNat + f.disp.toInt)).toNat 4 true = none) ∧ ∀ ws, CanIssue s t
         ws .seq (storeData (thrKey t) (BitVec.ofInt 24 (↑(tget 0 (s.chip.views (thrKey t)).ag.p f.ptr.toNat).toNat +
         f.disp.toInt)).toNat 4 8388607 s.chip)) ∧
    (let t : Thr := { core := 0, thread := 0 }
     let f : MemFields := { ptr := 0x6#3, u := false, reg := 0x0#4, ns := false, disp := 0x18#13 }
     let s := P11.state7
     (f.reg.toNat < 4 ∧ (f.ns = false ∧ (s.chip.views (thrKey t)).ma.st.getLsbD 8 = true ∧ (tget 0 (s.chip.views
         (thrKey t)).ma.a f.reg.toNat).toInt < -2 ^ 31) ∧ accessFault s.chip (thrKey t) (BitVec.ofInt 24 (↑(tget 0
         (s.chip.views (thrKey t)).ag.p f.ptr.toNat).toNat + f.disp.toInt)).toNat 4 true = none) ∧ ∀ ws, CanIssue s t
         ws .seq (storeData (thrKey t) (BitVec.ofInt 24 (↑(tget 0 (s.chip.views (thrKey t)).ag.p f.ptr.toNat).toNat +
         f.disp.toInt)).toNat 4 2147483648 s.chip)) ∧
    (let t : Thr := { core := 0, thread := 0 }
     let f : MemFields := { ptr := 0x6#3, u := false, reg := 0x0#4, ns := false, disp := 0x18#13 }
     let s := P11.state7
     (f.reg.toNat < 4 ∧ (f.ns = false ∧ (s.chip.views (thrKey t)).ma.st.getLsbD 8 = true ∧ (tget 0 (s.chip.views
         (thrKey t)).ma.a f.reg.toNat).toInt < -2 ^ 31) ∧ accessFault s.chip (thrKey t) (BitVec.ofInt 24 (↑(tget 0
         (s.chip.views (thrKey t)).ag.p f.ptr.toNat).toNat + f.disp.toInt)).toNat 2 true = none) ∧ ∀ ws, CanIssue s t
         ws .seq (storeData (thrKey t) (BitVec.ofInt 24 (↑(tget 0 (s.chip.views (thrKey t)).ag.p f.ptr.toNat).toNat +
         f.disp.toInt)).toNat 2 32768 s.chip)) ∧
    (let t : Thr := { core := 0, thread := 0 }
     let f : MemFields := { ptr := 0x6#3, u := false, reg := 0x0#4, ns := false, disp := 0x18#13 }
     let s := P11.state7
     (f.reg.toNat < 4 ∧ (f.ns = false ∧ (s.chip.views (thrKey t)).ma.st.getLsbD 8 = true ∧ (tget 0 (s.chip.views
         (thrKey t)).ma.a f.reg.toNat).toInt < -2 ^ 31) ∧ accessFault s.chip (thrKey t) (BitVec.ofInt 24 (↑(tget 0
         (s.chip.views (thrKey t)).ag.p f.ptr.toNat).toNat + f.disp.toInt)).toNat 4 true = none) ∧ ∀ ws, CanIssue s t
         ws .seq (storeData (thrKey t) (BitVec.ofInt 24 (↑(tget 0 (s.chip.views (thrKey t)).ag.p f.ptr.toNat).toNat +
         f.disp.toInt)).toNat 4 4286578688 s.chip)) := by
  refine ⟨?_, ?_, ?_, ?_, ?_, ?_, ?_, ?_, ?_, ?_, ?_, ?_, ?_, ?_, ?_⟩
  · exact ⟨by decide +kernel, canIssue_plain (by decide +kernel)⟩
  · exact ⟨by decide +kernel, canIssue_plain (by decide +kernel)⟩
  · exact ⟨by decide +kernel, canIssue_plain (by decide +kernel)⟩
  · exact ⟨by decide +kernel, canIssue_plain (by decide +kernel)⟩
  · exact ⟨by decide +kernel, canIssue_plain (by decide +kernel)⟩
  · exact ⟨by decide +kernel, canIssue_plain (by decide +kernel)⟩
  · exact ⟨by decide +kernel, canIssue_plain (by decide +kernel)⟩
  · exact ⟨by decide +kernel, canIssue_plain (by decide +kernel)⟩
  · exact ⟨by decide +kernel, canIssue_plain (by decide +kernel)⟩
  · exact ⟨by decide +kernel, canIssue_plain (by decide +kernel)⟩
  · exact ⟨by decide +kernel, canIssue_plain (by decide +kernel)⟩
  · exact ⟨by decide +kernel, canIssue_plain (by decide +kernel)⟩
  · exact ⟨by decide +kernel, canIssue_plain (by decide +kernel)⟩
  · exact ⟨by decide +kernel, canIssue_plain (by decide +kernel)⟩
  · exact ⟨by decide +kernel, canIssue_plain (by decide +kernel)⟩

/-- What ProgramFlowResults asks for is met. -/
theorem test_meets_ProgramFlowResults :
    (let t : Thr := { core := 0, thread := 0 }; let s := State.reset; let cond : BitVec 4 := 0x0#4
     let l : Bool := true; let ind : Bool := true; let xr : BitVec 4 := 0x0#4; let target : BitVec 16 := 0x0#16
     (s.chip.views (thrKey t)).th.confined = false ∧ condHolds cond.toNat (s.chip.views (thrKey t)).id.st = some true
         ∧ (ind = true → target = 0) ∧ (CanIssue s t (if l = true then [(sID, RegWrite.x (physX (s.chip.views (thrKey
         t)).id xr.toNat) ((s.chip.views (thrKey t)).th.pc + 3))] else []) (Flow.delayed (some (if ind = true then
         tget 0 (s.chip.views (thrKey t)).id.x (physX (s.chip.views (thrKey t)).id xr.toNat) else target))) s.chip)) ∧
    (let t : Thr := { core := 0, thread := 0 }; let s := State.reset; let cond : BitVec 4 := 0x3#4
     let ind : Bool := true; let target : BitVec 16 := 0x0#16
     (s.chip.views (thrKey t)).th.confined = false ∧ condHolds cond.toNat (s.chip.views (thrKey t)).id.st = some false
         ∧ (ind = true → target = 0) ∧ CanIssue s t [] (Flow.delayed none) s.chip) ∧
    (let t : Thr := { core := 0, thread := 0 }; let s := State.reset; let xd : BitVec 4 := 0x0#4
     let target : BitVec 16 := 0x0#16
     (s.chip.views (thrKey t)).th.confined = false ∧ tget 0 (s.chip.views (thrKey t)).id.x (physX (s.chip.views
         (thrKey t)).id xd.toNat) ≠ 1 ∧ CanIssue s t [(sID, RegWrite.x (physX (s.chip.views (thrKey t)).id xd.toNat)
         (tget 0 (s.chip.views (thrKey t)).id.x (physX (s.chip.views (thrKey t)).id xd.toNat) - 1))] (Flow.delayed
         (some target)) s.chip) ∧
    (let t : Thr := { core := 0, thread := 0 }; let s := P11.state9; let xd : BitVec 4 := 0x9#4
     (s.chip.views (thrKey t)).th.confined = false ∧ tget 0 (s.chip.views (thrKey t)).id.x (physX (s.chip.views
         (thrKey t)).id xd.toNat) = 1 ∧ CanIssue s t [(sID, RegWrite.x (physX (s.chip.views (thrKey t)).id xd.toNat)
         0)] (Flow.delayed none) s.chip) ∧
    (let t : Thr := { core := 0, thread := 0 }; let s := P11.state1; let ofs : BitVec 11 := 0x1#11
     (s.chip.views (thrKey t)).th.confined = false ∧ (s.chip.views (thrKey t)).th.loop = none ∧ ofs ≠ 0 ∧ 1 ≤
         (s.chip.views (thrKey t)).id.lc.toNat ∧ CanIssue s t [] (Flow.loop ((s.chip.views (thrKey t)).th.pc.toNat +
         1) ((s.chip.views (thrKey t)).th.pc.toNat + 1 + ofs.toNat)) s.chip) ∧
    (let t : Thr := { core := 0, thread := 0 }; let s := State.reset; let ofs : BitVec 11 := 0x1#11
     (s.chip.views (thrKey t)).th.confined = false ∧ (s.chip.views (thrKey t)).th.loop = none ∧ ofs ≠ 0 ∧
         (s.chip.views (thrKey t)).id.lc.toNat = 0 ∧ CanIssue s t [] (Flow.jump (BitVec.ofNat 16 ((s.chip.views
         (thrKey t)).th.pc.toNat + 2 + ofs.toNat)) 2) s.chip) ∧
    (let t : Thr := { core := 0, thread := 0 }; let s := State.reset; let count : BitVec 12 := 0x1#12
     let ofs : BitVec 11 := 0x1#11
     (s.chip.views (thrKey t)).th.confined = false ∧ (s.chip.views (thrKey t)).th.loop = none ∧ ofs ≠ 0 ∧ 1 ≤
         count.toNat ∧ CanIssue s t [(sID, RegWrite.lc (BitVec.ofNat 16 count.toNat))] (Flow.loop ((s.chip.views
         (thrKey t)).th.pc.toNat + 1) ((s.chip.views (thrKey t)).th.pc.toNat + 1 + ofs.toNat)) s.chip) ∧
    (let t : Thr := { core := 0, thread := 0 }; let s := State.reset; let ofs : BitVec 11 := 0x1#11
     (s.chip.views (thrKey t)).th.confined = false ∧ (s.chip.views (thrKey t)).th.loop = none ∧ ofs ≠ 0 ∧ CanIssue s t
         [(sID, RegWrite.lc 0)] (Flow.jump (BitVec.ofNat 16 ((s.chip.views (thrKey t)).th.pc.toNat + 2 + ofs.toNat))
         2) s.chip) ∧
    (let t : Thr := { core := 0, thread := 0 }; let s := P11.state15; let count : BitVec 9 := 0x1#9
     (s.chip.views (thrKey t)).th.confined = false ∧ count.toNat ≤ 256 ∧ 1 ≤ count.toNat ∧ repeatable
         (s.chip.programWord (↑t.core) ((s.chip.views (thrKey t)).th.pc.toNat + 1)) = true ∧ CanIssue s t []
         (Flow.repeat_ count.toNat) s.chip) ∧
    (let t : Thr := { core := 0, thread := 0 }; let s := P11.state2; let xs : BitVec 4 := 0x0#4
     let e1 := tget 0 (s.chip.views (thrKey t)).id.x (physX (s.chip.views (thrKey t)).id xs.toNat)
     (s.chip.views (thrKey t)).th.confined = false ∧ e1.toNat ≤ 256 ∧ 1 ≤ e1.toNat ∧ repeatable (s.chip.programWord
         (↑t.core) ((s.chip.views (thrKey t)).th.pc.toNat + 1)) = true ∧ CanIssue s t [] (Flow.repeat_ e1.toNat)
         s.chip) ∧
    (let t : Thr := { core := 0, thread := 0 }; let s := P11.state15; let xs : BitVec 4 := 0x1#4
     (s.chip.views (thrKey t)).th.confined = false ∧ repeatable (s.chip.programWord (↑t.core) ((s.chip.views (thrKey
         t)).th.pc.toNat + 1)) = true ∧ tget 0 (s.chip.views (thrKey t)).id.x (physX (s.chip.views (thrKey t)).id
         xs.toNat) = 0 ∧ CanIssue s t [] (Flow.jump ((s.chip.views (thrKey t)).th.pc + 2) 1) s.chip) ∧
    (let t : Thr := { core := 0, thread := 0 }; let s := State.reset
     ∀ ws, CanIssue s t ws .seq s.chip) ∧
    (let t : Thr := { core := 0, thread := 0 }; let s := State.reset
     (s.chip.views (thrKey t)).th.confined = false ∧ CanIssue s t [] (Flow.jump ((s.chip.views (thrKey t)).th.pc + 1)
         3) s.chip) ∧
    (let t : Thr := { core := 0, thread := 0 }; let s := State.reset; let k : BitVec 20 := 0x0#20
     (k.toNat < 8) ∧ ∀ ws, CanIssue s t ws .seq s.chip) ∧
    (let t : Thr := { core := 0, thread := 0 }; let s := State.reset; let mask : BitVec 20 := 0x0#20
     (mask &&& ~~~262975#20 = 0) ∧ ∀ ws, CanIssue s t ws .seq s.chip) := by
  refine ⟨?_, ?_, ?_, ?_, ?_, ?_, ?_, ?_, ?_, ?_, ?_, ?_, ?_, ?_, ?_⟩
  · decide +kernel
  · decide +kernel
  · decide +kernel
  · decide +kernel
  · decide +kernel
  · decide +kernel
  · decide +kernel
  · decide +kernel
  · decide +kernel
  · decide +kernel
  · decide +kernel
  · exact canIssue_plain (by decide +kernel)
  · decide +kernel
  · exact ⟨by decide +kernel, canIssue_plain (by decide +kernel)⟩
  · exact ⟨by decide +kernel, canIssue_plain (by decide +kernel)⟩

/-- What SpecialRegisterMoves asks for is met. -/
theorem test_meets_SpecialRegisterMoves :
    (let t : Thr := { core := 0, thread := 0 }; let sreg : BitVec 5 := 0x0#5; let xr : BitVec 4 := 0x0#4
     let s := State.reset
     (sreg.toNat < 8 ∧ xr % 2 = 0) ∧ ∀ ws, CanIssue s t ws .seq s.chip) ∧
    (let t : Thr := { core := 0, thread := 0 }; let sreg : BitVec 5 := 0x8#5; let xr : BitVec 4 := 0x0#4
     let s := State.reset
     (8 ≤ sreg.toNat ∧ sreg.toNat < 16 ∧ xr % 2 = 0) ∧ ∀ ws, CanIssue s t ws .seq s.chip) ∧
    (let t : Thr := { core := 0, thread := 0 }; let sreg : BitVec 5 := 0x10#5; let s := State.reset
     (sreg.toNat = 16) ∧ ∀ ws, CanIssue s t ws .seq s.chip) ∧
    (let t : Thr := { core := 0, thread := 0 }; let sreg : BitVec 5 := 0x11#5; let s := State.reset
     (sreg.toNat = 17) ∧ ∀ ws, CanIssue s t ws .seq s.chip) ∧
    (let t : Thr := { core := 0, thread := 0 }; let sreg : BitVec 5 := 0x12#5; let xr : BitVec 4 := 0x0#4
     let s := State.reset
     (sreg.toNat = 18 ∧ xr % 2 = 0) ∧ ∀ ws, CanIssue s t ws .seq s.chip) := by
  refine ⟨?_, ?_, ?_, ?_, ?_⟩
  · exact ⟨by decide +kernel, canIssue_plain (by decide +kernel)⟩
  · exact ⟨by decide +kernel, canIssue_plain (by decide +kernel)⟩
  · exact ⟨by decide +kernel, canIssue_plain (by decide +kernel)⟩
  · exact ⟨by decide +kernel, canIssue_plain (by decide +kernel)⟩
  · exact ⟨by decide +kernel, canIssue_plain (by decide +kernel)⟩

/-- What StoreFrame asks for is met. -/
theorem test_meets_StoreFrame :
    (let k : Nat := 0; let addr : Nat := 0; let n : Nat := 0; let c := c0; let p : Nat := 0
     c.accessOk k addr n true = true ∧ placeOf (k / 4) addr = Place.mem p) ∧
    (let k : Nat := 0; let addr : Nat := 1; let n : Nat := 0; let c := c0
     c.accessOk k addr n true = false) ∧
    (let c := c0
     Memory.wf c.mem = true) := by
  refine ⟨?_, ?_, ?_⟩
  all_goals decide +kernel

/-- What TapAndBlockResults asks for is met. -/
theorem test_meets_TapAndBlockResults :
    (let t : Thr := { core := 0, thread := 0 }; let s := P11c.state0; let ps : BitVec 3 := 0x0#3
     (accessFault s.chip (thrKey t) (tget 0 (s.chip.views (thrKey t)).ag.p ps.toNat).toNat 2 false = none ∧
         accessFault s.chip (thrKey t) (tget 0 (s.chip.views (thrKey t)).ag.p ps.toNat + 2).toNat 2 true = none) ∧ ∀
         ws, CanIssue s t ws .seq (storeData (thrKey t) (tget 0 (s.chip.views (thrKey t)).ag.p ps.toNat + 2).toNat 2
         (s.chip.loadData (thrKey t) (tget 0 (s.chip.views (thrKey t)).ag.p ps.toNat).toNat 2 % 65536) s.chip)) ∧
    (let t : Thr := { core := 0, thread := 0 }; let s := P11c.state0; let xd : BitVec 4 := 0x0#4
     let ps : BitVec 3 := 0x0#3; let xc : BitVec 4 := 0x0#4; let w : Bool := true
     let stopAt : Option (BitVec 13) := none
     let e1 := (s.chip.views (thrKey t)).x (s.chip.views (thrKey t)).ma xc.toNat
     (s.chip.views (thrKey t)).th.confined = false ∧ e1.toNat ≤ 4096 ∧ ((if (s.chip.views (thrKey t)).ag.bx.msb = true
         then (BitVec.extractLsb' 0 13 (s.chip.views (thrKey t)).ag.bx).toNat else 0) ≤
         match stopAt with | some i => min e1.toNat i.toNat | none => e1.toNat) ∧ (∀ i <
         (match stopAt with | some i => min e1.toNat i.toNat | none => e1.toNat) - if (s.chip.views (thrKey
         t)).ag.bx.msb = true then (BitVec.extractLsb' 0 13 (s.chip.views (thrKey t)).ag.bx).toNat else 0, accessFault
         s.chip (thrKey t) (Nat.repeat (fun p => postModify p (tget 0 (s.chip.views (thrKey t)).ag.m ps.toNat)) i
         (tget 0 (s.chip.views (thrKey t)).ag.p ps.toNat)).toNat (if w = true then 4 else 2) false = none) ∧ (CanIssue
         s t [(sMA, RegWrite.x (physX (s.chip.views (thrKey t)).id xd.toNat) (BitVec.ofNat 16 (List.foldl (fun m i =>
         min m (leadingSigns (8 * if w = true then 4 else 2) (BitVec.ofNat (8 * if w = true then 4 else 2)
         (s.chip.loadData (thrKey t) (Nat.repeat (fun p => postModify p (tget 0 (s.chip.views (thrKey t)).ag.m
         ps.toNat)) i (tget 0 (s.chip.views (thrKey t)).ag.p ps.toNat)).toNat (if w = true then 4 else 2))) - 1)) (if
         (s.chip.views (thrKey t)).ag.bx.msb = true then ((s.chip.views (thrKey t)).x (s.chip.views (thrKey t)).ma
         xd.toNat).toNat else if w = true then 31 else 15) (List.range
         ((match stopAt with | some i => min e1.toNat i.toNat | none => e1.toNat) - if (s.chip.views (thrKey
         t)).ag.bx.msb = true then (BitVec.extractLsb' 0 13 (s.chip.views (thrKey t)).ag.bx).toNat else 0))))), (sAG,
         RegWrite.p ps.toNat (Nat.repeat (fun p => postModify p (tget 0 (s.chip.views (thrKey t)).ag.m ps.toNat))
         ((match stopAt with | some i => min e1.toNat i.toNat | none => e1.toNat) - if (s.chip.views (thrKey
         t)).ag.bx.msb = true then (BitVec.extractLsb' 0 13 (s.chip.views (thrKey t)).ag.bx).toNat else 0) (tget 0
         (s.chip.views (thrKey t)).ag.p ps.toNat))), (sAG, RegWrite.bx (if e1.toNat ≤
         match stopAt with | some i => min e1.toNat i.toNat | none => e1.toNat then 0 else BitVec.ofNat 16 (32768 + match stopAt with | some i => min e1.toNat i.toNat | none => e1.toNat)))]
         (if e1.toNat ≤
         match stopAt with | some i => min e1.toNat i.toNat | none => e1.toNat then Flow.seq else Flow.stay) s.chip)) ∧
    (let t : Thr := { core := 0, thread := 0 }; let s := P11c.state0; let pd : BitVec 3 := 0x0#3
     let ps : BitVec 3 := 0x0#3; let xc : BitVec 4 := 0x0#4; let stopAt : Option (BitVec 13) := none
     let e1 := (s.chip.views (thrKey t)).x (s.chip.views (thrKey t)).ma xc.toNat
     (s.chip.views (thrKey t)).th.confined = false ∧ e1.toNat ≤ 4096 ∧ ((if (s.chip.views (thrKey t)).ag.bx.msb = true
         then (BitVec.extractLsb' 0 13 (s.chip.views (thrKey t)).ag.bx).toNat else 0) ≤
         match stopAt with | some i => min e1.toNat i.toNat | none => e1.toNat) ∧ (∀ i <
         (match stopAt with | some i => min e1.toNat i.toNat | none => e1.toNat) - if (s.chip.views (thrKey
         t)).ag.bx.msb = true then (BitVec.extractLsb' 0 13 (s.chip.views (thrKey t)).ag.bx).toNat else 0, accessFault
         (List.foldl (fun c i => storeData (thrKey t) (Nat.repeat (fun p => postModify p (tget 0 (s.chip.views (thrKey
         t)).ag.m pd.toNat)) i (tget 0 (s.chip.views (thrKey t)).ag.p pd.toNat)).toNat 4 (c.loadData (thrKey t)
         (Nat.repeat (fun p => postModify p (tget 0 (s.chip.views (thrKey t)).ag.m ps.toNat)) i (tget 0 (s.chip.views
         (thrKey t)).ag.p ps.toNat)).toNat 4) c) s.chip (List.range i)) (thrKey t) (Nat.repeat (fun p => postModify p
         (tget 0 (s.chip.views (thrKey t)).ag.m ps.toNat)) i (tget 0 (s.chip.views (thrKey t)).ag.p ps.toNat)).toNat 4
         false = none ∧ accessFault (List.foldl (fun c i => storeData (thrKey t) (Nat.repeat (fun p => postModify p
         (tget 0 (s.chip.views (thrKey t)).ag.m pd.toNat)) i (tget 0 (s.chip.views (thrKey t)).ag.p pd.toNat)).toNat 4
         (c.loadData (thrKey t) (Nat.repeat (fun p => postModify p (tget 0 (s.chip.views (thrKey t)).ag.m ps.toNat)) i
         (tget 0 (s.chip.views (thrKey t)).ag.p ps.toNat)).toNat 4) c) s.chip (List.range i)) (thrKey t) (Nat.repeat
         (fun p => postModify p (tget 0 (s.chip.views (thrKey t)).ag.m pd.toNat)) i (tget 0 (s.chip.views (thrKey
         t)).ag.p pd.toNat)).toNat 4 true = none) ∧ (CanIssue s t [(sAG, RegWrite.p ps.toNat (Nat.repeat (fun p =>
         postModify p (tget 0 (s.chip.views (thrKey t)).ag.m ps.toNat))
         ((match stopAt with | some i => min e1.toNat i.toNat | none => e1.toNat) - if (s.chip.views (thrKey
         t)).ag.bx.msb = true then (BitVec.extractLsb' 0 13 (s.chip.views (thrKey t)).ag.bx).toNat else 0) (tget 0
         (s.chip.views (thrKey t)).ag.p ps.toNat))), (sAG, RegWrite.p pd.toNat (Nat.repeat (fun p => postModify p
         (tget 0 (s.chip.views (thrKey t)).ag.m pd.toNat))
         ((match stopAt with | some i => min e1.toNat i.toNat | none => e1.toNat) - if (s.chip.views (thrKey
         t)).ag.bx.msb = true then (BitVec.extractLsb' 0 13 (s.chip.views (thrKey t)).ag.bx).toNat else 0) (tget 0
         (s.chip.views (thrKey t)).ag.p pd.toNat))), (sAG, RegWrite.bx (if e1.toNat ≤
         match stopAt with | some i => min e1.toNat i.toNat | none => e1.toNat then 0 else BitVec.ofNat 16 (32768 + match stopAt with | some i => min e1.toNat i.toNat | none => e1.toNat)))]
         (if e1.toNat ≤
         match stopAt with | some i => min e1.toNat i.toNat | none => e1.toNat then Flow.seq else Flow.stay)
         (List.foldl (fun c i => storeData (thrKey t) (Nat.repeat (fun p => postModify p (tget 0 (s.chip.views (thrKey
         t)).ag.m pd.toNat)) i (tget 0 (s.chip.views (thrKey t)).ag.p pd.toNat)).toNat 4 (c.loadData (thrKey t)
         (Nat.repeat (fun p => postModify p (tget 0 (s.chip.views (thrKey t)).ag.m ps.toNat)) i (tget 0 (s.chip.views
         (thrKey t)).ag.p ps.toNat)).toNat 4) c) s.chip (List.range
         ((match stopAt with | some i => min e1.toNat i.toNat | none => e1.toNat) - if (s.chip.views (thrKey
         t)).ag.bx.msb = true then (BitVec.extractLsb' 0 13 (s.chip.views (thrKey t)).ag.bx).toNat else 0))))) := by
  refine ⟨?_, ?_, ?_⟩
  · exact ⟨by decide +kernel, canIssue_plain (by decide +kernel)⟩
  · decide +kernel
  · decide +kernel

/-- What BranchesLoopsAndRepeats asks for is met. -/
theorem test_meets_BranchesLoopsAndRepeats :
    (let th := P12.thread0
     th.delay = none ∧ th.rpt = 0 ∧ th.loop = none) ∧
    (let th := P12.thread3; let e : Nat := 256; let s : Nat := 144
     th.delay = none ∧ th.rpt = 0 ∧ th.loop = some (s, e) ∧ th.pc.toNat = e ∧ 2 ≤ (th.view (th.slot + sID)).lc.toNat ∧
         th.writes = []) ∧
    (let th := P12.thread23; let e : Nat := 256; let s : Nat := 144
     th.delay = none ∧ th.rpt = 0 ∧ th.loop = some (s, e) ∧ th.pc.toNat = e ∧ (th.view (th.slot + sID)).lc.toNat < 2 ∧
         th.writes = []) ∧
    (let th := P12.thread5; let s : Nat := 144; let e : Nat := 288
     th.delay = none ∧ th.rpt = 0 ∧ th.loop = some (s, e) ∧ th.pc.toNat ≠ e) ∧
    (let th := P12.thread7
     th.delay = none ∧ th.loop = none ∧ 2 ≤ th.rpt) ∧
    (let th := P12.thread6
     th.delay = none ∧ th.loop = none ∧ th.rpt = 1) := by
  refine ⟨?_, ?_, ?_, ?_, ?_, ?_⟩
  all_goals decide +kernel

/-- What ThreadControlResults asks for is met. -/
theorem test_meets_ThreadControlResults :
    (let t : Thr := { core := 0, thread := 1 }; let s := State.reset
     (s.chip.views (thrKey t)).th.confined = false ∧ (s.chip.views (thrKey t)).th.shadow = none ∧ t.thread ≠ 0 ∧
         (CanIssue s t [] Flow.ended (modThread (thrKey t) (fun th => { th with state := ThreadState.idle }) s.chip))) ∧
    (let t : Thr := { core := 0, thread := 0 }; let s := State.reset
     (s.chip.views (thrKey t)).th.confined = false ∧ (s.chip.views (thrKey t)).th.shadow = none ∧ t.thread = 0) ∧
    (let t : Thr := { core := 0, thread := 0 }; let s := P12.state1; let mask : BitVec 16 := 0x8001#16
     (s.chip.canInterrupt (thrKey t) = false ∧ (s.chip.views (thrKey t)).th.confined = false ∧ mask ≠ 0 ∧
         (s.chip.views (thrKey t)).th.ef &&& mask ≠ 0) ∧ ∀ ws, CanIssue s t ws .seq (modThread (thrKey t) (fun th =>
         { th with ef := th.ef &&& ~~~((s.chip.views (thrKey t)).th.ef &&& mask), state := ThreadState.run }) s.chip)) ∧
    (let t : Thr := { core := 0, thread := 0 }; let s := State.reset; let mask : BitVec 16 := 0x5#16
     s.chip.canInterrupt (thrKey t) = false ∧ (s.chip.views (thrKey t)).th.confined = false ∧ mask ≠ 0 ∧ (s.chip.views
         (thrKey t)).th.ef &&& mask = 0 ∧ (CanIssue s t [] Flow.stay (modThread (thrKey t) (fun th =>
         { th with state := ThreadState.parked, wait := Wait.flags mask }) s.chip))) ∧
    (let t : Thr := { core := 0, thread := 1 }; let s := P12.state4
     s.chip.canInterrupt (thrKey t) = true) ∧
    (let t : Thr := { core := 0, thread := 0 }; let s := State.reset; let core : BitVec 4 := 0x0#4
     let thread : BitVec 2 := 0x0#2; let flag : BitVec 4 := 0x0#4
     ((s.chip.views (thrKey t)).th.confined = false) ∧ ∀ ws, CanIssue s t ws .seq (setFlag (4 * (↑t.core / 16 * 16 +
         core.toNat) + thread.toNat) flag.toNat s.chip)) ∧
    (let t : Thr := { core := 0, thread := 0 }; let s := State.reset; let thread : BitVec 2 := 0x0#2
     let flag : BitVec 4 := 0x0#4
     ((s.chip.views (thrKey t)).th.confined = false) ∧ ∀ ws, CanIssue s t ws .seq (setFlag (4 * ↑t.core +
         thread.toNat) flag.toNat s.chip)) ∧
    (let t : Thr := { core := 0, thread := 0 }; let s := P12.state7
     let sh : Shadow := { pc := 0x77#16, st := 0x300#32, loop := some (1, 2) }
     (s.chip.views (thrKey t)).th.confined = false ∧ (s.chip.views (thrKey t)).th.shadow = some sh ∧ (CanIssue s t []
         (Flow.jump sh.pc 2) (modThread (thrKey t) (fun th =>
         { th with regs := { th.settled with st := sh.st }, loop := sh.loop }) s.chip))) := by
  refine ⟨?_, ?_, ?_, ?_, ?_, ?_, ?_, ?_⟩
  · decide +kernel
  · decide +kernel
  · exact ⟨by decide +kernel, canIssue_plain (by decide +kernel)⟩
  · decide +kernel
  · decide +kernel
  · exact ⟨by decide +kernel, canIssue_plain (by decide +kernel)⟩
  · exact ⟨by decide +kernel, canIssue_plain (by decide +kernel)⟩
  · decide +kernel

/-- What InterruptsAndThreadSwitches asks for is met. -/
theorem test_meets_InterruptsAndThreadSwitches :
    (let t : Thr := { core := 0, thread := 1 }; let s := P12.state4; let f : Nat := 0; let j : Nat := 0
     s.chip.canInterrupt (thrKey t) = true ∧ s.chip.pendingInt (thrKey t) = some f ∧ (s.chip.threadState (thrKey t) =
         ThreadState.run ∨ s.chip.threadState (thrKey t) = ThreadState.parked) ∧ j ≠ thrKey t) ∧
    (let core : Fin 256 := 0; let s := P12.state8; let n : Nat := 1
     s.chip.readyThread core.val = some n ∧ s.chip.runThread core.val = none) ∧
    (let core : Fin 256 := 0; let s := P12.state9; let n : Nat := 1; let o : Nat := 2; let j : Nat := 0
     s.chip.readyThread core.val = some n ∧ s.chip.runThread core.val = some o ∧ n < o ∧ (s.chip.thread (4 * core.val
         + o)).delay = none ∧ j ≠ 4 * core.val + n ∧ j ≠ 4 * core.val + o) ∧
    (let core : Fin 256 := 0; let s := P12.state10; let n : Nat := 1; let o : Nat := 2
     s.chip.readyThread core.val = some n ∧ s.chip.runThread core.val = some o ∧ (o < n ∨ (s.chip.thread (4 * core.val
         + o)).delay ≠ none)) := by
  refine ⟨?_, ?_, ?_, ?_⟩
  all_goals decide +kernel

/-- What SemaphoreResults asks for is met. -/
theorem test_meets_SemaphoreResults :
    (let t : Thr := { core := 0, thread := 0 }; let sem : BitVec 6 := 0x0#6; let s := State.reset
     ((s.chip.views (thrKey t)).th.confined = false ∧ (s.chip.sem (↑t.core / 16) sem.toNat).held = none) ∧ ∀ ws,
         CanIssue s t ws .seq (modSem (↑t.core / 16) sem.toNat (fun y =>
         { held := some { core := (↑t.core, ↑t.thread).1, thread := (↑t.core, ↑t.thread).2, tenant := s.chip.semTenant (thrKey t), expiry := s.chip.time.stc + s.chip.num (Obj.trowelGangSemLease (↑t.core / 16)) }, former := List.filter (fun x => x != (↑t.core, ↑t.thread)) y.former, queue := y.queue })
         s.chip)) ∧
    (let t : Thr := { core := 0, thread := 0 }; let sem : BitVec 6 := 0x0#6; let s := P12.state15
     let h : SemHold := { core := 0, thread := 0, tenant := 255, expiry := 100 }
     ((s.chip.views (thrKey t)).th.confined = false ∧ (s.chip.sem (↑t.core / 16) sem.toNat).held = some h ∧ h.core =
         (↑t.core, ↑t.thread).1 ∧ h.thread = (↑t.core, ↑t.thread).2) ∧ ∀ ws, CanIssue s t ws .seq (modSem (↑t.core /
         16) sem.toNat (fun y =>
         { y with held := Option.map (fun h => { h with expiry := s.chip.time.stc + s.chip.num (Obj.trowelGangSemLease (↑t.core / 16)) }) y.held })
         s.chip)) ∧
    (let t : Thr := { core := 0, thread := 0 }; let sem : BitVec 6 := 0x0#6; let s := P12.state14
     let h : SemHold := { core := 0, thread := 1, tenant := 255, expiry := 100 }
     ((s.chip.views (thrKey t)).th.confined = false ∧ (s.chip.sem (↑t.core / 16) sem.toNat).held = some h ∧ 4 * h.core
         + h.thread ≠ thrKey t) ∧ ∀ ws, CanIssue s t ws .seq s.chip) ∧
    (let t : Thr := { core := 0, thread := 0 }; let xd : BitVec 4 := 0x0#4; let sem : BitVec 6 := 0x0#6
     let s := P12.state14; let h : SemHold := { core := 0, thread := 1, tenant := 255, expiry := 100 }
     (s.chip.views (thrKey t)).th.confined = false ∧ (s.chip.sem (↑t.core / 16) sem.toNat).held = some h ∧ 4 * h.core
         + h.thread ≠ thrKey t ∧ (s.chip.sem (↑t.core / 16) sem.toNat).queue.contains ((↑t.core, ↑t.thread).1,
         (↑t.core, ↑t.thread).2, physX (s.chip.views (thrKey t)).id xd.toNat) = false ∧ (CanIssue s t [] Flow.stay
         (modThread (thrKey t) (fun th =>
         { th with state := ThreadState.parked, wait := Wait.sema sem.toNat (physX (s.chip.views (thrKey t)).id xd.toNat) })
         (modSem (↑t.core / 16) sem.toNat (fun y =>
         { y with queue := y.queue ++ [((↑t.core, ↑t.thread).1, (↑t.core, ↑t.thread).2, physX (s.chip.views (thrKey t)).id xd.toNat)] })
         s.chip)))) ∧
    (let t : Thr := { core := 0, thread := 0 }; let sem : BitVec 6 := 0x0#6; let s := P12.state15
     let h : SemHold := { core := 0, thread := 0, tenant := 255, expiry := 100 }
     ((s.chip.views (thrKey t)).th.confined = false ∧ (s.chip.sem (↑t.core / 16) sem.toNat).held = some h ∧ 4 * h.core
         + h.thread = thrKey t ∧ (s.chip.sem (↑t.core / 16) sem.toNat).queue = []) ∧ ∀ ws, CanIssue s t ws .seq
         (modSem (↑t.core / 16) sem.toNat (fun y => y) s.chip)) ∧
    (let t : Thr := { core := 0, thread := 1 }; let sem : BitVec 6 := 0x0#6; let s := P12.state16
     let h : SemHold := { core := 0, thread := 1, tenant := 255, expiry := 100 }
     let w : Nat × Nat × Nat := (0, 2, 3); let rest : List (Nat × Nat × Nat) := [(0, 3, 4)]
     ((s.chip.views (thrKey t)).th.confined = false ∧ (s.chip.sem (↑t.core / 16) sem.toNat).held = some h ∧ 4 * h.core
         + h.thread = thrKey t ∧ (s.chip.sem (↑t.core / 16) sem.toNat).queue = w :: rest) ∧ ∀ ws, CanIssue s t ws .seq
         (wakeSem (4 * w.1 + w.2.1) w.2.2 1 (grantSem (↑t.core / 16) sem.toNat (4 * w.1 + w.2.1) (modSem (↑t.core /
         16) sem.toNat (fun y => { revoked := y.revoked, former := y.former, queue := rest }) s.chip)))) ∧
    (let t : Thr := { core := 0, thread := 1 }; let sem : BitVec 6 := 0x0#6; let s := P12.state17
     let h : SemHold := { core := 0, thread := 2, tenant := 255, expiry := 100 }
     ((s.chip.views (thrKey t)).th.confined = false ∧ (s.chip.sem (↑t.core / 16) sem.toNat).held = some h ∧ 4 * h.core
         + h.thread ≠ thrKey t ∧ (s.chip.sem (↑t.core / 16) sem.toNat).former.contains (↑t.core, ↑t.thread) = true) ∧
         ∀ ws, CanIssue s t ws .seq s.chip) ∧
    (let t : Thr := { core := 0, thread := 0 }; let sem : BitVec 6 := 0x0#6; let s := P12.state14
     let h : SemHold := { core := 0, thread := 1, tenant := 255, expiry := 100 }
     ((s.chip.views (thrKey t)).th.confined = false ∧ (s.chip.sem (↑t.core / 16) sem.toNat).held = some h ∧ 4 * h.core
         + h.thread ≠ thrKey t ∧ (s.chip.sem (↑t.core / 16) sem.toNat).former.contains (↑t.core, ↑t.thread) = false) ∧
         ∀ ws, CanIssue s t ws .seq (snag 4102 (64 * (↑t.core / 16) + sem.toNat) (s.chip.semTenant (thrKey t)) s.chip)) ∧
    (let t : Thr := { core := 0, thread := 0 }; let s := State.reset
     (s.chip.views (thrKey t)).th.confined = false ∧ s.chip.lapsedSems = []) ∧
    (let t : Thr := { core := 0, thread := 0 }; let sem : BitVec 6 := 0x0#6; let s := P12.state18
     let h : SemHold := { core := 0, thread := 2, tenant := 255, expiry := 100 }
     (s.chip.views (thrKey t)).th.confined = false ∧ s.chip.lapsedSems = [64 * (↑t.core / 16) + sem.toNat] ∧
         (s.chip.sem (↑t.core / 16) sem.toNat).held = some h) := by
  refine ⟨?_, ?_, ?_, ?_, ?_, ?_, ?_, ?_, ?_, ?_⟩
  · exact ⟨by decide +kernel, canIssue_plain (by decide +kernel)⟩
  · exact ⟨by decide +kernel, canIssue_plain (by decide +kernel)⟩
  · exact ⟨by decide +kernel, canIssue_plain (by decide +kernel)⟩
  · decide +kernel
  · exact ⟨by decide +kernel, canIssue_plain (by decide +kernel)⟩
  · exact ⟨by decide +kernel, canIssue_plain (by decide +kernel)⟩
  · exact ⟨by decide +kernel, canIssue_plain (by decide +kernel)⟩
  · exact ⟨by decide +kernel, canIssue_plain (by decide +kernel)⟩
  · decide +kernel
  · decide +kernel

/-- What PipelineVisibility asks for is met. -/
theorem test_meets_PipelineVisibility :
    (let th := P12b.thread0
     th.writes = []) ∧
    (let th := P12b.thread8; let r : Nat := 3; let g : Nat := 2; let n : Nat := 8; let cyc : Nat := 14
     let a : BitVec 16 := 0x5#16
     n < th.slot ∧ th.writes = [{ cycle := th.slot + g, slot := n, write := RegWrite.x r a }] ∧ th.slot + g < cyc) ∧
    (let th := P12b.thread9; let r : Nat := 4; let g : Nat := 2; let n : Nat := 8; let cyc : Nat := 14
     let a : BitVec 40 := 0x5#40
     n < th.slot ∧ th.writes = [{ cycle := th.slot + g, slot := n, write := RegWrite.a r a }] ∧ th.slot + g < cyc) ∧
    (let th := P12b.thread0; let cyc : Nat := 14
     th.slot + 3 ≤ cyc) := by
  refine ⟨?_, ?_, ?_, ?_⟩
  all_goals decide +kernel

/-- What CoreFaultsOfWords asks for is met. -/
theorem test_meets_CoreFaultsOfWords :
    (let t : Thr := { core := 0, thread := 0 }; let s := State.reset
     let f : MacFields :=
         { ad := 0x0#2, xa := 0x1#4, xb := 0x2#4, pm := 0x0#2, pp := 0x0#3, xd := 0x0#4, u := false, reserved := 0x1#7 }
     s.chip.badFetch (thrKey t) = false ∧ f.reserved ≠ 0) ∧
    (let t : Thr := { core := 0, thread := 0 }; let s := State.reset
     let f : AccFields := { ad := 0x0#2, as_ := 0x1#2, xs := 0x2#4, cond := 0x0#4, sh := 0x0#6, reserved := 0x1#6 }
     s.chip.badFetch (thrKey t) = false ∧ f.reserved ≠ 0) ∧
    (let t : Thr := { core := 0, thread := 0 }; let s := State.reset
     let f : AluFields := { xd := 0x0#4, xa := 0x1#4, xb := 0x2#4, shn := 0x0#4, reserved := 0x1#5 }
     s.chip.badFetch (thrKey t) = false ∧ f.reserved ≠ 0) ∧
    (let t : Thr := { core := 0, thread := 0 }; let s := State.reset
     let f : MemFields := { ptr := 0x7#3, u := true, reg := 0x1#4, ns := false, disp := 0x24b#13 }
     s.chip.badFetch (thrKey t) = false ∧ f.reg.toNat % 2 = 1) ∧
    (let t : Thr := { core := 0, thread := 0 }; let s := State.reset
     let f : MemFields := { ptr := 0x7#3, u := true, reg := 0x1#4, ns := false, disp := 0x24b#13 }
     s.chip.badFetch (thrKey t) = false ∧ f.ns = false ∧ s.chip.accessOk (thrKey t) ((s.chip.views (thrKey t)).ea
         f.ptr f.disp) 2 true = false) ∧
    (let t : Thr := { core := 0, thread := 0 }; let s := P12b.state20
     s.chip.badFetch (thrKey t) = true) := by
  refine ⟨?_, ?_, ?_, ?_, ?_, ?_⟩
  all_goals decide +kernel

/-- What TasksCodeAndGenerators asks for is met. -/
theorem test_meets_TasksCodeAndGenerators :
    (let r : Req := { path := Path.mailbox 0 0, txn := 0x1#16 }; let a : Nat := 16; let s := State.reset
     let t : Fin 1024 := 5
     Writes r a (Obj.trowelTaskEnable t.val) [1] s ∧ (judged r.path s).chip.flag (Obj.trowelTaskEnable t.val) = false
         ∧ taskStatus (judged r.path s).chip t.val a = St.ok ∧ taskQuota (judged r.path s).chip t.val a = false) ∧
    (let r : Req := { path := Path.mailbox 0 0, txn := 0x1#16 }; let a : Nat := 16; let s := P20.state3
     let t : Fin 1024 := 5
     Writes r a (Obj.trowelTaskEnable t.val) [1] s ∧ (judged r.path s).chip.flag (Obj.trowelTaskEnable t.val) = false
         ∧ taskStatus (judged r.path s).chip t.val a = St.ok ∧ taskQuota (judged r.path s).chip t.val a = true) ∧
    (let r : Req := { path := Path.mailbox 0 0, txn := 0x1#16 }; let a : Nat := 16; let s := P20.state6
     let t : Fin 1024 := 5
     Writes r a (Obj.trowelTaskEnable t.val) [1] s ∧ (judged r.path s).chip.flag (Obj.trowelTaskEnable t.val) = false
         ∧ taskStatus (judged r.path s).chip t.val a ≠ St.ok) ∧
    (let r : Req := { path := Path.mailbox 0 0, txn := 0x1#16 }; let a : Nat := 16; let s := P20.state1
     let t : Fin 1024 := 5
     Writes r a (Obj.trowelTaskEnable t.val) [0] s ∧ (judged r.path s).chip.flag (Obj.trowelTaskEnable t.val) = true) ∧
    (let r : Req := { path := Path.mailbox 0 0, txn := 0x1#16 }; let a : Nat := 16; let s := State.reset
     Writes r a Obj.trowelCodeLoad [1] s ∧ (judged r.path s).chip.num Obj.trowelCodeBase + (((judged r.path
         s).chip.blob Obj.trowelCodeImage).length + 3) / 4 ≤ 12288 ∧ (judged r.path s).chip.trowel.load = none ∧ (∀ k
         ∈ (judged r.path s).chip.loadCores, codeBusy (judged r.path s).chip k ((judged r.path s).chip.num
         Obj.trowelCodeBase) ((judged r.path s).chip.num Obj.trowelCodeBase + (((judged r.path s).chip.blob
         Obj.trowelCodeImage).length + 3) / 4) = false ∧ (judged r.path s).chip.may 20 k a 1 = true)) ∧
    (let s := P20.state9; let image : List Byte := [0x1#8, 0x2#8, 0x3#8]; let base : Nat := 5; let mask : Nat := 1
     let n : Nat := 0
     s.chip.trowel.load = some (image, base, mask) ∧ n < 256 ∧ bit mask n = true ∧ 4 * base + image.length ≤ 524288) ∧
    (let r : Req := { path := Path.mailbox 0 0, txn := 0x1#16 }; let a : Nat := 16; let s := State.reset
     let core : Fin 256 := 0; let thread : Fin 3 := 0
     Writes r a (Obj.trowelThreadMode (4 * core.val + thread.val + 1)) [0] s) ∧
    (let r : Req := { path := Path.mailbox 0 0, txn := 0x1#16 }; let a : Nat := 16; let s := P20.state1
     let core : Fin 256 := 0; let thread : Fin 3 := 0; let mode : Fin 3 := 1
     let e1 := (judged r.path s).chip.num (Obj.trowelThreadTask (4 * core.val + thread.val + 1))
     mode ≠ 0 ∧ Writes r a (Obj.trowelThreadMode (4 * core.val + thread.val + 1)) [BitVec.ofNat 8 mode.val] s ∧
         (judged r.path s).chip.num (Obj.trowelThreadTask (4 * core.val + thread.val + 1)) < 1024 ∧ (judged r.path
         s).chip.flag (Obj.trowelTaskEnable e1) = true ∧ (judged r.path s).chip.num (Obj.trowelTaskCore e1) = core.val
         ∧ (judged r.path s).chip.num (Obj.trowelThreadMode (4 * core.val + thread.val + 1)) = 0) ∧
    (let r : Req := { path := Path.mailbox 0 0, txn := 0x1#16 }; let a : Nat := 16; let s := P20.state11
     let n : Fin 4096 := 0
     Writes r a (Obj.stippleGlobalEnable n.val) [1] s ∧ (tget { } (judged r.path s).chip.stipple.globals n.val).def_ =
         [] ∧ genFormat true ((judged r.path s).chip.blob (Obj.stippleGlobalDef n.val)) = true ∧ (judged r.path
         s).chip.globalUnitsIn ((judged r.path s).chip.num (Obj.stippleGlobalCluster n.val)) + globalUnits ((judged
         r.path s).chip.blob (Obj.stippleGlobalDef n.val)) ≤ 4096 ∧ (field ((judged r.path s).chip.blob
         (Obj.stippleGlobalDef n.val)) 0 1 = 8 → (judged r.path s).chip.pitchCount < 64) ∧ (∀ (t : Nat), masterTenant
         a = some t → (judged r.path s).chip.num (Obj.stippleGlobalOwner n.val) = t → (judged r.path s).chip.gensUsed
         t + globalUnits ((judged r.path s).chip.blob (Obj.stippleGlobalDef n.val)) ≤ (judged r.path s).chip.num
         (Obj.tenantQuotaGenerators t))) := by
  refine ⟨?_, ?_, ?_, ?_, ?_, ?_, ?_, ?_, ?_⟩
  all_goals decide +kernel

/-- What StallsAndThermal asks for is met. -/
theorem test_meets_StallsAndThermal :
    (let gang : Fin 16 := 0; let s := State.reset
     s.chip.allWait gang.val = false) ∧
    (let gang : Fin 16 := 0; let s := P20.state14
     s.chip.allWait gang.val = true) ∧
    (let r : Req := { path := Path.mailbox 0 0, txn := 0x1#16 }; let a : Nat := 16; let core : Fin 256 := 0
     let s := P20.state6
     Writes r a (Obj.trowelCoreRetired core.val) [0] s ∧ (judged r.path s).chip.may 20 core.val a 3 = false) ∧
    (let r : Req := { path := Path.mailbox 0 0, txn := 0x1#16 }; let a : Nat := 16; let core : Fin 256 := 0
     let s := P20.state16
     Writes r a (Obj.trowelCoreRetired core.val) [0] s ∧ (judged r.path s).chip.may 20 core.val a 3 = true ∧ (judged
         r.path s).chip.flag (Obj.trowelCoreRetired core.val) = true) ∧
    (let gang : Fin 16 := 0; let z : BitVec 8 := 0x0#8; let s := putNum Obj.powerThermalWarn 95 (State.reset)
     z.toInt < (takeReading gang.val z.toInt s.chip).snum 8 Obj.powerThermalWarn) ∧
    (let gang : Fin 16 := 0; let z : BitVec 8 := 0x5f#8; let s := putNum Obj.powerThermalWarn 95 (State.reset)
     (takeReading gang.val z.toInt s.chip).snum 8 Obj.powerThermalWarn ≤ z.toInt ∧ z.toInt < 115 ∧ 800 < (takeReading
         gang.val z.toInt s.chip).gangClock gang.val ∧ tget (0, 0) (takeReading gang.val z.toInt
         s.chip).trowel.clockStep gang.val = (0, 0) ∧ (∀ n ∈ List.map (fun i => 16 * gang.val + i) (upTo 16),
         (takeReading gang.val z.toInt s.chip).occupancy n ≤ (takeReading gang.val z.toInt s.chip).slotsAt n
         ((takeReading gang.val z.toInt s.chip).gangClock gang.val - 200))) ∧
    (let gang : Fin 16 := 0; let z : BitVec 8 := 0x0#8; let s := putNum Obj.powerThermalWarn 95 (P20.state20)
     z.toInt < (takeReading gang.val z.toInt s.chip).snum 8 Obj.powerThermalWarn - 5 ∧ 0 < (takeReading gang.val
         z.toInt s.chip).gangClock gang.val ∧ (takeReading gang.val z.toInt s.chip).gangClock gang.val < 1600) ∧
    (let gang : Fin 16 := 0; let z : BitVec 8 := 0x0#8; let s := putNum Obj.powerThermalWarn 95 (State.reset)
     ((takeReading gang.val z.toInt s.chip).snum 8 Obj.powerThermalWarn - 5 ≤ z.toInt ∨ (takeReading gang.val z.toInt
         s.chip).gangClock gang.val = 0 ∨ 1600 ≤ (takeReading gang.val z.toInt s.chip).gangClock gang.val)) ∧
    (let z : BitVec 8 := 0x73#8
     115 ≤ z.toInt) ∧
    (let z : BitVec 8 := 0x0#8
     z.toInt < 115) ∧
    (let gang : Fin 16 := 0; let z : BitVec 8 := 0x0#8; let s := P20.state19
     z.toInt ≤ 100 ∧ ((takeReading gang.val z.toInt s.chip).core (16 * gang.val)).tripped = true) ∧
    (let gang : Fin 16 := 0; let z : BitVec 8 := 0x0#8; let s := State.reset
     (100 < z.toInt ∨ ((takeReading gang.val z.toInt s.chip).core (16 * gang.val)).tripped = false)) := by
  refine ⟨?_, ?_, ?_, ?_, ?_, ?_, ?_, ?_, ?_, ?_, ?_, ?_⟩
  all_goals decide +kernel

/-- What CommitsAndWithdrawals asks for is met. -/
theorem test_meets_CommitsAndWithdrawals :
    (let r : Req := { path := Path.mailbox 0 0, txn := 0x1#16 }; let a : Nat := 16; let n : Fin 4096 := 0
     let s := State.reset; let j : Fin 4 := 1; let image := P21.octets1
     Writes r a ((setupKind j).imageObj n.val) image s ∧ (judged r.path s).chip.may (setupKind j).access n.val a 1 =
         true ∧ (judged r.path s).chip.leasedByOther 2 ((setupKind j).imageObj n.val) a = false) ∧
    (let r : Req := { path := Path.mailbox 0 0, txn := 0x1#16 }; let a : Nat := 16; let n : Fin 4096 := 0
     let s := P21.state1
     Writes r a (SetupKind.template.commitObj n.val) [1] s ∧ (commitCheck (collect SetupKind.template n.val (judged
         r.path s).chip) SetupKind.template n.val a).1 = 0) ∧
    (let r : Req := { path := Path.mailbox 0 0, txn := 0x1#16 }; let a : Nat := 16; let n : Fin 4096 := 0
     let s := P21.state9
     Writes r a (SetupKind.template.commitObj n.val) [1] s ∧ (commitCheck (collect SetupKind.template n.val (judged
         r.path s).chip) SetupKind.template n.val a).1 = 8) ∧
    (let r : Req := { path := Path.mailbox 0 0, txn := 0x1#16 }; let a : Nat := 16; let n : Fin 4096 := 0
     let s := State.reset
     let e1 := commitCheck (collect SetupKind.template n.val (judged r.path s).chip) SetupKind.template n.val a
     Writes r a (SetupKind.template.commitObj n.val) [1] s ∧ e1.1 ≠ 0 ∧ e1.1 ≠ 8) ∧
    (let r : Req := { path := Path.mailbox 0 0, txn := 0x1#16 }; let a : Nat := 16; let n : Fin 4096 := 0
     let s := P21.state9
     Writes r a (SetupKind.template.commitObj n.val) [2] s ∧ (judged r.path s).chip.may SetupKind.template.access
         n.val a 3 = false) ∧
    (let r : Req := { path := Path.mailbox 0 0, txn := 0x1#16 }; let a : Nat := 16; let n : Fin 4096 := 0
     let s := State.reset
     Writes r a (SetupKind.template.commitObj n.val) [2] s ∧ (judged r.path s).chip.may SetupKind.template.access
         n.val a 3 = true ∧ (judged r.path s).chip.newest SetupKind.template n.val = none) ∧
    (let r : Req := { path := Path.mailbox 0 0, txn := 0x1#16 }; let a : Nat := 16; let n : Fin 4096 := 0
     let s := P21.state2
     let v : Version := ((some ((judged r.path s).chip.newest SetupKind.template n.val)).join).get (by decide +kernel)
     Writes r a (SetupKind.template.commitObj n.val) [2] s ∧ (judged r.path s).chip.may SetupKind.template.access
         n.val a 3 = true ∧ (judged r.path s).chip.newest SetupKind.template n.val = some v) ∧
    (let r : Req := { path := Path.mailbox 0 0, txn := 0x1#16 }; let a : Nat := 16; let n : Fin 4096 := 0
     let s := P21.state2
     Writes r a (SetupKind.layer.commitObj n.val) [1] s ∧ (commitCheck (collect SetupKind.layer n.val (judged r.path
         s).chip) SetupKind.layer n.val a).1 = 0) ∧
    (let r : Req := { path := Path.mailbox 0 0, txn := 0x1#16 }; let a : Nat := 16; let n : Fin 4096 := 0
     let s := P21.state10
     Writes r a (SetupKind.layer.commitObj n.val) [1] s ∧ (commitCheck (collect SetupKind.layer n.val (judged r.path
         s).chip) SetupKind.layer n.val a).1 = 8) ∧
    (let r : Req := { path := Path.mailbox 0 0, txn := 0x1#16 }; let a : Nat := 16; let n : Fin 4096 := 0
     let s := State.reset
     let e1 := commitCheck (collect SetupKind.layer n.val (judged r.path s).chip) SetupKind.layer n.val a
     Writes r a (SetupKind.layer.commitObj n.val) [1] s ∧ e1.1 ≠ 0 ∧ e1.1 ≠ 8) ∧
    (let r : Req := { path := Path.mailbox 0 0, txn := 0x1#16 }; let a : Nat := 16; let n : Fin 4096 := 0
     let s := P21.state10
     Writes r a (SetupKind.layer.commitObj n.val) [2] s ∧ (judged r.path s).chip.may SetupKind.layer.access n.val a 3
         = false) ∧
    (let r : Req := { path := Path.mailbox 0 0, txn := 0x1#16 }; let a : Nat := 16; let n : Fin 4096 := 0
     let s := State.reset
     Writes r a (SetupKind.layer.commitObj n.val) [2] s ∧ (judged r.path s).chip.may SetupKind.layer.access n.val a 3
         = true ∧ (judged r.path s).chip.newest SetupKind.layer n.val = none) ∧
    (let r : Req := { path := Path.mailbox 0 0, txn := 0x1#16 }; let a : Nat := 16; let n : Fin 4096 := 0
     let s := P21.state14
     let v : Version := ((some ((judged r.path s).chip.newest SetupKind.layer n.val)).join).get (by decide +kernel)
     Writes r a (SetupKind.layer.commitObj n.val) [2] s ∧ (judged r.path s).chip.may SetupKind.layer.access n.val a 3
         = true ∧ (judged r.path s).chip.newest SetupKind.layer n.val = some v) ∧
    (let r : Req := { path := Path.mailbox 0 0, txn := 0x1#16 }; let a : Nat := 16; let n : Fin 4096 := 0
     let s := P21.state3
     Writes r a (SetupKind.modset.commitObj n.val) [1] s ∧ (commitCheck (collect SetupKind.modset n.val (judged r.path
         s).chip) SetupKind.modset n.val a).1 = 0) ∧
    (let r : Req := { path := Path.mailbox 0 0, txn := 0x1#16 }; let a : Nat := 16; let n : Fin 4096 := 0
     let s := P21.state11
     Writes r a (SetupKind.modset.commitObj n.val) [1] s ∧ (commitCheck (collect SetupKind.modset n.val (judged r.path
         s).chip) SetupKind.modset n.val a).1 = 8) ∧
    (let r : Req := { path := Path.mailbox 0 0, txn := 0x1#16 }; let a : Nat := 16; let n : Fin 4096 := 0
     let s := State.reset
     let e1 := commitCheck (collect SetupKind.modset n.val (judged r.path s).chip) SetupKind.modset n.val a
     Writes r a (SetupKind.modset.commitObj n.val) [1] s ∧ e1.1 ≠ 0 ∧ e1.1 ≠ 8) ∧
    (let r : Req := { path := Path.mailbox 0 0, txn := 0x1#16 }; let a : Nat := 16; let n : Fin 4096 := 0
     let s := P21.state11
     Writes r a (SetupKind.modset.commitObj n.val) [2] s ∧ (judged r.path s).chip.may SetupKind.modset.access n.val a
         3 = false) ∧
    (let r : Req := { path := Path.mailbox 0 0, txn := 0x1#16 }; let a : Nat := 16; let n : Fin 4096 := 0
     let s := State.reset
     Writes r a (SetupKind.modset.commitObj n.val) [2] s ∧ (judged r.path s).chip.may SetupKind.modset.access n.val a
         3 = true ∧ (judged r.path s).chip.newest SetupKind.modset n.val = none) ∧
    (let r : Req := { path := Path.mailbox 0 0, txn := 0x1#16 }; let a : Nat := 16; let n : Fin 4096 := 0
     let s := P21.state15
     let v : Version := ((some ((judged r.path s).chip.newest SetupKind.modset n.val)).join).get (by decide +kernel)
     Writes r a (SetupKind.modset.commitObj n.val) [2] s ∧ (judged r.path s).chip.may SetupKind.modset.access n.val a
         3 = true ∧ (judged r.path s).chip.newest SetupKind.modset n.val = some v) ∧
    (let r : Req := { path := Path.mailbox 0 0, txn := 0x1#16 }; let a : Nat := 16; let n : Fin 4096 := 0
     let s := P21.state4
     Writes r a (SetupKind.control.commitObj n.val) [1] s ∧ (commitCheck (collect SetupKind.control n.val (judged
         r.path s).chip) SetupKind.control n.val a).1 = 0) ∧
    (let r : Req := { path := Path.mailbox 0 0, txn := 0x1#16 }; let a : Nat := 16; let n : Fin 4096 := 0
     let s := P21.state12
     Writes r a (SetupKind.control.commitObj n.val) [1] s ∧ (commitCheck (collect SetupKind.control n.val (judged
         r.path s).chip) SetupKind.control n.val a).1 = 8) ∧
    (let r : Req := { path := Path.mailbox 0 0, txn := 0x1#16 }; let a : Nat := 16; let n : Fin 4096 := 0
     let s := State.reset
     let e1 := commitCheck (collect SetupKind.control n.val (judged r.path s).chip) SetupKind.control n.val a
     Writes r a (SetupKind.control.commitObj n.val) [1] s ∧ e1.1 ≠ 0 ∧ e1.1 ≠ 8) ∧
    (let r : Req := { path := Path.mailbox 0 0, txn := 0x1#16 }; let a : Nat := 16; let n : Fin 4096 := 0
     let s := P21.state12
     Writes r a (SetupKind.control.commitObj n.val) [2] s ∧ (judged r.path s).chip.may SetupKind.control.access n.val
         a 3 = false) ∧
    (let r : Req := { path := Path.mailbox 0 0, txn := 0x1#16 }; let a : Nat := 16; let n : Fin 4096 := 0
     let s := State.reset
     Writes r a (SetupKind.control.commitObj n.val) [2] s ∧ (judged r.path s).chip.may SetupKind.control.access n.val
         a 3 = true ∧ (judged r.path s).chip.newest SetupKind.control n.val = none) ∧
    (let r : Req := { path := Path.mailbox 0 0, txn := 0x1#16 }; let a : Nat := 16; let n : Fin 4096 := 0
     let s := P21.state16
     let v : Version := ((some ((judged r.path s).chip.newest SetupKind.control n.val)).join).get (by decide +kernel)
     Writes r a (SetupKind.control.commitObj n.val) [2] s ∧ (judged r.path s).chip.may SetupKind.control.access n.val
         a 3 = true ∧ (judged r.path s).chip.newest SetupKind.control n.val = some v) := by
  refine ⟨?_, ?_, ?_, ?_, ?_, ?_, ?_, ?_, ?_, ?_, ?_, ?_, ?_, ?_, ?_, ?_, ?_, ?_, ?_, ?_, ?_, ?_, ?_, ?_, ?_⟩
  all_goals decide +kernel

/-- What VersionSwitchAndRelease asks for is met. -/
theorem test_meets_VersionSwitchAndRelease :
    (let s := P21.state17; let k : SetupKind := SetupKind.template; let n : Nat := 0; let v : Nat := 3
     let t : Nat := 64
     (s.chip.handle k n).next = some (v, t) ∧ t ≤ s.chip.time.stc) ∧
    (let s := P21.state13; let k : SetupKind := SetupKind.template; let n : Nat := 0; let v : Nat := 3
     let t : Nat := 64
     (s.chip.handle k n).next = some (v, t) ∧ s.chip.time.stc < t) ∧
    (let s := State.reset; let k : SetupKind := SetupKind.template; let n : Nat := 0
     (s.chip.handle k n).next = none) := by
  refine ⟨?_, ?_, ?_⟩
  all_goals decide +kernel

/-- What FrameClockEffects asks for is met. -/
theorem test_meets_FrameClockEffects :
    (let s := P22a.state1
     s.chip.time.stopped = true) ∧
    (let s := State.reset
     s.chip.time.stopped = false ∧ ((stepLimiters (if (modScreed (fun x =>
         { x with pins := List.map (fun e => (e.1 % 4096, e.2)) (List.filter (fun e => e.1 / 4096 == 2) x.limited) })
         (modTime (fun t => { t with stc := t.stc + 1 }) s.chip)).quiet = true then modSkim (fun k => k) (modScreed
         (fun x =>
         { x with pins := List.map (fun e => (e.1 % 4096, e.2)) (List.filter (fun e => e.1 / 4096 == 2) x.limited) })
         (modTime (fun t => { t with stc := t.stc + 1 }) s.chip)) else stepInstances (modScreed (fun x =>
         { x with pins := List.map (fun e => (e.1 % 4096, e.2)) (List.filter (fun e => e.1 / 4096 == 2) x.limited) })
         (modTime (fun t => { t with stc := t.stc + 1 }) s.chip)))).passNow = none)) ∧
    (let s := P22a.state2
     s.chip.time.stopped = false ∧ ((stepLimiters (if (modScreed (fun x =>
         { x with pins := List.map (fun e => (e.1 % 4096, e.2)) (List.filter (fun e => e.1 / 4096 == 2) x.limited) })
         (modTime (fun t => { t with stc := t.stc + 1 }) s.chip)).quiet = true then modSkim (fun k => k) (modScreed
         (fun x =>
         { x with pins := List.map (fun e => (e.1 % 4096, e.2)) (List.filter (fun e => e.1 / 4096 == 2) x.limited) })
         (modTime (fun t => { t with stc := t.stc + 1 }) s.chip)) else stepInstances (modScreed (fun x =>
         { x with pins := List.map (fun e => (e.1 % 4096, e.2)) (List.filter (fun e => e.1 / 4096 == 2) x.limited) })
         (modTime (fun t => { t with stc := t.stc + 1 }) s.chip)))).passNow = some 0)) ∧
    (let s := P22a.state3; let p : Nat := 0
     s.chip.time.stopped = false ∧ ((stepLimiters (if (modScreed (fun x =>
         { x with pins := List.map (fun e => (e.1 % 4096, e.2)) (List.filter (fun e => e.1 / 4096 == 2) x.limited) })
         (modTime (fun t => { t with stc := t.stc + 1 }) s.chip)).quiet = true then modSkim (fun k => k) (modScreed
         (fun x =>
         { x with pins := List.map (fun e => (e.1 % 4096, e.2)) (List.filter (fun e => e.1 / 4096 == 2) x.limited) })
         (modTime (fun t => { t with stc := t.stc + 1 }) s.chip)) else stepInstances (modScreed (fun x =>
         { x with pins := List.map (fun e => (e.1 % 4096, e.2)) (List.filter (fun e => e.1 / 4096 == 2) x.limited) })
         (modTime (fun t => { t with stc := t.stc + 1 }) s.chip)))).passNow = some (p + 1))) ∧
    (let s := P22a.state1
     (s.chip.time.stc % s.chip.bsize ≠ 0 ∨ s.chip.frame < s.chip.hawk.boundaryDone ∨ s.chip.time.stopped = true)) ∧
    (let s := P22a.state6
     s.chip.time.stc % s.chip.bsize = 0 ∧ s.chip.hawk.boundaryDone ≤ s.chip.frame ∧ s.chip.time.stopped = false ∧
         ((endDue s.chip.frame (frameEnd s.chip.frame (takeSettings s.chip.frame (if 1 ≤ s.chip.hawk.boundaryDone then
         deadline (s.chip.hawk.boundaryDone - 1) s.chip else s.chip)))).time.silent = true)) ∧
    (let s := State.reset
     s.chip.time.stc % s.chip.bsize = 0 ∧ s.chip.hawk.boundaryDone ≤ s.chip.frame ∧ s.chip.time.stopped = false ∧
         ((endDue s.chip.frame (frameEnd s.chip.frame (takeSettings s.chip.frame (if 1 ≤ s.chip.hawk.boundaryDone then
         deadline (s.chip.hawk.boundaryDone - 1) s.chip else s.chip)))).time.silent = false)) ∧
    (let s := P22a.state1
     (s.chip.time.silent = true ∨ s.chip.time.stopped = true)) ∧
    (let s := State.reset
     s.chip.time.silent = false ∧ s.chip.time.stopped = false) ∧
    (let s := P22a.state14; let cl : Fin 4 := 0
     tget 0 s.chip.stipple.late cl.val = s.chip.frame + 2) ∧
    (let s := State.reset; let cl : Fin 4 := 0
     tget 0 s.chip.stipple.late cl.val ≠ s.chip.frame + 2) ∧
    (let s := State.reset
     (s.chip.hawk.boundaryDone = 0 ∨ s.chip.time.stc < s.chip.hawk.boundaryDone * s.chip.bsize ∨
         s.chip.hawk.boundaryDone ≤ s.chip.hawk.deadlineDone)) ∧
    (let s := P22a.state8
     1 ≤ s.chip.hawk.boundaryDone ∧ s.chip.hawk.boundaryDone * s.chip.bsize ≤ s.chip.time.stc ∧
         s.chip.hawk.deadlineDone < s.chip.hawk.boundaryDone) ∧
    (let s := P22a.state15; let core : Fin 256 := 0; let lead : Nat := 0; let inst : Nat := 1; let n : Nat := 0
     let v : Voice := (Option.map (fun l => l.2) (some (s.chip.leadVoice lead)).join).get (by decide +kernel)
     (s.chip.core core.val).running = Running.voice lead inst true ∧ s.chip.leadVoice lead = some (n, v)) ∧
    (let s := P22a.state15; let core : Fin 256 := 0
     (s.chip.core core.val).free = false) ∧
    (let s := P22a.state17; let core : Fin 256 := 0; let t : Nat := 5; let rest : List Nat := []
     (s.chip.core core.val).free = true ∧ (s.chip.core core.val).running = Running.nothing ∧ (s.chip.core
         core.val).voices = [] ∧ (s.chip.core core.val).tasks = t :: rest) ∧
    (let s := State.reset; let core : Fin 256 := 0
     (s.chip.core core.val).free = true) := by
  refine ⟨?_, ?_, ?_, ?_, ?_, ?_, ?_, ?_, ?_, ?_, ?_, ?_, ?_, ?_, ?_, ?_, ?_⟩
  all_goals decide +kernel

/-- What AudioAndExchangeFrames asks for is met. -/
theorem test_meets_AudioAndExchangeFrames :
    (let s := State.reset
     s.chip.passNow = none) ∧
    (let s := P22a.state3; let p : Nat := 0
     s.chip.passNow = some p ∧ s.chip.skim.passed ≠ p + 1) ∧
    (let s := State.reset; let x : Fin 512 := 0
     (s.chip.exchangeTask x.val = none ∨ s.chip.num (Obj.skimExchangeDir x.val) ≠ 1 ∨ s.chip.frame < 2)) ∧
    (let s := State.reset
     s.chip.cursorList = []) ∧
    (let s := P22b.state2; let p : Nat := 0
     s.chip.passNow = some p ∧ s.chip.skim.passed = p + 1 ∧ s.chip.skim.overrun = 0 ∧ ((snag 4611 0 255 (bump
         Obj.skimCountersOverruns (writeSends p (modSkim (fun k =>
         { k with outs := k.prevOuts, own := if p = 0 then k.own else tput k.own p (tget [] k.own (p - 1)), overrun := p + 1 })
         s.chip)))).skim.wet.phase ≠ WetPhase.crossing)) ∧
    (let s := P22b.state3; let p : Nat := 0
     s.chip.passNow = some p ∧ s.chip.skim.passed = p + 1 ∧ s.chip.skim.overrun = 0 ∧ ((snag 4611 0 255 (bump
         Obj.skimCountersOverruns (writeSends p (modSkim (fun k =>
         { k with outs := k.prevOuts, own := if p = 0 then k.own else tput k.own p (tget [] k.own (p - 1)), overrun := p + 1 })
         s.chip)))).skim.wet.phase = WetPhase.crossing)) ∧
    (let s := P22b.state5; let x : Fin 512 := 0; let t : Nat := 5
     s.chip.exchangeTask x.val = some t ∧ s.chip.num (Obj.skimExchangeDir x.val) = 1 ∧ 2 ≤ s.chip.frame) ∧
    (let s := P22b.state7; let x : Fin 512 := 0; let t : Nat := 5; let j : Nat := 0
     s.chip.exchangeTask x.val = some t ∧ s.chip.num (Obj.skimExchangeDir x.val) = 2 ∧ 1 ≤ s.chip.frame ∧ (tget { }
         s.chip.trowel.tasks t).doneFrame = s.chip.frame ∧ (j < exchangeWord x.val s.chip.frame 0 ∨ exchangeWord x.val
         s.chip.frame 0 + 4 * s.chip.bsize ≤ j)) ∧
    (let s := P22b.state6; let x : Fin 512 := 0; let t : Nat := 5
     s.chip.exchangeTask x.val = some t ∧ s.chip.num (Obj.skimExchangeDir x.val) = 2 ∧ 1 ≤ s.chip.frame ∧ (tget { }
         s.chip.trowel.tasks t).doneFrame ≠ s.chip.frame) ∧
    (let s := P22b.state8; let n : Nat := 0
     let x : Cursor := ((s.chip.cursorList.head?).get (by decide +kernel)).2
     s.chip.cursorList = [(n, x)]) ∧
    (let s := P22b.state10; let t : Fin 16 := 0; let q : Fin 4 := 0; let fetched : List (List Byte) := []
     let e : List Byte := []
     s.chip.time.stc % s.chip.bsize = s.chip.bsize / 2 ∧ (s.chip.queue (qix t.val (16 + q.val))).audioFrame ≠
         s.chip.frame + 1 ∧ (s.chip.queue (qix t.val (16 + q.val))).state = QueueState.running ∧ (findEntry (qix t.val
         (16 + q.val)) s.chip.frame (!s.chip.hasFunction t.val) (s.chip.queue (qix t.val (16 + q.val))).size fetched
         s.chip).1 = some e) ∧
    (let s := P22b.state9; let t : Fin 16 := 0; let q : Fin 4 := 0; let fetched : List (List Byte) := []
     s.chip.time.stc % s.chip.bsize = s.chip.bsize / 2 ∧ (s.chip.queue (qix t.val (16 + q.val))).audioFrame ≠
         s.chip.frame + 1 ∧ (s.chip.queue (qix t.val (16 + q.val))).state = QueueState.running ∧ (findEntry (qix t.val
         (16 + q.val)) s.chip.frame (!s.chip.hasFunction t.val) (s.chip.queue (qix t.val (16 + q.val))).size fetched
         s.chip).1 = none) ∧
    (let s := P22b.state11; let t : Fin 16 := 0; let q : Fin 4 := 0
     s.chip.time.stc % s.chip.bsize = s.chip.bsize / 2 ∧ (s.chip.queue (qix t.val (16 + q.val))).audioFrame ≠
         s.chip.frame + 1 ∧ (s.chip.queue (qix t.val (16 + q.val))).state = QueueState.halted) ∧
    (let s := P22b.state12; let t : Fin 16 := 0; let q : Fin 4 := 0
     s.chip.time.stc % s.chip.bsize = s.chip.bsize / 2 ∧ (s.chip.queue (qix t.val (16 + q.val))).audioFrame ≠
         s.chip.frame + 1 ∧ (s.chip.queue (qix t.val (16 + q.val))).state = QueueState.disabled) ∧
    (let s := P22b.state14; let t : Fin 16 := 0; let q : Fin 8 := 0
     (s.chip.queue (qix t.val (20 + q.val))).state = QueueState.running ∧ 2 * s.chip.bsize + 2 ≤ s.chip.time.stc ∧
         (s.chip.queue (qix t.val (20 + q.val))).audioFrame ≠ (s.chip.time.stc - 2) / s.chip.bsize - 2 + 1 ∧
         (s.chip.queue (qix t.val (20 + q.val))).hasSlot = false) ∧
    (let s := P22b.state13; let t : Fin 16 := 0; let q : Fin 8 := 0
     (s.chip.queue (qix t.val (20 + q.val))).state = QueueState.running ∧ 2 * s.chip.bsize + 2 ≤ s.chip.time.stc ∧
         (s.chip.queue (qix t.val (20 + q.val))).audioFrame ≠ (s.chip.time.stc - 2) / s.chip.bsize - 2 + 1 ∧
         (s.chip.queue (qix t.val (20 + q.val))).hasSlot = true) := by
  refine ⟨?_, ?_, ?_, ?_, ?_, ?_, ?_, ?_, ?_, ?_, ?_, ?_, ?_, ?_, ?_, ?_⟩
  all_goals decide +kernel

/-- What MigrationProtocol asks for is met. -/
theorem test_meets_MigrationProtocol :
    (let s := P23a.state2; let r : Req := { path := Path.mailbox 0 0, txn := 0x1#16 }; let a : Nat := 16
     Writes r a Obj.hawkMigrateGo [1] s ∧ ((judged r.path s).chip.num Obj.hawkMigrateStatus = 1 ∨ (judged r.path
         s).chip.num Obj.hawkMigrateStatus = 2)) ∧
    (let s := State.reset; let r : Req := { path := Path.mailbox 0 0, txn := 0x1#16 }; let a : Nat := 16
     Writes r a Obj.hawkMigrateGo [1] s ∧ (judged r.path s).chip.num Obj.hawkMigrateStatus ≠ 1 ∧ (judged r.path
         s).chip.num Obj.hawkMigrateStatus ≠ 2 ∧ (List.find? (fun x => x.2.id == (judged r.path s).chip.num
         Obj.hawkMigrateVoiceId && x.2.live && !x.2.control && !x.2.incoming) (judged r.path s).chip.voiceList = none)) ∧
    (let s := P23a.state4; let r : Req := { path := Path.mailbox 0 0, txn := 0x1#16 }; let a : Nat := 16
     let n : Nat := 0
     let v : Voice := (Option.map (fun l => l.2) (some (List.find? (fun x => x.2.id == (judged r.path s).chip.num
         Obj.hawkMigrateVoiceId && x.2.live && !x.2.control && !x.2.incoming) (judged r.path
         s).chip.voiceList)).join).get (by decide +kernel)
     Writes r a Obj.hawkMigrateGo [1] s ∧ (judged r.path s).chip.num Obj.hawkMigrateStatus ≠ 1 ∧ (judged r.path
         s).chip.num Obj.hawkMigrateStatus ≠ 2 ∧ (List.find? (fun x => x.2.id == (judged r.path s).chip.num
         Obj.hawkMigrateVoiceId && x.2.live && !x.2.control && !x.2.incoming) (judged r.path s).chip.voiceList = some
         (n, v)) ∧ (judged r.path s).chip.movable v = false) ∧
    (let s := P23a.state3; let r : Req := { path := Path.mailbox 0 0, txn := 0x1#16 }; let a : Nat := 16
     let n : Nat := 0
     let v : Voice := (Option.map (fun l => l.2) (some (List.find? (fun x => x.2.id == (judged r.path s).chip.num
         Obj.hawkMigrateVoiceId && x.2.live && !x.2.control && !x.2.incoming) (judged r.path
         s).chip.voiceList)).join).get (by decide +kernel)
     Writes r a Obj.hawkMigrateGo [1] s ∧ (judged r.path s).chip.num Obj.hawkMigrateStatus ≠ 1 ∧ (judged r.path
         s).chip.num Obj.hawkMigrateStatus ≠ 2 ∧ (List.find? (fun x => x.2.id == (judged r.path s).chip.num
         Obj.hawkMigrateVoiceId && x.2.live && !x.2.control && !x.2.incoming) (judged r.path s).chip.voiceList = some
         (n, v)) ∧ (judged r.path s).chip.movable v = true) ∧
    (let s := P23a.state6
     let m : MigIn := { voice := 0, frame := 1, source := 2, ready := false, commit := false, lost := false }
     s.chip.hawk.migIn = [m] ∧ m.commit = false ∧ (m.frame + 1) * s.chip.bsize + s.chip.bsize / 2 ≤ s.chip.time.stc) ∧
    (let s := State.reset
     (∀ m ∈ s.chip.hawk.migIn, m.commit = true ∨ s.chip.time.stc < (m.frame + 1) * s.chip.bsize + s.chip.bsize / 2)) ∧
    (let s := P23a.state7; let m : MigOut := (s.chip.hawk.migOut.head?).get (by decide +kernel)
     let v : Voice := ((some (s.chip.voice m.voice)).join).get (by decide +kernel)
     s.chip.hawk.migOut = [m] ∧ m.phase ≠ MigPhase.shipped ∧ m.resolved = none ∧ m.localCopy = none ∧ m.frame + 4 ≤
         s.chip.frame ∧ (s.chip.frame - m.frame) % 4 = 0 ∧ s.chip.voice m.voice = some v) ∧
    (let s := P23a.state6
     s.chip.time.stc % s.chip.bsize ≠ 0) ∧
    (let s := P23a.state8
     let a : MigAsk := { voice := 0, frame := 1, chip := some 2, core := none, attempts := 1, cause := 3 }
     s.chip.time.stc % s.chip.bsize = 0 ∧ s.chip.hawk.asks = [a] ∧ a.frame ≤ s.chip.frame ∧ 0 < a.attempts) ∧
    (let s := State.reset; let fields : List Nat := []
     (recordOk s.chip fields (recordVoice s.chip fields) (s.chip.chooseCore (List.filter (fun n => decide (n < 256))
         (if fields.getD 10 65535 = 65535 then s.chip.poolCores (s.chip.poolOf (recordVoice s.chip fields).tenant)
         else [fields.getD 10 65535])) 0 (s.chip.need (recordVoice s.chip fields))) = false)) ∧
    (let s := P23a.state1; let fields := P23a.fields4
     (recordOk s.chip fields (recordVoice s.chip fields) (s.chip.chooseCore (List.filter (fun n => decide (n < 256))
         (if fields.getD 10 65535 = 65535 then s.chip.poolCores (s.chip.poolOf (recordVoice s.chip fields).tenant)
         else [fields.getD 10 65535])) 0 (s.chip.need (recordVoice s.chip fields))) = true) ∧ s.chip.hawk.boundaryDone
         ≤ fields.getD 6 0) ∧
    (let s := P23a.state7; let chip : Byte := 0x2#8; let fields : List Nat := [77]
     let m : MigOut := ((some (s.chip.outOf (fields.headD 0))).join).get (by decide +kernel)
     s.chip.outOf (fields.headD 0) = some m ∧ m.targetChip = BitVec.toNat chip ∧ m.phase ≠ MigPhase.shipped) ∧
    (let s := P23a.state7; let chip : Byte := 0x3#8; let fields : List Nat := [77]
     let m : MigOut := ((some (s.chip.outOf (fields.headD 0))).join).get (by decide +kernel)
     s.chip.outOf (fields.headD 0) = some m ∧ m.targetChip ≠ BitVec.toNat chip) ∧
    (let s := P23a.state5; let chip : Byte := 0x2#8; let fields : List Nat := [77]
     let m : MigIn := { voice := 0, frame := 1, source := 2, ready := false, commit := false, lost := false }
     s.chip.outOf (fields.headD 0) = none ∧ s.chip.inOf (fields.headD 0) = some m ∧ m.source = BitVec.toNat chip) ∧
    (let s := P23a.state5; let chip : Byte := 0x3#8; let fields : List Nat := [77]
     let m : MigIn := { voice := 0, frame := 1, source := 2, ready := false, commit := false, lost := false }
     s.chip.outOf (fields.headD 0) = none ∧ s.chip.inOf (fields.headD 0) = some m ∧ m.source ≠ BitVec.toNat chip) ∧
    (let s := P23a.state5; let fields : List Nat := [77]
     let m : MigIn := { voice := 0, frame := 1, source := 2, ready := false, commit := false, lost := false }
     s.chip.inOf (fields.headD 0) = some m ∧ s.chip.time.stc < (m.frame + 1) * s.chip.bsize + s.chip.bsize / 2 ∧
         m.lost = false) ∧
    (let s := P23a.state6; let fields : List Nat := [77]
     let m : MigIn := { voice := 0, frame := 1, source := 2, ready := false, commit := false, lost := false }
     s.chip.inOf (fields.headD 0) = some m ∧ ((m.frame + 1) * s.chip.bsize + s.chip.bsize / 2 ≤ s.chip.time.stc ∨
         m.lost = true)) := by
  refine ⟨?_, ?_, ?_, ?_, ?_, ?_, ?_, ?_, ?_, ?_, ?_, ?_, ?_, ?_, ?_, ?_, ?_⟩
  all_goals decide +kernel

/-- What EventsAcrossChips asks for is met. -/
theorem test_meets_EventsAcrossChips :
    (let chip : Byte := 0x2#8; let fields : List Nat := []; let s := State.reset; let tag : BitVec 32 := 0x0#32
     let i : Nat := 0
     let d : Chip := (Option.map (fun l => l.2) (some (assignSlot (BitVec.toNat chip) (fields.headD 0 == 1)
         s.chip))).get (by decide +kernel)
     tag.getLsbD 31 = false ∧ assignSlot (BitVec.toNat chip) (fields.headD 0 == 1) s.chip = (some i, d)) ∧
    (let chip : Byte := 0x2#8; let s := State.reset
     BitVec.toNat chip ≠ s.chip.num Obj.chainMirrorHolder) ∧
    (let chip : Byte := 0x2#8; let fields : List Nat := []; let s := State.reset
     (jrecOf fields).reissued = false ∧ s.chip.knowsEvent (BitVec.toNat chip) (jrecOf fields).tenant (jrecOf
         fields).queue (entrySeq (jrecOf fields).entry) = false) ∧
    (let chip : Byte := 0x2#8; let fields : List Nat := []; let s := State.reset
     (s.chip.isQuarantined = true ∨ ((s.chip.handle SetupKind.template (orderVoice s.chip (BitVec.toNat chip)
         fields).template).versions.any fun x => x.hash == fields.getD 1 0) = false)) ∧
    (let chip : Byte := 0x2#8; let fields := P23a.fields17; let s := P23a.state1
     let e1 := orderFrame s.chip (orderVoice s.chip (BitVec.toNat chip) fields).n0
     s.chip.isQuarantined = false ∧ (((s.chip.handle SetupKind.template (orderVoice s.chip (BitVec.toNat chip)
         fields).template).versions.any fun x => x.hash == fields.getD 1 0) = true) ∧ ((runStart e1.1 false
         { voice := s.chip.hawk.nextVoice, frame := e1.1, immediate := e1.2, order := 0, accepted := s.chip.time.stc, onsetTick := (if e1.2 = true then { (orderVoice s.chip (BitVec.toNat chip) fields) with late := true, onsetTick := e1.1 * s.chip.bsize } else orderVoice s.chip (BitVec.toNat chip) fields).onsetTick, onsetFrac := (if e1.2 = true then { (orderVoice s.chip (BitVec.toNat chip) fields) with late := true, onsetTick := e1.1 * s.chip.bsize } else orderVoice s.chip (BitVec.toNat chip) fields).onsetFrac, ordered := true }
         (modHawk (fun h =>
         { h with voices := tput h.voices s.chip.hawk.nextVoice (some (if e1.2 = true then { (orderVoice s.chip (BitVec.toNat chip) fields) with late := true, onsetTick := e1.1 * s.chip.bsize } else orderVoice s.chip (BitVec.toNat chip) fields)), nextVoice := s.chip.hawk.nextVoice + 1, starts := h.starts ++ [{ voice := s.chip.hawk.nextVoice, frame := e1.1, immediate := e1.2, order := 0, accepted := s.chip.time.stc, onsetTick := (if e1.2 = true then { (orderVoice s.chip (BitVec.toNat chip) fields) with late := true, onsetTick := e1.1 * s.chip.bsize } else orderVoice s.chip (BitVec.toNat chip) fields).onsetTick, onsetFrac := (if e1.2 = true then { (orderVoice s.chip (BitVec.toNat chip) fields) with late := true, onsetTick := e1.1 * s.chip.bsize } else orderVoice s.chip (BitVec.toNat chip) fields).onsetFrac, ordered := true }] })
         s.chip)).hawk.boundaryDone ≠ e1.1 + 1)) ∧
    (let fields : List Nat := [77]; let s := State.reset
     tget none s.chip.hawk.owned (fields.getD 0 0) = none ∧ fields ≠ []) ∧
    (let fields : List Nat := [77]; let tag : BitVec 32 := 0x0#32
     tag.getLsbD 31 = false ∧ fields ≠ [] ∧ fields.getD 0 0 < 256) ∧
    (let fields : List Nat := []; let s := State.reset
     (List.find? (fun x => x.2.id == fields.getD 0 0) s.chip.voiceList = none)) ∧
    (let fields : List Nat := [77]; let s := P23a.state1; let n : Nat := 0
     let v : Voice := (Option.map (fun l => l.2) (some (List.find? (fun x => x.2.id == fields.getD 0 0)
         s.chip.voiceList)).join).get (by decide +kernel)
     (List.find? (fun x => x.2.id == fields.getD 0 0) s.chip.voiceList = some (n, v)) ∧ s.chip.time.stc < fields.getD
         1 0 / s.chip.bsize * s.chip.bsize + s.chip.bsize / 2 ∧ fields.getD 4 0 = 0) ∧
    (let fields : List Nat := [77, 64, 0, 5, 1]; let s := P23a.state1; let n : Nat := 0
     let v : Voice := (Option.map (fun l => l.2) (some (List.find? (fun x => x.2.id == fields.getD 0 0)
         s.chip.voiceList)).join).get (by decide +kernel)
     (List.find? (fun x => x.2.id == fields.getD 0 0) s.chip.voiceList = some (n, v)) ∧ s.chip.time.stc < fields.getD
         1 0 / s.chip.bsize * s.chip.bsize + s.chip.bsize / 2 ∧ fields.getD 4 0 = 1) ∧
    (let fields : List Nat := [77, 640, 0, 5, 2]; let s := P23a.state1; let n : Nat := 0
     let v : Voice := (Option.map (fun l => l.2) (some (List.find? (fun x => x.2.id == fields.getD 0 0)
         s.chip.voiceList)).join).get (by decide +kernel)
     (List.find? (fun x => x.2.id == fields.getD 0 0) s.chip.voiceList = some (n, v)) ∧ s.chip.time.stc < fields.getD
         1 0 / s.chip.bsize * s.chip.bsize + s.chip.bsize / 2 ∧ fields.getD 4 0 = 2) ∧
    (let fields : List Nat := [77]; let s := P23a.state6; let n : Nat := 0
     let v : Voice := (Option.map (fun l => l.2) (some (List.find? (fun x => x.2.id == fields.getD 0 0)
         s.chip.voiceList)).join).get (by decide +kernel)
     (List.find? (fun x => x.2.id == fields.getD 0 0) s.chip.voiceList = some (n, v)) ∧ fields.getD 1 0 / s.chip.bsize
         * s.chip.bsize + s.chip.bsize / 2 ≤ s.chip.time.stc ∧ fields.getD 4 0 = 0) ∧
    (let fields : List Nat := [1, 0, 0, 60, 1, 5, 5, 64]; let s := State.reset
     fields.getD 0 0 = 1 ∧ s.chip.time.stc < fields.getD 7 0 / s.chip.bsize * s.chip.bsize + s.chip.bsize / 2) ∧
    (let fields : List Nat := []; let s := State.reset
     fields.getD 0 0 ≠ 1 ∧ s.chip.time.stc < fields.getD 7 0 / s.chip.bsize * s.chip.bsize + s.chip.bsize / 2) ∧
    (let fields : List Nat := []; let s := P23a.state6
     fields.getD 0 0 ≠ 1 ∧ fields.getD 7 0 / s.chip.bsize * s.chip.bsize + s.chip.bsize / 2 ≤ s.chip.time.stc) ∧
    (let s := State.reset
     (s.chip.work.journal.remirroring = false ∨ s.chip.work.journal.unacked ≠ [])) ∧
    (let chip : Byte := 0x2#8; let s := P23b.state1; let tag : BitVec 32 := 0x80000000#32; let i : Nat := 0
     tag.getLsbD 31 = true ∧ s.chip.work.journal.slotOf (BitVec.toNat chip) = some i) ∧
    (let chip : Byte := 0x2#8; let s := P23b.state2; let tag : BitVec 32 := 0x0#32
     BitVec.toNat chip = s.chip.num Obj.chainMirrorHolder ∧ (List.find? (fun x => x.1 == tag.toNat)
         s.chip.work.journal.unacked = none)) ∧
    (let chip : Byte := 0x2#8; let s := P23b.state3; let tag : BitVec 32 := 0x5#32; let x : Nat := 5
     let t : Nat := 0; let f : List Nat := [1]
     BitVec.toNat chip = s.chip.num Obj.chainMirrorHolder ∧ s.chip.work.journal.remirroring = true ∧ (List.find? (fun
         x => x.1 == tag.toNat) s.chip.work.journal.unacked = some (x, t, f))) ∧
    (let chip : Byte := 0x2#8; let fields : List Nat := []; let s := P23b.state7
     (jrecOf fields).reissued = false ∧ s.chip.knowsEvent (BitVec.toNat chip) (jrecOf fields).tenant (jrecOf
         fields).queue (entrySeq (jrecOf fields).entry) = true) ∧
    (let chip : Byte := 0x2#8; let fields : List Nat := [77]; let s := P23b.state10
     let o : Owned := ((some (tget none s.chip.hawk.owned (fields.getD 0 0))).join).get (by decide +kernel)
     fields ≠ [] ∧ tget none s.chip.hawk.owned (fields.getD 0 0) = some o ∧ o.chip = BitVec.toNat chip) ∧
    (let chip : Byte := 0x2#8; let fields : List Nat := [77]; let s := P23b.state11
     let o : Owned := ((some (tget none s.chip.hawk.owned (fields.getD 0 0))).join).get (by decide +kernel)
     fields ≠ [] ∧ tget none s.chip.hawk.owned (fields.getD 0 0) = some o ∧ o.chip ≠ BitVec.toNat chip) ∧
    (let fields : List Nat := [258, 77, 1]; let s := P23b.state10; let tag : BitVec 32 := 0x0#32
     let o : Owned := ((some (tget none s.chip.hawk.owned (fields.getD 1 0))).join).get (by decide +kernel)
     tag.getLsbD 31 = false ∧ fields ≠ [] ∧ fields.getD 0 0 = 258 ∧ tget none s.chip.hawk.owned (fields.getD 1 0) =
         some o) ∧
    (let fields : List Nat := [256, 77, 1]; let s := P23b.state10; let tag : BitVec 32 := 0x0#32
     let o : Owned := ((some (tget none s.chip.hawk.owned (fields.getD 1 0))).join).get (by decide +kernel)
     tag.getLsbD 31 = false ∧ fields ≠ [] ∧ fields.getD 0 0 = 256 ∧ tget none s.chip.hawk.owned (fields.getD 1 0) =
         some o) ∧
    (let fields : List Nat := [260, 77, 1]; let s := P23b.state10; let tag : BitVec 32 := 0x0#32
     let o : Owned := ((some (tget none s.chip.hawk.owned (fields.getD 1 0))).join).get (by decide +kernel)
     tag.getLsbD 31 = false ∧ fields ≠ [] ∧ fields.getD 0 0 = 260 ∧ tget none s.chip.hawk.owned (fields.getD 1 0) =
         some o) ∧
    (let s := P23b.state15; let tag : BitVec 32 := 0x80000000#32
     tag.getLsbD 31 = true ∧ s.chip.num (Obj.chainLayerHome (tag.toNat % 4096)) ≠ s.chip.me) ∧
    (let s := P23b.state5; let x : Nat := 5; let t : Nat := 0; let f : List Nat := [1]
     s.chip.work.journal.unacked = [(x, t, f)] ∧ t + 1000000 ≤ s.chip.now) ∧
    (let s := P23b.state3; let x : Nat := 5; let t : Nat := 0; let f : List Nat := [1]
     s.chip.work.journal.unacked = [(x, t, f)] ∧ s.chip.now < t + 1000000) ∧
    (let s := P23b.state6
     s.chip.work.journal.remirroring = true ∧ s.chip.work.journal.unacked = []) := by
  refine ⟨?_, ?_, ?_, ?_, ?_, ?_, ?_, ?_, ?_, ?_, ?_, ?_, ?_, ?_, ?_, ?_, ?_, ?_, ?_, ?_, ?_, ?_, ?_, ?_, ?_, ?_, ?_,
    ?_, ?_⟩
  all_goals decide +kernel

/-- What CoatsAndWetEdges asks for is met. -/
theorem test_meets_CoatsAndWetEdges :
    (let r : Req := { path := Path.mailbox 0 0, txn := 0x1#16 }; let a : Nat := 16; let s := P30.state49
     Writes r a Obj.skimCoatCommit [1] s ∧ coatResult (judged r.path s).chip a = 0) ∧
    (let r : Req := { path := Path.mailbox 0 0, txn := 0x1#16 }; let a : Nat := 16; let s := P30.state54
     Writes r a Obj.skimCoatCommit [1] s ∧ coatResult (judged r.path s).chip a = 6) ∧
    (let r : Req := { path := Path.mailbox 0 0, txn := 0x1#16 }; let a : Nat := 16; let s := P30.state55
     Writes r a Obj.skimCoatCommit [1] s ∧ coatResult (judged r.path s).chip a = 7) ∧
    (let r : Req := { path := Path.mailbox 0 0, txn := 0x1#16 }; let a : Nat := 16; let s := State.reset
     Writes r a Obj.skimCoatCommit [1] s ∧ 0 < coatResult (judged r.path s).chip a ∧ coatResult (judged r.path s).chip
         a < 6) ∧
    (let r : Req := { path := Path.mailbox 0 0, txn := 0x1#16 }; let a : Nat := 16; let s := State.reset
     Writes r a Obj.skimCoatCommit [2] s ∧ (judged r.path s).chip.skim.wet.phase = WetPhase.idle) ∧
    (let r : Req := { path := Path.mailbox 0 0, txn := 0x1#16 }; let a : Nat := 16; let s := P30.state1
     Writes r a Obj.skimCoatCommit [2] s ∧ (judged r.path s).chip.skim.wet.phase ≠ WetPhase.idle) ∧
    (let r : Req := { path := Path.mailbox 0 0, txn := 0x1#16 }; let a : Nat := 16; let s := P30.state59
     Writes r a Obj.skimWetEdgeGo [1] s ∧ (judged r.path s).chip.may 1 48 a 2 = false) ∧
    (let r : Req := { path := Path.mailbox 0 0, txn := 0x1#16 }; let a : Nat := 16; let s := P30.state1
     Writes r a Obj.skimWetEdgeGo [1] s ∧ (judged r.path s).chip.may 1 48 a 2 = true ∧ wetGoResult (judged r.path
         s).chip = 7) ∧
    (let r : Req := { path := Path.mailbox 0 0, txn := 0x1#16 }; let a : Nat := 16; let s := State.reset
     Writes r a Obj.skimWetEdgeGo [1] s ∧ (judged r.path s).chip.may 1 48 a 2 = true ∧ (wetGoResult (judged r.path
         s).chip = 5 ∨ wetGoResult (judged r.path s).chip = 9)) ∧
    (let r : Req := { path := Path.mailbox 0 0, txn := 0x1#16 }; let a : Nat := 16; let s := P30.state57
     Writes r a Obj.skimWetEdgeGo [1] s ∧ (judged r.path s).chip.may 1 48 a 2 = true ∧ (judged r.path
         s).chip.skim.next ≠ [] ∧ (judged r.path s).chip.skim.wet.phase = WetPhase.idle ∧ (judged r.path s).chip.num
         Obj.skimWetEdgeMode = 2) ∧
    (let r : Req := { path := Path.mailbox 0 0, txn := 0x1#16 }; let a : Nat := 16; let s := P30.state1
     Writes r a Obj.skimWetEdgeGo [2] s ∧ (judged r.path s).chip.may 1 48 a 2 = true ∧ (judged r.path
         s).chip.skim.wet.phase = WetPhase.pending) ∧
    (let r : Req := { path := Path.mailbox 0 0, txn := 0x1#16 }; let a : Nat := 16; let s := State.reset
     Writes r a Obj.skimWetEdgeGo [2] s ∧ (judged r.path s).chip.may 1 48 a 2 = true ∧ (judged r.path
         s).chip.skim.wet.phase ≠ WetPhase.pending) ∧
    (let r : Req := { path := Path.mailbox 0 0, txn := 0x1#16 }; let a : Nat := 16; let s := P30.state59
     Writes r a Obj.skimWetEdgeGo [2] s ∧ (judged r.path s).chip.may 1 48 a 2 = false) ∧
    (let s := P30.state7
     s.chip.skim.wet.phase = WetPhase.pending ∧ s.chip.skim.wet.cross = true ∧ s.chip.skim.wet.start ≤ s.chip.time.stc
         - s.chip.bsize) ∧
    (let s := State.reset
     (s.chip.skim.wet.phase ≠ WetPhase.pending ∨ s.chip.skim.wet.cross = false ∨ s.chip.time.stc - s.chip.bsize <
         s.chip.skim.wet.start)) ∧
    (let s := P30.state23; let x : Nat := 0
     s.chip.skim.wet.phase = WetPhase.crossing ∧ s.chip.skim.wet.start + s.chip.skim.wet.len ≤ s.chip.time.stc -
         s.chip.bsize ∧ s.chip.skim.wet.tenant = some x) ∧
    (let s := State.reset
     (s.chip.skim.wet.phase ≠ WetPhase.crossing ∨ s.chip.time.stc - s.chip.bsize < s.chip.skim.wet.start +
         s.chip.skim.wet.len)) ∧
    (let s := P30.state4
     s.chip.skim.wet.phase = WetPhase.pending ∧ s.chip.skim.wet.cross = false ∧ s.chip.skim.wet.start ≤
         s.chip.time.stc - s.chip.bsize + s.chip.skim.wet.len) ∧
    (let s := State.reset
     (s.chip.skim.wet.phase ≠ WetPhase.pending ∨ s.chip.skim.wet.cross = true ∨ s.chip.time.stc - s.chip.bsize +
         s.chip.skim.wet.len < s.chip.skim.wet.start)) ∧
    (let s := P30.state31; let x : Nat := 0
     s.chip.skim.wet.phase = WetPhase.dipOut ∧ s.chip.skim.wet.start ≤ s.chip.time.stc - s.chip.bsize ∧
         s.chip.skim.wet.tenant = some x) ∧
    (let s := State.reset
     (s.chip.skim.wet.phase ≠ WetPhase.dipOut ∨ s.chip.time.stc - s.chip.bsize < s.chip.skim.wet.start)) ∧
    (let s := P30.state47
     s.chip.skim.wet.phase = WetPhase.dipIn ∧ s.chip.skim.wet.start + s.chip.skim.wet.len ≤ s.chip.time.stc -
         s.chip.bsize) ∧
    (let s := State.reset
     (s.chip.skim.wet.phase ≠ WetPhase.dipIn ∨ s.chip.time.stc - s.chip.bsize < s.chip.skim.wet.start +
         s.chip.skim.wet.len)) := by
  refine ⟨?_, ?_, ?_, ?_, ?_, ?_, ?_, ?_, ?_, ?_, ?_, ?_, ?_, ?_, ?_, ?_, ?_, ?_, ?_, ?_, ?_, ?_, ?_⟩
  all_goals decide +kernel

/-- What SafeLoadsAndExchange asks for is met. -/
theorem test_meets_SafeLoadsAndExchange :
    (let r : Req := { path := Path.mailbox 0 0, txn := 0x1#16 }; let a : Nat := 16; let slot : Fin 256 := 0
     let s := P30.state62
     Writes r a (Obj.skimSafeLoadCommit slot.val) [1] s ∧ safeLoadResult (judged r.path s).chip slot.val = 2) ∧
    (let r : Req := { path := Path.mailbox 0 0, txn := 0x1#16 }; let a : Nat := 16; let slot : Fin 256 := 0
     let s := State.reset
     Writes r a (Obj.skimSafeLoadCommit slot.val) [1] s ∧ safeLoadResult (judged r.path s).chip slot.val = 1) ∧
    (let r : Req := { path := Path.mailbox 0 0, txn := 0x1#16 }; let a : Nat := 16; let slot : Fin 256 := 0
     let s := P30.state64
     Writes r a (Obj.skimSafeLoadCommit slot.val) [1] s ∧ safeLoadResult (judged r.path s).chip slot.val = 6) ∧
    (let r : Req := { path := Path.mailbox 0 0, txn := 0x1#16 }; let a : Nat := 16; let slot : Fin 256 := 0
     let s := P30.state65
     Writes r a (Obj.skimSafeLoadCommit slot.val) [1] s ∧ safeLoadResult (judged r.path s).chip slot.val = 7) ∧
    (let r : Req := { path := Path.mailbox 0 0, txn := 0x1#16 }; let a : Nat := 16; let slot : Fin 256 := 0
     let s := P30.state61
     Writes r a (Obj.skimSafeLoadCommit slot.val) [1] s ∧ safeLoadResult (judged r.path s).chip slot.val = 0) ∧
    (let r : Req := { path := Path.mailbox 0 0, txn := 0x1#16 }; let a : Nat := 16; let slot : Fin 256 := 0
     let s := P30.state65
     let x : LoadSet := ((some ((judged r.path s).chip.setOf slot.val)).join).get (by decide +kernel)
     Writes r a (Obj.skimSafeLoadCommit slot.val) [2] s ∧ (judged r.path s).chip.setOf slot.val = some x ∧ x.taken =
         none) ∧
    (let r : Req := { path := Path.mailbox 0 0, txn := 0x1#16 }; let a : Nat := 16; let slot : Fin 256 := 0
     let s := P30.state68
     let x : LoadSet := ((some ((judged r.path s).chip.setOf slot.val)).join).get (by decide +kernel)
     Writes r a (Obj.skimSafeLoadCommit slot.val) [2] s ∧ (judged r.path s).chip.setOf slot.val = some x ∧ x.taken ≠
         none) ∧
    (let r : Req := { path := Path.mailbox 0 0, txn := 0x1#16 }; let a : Nat := 16; let slot : Fin 256 := 0
     let s := P30.state69
     Writes r a (Obj.skimSafeLoadCommit slot.val) [2] s ∧ (judged r.path s).chip.setOf slot.val = none ∧ (judged
         r.path s).chip.num (Obj.skimSafeLoadStatus slot.val) % 128 = 4) ∧
    (let r : Req := { path := Path.mailbox 0 0, txn := 0x1#16 }; let a : Nat := 16; let slot : Fin 256 := 0
     let s := State.reset
     Writes r a (Obj.skimSafeLoadCommit slot.val) [2] s ∧ (judged r.path s).chip.setOf slot.val = none ∧ (judged
         r.path s).chip.num (Obj.skimSafeLoadStatus slot.val) % 128 ≠ 4) ∧
    (let s := State.reset
     s.chip.time.stc < s.chip.bsize) ∧
    (let s := P30.state1
     s.chip.bsize ≤ s.chip.time.stc ∧ (∀ x ∈ s.chip.skim.sets, x.taken ≠ none ∨ s.chip.time.stc - s.chip.bsize <
         x.due)) ∧
    (let s := P30.state66; let x : LoadSet := (s.chip.skim.sets.head?).get (by decide +kernel); let i : Nat := 0
     s.chip.bsize ≤ s.chip.time.stc ∧ s.chip.skim.sets = [x] ∧ x.taken = none ∧ x.due ≤ s.chip.time.stc - s.chip.bsize
         ∧ x.slot = some i) ∧
    (let r : Req := { path := Path.mailbox 0 0, txn := 0x1#16 }; let a : Nat := 16; let unit : Fin 1536 := 0
     let param : Fin 8 := 0; let value : BitVec 32 := 0x0#32; let s := State.reset; let o : Nat := 823132161
     screedParam (unit.val * 4096 + param.val) = some o ∧ Writes r a o (leBytes (objWidth o) value.toNat) s ∧
         screedMay (judged r.path s).chip unit.val a = true) ∧
    (let r : Req := { path := Path.mailbox 0 0, txn := 0x1#16 }; let a : Nat := 16; let unit : Fin 1536 := 0
     let param : Fin 8 := 0; let value : BitVec 32 := 0x0#32; let s := P30.state71; let o : Nat := 823132161
     screedParam (unit.val * 4096 + param.val) = some o ∧ Writes r a o (leBytes (objWidth o) value.toNat) s ∧
         screedMay (judged r.path s).chip unit.val a = false) ∧
    (let unit : Fin 1536 := 256; let param : Fin 8 := 2
     screedParam (unit.val * 4096 + param.val) = none) ∧
    (let r : Req := { path := Path.mailbox 0 0, txn := 0x1#16 }; let a : Nat := 16; let x : Fin 512 := 0
     let dir : Fin 3 := 0; let s := P30.state72
     Writes r a (Obj.skimExchangeDir x.val) [BitVec.ofNat 8 dir.val] s ∧ (judged r.path s).chip.may 14 x.val a 1 =
         false) ∧
    (let r : Req := { path := Path.mailbox 0 0, txn := 0x1#16 }; let a : Nat := 16; let x : Fin 512 := 0
     let dir : Fin 3 := 0; let s := State.reset
     Writes r a (Obj.skimExchangeDir x.val) [BitVec.ofNat 8 dir.val] s ∧ (judged r.path s).chip.may 14 x.val a 1 =
         true ∧ dir = 0) ∧
    (let r : Req := { path := Path.mailbox 0 0, txn := 0x1#16 }; let a : Nat := 16; let x : Fin 512 := 0
     let dir : Fin 3 := 2; let s := State.reset
     Writes r a (Obj.skimExchangeDir x.val) [BitVec.ofNat 8 dir.val] s ∧ (judged r.path s).chip.may 14 x.val a 1 =
         true ∧ dir ≠ 0 ∧ (judged r.path s).chip.exchangeTask x.val = none) ∧
    (let r : Req := { path := Path.mailbox 0 0, txn := 0x1#16 }; let a : Nat := 16; let x : Fin 512 := 0
     let dir : Fin 3 := 2; let s := P30.state74; let t : Nat := 5
     Writes r a (Obj.skimExchangeDir x.val) [BitVec.ofNat 8 dir.val] s ∧ (judged r.path s).chip.may 14 x.val a 1 =
         true ∧ dir ≠ 0 ∧ (judged r.path s).chip.exchangeTask x.val = some t ∧ (judged r.path s).chip.num
         (Obj.skimExchangeDir x.val) ≠ 0) ∧
    (let r : Req := { path := Path.mailbox 0 0, txn := 0x1#16 }; let a : Nat := 16; let x : Fin 512 := 0
     let dir : Fin 3 := 2; let s := P30.state73; let t : Nat := 5; let p : Nat := 4193216
     Writes r a (Obj.skimExchangeDir x.val) [BitVec.ofNat 8 dir.val] s ∧ (judged r.path s).chip.may 14 x.val a 1 =
         true ∧ dir ≠ 0 ∧ (judged r.path s).chip.exchangeTask x.val = some t ∧ (judged r.path s).chip.num
         (Obj.skimExchangeDir x.val) = 0 ∧ (judged r.path s).chip.exchangePlace ((judged r.path s).chip.num
         (Obj.trowelTaskCore t) / 16) = some p) := by
  refine ⟨?_, ?_, ?_, ?_, ?_, ?_, ?_, ?_, ?_, ?_, ?_, ?_, ?_, ?_, ?_, ?_, ?_, ?_, ?_, ?_⟩
  all_goals decide +kernel

/-- What PacketsFromChips asks for is met. -/
theorem test_meets_PacketsFromChips :
    (let m : BitVec 64 := 0x0#64; let epoch : BitVec 32 := 0x0#32; let s := State.reset
     (s.chip.busPort 1 m.toNat = false ∨ epoch.toNat ≠ s.chip.epochOf m.toNat ∨ m.toNat + s.chip.presentDelay <
         s.chip.skim.passed)) ∧
    (let m : BitVec 64 := 0x0#64; let epoch : BitVec 32 := 0x0#32; let s := State.reset
     (s.chip.busPort 0 m.toNat = false ∨ epoch.toNat ≠ s.chip.epochOf m.toNat ∨ m.toNat + s.chip.presentDelay <
         s.chip.skim.passed)) ∧
    (let m : BitVec 64 := 0x0#64; let epoch : BitVec 32 := 0x0#32; let s := P30.state75
     (¬(s.chip.busPort 1 m.toNat = false ∨ epoch.toNat ≠ s.chip.epochOf m.toNat ∨ m.toNat + s.chip.presentDelay <
         s.chip.skim.passed)) ∧ s.chip.skim.passed ≤ m.toNat) ∧
    (let m : BitVec 64 := 0x0#64; let epoch : BitVec 32 := 0x0#32; let s := P30.state75
     (¬(s.chip.busPort 0 m.toNat = false ∨ epoch.toNat ≠ s.chip.epochOf m.toNat ∨ m.toNat + s.chip.presentDelay <
         s.chip.skim.passed)) ∧ s.chip.skim.passed ≤ m.toNat) ∧
    (let m : BitVec 64 := 0x0#64; let epoch : BitVec 32 := 0x0#32; let s := P30.state77
     (¬(s.chip.busPort 1 m.toNat = false ∨ epoch.toNat ≠ s.chip.epochOf m.toNat ∨ m.toNat + s.chip.presentDelay <
         s.chip.skim.passed)) ∧ m.toNat < s.chip.skim.passed ∧ s.chip.busPort 0 m.toNat = true) ∧
    (let m : BitVec 64 := 0x0#64; let epoch : BitVec 32 := 0x0#32; let s := State.reset
     (s.chip.busPort 1 m.toNat = false ∨ epoch.toNat ≠ s.chip.epochOf m.toNat ∨ m.toNat < s.chip.chain.stemShown)) ∧
    (let m : BitVec 64 := 0x0#64; let epoch : BitVec 32 := 0x0#32; let s := State.reset
     (s.chip.busPort 0 m.toNat = false ∨ epoch.toNat ≠ s.chip.epochOf m.toNat ∨ m.toNat < s.chip.chain.stemShown)) ∧
    (let m : BitVec 64 := 0x0#64; let epoch : BitVec 32 := 0x0#32; let s := P30.state75
     (¬(s.chip.busPort 1 m.toNat = false ∨ epoch.toNat ≠ s.chip.epochOf m.toNat ∨ m.toNat < s.chip.chain.stemShown))) ∧
    (let m : BitVec 64 := 0x0#64; let epoch : BitVec 32 := 0x0#32; let s := P30.state75
     (¬(s.chip.busPort 0 m.toNat = false ∨ epoch.toNat ≠ s.chip.epochOf m.toNat ∨ m.toNat < s.chip.chain.stemShown))) ∧
    (let chip : Byte := 0x1#8; let s := P30.state78
     inView s.chip (BitVec.toNat chip) = true ∧ BitVec.toNat chip ≠ s.chip.me) ∧
    (let chip : Byte := 0x0#8; let s := State.reset
     (inView s.chip (BitVec.toNat chip) = false ∨ BitVec.toNat chip = s.chip.me)) ∧
    (let message : List Byte := []
     bit (field message 0 1) 7 = false) ∧
    (let message : List Byte := [0x81#8, 0x0#8, 0x1#8, 0x0#8, 0x0#8, 0x0#8, 0x0#8, 0x0#8, 0x0#8, 0x0#8, 0x0#8, 0x0#8,
         0x0#8, 0x0#8, 0x0#8, 0x0#8]
     let s := State.reset
     bit (field message 0 1) 7 = true ∧ s.chip.work.awaited = []) ∧
    (let chip : Byte := 0x1#8
     let message : List Byte := [0x81#8, 0x0#8, 0x1#8, 0x0#8, 0x0#8, 0x0#8, 0x0#8, 0x0#8, 0x0#8, 0x0#8, 0x0#8, 0x0#8,
         0x0#8, 0x0#8, 0x0#8, 0x0#8]
     let s := P30.state81
     let w : Awaited :=
         { path := Path.mailbox 0 0, txn := 1, op := 1, object := 0, offset := 0, length := 0, dst := 1, at_ := 0 }
     bit (field message 0 1) 7 = true ∧ s.chip.work.awaited = [w] ∧ w.dst = BitVec.toNat chip ∧ w.txn = field message
         2 2 ∧ w.op + 128 = field message 0 1) := by
  refine ⟨?_, ?_, ?_, ?_, ?_, ?_, ?_, ?_, ?_, ?_, ?_, ?_, ?_, ?_⟩
  all_goals decide +kernel

/-- What DrivesAndExtents asks for is met. -/
theorem test_meets_DrivesAndExtents :
    (let found : FoundDrive :=
         { port := 0, link := 0, down := 15, meets := true, isNvme := false, width := 4, generation := 4, serial := [] }
     found.isNvme = false) ∧
    (let found : FoundDrive :=
         { port := 0, link := 0, down := 15, meets := true, isNvme := true, width := 4, generation := 4, serial := [] }
     let s := P31.state1
     found.isNvme = true ∧ (∀ d < 12, s.chip.num (Obj.hodDriveState d) ≠ 0 ∧ s.chip.num (Obj.hodDriveLocation d) ≠
         ↑found.port * 256 + ↑found.link * 16 + ↑found.down)) ∧
    (let found : FoundDrive :=
         { port := 0, link := 0, down := 15, meets := true, isNvme := true, width := 4, generation := 4, serial := [] }
     let s := State.reset
     found.isNvme = true ∧ found.meets = true ∧ (∀ d < 12, s.chip.num (Obj.hodDriveState d) = 0) ∧ s.chip.num
         (Obj.hodDriveRetired 0) = 0) ∧
    (let port : Fin 4 := 0; let link : Fin 4 := 0; let s := State.reset
     s.chip.linkDrives port.val link.val = []) ∧
    (let port : Fin 4 := 0; let link : Fin 4 := 0; let s := P31.state2; let d : Nat := 3
     s.chip.linkDrives port.val link.val = [d] ∧ ((List.filter (fun t => decide (s.chip.now < t + 1000000000))
         (s.chip.drive d).linkDowns).length < 3)) ∧
    (let port : Fin 4 := 0; let link : Fin 4 := 0; let s := P31.state3; let d : Nat := 3
     s.chip.linkDrives port.val link.val = [d] ∧ (3 ≤ (List.filter (fun t => decide (s.chip.now < t + 1000000000))
         (s.chip.drive d).linkDowns).length)) ∧
    (let d : Fin 12 := 0; let s := State.reset
     s.chip.num (Obj.hodDriveState d.val) ≠ 1 ∧ s.chip.num (Obj.hodDriveState d.val) ≠ 2) ∧
    (let d : Fin 12 := 0; let s := P31.state5
     (s.chip.num (Obj.hodDriveState d.val) = 1 ∨ s.chip.num (Obj.hodDriveState d.val) = 2) ∧ (s.chip.drive
         d.val).controllerReset = true) ∧
    (let d : Fin 12 := 0; let s := P31.state1
     (s.chip.num (Obj.hodDriveState d.val) = 1 ∨ s.chip.num (Obj.hodDriveState d.val) = 2) ∧ (s.chip.drive
         d.val).controllerReset = false) ∧
    (let r : Req := { path := Path.mailbox 0 0, txn := 0x1#16 }; let a : Nat := 16; let d : Fin 12 := 0
     let s := P31.state7
     Writes r a (Obj.hodDriveRetired d.val) [0] s ∧ (judged r.path s).chip.may 1 64 a 3 = false) ∧
    (let r : Req := { path := Path.mailbox 0 0, txn := 0x1#16 }; let a : Nat := 16; let d : Fin 12 := 0
     let s := P31.state6
     Writes r a (Obj.hodDriveRetired d.val) [0] s ∧ (judged r.path s).chip.may 1 64 a 3 = true ∧ (judged r.path
         s).chip.flag (Obj.hodDriveRetired d.val) = true) ∧
    (let volume : Fin 65536 := 7; let object : BitVec 32 := 0x5#32; let index : BitVec 32 := 0x0#32
     let s := P31.state9; let x : Read := (s.chip.hod.reads.head?).get (by decide +kernel); let slot : Nat := 0
     x.volume = volume.val ∧ x.object = object.toNat ∧ x.index = index.toNat ∧ x.server = none ∧ s.chip.volumeSlot
         volume.val = some slot ∧ s.chip.hod.reads = [x] ∧ x.attempts < 3) ∧
    (let s := State.reset
     (∀ x ∈ s.chip.hod.reads, x.server ≠ none ∨ s.chip.now < x.issued + 50000000)) ∧
    (let s := P31.state10; let x : Read := (s.chip.hod.reads.head?).get (by decide +kernel); let slot : Nat := 0
     s.chip.hod.reads = [x] ∧ x.server = none ∧ x.issued + 50000000 ≤ s.chip.now ∧ s.chip.volumeSlot x.volume = some
         slot) ∧
    (let s := State.reset
     (∀ x ∈ s.chip.hod.reads, x.server = none ∨ s.chip.now < x.issued + 2000000)) ∧
    (let s := P31.state11; let x : Read := (s.chip.hod.reads.head?).get (by decide +kernel)
     s.chip.hod.reads = [x] ∧ x.server ≠ none ∧ x.issued + 2000000 ≤ s.chip.now ∧ (List.find? (fun m =>
         !x.tried.contains m) (s.chip.servers x.volume) = none)) ∧
    (let s := P31.state12; let x : Read := (s.chip.hod.reads.head?).get (by decide +kernel); let m : Nat := 3
     s.chip.hod.reads = [x] ∧ x.server ≠ none ∧ x.issued + 2000000 ≤ s.chip.now ∧ (List.find? (fun m =>
         !x.tried.contains m) (s.chip.servers x.volume) = some m)) ∧
    (let fields : List Nat := []; let s := State.reset
     s.chip.volumeSlot (fields.getD 0 0) = none) ∧
    (let fields : List Nat := [7, 5, 0, 9]; let s := P31.state16; let slot : Nat := 0
     s.chip.volumeSlot (fields.getD 0 0) = some slot ∧ s.chip.flag (Obj.hodVolumeServe slot) = false) ∧
    (let fields : List Nat := [7, 5, 0, 9]; let s := P31.state14; let slot : Nat := 0
     let x : Extent := { volume := 7, object := 5, index := 0, data := [0x1#8, 0x2#8], used := 0, pinned := false }
     s.chip.volumeSlot (fields.getD 0 0) = some slot ∧ s.chip.flag (Obj.hodVolumeServe slot) = true ∧ s.chip.num
         (Obj.hodVolumeState slot) ≠ 5 ∧ (tget { } (s.chip.volume slot).dir (fields.getD 1 0)).state = 1 ∧ fields.getD
         2 0 < (tget { } (s.chip.volume slot).dir (fields.getD 1 0)).extents ∧ s.chip.extentBad (fields.getD 0 0)
         (fields.getD 1 0) (fields.getD 2 0) = false ∧ s.chip.cached (fields.getD 0 0) (fields.getD 1 0) (fields.getD
         2 0) = some x) ∧
    (let fields : List Nat := [7, 5, 0, 9]; let s := P31.state9; let slot : Nat := 0
     s.chip.volumeSlot (fields.getD 0 0) = some slot ∧ s.chip.flag (Obj.hodVolumeServe slot) = true ∧ s.chip.num
         (Obj.hodVolumeState slot) ≠ 5 ∧ (tget { } (s.chip.volume slot).dir (fields.getD 1 0)).state = 1 ∧ fields.getD
         2 0 < (tget { } (s.chip.volume slot).dir (fields.getD 1 0)).extents ∧ s.chip.extentBad (fields.getD 0 0)
         (fields.getD 1 0) (fields.getD 2 0) = false ∧ s.chip.cached (fields.getD 0 0) (fields.getD 1 0) (fields.getD
         2 0) = none ∧ s.chip.inFlight (fields.getD 0 0) (fields.getD 1 0) (fields.getD 2 0) = true) ∧
    (let fields : List Nat := [7, 5, 0, 9]; let s := P31.state8; let slot : Nat := 0
     s.chip.volumeSlot (fields.getD 0 0) = some slot ∧ s.chip.flag (Obj.hodVolumeServe slot) = true ∧ s.chip.num
         (Obj.hodVolumeState slot) ≠ 5 ∧ (tget { } (s.chip.volume slot).dir (fields.getD 1 0)).state = 1 ∧ fields.getD
         2 0 < (tget { } (s.chip.volume slot).dir (fields.getD 1 0)).extents ∧ s.chip.extentBad (fields.getD 0 0)
         (fields.getD 1 0) (fields.getD 2 0) = false ∧ s.chip.cached (fields.getD 0 0) (fields.getD 1 0) (fields.getD
         2 0) = none ∧ s.chip.inFlight (fields.getD 0 0) (fields.getD 1 0) (fields.getD 2 0) = false) ∧
    (let s := State.reset
     s.chip.hod.reads = []) ∧
    (let chip : Byte := 0x2#8; let fields : List Nat := [7, 5, 0, 9]; let s := P31.state11
     let x : Read := (s.chip.hod.reads.head?).get (by decide +kernel)
     s.chip.hod.reads = [x] ∧ x.volume = fields.getD 0 0 ∧ x.object = fields.getD 1 0 ∧ x.index = fields.getD 2 0 ∧
         BitVec.toNat chip ∈ x.tried) ∧
    (let slot : Nat := 0
     slot < 16) := by
  refine ⟨?_, ?_, ?_, ?_, ?_, ?_, ?_, ?_, ?_, ?_, ?_, ?_, ?_, ?_, ?_, ?_, ?_, ?_, ?_, ?_, ?_, ?_, ?_, ?_, ?_⟩
  all_goals decide +kernel

/-- What VolumesAndImports asks for is met. -/
theorem test_meets_VolumesAndImports :
    (let r : Req := { path := Path.mailbox 0 0, txn := 0x1#16 }; let a : Nat := 16; let slot : Fin 16 := 0
     let s := State.reset
     Writes r a (Obj.hodVolumeMount slot.val) [1] s ∧ ((judged r.path s).chip.num (Obj.hodVolumeState slot.val) = 0 ∨
         (judged r.path s).chip.num (Obj.hodVolumeState slot.val) = 4 ∨ (judged r.path s).chip.num (Obj.hodVolumeState
         slot.val) = 6)) ∧
    (let r : Req := { path := Path.mailbox 0 0, txn := 0x1#16 }; let a : Nat := 16; let slot : Fin 16 := 0
     let s := P31.state8
     Writes r a (Obj.hodVolumeMount slot.val) [1] s ∧ ((judged r.path s).chip.num (Obj.hodVolumeState slot.val) = 1 ∨
         (judged r.path s).chip.num (Obj.hodVolumeState slot.val) = 2 ∨ (judged r.path s).chip.num (Obj.hodVolumeState
         slot.val) = 3 ∨ (judged r.path s).chip.num (Obj.hodVolumeState slot.val) = 5)) ∧
    (let r : Req := { path := Path.mailbox 0 0, txn := 0x1#16 }; let a : Nat := 16; let slot : Fin 16 := 0
     let s := P31.state20
     Writes r a (Obj.hodVolumeMount slot.val) [0] s ∧ (judged r.path s).chip.may 21 slot.val a 3 = false) ∧
    (let r : Req := { path := Path.mailbox 0 0, txn := 0x1#16 }; let a : Nat := 16; let slot : Fin 16 := 0
     let s := P31.state30
     Writes r a (Obj.hodVolumeMount slot.val) [0] s ∧ (judged r.path s).chip.may 21 slot.val a 3 = true ∧ (judged
         r.path s).chip.mounted slot.val = true ∧ (((judged r.path s).chip.cursorList.any fun x => x.2.volume ==
         (judged r.path s).chip.num (Obj.hodVolumeNumber slot.val) && !x.2.remote) = true)) ∧
    (let r : Req := { path := Path.mailbox 0 0, txn := 0x1#16 }; let a : Nat := 16; let slot : Fin 16 := 0
     let s := State.reset
     Writes r a (Obj.hodVolumeMount slot.val) [0] s ∧ (judged r.path s).chip.may 21 slot.val a 3 = true ∧ (judged
         r.path s).chip.mounted slot.val = false ∧ (judged r.path s).chip.hod.import_.isOpen = false) ∧
    (let r : Req := { path := Path.mailbox 0 0, txn := 0x1#16 }; let a : Nat := 16; let slot : Fin 16 := 0
     let s := P31.state8
     Writes r a (Obj.hodVolumeMount slot.val) [0] s ∧ (judged r.path s).chip.may 21 slot.val a 3 = true ∧ (judged
         r.path s).chip.mounted slot.val = true ∧ (judged r.path s).chip.hod.import_.isOpen = false ∧ (((judged r.path
         s).chip.cursorList.any fun x => x.2.volume == (judged r.path s).chip.num (Obj.hodVolumeNumber slot.val) &&
         !x.2.remote) = false)) ∧
    (let r : Req := { path := Path.mailbox 0 0, txn := 0x1#16 }; let a : Nat := 16; let slot : Fin 16 := 0
     let s := P31.state20
     Writes r a (Obj.hodVolumeMount slot.val) [3] s ∧ (judged r.path s).chip.may 21 slot.val a 3 = false) ∧
    (let r : Req := { path := Path.mailbox 0 0, txn := 0x1#16 }; let a : Nat := 16; let slot : Fin 16 := 0
     let s := P31.state8
     Writes r a (Obj.hodVolumeMount slot.val) [3] s ∧ (judged r.path s).chip.may 21 slot.val a 3 = true ∧ (judged
         r.path s).chip.num (Obj.hodVolumeState slot.val) ≠ 0 ∧ (judged r.path s).chip.num (Obj.hodVolumeState
         slot.val) ≠ 4) ∧
    (let r : Req := { path := Path.mailbox 0 0, txn := 0x1#16 }; let a : Nat := 16; let slot : Fin 16 := 0
     let s := State.reset
     Writes r a (Obj.hodVolumeMount slot.val) [3] s ∧ (judged r.path s).chip.may 21 slot.val a 3 = true ∧ ((judged
         r.path s).chip.num (Obj.hodVolumeState slot.val) = 0 ∨ (judged r.path s).chip.num (Obj.hodVolumeState
         slot.val) = 4)) ∧
    (let r : Req := { path := Path.mailbox 0 0, txn := 0x1#16 }; let a : Nat := 16; let slot : Fin 16 := 0
     let s := State.reset; let on : Bool := false
     (Writes r a (Obj.hodVolumePreload slot.val) [if on = true then 1 else 0] s) ∧ (judged r.path s).chip.flag
         (Obj.hodVolumePreload slot.val) = on) ∧
    (let r : Req := { path := Path.mailbox 0 0, txn := 0x1#16 }; let a : Nat := 16; let slot : Fin 16 := 0
     let s := P31.state8
     Writes r a (Obj.hodVolumePreload slot.val) [1] s ∧ (judged r.path s).chip.flag (Obj.hodVolumePreload slot.val) =
         false ∧ (judged r.path s).chip.num (Obj.hodVolumeState slot.val) = 2) ∧
    (let r : Req := { path := Path.mailbox 0 0, txn := 0x1#16 }; let a : Nat := 16; let slot : Fin 16 := 0
     let s := P31.state22
     Writes r a (Obj.hodVolumePreload slot.val) [0] s ∧ (judged r.path s).chip.flag (Obj.hodVolumePreload slot.val) =
         true) ∧
    (let slot : Fin 16 := 0; let s := State.reset
     (s.chip.num (Obj.hodVolumeState slot.val) ≠ 1 ∨ s.chip.num (Obj.hodVolumeMount slot.val) ≠ 1)) ∧
    (let slot : Fin 16 := 0; let s := P31.state18
     s.chip.num (Obj.hodVolumeState slot.val) = 1 ∧ s.chip.num (Obj.hodVolumeMount slot.val) = 1) ∧
    (let slot : Fin 16 := 0; let s := State.reset
     s.chip.num (Obj.hodVolumeMount slot.val) ≠ 3) ∧
    (let slot : Fin 16 := 0; let s := P31.state19
     s.chip.num (Obj.hodVolumeMount slot.val) = 3) ∧
    (let r : Req := { path := Path.mailbox 0 0, txn := 0x1#16 }; let a : Nat := 16; let s := P31.state28
     Writes r a Obj.hodImportCommit [1] s ∧ (judged r.path s).chip.hod.import_.isOpen = true ∧ (judged r.path
         s).chip.hod.import_.master ≠ a) ∧
    (let r : Req := { path := Path.mailbox 0 0, txn := 0x1#16 }; let a : Nat := 16; let s := State.reset
     Writes r a Obj.hodImportCommit [1] s ∧ (judged r.path s).chip.hod.import_.isOpen = false ∧ importTarget (judged
         r.path s).chip = false) ∧
    (let r : Req := { path := Path.mailbox 0 0, txn := 0x1#16 }; let a : Nat := 16; let s := P31.state23
     Writes r a Obj.hodImportCommit [1] s ∧ (judged r.path s).chip.hod.import_.isOpen = false ∧ importTarget (judged
         r.path s).chip = true ∧ importCheck (judged r.path s).chip a = 6) ∧
    (let r : Req := { path := Path.mailbox 0 0, txn := 0x1#16 }; let a : Nat := 16; let s := P31.state24
     let e1 := dirEntry (slice ((judged r.path s).chip.blob Obj.hodImportEntry) 0 64)
     Writes r a Obj.hodImportCommit [1] s ∧ (judged r.path s).chip.hod.import_.isOpen = false ∧ importTarget (judged
         r.path s).chip = true ∧ importCheck (judged r.path s).chip a = 0 ∧ dirValid
         { e1 with state := 1, extents := (e1.length * e1.frameBytes + 65535) / 65536 } = true) ∧
    (let r : Req := { path := Path.mailbox 0 0, txn := 0x1#16 }; let a : Nat := 16; let s := State.reset
     let data : List Byte := []
     Writes r a Obj.hodImportData data s ∧ ((judged r.path s).chip.hod.import_.isOpen = false ∨ (judged r.path
         s).chip.hod.import_.finishing = true)) ∧
    (let r : Req := { path := Path.mailbox 0 0, txn := 0x1#16 }; let a : Nat := 16; let s := P31.state28
     let data : List Byte := []
     Writes r a Obj.hodImportData data s ∧ (judged r.path s).chip.hod.import_.isOpen = true ∧ (judged r.path
         s).chip.hod.import_.finishing = false ∧ (judged r.path s).chip.hod.import_.master ≠ a) ∧
    (let r : Req := { path := Path.mailbox 0 0, txn := 0x1#16 }; let a : Nat := 16; let s := P31.state26
     let data : List Byte := []
     Writes r a Obj.hodImportData data s ∧ (judged r.path s).chip.hod.import_.isOpen = true ∧ (judged r.path
         s).chip.hod.import_.finishing = false ∧ (judged r.path s).chip.hod.import_.master = a) ∧
    (let r : Req := { path := Path.mailbox 0 0, txn := 0x1#16 }; let a : Nat := 16; let s := P31.state28
     Writes r a Obj.hodImportCommit [2] s ∧ (judged r.path s).chip.hod.import_.isOpen = true ∧ (judged r.path
         s).chip.hod.import_.master ≠ a) ∧
    (let r : Req := { path := Path.mailbox 0 0, txn := 0x1#16 }; let a : Nat := 16; let s := State.reset
     Writes r a Obj.hodImportCommit [2] s ∧ (judged r.path s).chip.hod.import_.isOpen = false) ∧
    (let r : Req := { path := Path.mailbox 0 0, txn := 0x1#16 }; let a : Nat := 16; let s := P31.state26
     let e1 := (dirEntry (judged r.path s).chip.hod.import_.entry).length * (dirEntry (judged r.path
         s).chip.hod.import_.entry).frameBytes + 65535
     Writes r a Obj.hodImportCommit [2] s ∧ (judged r.path s).chip.hod.import_.isOpen = true ∧ (judged r.path
         s).chip.hod.import_.master = a ∧ (judged r.path s).chip.hod.import_.finishing = false ∧ objectOpen (judged
         r.path s).chip (judged r.path s).chip.hod.import_.slot (judged r.path s).chip.hod.import_.object = false ∧ e1
         / 65536 ≤ (freeExtents ((judged r.path s).chip.volume (judged r.path s).chip.hod.import_.slot) 0 (e1 /
         65536)).length) ∧
    (let r : Req := { path := Path.mailbox 0 0, txn := 0x1#16 }; let a : Nat := 16; let s := P31.state27
     let e1 := (dirEntry (judged r.path s).chip.hod.import_.entry).length * (dirEntry (judged r.path
         s).chip.hod.import_.entry).frameBytes + 65535
     Writes r a Obj.hodImportCommit [2] s ∧ (judged r.path s).chip.hod.import_.isOpen = true ∧ (judged r.path
         s).chip.hod.import_.master = a ∧ (judged r.path s).chip.hod.import_.finishing = false ∧ objectOpen (judged
         r.path s).chip (judged r.path s).chip.hod.import_.slot (judged r.path s).chip.hod.import_.object = false ∧
         (freeExtents ((judged r.path s).chip.volume (judged r.path s).chip.hod.import_.slot) 0 (e1 / 65536)).length <
         e1 / 65536) ∧
    (let r : Req := { path := Path.mailbox 0 0, txn := 0x1#16 }; let a : Nat := 16; let s := P31.state26
     Writes r a Obj.hodImportCommit [3] s ∧ (judged r.path s).chip.hod.import_.isOpen = true) ∧
    (let r : Req := { path := Path.mailbox 0 0, txn := 0x1#16 }; let a : Nat := 16; let s := P31.state24
     Writes r a Obj.hodImportCommit [3] s ∧ (judged r.path s).chip.hod.import_.isOpen = false ∧ importTarget (judged
         r.path s).chip = true ∧ importCheck (judged r.path s).chip a = 0) ∧
    (let s := State.reset
     s.chip.hod.import_.finishing = false) ∧
    (let s := P31.state29
     s.chip.hod.import_.finishing = true) := by
  refine ⟨?_, ?_, ?_, ?_, ?_, ?_, ?_, ?_, ?_, ?_, ?_, ?_, ?_, ?_, ?_, ?_, ?_, ?_, ?_, ?_, ?_, ?_, ?_, ?_, ?_, ?_, ?_,
    ?_, ?_, ?_, ?_⟩
  all_goals decide +kernel

/-- What MemoryErrorsAndWipe asks for is met. -/
theorem test_meets_MemoryErrorsAndWipe :
    (let inst : Fin 531 := 0; let word : BitVec 19 := 0x7ffff#19
     instWords inst.val ≤ word.toNat) ∧
    (let inst : Fin 531 := 0; let word : BitVec 19 := 0x0#19; let s := State.reset
     word.toNat < instWords inst.val ∧ ((List.filter (fun t => decide (s.chip.now < t + 10000000000)) (tget []
         s.chip.errs.fixes (2 ^ 20 * inst.val + word.toNat))).length < 2)) ∧
    (let inst : Fin 531 := 0; let word : BitVec 19 := 0x0#19; let p : Nat := 0
     word.toNat < instWords inst.val ∧ inst.val < 528 ∧ wordPlace inst.val word.toNat = some p) ∧
    (let inst : Fin 531 := 530; let word : BitVec 19 := 0x0#19; let s := P32.state3; let id : Nat := 5
     let k : List Byte := (Option.map (fun l => l.2) (some s.dust.keys[word.toNat / 8]?).join).get (by decide +kernel)
     word.toNat < instWords inst.val ∧ inst.val = 530 ∧ s.dust.keys[word.toNat / 8]? = some (id, k)) ∧
    (let inst : Fin 531 := 0; let word : BitVec 19 := 0x0#19
     word.toNat < instWords inst.val ∧ inst.val ≠ 530) ∧
    (let s := stateOf (setBlob Obj.memoryDramRetiredList (leBytes 4 0) c0); let p : BitVec 26 := 0x0#26
     (Config.dramBytes ≤ 2048 * p.toNat ∨ p.toNat ∈ s.chip.retiredPages)) ∧
    (let r : Req := { path := Path.mailbox 0 0, txn := 0x1#16 }; let a : Nat := 16; let s := State.reset
     Writes r a Obj.memoryConflictClear [1] s) ∧
    (let r : Req := { path := Path.mailbox 0 0, txn := 0x1#16 }; let a : Nat := 16; let s := State.reset
     Writes r a Obj.memoryJournalReinstate [1] s) ∧
    (let r : Req := { path := Path.mailbox 0 0, txn := 0x1#16 }; let a : Nat := 16; let s := State.reset
     Writes r a Obj.memoryDramReinstate [1] s) ∧
    (let s := State.reset
     s.dust.state ≠ DustState.wiping) ∧
    (let s := P32.state2
     s.dust.state = DustState.wiping ∧ s.dust.repeated = true) ∧
    (let s := P32.state1
     s.dust.state = DustState.wiping ∧ s.dust.repeated = false) := by
  refine ⟨?_, ?_, ?_, ?_, ?_, ?_, ?_, ?_, ?_, ?_, ?_, ?_⟩
  · decide +kernel
  · decide +kernel
  · decide +kernel
  · decide +kernel
  · decide +kernel
  · exact Or.inr (by decide +kernel)
  · decide +kernel
  · decide +kernel
  · decide +kernel
  · decide +kernel
  · decide +kernel
  · decide +kernel

/-- What BootAndUpdates asks for is met. -/
theorem test_meets_BootAndUpdates :
    (let s := P32.state8
     (s.chip.num Obj.bootState ≠ 0 ∨ s.chip.boot.started = true)) ∧
    (let rate : Option (BitVec 16) := some 0x0#16; let s := State.reset; let f : BitVec 16 := 0x0#16
     rate = some f ∧ s.chip.num Obj.bootState = 0 ∧ s.chip.boot.started = false ∧ s.chip.dramRateFor f.toNat = 0) ∧
    (let rate : Option (BitVec 16) := some 0x1900#16; let s := State.reset; let f : BitVec 16 := 0x1900#16
     rate = some f ∧ s.chip.num Obj.bootState = 0 ∧ s.chip.boot.started = false ∧ s.chip.dramRateFor f.toNat ≠ 0 ∧
         s.chip.boot.preferred ≤ 1) ∧
    (let s := putNum Obj.lifecycleLastApplied 1 (life 3 State.reset)
     s.chip.num Obj.bootState = 0 ∧ s.chip.boot.started = false ∧ s.chip.num Obj.lifecycleState ≠ s.chip.num
         Obj.lifecycleLastApplied) ∧
    (let s := P32.state8
     s.chip.num Obj.bootState ≠ 0) ∧
    (let s := P32.state9
     s.chip.num Obj.bootState = 0 ∧ s.chip.boot.started = true) ∧
    (let s := P32.state14
     s.chip.num Obj.bootState = 0 ∧ s.chip.boot.started = true ∧ s.chip.boot.warm = true) ∧
    (let s := State.reset
     (s.chip.num Obj.bootState ≠ 0 ∨ s.chip.boot.started = false)) ∧
    (let r : Req := { path := Path.mailbox 0 0, txn := 0x1#16 }; let a : Nat := 16; let s := State.reset
     Writes r a Obj.bootUpdateCommit [1] s) ∧
    (let r : Req := { path := Path.mailbox 0 0, txn := 0x1#16 }; let a : Nat := 16; let s := State.reset
     Writes r a Obj.bootCommitRollback [1] s) ∧
    (let r : Req := { path := Path.mailbox 0 0, txn := 0x1#16 }; let a : Nat := 16
     let s := stateOf (setSlot 0 (zeros 512) c0); let slot : Fin 4 := 0
     Writes r a Obj.bootRevokeKeySlot [BitVec.ofNat 8 slot.val] s ∧ imageKeySlot ((judged r.path
         s).chip.boot.slotBytes ((judged r.path s).chip.num Obj.bootSlot)) = slot.val) ∧
    (let r : Req := { path := Path.mailbox 0 0, txn := 0x1#16 }; let a : Nat := 16
     let s := stateOf (setSlot 0 (zeros 512) c0); let slot : Fin 4 := 1
     Writes r a Obj.bootRevokeKeySlot [BitVec.ofNat 8 slot.val] s ∧ imageKeySlot ((judged r.path
         s).chip.boot.slotBytes ((judged r.path s).chip.num Obj.bootSlot)) ≠ slot.val) := by
  refine ⟨?_, ?_, ?_, ?_, ?_, ?_, ?_, ?_, ?_, ?_, ?_, ?_⟩
  all_goals decide +kernel

/-- What PowerLifeCycleAndKeys asks for is met. -/
theorem test_meets_PowerLifeCycleAndKeys :
    (let s := P32.state17; let since : Nat := 0
     s.chip.boot.idleSince = some since ∧ s.chip.num Obj.powerQuietEnable ≠ 0 ∧ s.chip.num Obj.powerState = 0 ∧
         s.chip.nothingRuns = true ∧ since + s.chip.num Obj.powerQuietDelayMs * 1000000 ≤ s.chip.now) ∧
    (let s := State.reset
     (s.chip.boot.idleSince = none ∨ s.chip.num Obj.powerQuietEnable = 0 ∨ s.chip.num Obj.powerState ≠ 0 ∨
         s.chip.nothingRuns = false)) ∧
    (let r : Req := { path := Path.mailbox 0 0, txn := 0x1#16 }; let a : Nat := 16; let s := P32.state19
     Writes r a Obj.powerRequest [2] s ∧ ((judged r.path s).chip.hawk.voices ≠ [] ∨ (judged r.path
         s).chip.trowel.tasks ≠ [] ∨ (judged r.path s).chip.skim.wet.phase ≠ WetPhase.idle ∨ (judged r.path
         s).chip.hod.import_.isOpen = true ∨ (judged r.path s).chip.hod.import_.finishing = true)) ∧
    (let r : Req := { path := Path.mailbox 0 0, txn := 0x1#16 }; let a : Nat := 16; let s := State.reset
     Writes r a Obj.powerRequest [2] s ∧ (judged r.path s).chip.hawk.voices = [] ∧ (judged r.path s).chip.trowel.tasks
         = [] ∧ (judged r.path s).chip.skim.wet.phase = WetPhase.idle ∧ (judged r.path s).chip.hod.import_.isOpen =
         false ∧ (judged r.path s).chip.hod.import_.finishing = false) ∧
    (let source : WakeSource := WakeSource.pin; let s := State.reset
     (s.chip.num Obj.powerState ≠ 2 ∨ s.chip.wakes source = false)) ∧
    (let source : WakeSource := WakeSource.pin; let s := P32.state18
     s.chip.num Obj.powerState = 2 ∧ s.chip.wakes source = true) ∧
    (let r : Req := { path := Path.mailbox 0 0, txn := 0x1#16 }; let a : Nat := 16; let next : Fin 5 := 1
     let s := life 2 State.reset
     Writes r a Obj.lifecycleAdvance [BitVec.ofNat 8 next.val] s ∧ (judged r.path s).chip.boot.due = none ∧ (next.val
         ≤ (judged r.path s).chip.num Obj.lifecycleState ∨ next.val ≠ (judged r.path s).chip.num Obj.lifecycleState +
         1 ∧ next.val ≠ 4)) ∧
    (let r : Req := { path := Path.mailbox 0 0, txn := 0x1#16 }; let a : Nat := 16; let next : Fin 5 := 1
     let s := life 0 (State.reset)
     Writes r a Obj.lifecycleAdvance [BitVec.ofNat 8 next.val] s ∧ (judged r.path s).chip.boot.due = none ∧ (judged
         r.path s).chip.num Obj.lifecycleState < next.val ∧ (next.val = (judged r.path s).chip.num Obj.lifecycleState
         + 1 ∨ next.val = 4) ∧ (next.val ≠ 3 ∨ (judged r.path s).chip.num Obj.lifecycleState ≠ 2)) ∧
    (let r : Req := { path := Path.mailbox 0 0, txn := 0x1#16 }; let a : Nat := 16; let id : BitVec 32 := 0x0#32
     let wrapped := P32.octets1; let s := life 1 (P32.state1)
     Writes r a Obj.keyInstall (leBytes 4 id.toNat ++ wrapped) s ∧ ((judged r.path s).chip.num Obj.lifecycleState = 3
         ∨ s.dust.locked = true ∨ s.dust.state = DustState.wiping)) ∧
    (let r : Req := { path := Path.mailbox 0 0, txn := 0x1#16 }; let a : Nat := 16; let id : BitVec 32 := 0x0#32
     let wrapped := P32.octets1; let s := life 1 (State.reset)
     Writes r a Obj.keyInstall (leBytes 4 id.toNat ++ wrapped) s ∧ (judged r.path s).chip.num Obj.lifecycleState ≠ 3 ∧
         s.dust.locked = false ∧ s.dust.state ≠ DustState.wiping ∧ id.toNat = 0) ∧
    (let r : Req := { path := Path.mailbox 0 0, txn := 0x1#16 }; let a : Nat := 16; let id : BitVec 32 := 0x5#32
     let wrapped := P32.octets1; let s := life 1 (P32.state3)
     Writes r a Obj.keyInstall (leBytes 4 id.toNat ++ wrapped) s ∧ (judged r.path s).chip.num Obj.lifecycleState ≠ 3 ∧
         s.dust.locked = false ∧ s.dust.state ≠ DustState.wiping ∧ id.toNat ≠ 0 ∧ (4096 ≤ List.length s.dust.keys ∨
         tget [] s.dust.keys id.toNat ≠ [])) ∧
    (let r : Req := { path := Path.mailbox 0 0, txn := 0x1#16 }; let a : Nat := 16; let id : BitVec 32 := 0x1#32
     let wrapped := P32.octets1; let s := life 1 (State.reset)
     Writes r a Obj.keyInstall (leBytes 4 id.toNat ++ wrapped) s ∧ (judged r.path s).chip.num Obj.lifecycleState ≠ 3 ∧
         s.dust.locked = false ∧ s.dust.state ≠ DustState.wiping ∧ id.toNat ≠ 0 ∧ List.length s.dust.keys < 4096 ∧
         tget [] s.dust.keys id.toNat = []) ∧
    (let r : Req := { path := Path.mailbox 0 0, txn := 0x1#16 }; let a : Nat := 16; let id : BitVec 32 := 0x0#32
     let s := P32.state1
     Writes r a Obj.keyRemove (leBytes 4 id.toNat) s ∧ (s.dust.locked = true ∨ s.dust.state = DustState.wiping)) ∧
    (let r : Req := { path := Path.mailbox 0 0, txn := 0x1#16 }; let a : Nat := 16; let id : BitVec 32 := 0x0#32
     let s := State.reset
     Writes r a Obj.keyRemove (leBytes 4 id.toNat) s ∧ tget [] s.dust.keys id.toNat = [] ∧ tget [] s.dust.store
         id.toNat = []) ∧
    (let r : Req := { path := Path.mailbox 0 0, txn := 0x1#16 }; let a : Nat := 16; let id : BitVec 32 := 0x5#32
     let s := P32.state3; let j : Nat := 0
     Writes r a Obj.keyRemove (leBytes 4 id.toNat) s ∧ s.dust.locked = false ∧ s.dust.state ≠ DustState.wiping ∧ tget
         [] s.dust.keys id.toNat ≠ [] ∧ j ≠ id.toNat) := by
  refine ⟨?_, ?_, ?_, ?_, ?_, ?_, ?_, ?_, ?_, ?_, ?_, ?_, ?_, ?_, ?_⟩
  all_goals decide +kernel

/-- What KolefCommands asks for is met. -/
theorem test_meets_KolefCommands :
    (let s := P32k.state20
     s.chip.boot.img ≠ none) ∧
    (let s := P32k.state22; let frac : Byte := 0x0#8
     s.chip.boot.img = none ∧ s.chip.inRecovery = true ∧ (KolefCmd.stc, Instr.kolefStc frac).1.inRom = false) ∧
    (let s := P32k.state22; let tenant : Option (Fin 16) := none; let count : BitVec 7 := 0x0#7
     s.chip.boot.img = none ∧ s.chip.inRecovery = true ∧ (KolefCmd.log, Instr.kolefLog tenant count).1.inRom = false) ∧
    (let s := P32k.state22; let object : BitVec 32 := 0x0#32
     s.chip.boot.img = none ∧ s.chip.inRecovery = true ∧ (KolefCmd.rd, Instr.kolefRd object).1.inRom = false) ∧
    (let s := P32k.state22; let object : BitVec 32 := 0x0#32; let data : List Byte := [0x1#8]
     s.chip.boot.img = none ∧ s.chip.inRecovery = true ∧ (KolefCmd.wr, Instr.kolefWr object data).1.inRom = false) ∧
    (let s := life 2 State.reset
     s.chip.boot.img = none ∧ (s.chip.inRecovery = false ∨ (KolefCmd.lc, Instr.kolefLc).1.inRom = true) ∧
         KolefCmd.allowed s.chip.kolefLevel (KolefCmd.lc, Instr.kolefLc).1 = false) ∧
    (let s := life 2 State.reset; let b : Bool := true; let n : BitVec 32 := 0x0#32
     s.chip.boot.img = none ∧ (s.chip.inRecovery = false ∨ (KolefCmd.img, Instr.kolefImg b n).1.inRom = true) ∧
         KolefCmd.allowed s.chip.kolefLevel (KolefCmd.img, Instr.kolefImg b n).1 = false) ∧
    (let s := life 2 State.reset; let object : BitVec 32 := 0x0#32; let data : List Byte := [0x1#8]
     s.chip.boot.img = none ∧ (s.chip.inRecovery = false ∨ (KolefCmd.wr, Instr.kolefWr object data).1.inRom = true) ∧
         KolefCmd.allowed s.chip.kolefLevel (KolefCmd.wr, Instr.kolefWr object data).1 = false) ∧
    (let s := life 1 (State.reset); let count : BitVec 7 := 0x0#7
     s.chip.boot.img = none ∧ s.chip.inRecovery = false ∧ s.chip.kolefLevel ≤ 1 ∧ (count.toNat = 0 ∨ 64 < count.toNat)) ∧
    (let s := life 1 (State.reset); let count : BitVec 7 := 0x1#7
     s.chip.boot.img = none ∧ s.chip.inRecovery = false ∧ s.chip.kolefLevel ≤ 1 ∧ 0 < count.toNat ∧ count.toNat ≤ 64) ∧
    (let s := life 1 (State.reset); let n : BitVec 32 := 0x0#32
     s.chip.boot.img = none ∧ s.chip.kolefLevel = 0 ∧ (n.toNat = 0 ∨ 9437184 < n.toNat)) ∧
    (let s := life 1 (P32k.state23); let b : Bool := true; let n : BitVec 32 := 0x900000#32
     s.chip.boot.img = none ∧ s.chip.kolefLevel = 0 ∧ 0 < n.toNat ∧ n.toNat ≤ 9437184 ∧ s.chip.inRecovery = false ∧
         (s.chip.num Obj.bootSlot = if b = true then 1 else 0)) ∧
    (let s := life 1 (State.reset); let b : Bool := true; let n : BitVec 32 := 0x900000#32
     s.chip.boot.img = none ∧ s.chip.kolefLevel = 0 ∧ 0 < n.toNat ∧ n.toNat ≤ 9437184 ∧ (s.chip.inRecovery = true ∨
         s.chip.num Obj.bootSlot ≠ if b = true then 1 else 0)) ∧
    (let s := life 1 (State.reset)
     s.chip.boot.img = none ∧ s.chip.kolefLevel = 0 ∧ s.chip.inRecovery = false) ∧
    (let s := P32k.state20; let x : KolefImg := { slot := 0, length := 10, data := [], at_ := 0 }
     s.chip.boot.img = some x ∧ s.chip.now < x.at_ + 2000000000) ∧
    (let s := P32k.state21; let x : KolefImg := { slot := 0, length := 10, data := [], at_ := 0 }
     s.chip.boot.img = some x ∧ x.at_ + 2000000000 ≤ s.chip.now) := by
  refine ⟨?_, ?_, ?_, ?_, ?_, ?_, ?_, ?_, ?_, ?_, ?_, ?_, ?_, ?_, ?_, ?_⟩
  all_goals decide +kernel

/-- What LeasesPowerAndResets asks for is met. -/
theorem test_meets_LeasesPowerAndResets :
    (let s := State.reset
     (∀ l ∈ s.chip.work.leases, l.kind = 1 ∨ l.expiry = noTerm ∨ s.chip.time.stc ≤ l.expiry)) ∧
    (let s := P33.state2; let l : Lease := { kind := 4, owner := 16, unit := 805310466, expiry := 4 }
     s.chip.work.leases = [l] ∧ l.kind ≠ 1 ∧ l.expiry ≠ noTerm ∧ l.expiry < s.chip.time.stc) ∧
    (let s := P33.state2; let l : Lease := { kind := 4, owner := 16, unit := 805310466, expiry := 4 }
     s.chip.work.leases = [l] ∧ l.kind = 4 ∧ l.unit = Obj.skimCoatCommit ∧ l.expiry ≠ noTerm ∧ l.expiry <
         s.chip.time.stc ∧ s.chip.skim.wet.phase = WetPhase.idle) ∧
    (let s := P33.state4
     s.chip.boot.powerLost = true ∧ s.chip.work.journal.control.isSealed = true) ∧
    (let s := State.reset
     (s.chip.boot.powerLost = false ∨ s.chip.work.journal.control.isSealed = false)) ∧
    (let supplies : Bool := true; let ignored : Bool := true
     (supplies = false ∨ ignored = true)) ∧
    (let s := State.reset; let low : Nat := 0
     s.chip.boot.powerLost = false ∧ low < 10000) ∧
    (let s := State.reset; let low : Nat := 10000
     s.chip.boot.powerLost = false ∧ 10000 ≤ low) ∧
    (let s := State.reset
     s.chip.work.supervisor.held = []) ∧
    (let s := P33.state6; let p : Sys2Proof.Path := Path.mailbox 0 0
     let m : Msg :=
         { op := 0x1#8, txn := 0x1#16, object := 0x0#32, offset := 0x0#32, dst := 0x0#8, reserved := 0x0#16, data := [] }
     s.chip.work.supervisor.held = [(p, m)]) ∧
    (let s := State.reset
     ((List.filter (fun t => decide (s.chip.now < t + 60000000000)) s.chip.work.supervisor.restarts).length < 2)) ∧
    (let s := P33.state7
     (2 ≤ (List.filter (fun t => decide (s.chip.now < t + 60000000000)) s.chip.work.supervisor.restarts).length)) ∧
    (let r : Req := { path := Path.mailbox 0 0, txn := 0x1#16 }; let a : Nat := 16; let s := State.reset
     Writes r a Obj.resetRequest [1] s) ∧
    (let r : Req := { path := Path.mailbox 0 0, txn := 0x1#16 }; let a : Nat := 16; let s := State.reset
     Writes r a Obj.resetRequest [2] s) ∧
    (let r : Req := { path := Path.mailbox 0 0, txn := 0x1#16 }; let a : Nat := 16; let s := State.reset
     let gang : Fin 16 := 0
     Writes r a (Obj.resetGang gang.val) [1] s) ∧
    (let r : Req := { path := Path.mailbox 0 0, txn := 0x1#16 }; let a : Nat := 16; let s := State.reset
     let core : Fin 256 := 0
     Writes r a (Obj.resetCore core.val) [1] s) ∧
    (let r : Req := { path := Path.mailbox 0 0, txn := 0x1#16 }; let a : Nat := 16; let s := State.reset
     let t : Fin 16 := 0
     Writes r a (Obj.faultTenantReplayGo t.val) [1] s ∧ tget ReplayState.none (judged r.path
         s).chip.work.journal.replay t.val ≠ ReplayState.waiting) ∧
    (let r : Req := { path := Path.mailbox 0 0, txn := 0x1#16 }; let a : Nat := 16; let s := P33.state9
     let t : Fin 16 := 0
     Writes r a (Obj.faultTenantReplayGo t.val) [1] s ∧ tget ReplayState.none (judged r.path
         s).chip.work.journal.replay t.val = ReplayState.waiting ∧ (judged r.path s).chip.work.journal.toReplay = []) ∧
    (let n : Fin 256 := 0; let s := State.reset
     (s.chip.core n.val).inReset = false) ∧
    (let n : Fin 256 := 0; let s := P33.state10; let a : Nat := 0
     (s.chip.core n.val).inReset = true ∧ s.chip.coreVoices n.val = [] ∧ memLocal n.val 0 ≤ a ∧ a < memLocal n.val
         81920) ∧
    (let n : Fin 256 := 17; let s := P33.state11; let a : Nat := 0
     (s.chip.core n.val).inReset = true ∧ s.chip.coreVoices n.val = [] ∧ (a < memLocal n.val 0 ∨ memLocal n.val 81920
         ≤ a)) ∧
    (let n : Fin 256 := 0; let s := State.reset
     (∀ k ∈ gangCores (n.val % 16), (s.chip.core k).inReset = false)) := by
  refine ⟨?_, ?_, ?_, ?_, ?_, ?_, ?_, ?_, ?_, ?_, ?_, ?_, ?_, ?_, ?_, ?_, ?_, ?_, ?_, ?_, ?_, ?_⟩
  all_goals decide +kernel

/-- What TenantsAndQueues asks for is met. -/
theorem test_meets_TenantsAndQueues :
    (let r : Req := { path := Path.mailbox 0 0, txn := 0x1#16 }; let a : Nat := 16; let t : Fin 16 := 0
     let s := State.reset
     Writes r a (Obj.tenantEnable t.val) [1] s) ∧
    (let r : Req := { path := Path.mailbox 0 0, txn := 0x1#16 }; let a : Nat := 16; let t : Fin 16 := 0
     let s := State.reset
     Writes r a (Obj.tenantEnable t.val) [0] s ∧ t = 0) ∧
    (let r : Req := { path := Path.mailbox 0 0, txn := 0x1#16 }; let a : Nat := 16; let t : Fin 16 := 1
     let s := P34.state2
     Writes r a (Obj.tenantEnable t.val) [0] s ∧ t ≠ 0 ∧ (tenantOwns (judged r.path s).chip t.val = true ∨ ∃ q < 28,
         ((judged r.path s).chip.queue (32 * t.val + q)).state ≠ QueueState.disabled)) ∧
    (let r : Req := { path := Path.mailbox 0 0, txn := 0x1#16 }; let a : Nat := 16; let t : Fin 16 := 1
     let s := State.reset
     Writes r a (Obj.tenantEnable t.val) [0] s ∧ t ≠ 0 ∧ tenantOwns (judged r.path s).chip t.val = false ∧ (∀ q < 28,
         ((judged r.path s).chip.queue (32 * t.val + q)).state = QueueState.disabled)) ∧
    (let r : Req := { path := Path.mailbox 0 0, txn := 0x1#16 }; let a : Nat := 16; let t : Fin 16 := 0
     let s := State.reset
     Writes r a (Obj.tenantReset t.val) [1] s) ∧
    (let r : Req := { path := Path.mailbox 0 0, txn := 0x1#16 }; let a : Nat := 16; let t : Fin 16 := 0
     let s := State.reset
     Writes r a (Obj.tenantReset t.val) [2] s) ∧
    (let r : Req := { path := Path.mailbox 0 0, txn := 0x1#16 }; let t : Fin 16 := 0; let s := P34.state4
     ((judged r.path s).chip.tenant t.val).resetting = true) ∧
    (let t : Fin 16 := 0; let s := P34.state5
     s.chip.hasFunction t.val = false) ∧
    (let t : Fin 16 := 0; let s := State.reset
     s.chip.hasFunction t.val = true) ∧
    (let t : Fin 16 := 0; let s := State.reset
     (s.chip.tenant t.val).resetting = false) ∧
    (let t : Fin 16 := 0; let s := P34.state4
     (s.chip.tenant t.val).resetting = true) ∧
    (let t : Fin 16 := 0
     t.val = 0) ∧
    (let t : Fin 16 := 1
     t.val ≠ 0) ∧
    (let s := State.reset
     s.chip.work.queues = []) ∧
    (let s := P34.state7; let i : Nat := 0; let q : Queue := ((s.chip.work.queues.head?).get (by decide +kernel)).2
     s.chip.work.queues = [(i, q)] ∧ i < 512 ∧ i % 32 < 28 ∧ s.chip.hasFunction (i / 32) = true ∧ q.state ≠
         QueueState.disabled) ∧
    (let t : Fin 16 := 0; let q : Fin 28 := 0; let s := State.reset
     (s.chip.queue (32 * t.val + q.val)).state ≠ QueueState.running) ∧
    (let t : Fin 16 := 0; let q : Fin 28 := 0; let s := P34.state7
     (s.chip.queue (32 * t.val + q.val)).state = QueueState.running) ∧
    (let r : Req := { path := Path.mailbox 0 0, txn := 0x1#16 }; let a : Nat := 16; let q : Fin 512 := 0
     let fields : BitVec 31 := 0x0#31; let s := P34.state7
     Writes r a (Obj.queueConfig q.val) (leBytes 4 (2147483648 + fields.toNat)) s ∧ queueMay (judged r.path s).chip
         r.path a q.val = true ∧ q.val % 32 < 28 ∧ cfgBusy (judged r.path s).chip r.path q.val (2147483648 +
         fields.toNat) = true) ∧
    (let r : Req := { path := Path.mailbox 0 0, txn := 0x1#16 }; let a : Nat := 16; let q : Fin 512 := 0
     let fields : BitVec 31 := 0x0#31; let s := State.reset
     Writes r a (Obj.queueConfig q.val) (leBytes 4 (2147483648 + fields.toNat)) s ∧ queueMay (judged r.path s).chip
         r.path a q.val = true ∧ q.val % 32 < 28 ∧ cfgBusy (judged r.path s).chip r.path q.val (2147483648 +
         fields.toNat) = false) ∧
    (let r : Req := { path := Path.bar 0, txn := 0x1#16 }; let q : Fin 512 := 0; let s := State.reset
     let f : Fin 16 := 0
     r.path = Path.bar f ∧ s.chip.hasFunction f.val = true ∧ f.val = q.val / 32 ∧ q.val % 32 < 28 ∧ s.chip.may 22
         q.val (16 + f.val) 1 = true ∧ barRegister f.val (Obj.queueConfig q.val) = true) ∧
    (let r : Req := { path := Path.mailbox 0 0, txn := 0x1#16 }; let q : Fin 512 := 16
     let fields : BitVec 31 := 0x0#31; let s := State.reset
     16 ≤ q.val % 32 ∧ q.val % 32 < 28 ∧ ((judged r.path s).chip.queue q.val).state = QueueState.disabled ∧ (badConfig
         (modQueue q.val (fun x =>
         { ((judged r.path s).chip.queue q.val) with cfg := (2147483648 + fields.toNat ||| 2147483648) &&& cfgFields })
         (judged r.path s).chip) q.val
         { ((judged r.path s).chip.queue q.val) with cfg := (2147483648 + fields.toNat ||| 2147483648) &&& cfgFields }
         = true)) ∧
    (let r : Req := { path := Path.mailbox 0 0, txn := 0x1#16 }; let q : Fin 512 := 16
     let fields : BitVec 31 := 0x6#31; let s := P34.state20
     16 ≤ q.val % 32 ∧ q.val % 32 < 28 ∧ ((judged r.path s).chip.queue q.val).state = QueueState.disabled ∧ (badConfig
         (modQueue q.val (fun x =>
         { ((judged r.path s).chip.queue q.val) with cfg := (2147483648 + fields.toNat ||| 2147483648) &&& cfgFields })
         (judged r.path s).chip) q.val
         { ((judged r.path s).chip.queue q.val) with cfg := (2147483648 + fields.toNat ||| 2147483648) &&& cfgFields }
         = false) ∧ (overHostQuota (modQueue q.val (fun x =>
         { ((judged r.path s).chip.queue q.val) with cfg := (2147483648 + fields.toNat ||| 2147483648) &&& cfgFields })
         (judged r.path s).chip) q.val
         { ((judged r.path s).chip.queue q.val) with cfg := (2147483648 + fields.toNat ||| 2147483648) &&& cfgFields }
         = true)) ∧
    (let r : Req := { path := Path.mailbox 0 0, txn := 0x1#16 }; let q : Fin 512 := 16
     let fields : BitVec 31 := 0x6#31; let s := P34.state18
     16 ≤ q.val % 32 ∧ q.val % 32 < 28 ∧ ((judged r.path s).chip.queue q.val).state = QueueState.disabled ∧ (badConfig
         (modQueue q.val (fun x =>
         { ((judged r.path s).chip.queue q.val) with cfg := (2147483648 + fields.toNat ||| 2147483648) &&& cfgFields })
         (judged r.path s).chip) q.val
         { ((judged r.path s).chip.queue q.val) with cfg := (2147483648 + fields.toNat ||| 2147483648) &&& cfgFields }
         = false) ∧ (overHostQuota (modQueue q.val (fun x =>
         { ((judged r.path s).chip.queue q.val) with cfg := (2147483648 + fields.toNat ||| 2147483648) &&& cfgFields })
         (judged r.path s).chip) q.val
         { ((judged r.path s).chip.queue q.val) with cfg := (2147483648 + fields.toNat ||| 2147483648) &&& cfgFields }
         = false)) ∧
    (let r : Req := { path := Path.mailbox 0 0, txn := 0x1#16 }; let a : Nat := 16; let q : Fin 512 := 0
     let fields : BitVec 31 := 0x0#31; let s := P34.state7
     Writes r a (Obj.queueConfig q.val) (leBytes 4 fields.toNat) s ∧ queueMay (judged r.path s).chip r.path a q.val =
         true ∧ q.val % 32 < 28 ∧ cfgBusy (judged r.path s).chip r.path q.val fields.toNat = true) ∧
    (let r : Req := { path := Path.mailbox 0 0, txn := 0x1#16 }; let a : Nat := 16; let q : Fin 512 := 0
     let fields : BitVec 31 := 0x0#31; let s := State.reset
     Writes r a (Obj.queueConfig q.val) (leBytes 4 fields.toNat) s ∧ queueMay (judged r.path s).chip r.path a q.val =
         true ∧ q.val % 32 < 28 ∧ cfgBusy (judged r.path s).chip r.path q.val fields.toNat = false) ∧
    (let r : Req := { path := Path.mailbox 0 0, txn := 0x1#16 }; let a : Nat := 16; let q : Fin 512 := 0
     let v : BitVec 32 := 0x0#32; let s := P34.state17
     Writes r a (Obj.queueSeq q.val) (leBytes 4 v.toNat) s ∧ queueMay (judged r.path s).chip r.path a q.val = false) ∧
    (let r : Req := { path := Path.mailbox 0 0, txn := 0x1#16 }; let a : Nat := 16; let q : Fin 512 := 0
     let v : BitVec 32 := 0x0#32; let s := P34.state7
     Writes r a (Obj.queueSeq q.val) (leBytes 4 v.toNat) s ∧ queueMay (judged r.path s).chip r.path a q.val = true ∧
         q.val % 32 < 28 ∧ ((judged r.path s).chip.queue q.val).state ≠ QueueState.disabled) ∧
    (let r : Req := { path := Path.mailbox 0 0, txn := 0x1#16 }; let a : Nat := 16; let q : Fin 512 := 8
     let v : BitVec 32 := 0x0#32; let s := State.reset
     Writes r a (Obj.queueSeq q.val) (leBytes 4 v.toNat) s ∧ queueMay (judged r.path s).chip r.path a q.val = true ∧ 8
         ≤ q.val % 32 ∧ q.val % 32 < 28 ∧ ((judged r.path s).chip.queue q.val).state = QueueState.disabled) ∧
    (let r : Req := { path := Path.mailbox 0 0, txn := 0x1#16 }; let a : Nat := 16; let q : Fin 512 := 0
     let v : BitVec 32 := 0x0#32; let s := State.reset
     Writes r a (Obj.queueSeq q.val) (leBytes 4 v.toNat) s ∧ queueMay (judged r.path s).chip r.path a q.val = true ∧
         q.val % 32 < 8 ∧ ((judged r.path s).chip.queue q.val).state = QueueState.disabled) ∧
    (let t : Fin 16 := 0; let q : Fin 8 := 0; let s := State.reset
     ((s.chip.queue (32 * t.val + q.val)).state ≠ QueueState.running ∨ s.chip.isBound (32 * t.val + q.val) = true)) ∧
    (let t : Fin 16 := 0; let q : Fin 8 := 0; let s := P34.state8
     (s.chip.queue (32 * t.val + q.val)).state = QueueState.running ∧ s.chip.isBound (32 * t.val + q.val) = false ∧
         s.chip.hasFunction t.val = true ∧ (s.chip.queue (32 * t.val + q.val)).outstanding ≠ 0 ∧ (s.chip.queue (32 *
         t.val + q.val)).prefetch.length < 8) ∧
    (let t : Fin 16 := 0; let q : Fin 8 := 0; let s := State.reset
     (s.chip.queue (32 * t.val + 8 + q.val)).unsignalledAt = none) ∧
    (let t : Fin 16 := 0; let q : Fin 8 := 0; let s := P34.state13; let at_ : Nat := 0
     (s.chip.queue (32 * t.val + 8 + q.val)).unsignalledAt = some at_ ∧ bits (s.chip.queue (32 * t.val + 8 +
         q.val)).bind 15 0 ≠ 0 ∧ at_ + bits (s.chip.queue (32 * t.val + 8 + q.val)).bind 15 0 * 1000 ≤ s.chip.now) ∧
    (let t : Fin 16 := 0; let q : Fin 8 := 0; let s := P34.state12; let at_ : Nat := 0
     (s.chip.queue (32 * t.val + 8 + q.val)).unsignalledAt = some at_ ∧ s.chip.now < at_ + bits (s.chip.queue (32 *
         t.val + 8 + q.val)).bind 15 0 * 1000) ∧
    (let s := State.reset
     s.chip.chooseEsq = none) ∧
    (let s := P34.state21; let t : Nat := 0; let q : Nat := 0; let p : Nat := 0
     s.chip.chooseEsq = some (t, q, p) ∧ (entryStatus (servedEsq t q p (modQueue (qix t q) (fun x => if x.made.isEmpty
         = true then { x with prefetch := x.prefetch.tail } else { x with made := x.made.tail }) s.chip)) t q
         (s.chip.nextEntry t q) ≠ 0)) ∧
    (let fails : Nat := 0; let s := P34.state23; let t : Nat := 0; let q : Nat := 0; let p : Nat := 0
     let place : Nat := 0
     let x : Chip := (Option.map (fun l => l.2) (some (placeRecord fails 0 (servedEsq t q p (modQueue (qix t q) (fun x
         => if x.made.isEmpty = true then { x with prefetch := x.prefetch.tail } else { x with made := x.made.tail })
         s.chip))))).get (by decide +kernel)
     s.chip.chooseEsq = some (t, q, p) ∧ (entryStatus (servedEsq t q p (modQueue (qix t q) (fun x => if x.made.isEmpty
         = true then { x with prefetch := x.prefetch.tail } else { x with made := x.made.tail }) s.chip)) t q
         (s.chip.nextEntry t q) = 0) ∧ (placeRecord fails 0 (servedEsq t q p (modQueue (qix t q) (fun x => if
         x.made.isEmpty = true then { x with prefetch := x.prefetch.tail } else { x with made := x.made.tail })
         s.chip)) = (some place, x))) := by
  refine ⟨?_, ?_, ?_, ?_, ?_, ?_, ?_, ?_, ?_, ?_, ?_, ?_, ?_, ?_, ?_, ?_, ?_, ?_, ?_, ?_, ?_, ?_, ?_, ?_, ?_, ?_, ?_,
    ?_, ?_, ?_, ?_, ?_, ?_, ?_, ?_, ?_, ?_⟩
  all_goals decide +kernel

/-- What Doorbells asks for is met. -/
theorem test_meets_Doorbells :
    (let t : Fin 16 := 0; let q : Fin 28 := 0; let s := State.reset
     s.chip.hasFunction t.val = true ∧ s.chip.may 22 (32 * t.val + q.val) (16 + t.val) 1 = true ∧ s.chip.isBound (32 *
         t.val + q.val) = false ∧ (s.chip.queue (32 * t.val + q.val)).head < (s.chip.queue (32 * t.val + q.val)).size
         ∧ (s.chip.queue (32 * t.val + q.val)).tail < (s.chip.queue (32 * t.val + q.val)).size ∧ (s.chip.queue (32 *
         t.val + q.val)).state ≠ QueueState.running) ∧
    (let t : Fin 16 := 0; let q : Fin 28 := 0; let v : BitVec 32 := 0x40#32; let s := P34.state7
     s.chip.hasFunction t.val = true ∧ s.chip.may 22 (32 * t.val + q.val) (16 + t.val) 1 = true ∧ s.chip.isBound (32 *
         t.val + q.val) = false ∧ (s.chip.queue (32 * t.val + q.val)).head < (s.chip.queue (32 * t.val + q.val)).size
         ∧ (s.chip.queue (32 * t.val + q.val)).tail < (s.chip.queue (32 * t.val + q.val)).size ∧ (s.chip.queue (32 *
         t.val + q.val)).state = QueueState.running ∧ (s.chip.queue (32 * t.val + q.val)).size ≤ v.toNat) ∧
    (let t : Fin 16 := 0; let q : Fin 28 := 0; let v : BitVec 32 := 0x0#32; let s := P34.state8
     s.chip.hasFunction t.val = true ∧ s.chip.may 22 (32 * t.val + q.val) (16 + t.val) 1 = true ∧ s.chip.isBound (32 *
         t.val + q.val) = false ∧ (s.chip.queue (32 * t.val + q.val)).head < (s.chip.queue (32 * t.val + q.val)).size
         ∧ (s.chip.queue (32 * t.val + q.val)).tail < (s.chip.queue (32 * t.val + q.val)).size ∧ (s.chip.queue (32 *
         t.val + q.val)).state = QueueState.running ∧ v.toNat < (s.chip.queue (32 * t.val + q.val)).size ∧ (q.val < 8
         ∨ 16 ≤ q.val ∧ q.val < 20) ∧ (s.chip.queue (32 * t.val + q.val)).size - 1 < ((s.chip.queue (32 * t.val +
         q.val)).tail + (s.chip.queue (32 * t.val + q.val)).size - (s.chip.queue (32 * t.val + q.val)).head) %
         (s.chip.queue (32 * t.val + q.val)).size + (v.toNat + (s.chip.queue (32 * t.val + q.val)).size -
         (s.chip.queue (32 * t.val + q.val)).tail) % (s.chip.queue (32 * t.val + q.val)).size) ∧
    (let t : Fin 16 := 0; let q : Fin 28 := 0; let v : BitVec 32 := 0x0#32; let s := P34.state7
     s.chip.hasFunction t.val = true ∧ s.chip.may 22 (32 * t.val + q.val) (16 + t.val) 1 = true ∧ s.chip.isBound (32 *
         t.val + q.val) = false ∧ (s.chip.queue (32 * t.val + q.val)).head < (s.chip.queue (32 * t.val + q.val)).size
         ∧ (s.chip.queue (32 * t.val + q.val)).tail < (s.chip.queue (32 * t.val + q.val)).size ∧ (s.chip.queue (32 *
         t.val + q.val)).state = QueueState.running ∧ v.toNat < (s.chip.queue (32 * t.val + q.val)).size ∧ (q.val < 8
         ∨ 16 ≤ q.val ∧ q.val < 20) ∧ ((s.chip.queue (32 * t.val + q.val)).tail + (s.chip.queue (32 * t.val +
         q.val)).size - (s.chip.queue (32 * t.val + q.val)).head) % (s.chip.queue (32 * t.val + q.val)).size +
         (v.toNat + (s.chip.queue (32 * t.val + q.val)).size - (s.chip.queue (32 * t.val + q.val)).tail) %
         (s.chip.queue (32 * t.val + q.val)).size ≤ (s.chip.queue (32 * t.val + q.val)).size - 1) ∧
    (let t : Fin 16 := 0; let q : Fin 28 := 8; let v : BitVec 32 := 0x3#32; let s := P34.state21
     s.chip.hasFunction t.val = true ∧ s.chip.may 22 (32 * t.val + q.val) (16 + t.val) 1 = true ∧ s.chip.isBound (32 *
         t.val + q.val) = false ∧ (s.chip.queue (32 * t.val + q.val)).head < (s.chip.queue (32 * t.val + q.val)).size
         ∧ (s.chip.queue (32 * t.val + q.val)).tail < (s.chip.queue (32 * t.val + q.val)).size ∧ (s.chip.queue (32 *
         t.val + q.val)).state = QueueState.running ∧ v.toNat < (s.chip.queue (32 * t.val + q.val)).size ∧ (¬(q.val <
         8 ∨ 16 ≤ q.val ∧ q.val < 20)) ∧ ((s.chip.queue (32 * t.val + q.val)).tail + (s.chip.queue (32 * t.val +
         q.val)).size - (s.chip.queue (32 * t.val + q.val)).head) % (s.chip.queue (32 * t.val + q.val)).size <
         (v.toNat + (s.chip.queue (32 * t.val + q.val)).size - (s.chip.queue (32 * t.val + q.val)).head) %
         (s.chip.queue (32 * t.val + q.val)).size) ∧
    (let t : Fin 16 := 0; let q : Fin 28 := 20; let v : BitVec 32 := 0x0#32; let s := P34.state15
     s.chip.hasFunction t.val = true ∧ s.chip.may 22 (32 * t.val + q.val) (16 + t.val) 1 = true ∧ s.chip.isBound (32 *
         t.val + q.val) = false ∧ (s.chip.queue (32 * t.val + q.val)).head < (s.chip.queue (32 * t.val + q.val)).size
         ∧ (s.chip.queue (32 * t.val + q.val)).tail < (s.chip.queue (32 * t.val + q.val)).size ∧ (s.chip.queue (32 *
         t.val + q.val)).state = QueueState.running ∧ v.toNat < (s.chip.queue (32 * t.val + q.val)).size ∧ (¬(q.val <
         8 ∨ 16 ≤ q.val ∧ q.val < 20)) ∧ (v.toNat + (s.chip.queue (32 * t.val + q.val)).size - (s.chip.queue (32 *
         t.val + q.val)).head) % (s.chip.queue (32 * t.val + q.val)).size ≤ ((s.chip.queue (32 * t.val + q.val)).tail
         + (s.chip.queue (32 * t.val + q.val)).size - (s.chip.queue (32 * t.val + q.val)).head) % (s.chip.queue (32 *
         t.val + q.val)).size ∧ 16 ≤ q.val) ∧
    (let t : Fin 16 := 0; let q : Fin 28 := 8; let v : BitVec 32 := 0x0#32; let s := P34.state12
     s.chip.hasFunction t.val = true ∧ s.chip.may 22 (32 * t.val + q.val) (16 + t.val) 1 = true ∧ s.chip.isBound (32 *
         t.val + q.val) = false ∧ (s.chip.queue (32 * t.val + q.val)).head < (s.chip.queue (32 * t.val + q.val)).size
         ∧ (s.chip.queue (32 * t.val + q.val)).tail < (s.chip.queue (32 * t.val + q.val)).size ∧ (s.chip.queue (32 *
         t.val + q.val)).state = QueueState.running ∧ v.toNat < (s.chip.queue (32 * t.val + q.val)).size ∧ (¬(q.val <
         8 ∨ 16 ≤ q.val ∧ q.val < 20)) ∧ (v.toNat + (s.chip.queue (32 * t.val + q.val)).size - (s.chip.queue (32 *
         t.val + q.val)).head) % (s.chip.queue (32 * t.val + q.val)).size ≤ ((s.chip.queue (32 * t.val + q.val)).tail
         + (s.chip.queue (32 * t.val + q.val)).size - (s.chip.queue (32 * t.val + q.val)).head) % (s.chip.queue (32 *
         t.val + q.val)).size ∧ q.val < 16) ∧
    (let t : Fin 16 := 0; let q : Fin 28 := 0; let v : BitVec 32 := 0x0#32; let s := P34.state7
     s.chip.hasFunction t.val = true ∧ s.chip.may 22 (32 * t.val + q.val) (16 + t.val) 1 = true ∧ s.chip.isBound (32 *
         t.val + q.val) = false ∧ (s.chip.queue (32 * t.val + q.val)).head < (s.chip.queue (32 * t.val + q.val)).size
         ∧ (s.chip.queue (32 * t.val + q.val)).tail < (s.chip.queue (32 * t.val + q.val)).size ∧ (s.chip.queue (32 *
         t.val + q.val)).state = QueueState.running ∧ (q.val < 8 ∨ 16 ≤ q.val ∧ q.val < 20) ∧ v.toNat = (s.chip.queue
         (32 * t.val + q.val)).tail) := by
  refine ⟨?_, ?_, ?_, ?_, ?_, ?_, ?_, ?_⟩
  all_goals decide +kernel

/-- What RegistersMailboxesAndTables asks for is met. -/
theorem test_meets_RegistersMailboxesAndTables :
    (let t : Fin 16 := 0; let s := P34.state5
     s.chip.hasFunction t.val = false) ∧
    (let t : Fin 16 := 0; let s := State.reset; let n : Nat := 1
     s.chip.hasFunction t.val = true ∧ n ≠ t.val) ∧
    (let t : Fin 16 := 0; let s := State.reset; let k : Nat := 0
     s.chip.hasFunction t.val = true ∧ k < 128 ∧ (s.chip.tenant t.val).evtEnable < 2 ^ 128) ∧
    (let r : Req := { path := Path.mailbox 0 0, txn := 0x1#16 }; let t : Fin 16 := 0; let a : Nat := 16
     let s := P34.state36
     Reaches r.path (readMsg r (Obj.tenantEventsPending t.val) 0) s ∧ actingMaster s.chip r.path = some a ∧ (judged
         r.path s).chip.may 1 16 a 0 = false) ∧
    (let r : Req := { path := Path.mailbox 0 0, txn := 0x1#16 }; let t : Fin 16 := 0; let a : Nat := 16
     let s := State.reset
     Reaches r.path (readMsg r (Obj.tenantEventsPending t.val) 0) s ∧ actingMaster s.chip r.path = some a ∧ (judged
         r.path s).chip.may 1 16 a 0 = true) ∧
    (let t : Fin 16 := 0; let m : Fin 4 := 0; let s := P34.state26
     (tget { } s.chip.work.mailboxes (4 * t.val + m.val)).state ≠ MailState.idle) ∧
    (let t : Fin 16 := 0; let m : Fin 4 := 0; let s := State.reset
     (tget { } s.chip.work.mailboxes (4 * t.val + m.val)).state = MailState.idle ∧ s.chip.tenantState t.val =
         TenantState.active) ∧
    (let t : Fin 16 := 0; let m : Fin 4 := 0; let s := P34.state26
     (tget { } s.chip.work.mailboxes (4 * t.val + m.val)).state = MailState.busy) ∧
    (let t : Fin 16 := 0; let m : Fin 4 := 0; let s := State.reset
     (tget { } s.chip.work.mailboxes (4 * t.val + m.val)).state ≠ MailState.busy) ∧
    (let s := State.reset
     (s.chip.work.mailOrder = [] ∨ s.chip.work.supervisor.restarting = true)) ∧
    (let t : Fin 16 := 0; let m : Fin 4 := 0; let s := P34.state27; let rest : List Nat := []
     s.chip.work.supervisor.restarting = false ∧ s.chip.work.mailOrder = (4 * t.val + m.val) :: rest) ∧
    (let r : Req := { path := Path.mailbox 0 0, txn := 0x1#16 }; let a : Nat := 16; let s := State.reset
     Writes r a Obj.accessWrite [2] s ∧ ((judged r.path s).chip.num Obj.accessKind = 0 ∨ accessUnits ((judged r.path
         s).chip.num Obj.accessKind) < (judged r.path s).chip.num Obj.accessFirst + (judged r.path s).chip.num
         Obj.accessCount ∨ (judged r.path s).chip.num Obj.accessCount = 0)) ∧
    (let r : Req := { path := Path.mailbox 0 0, txn := 0x1#16 }; let a : Nat := 16; let s := P34.state35
     Writes r a Obj.accessWrite [2] s ∧ 0 < (judged r.path s).chip.num Obj.accessKind ∧ (judged r.path s).chip.num
         Obj.accessFirst + (judged r.path s).chip.num Obj.accessCount ≤ accessUnits ((judged r.path s).chip.num
         Obj.accessKind) ∧ 0 < (judged r.path s).chip.num Obj.accessCount ∧ (∃ j < (judged r.path s).chip.num
         Obj.accessCount, (judged r.path s).chip.may ((judged r.path s).chip.num Obj.accessKind) ((judged r.path
         s).chip.num Obj.accessFirst + j) a 3 = false)) ∧
    (let r : Req := { path := Path.mailbox 0 0, txn := 0x1#16 }; let a : Nat := 16; let s := P34.state31
     Writes r a Obj.accessWrite [2] s ∧ 0 < (judged r.path s).chip.num Obj.accessKind ∧ (judged r.path s).chip.num
         Obj.accessKind ≠ 6 ∧ (judged r.path s).chip.num Obj.accessKind ≠ 7 ∧ (judged r.path s).chip.num
         Obj.accessFirst + (judged r.path s).chip.num Obj.accessCount ≤ accessUnits ((judged r.path s).chip.num
         Obj.accessKind) ∧ 0 < (judged r.path s).chip.num Obj.accessCount ∧ (∀ j < (judged r.path s).chip.num
         Obj.accessCount, (judged r.path s).chip.may ((judged r.path s).chip.num Obj.accessKind) ((judged r.path
         s).chip.num Obj.accessFirst + j) a 3 = true)) ∧
    (let r : Req := { path := Path.mailbox 0 0, txn := 0x1#16 }; let a : Nat := 16; let s := State.reset
     let master : Nat := 0
     Writes r a Obj.accessWrite [2] s ∧ accessConst ((judged r.path s).chip.num Obj.accessKind) master = true) ∧
    (let r : Req := { path := Path.mailbox 0 0, txn := 0x1#16 }; let a : Nat := 16; let s := State.reset
     let kind : Nat := 1; let unit : Nat := 0
     Writes r a Obj.accessWrite [2] s ∧ kind ≠ (judged r.path s).chip.num Obj.accessKind ∧ unit < 65536 ∧ (judged
         r.path s).chip.num Obj.accessFirst + (judged r.path s).chip.num Obj.accessCount ≤ 65536) := by
  refine ⟨?_, ?_, ?_, ?_, ?_, ?_, ?_, ?_, ?_, ?_, ?_, ?_, ?_, ?_, ?_, ?_⟩
  all_goals decide +kernel

/-- What CanControllers asks for is met. -/
theorem test_meets_CanControllers :
    (let slot : Fin 128 := 0; let s := State.reset
     (s.chip.time.stc % s.chip.bsize ≠ 0 ∨ s.chip.num (Obj.canSlotEnable slot.val) = 0 ∨ s.chip.num
         (Obj.stippleCanHeartbeat slot.val) = 0 ∨ s.chip.now < (s.chip.slot slot.val).lastAt + s.chip.num
         (Obj.stippleCanHeartbeat slot.val) * 1000000 ∨ s.chip.slotValue slot.val = none)) ∧
    (let slot : Fin 128 := 0; let s := P35.state2; let v : Int := 77
     s.chip.time.stc % s.chip.bsize = 0 ∧ s.chip.num (Obj.canSlotEnable slot.val) ≠ 0 ∧ s.chip.num
         (Obj.stippleCanHeartbeat slot.val) ≠ 0 ∧ (s.chip.slot slot.val).lastAt + s.chip.num (Obj.stippleCanHeartbeat
         slot.val) * 1000000 ≤ s.chip.now ∧ s.chip.slotValue slot.val = some v) ∧
    (let k : Fin 2 := 0; let s := State.reset
     (canSends s.chip k.val = false ∨ s.chip.headFrame k.val = none)) ∧
    (let k : Fin 2 := 0; let s := P35.state4; let i : Nat := 1
     let f : CanFrame := (Option.map (fun l => l.2) (some (s.chip.headFrame k.val)).join).get (by decide +kernel)
     canSends s.chip k.val = true ∧ s.chip.headFrame k.val = some (i, f) ∧ f.slot = none ∧ f.late = false) ∧
    (let k : Fin 2 := 0; let s := P35.state5; let i : Nat := 0
     let f : CanFrame := (Option.map (fun l => l.2) (some (s.chip.headFrame k.val)).join).get (by decide +kernel)
     let u : Nat := 0
     canSends s.chip k.val = true ∧ s.chip.headFrame k.val = some (i, f) ∧ f.slot = some u ∧ (s.chip.slot u).next =
         none ∧ u < 128) ∧
    (let k : Fin 2 := 0; let s := State.reset
     canSends s.chip k.val = false) ∧
    (let k : Fin 2 := 0; let s := P35.state4; let i : Nat := 1
     let f : CanFrame := (Option.map (fun l => l.2) (some (s.chip.headFrame k.val)).join).get (by decide +kernel)
     canSends s.chip k.val = true ∧ s.chip.headFrame k.val = some (i, f) ∧ f.late = false ∧ (s.chip.ctl k.val).tec + 8
         ≤ 255) ∧
    (let k : Fin 2 := 0; let s := P35.state8
     canSends s.chip k.val = true ∧ 255 < (s.chip.ctl k.val).tec + 8 ∧ (s.chip.ctl k.val).busOffs = []) ∧
    (let k : Fin 2 := 0; let s := P35.state11
     s.chip.num (Obj.canState k.val) = 3) ∧
    (let k : Fin 2 := 0; let s := State.reset
     s.chip.num (Obj.canState k.val) ≠ 3) ∧
    (let k : Fin 2 := 0; let s := P35.state4; let i : Nat := 1
     let f : CanFrame := (Option.map (fun l => l.2) (some (s.chip.headFrame k.val)).join).get (by decide +kernel)
     canSends s.chip k.val = true ∧ s.chip.headFrame k.val = some (i, f) ∧ f.late = false ∧ (s.chip.ctl k.val).tec + 8
         ≤ 127 ∧ (s.chip.ctl k.val).rec_ ≤ 127 ∧ (s.chip.ctl k.val).collisions = []) ∧
    (let k : Fin 2 := 0; let s := P35.state14; let i : Nat := 0
     let f : CanFrame := (Option.map (fun l => l.2) (some (s.chip.headFrame k.val)).join).get (by decide +kernel)
     canSends s.chip k.val = true ∧ s.chip.headFrame k.val = some (i, f) ∧ f.late = false ∧ (s.chip.ctl k.val).tec + 8
         ≤ 127 ∧ (s.chip.ctl k.val).rec_ ≤ 127 ∧ (s.chip.ctl k.val).collisions = [(f.shownId, s.chip.now), (f.shownId,
         s.chip.now)]) ∧
    (let r : Req := { path := Path.mailbox 0 0, txn := 0x1#16 }; let a : Nat := 16; let k : Fin 2 := 0
     let s := State.reset
     Writes r a (Obj.canAbort k.val) [1] s) ∧
    (let r : Req := { path := Path.mailbox 0 0, txn := 0x1#16 }; let a : Nat := 16; let slot : Fin 128 := 0
     let s := State.reset
     Writes r a (Obj.canSlotEnable slot.val) [1] s) ∧
    (let r : Req := { path := Path.mailbox 0 0, txn := 0x1#16 }; let a : Nat := 16; let slot : Fin 128 := 0
     let s := State.reset
     Writes r a (Obj.canSlotEnable slot.val) [0] s) ∧
    (let r : Req := { path := Path.mailbox 0 0, txn := 0x1#16 }; let a : Nat := 16; let k : Fin 2 := 0
     let s := P35.state15
     Writes r a (Obj.canRestart k.val) [1] s ∧ (judged r.path s).chip.num (Obj.canState k.val) = 4) ∧
    (let r : Req := { path := Path.mailbox 0 0, txn := 0x1#16 }; let a : Nat := 16; let k : Fin 2 := 0
     let s := State.reset
     Writes r a (Obj.canRestart k.val) [1] s ∧ (judged r.path s).chip.num (Obj.canState k.val) ≠ 4) ∧
    (let r : Req := { path := Path.mailbox 0 0, txn := 0x1#16 }; let a : Nat := 16; let k : Fin 2 := 0
     let mode : Fin 3 := 0; let s := P35.state16
     Writes r a (Obj.canMode k.val) [BitVec.ofNat 8 mode.val] s ∧ (judged r.path s).chip.num Obj.canRedundancy ≠ 1 ∧
         (judged r.path s).chip.num (Obj.canState k.val) = 5) ∧
    (let r : Req := { path := Path.mailbox 0 0, txn := 0x1#16 }; let a : Nat := 16; let k : Fin 2 := 0
     let mode : Fin 3 := 0; let s := State.reset
     Writes r a (Obj.canMode k.val) [BitVec.ofNat 8 mode.val] s ∧ (judged r.path s).chip.num Obj.canRedundancy ≠ 1 ∧
         (judged r.path s).chip.num (Obj.canState k.val) ≠ 5 ∧ mode = 0) ∧
    (let r : Req := { path := Path.mailbox 0 0, txn := 0x1#16 }; let a : Nat := 16; let k : Fin 2 := 0
     let mode : Fin 3 := 2; let s := State.reset
     Writes r a (Obj.canMode k.val) [BitVec.ofNat 8 mode.val] s ∧ (judged r.path s).chip.num Obj.canRedundancy ≠ 1 ∧
         ((judged r.path s).chip.num (Obj.canState k.val) = 0 ∨ (judged r.path s).chip.num (Obj.canState k.val) = 4) ∧
         mode ≠ 0) ∧
    (let r : Req := { path := Path.mailbox 0 0, txn := 0x1#16 }; let a : Nat := 16; let k : Fin 2 := 0
     let s := P35.state16
     Writes r a (Obj.canRetired k.val) [0] s ∧ (judged r.path s).chip.num (Obj.canState k.val) = 5) ∧
    (let r : Req := { path := Path.mailbox 0 0, txn := 0x1#16 }; let a : Nat := 16; let k : Fin 2 := 0
     let s := State.reset
     Writes r a (Obj.canRetired k.val) [0] s ∧ (judged r.path s).chip.num (Obj.canState k.val) ≠ 5) := by
  refine ⟨?_, ?_, ?_, ?_, ?_, ?_, ?_, ?_, ?_, ?_, ?_, ?_, ?_, ?_, ?_, ?_, ?_, ?_, ?_, ?_, ?_, ?_⟩
  all_goals decide +kernel

/-- What DictionaryServices asks for is met. -/
theorem test_meets_DictionaryServices :
    (let r : Req := { path := Path.mailbox 0 0, txn := 0x1#16 }; let dst : Byte := 0xff#8
     let data : List Byte := [0x5#8, 0x5#8, 0x5#8, 0x5#8, 0x5#8, 0x5#8, 0x5#8, 0x5#8]; let s := State.reset
     (judged r.path s).chip.boot.due = none ∧ Reaches r.path (request r 10 0 0 dst data) s) ∧
    (let r : Req := { path := Path.mailbox 0 0, txn := 0x1#16 }; let dst : Byte := 0xff#8; let s := State.reset
     (judged r.path s).chip.boot.due = none ∧ Reaches r.path (request r 7 0 0 dst []) s) ∧
    (let r : Req := { path := Path.mailbox 0 0, txn := 0x1#16 }; let object : BitVec 32 := 0x595a6933#32
     let offset : BitVec 32 := 0x0#32; let dst : Byte := 0xff#8; let s := State.reset
     (judged r.path s).chip.boot.due = none ∧ Reaches r.path (request r 1 object offset dst []) s ∧ objFind
         object.toNat = none ∧ objIndexAssigned object.toNat = false) ∧
    (let r : Req := { path := Path.mailbox 0 0, txn := 0x1#16 }; let object : BitVec 32 := 0x8#32
     let offset : BitVec 32 := 0x0#32; let dst : Byte := 0xff#8; let s := State.reset
     (judged r.path s).chip.boot.due = none ∧ Reaches r.path (request r 1 object offset dst []) s ∧ objFind
         object.toNat = none ∧ objIndexAssigned object.toNat = true) ∧
    (let r : Req := { path := Path.can 0 0x7#8 false, txn := 0x1#16 }; let object : BitVec 32 := 0x30000200#32
     let offset : BitVec 32 := 0x0#32; let dst : Byte := 0xff#8; let s := State.reset
     let d : ObjDesc := ((some (objFind object.toNat)).join).get (by decide +kernel)
     (judged r.path s).chip.boot.due = none ∧ Reaches r.path (request r 1 object offset dst []) s ∧ objFind
         object.toNat = some d ∧ offset = 0 ∧ mayReadArea (judged r.path s).chip (actingMaster s.chip r.path)
         object.toNat = false) ∧
    (let r : Req := { path := Path.mailbox 0 0, txn := 0x1#16 }; let object : BitVec 32 := 0x0#32
     let offset : BitVec 32 := 0x8#32; let dst : Byte := 0xff#8; let s := State.reset
     let d : ObjDesc := ((some (objFind object.toNat)).join).get (by decide +kernel); let w : Nat := 4
     let sg : Bool := false
     (judged r.path s).chip.boot.due = none ∧ Reaches r.path (request r 1 object offset dst []) s ∧ objFind
         object.toNat = some d ∧ d.kind = ObjKind.num w sg ∧ offset ≠ 0) ∧
    (let r : Req := { path := Path.mailbox 0 0, txn := 0x1#16 }; let object : BitVec 32 := 0x30000200#32
     let offset : BitVec 32 := 0x0#32; let dst : Byte := 0xff#8; let s := State.reset
     let d : ObjDesc := ((some (objFind object.toNat)).join).get (by decide +kernel); let w : Nat := 2
     let sg : Bool := false
     (judged r.path s).chip.boot.due = none ∧ Reaches r.path (request r 1 object offset dst []) s ∧ objFind
         object.toNat = some d ∧ d.kind = ObjKind.num w sg ∧ offset = 0 ∧ d.acc ≠ Access.wo ∧ mayReadArea (judged
         r.path s).chip (actingMaster s.chip r.path) object.toNat = true ∧ objAreaOf object.toNat = 48 ∧ w ≤ 8) ∧
    (let r : Req := { path := Path.mailbox 0 0, txn := 0x1#16 }; let object : BitVec 32 := 0x0#32
     let dst : Byte := 0xff#8; let data : List Byte := [0x5#8, 0x5#8, 0x5#8, 0x5#8, 0x5#8, 0x5#8, 0x5#8, 0x5#8]
     let s := State.reset; let st : Nat := 4
     (judged r.path s).chip.boot.due = none ∧ Reaches r.path (request r 2 object 0 dst data) s ∧ isScope object.toNat
         = false ∧ object.toNat ≠ Obj.plumbTempoGo ∧ writeTarget (judged r.path s).chip (actingMaster s.chip r.path)
         object.toNat = Except.error st) ∧
    (let r : Req := { path := Path.mailbox 0 0, txn := 0x1#16 }; let object : BitVec 32 := 0x70002004#32
     let dst : Byte := 0xff#8; let data := P36b.octets1; let s := State.reset
     let d : ObjDesc := ((some (writeTarget (judged r.path s).chip (actingMaster s.chip r.path) object.toNat)).bind
         fun l => l.toOption).get (by decide +kernel)
     (judged r.path s).chip.boot.due = none ∧ Reaches r.path (request r 2 object 0 dst data) s ∧ isScope object.toNat
         = false ∧ object.toNat ≠ Obj.plumbTempoGo ∧ writeTarget (judged r.path s).chip (actingMaster s.chip r.path)
         object.toNat = Except.ok d ∧ valueStatus d data ≠ St.ok) ∧
    (let r : Req := { path := Path.mailbox 0 0, txn := 0x1#16 }; let object : BitVec 32 := 0x70002004#32
     let dst : Byte := 0xff#8; let data : List Byte := [0x5#8, 0x5#8, 0x5#8, 0x5#8, 0x5#8, 0x5#8, 0x5#8, 0x5#8]
     let s := State.reset
     let d : ObjDesc := ((some (writeTarget (judged r.path s).chip (actingMaster s.chip r.path) object.toNat)).bind
         fun l => l.toOption).get (by decide +kernel)
     (judged r.path s).chip.boot.due = none ∧ Reaches r.path (request r 2 object 0 dst data) s ∧ isScope object.toNat
         = false ∧ object.toNat ≠ Obj.plumbTempoGo ∧ writeTarget (judged r.path s).chip (actingMaster s.chip r.path)
         object.toNat = Except.ok d ∧ valueStatus d data = St.ok ∧ (isStored object.toNat = false ∨ (objectAction
         r.path object.toNat data ((actingMaster s.chip r.path).getD 0) (judged r.path s)).2 ≠ St.ok)) ∧
    (let r : Req := { path := Path.mailbox 0 0, txn := 0x1#16 }; let object : BitVec 32 := 0x70002004#32
     let dst : Byte := 0xff#8; let total : BitVec 32 := 0x8#32; let s := State.reset
     let d : ObjDesc := ((some (writeTarget (judged r.path s).chip (actingMaster s.chip r.path) object.toNat)).bind
         fun l => l.toOption).get (by decide +kernel)
     (judged r.path s).chip.boot.due = none ∧ Reaches r.path (request r 3 object 0 dst (leBytes 4 total.toNat)) s ∧
         writeTarget (judged r.path s).chip (actingMaster s.chip r.path) object.toNat = Except.ok d ∧ lengthStatus d
         total.toNat = St.ok ∧ ((List.filter (fun x => x.ended == SessionEnd.isOpen) (judged r.path
         s).chip.work.sessions).length < 16)) ∧
    (let r : Req := { path := Path.mailbox 0 0, txn := 0x1#16 }; let object : BitVec 32 := 0x70002004#32
     let dst : Byte := 0xff#8; let total : BitVec 32 := 0x0#32; let s := State.reset
     let d : ObjDesc := ((some (writeTarget (judged r.path s).chip (actingMaster s.chip r.path) object.toNat)).bind
         fun l => l.toOption).get (by decide +kernel)
     (judged r.path s).chip.boot.due = none ∧ Reaches r.path (request r 3 object 0 dst (leBytes 4 total.toNat)) s ∧
         writeTarget (judged r.path s).chip (actingMaster s.chip r.path) object.toNat = Except.ok d ∧ lengthStatus d
         total.toNat ≠ St.ok) ∧
    (let r : Req := { path := Path.mailbox 0 0, txn := 0x1#16 }; let object : BitVec 32 := 0x70002004#32
     let dst : Byte := 0xff#8; let total : BitVec 32 := 0x8#32; let s := P36b.state1
     let d : ObjDesc := ((some (writeTarget (judged r.path s).chip (actingMaster s.chip r.path) object.toNat)).bind
         fun l => l.toOption).get (by decide +kernel)
     (judged r.path s).chip.boot.due = none ∧ Reaches r.path (request r 3 object 0 dst (leBytes 4 total.toNat)) s ∧
         writeTarget (judged r.path s).chip (actingMaster s.chip r.path) object.toNat = Except.ok d ∧ lengthStatus d
         total.toNat = St.ok ∧ (16 ≤ (List.filter (fun x => x.ended == SessionEnd.isOpen) (judged r.path
         s).chip.work.sessions).length)) ∧
    (let r : Req := { path := Path.can 0 0x7#8 false, txn := 0x1#16 }; let object : BitVec 32 := 0x70002004#32
     let dst : Byte := 0xff#8; let s := P36b.state3
     let x : Session := ((some (judged r.path s).chip.work.sessions).bind fun l => l.head?).get (by decide +kernel)
     (judged r.path s).chip.boot.due = none ∧ x.path = r.path ∧ x.master = actingMaster s.chip r.path ∧ x.txn =
         r.txn.toNat ∧ x.object = object.toNat ∧ actingMaster s.chip r.path ≠ none ∧ (judged r.path
         s).chip.work.sessions = [x] ∧ InSession r.path (request r 6 object 0 dst []) x s) ∧
    (let r : Req := { path := Path.can 0 0x7#8 false, txn := 0x1#16 }; let object : BitVec 32 := 0x70002004#32
     let dst : Byte := 0xff#8; let crc : BitVec 32 := 0x0#32; let s := P36b.state3
     let x : Session := ((some (judged r.path s).chip.work.sessions).bind fun l => l.head?).get (by decide +kernel)
     (judged r.path s).chip.boot.due = none ∧ x.path = r.path ∧ x.master = actingMaster s.chip r.path ∧ x.txn =
         r.txn.toNat ∧ x.object = object.toNat ∧ actingMaster s.chip r.path ≠ none ∧ (judged r.path
         s).chip.work.sessions = [x] ∧ InSession r.path (request r 5 object 0 dst (leBytes 4 crc.toNat)) x s ∧
         (x.data.length < x.total ∨ crc32c x.data ≠ crc.toNat)) ∧
    (let r : Req := { path := Path.can 0 0x7#8 false, txn := 0x1#16 }; let object : BitVec 32 := 0x70002004#32
     let dst : Byte := 0xff#8; let crc : BitVec 32 := 0x595a6933#32; let s := P36b.state3
     let x : Session := ((some (judged r.path s).chip.work.sessions).bind fun l => l.head?).get (by decide +kernel)
     (judged r.path s).chip.boot.due = none ∧ x.path = r.path ∧ x.master = actingMaster s.chip r.path ∧ x.txn =
         r.txn.toNat ∧ x.object = object.toNat ∧ actingMaster s.chip r.path ≠ none ∧ (judged r.path
         s).chip.work.sessions = [x] ∧ InSession r.path (request r 5 object 0 dst (leBytes 4 crc.toNat)) x s ∧ x.total
         ≤ x.data.length ∧ crc32c x.data = crc.toNat ∧ (writeWhole r.path (request r 5 object 0 dst (leBytes 4
         crc.toNat)) x.data (actingMaster s.chip r.path)
         { pending := (judged r.path s).pending, chip := endSession r.path (actingMaster s.chip r.path) (request r 5 object 0 dst (leBytes 4 crc.toNat)) (judged r.path s).chip, dust := (judged r.path s).dust }).2.later
         = false) := by
  refine ⟨?_, ?_, ?_, ?_, ?_, ?_, ?_, ?_, ?_, ?_, ?_, ?_, ?_, ?_, ?_, ?_⟩
  all_goals decide +kernel

/-- What NoticesAndTimeouts asks for is met. -/
theorem test_meets_NoticesAndTimeouts :
    (let s := State.reset
     (∀ t < 16, s.chip.hasFunction t = true ∨ (s.chip.tenant t).evtStatus &&& (s.chip.tenant t).evtEnable = 0)) ∧
    (let s := State.reset
     (∀ x ∈ s.chip.work.awaited, s.chip.now < x.at_ + 200000000)) ∧
    (let s := State.reset
     s.chip.flashPending = []) ∧
    (let k : Fin 2 := 0; let s := State.reset
     s.chip.num (Obj.canState k.val) ≠ 1 ∧ s.chip.num (Obj.canState k.val) ≠ 2 ∧ s.chip.num (Obj.canState k.val) ≠ 6) ∧
    (let k : Fin 2 := 0; let f := P36b.canrx0; let s := P36b.state2
     (s.chip.num (Obj.canState k.val) = 1 ∨ s.chip.num (Obj.canState k.val) = 2 ∨ s.chip.num (Obj.canState k.val) = 6)
         ∧ nerlilOf (frameReceived k.val s.chip) k.val f = none) ∧
    (let k : Fin 2 := 0; let f := P36b.canrx1; let s := P36b.state2; let node : Nat := 7
     let m : Msg :=
         { op := 0x7#8, txn := 0x1#16, object := 0x0#32, offset := 0x0#32, dst := 0xff#8, reserved := 0x0#16, data := [] }
     (s.chip.num (Obj.canState k.val) = 1 ∨ s.chip.num (Obj.canState k.val) = 2 ∨ s.chip.num (Obj.canState k.val) = 6)
         ∧ nerlilOf (frameReceived k.val s.chip) k.val f = some (node, m) ∧ seenBefore (frameReceived k.val s.chip)
         node m = true) ∧
    (let s := P36.state17; let t : Nat := 0
     let e : List Byte := [0x3#8, 0x9#8, 0xff#8, 0x10#8, 0x1#8, 0x0#8, 0x0#8, 0x0#8]
     t < 16 ∧ s.chip.hasFunction t = false ∧ (s.chip.tenant t).evtStatus &&& (s.chip.tenant t).evtEnable ≠ 0 ∧
         (s.chip.tenant t).notifyAt = none ∧ (∀ n < 16, n ≠ t → s.chip.hasFunction n = true ∨ (s.chip.tenant
         n).evtStatus &&& (s.chip.tenant n).evtEnable = 0) ∧ notifyEntry s.chip t = some e ∧ field e 0 1 = 3) ∧
    (let s := P36.state14
     let x : Awaited :=
         { path := Path.mailbox 0 0, txn := 1, op := 2, object := 0, offset := 0, length := 0, dst := 5, at_ := 0 }
     s.chip.work.awaited = [x] ∧ x.at_ + 200000000 ≤ s.chip.now) ∧
    (let s := P36.state13
     let w : FlashWrite :=
         { path := Path.mailbox 0 0, txn := 1, op := 2, object := 553648128, offset := 0, length := 1, master := some 16, data := [0x5#8] }
     let rest : List FlashWrite := []
     s.chip.flashPending = w :: rest) ∧
    (let k : Fin 2 := 0; let f := P36.canrx1; let s := P36.state18; let node : Nat := 7
     let m : Msg :=
         { op := 0x7#8, txn := 0x1#16, object := 0x0#32, offset := 0x0#32, dst := 0xff#8, reserved := 0x0#16, data := [] }
     (s.chip.num (Obj.canState k.val) = 1 ∨ s.chip.num (Obj.canState k.val) = 2 ∨ s.chip.num (Obj.canState k.val) = 6)
         ∧ nerlilOf (frameReceived k.val s.chip) k.val f = some (node, m) ∧ (frameReceived k.val s.chip).num
         Obj.canRedundancy ≠ 1) := by
  refine ⟨?_, ?_, ?_, ?_, ?_, ?_, ?_, ?_, ?_, ?_⟩
  all_goals decide +kernel

/-- What LathLinks asks for is met. -/
theorem test_meets_LathLinks :
    (let port : Fin 2 := 0; let s := State.reset
     s.chip.portState port.val ≠ portAlign ∧ s.chip.portState port.val ≠ portUp ∧ s.chip.portState port.val ≠
         portRetrain) ∧
    (let port : Fin 2 := 0; let s := P37.state2
     let cw : Codeword :=
         { seq := 0x0#8, ack := 0xff#8, nak := false, rpl := false, corrected := [], uncorrectable := true, slots := [] }
     s.chip.portState port.val = portUp ∧ cw.corrected = [] ∧ cw.uncorrectable = true) ∧
    (let port : Fin 2 := 0; let s := P37.state2; let cw := P37.codeword4
     s.chip.portState port.val = portUp ∧ cw.corrected = [] ∧ cw.uncorrectable = false ∧ cw.ack.toNat = (s.chip.port
         port.val).ack ∧ cw.nak = false ∧ 128 ≤ (cw.seq.toNat + 256 - (s.chip.port port.val).expect) % 256) ∧
    (let port : Fin 2 := 0; let s := P37.state2; let cw := P37.codeword3
     s.chip.portState port.val = portUp ∧ cw.corrected = [] ∧ cw.uncorrectable = false ∧ cw.ack.toNat = (s.chip.port
         port.val).ack ∧ cw.nak = false ∧ 0 < (cw.seq.toNat + 256 - (s.chip.port port.val).expect) % 256 ∧
         (cw.seq.toNat + 256 - (s.chip.port port.val).expect) % 256 < 128) ∧
    (let port : Fin 2 := 0; let s := P37.state2
     let cw : Codeword :=
         { seq := 0x0#8, ack := 0xff#8, nak := false, rpl := false, corrected := [], uncorrectable := false, slots := [] }
     s.chip.portState port.val = portUp ∧ cw.corrected = [] ∧ cw.uncorrectable = false ∧ cw.ack.toNat = (s.chip.port
         port.val).ack ∧ cw.nak = false ∧ (cw.seq.toNat + 256 - (s.chip.port port.val).expect) % 256 = 0 ∧ (takeFlits
         (slotsOf 20 cw.slots) (s.chip.port port.val).part).1.all flitCrcOk = false) ∧
    (let port : Fin 2 := 0; let s := P37.state2
     s.chip.portState port.val = portUp ∧ (s.chip.port port.val).replays = [] ∧ (s.chip.port port.val).resends < 7) ∧
    (let port : Fin 2 := 0; let s := P37.state5
     s.chip.portState port.val = portUp ∧ (s.chip.port port.val).resends = 7 ∧ (s.chip.port port.val).retrains = []) ∧
    (let k : Nat := 1; let counts : List (BitVec 16) := []
     0 < k ∧ k < 6 ∧ counts.length ≤ 6) ∧
    (let port : Fin 2 := 0; let s := State.reset
     (s.chip.portState port.val ≠ portUp ∨ s.chip.isMaster = true)) ∧
    (let port : Fin 2 := 0; let s := P37.state10
     s.chip.portState port.val = portUp ∧ s.chip.isMaster = false ∧ s.chip.refState = refChain ∧
         s.chip.time.chainHoldover = false) ∧
    (let port : Fin 2 := 0; let s := State.reset
     (s.chip.port port.val).delayAsked = none) ∧
    (let port : Fin 2 := 0; let s := P37.state6; let seq : BitVec 16 := 0x0#16; let t1 : Nat := 0
     (s.chip.port port.val).delayAsked = some (seq.toNat, t1)) ∧
    (let port : Fin 2 := 0; let s := P37.state1
     (s.chip.portState port.val = portAlign ∨ s.chip.portState port.val = portUp ∧ (s.chip.port port.val).peer = none)) ∧
    (let port : Fin 2 := 0; let s := P37.state1
     (s.chip.portState port.val = portAlign ∨ s.chip.portState port.val = portUp)) ∧
    (let port : Fin 2 := 0; let s := State.reset
     s.chip.now < (s.chip.port port.val).heard + s.chip.num Obj.chainHeartbeatMiss * 100000) ∧
    (let port : Fin 2 := 0; let s := P37.state13
     (s.chip.port port.val).heard + s.chip.num Obj.chainHeartbeatMiss * 100000 ≤ s.chip.now) ∧
    (let port : Fin 2 := 0; let s := State.reset
     s.chip.portState port.val ≠ portDetect) ∧
    (let port : Fin 2 := 0; let s := P37.state15
     s.chip.portState port.val = portDetect) ∧
    (let port : Fin 2 := 0; let s := State.reset
     s.chip.portState port.val ≠ portTrain) ∧
    (let port : Fin 2 := 0; let s := State.reset; let lanes : BitVec 4 := 0x0#4
     (s.chip.portState port.val ≠ portTrain ∨ s.chip.usable port.val lanes.toNat = 0)) ∧
    (let port : Fin 2 := 0; let s := P37.state16; let lanes : BitVec 4 := 0x3#4
     s.chip.portState port.val = portTrain ∧ 0 < s.chip.usable port.val lanes.toNat) ∧
    (let port : Fin 2 := 0; let s := State.reset
     (s.chip.portState port.val ≠ portAlign ∨ (s.chip.port port.val).peer = none)) ∧
    (let port : Fin 2 := 0; let s := P37.state9
     let h : Hello := { role := 0, version := 2, width := 4, serial := [] }
     s.chip.portState port.val = portAlign ∧ (s.chip.port port.val).peer = some h ∧ h.version ≠ 1) ∧
    (let port : Fin 2 := 0; let s := P37.state8
     let h : Hello := { role := 0, version := 1, width := 4, serial := [] }
     s.chip.portState port.val = portAlign ∧ (s.chip.port port.val).peer = some h ∧ h.version = 1 ∧ h.role = port.val) ∧
    (let port : Fin 2 := 0; let s := P37.state7
     let h : Hello := { role := 1, version := 1, width := 4, serial := [] }
     s.chip.portState port.val = portAlign ∧ (s.chip.port port.val).peer = some h ∧ h.version = 1 ∧ h.role ≠ port.val) ∧
    (let port : Fin 2 := 0; let s := P37.state2
     s.chip.portState port.val = portUp ∧ (s.chip.port port.val).retrains = []) ∧
    (let port : Fin 2 := 0; let s := State.reset; let lanes : BitVec 4 := 0x0#4
     (s.chip.portState port.val ≠ portRetrain ∨ s.chip.usable port.val lanes.toNat = 0)) ∧
    (let port : Fin 2 := 0; let s := P37.state3; let lanes : BitVec 4 := 0xf#4
     s.chip.portState port.val = portRetrain ∧ s.chip.usable port.val lanes.toNat = 4 ∧ (∀ l ∈ portLanes port.val,
         s.chip.num (Obj.lathLaneState l) ≠ 1 ∨ bit lanes.toNat (l - 4 * port.val) = true)) ∧
    (let port : Fin 2 := 0; let s := State.reset
     s.chip.portState port.val ≠ portUp ∧ s.chip.portState port.val ≠ portRetrain ∧ s.chip.portState port.val ≠
         portMiswired) ∧
    (let port : Fin 2 := 0; let s := P37.state2
     (s.chip.portState port.val = portUp ∨ s.chip.portState port.val = portRetrain ∨ s.chip.portState port.val =
         portMiswired)) ∧
    (let s := State.reset
     s.chip.isMaster = false) ∧
    (let s := P37.state12
     s.chip.isMaster = true) ∧
    (let s := State.reset
     s.chip.chain.losses = []) ∧
    (let r : Req := { path := Path.mailbox 0 0, txn := 0x1#16 }; let a : Nat := 16; let port : Fin 2 := 0
     let s := P37.state20
     (judged r.path s).chip.may 24 0 a 3 = false ∧ Writes r a (Obj.lathPortEnable port.val) [1] s) ∧
    (let r : Req := { path := Path.mailbox 0 0, txn := 0x1#16 }; let a : Nat := 16; let port : Fin 2 := 0
     let s := P37.state20
     (judged r.path s).chip.may 24 0 a 3 = false ∧ Writes r a (Obj.lathPortEnable port.val) [0] s) ∧
    (let r : Req := { path := Path.mailbox 0 0, txn := 0x1#16 }; let a : Nat := 16; let port : Fin 2 := 0
     let s := P37.state20
     (judged r.path s).chip.may 24 0 a 3 = false ∧ Writes r a (Obj.lathPortReset port.val) [1] s) ∧
    (let r : Req := { path := Path.mailbox 0 0, txn := 0x1#16 }; let a : Nat := 16; let port : Fin 2 := 0
     let s := P37.state20
     (judged r.path s).chip.may 24 0 a 3 = false ∧ Writes r a (Obj.lathPortRetired port.val) [0] s) ∧
    (let r : Req := { path := Path.mailbox 0 0, txn := 0x1#16 }; let a : Nat := 16; let lane : Fin 8 := 0
     let s := P37.state20
     (judged r.path s).chip.may 24 0 a 3 = false ∧ Writes r a (Obj.lathLaneRetired lane.val) [0] s) ∧
    (let r : Req := { path := Path.mailbox 0 0, txn := 0x1#16 }; let a : Nat := 16; let port : Fin 2 := 0
     let s := State.reset
     (judged r.path s).chip.may 24 0 a 3 = true ∧ Writes r a (Obj.lathPortEnable port.val) [1] s ∧ (judged r.path
         s).chip.portState port.val = portDisabled ∧ (judged r.path s).chip.num (Obj.lathPortRetired port.val) = 0) ∧
    (let r : Req := { path := Path.mailbox 0 0, txn := 0x1#16 }; let a : Nat := 16; let port : Fin 2 := 0
     let s := P37.state1
     (judged r.path s).chip.may 24 0 a 3 = true ∧ Writes r a (Obj.lathPortEnable port.val) [1] s ∧ (judged r.path
         s).chip.portState port.val ≠ portDisabled) ∧
    (let r : Req := { path := Path.mailbox 0 0, txn := 0x1#16 }; let a : Nat := 16; let port : Fin 2 := 0
     let s := P37.state1
     (judged r.path s).chip.may 24 0 a 3 = true ∧ Writes r a (Obj.lathPortEnable port.val) [0] s ∧ (judged r.path
         s).chip.portState port.val ≠ portDisabled) ∧
    (let r : Req := { path := Path.mailbox 0 0, txn := 0x1#16 }; let a : Nat := 16; let port : Fin 2 := 0
     let s := State.reset
     (judged r.path s).chip.may 24 0 a 3 = true ∧ Writes r a (Obj.lathPortReset port.val) [1] s ∧ (judged r.path
         s).chip.portState port.val ≠ portUp ∧ (judged r.path s).chip.portState port.val ≠ portRetrain) ∧
    (let r : Req := { path := Path.mailbox 0 0, txn := 0x1#16 }; let a : Nat := 16; let port : Fin 2 := 0
     let s := P37.state2
     (judged r.path s).chip.may 24 0 a 3 = true ∧ Writes r a (Obj.lathPortReset port.val) [1] s ∧ (judged r.path
         s).chip.portState port.val = portUp ∧ ((judged r.path s).chip.port port.val).retrains = []) ∧
    (let r : Req := { path := Path.mailbox 0 0, txn := 0x1#16 }; let a : Nat := 16; let port : Fin 2 := 0
     let s := P37.state18
     (judged r.path s).chip.may 24 0 a 3 = true ∧ Writes r a (Obj.lathPortRetired port.val) [0] s ∧ (judged r.path
         s).chip.portState port.val = portRetired) ∧
    (let r : Req := { path := Path.mailbox 0 0, txn := 0x1#16 }; let a : Nat := 16; let lane : Fin 8 := 0
     let s := P37.state23
     (judged r.path s).chip.may 24 0 a 3 = true ∧ Writes r a (Obj.lathLaneRetired lane.val) [0] s ∧ (judged r.path
         s).chip.num (Obj.lathLaneRetired lane.val) ≠ 0) := by
  refine ⟨?_, ?_, ?_, ?_, ?_, ?_, ?_, ?_, ?_, ?_, ?_, ?_, ?_, ?_, ?_, ?_, ?_, ?_, ?_, ?_, ?_, ?_, ?_, ?_, ?_, ?_, ?_,
    ?_, ?_, ?_, ?_, ?_, ?_, ?_, ?_, ?_, ?_, ?_, ?_, ?_, ?_, ?_, ?_, ?_, ?_⟩
  all_goals decide +kernel

/-- What ChainViews asks for is met. -/
theorem test_meets_ChainViews :
    (let port : Fin 2 := 0; let s := State.reset
     s.chip.isUp port.val = false) ∧
    (let fields : List Nat := [7, 64, 5, 5, 255, 0, 0, 0, 0, 0, 2, 0, 1, 5, 1, 2, 0, 1]; let s := P38.state5
     (fields.headD 0, fields.getD 1 0) ∈ s.chip.chain.applyRelayed) ∧
    (let port : Fin 2 := 0; let fields : List Nat := []; let s := P38.state1
     s.chip.isUp port.val = true ∧ (fields.headD 0, fields.getD 1 0) ∉ s.chip.chain.applyRelayed ∧ s.chip.num
         Obj.chainState < 2) ∧
    (let port : Fin 2 := 0; let fields : List Nat := [7, 64, 5, 5, 255, 0, 0, 0, 0, 0, 2, 0, 1, 5, 1, 2, 0, 1]
     let s := P38.state9
     s.chip.isUp port.val = true ∧ (fields.headD 0, fields.getD 1 0) ∉ s.chip.chain.applyRelayed ∧ 2 ≤ s.chip.num
         Obj.chainState ∧ s.chip.chain.view.anchor = (View.ofFields fields).anchor ∧ bit (s.chip.num
         Obj.chainQuarantineCause) 2 = false) ∧
    (let port : Fin 2 := 0; let fields : List Nat := []; let s := P38.state11
     s.chip.isUp port.val = true ∧ (fields.headD 0, fields.getD 1 0) ∉ s.chip.chain.applyRelayed ∧ bit (s.chip.num
         Obj.chainQuarantineCause) 2 = true) ∧
    (let s := State.reset
     (s.chip.chain.censusOn = false ∨ s.chip.chain.computed.isSome = true ∨ s.chip.now < s.chip.chain.newAt +
         20000000)) ∧
    (let s := P38.state12
     s.chip.chain.censusOn = true ∧ s.chip.chain.computed = none ∧ s.chip.chain.newAt + 20000000 ≤ s.chip.now ∧
         s.chip.chain.votes = []) ∧
    (let s := State.reset
     (s.chip.chain.computed = none ∨ s.chip.chain.nextView.isSome = true ∨ s.chip.now < s.chip.chain.settledAt +
         100000000)) ∧
    (let s := P38.state13
     s.chip.isUp 0 = true ∧ s.chip.isUp 1 = false ∧ s.chip.chain.computed.isSome = true ∧ s.chip.chain.nextView = none
         ∧ s.chip.chain.settledAt + 100000000 ≤ s.chip.now) ∧
    (let s := State.reset
     (s.chip.chain.nextView = none ∨ s.chip.time.stc % 64 ≠ 0)) ∧
    (let s := P38.state14
     let w : View := (Option.map (fun l => l.1) (some s.chip.chain.nextView).join).get (by decide +kernel)
     let t : Nat := 64
     s.chip.chain.nextView = some (w, t) ∧ s.chip.time.stc < t) ∧
    (let s := P38.state15
     let w : View := (Option.map (fun l => l.1) (some s.chip.chain.nextView).join).get (by decide +kernel)
     let t : Nat := 64
     s.chip.chain.nextView = some (w, t) ∧ t ≤ s.chip.time.stc ∧ s.chip.time.stc % 64 = 0) ∧
    (let s := State.reset
     (s.chip.num Obj.chainState < 2 ∨ s.chip.num Obj.chainState = 4 ∨ s.chip.elected = none)) ∧
    (let s := State.reset
     (∀ l ∈ s.chip.chain.losses, l.switched = true ∨ s.chip.time.stc < l.switch)) ∧
    (let s := State.reset
     (∀ l ∈ s.chip.chain.losses, s.chip.time.stc < l.effective)) ∧
    (let s := P38.state25
     let l : Loss := { lost := 1, switch := 40, effective := 64, mine := false, switched := false }
     s.chip.chain.losses = [l] ∧ l.effective ≤ s.chip.time.stc) := by
  refine ⟨?_, ?_, ?_, ?_, ?_, ?_, ?_, ?_, ?_, ?_, ?_, ?_, ?_, ?_, ?_, ?_⟩
  all_goals decide +kernel

/-- What ChainConfiguration asks for is met. -/
theorem test_meets_ChainConfiguration :
    (let o : BitVec 32 := 0x0#32
     isScope o.toNat = false) ∧
    (let r : Req := { path := Path.mailbox 0 0, txn := 0x1#16 }; let a : Nat := 16
     let o : BitVec 32 := 0x30002001#32; let data : List Byte := [0x1#8, 0x0#8]; let s := P39.state1
     Writes r a o.toNat data s ∧ isScope o.toNat = true ∧ (judged r.path s).chip.isMember = false ∧ (judged r.path
         s).chip.isQuarantined = false ∧ belowMin (judged r.path s).chip o.toNat (leNat data) = true) ∧
    (let r : Req := { path := Path.mailbox 0 0, txn := 0x1#16 }; let a : Nat := 16
     let o : BitVec 32 := 0x50001b00#32; let data : List Byte := [0x3#8]; let s := State.reset
     Writes r a o.toNat data s ∧ isScope o.toNat = true ∧ (judged r.path s).chip.isMember = false ∧ (judged r.path
         s).chip.isQuarantined = false ∧ belowMin (judged r.path s).chip o.toNat (leNat data) = false) ∧
    (let r : Req := { path := Path.mailbox 0 0, txn := 0x1#16 }; let a : Nat := 16
     let o : BitVec 32 := 0x50001b00#32; let data : List Byte := [0x3#8]; let s := P39.state3
     Writes r a o.toNat data s ∧ isScope o.toNat = true ∧ (judged r.path s).chip.isQuarantined = true ∧ (judged r.path
         s).chip.may 25 0 a 3 = true) ∧
    (let r : Req := { path := Path.mailbox 0 0, txn := 0x1#16 }; let a : Nat := 16
     let o : BitVec 32 := 0x50001b00#32; let data : List Byte := [0x3#8]; let s := P39.state4
     Writes r a o.toNat data s ∧ isScope o.toNat = true ∧ (judged r.path s).chip.isQuarantined = true ∧ (judged r.path
         s).chip.may 25 0 a 3 = false) ∧
    (let r : Req := { path := Path.mailbox 0 0, txn := 0x1#16 }; let a : Nat := 16
     let o : BitVec 32 := 0x30002001#32; let data : List Byte := [0x1#8, 0x0#8]; let s := P39.state2
     Writes r a o.toNat data s ∧ isScope o.toNat = true ∧ (judged r.path s).chip.isMember = true ∧ (judged r.path
         s).chip.may 25 0 a 3 = true ∧ belowMin (judged r.path s).chip o.toNat (leNat data) = true) ∧
    (let r : Req := { path := Path.mailbox 0 0, txn := 0x1#16 }; let a : Nat := 16
     let o : BitVec 32 := 0x50001b00#32; let data : List Byte := [0x3#8]; let s := P39.state9
     Writes r a o.toNat data s ∧ isScope o.toNat = true ∧ (judged r.path s).chip.isMember = true ∧ (judged r.path
         s).chip.may 25 0 a 3 = true ∧ belowMin (judged r.path s).chip o.toNat (leNat data) = false ∧ ((judged r.path
         s).chip.chain.writer.isSome = true ∨ (judged r.path s).chip.chain.proposal.isSome = true ∨ (judged r.path
         s).chip.num Obj.chainAnchor = 255)) ∧
    (let r : Req := { path := Path.mailbox 0 0, txn := 0x1#16 }; let a : Nat := 16
     let o : BitVec 32 := 0x50001b00#32; let data : List Byte := [0x3#8]; let s := P39.state2
     Writes r a o.toNat data s ∧ isScope o.toNat = true ∧ (judged r.path s).chip.isMember = true ∧ (judged r.path
         s).chip.may 25 0 a 3 = true ∧ belowMin (judged r.path s).chip o.toNat (leNat data) = false ∧ (judged r.path
         s).chip.chain.writer = none ∧ (judged r.path s).chip.chain.proposal = none ∧ (judged r.path s).chip.num
         Obj.chainAnchor ≠ 255 ∧ (judged r.path s).chip.num Obj.chainAnchor = (judged r.path s).chip.me) ∧
    (let r : Req := { path := Path.mailbox 0 0, txn := 0x1#16 }; let a : Nat := 16
     let o : BitVec 32 := 0x50001b00#32; let data : List Byte := [0x3#8]; let s := P39.state8
     Writes r a o.toNat data s ∧ isScope o.toNat = true ∧ (judged r.path s).chip.isMember = true ∧ (judged r.path
         s).chip.may 25 0 a 3 = true ∧ belowMin (judged r.path s).chip o.toNat (leNat data) = false ∧ (judged r.path
         s).chip.chain.writer = none ∧ (judged r.path s).chip.chain.proposal = none ∧ (judged r.path s).chip.num
         Obj.chainAnchor ≠ 255 ∧ (judged r.path s).chip.num Obj.chainAnchor ≠ (judged r.path s).chip.me) ∧
    (let s := State.reset
     s.chip.isMember = false ∧ s.chip.isQuarantined = false) ∧
    (let fields : List Nat := []; let s := P39.state2
     s.chip.isMember = true ∧ fields.getD 3 0 = 0 ∧ s.chip.num Obj.chainAnchor = s.chip.me ∧ s.chip.chain.proposal =
         none) ∧
    (let fields : List Nat := []; let s := P39.state8
     s.chip.isMember = true ∧ fields.getD 3 0 = 0 ∧ (s.chip.num Obj.chainAnchor ≠ s.chip.me ∨
         s.chip.chain.proposal.isSome = true)) ∧
    (let chip : Byte := 0x0#8; let fields : List Nat := [1342184192, 5, 7, 64]; let s := P39.state9
     s.chip.isMember = true ∧ fields.getD 3 0 ≠ 0 ∧ BitVec.toNat chip ≠ s.chip.num Obj.chainAnchor) ∧
    (let chip : Byte := 0x0#8; let fields : List Nat := [1342184192, 5, 7, 64]; let s := P39.state2
     s.chip.isMember = true ∧ fields.getD 3 0 ≠ 0 ∧ BitVec.toNat chip = s.chip.num Obj.chainAnchor ∧
         s.chip.chain.writer = none) ∧
    (let s := State.reset
     (s.chip.chain.proposal = none ∨ s.chip.chain.anchorVotes = none)) ∧
    (let s := State.reset
     s.chip.chain.proposal = none) ∧
    (let fields : List Nat := [7, 5]; let s := P39.state11
     let p : Proposal :=
         { object := 1342184192, value := 5, epoch := 7, applyAt := 64, extra := [], listed := none, hash := 0 }
     let vs : List (Nat × Nat) := [(0, 0)]
     s.chip.chain.proposal = some p ∧ s.chip.chain.anchorVotes = some vs ∧ fields.getD 0 0 = p.epoch) ∧
    (let fields : List Nat := []; let s := P39.state11
     let p : Proposal :=
         { object := 1342184192, value := 5, epoch := 7, applyAt := 64, extra := [], listed := none, hash := 0 }
     let vs : List (Nat × Nat) := [(0, 0)]
     s.chip.chain.proposal = some p ∧ s.chip.chain.anchorVotes = some vs ∧ fields.getD 0 0 ≠ p.epoch) ∧
    (let s := P39.state13
     let p : Proposal :=
         { object := 1342184192, value := 5, epoch := 7, applyAt := 64, extra := [], listed := none, hash := 0 }
     let vs : List (Nat × Nat) := [(0, 0)]
     s.chip.chain.proposal = some p ∧ s.chip.chain.anchorVotes = some vs ∧ (s.chip.chain.applySent = true ∨
         s.chip.time.stc + s.chip.msTicks 5 < p.applyAt)) ∧
    (let s := P39.state11
     let p : Proposal :=
         { object := 1342184192, value := 5, epoch := 7, applyAt := 64, extra := [], listed := none, hash := 0 }
     let vs : List (Nat × Nat) := [(0, 0)]
     s.chip.chain.proposal = some p ∧ s.chip.chain.anchorVotes = some vs ∧ s.chip.chain.applySent = false ∧ p.applyAt
         ≤ s.chip.time.stc + s.chip.msTicks 5) ∧
    (let chip : Byte := 0x0#8; let fields : List Nat := []; let s := P39.state11
     let p : Proposal :=
         { object := 1342184192, value := 5, epoch := 7, applyAt := 64, extra := [], listed := none, hash := 0 }
     s.chip.chain.proposal = some p ∧ (fields.getD 0 0 ≠ p.epoch ∨ BitVec.toNat chip ≠ s.chip.num Obj.chainAnchor)) ∧
    (let chip : Byte := 0x1#8; let fields : List Nat := [7, 5]; let s := P39.state11
     let p : Proposal :=
         { object := 1342184192, value := 5, epoch := 7, applyAt := 64, extra := [], listed := none, hash := 0 }
     s.chip.chain.proposal = some p ∧ fields.getD 0 0 = p.epoch ∧ BitVec.toNat chip = s.chip.num Obj.chainAnchor) ∧
    (let s := P39.state11
     let p : Proposal :=
         { object := 1342184192, value := 5, epoch := 7, applyAt := 64, extra := [], listed := none, hash := 0 }
     s.chip.chain.proposal = some p ∧ s.chip.time.stc < p.applyAt) ∧
    (let s := P39.state12
     let p : Proposal :=
         { object := 1342184192, value := 5, epoch := 7, applyAt := 64, extra := [], listed := none, hash := 0 }
     s.chip.chain.proposal = some p ∧ p.applyAt ≤ s.chip.time.stc ∧ p.listed = none) ∧
    (let s := P39.state14
     let p : Proposal :=
         { object := 1342184192, value := 5, epoch := 7, applyAt := 64, extra := [], listed := some [0, 3], hash := 0 }
     let l : List Nat := [0, 3]
     s.chip.chain.proposal = some p ∧ p.applyAt ≤ s.chip.time.stc ∧ p.listed = some l ∧ p.object =
         Obj.chainHeartbeatMiss) ∧
    (let s := P39.state8
     s.chip.num Obj.chainAnchor ≠ s.chip.me) ∧
    (let s := State.reset
     s.chip.num Obj.chainAnchor = s.chip.me) ∧
    (let chip : Byte := 0x0#8; let s := State.reset
     BitVec.toNat chip ≠ s.chip.num Obj.chainAnchor) ∧
    (let chip : Byte := 0x0#8; let s := P39.state2
     BitVec.toNat chip = s.chip.num Obj.chainAnchor ∧ s.chip.chain.resync = false ∧ bit (s.chip.num
         Obj.chainQuarantineCause) 2 = false) ∧
    (let chip : Byte := 0x1#8; let s := P39.state17
     BitVec.toNat chip = s.chip.num Obj.chainAnchor ∧ s.chip.chain.resync = false ∧ bit (s.chip.num
         Obj.chainQuarantineCause) 2 = true) ∧
    (let s := State.reset
     (s.chip.num Obj.chainState < 2 ∨ s.chip.num Obj.chainState = 4)) ∧
    (let fields : List Nat := [0, 5, 0, 0]; let s := P39.state2; let n : Nat := 5; let tenant : Nat := 0
     2 ≤ s.chip.num Obj.chainState ∧ s.chip.num Obj.chainState ≠ 4 ∧ fields = [0, n, tenant, 0]) ∧
    (let fields : List Nat := [0, 3, 0, 3, 1, 2, 3]; let s := P39.state2; let n : Nat := 3; let tenant : Nat := 0
     let image : List Nat := [1, 2, 3]
     2 ≤ s.chip.num Obj.chainState ∧ s.chip.num Obj.chainState ≠ 4 ∧ fields = [0, n, tenant, image.length] ++ image ∧
         0 < image.length ∧ (commitReplica SetupKind.template n (16 + tenant) (List.map (BitVec.ofNat 8) image)
         s.chip).2.me ≠ 255) ∧
    (let fields : List Nat := []
     fields.getD 3 0 = 0 ∧ fields.getD 0 0 = 0) ∧
    (let fields : List Nat := [1, 2, 3]
     fields.getD 3 0 = 0 ∧ fields.getD 0 0 ≠ 0) ∧
    (let fields : List Nat := [7, 0, 0]; let s := State.reset
     (List.drop 1 fields = [(auditOf (List.map (fun x => x.2.id) (s.chip.layerVoices (fields.getD 0 0)))).1, (auditOf
         (List.map (fun x => x.2.id) (s.chip.layerVoices (fields.getD 0 0)))).2])) ∧
    (let fields : List Nat := []; let s := State.reset
     (List.drop 1 fields ≠ [(auditOf (List.map (fun x => x.2.id) (s.chip.layerVoices (fields.getD 0 0)))).1, (auditOf
         (List.map (fun x => x.2.id) (s.chip.layerVoices (fields.getD 0 0)))).2])) ∧
    (let s := P39.state18; let n : Nat := 7
     let e : ViewEntry := { serial := 5, number := 1, state := 2, cause := 0, weight := 1 }
     s.chip.isMember = true ∧ List.map Prod.fst s.chip.setup.layers = [n] ∧ s.chip.num (Obj.chainLayerHome n) =
         s.chip.me ∧ (List.filter (fun e => decide (e.number < 128) && e.number != s.chip.me)
         s.chip.chain.view.entries = [e])) ∧
    (let r : Req := { path := Path.mailbox 0 0, txn := 0x1#16 }; let a : Nat := 16; let s := State.reset
     let on : Bool := true
     (Writes r a Obj.chainQuarantineRequest [if on = true then 1 else 0] s) ∧ (judged r.path s).chip.num
         Obj.chainState < 2) ∧
    (let r : Req := { path := Path.mailbox 0 0, txn := 0x1#16 }; let a : Nat := 16; let s := P39.state2
     let on : Bool := true
     (Writes r a Obj.chainQuarantineRequest [if on = true then 1 else 0] s) ∧ 2 ≤ (judged r.path s).chip.num
         Obj.chainState) ∧
    (let r : Req := { path := Path.mailbox 0 0, txn := 0x1#16 }; let a : Nat := 16; let s := P39.state4
     Writes r a Obj.chainQuarantineResync [1] s ∧ (judged r.path s).chip.may 25 0 a 3 = false) ∧
    (let r : Req := { path := Path.mailbox 0 0, txn := 0x1#16 }; let a : Nat := 16; let s := State.reset
     Writes r a Obj.chainQuarantineResync [1] s ∧ (judged r.path s).chip.may 25 0 a 3 = true) ∧
    (let r : Req := { path := Path.mailbox 0 0, txn := 0x1#16 }; let a : Nat := 16; let s := State.reset
     let v : Byte := 0x0#8
     Writes r a Obj.hawkStealReserve [v] s ∧ (judged r.path s).chip.slotMinFits (BitVec.toNat v) = true) ∧
    (let r : Req := { path := Path.mailbox 0 0, txn := 0x1#16 }; let a : Nat := 16; let s := P39.state20
     let v : Byte := 0x0#8
     Writes r a Obj.hawkStealReserve [v] s ∧ (judged r.path s).chip.slotMinFits (BitVec.toNat v) = false) := by
  refine ⟨?_, ?_, ?_, ?_, ?_, ?_, ?_, ?_, ?_, ?_, ?_, ?_, ?_, ?_, ?_, ?_, ?_, ?_, ?_, ?_, ?_, ?_, ?_, ?_, ?_, ?_, ?_,
    ?_, ?_, ?_, ?_, ?_, ?_, ?_, ?_, ?_, ?_, ?_, ?_, ?_, ?_, ?_, ?_, ?_⟩
  all_goals decide +kernel

/-- What ClockReferences asks for is met. -/
theorem test_meets_ClockReferences :
    (let s := State.reset
     s.chip.filters = false) ∧
    (let s := P40.state1; let a : BitVec 64 := 0x1#64
     s.chip.filters = true ∧ s.chip.time.ref.periods = [] ∧ a ≠ 0 ∧ s.chip.refState = refAcquiring ∧
         s.chip.time.ref.good < 255) ∧
    (let s := P40.state4; let a : BitVec 64 := 0x9ef21b#64
     s.chip.filters = true ∧ 0 < s.chip.time.ref.mean ∧ 7 * s.chip.time.ref.mean ≤ 8 * (a.toNat -
         s.chip.time.ref.stoodIn * s.chip.time.ref.mean) ∧ 8 * (a.toNat - s.chip.time.ref.stoodIn *
         s.chip.time.ref.mean) ≤ 9 * s.chip.time.ref.mean ∧ s.chip.refState = refLocked ∧ s.chip.time.ref.acquiring =
         false ∧ (inPullRange s.chip.fs
         ({ s.chip.time.ref with periods := List.take 16 ((a.toNat - s.chip.time.ref.stoodIn * s.chip.time.ref.mean) :: s.chip.time.ref.periods), sinceAnomaly := Option.map (fun x => x + 1) s.chip.time.ref.sinceAnomaly, good := s.chip.time.ref.good + 1, flyGood := s.chip.time.ref.flyGood + 1 }
         : Ref).mean = true)) ∧
    (let s := P40.state2; let a : BitVec 64 := 0x9ef21b#64
     s.chip.filters = true ∧ 0 < s.chip.time.ref.mean ∧ 7 * s.chip.time.ref.mean ≤ 8 * (a.toNat -
         s.chip.time.ref.stoodIn * s.chip.time.ref.mean) ∧ 8 * (a.toNat - s.chip.time.ref.stoodIn *
         s.chip.time.ref.mean) ≤ 9 * s.chip.time.ref.mean ∧ s.chip.refState = refAcquiring ∧ s.chip.time.ref.good <
         255) ∧
    (let s := P40.state3; let a : BitVec 64 := 0x9ef21b#64
     s.chip.filters = true ∧ 0 < s.chip.time.ref.mean ∧ 7 * s.chip.time.ref.mean ≤ 8 * (a.toNat -
         s.chip.time.ref.stoodIn * s.chip.time.ref.mean) ∧ 8 * (a.toNat - s.chip.time.ref.stoodIn *
         s.chip.time.ref.mean) ≤ 9 * s.chip.time.ref.mean ∧ s.chip.refState = refAcquiring ∧ 255 ≤
         s.chip.time.ref.good ∧ (inPullRange s.chip.fs
         ({ s.chip.time.ref with periods := List.take 16 ((a.toNat - s.chip.time.ref.stoodIn * s.chip.time.ref.mean) :: s.chip.time.ref.periods), sinceAnomaly := Option.map (fun x => x + 1) s.chip.time.ref.sinceAnomaly, good := s.chip.time.ref.good + 1, flyGood := s.chip.time.ref.flyGood + 1 }
         : Ref).mean = true)) ∧
    (let s := P40.state7; let a : BitVec 64 := 0x9ef21b#64
     s.chip.filters = true ∧ 0 < s.chip.time.ref.mean ∧ 7 * s.chip.time.ref.mean ≤ 8 * (a.toNat -
         s.chip.time.ref.stoodIn * s.chip.time.ref.mean) ∧ 8 * (a.toNat - s.chip.time.ref.stoodIn *
         s.chip.time.ref.mean) ≤ 9 * s.chip.time.ref.mean ∧ s.chip.refState = refFlywheel ∧ s.chip.time.ref.acquiring
         = false ∧ 15 ≤ s.chip.time.ref.flyGood ∧ s.chip.time.ref.before = refSlewing) ∧
    (let s := P40.state2; let a : BitVec 64 := 0x0#64
     s.chip.filters = true ∧ 0 < s.chip.time.ref.mean ∧ (8 * a.toNat + s.chip.time.ref.mean < 8 *
         ((s.chip.time.ref.stoodIn + 1) * s.chip.time.ref.mean) ∨ 8 * ((s.chip.time.ref.stoodIn + 1) *
         s.chip.time.ref.mean) + s.chip.time.ref.mean < 8 * a.toNat) ∧ s.chip.time.ref.sinceAnomaly = none) ∧
    (let s := P40.state11; let a : BitVec 64 := 0x0#64; let n : Nat := 17
     s.chip.filters = true ∧ 0 < s.chip.time.ref.mean ∧ (8 * a.toNat + s.chip.time.ref.mean < 8 *
         ((s.chip.time.ref.stoodIn + 1) * s.chip.time.ref.mean) ∨ 8 * ((s.chip.time.ref.stoodIn + 1) *
         s.chip.time.ref.mean) + s.chip.time.ref.mean < 8 * a.toNat) ∧ s.chip.time.ref.sinceAnomaly = some n ∧ 16 < n) ∧
    (let s := P40.state10; let a : BitVec 64 := 0x0#64; let n : Nat := 16
     s.chip.filters = true ∧ 0 < s.chip.time.ref.mean ∧ (8 * a.toNat + s.chip.time.ref.mean < 8 *
         ((s.chip.time.ref.stoodIn + 1) * s.chip.time.ref.mean) ∨ 8 * ((s.chip.time.ref.stoodIn + 1) *
         s.chip.time.ref.mean) + s.chip.time.ref.mean < 8 * a.toNat) ∧ s.chip.time.ref.sinceAnomaly = some n ∧ n ≤ 16) ∧
    (let s := P40.state10; let n : Nat := 16
     s.chip.filters = true ∧ 0 < s.chip.time.ref.mean ∧ s.chip.time.ref.sinceAnomaly = some n ∧ 16 ≤ n) ∧
    (let s := P40.state12; let n : Nat := 15
     s.chip.filters = true ∧ 0 < s.chip.time.ref.mean ∧ s.chip.time.ref.sinceAnomaly = some n ∧ n < 16) ∧
    (let s := State.reset
     s.chip.refState ≠ refSlewing) ∧
    (let s := P40.state13
     s.chip.refState = refSlewing) ∧
    (let s := State.reset
     (s.chip.refState ≠ refFlywheel ∨ s.chip.time.stc < s.chip.time.ref.lossTick + 64)) ∧
    (let s := P40.state16
     s.chip.refState = refFlywheel ∧ s.chip.time.ref.lossTick + 64 ≤ s.chip.time.stc) ∧
    (let s := State.reset
     (s.chip.refState ≠ refHoldover ∨ s.chip.now < s.chip.time.ref.heldAt + 10000000000)) ∧
    (let s := P40.state18
     s.chip.refState = refHoldover ∧ s.chip.time.ref.heldAt + 10000000000 ≤ s.chip.now) ∧
    (let s := State.reset
     (s.chip.refState ≠ refChain ∨ s.chip.time.chainHoldover = true ∨ s.chip.now < s.chip.time.syncAt + 64000)) ∧
    (let s := P40.state21
     s.chip.refState = refChain ∧ s.chip.time.chainHoldover = false ∧ s.chip.time.syncAt + 64000 ≤ s.chip.now) ∧
    (let s := State.reset
     (s.chip.refState ≠ refChain ∨ s.chip.num Obj.chainClockClass ≠ 1 ∨ s.chip.now < s.chip.time.ref.heldAt +
         10000000000)) ∧
    (let s := P40.state22
     s.chip.refState = refChain ∧ s.chip.num Obj.chainClockClass = 1 ∧ s.chip.time.ref.heldAt + 10000000000 ≤
         s.chip.now) ∧
    (let s := State.reset
     (s.chip.time.chainRebase = none ∨ bit (s.chip.num Obj.chainQuarantineCause) 2 = false ∨
         s.chip.time.transition.isSome = true)) ∧
    (let s := P40.state24; let rb : Nat × Nat × Nat := (5, 6, 96000)
     s.chip.time.chainRebase = some rb ∧ bit (s.chip.num Obj.chainQuarantineCause) 2 = true ∧ s.chip.time.transition =
         none) ∧
    (let r : Req := { path := Path.mailbox 0 0, txn := 0x1#16 }; let a : Nat := 16; let source : Fin 2 := 0
     let s := P40.state20
     Writes r a Obj.plumbClockSource [BitVec.ofNat 8 source.val] s ∧ (judged r.path s).chip.refState = refChain) ∧
    (let r : Req := { path := Path.mailbox 0 0, txn := 0x1#16 }; let a : Nat := 16; let source : Fin 2 := 0
     let s := State.reset
     Writes r a Obj.plumbClockSource [BitVec.ofNat 8 source.val] s ∧ (judged r.path s).chip.refState ≠ refChain ∧
         source = 0) ∧
    (let r : Req := { path := Path.mailbox 0 0, txn := 0x1#16 }; let a : Nat := 16; let source : Fin 2 := 1
     let s := State.reset
     Writes r a Obj.plumbClockSource [BitVec.ofNat 8 source.val] s ∧ (judged r.path s).chip.refState = refFree ∧
         source = 1) ∧
    (let r : Req := { path := Path.mailbox 0 0, txn := 0x1#16 }; let a : Nat := 16; let source : Fin 2 := 1
     let s := P40.state1
     Writes r a Obj.plumbClockSource [BitVec.ofNat 8 source.val] s ∧ (judged r.path s).chip.refState ≠ refFree ∧
         (judged r.path s).chip.refState ≠ refChain ∧ source = 1) := by
  refine ⟨?_, ?_, ?_, ?_, ?_, ?_, ?_, ?_, ?_, ?_, ?_, ?_, ?_, ?_, ?_, ?_, ?_, ?_, ?_, ?_, ?_, ?_, ?_, ?_, ?_, ?_, ?_⟩
  all_goals decide +kernel

/-- What RatesTempoAndTimers asks for is met. -/
theorem test_meets_RatesTempoAndTimers :
    (let r : Req := { path := Path.mailbox 0 0, txn := 0x1#16 }; let a : Nat := 16; let s := State.reset
     let rate : Fin 6 := 0
     (judged r.path s).chip.isMember = false ∧ (judged r.path s).chip.isQuarantined = false ∧ Writes r a
         Obj.plumbSampleRate (leBytes 1 rate.val) s ∧ (judged r.path s).chip.time.transition = none) ∧
    (let r : Req := { path := Path.mailbox 0 0, txn := 0x1#16 }; let a : Nat := 16; let s := P40.state26
     let rate : Fin 6 := 0
     (judged r.path s).chip.isMember = false ∧ (judged r.path s).chip.isQuarantined = false ∧ Writes r a
         Obj.plumbSampleRate (leBytes 1 rate.val) s ∧ (judged r.path s).chip.time.transition.isSome = true) ∧
    (let r : Req := { path := Path.mailbox 0 0, txn := 0x1#16 }; let a : Nat := 16; let s := State.reset
     let b : Byte := 0x20#8
     (judged r.path s).chip.isMember = false ∧ (judged r.path s).chip.isQuarantined = false ∧ Writes r a
         Obj.plumbBlockSize [b] s ∧ BitVec.toNat b = (judged r.path s).chip.bsize ∧ (judged r.path
         s).chip.time.blockNext = none) ∧
    (let r : Req := { path := Path.mailbox 0 0, txn := 0x1#16 }; let a : Nat := 16; let s := State.reset
     let b : Byte := 0x40#8
     (judged r.path s).chip.isMember = false ∧ (judged r.path s).chip.isQuarantined = false ∧ Writes r a
         Obj.plumbBlockSize [b] s ∧ BitVec.toNat b ≠ (judged r.path s).chip.bsize ∧ (judged r.path
         s).chip.time.transition = none) ∧
    (let r : Req := { path := Path.mailbox 0 0, txn := 0x1#16 }; let a : Nat := 16; let s := State.reset
     (judged r.path s).chip.isMember = false ∧ (judged r.path s).chip.isQuarantined = false ∧ Writes r a
         Obj.plumbTempoGo [1] s) ∧
    (let r : Req := { path := Path.mailbox 0 0, txn := 0x1#16 }; let a : Nat := 16; let s := State.reset
     (judged r.path s).chip.isMember = false ∧ (judged r.path s).chip.isQuarantined = false ∧ Writes r a
         Obj.plumbTempoGo [2] s) ∧
    (let r : Req := { path := Path.mailbox 0 0, txn := 0x1#16 }; let a : Nat := 16; let s := State.reset
     (judged r.path s).chip.isMember = false ∧ (judged r.path s).chip.isQuarantined = false ∧ Writes r a
         Obj.plumbTempoGo [3] s) ∧
    (let s := State.reset
     s.chip.time.transition = none) ∧
    (let s := P40.state26
     let x : Transition :=
         { x := 64, y := 256, z := 320, rate := 4, block := 32, phase := 0, tz := 0, rebase := none }
     s.chip.time.transition = some x ∧ (x.phase ≠ 0 ∨ s.chip.time.stc < x.x)) ∧
    (let s := P40.state28
     let x : Transition :=
         { x := 64, y := 256, z := 320, rate := 4, block := 32, phase := 0, tz := 0, rebase := none }
     s.chip.time.transition = some x ∧ x.phase = 0 ∧ x.x ≤ s.chip.time.stc) ∧
    (let s := P40.state26
     let x : Transition :=
         { x := 64, y := 256, z := 320, rate := 4, block := 32, phase := 0, tz := 0, rebase := none }
     s.chip.time.transition = some x ∧ (x.phase ≠ 1 ∨ s.chip.time.stc < x.y)) ∧
    (let s := P40.state30
     let x : Transition :=
         { x := 64, y := 256, z := 320, rate := 4, block := 32, phase := 1, tz := 0, rebase := none }
     s.chip.time.transition = some x ∧ x.phase = 1 ∧ x.y ≤ s.chip.time.stc) ∧
    (let s := P40.state26
     let x : Transition :=
         { x := 64, y := 256, z := 320, rate := 4, block := 32, phase := 0, tz := 0, rebase := none }
     s.chip.time.transition = some x ∧ (x.phase ≠ 2 ∨ s.chip.time.stc < x.z)) ∧
    (let s := P40.state32
     let x : Transition :=
         { x := 64, y := 256, z := 320, rate := 4, block := 32, phase := 2, tz := 0, rebase := none }
     s.chip.time.transition = some x ∧ x.phase = 2 ∧ x.z ≤ s.chip.time.stc) ∧
    (let s := P40.state26
     let x : Transition :=
         { x := 64, y := 256, z := 320, rate := 4, block := 32, phase := 0, tz := 0, rebase := none }
     s.chip.time.transition = some x ∧ x.phase ≠ 3) ∧
    (let s := P40.state33
     let x : Transition :=
         { x := 64, y := 256, z := 320, rate := 4, block := 32, phase := 3, tz := 0, rebase := none }
     s.chip.time.transition = some x ∧ x.phase = 3 ∧ s.chip.time.second = none) ∧
    (let s := P40.state34
     let x : Transition :=
         { x := 64, y := 256, z := 320, rate := 4, block := 32, phase := 3, tz := 0, rebase := none }
     let tick : Nat := 64; let rate : Nat := 2; let rb : Option (Nat × Nat × Nat) := none
     s.chip.time.transition = some x ∧ x.phase = 3 ∧ s.chip.time.second = some (tick, rate, rb)) ∧
    (let s := State.reset
     (s.chip.time.blockNext = none ∨ s.chip.time.stc % 64 ≠ 0 ∨ s.chip.time.silent = true)) ∧
    (let s := P40.state35; let b : Nat := 64; let tick : Nat := 64
     s.chip.time.blockNext = some (b, tick) ∧ s.chip.time.stc < tick) ∧
    (let s := P40.state36; let b : Nat := 64; let tick : Nat := 64
     s.chip.time.blockNext = some (b, tick) ∧ tick ≤ s.chip.time.stc ∧ s.chip.time.stc % 64 = 0 ∧ s.chip.time.silent =
         false ∧ s.chip.time.transition = none) ∧
    (let s := State.reset
     (s.chip.time.tempoChange = none ∨ s.chip.time.silent = true)) ∧
    (let s := P40.state39
     let x : TempoChange := { kind := 1, tempo := 3932160, position := 77, tick := 101, late := false }
     s.chip.time.tempoChange = some x ∧ s.chip.time.silent = false ∧ s.chip.time.stc < max ((x.tick + 3) / 4 * 4)
         s.chip.time.anchorStep) ∧
    (let s := P40.state40
     let x : TempoChange := { kind := 1, tempo := 3932160, position := 77, tick := 101, late := false }
     s.chip.time.tempoChange = some x ∧ s.chip.time.silent = false ∧ max ((x.tick + 3) / 4 * 4) s.chip.time.anchorStep
         ≤ s.chip.time.stc) ∧
    (let s := State.reset; let u : Fin 16 := 0
     (s.chip.flag (Obj.timerEnable u.val) = false ∨ s.chip.clockCount (s.chip.num (Obj.timerClock u.val)) = (tget { }
         s.chip.time.timers u.val).mark)) ∧
    (let s := P40.state44; let u : Fin 16 := 0
     s.chip.flag (Obj.timerEnable u.val) = true ∧ (tget { } s.chip.time.timers u.val).mark < s.chip.clockCount
         (s.chip.num (Obj.timerClock u.val)) ∧ (s.chip.num (Obj.timerCounter u.val) + 1) % 2 ^ s.chip.num
         (Obj.timerWidth u.val) ≠ 0 ∧ s.chip.num (Obj.timerMode u.val) = 0) ∧
    (let s := P40.state46; let u : Fin 16 := 0
     s.chip.flag (Obj.timerEnable u.val) = true ∧ (tget { } s.chip.time.timers u.val).mark < s.chip.clockCount
         (s.chip.num (Obj.timerClock u.val)) ∧ (s.chip.num (Obj.timerCounter u.val) + 1) % 2 ^ s.chip.num
         (Obj.timerWidth u.val) ≠ 0 ∧ s.chip.num (Obj.timerMode u.val) = 1 ∧ s.chip.num (Obj.timerCompare0 u.val) ≠
         (s.chip.num (Obj.timerCounter u.val) + 1) % 2 ^ s.chip.num (Obj.timerWidth u.val)) ∧
    (let s := P40.state47; let u : Fin 16 := 0
     s.chip.flag (Obj.timerEnable u.val) = true ∧ (tget { } s.chip.time.timers u.val).mark < s.chip.clockCount
         (s.chip.num (Obj.timerClock u.val)) ∧ (s.chip.num (Obj.timerCounter u.val) + 1) % 2 ^ s.chip.num
         (Obj.timerWidth u.val) ≠ 0 ∧ s.chip.num (Obj.timerMode u.val) = 1 ∧ s.chip.num (Obj.timerCompare0 u.val) =
         (s.chip.num (Obj.timerCounter u.val) + 1) % 2 ^ s.chip.num (Obj.timerWidth u.val) ∧ 16 ≤ s.chip.num
         (Obj.timerOwner u.val) ∧ 256 ≤ s.chip.num (Obj.timerCore u.val)) ∧
    (let s := P40.state48; let u : Fin 16 := 0
     s.chip.flag (Obj.timerEnable u.val) = true ∧ (tget { } s.chip.time.timers u.val).mark < s.chip.clockCount
         (s.chip.num (Obj.timerClock u.val)) ∧ (s.chip.num (Obj.timerCounter u.val) + 1) % 2 ^ s.chip.num
         (Obj.timerWidth u.val) ≠ 0 ∧ s.chip.num (Obj.timerMode u.val) = 2 ∧ s.chip.num (Obj.timerCompare0 u.val) =
         (s.chip.num (Obj.timerCounter u.val) + 1) % 2 ^ s.chip.num (Obj.timerWidth u.val) ∧ s.chip.num
         (Obj.timerOwner u.val) < 16 ∧ 256 ≤ s.chip.num (Obj.timerCore u.val)) ∧
    (let s := P40.state49; let u : Fin 16 := 0
     s.chip.flag (Obj.timerEnable u.val) = true ∧ (tget { } s.chip.time.timers u.val).mark < s.chip.clockCount
         (s.chip.num (Obj.timerClock u.val)) ∧ (s.chip.num (Obj.timerCounter u.val) + 1) % 2 ^ s.chip.num
         (Obj.timerWidth u.val) = 0 ∧ s.chip.num (Obj.timerMode u.val) = 0 ∧ s.chip.num (Obj.timerStatus u.val) = 4) := by
  refine ⟨?_, ?_, ?_, ?_, ?_, ?_, ?_, ?_, ?_, ?_, ?_, ?_, ?_, ?_, ?_, ?_, ?_, ?_, ?_, ?_, ?_, ?_, ?_, ?_, ?_, ?_, ?_,
    ?_, ?_⟩
  all_goals decide +kernel

/-- What UartCharacters asks for is met. -/
theorem test_meets_UartCharacters :
    (let u : Fin 4 := 1; let s := State.reset
     s.chip.uartMode u.val = 0 ∧ s.chip.num Obj.powerState ≠ 2) ∧
    (let u : Fin 4 := 1
     let x : RxChar := { data := 0x41#9, parity := false, framing := false, noise := false, brk := false, low := 500 }
     let s := P41.state1
     s.chip.num Obj.powerState ≠ 2 ∧ u ≠ 0 ∧ s.chip.uartMode u.val = 3 ∧ x.parity = false ∧ x.framing = false ∧ x.brk
         = false ∧ (s.chip.uart u.val).rx.length < 128) ∧
    (let u : Fin 4 := 1
     let x : RxChar := { data := 0x41#9, parity := false, framing := false, noise := false, brk := false, low := 500 }
     let s := P41.state2
     s.chip.num Obj.powerState ≠ 2 ∧ u ≠ 0 ∧ s.chip.uartMode u.val = 3 ∧ x.parity = false ∧ x.framing = false ∧ x.brk
         = false ∧ 128 ≤ (s.chip.uart u.val).rx.length) ∧
    (let u : Fin 4 := 1
     let x : RxChar := { data := 0x13#9, parity := false, framing := false, noise := false, brk := false, low := 500 }
     let s := P41.state4
     s.chip.num Obj.powerState ≠ 2 ∧ u ≠ 0 ∧ s.chip.uartMode u.val = 1 ∧ s.chip.flowOn u.val = true ∧ x.parity = false
         ∧ x.framing = false ∧ x.brk = false ∧ x.data.toNat % 2 ^ (5 + (s.chip.uartCfg u.val).2.2 % 8) = 19) ∧
    (let u : Fin 4 := 1
     let x : RxChar := { data := 0x11#9, parity := false, framing := false, noise := false, brk := false, low := 500 }
     let s := P41.state4
     s.chip.num Obj.powerState ≠ 2 ∧ u ≠ 0 ∧ s.chip.uartMode u.val = 1 ∧ s.chip.flowOn u.val = true ∧ x.parity = false
         ∧ x.framing = false ∧ x.brk = false ∧ x.data.toNat % 2 ^ (5 + (s.chip.uartCfg u.val).2.2 % 8) = 17) ∧
    (let u : Fin 4 := 1
     let x : RxChar := { data := 0x41#9, parity := false, framing := false, noise := false, brk := false, low := 500 }
     let s := P41.state4
     s.chip.num Obj.powerState ≠ 2 ∧ u ≠ 0 ∧ s.chip.uartMode u.val = 1 ∧ s.chip.flowOn u.val = true ∧ x.parity = false
         ∧ x.framing = false ∧ x.brk = false ∧ x.data.toNat % 2 ^ (5 + (s.chip.uartCfg u.val).2.2 % 8) ≠ 19 ∧
         x.data.toNat % 2 ^ (5 + (s.chip.uartCfg u.val).2.2 % 8) ≠ 17) ∧
    (let u : Fin 4 := 1
     let x : RxChar := { data := 0x41#9, parity := false, framing := false, noise := false, brk := false, low := 500 }
     let s := P41.state7
     s.chip.num Obj.powerState ≠ 2 ∧ u ≠ 0 ∧ s.chip.uartMode u.val = 2 ∧ x.parity = false ∧ x.framing = false ∧ x.brk
         = false ∧ bit x.data.toNat 8 = false ∧ s.chip.flag (Obj.uartMute u.val) = true) ∧
    (let u : Fin 4 := 1
     let x : RxChar := { data := 0x41#9, parity := false, framing := false, noise := false, brk := false, low := 500 }
     let s := P41.state6
     s.chip.num Obj.powerState ≠ 2 ∧ u ≠ 0 ∧ s.chip.uartMode u.val = 2 ∧ x.parity = false ∧ x.framing = false ∧ x.brk
         = false ∧ bit x.data.toNat 8 = false ∧ s.chip.flag (Obj.uartMute u.val) = false) ∧
    (let u : Fin 4 := 1
     let x : RxChar :=
         { data := 0x141#9, parity := false, framing := false, noise := false, brk := false, low := 500 }
     let s := P41.state6
     s.chip.num Obj.powerState ≠ 2 ∧ u ≠ 0 ∧ s.chip.uartMode u.val = 2 ∧ x.parity = false ∧ x.framing = false ∧ x.brk
         = false ∧ bit x.data.toNat 8 = true ∧ s.chip.addressed u.val x.data.toNat = false) ∧
    (let u : Fin 4 := 1
     let x : RxChar :=
         { data := 0x105#9, parity := false, framing := false, noise := false, brk := false, low := 500 }
     let s := P41.state8
     s.chip.num Obj.powerState ≠ 2 ∧ u ≠ 0 ∧ s.chip.uartMode u.val = 2 ∧ x.parity = false ∧ x.framing = false ∧ x.brk
         = false ∧ bit x.data.toNat 8 = true ∧ s.chip.addressed u.val x.data.toNat = true) ∧
    (let u : Fin 4 := 1
     let x : RxChar := { data := 0x41#9, parity := false, framing := false, noise := false, brk := false, low := 500 }
     let s := P41.state9
     s.chip.num Obj.powerState ≠ 2 ∧ u ≠ 0 ∧ s.chip.uartMode u.val = 4 ∧ x.parity = false ∧ x.framing = false ∧ x.brk
         = false) ∧
    (let u : Fin 4 := 1
     let x : RxChar := { data := 0x41#9, parity := false, framing := false, noise := false, brk := false, low := 500 }
     let s := P41.state10
     s.chip.num Obj.powerState ≠ 2 ∧ u ≠ 0 ∧ s.chip.uartMode u.val = 5 ∧ x.parity = false ∧ x.framing = false ∧ x.brk
         = false) ∧
    (let u : Fin 4 := 1
     let x : RxChar := { data := 0x41#9, parity := false, framing := false, noise := false, brk := false, low := 500 }
     let s := P41.state11
     s.chip.num Obj.powerState ≠ 2 ∧ u ≠ 0 ∧ s.chip.uartMode u.val = 6 ∧ x.parity = false ∧ x.framing = false ∧ x.brk
         = false) ∧
    (let u : Fin 4 := 0
     let x : RxChar := { data := 0x41#9, parity := false, framing := false, noise := false, brk := false, low := 500 }
     let s := P41.state12
     s.chip.num Obj.powerState ≠ 2 ∧ u = 0 ∧ s.chip.uartMode u.val ≠ 0 ∧ x.brk = false ∧ s.chip.boot.img.isSome = true) ∧
    (let u : Fin 4 := 0
     let x : RxChar := { data := 0x0#9, parity := false, framing := true, noise := false, brk := true, low := 500 }
     let s := State.reset
     s.chip.num Obj.powerState ≠ 2 ∧ u = 0 ∧ s.chip.uartMode u.val ≠ 0 ∧ x.brk = true) ∧
    (let u : Fin 4 := 0; let s := P41.state14
     s.chip.num Obj.powerState = 2 ∧ s.chip.flag (Obj.uartWakeEnable u.val) = false) ∧
    (let u : Fin 4 := 1
     let x : RxChar := { data := 0x41#9, parity := false, framing := false, noise := false, brk := false, low := 500 }
     let s := P41.state17
     s.chip.num Obj.powerState = 2 ∧ s.chip.flag (Obj.uartWakeEnable u.val) = true ∧ s.chip.uartMode u.val = 2 ∧
         400000000 ≤ 9600 * (s.chip.uartCfg u.val).2.1 ∧ (x.brk = true ∨ bit x.data.toNat 8 = false ∨ s.chip.addressed
         u.val x.data.toNat = false)) ∧
    (let u : Fin 4 := 1
     let x : RxChar :=
         { data := 0x105#9, parity := false, framing := false, noise := false, brk := false, low := 500 }
     let s := P41.state17
     s.chip.num Obj.powerState = 2 ∧ s.chip.flag (Obj.uartWakeEnable u.val) = true ∧ s.chip.uartMode u.val = 2 ∧
         400000000 ≤ 9600 * (s.chip.uartCfg u.val).2.1 ∧ x.brk = false ∧ bit x.data.toNat 8 = true ∧ s.chip.addressed
         u.val x.data.toNat = true) ∧
    (let u : Fin 4 := 1; let s := P41.state15
     s.chip.num Obj.powerState = 2 ∧ s.chip.flag (Obj.uartWakeEnable u.val) = true ∧ s.chip.uartMode u.val ≠ 0 ∧
         (s.chip.uartMode u.val ≠ 2 ∨ 9600 * (s.chip.uartCfg u.val).2.1 < 400000000)) ∧
    (let u : Fin 4 := 0; let s := State.reset
     (s.chip.uart u.val).rx = []) ∧
    (let u : Fin 4 := 0; let s := P41.state19
     (s.chip.uart u.val).rx ≠ []) ∧
    (let u : Fin 4 := 0; let s := State.reset
     (s.chip.uart u.val).sending = none) ∧
    (let u : Fin 4 := 1; let s := P41.state21; let e : Nat := 5
     (s.chip.uart u.val).sending = some e ∧ (s.chip.uart u.val).cfg.isSome = true) ∧
    (let u : Fin 4 := 1; let s := P41.state20; let e : Nat := 5
     (s.chip.uart u.val).sending = some e ∧ s.chip.uartMode u.val ≠ 3 ∧ (s.chip.uart u.val).cfg = none) ∧
    (let u : Fin 4 := 1; let s := P41.state22; let e : Nat := 5
     (s.chip.uart u.val).sending = some e ∧ s.chip.uartMode u.val = 3 ∧ (s.chip.uart u.val).cfg = none ∧ (s.chip.uart
         u.val).attempts < s.chip.num (Obj.uartRetries u.val)) ∧
    (let u : Fin 4 := 1; let s := P41.state23; let e : Nat := 5
     (s.chip.uart u.val).sending = some e ∧ s.chip.uartMode u.val = 3 ∧ (s.chip.uart u.val).cfg = none ∧ s.chip.num
         (Obj.uartRetries u.val) ≤ (s.chip.uart u.val).attempts) ∧
    (let r : Req := { path := Path.mailbox 0 0, txn := 0x1#16 }; let a : Nat := 16; let u : Fin 4 := 0
     let s := State.reset; let entries : List (BitVec 16) := []
     (Writes r a (Obj.uartTx u.val) (List.flatMap (fun e => leBytes 2 e.toNat) entries) s) ∧ uartMay u.val a = false) ∧
    (let r : Req := { path := Path.mailbox 0 0, txn := 0x1#16 }; let a : Nat := 16; let u : Fin 4 := 1
     let s := P41.state24; let entries : List (BitVec 16) := [0x0#16]
     (Writes r a (Obj.uartTx u.val) (List.flatMap (fun e => leBytes 2 e.toNat) entries) s) ∧ uartMay u.val a = true ∧
         128 < ((judged r.path s).chip.uart u.val).tx.length + entries.length) ∧
    (let r : Req := { path := Path.mailbox 0 0, txn := 0x1#16 }; let a : Nat := 16; let u : Fin 4 := 1
     let s := State.reset; let entries : List (BitVec 16) := []
     (Writes r a (Obj.uartTx u.val) (List.flatMap (fun e => leBytes 2 e.toNat) entries) s) ∧ uartMay u.val a = true ∧
         ((judged r.path s).chip.uart u.val).tx.length + entries.length ≤ 128) ∧
    (let r : Req := { path := Path.mailbox 0 0, txn := 0x1#16 }; let u : Fin 4 := 0; let s := State.reset
     let offset : BitVec 32 := 0x1#32
     Reaches r.path (readMsg r (Obj.uartRx u.val) offset.toNat) s ∧ mayReadArea (judged r.path s).chip (actingMaster
         s.chip r.path) (Obj.uartRx u.val) = true ∧ (List.flatMap (leBytes 2) ((judged r.path s).chip.uart
         u.val).rx).length < offset.toNat) ∧
    (let r : Req := { path := Path.mailbox 0 0, txn := 0x1#16 }; let u : Fin 4 := 0; let s := State.reset
     let offset : BitVec 32 := 0x0#32
     Reaches r.path (readMsg r (Obj.uartRx u.val) offset.toNat) s ∧ mayReadArea (judged r.path s).chip (actingMaster
         s.chip r.path) (Obj.uartRx u.val) = true ∧ offset = 0 ∧ (List.flatMap (leBytes 2) ((judged r.path
         s).chip.uart u.val).rx).length ≤ pathLimit r.path ∧ (judged r.path s).chip.flowOn u.val = false) ∧
    (let r : Req := { path := Path.mailbox 0 0, txn := 0x1#16 }; let a : Nat := 16; let u : Fin 4 := 0
     let s := State.reset; let object : Fin 3 := 0; let v : BitVec 32 := 0x0#32
     (Writes r a (Obj.uartMode u.val + object.val) (leBytes (if object.val = 1 then 4 else 1) v.toNat) s) ∧ uartMay
         u.val a = false) ∧
    (let r : Req := { path := Path.mailbox 0 0, txn := 0x1#16 }; let a : Nat := 16; let u : Fin 4 := 1
     let s := State.reset; let object : Fin 3 := 2; let v : BitVec 32 := 0xc8#32
     (Writes r a (Obj.uartMode u.val + object.val) (leBytes (if object.val = 1 then 4 else 1) v.toNat) s) ∧ uartMay
         u.val a = true ∧ (uartCfgStatus (judged r.path s).chip u.val object.val (if object.val = 1 then v.toNat else
         v.toNat % 256) ≠ St.ok)) ∧
    (let r : Req := { path := Path.mailbox 0 0, txn := 0x1#16 }; let a : Nat := 16; let u : Fin 4 := 1
     let s := State.reset; let object : Fin 3 := 0; let v : BitVec 32 := 0x0#32
     (Writes r a (Obj.uartMode u.val + object.val) (leBytes (if object.val = 1 then 4 else 1) v.toNat) s) ∧ uartMay
         u.val a = true ∧ (uartCfgStatus (judged r.path s).chip u.val object.val (if object.val = 1 then v.toNat else
         v.toNat % 256) = St.ok) ∧ ((judged r.path s).chip.uart u.val).sending = none) ∧
    (let r : Req := { path := Path.mailbox 0 0, txn := 0x1#16 }; let a : Nat := 16; let u : Fin 4 := 1
     let s := P41.state20; let object : Fin 3 := 0; let v : BitVec 32 := 0x0#32
     (Writes r a (Obj.uartMode u.val + object.val) (leBytes (if object.val = 1 then 4 else 1) v.toNat) s) ∧ uartMay
         u.val a = true ∧ (uartCfgStatus (judged r.path s).chip u.val object.val (if object.val = 1 then v.toNat else
         v.toNat % 256) = St.ok) ∧ ((judged r.path s).chip.uart u.val).sending.isSome = true) ∧
    (let r : Req := { path := Path.mailbox 0 0, txn := 0x1#16 }; let a : Nat := 16; let u : Fin 4 := 0
     let s := State.reset
     Writes r a (Obj.uartMute u.val) [1] s ∧ uartMay u.val a = false) ∧
    (let r : Req := { path := Path.mailbox 0 0, txn := 0x1#16 }; let a : Nat := 16; let u : Fin 4 := 1
     let s := State.reset
     Writes r a (Obj.uartMute u.val) [1] s ∧ uartMay u.val a = true) ∧
    (let r : Req := { path := Path.mailbox 0 0, txn := 0x1#16 }; let a : Nat := 16; let u : Fin 4 := 0
     let s := State.reset; let v : Byte := 0x0#8
     Writes r a (Obj.uartMidiTenant u.val) [v] s ∧ uartMay u.val a = false) ∧
    (let r : Req := { path := Path.mailbox 0 0, txn := 0x1#16 }; let a : Nat := 16; let u : Fin 4 := 1
     let s := P41.state30; let v : Byte := 0x0#8
     Writes r a (Obj.uartMidiTenant u.val) [v] s ∧ uartMay u.val a = true ∧ BitVec.toNat v < 16 ∧ (judged r.path
         s).chip.may 22 (qix (BitVec.toNat v) ((judged r.path s).chip.num (Obj.uartMidiQueue u.val) % 8)) a 1 = false) ∧
    (let r : Req := { path := Path.mailbox 0 0, txn := 0x1#16 }; let a : Nat := 16; let u : Fin 4 := 1
     let s := State.reset; let v : Byte := 0x0#8
     let e1 := qix (BitVec.toNat v) ((judged r.path s).chip.num (Obj.uartMidiQueue u.val) % 8)
     Writes r a (Obj.uartMidiTenant u.val) [v] s ∧ uartMay u.val a = true ∧ BitVec.toNat v < 16 ∧ (judged r.path
         s).chip.may 22 e1 a 1 = true ∧ (((judged r.path s).chip.queue e1).state ≠ QueueState.running ∨ ((judged
         r.path s).chip.queue e1).head ≠ ((judged r.path s).chip.queue e1).tail)) ∧
    (let r : Req := { path := Path.mailbox 0 0, txn := 0x1#16 }; let a : Nat := 16; let u : Fin 4 := 1
     let s := P41.state28; let v : Byte := 0x0#8
     let e1 := qix (BitVec.toNat v) ((judged r.path s).chip.num (Obj.uartMidiQueue u.val) % 8)
     Writes r a (Obj.uartMidiTenant u.val) [v] s ∧ uartMay u.val a = true ∧ BitVec.toNat v < 16 ∧ (judged r.path
         s).chip.may 22 e1 a 1 = true ∧ ((judged r.path s).chip.queue e1).state = QueueState.running ∧ ((judged r.path
         s).chip.queue e1).head = ((judged r.path s).chip.queue e1).tail) ∧
    (let r : Req := { path := Path.mailbox 0 0, txn := 0x1#16 }; let a : Nat := 16; let u : Fin 4 := 1
     let s := State.reset; let v : Byte := 0xff#8
     Writes r a (Obj.uartMidiTenant u.val) [v] s ∧ uartMay u.val a = true ∧ 16 ≤ BitVec.toNat v ∧ 16 ≤ (judged r.path
         s).chip.num (Obj.uartMidiTenant u.val)) ∧
    (let r : Req := { path := Path.mailbox 0 0, txn := 0x1#16 }; let a : Nat := 16; let u : Fin 4 := 1
     let s := State.reset; let v : Byte := 0x0#8
     Writes r a (Obj.uartMidiQueue u.val) [v] s ∧ uartMay u.val a = true ∧ 16 ≤ (judged r.path s).chip.num
         (Obj.uartMidiTenant u.val)) := by
  refine ⟨?_, ?_, ?_, ?_, ?_, ?_, ?_, ?_, ?_, ?_, ?_, ?_, ?_, ?_, ?_, ?_, ?_, ?_, ?_, ?_, ?_, ?_, ?_, ?_, ?_, ?_, ?_,
    ?_, ?_, ?_, ?_, ?_, ?_, ?_, ?_, ?_, ?_, ?_, ?_, ?_, ?_, ?_, ?_⟩
  all_goals decide +kernel

/-- What DmxAndRdm asks for is met. -/
theorem test_meets_DmxAndRdm :
    (let u : Fin 4 := 0; let s := State.reset
     (s.chip.uartMode u.val ≠ 5 ∨ s.chip.num (Obj.uartRdmStatus u.val) = 1)) ∧
    (let u : Fin 4 := 1; let s := P41.state32; let t : Nat := 0
     (s.chip.uart u.val).dmxAt = some t ∧ s.chip.now < t + s.chip.num (Obj.uartDmxPeriodUs u.val) * 1000) ∧
    (let u : Fin 4 := 1; let s := P41.state10
     s.chip.uartMode u.val = 5 ∧ s.chip.num (Obj.uartRdmStatus u.val) ≠ 1 ∧ (s.chip.uart u.val).dmxAt = none) ∧
    (let u : Fin 4 := 1; let s := P41.state33; let t : Nat := 0
     s.chip.uartMode u.val = 5 ∧ s.chip.num (Obj.uartRdmStatus u.val) ≠ 1 ∧ (s.chip.uart u.val).dmxAt = some t ∧ t +
         s.chip.num (Obj.uartDmxPeriodUs u.val) * 1000 ≤ s.chip.now) ∧
    (let u : Fin 4 := 0; let s := State.reset
     s.chip.uartMode u.val ≠ 6) ∧
    (let u : Fin 4 := 1; let s := P41.state11
     s.chip.uartMode u.val = 6 ∧ ((s.chip.uart u.val).dmxOpen = false ∨ (s.chip.uart u.val).dmxBuf = [] ∨ (s.chip.uart
         u.val).dmxBad = true ∨ (s.chip.uart u.val).dmxBuf.head? = some 204)) ∧
    (let u : Fin 4 := 1; let s := P41.state35
     s.chip.uartMode u.val = 6 ∧ (s.chip.uart u.val).dmxOpen = true ∧ (s.chip.uart u.val).dmxBuf ≠ [] ∧ (s.chip.uart
         u.val).dmxBad = false ∧ (s.chip.uart u.val).dmxBuf.head? ≠ some 204) ∧
    (let u : Fin 4 := 0; let s := State.reset
     (s.chip.uart u.val).request = none) ∧
    (let u : Fin 4 := 1; let s := P41.state36; let t : Nat := 0
     (s.chip.uart u.val).request = some t ∧ s.chip.uartMode u.val = 6 ∧ s.chip.now < t + 200000) ∧
    (let u : Fin 4 := 1; let s := P41.state37; let t : Nat := 0; let brk : Bool := true
     let bs : List Byte := [0x4#8]
     (s.chip.uart u.val).request = some t ∧ s.chip.uartMode u.val = 6 ∧ t + 200000 ≤ s.chip.now ∧ (s.chip.uart
         u.val).answer = some (brk, bs)) ∧
    (let u : Fin 4 := 1; let s := P41.state38; let t : Nat := 0; let bs : List Byte := [0x4#8]
     (s.chip.uart u.val).request = some t ∧ s.chip.uartMode u.val = 6 ∧ t + 200000 ≤ s.chip.now ∧ (s.chip.uart
         u.val).answer = none ∧ (s.chip.uart u.val).response = some bs) ∧
    (let u : Fin 4 := 1; let s := P41.state39; let t : Nat := 0
     (s.chip.uart u.val).request = some t ∧ s.chip.uartMode u.val = 6 ∧ t + 200000 ≤ s.chip.now ∧ (s.chip.uart
         u.val).answer = none ∧ (s.chip.uart u.val).response = none) ∧
    (let u : Fin 4 := 0; let s := State.reset
     (s.chip.num (Obj.uartRdmStatus u.val) ≠ 1 ∨ (s.chip.uart u.val).capture.isSome = true ∨ s.chip.now < (s.chip.uart
         u.val).rdmEnd + 2800000)) ∧
    (let u : Fin 4 := 1; let s := P41.state40
     s.chip.num (Obj.uartRdmStatus u.val) = 1 ∧ (s.chip.uart u.val).capture = none ∧ (s.chip.uart u.val).rdmEnd +
         2800000 ≤ s.chip.now) ∧
    (let u : Fin 4 := 0; let s := State.reset
     (s.chip.num (Obj.uartRdmStatus u.val) ≠ 1 ∨ (s.chip.uart u.val).capture = none)) ∧
    (let u : Fin 4 := 1; let s := P41.state41; let brk : Bool := true; let bs : List Byte := [0x1#8, 0x2#8]
     let bad : Bool := false
     s.chip.num (Obj.uartRdmStatus u.val) = 1 ∧ (s.chip.uart u.val).capture = some (brk, bs, bad)) ∧
    (let r : Req := { path := Path.mailbox 0 0, txn := 0x1#16 }; let a : Nat := 16; let u : Fin 4 := 0
     let bs : List Byte := []; let s := State.reset
     Writes r a (Obj.uartRdmRequest u.val) bs s ∧ uartMay u.val a = false) ∧
    (let r : Req := { path := Path.mailbox 0 0, txn := 0x1#16 }; let a : Nat := 16; let u : Fin 4 := 1
     let bs : List Byte := []; let s := State.reset
     Writes r a (Obj.uartRdmRequest u.val) bs s ∧ uartMay u.val a = true ∧ (judged r.path s).chip.uartMode u.val ≠ 5) ∧
    (let r : Req := { path := Path.mailbox 0 0, txn := 0x1#16 }; let a : Nat := 16; let u : Fin 4 := 1
     let bs : List Byte := []; let s := P41.state34
     Writes r a (Obj.uartRdmRequest u.val) bs s ∧ uartMay u.val a = true ∧ (judged r.path s).chip.uartMode u.val = 5 ∧
         (judged r.path s).chip.num (Obj.uartRdmStatus u.val) = 1) ∧
    (let r : Req := { path := Path.mailbox 0 0, txn := 0x1#16 }; let a : Nat := 16; let u : Fin 4 := 1
     let bs : List Byte := []; let s := P41.state10
     Writes r a (Obj.uartRdmRequest u.val) bs s ∧ uartMay u.val a = true ∧ (judged r.path s).chip.uartMode u.val = 5 ∧
         (judged r.path s).chip.num (Obj.uartRdmStatus u.val) ≠ 1) ∧
    (let r : Req := { path := Path.mailbox 0 0, txn := 0x1#16 }; let a : Nat := 16; let u : Fin 4 := 0
     let bs : List Byte := []; let s := State.reset
     Writes r a (Obj.uartRdmOutbox u.val) bs s ∧ uartMay u.val a = false) ∧
    (let r : Req := { path := Path.mailbox 0 0, txn := 0x1#16 }; let a : Nat := 16; let u : Fin 4 := 1
     let bs : List Byte := []; let s := State.reset
     Writes r a (Obj.uartRdmOutbox u.val) bs s ∧ uartMay u.val a = true ∧ ((judged r.path s).chip.uartMode u.val ≠ 6 ∨
         (judged r.path s).chip.flag (Obj.uartRdmResponder u.val) = false ∨ ((judged r.path s).chip.uart
         u.val).answer.isSome = true ∨ ((judged r.path s).chip.uart u.val).request = none)) ∧
    (let r : Req := { path := Path.mailbox 0 0, txn := 0x1#16 }; let a : Nat := 16; let u : Fin 4 := 1
     let bs : List Byte := []; let s := P41.state43; let t : Nat := 0
     Writes r a (Obj.uartRdmOutbox u.val) bs s ∧ uartMay u.val a = true ∧ (judged r.path s).chip.uartMode u.val = 6 ∧
         (judged r.path s).chip.flag (Obj.uartRdmResponder u.val) = true ∧ ((judged r.path s).chip.uart u.val).answer
         = none ∧ ((judged r.path s).chip.uart u.val).request = some t ∧ (judged r.path s).chip.now - t < 200000) ∧
    (let r : Req := { path := Path.mailbox 0 0, txn := 0x1#16 }; let a : Nat := 16; let u : Fin 4 := 1
     let bs : List Byte := []; let s := P41.state44; let t : Nat := 0
     Writes r a (Obj.uartRdmOutbox u.val) bs s ∧ uartMay u.val a = true ∧ (judged r.path s).chip.uartMode u.val = 6 ∧
         (judged r.path s).chip.flag (Obj.uartRdmResponder u.val) = true ∧ ((judged r.path s).chip.uart u.val).answer
         = none ∧ ((judged r.path s).chip.uart u.val).request = some t ∧ 200000 ≤ (judged r.path s).chip.now - t ∧
         (judged r.path s).chip.now - t ≤ 1800000) ∧
    (let r : Req := { path := Path.mailbox 0 0, txn := 0x1#16 }; let a : Nat := 16; let u : Fin 4 := 1
     let bs : List Byte := []; let s := P41.state45; let t : Nat := 0
     Writes r a (Obj.uartRdmOutbox u.val) bs s ∧ uartMay u.val a = true ∧ (judged r.path s).chip.uartMode u.val = 6 ∧
         (judged r.path s).chip.flag (Obj.uartRdmResponder u.val) = true ∧ ((judged r.path s).chip.uart u.val).answer
         = none ∧ ((judged r.path s).chip.uart u.val).request = some t ∧ 1800000 < (judged r.path s).chip.now - t) := by
  refine ⟨?_, ?_, ?_, ?_, ?_, ?_, ?_, ?_, ?_, ?_, ?_, ?_, ?_, ?_, ?_, ?_, ?_, ?_, ?_, ?_, ?_, ?_, ?_, ?_, ?_⟩
  all_goals decide +kernel

/-- What CvSenseAndTdm asks for is met. -/
theorem test_meets_CvSenseAndTdm :
    (let group : Fin 4 := 0; let s := State.reset
     (s.chip.time.stc < s.chip.bsize + 5 ∨ (s.chip.time.stc - (s.chip.bsize + 5)) % s.chip.cvEvery group.val ≠ 0 ∨
         s.chip.time.stopped = true ∨ s.chip.time.silent = true)) ∧
    (let group : Fin 4 := 0; let i : Fin 8 := 0; let s := P42.state2; let code : Nat := 5
     let rest : List (Nat × Nat) := []
     s.chip.bsize + 5 ≤ s.chip.time.stc ∧ (s.chip.time.stc - (s.chip.bsize + 5)) % s.chip.cvEvery group.val = 0 ∧
         s.chip.time.stopped = false ∧ s.chip.time.silent = false ∧ (s.chip.cv (8 * group.val + i.val)).queue =
         (s.chip.time.stc - (s.chip.bsize + 5), code) :: rest) ∧
    (let group : Fin 4 := 0; let i : Fin 8 := 0; let s := P42.state1
     s.chip.bsize + 5 ≤ s.chip.time.stc ∧ (s.chip.time.stc - (s.chip.bsize + 5)) % s.chip.cvEvery group.val = 0 ∧
         s.chip.time.stopped = false ∧ s.chip.time.silent = false ∧ (s.chip.cv (8 * group.val + i.val)).queue = [] ∧
         s.chip.num (Obj.cvRepeats (8 * group.val + i.val)) < 4294967295) ∧
    (let ch : Fin 32 := 0; let s := P42.state6
     (decide (s.chip.num Obj.cvTolerance < s.chip.num (Obj.cvCode ch.val) - (s.chip.cv ch.val).before) || decide
         (s.chip.num Obj.cvTolerance < (s.chip.cv ch.val).before - s.chip.num (Obj.cvCode ch.val))) = true) ∧
    (let ch : Fin 32 := 0; let code : BitVec 16 := 0x0#16; let moved : Bool := true; let s := P42.state7
     (moved = false ∨ (decide (s.chip.num Obj.cvTolerance < s.chip.num (Obj.cvCode ch.val) - (s.chip.cv
         ch.val).before) || decide (s.chip.num Obj.cvTolerance < (s.chip.cv ch.val).before - s.chip.num (Obj.cvCode
         ch.val))) = false) ∧ (decide (s.chip.num Obj.cvTolerance < code.toNat - s.chip.num (Obj.cvCode ch.val)) ||
         decide (s.chip.num Obj.cvTolerance < s.chip.num (Obj.cvCode ch.val) - code.toNat)) = false ∧ s.chip.cvState
         ch.val = 0) ∧
    (let ch : Fin 32 := 0; let code : BitVec 16 := 0x0#16; let moved : Bool := true; let s := State.reset
     (moved = false ∨ (decide (s.chip.num Obj.cvTolerance < s.chip.num (Obj.cvCode ch.val) - (s.chip.cv
         ch.val).before) || decide (s.chip.num Obj.cvTolerance < (s.chip.cv ch.val).before - s.chip.num (Obj.cvCode
         ch.val))) = false) ∧ (decide (s.chip.num Obj.cvTolerance < code.toNat - s.chip.num (Obj.cvCode ch.val)) ||
         decide (s.chip.num Obj.cvTolerance < s.chip.num (Obj.cvCode ch.val) - code.toNat)) = true ∧ s.chip.cvState
         ch.val = 0 ∧ List.take 2 (s.chip.cv ch.val).backs ≠ [false, false]) ∧
    (let ch : Fin 32 := 0; let code : BitVec 16 := 0x0#16; let moved : Bool := false; let s := P42.state8
     (moved = false ∨ (decide (s.chip.num Obj.cvTolerance < s.chip.num (Obj.cvCode ch.val) - (s.chip.cv
         ch.val).before) || decide (s.chip.num Obj.cvTolerance < (s.chip.cv ch.val).before - s.chip.num (Obj.cvCode
         ch.val))) = false) ∧ (decide (s.chip.num Obj.cvTolerance < code.toNat - s.chip.num (Obj.cvCode ch.val)) ||
         decide (s.chip.num Obj.cvTolerance < s.chip.num (Obj.cvCode ch.val) - code.toNat)) = true ∧ s.chip.cvState
         ch.val = 0 ∧ List.take 2 (s.chip.cv ch.val).backs = [false, false] ∧ (s.chip.cv ch.val).faults = []) ∧
    (let ch : Fin 32 := 0; let code : BitVec 16 := 0x0#16; let moved : Bool := true; let s := P42.state9
     let t1 : Nat := 0; let t2 : Nat := 0
     (moved = false ∨ (decide (s.chip.num Obj.cvTolerance < s.chip.num (Obj.cvCode ch.val) - (s.chip.cv
         ch.val).before) || decide (s.chip.num Obj.cvTolerance < (s.chip.cv ch.val).before - s.chip.num (Obj.cvCode
         ch.val))) = false) ∧ (decide (s.chip.num Obj.cvTolerance < code.toNat - s.chip.num (Obj.cvCode ch.val)) ||
         decide (s.chip.num Obj.cvTolerance < s.chip.num (Obj.cvCode ch.val) - code.toNat)) = true ∧ s.chip.cvState
         ch.val = 0 ∧ List.take 2 (s.chip.cv ch.val).backs = [false, false] ∧ (s.chip.cv ch.val).faults = [t1, t2] ∧
         s.chip.now < t1 + 10000000000 ∧ s.chip.now < t2 + 10000000000) ∧
    (let ch : Fin 32 := 0; let code : BitVec 16 := 0x0#16; let moved : Bool := true; let s := P42.state11
     let t1 : Nat := 0
     (moved = false ∨ (decide (s.chip.num Obj.cvTolerance < s.chip.num (Obj.cvCode ch.val) - (s.chip.cv
         ch.val).before) || decide (s.chip.num Obj.cvTolerance < (s.chip.cv ch.val).before - s.chip.num (Obj.cvCode
         ch.val))) = false) ∧ (decide (s.chip.num Obj.cvTolerance < code.toNat - s.chip.num (Obj.cvCode ch.val)) ||
         decide (s.chip.num Obj.cvTolerance < s.chip.num (Obj.cvCode ch.val) - code.toNat)) = false ∧ s.chip.cvState
         ch.val = 1 ∧ List.take 15 (s.chip.cv ch.val).backs = List.replicate 15 true ∧ (s.chip.cv ch.val).faults =
         [t1] ∧ t1 + s.chip.num Obj.cvHoldMs * 1000000 ≤ s.chip.now) ∧
    (let ch : Fin 32 := 0; let code : BitVec 16 := 0x0#16; let moved : Bool := true; let s := P42.state10
     (moved = false ∨ (decide (s.chip.num Obj.cvTolerance < s.chip.num (Obj.cvCode ch.val) - (s.chip.cv
         ch.val).before) || decide (s.chip.num Obj.cvTolerance < (s.chip.cv ch.val).before - s.chip.num (Obj.cvCode
         ch.val))) = false) ∧ (decide (s.chip.num Obj.cvTolerance < code.toNat - s.chip.num (Obj.cvCode ch.val)) ||
         decide (s.chip.num Obj.cvTolerance < s.chip.num (Obj.cvCode ch.val) - code.toNat)) = true ∧ s.chip.cvState
         ch.val = 1) ∧
    (let ch : Fin 32 := 0; let code : BitVec 16 := 0x0#16; let moved : Bool := true; let s := P42.state14
     (moved = false ∨ (decide (s.chip.num Obj.cvTolerance < s.chip.num (Obj.cvCode ch.val) - (s.chip.cv
         ch.val).before) || decide (s.chip.num Obj.cvTolerance < (s.chip.cv ch.val).before - s.chip.num (Obj.cvCode
         ch.val))) = false) ∧ (decide (s.chip.num Obj.cvTolerance < code.toNat - s.chip.num (Obj.cvCode ch.val)) ||
         decide (s.chip.num Obj.cvTolerance < s.chip.num (Obj.cvCode ch.val) - code.toNat)) = true ∧ s.chip.cvState
         ch.val = 2 ∧ List.take 2 (s.chip.cv ch.val).backs = [false, false]) ∧
    (let ch : Fin 32 := 0; let moved : Bool := true; let s := P42.state3
     (moved = false ∨ (decide (s.chip.num Obj.cvTolerance < s.chip.num (Obj.cvCode ch.val) - (s.chip.cv
         ch.val).before) || decide (s.chip.num Obj.cvTolerance < (s.chip.cv ch.val).before - s.chip.num (Obj.cvCode
         ch.val))) = false) ∧ s.chip.cvState ch.val = 3) ∧
    (let ch : Fin 32 := 0; let s := State.reset
     s.chip.cvState ch.val ≠ 1) ∧
    (let ch : Fin 32 := 0; let s := P42.state9; let t : Nat := 0; let rest : List Nat := [0]
     (s.chip.cv ch.val).faults = t :: rest ∧ s.chip.now < t + 1000000000) ∧
    (let ch : Fin 32 := 0; let s := P42.state11; let t : Nat := 0; let rest : List Nat := []
     (s.chip.cv ch.val).faults = t :: rest ∧ s.chip.cvState ch.val = 1 ∧ t + 1000000000 ≤ s.chip.now) ∧
    (let s := P42.state1
     (s.chip.time.stc % s.chip.senseEvery ≠ 0 ∨ s.chip.time.stopped = true)) ∧
    (let codes : List (BitVec 16) := [0x0#16]; let n : Fin 16 := 0; let s := State.reset
     s.chip.time.stc % s.chip.senseEvery = 0 ∧ s.chip.time.stopped = false ∧ s.chip.flag (Obj.senseEnable n.val) =
         true ∧ s.chip.num (Obj.senseFilter n.val) = 0 ∧ n.val < codes.length) ∧
    (let codes : List (BitVec 16) := []; let n : Fin 16 := 0; let s := State.reset
     s.chip.time.stc % s.chip.senseEvery = 0 ∧ s.chip.time.stopped = false ∧ (s.chip.flag (Obj.senseEnable n.val) =
         false ∨ codes.length ≤ n.val)) ∧
    (let r : Req := { path := Path.mailbox 0 0, txn := 0x1#16 }; let a : Nat := 16; let ch : Fin 32 := 0
     let s := P42.state21
     (judged r.path s).chip.may 16 ch.val a 1 = false ∧ Writes r a (Obj.cvEnable ch.val) [0] s) ∧
    (let r : Req := { path := Path.mailbox 0 0, txn := 0x1#16 }; let a : Nat := 16; let ch : Fin 32 := 0
     let s := P42.state21
     (judged r.path s).chip.may 16 ch.val a 1 = false ∧ Writes r a (Obj.cvEnable ch.val) [1] s) ∧
    (let r : Req := { path := Path.mailbox 0 0, txn := 0x1#16 }; let a : Nat := 16; let ch : Fin 32 := 0
     let s := State.reset
     (judged r.path s).chip.may 16 ch.val a 1 = true ∧ Writes r a (Obj.cvEnable ch.val) [0] s) ∧
    (let r : Req := { path := Path.mailbox 0 0, txn := 0x1#16 }; let a : Nat := 16; let ch : Fin 32 := 0
     let s := State.reset
     (judged r.path s).chip.may 16 ch.val a 1 = true ∧ Writes r a (Obj.cvEnable ch.val) [1] s ∧ (judged r.path
         s).chip.cvState ch.val ≠ 3) ∧
    (let r : Req := { path := Path.mailbox 0 0, txn := 0x1#16 }; let a : Nat := 16; let ch : Fin 32 := 0
     let s := P42.state3
     (judged r.path s).chip.may 16 ch.val a 1 = true ∧ Writes r a (Obj.cvEnable ch.val) [1] s ∧ (judged r.path
         s).chip.cvState ch.val = 3 ∧ (judged r.path s).chip.num (Obj.cvRetired ch.val) = 0) ∧
    (let r : Req := { path := Path.mailbox 0 0, txn := 0x1#16 }; let a : Nat := 16; let ch : Fin 32 := 0
     let s := P42.state21
     Writes r a (Obj.cvRetired ch.val) [0] s ∧ ((judged r.path s).chip.may 16 ch.val a 1 = false ∨ (judged r.path
         s).chip.may 16 ch.val a 3 = false)) ∧
    (let r : Req := { path := Path.mailbox 0 0, txn := 0x1#16 }; let a : Nat := 16; let ch : Fin 32 := 0
     let s := State.reset
     Writes r a (Obj.cvRetired ch.val) [0] s ∧ (judged r.path s).chip.may 16 ch.val a 1 = true ∧ (judged r.path
         s).chip.may 16 ch.val a 3 = true ∧ (judged r.path s).chip.num (Obj.cvRetired ch.val) = 0) ∧
    (let r : Req := { path := Path.mailbox 0 0, txn := 0x1#16 }; let a : Nat := 16; let ch : Fin 32 := 0
     let s := P42.state22
     Writes r a (Obj.cvRetired ch.val) [0] s ∧ (judged r.path s).chip.may 16 ch.val a 1 = true ∧ (judged r.path
         s).chip.may 16 ch.val a 3 = true ∧ (judged r.path s).chip.num (Obj.cvRetired ch.val) ≠ 0) ∧
    (let r : Req := { path := Path.mailbox 0 0, txn := 0x1#16 }; let a : Nat := 16; let port : Fin 8 := 0
     let framing : Bool := true; let v : Byte := 0x0#8; let s := P42.state25
     (Writes r a (if framing = true then Obj.tdmFraming port.val else Obj.tdmMode port.val) [v] s) ∧ (((upTo ((judged
         r.path s).chip.tdmChannels / 8)).all fun i => (judged r.path s).chip.may 10 ((judged r.path
         s).chip.tdmChannels / 8 * port.val + i) a 1 && (judged r.path s).chip.may 11 ((judged r.path
         s).chip.tdmChannels / 8 * port.val + i) a 1) = false)) ∧
    (let r : Req := { path := Path.mailbox 0 0, txn := 0x1#16 }; let a : Nat := 16; let port : Fin 8 := 0
     let framing : Bool := true; let v : Byte := 0x0#8; let s := State.reset
     (Writes r a (if framing = true then Obj.tdmFraming port.val else Obj.tdmMode port.val) [v] s) ∧ (((upTo ((judged
         r.path s).chip.tdmChannels / 8)).all fun i => (judged r.path s).chip.may 10 ((judged r.path
         s).chip.tdmChannels / 8 * port.val + i) a 1 && (judged r.path s).chip.may 11 ((judged r.path
         s).chip.tdmChannels / 8 * port.val + i) a 1) = true)) ∧
    (let port : Fin 8 := 0; let s := State.reset
     (s.chip.num (Obj.tdmMode port.val) ≠ 2 ∨ s.chip.num (Obj.tdmState port.val) = 0)) ∧
    (let port : Fin 8 := 0; let s := P42.state26
     s.chip.num (Obj.tdmMode port.val) = 2 ∧ s.chip.num (Obj.tdmState port.val) ≠ 0 ∧ s.chip.num (Obj.tdmState
         port.val) = 1) ∧
    (let port : Fin 8 := 0; let s := P42.state27
     s.chip.num (Obj.tdmMode port.val) = 2 ∧ s.chip.num (Obj.tdmState port.val) ≠ 0 ∧ s.chip.num (Obj.tdmState
         port.val) ≠ 1) ∧
    (let port : Fin 8 := 0; let s := P42.state26
     s.chip.num (Obj.tdmMode port.val) = 2 ∧ s.chip.num (Obj.tdmState port.val) ≠ 0 ∧ s.chip.num (Obj.tdmState
         port.val) ≠ 3) ∧
    (let port : Fin 8 := 0; let s := P42.state27
     s.chip.num (Obj.tdmMode port.val) = 2 ∧ s.chip.num (Obj.tdmState port.val) ≠ 0 ∧ s.chip.num (Obj.tdmState
         port.val) = 3) := by
  refine ⟨?_, ?_, ?_, ?_, ?_, ?_, ?_, ?_, ?_, ?_, ?_, ?_, ?_, ?_, ?_, ?_, ?_, ?_, ?_, ?_, ?_, ?_, ?_, ?_, ?_, ?_, ?_,
    ?_, ?_, ?_, ?_, ?_, ?_⟩
  all_goals decide +kernel

/-- What LaneWindows asks for is met. -/
theorem test_meets_LaneWindows :
    (let e : Nat := 0; let x : Int := -549755813889
     e ≤ 15 ∧ x < -2 ^ (39 + e)) ∧
    (let e : Nat := 0; let x : Int := 549755813888
     e ≤ 15 ∧ 2 ^ (39 + e) ≤ x) ∧
    (let e : Nat := 0; let x : Int := 0
     e ≤ 15 ∧ -2 ^ (39 + e) ≤ x ∧ x < 2 ^ (39 + e) ∧ e ≤ 8) ∧
    (let e : Nat := 0; let x : Int := 18014398509481984
     e ≤ 15 ∧ 2 ^ 54 ≤ x) ∧
    (let e : Nat := 0; let x : Int := -18014398509481984
     e ≤ 15 ∧ x ≤ -2 ^ 54) ∧
    (let w : CoatWord := { op := 1, g := 1, ramp := 2, e := 9, sk := 0, si := 1, dk := 0, di := 0, res := 0 }
     1 ≤ w.op ∧ w.op ≤ 4) ∧
    (let c := c0; let n : Nat := 0
     (presented n (advanceRamps (applySets n c))).2.skim.wet.phase ≠ WetPhase.crossing) := by
  refine ⟨?_, ?_, ?_, ?_, ?_, ?_, ?_⟩
  all_goals decide +kernel

/-- What LaneProducts asks for is met. -/
theorem test_meets_LaneProducts :
    (let w : CoatWord := { op := 1, g := 1, ramp := 2, e := 9, sk := 0, si := 1, dk := 0, di := 0, res := 0 }
     w.e ≤ 15 ∧ w.op = 1) ∧
    (let w : CoatWord := { op := 2, g := 1, ramp := 0, e := 1, sk := 0, si := 1, dk := 0, di := 0, res := 0 }
     w.e ≤ 15 ∧ w.op = 2) ∧
    (let w : CoatWord := { op := 3, g := 1, ramp := 0, e := 9, sk := 0, si := 1, dk := 0, di := 0, res := 0 }
     w.e ≤ 15 ∧ w.op = 3) ∧
    (let w : CoatWord := { op := 4, g := 1, ramp := 0, e := 1, sk := 0, si := 1, dk := 0, di := 0, res := 0 }
     w.e ≤ 15 ∧ w.op = 4) ∧
    (let c := c0; let n : Nat := 0; let pres : Table Int := []
     let w : CoatWord := { op := 1, g := 0, ramp := 2, e := 0, sk := 1, si := 0, dk := 1, di := 0, res := 0 }
     let p := P50.pass0; let x : Int := 0
     w.e ≤ 15 ∧ w.op = 1 ∧ w.g = 0 ∧ w.e = 0 ∧ (c.source n pres p w.sk w.si).1 = x ∧ -2 ^ 39 ≤ x ∧ x < 2 ^ 39) ∧
    (let lane : Nat := 0
     let w : CoatWord := { op := 5, g := 0, ramp := 2, e := 8, sk := 0, si := 1, dk := 0, di := 1, res := 0 }
     let p := P50.pass1; let acc : Int := -549755813811; let k : Nat := 0
     w.op = 5 ∧ (List.find? (fun e => e.1 == lane) p.acc = some (lane, acc)) ∧ w.dk = 0 ∧ k ≠ w.di) ∧
    (let lane : Nat := 0
     let w : CoatWord := { op := 5, g := 0, ramp := 0, e := 0, sk := 1, si := 0, dk := 1, di := 1, res := 0 }
     let p := P50.pass1; let acc : Int := -549755813811; let k : Nat := 0
     w.op = 5 ∧ (List.find? (fun e => e.1 == lane) p.acc = some (lane, acc)) ∧ w.dk = 1 ∧ k ≠ w.di) ∧
    (let lane : Nat := 0
     let w : CoatWord := { op := 5, g := 1, ramp := 0, e := 7, sk := 0, si := 1, dk := 2, di := 1, res := 0 }
     let p := P50.pass1; let acc : Int := -549755813811; let k : Nat := 0
     w.op = 5 ∧ (List.find? (fun e => e.1 == lane) p.acc = some (lane, acc)) ∧ 2 ≤ w.dk ∧ k ≠ tapKey w.dk w.di) ∧
    (let c := c0; let n : Nat := 0
     (presented n (advanceRamps (applySets n c))).2.skim.wet.phase ≠ WetPhase.crossing) := by
  refine ⟨?_, ?_, ?_, ?_, ?_, ?_, ?_, ?_, ?_⟩
  all_goals decide +kernel

theorem test_meets_DictionaryServices_values :
    (let r : Req := ⟨.mailbox 0 0, 1⟩; let s := State.reset; let object := BitVec.ofNat 32 Obj.memoryConflictClear
     let d := (objFind object.toNat).get (by decide +kernel)
     (judged r.path s).chip.boot.due = none ∧ Reaches r.path (request r 1 object 0 0xFF []) s ∧ objFind object.toNat = some d ∧
     mayReadArea (judged r.path s).chip (actingMaster s.chip r.path) object.toNat = true ∧ d.acc = Access.wo) ∧
    (let r : Req := ⟨.mailbox 0 0, 1⟩; let s := State.reset; let object := BitVec.ofNat 32 Obj.hawkStealReserve; let data := [5#8]
     (judged r.path s).chip.boot.due = none ∧ Reaches r.path (request r 2 object 0 0xFF data) s ∧ isScope object.toNat = false ∧
     object.toNat ≠ Obj.plumbTempoGo ∧
     (match writeTarget (judged r.path s).chip (actingMaster s.chip r.path) object.toNat with
       | .ok d => decide (valueStatus d data = St.ok) | .error _ => false) = true ∧
     isStored object.toNat = true ∧
     (objectAction r.path object.toNat data ((actingMaster s.chip r.path).getD 0) (judged r.path s)).2 = St.ok) := by
  decide +kernel

theorem test_meets_DictionaryServices_sessions :
    (let r : Req := ⟨.can 0 7 false, 1⟩; let s := P36.state2; let object := BitVec.ofNat 32 Obj.hawkStealReserve
     let x := P36.S1 [] 4 Obj.hawkStealReserve; let data := [5#8]
     (judged r.path s).chip.boot.due = none ∧ x.path = r.path ∧ x.master = actingMaster s.chip r.path ∧ x.txn = r.txn.toNat ∧
     x.object = object.toNat ∧ actingMaster s.chip r.path ≠ none ∧ (judged r.path s).chip.work.sessions = [x] ∧
     InSession r.path (request r 4 object 0 0xFF data) x s ∧ x.data = [] ∧ data.length ≤ x.total) ∧
    (let r : Req := ⟨.can 0 7 false, 1⟩; let s := P36.state2; let object := BitVec.ofNat 32 Obj.hawkStealReserve
     let x := P36.S1 [] 4 Obj.hawkStealReserve; let data := [5#8]; let offset := 4#32
     (judged r.path s).chip.boot.due = none ∧ x.path = r.path ∧ x.master = actingMaster s.chip r.path ∧ x.txn = r.txn.toNat ∧
     x.object = object.toNat ∧ actingMaster s.chip r.path ≠ none ∧ (judged r.path s).chip.work.sessions = [x] ∧
     InSession r.path (request r 4 object offset 0xFF data) x s ∧ offset.toNat ≠ x.data.length ∧ x.data = []) ∧
    (let r : Req := ⟨.can 0 7 false, 1⟩; let s := P36.state3; let object := BitVec.ofNat 32 Obj.hawkStealReserve
     let x := P36.S1 [5] 1 Obj.hawkStealReserve; let crc := BitVec.ofNat 32 (crc32c [5])
     let m := request r 5 object 0 0xFF (leBytes 4 crc.toNat)
     (judged r.path s).chip.boot.due = none ∧ x.path = r.path ∧ x.master = actingMaster s.chip r.path ∧ x.txn = r.txn.toNat ∧
     x.object = object.toNat ∧ actingMaster s.chip r.path ≠ none ∧ (judged r.path s).chip.work.sessions = [x] ∧
     InSession r.path m x s ∧ x.total ≤ x.data.length ∧ crc32c x.data = crc.toNat ∧
     (writeWhole r.path m x.data (actingMaster s.chip r.path)
       { judged r.path s with chip := endSession r.path (actingMaster s.chip r.path) m (judged r.path s).chip }).2.later = true) :=
  ⟨⟨by decide +kernel, by decide +kernel, by decide +kernel, by decide +kernel, by decide +kernel, by decide +kernel, by decide +kernel, by decide +kernel, by decide +kernel, by decide +kernel⟩,
   ⟨by decide +kernel, by decide +kernel, by decide +kernel, by decide +kernel, by decide +kernel, by decide +kernel, by decide +kernel, by decide +kernel, by decide +kernel, by decide +kernel⟩,
   ⟨by decide +kernel, by decide +kernel, by decide +kernel, by decide +kernel, by decide +kernel, by decide +kernel, by decide +kernel, by decide +kernel, by decide +kernel, by decide +kernel, by decide +kernel⟩⟩

/-- What the clauses on queue services share. -/
abbrev queueAsk (op : Nat) (q : Nat) (data : List Byte) (s : State) : Prop :=
  let r : Req := ⟨.mailbox 0 0, 1⟩
  (judged r.path s).chip.boot.due = none ∧ actingMaster s.chip r.path = some 16 ∧
  Reaches r.path (request r op (BitVec.ofNat 32 (0x60000000 + 256 * q)) 0 0xFF data) s

theorem test_meets_DictionaryServices_queues :
    (queueAsk 8 0 [] (P36.state8) ∧ P36.state8.chip.may 22 0 16 1 = false) ∧
    (queueAsk 8 0 [] (State.reset) ∧ State.reset.chip.may 22 0 16 1 = true ∧ State.reset.chip.hasFunction 0 = true) ∧
    (queueAsk 8 0 [] (P36.state7) ∧ P36.state7.chip.may 22 0 16 1 = true ∧ P36.state7.chip.hasFunction 0 = false ∧
      (P36.state7.chip.queue 0).state ≠ QueueState.running) ∧
    (queueAsk 8 0 (zeros 33) (P36.state9) ∧ P36.state9.chip.may 22 0 16 1 = true ∧ P36.state9.chip.hasFunction 0 = false ∧
      (P36.state9.chip.queue 0).state = QueueState.running ∧ (zeros 33).length % 32 ≠ 0) ∧
    (queueAsk 8 0 (zeros 32) (P36.state9) ∧ P36.state9.chip.may 22 0 16 1 = true ∧ P36.state9.chip.hasFunction 0 = false ∧
      (P36.state9.chip.queue 0).state = QueueState.running ∧ (zeros 32).length % 32 = 0 ∧ P36.state9.chip.isBound 0 = false ∧
      (P36.state9.chip.queue 0).outstanding + (zeros 32).length / P36.state9.chip.entryBytes 0 ≤ (P36.state9.chip.queue 0).size - 1) ∧
    (queueAsk 8 0 (zeros 32) (P36b.state4) ∧ P36b.state4.chip.may 22 0 16 1 = true ∧ P36b.state4.chip.hasFunction 0 = false ∧
      (P36b.state4.chip.queue 0).state = QueueState.running ∧ (zeros 32).length % 32 = 0 ∧
      (P36b.state4.chip.queue 0).size - 1 < (P36b.state4.chip.queue 0).outstanding + (zeros 32).length / P36b.state4.chip.entryBytes 0) ∧
    (queueAsk 9 0 [] (P36.state8) ∧ P36.state8.chip.may 22 0 16 1 = false) ∧
    (queueAsk 9 0 [] (State.reset) ∧ State.reset.chip.may 22 0 16 1 = true) ∧
    (queueAsk 9 20 [] (P36.state10) ∧ P36.state10.chip.may 22 20 16 1 = true ∧ P36.state10.chip.hasFunction 0 = false ∧
      (P36.state10.chip.queue 20).state = QueueState.running) :=
  ⟨by decide +kernel, by decide +kernel, by decide +kernel, by decide +kernel, by decide +kernel, by decide +kernel, by decide +kernel, by decide +kernel, by decide +kernel⟩

/-- A view of this chip alone, or with a second chip next to it. -/
def mine (m : Nat) (l : List ViewEntry) (c : Chip) : Chip :=
  { c with chain := { c.chain with view := { entries := ⟨mySerial, 0, 2, 0, 1⟩ :: l, master := m, anchor := m } } }
theorem elected_alone (m : Nat) (l : List ViewEntry) (c : Chip) (hc : bit (c.num Obj.chainQuarantineCause) 2 = false)
    (hl : ∀ e ∈ l, e.serial ≠ mySerial ∧ bit e.cause 2 = true) : (mine m l c).elected = some mySerial := by
  have h : l.filter (fun e => decide (e.number < 128) &&
      !bit (if e.serial = mySerial then (mine m l c).num Obj.chainQuarantineCause else e.cause) 2) = [] := by
    rw [List.filter_eq_nil_iff]
    intro e he
    simp [(hl e he).1, (hl e he).2]
  have h2 : bit ((mine m l c).num Obj.chainQuarantineCause) 2 = false := hc
  unfold Chip.elected
  show (electFrom ((List.filter _ (⟨mySerial, 0, 2, 0, 1⟩ :: l)).map _)).map _ = _
  rw [List.filter_cons_of_pos (by simp [h2]), h]
  simp only [List.map_cons, List.map_nil, electFrom, Chip.recOf, if_true]
  rfl

/-- This chip in a view alone. -/
def alone (m : Nat) (h : ChainNet → ChainNet) (c : Chip) : State :=
  stateOf (mine m [] (withNums { c with chain := h c.chain } [(Obj.chainState, 2)]))

theorem test_meets_ChainViews_own :
    (let fields := [mySerial]; let s := P38.state1; s.chip.isUp 0 = true ∧ (CensusRec.ofFields fields).serial = mySerial) ∧
    (let fields := [mySerial + 1]; let s := stateOf (P38.up (P38.ch { relayed := [(mySerial + 1, 0)] } c0));
      s.chip.isUp 0 = true ∧ (CensusRec.ofFields fields).serial ≠ mySerial ∧
      ((CensusRec.ofFields fields).serial, (CensusRec.ofFields fields).seq) ∈ s.chip.chain.relayed) ∧
    (let fields := [mySerial + 1]; let s := P38.state3;
      s.chip.isUp 0 = true ∧ (CensusRec.ofFields fields).serial ≠ mySerial ∧
      ((CensusRec.ofFields fields).serial, (CensusRec.ofFields fields).seq) ∉ s.chip.chain.relayed ∧
      s.chip.chain.sentAt = some 0 ∧ s.chip.now < 0 + 10000000) ∧
    (let fields := [mySerial + 1]; let s := P38.state4;
      s.chip.isUp 0 = true ∧ (CensusRec.ofFields fields).serial ≠ mySerial ∧
      ((CensusRec.ofFields fields).serial, (CensusRec.ofFields fields).seq) ∉ s.chip.chain.relayed ∧
      s.chip.chain.sentAt = some 0 ∧ 0 + 10000000 ≤ s.chip.now) ∧
    (let fields := [mySerial + 1]; let s := P38.state1;
      s.chip.isUp 0 = true ∧ (CensusRec.ofFields fields).serial ≠ mySerial ∧
      ((CensusRec.ofFields fields).serial, (CensusRec.ofFields fields).seq) ∉ s.chip.chain.relayed ∧ s.chip.chain.sentAt = none) ∧
    (let fields := [mySerial]; let s := State.reset;
      fields.getD 0 0 = mySerial ∨ (fields.getD 0 0, fields.getD 1 0) ∈ s.chip.chain.voteRelayed) ∧
    (let fields := [mySerial + 1]; let s := P38.state1;
      s.chip.isUp 0 = true ∧ fields.getD 0 0 ≠ mySerial ∧ (fields.getD 0 0, fields.getD 1 0) ∉ s.chip.chain.voteRelayed ∧
      s.chip.chain.computed = none) ∧
    (let fields := [mySerial + 1]; let s := P38.state6;
      s.chip.isUp 0 = true ∧ fields.getD 0 0 ≠ mySerial ∧ (fields.getD 0 0, fields.getD 1 0) ∉ s.chip.chain.voteRelayed ∧
      s.chip.chain.computed = some P38.V) :=
  ⟨⟨by decide +kernel, rfl⟩,
   ⟨by decide +kernel, Nat.succ_ne_self _, List.mem_singleton.mpr rfl⟩,
   ⟨by decide +kernel, Nat.succ_ne_self _, List.not_mem_nil, by decide +kernel, by decide +kernel⟩,
   ⟨by decide +kernel, Nat.succ_ne_self _, List.not_mem_nil, by decide +kernel, by decide +kernel⟩,
   ⟨by decide +kernel, Nat.succ_ne_self _, List.not_mem_nil, by decide +kernel⟩,
   Or.inl rfl,
   ⟨by decide +kernel, Nat.succ_ne_self _, List.not_mem_nil, by decide +kernel⟩,
   ⟨by decide +kernel, Nat.succ_ne_self _, List.not_mem_nil, by decide +kernel⟩⟩

theorem test_meets_ChainViews_master :
    (let s := alone mySerial id c0;
      2 ≤ s.chip.num Obj.chainState ∧ s.chip.num Obj.chainState ≠ 4 ∧ s.chip.elected = some mySerial ∧
      mySerial = s.chip.chain.view.master) ∧
    (let s := stateOf (mine (mySerial + 1) [⟨mySerial + 1, 1, 3, 4, 1⟩] (withNums
        { c0 with chain := { recs := [({ serial := mySerial + 1, cls := 255 }, 0)] } } [(Obj.chainState, 2)]));
      2 ≤ s.chip.num Obj.chainState ∧ s.chip.num Obj.chainState ≠ 4 ∧ s.chip.elected = some mySerial ∧
      mySerial ≠ s.chip.chain.view.master ∧
      (s.chip.chain.view.entries.any fun e => e.serial == s.chip.chain.view.master && (s.chip.recOf e).cls == 255) = true) ∧
    (let s := alone (mySerial + 1) id c0;
      2 ≤ s.chip.num Obj.chainState ∧ s.chip.num Obj.chainState ≠ 4 ∧ s.chip.elected = some mySerial ∧
      mySerial ≠ s.chip.chain.view.master ∧
      (s.chip.chain.view.entries.any fun e => e.serial == s.chip.chain.view.master && (s.chip.recOf e).cls == 255) = false ∧
      s.chip.chain.elect = none) ∧
    (let s := alone (mySerial + 1) (fun h => { h with elect := some (mySerial, 0) }) c0;
      2 ≤ s.chip.num Obj.chainState ∧ s.chip.num Obj.chainState ≠ 4 ∧ s.chip.elected = some mySerial ∧
      mySerial ≠ s.chip.chain.view.master ∧
      (s.chip.chain.view.entries.any fun e => e.serial == s.chip.chain.view.master && (s.chip.recOf e).cls == 255) = false ∧
      s.chip.chain.elect = some (mySerial, 0) ∧ s.chip.now < 0 + 1000000000) ∧
    (let s := alone (mySerial + 1) (fun h => { h with elect := some (mySerial, 0) }) (at_ 100000000 c0);
      2 ≤ s.chip.num Obj.chainState ∧ s.chip.num Obj.chainState ≠ 4 ∧ s.chip.elected = some mySerial ∧
      mySerial ≠ s.chip.chain.view.master ∧
      (s.chip.chain.view.entries.any fun e => e.serial == s.chip.chain.view.master && (s.chip.recOf e).cls == 255) = false ∧
      s.chip.chain.elect = some (mySerial, 0) ∧ 0 + 1000000000 ≤ s.chip.now) :=
  ⟨⟨by decide +kernel, by decide +kernel, elected_alone _ _ _ (by decide +kernel) (by simp), rfl⟩,
   ⟨by decide +kernel, by decide +kernel, elected_alone _ _ _ (by decide +kernel) (by simp; decide), (Nat.succ_ne_self _).symm,
     by simp [stateOf, mine, withNums, Chip.recOf, setNum]⟩,
   ⟨by decide +kernel, by decide +kernel, elected_alone _ _ _ (by decide +kernel) (by simp), (Nat.succ_ne_self _).symm,
     by simp [alone, stateOf, mine], rfl⟩,
   ⟨by decide +kernel, by decide +kernel, elected_alone _ _ _ (by decide +kernel) (by simp), (Nat.succ_ne_self _).symm,
     by simp [alone, stateOf, mine], rfl, by decide +kernel⟩,
   ⟨by decide +kernel, by decide +kernel, elected_alone _ _ _ (by decide +kernel) (by simp), (Nat.succ_ne_self _).symm,
     by simp [alone, stateOf, mine], rfl, by decide +kernel⟩⟩

theorem neighbour_of_two (m : Nat) (e : ViewEntry) (c : Chip) : (mine m [e] c).neighbourOf 0 = some e.number := by
  simp [mine, Chip.neighbourOf, View.placeOf, findFrom, View.neighbour]

theorem test_meets_ChainViews_loss :
    let l : Loss := ⟨1, 40, 64, false, false⟩;
    let s := stateOf (mine mySerial [⟨mySerial + 1, 1, 2, 0, 1⟩] (at_ 40 { c0 with chain := { losses := [l] } }));
    s.chip.chain.losses = [l] ∧ l.switched = false ∧ l.switch ≤ s.chip.time.stc ∧ 0 < 2 ∧ s.chip.neighbourOf 0 = some l.lost :=
  ⟨rfl, rfl, by decide +kernel, by decide, neighbour_of_two _ _ _⟩

theorem test_meets_LathLinks_loss :
    let s := stateOf (mine mySerial [⟨mySerial + 1, 1, 2, 0, 1⟩] (P38.up c0));
    let fields := [1, 2, 1, 0];
    s.chip.portState 0 = portUp ∧ s.chip.neighbourOf 0 = some 1 ∧ fields.headD 0 = 1 ∧ bit (fields.getD 2 0) 0 = true ∧
      bit (fields.getD 2 0) 1 = false :=
  ⟨by decide +kernel, neighbour_of_two _ _ _, rfl, by decide, by decide⟩

theorem test_meets_UartCharacters_denied :
    let r : Req := ⟨.mailbox 0 0, 1⟩; let s := stateOf (deny 1 0x80 c0)
    Reaches r.path (readMsg r (Obj.uartRx 0) 0) s ∧
      mayReadArea (judged r.path s).chip (actingMaster s.chip r.path) (Obj.uartRx 0) = false := by
  decide +kernel

theorem test_meets_LathLinks_idle :
    let idle := (List.replicate 20 (zeros 7 ++ [0xE0] ++ zeros 24)).flatten
    let s := P38.state1; let cw : Codeword := ⟨0, 255, false, false, [], false, idle⟩
    s.chip.portState 0 = portUp ∧ cw.ack.toNat = (s.chip.port 0).ack ∧
      (cw.seq.toNat + 256 - (s.chip.port 0).expect) % 256 = 0 ∧ (takeFlits (slotsOf 20 cw.slots) (s.chip.port 0).part).1 = [] := by
  decide +kernel

theorem test_meets_SafeLoadsAndExchange_full :
    let r : Req := ⟨.mailbox 0 0, 1⟩
    let s := stateOf (P30.task (fun c => { c with trowel := { c.trowel with tableBytes := 0x100000 } }))
    Writes r 16 (Obj.skimExchangeDir 0) [2] s ∧ (judged r.path s).chip.may 14 0 16 1 = true ∧
      (judged r.path s).chip.exchangeTask 0 = some 5 ∧ (judged r.path s).chip.num (Obj.skimExchangeDir 0) = 0 ∧
      (judged r.path s).chip.exchangePlace ((judged r.path s).chip.num (Obj.trowelTaskCore 5) / 16) = none := by
  decide +kernel

theorem test_meets_DrivesAndExtents_stray :
    let x : Read := { volume := 7, object := 5, index := 0, need := some 3 }
    let s := P31.state8
    x.server = none ∧ s.chip.volumeSlot x.volume = some 0 ∧ s.chip.hod.reads = [] := by
  decide +kernel

theorem test_meets_MemoryErrorsAndWipe_dram :
    let s := State.reset
    2048 * (0#26).toNat < Config.dramBytes ∧ (0#26).toNat ∉ s.chip.retiredPages ∧ s.chip.retiredPages.length < 4096 ∧
      (s.chip.blob Obj.memoryDramRetiredList).length % 4 = 0 ∧ tget [] s.chip.errs.pages (0#26).toNat = [] :=
  ⟨Nat.two_pow_pos _, by decide +kernel⟩

theorem test_meets_UartCharacters_kolef :
    let x (d low : Nat) : RxChar := ⟨BitVec.ofNat 9 d, false, false, false, false, low⟩
    let s (l : List Nat) (arm : Bool) : State := stateOf (modUart 0 (fun y => { y with rx := l, autobaud := arm }) c0)
    let at_line (l : List Nat) (arm : Bool) := (s l arm).chip.num Obj.powerState ≠ 2 ∧ (s l arm).chip.uartMode 0 = 1 ∧
      (s l arm).chip.boot.img = none ∧ ((s l arm).chip.uart 0).autobaud = arm
    (at_line [0x4C] false ∧ (x 0x43 500).data.toNat ≠ 0x0D) ∧
    (at_line [0x4C, 0x43] false ∧ (x 0x0D 500).data.toNat = 0x0D ∧ kolefKnown (s [0x4C, 0x43] false).chip.kolefHeld = true) ∧
    (at_line [0x46, 0x4F] false ∧ (x 0x0D 500).data.toNat = 0x0D ∧ kolefKnown (s [0x46, 0x4F] false).chip.kolefHeld = false) ∧
    (at_line [] true ∧ (x 0x0D 868).data.toNat = 0x0D ∧ kolefKnown (s [] true).chip.kolefHeld = true ∧
      435 ≤ 4 * (x 0x0D 868).low ∧ 4 * (x 0x0D 868).low ≤ 41666) := by
  decide +kernel

theorem crcBit_lt {r : Nat} (h : r < 2 ^ 32) : crcBit r < 2 ^ 32 := by
  unfold crcBit
  split
  · exact Nat.xor_lt_two_pow (by omega) (by decide)
  · omega

theorem crcFold_lt (bs : List Byte) : ∀ r < 2 ^ 32, bs.foldl crcOctet r < 2 ^ 32 := by
  induction bs with
  | nil => exact fun r h => h
  | cons b bs ih =>
    intro r h
    refine ih _ (crcBit_lt (crcBit_lt (crcBit_lt (crcBit_lt (crcBit_lt (crcBit_lt (crcBit_lt (crcBit_lt ?_))))))))
    exact Nat.xor_lt_two_pow h (by have := b.isLt; omega)

theorem crc32c_lt (bs : List Byte) : crc32c bs < 2 ^ 32 :=
  Nat.xor_lt_two_pow (crcFold_lt bs _ (by decide)) (by decide)

theorem tag_crc (c : Nat) (h : c < 2 ^ 32) : (tagEntry (zeros 24 ++ leBytes 4 c)).crc = c := by
  simp [tagEntry, field, zeros, leBytes, leNat, List.replicate]
  omega

/-- An extent of an unkeyed object that verifies, whatever its octets: its tag holds their CRC. -/
theorem test_meets_DrivesAndExtents_verified (extent : List Byte) :
    let volume : Fin 65536 := 7; let object : BitVec 32 := 5; let index : BitVec 32 := 0
    let s := P31.state9; let x : Read := P31.R0
    let tag := zeros 24 ++ leBytes 4 (crc32c (slice extent 0 65536))
    (x.volume = volume.val ∧ x.object = object.toNat ∧ x.index = index.toNat ∧ x.server = none ∧
      s.chip.volumeSlot volume.val = some 0 ∧ s.chip.hod.reads = [x]) ∧
    (s.chip.volume 0).tags.find? (fun y => y.1 == (s.chip.volume 0).extentNumber x.object x.index) = none ∧
    verifyExtent s.dust (s.chip.volume 0) x.object x.index (tagEntry tag) (slice extent 0 65536) =
      some (slice extent 0 65536) := by
  refine ⟨by decide +kernel, by decide +kernel, ?_⟩
  have hk : (tget {} P31.state9.chip.hod.volumes 0).dir = [(5, { state := 1, extents := 1, length := 10 })] := by decide +kernel
  unfold verifyExtent
  rw [if_pos (by decide +kernel), if_pos (tag_crc _ (crc32c_lt _)).symm]

theorem freeFrom_full (j : Journal) (h : ∀ p < localPlaces, j.placeFree p = false) (fuel : Nat) :
    ∀ p < localPlaces, j.freeFrom fuel p = none := by
  induction fuel with
  | zero => exact fun p _ => rfl
  | succ fuel ih =>
    intro p hp
    unfold Journal.freeFrom
    rw [h p hp]
    exact ih _ (Nat.mod_lt _ (by decide))

theorem rows_full (j : Journal) (h : j.retiredRows = (List.range 4092).map (· + 4)) (p : Nat) (hp : p < localPlaces) :
    j.placeFree p = false := by
  have hm : j.retiredRows.contains (rowOf p) = true := by
    rw [h, List.contains_iff_mem]
    have hp' : p < 32736 := hp
    exact List.mem_map.mpr ⟨p / 8, List.mem_range.mpr (by omega), by simp [rowOf]; omega⟩
  unfold Journal.placeFree
  rw [hm, Bool.not_true, Bool.and_false]

theorem placeRecord_none (n start : Nat) (c : Chip) (h : c.work.journal.freeFrom localPlaces start = none) :
    placeRecord n start c = (none, c) := by
  cases n <;> simp only [placeRecord, h]

theorem placeRecord_fails (c : Chip) (start p : Nat) (h : c.work.journal.freeFrom localPlaces start = some p)
    (h' : (retireRow (rowOf p) c).work.journal.freeFrom localPlaces ((p / 8 + 1) * 8 % localPlaces) = none) :
    placeRecord 1 start c = (none, retireRow (rowOf p) c) := by
  unfold placeRecord
  rw [h]
  exact placeRecord_none 0 _ _ h'

/-- An event for which one row of the journal is left, and that row reads back wrong. -/
theorem test_meets_TenantsAndQueues_noPlace :
    let s := stateOf (modJournal (fun j => { j with retiredRows := (List.range 4091).map (· + 5) }) P34.state23.chip)
    let d := servedEsq 0 0 0 (modQueue (qix 0 0) (fun x =>
      if x.made.isEmpty then { x with prefetch := x.prefetch.tail } else { x with made := x.made.tail }) s.chip)
    s.chip.chooseEsq = some (0, 0, 0) ∧ entryStatus d 0 0 (s.chip.nextEntry 0 0) = 0 ∧
    ∃ x, placeRecord 1 0 d = (none, x) := by
  intro s d
  have h0 : d.work.journal.freeFrom localPlaces 0 = some 0 := by decide +kernel
  have hr : (retireRow (rowOf 0) d).work.journal.retiredRows = (List.range 4092).map (· + 4) := by decide +kernel
  have h8 := freeFrom_full _ (rows_full _ hr) localPlaces ((0 / 8 + 1) * 8 % localPlaces) (Nat.mod_lt _ (by decide))
  exact ⟨by decide +kernel, by decide +kernel, _, placeRecord_fails d 0 0 h0 h8⟩

end Sys2Proof.Tests
end

section
/-!
SUPPORT. What an entry of a snag log, a response and a loop leave alone.
-/

namespace Sys2Proof.Machine

/-! ### Loops -/

/-- What every turn keeps, the loop keeps. -/
theorem forEach_keeps {α σ : Type} (P : σ → Prop) (f : α → σ → σ) :
    ∀ (l : List α) (c : σ), (∀ a ∈ l, ∀ d, P d → P (f a d)) → P c → P (forEach l f c)
  | [], _, _, h => h
  | a :: l, c, hf, h =>
    forEach_keeps P f l (f a c) (fun b hb => hf b (List.mem_cons_of_mem _ hb)) (hf a List.mem_cons_self c h)

/-- A loop over two lists in turn. -/
theorem forEach_append {α σ : Type} (l₁ l₂ : List α) (f : α → σ → σ) (c : σ) :
    forEach (l₁ ++ l₂) f c = forEach l₂ f (forEach l₁ f c) := List.foldl_append

/-- Turns that do nothing where a test fails are left out. -/
theorem forEach_filter {α σ : Type} (p : α → Bool) (f : α → σ → σ) (l : List α) (c : σ) :
    forEach (l.filter p) f c = forEach l (fun a d => if p a then f a d else d) c := List.foldl_filter

/-- Two loops whose turns agree on every state that keeps `P` agree. -/
theorem forEach_congr {α σ : Type} (P : σ → Prop) {f g : α → σ → σ} (l : List α) (c : σ) (hP : P c)
    (hfg : ∀ a d, P d → f a d = g a d) (hg : ∀ a d, P d → P (g a d)) : forEach l f c = forEach l g c := by
  induction l generalizing c with
  | nil => rfl
  | cons a l ih =>
    show forEach l f (f a c) = forEach l g (g a c)
    rw [hfg a c hP, ih _ (hg a c hP)]

/-! ### Units that a message or a log entry does not reach -/

/-- `d` has the time base, the boot state, the allocator, the mixer, the dynamics, the memories, the flash records and the event
journal of `c`. -/
structure SameUnits (c d : Chip) : Prop where
  time : d.time = c.time
  boot : d.boot = c.boot
  hawk : d.hawk = c.hawk
  skim : d.skim = c.skim
  screed : d.screed = c.screed
  mem : d.mem = c.mem
  flashNums : d.flashNums = c.flashNums
  journal : d.work.journal = c.work.journal

namespace SameUnits

theorem refl (c : Chip) : SameUnits c c := ⟨rfl, rfl, rfl, rfl, rfl, rfl, rfl, rfl⟩

theorem trans {b c d : Chip} (h : SameUnits b c) (k : SameUnits c d) : SameUnits b d :=
  ⟨k.time.trans h.time, k.boot.trans h.boot, k.hawk.trans h.hawk, k.skim.trans h.skim, k.screed.trans h.screed,
    k.mem.trans h.mem, k.flashNums.trans h.flashNums, k.journal.trans h.journal⟩

theorem setNum (o v : Nat) (c : Chip) : SameUnits c (setNum o v c) := ⟨rfl, rfl, rfl, rfl, rfl, rfl, rfl, rfl⟩
theorem bump (o : Nat) (c : Chip) : SameUnits c (bump o c) := ⟨rfl, rfl, rfl, rfl, rfl, rfl, rfl, rfl⟩
theorem emit (x : Out) (c : Chip) : SameUnits c (emit x c) := ⟨rfl, rfl, rfl, rfl, rfl, rfl, rfl, rfl⟩
theorem modHod (f : Hod → Hod) (c : Chip) : SameUnits c (modHod f c) := ⟨rfl, rfl, rfl, rfl, rfl, rfl, rfl, rfl⟩
theorem modTrowel (f : Trowel → Trowel) (c : Chip) : SameUnits c (modTrowel f c) := ⟨rfl, rfl, rfl, rfl, rfl, rfl, rfl, rfl⟩
theorem modTenant (t : Nat) (f : Tenant → Tenant) (c : Chip) : SameUnits c (modTenant t f c) :=
  ⟨rfl, rfl, rfl, rfl, rfl, rfl, rfl, rfl⟩
theorem modMail (i : Nat) (f : Mailbox → Mailbox) (c : Chip) : SameUnits c (modMail i f c) :=
  ⟨rfl, rfl, rfl, rfl, rfl, rfl, rfl, rfl⟩
theorem canQueue (k : Nat) (f : CanFrame) (c : Chip) : SameUnits c (canQueue k f c) := ⟨rfl, rfl, rfl, rfl, rfl, rfl, rfl, rfl⟩

theorem when_ {f : Chip → Chip} (hf : ∀ c, SameUnits c (f c)) (b : Bool) (c : Chip) : SameUnits c (when_ b f c) := by
  cases b with
  | false => exact refl c
  | true => exact hf c

theorem forEach {α : Type} {f : α → Chip → Chip} (hf : ∀ a c, SameUnits c (f a c)) (l : List α) (c : Chip) :
    SameUnits c (forEach l f c) :=
  forEach_keeps (SameUnits c) f l c (fun a _ d h => h.trans (hf a d)) (refl c)

theorem msix (t v : Nat) (c : Chip) : SameUnits c (msix t v c) := by
  unfold Machine.msix
  split
  · exact emit _ c
  · exact modTenant t _ c

theorem raise (t v : Nat) (c : Chip) : SameUnits c (raise t v c) := by
  unfold Machine.raise
  dsimp only
  split
  · exact refl c
  · exact (modTenant t _ c).trans (when_ (msix t v) _ _)

theorem snagWith (code unit tenant snap data : Nat) (c : Chip) : SameUnits c (snagWith code unit tenant snap data c) := by
  unfold Machine.snagWith
  dsimp only
  split
  · refine trans ?_ (raise 0 32 _)
    exact ⟨rfl, rfl, rfl, rfl, rfl, rfl, rfl, rfl⟩
  · split
    · refine trans ?_ (raise tenant 32 _)
      exact ⟨rfl, rfl, rfl, rfl, rfl, rfl, rfl, rfl⟩
    · exact refl c

theorem snag (code unit tenant : Nat) (c : Chip) : SameUnits c (snag code unit tenant c) := snagWith _ _ _ _ _ c

theorem canNerlil (ctl node : Nat) (fd : Bool) (msg : List Byte) (c : Chip) : SameUnits c (canNerlil ctl node fd msg c) := by
  unfold Machine.canNerlil
  dsimp only
  split
  · exact (when_ (canQueue 0 _) _ c).trans (when_ (canQueue 1 _) _ _)
  · exact when_ (canQueue ctl _) _ c

theorem deliver (p : Path) (msg : List Byte) (c : Chip) : SameUnits c (deliver p msg c) := by
  cases p with
  | mailbox t m => exact ((modMail _ _ c).trans (raise _ _ _)).trans (emit _ _)
  | can ctl node fd => exact (canNerlil _ _ _ _ c).trans (emit _ _)
  | chain chip origin anon => exact emit _ c
  | kolef => exact emit _ c
  | bar t => exact refl c

/-- A response reaches none of these units. -/
theorem respond (p : Path) (m : Msg) (master : Option Nat) (r : Reply) (c : Chip) : SameUnits c (respond p m master r c) := by
  unfold Machine.respond
  dsimp only
  split
  · exact deliver p _ c
  · refine trans ?_ (deliver p _ _)
    have h₁ := when_ (bump Obj.ndpCountersRefusals) (r.status != St.ok) c
    have h₂ := when_ (bump Obj.ndpCountersTimeouts) (r.status == St.timeout) (Machine.when_ (r.status != St.ok) (Machine.bump Obj.ndpCountersRefusals) c)
    exact (h₁.trans h₂).trans ⟨rfl, rfl, rfl, rfl, rfl, rfl, rfl, rfl⟩

/-- Nor does the answer to a request, sent at once or once the flash record is written. -/
theorem answered (r : Req) (a o : Nat) (data : List Byte) (x : State × Nat) : SameUnits x.1.chip (answered r a o data x).chip := by
  unfold Machine.answered
  split
  · exact ⟨rfl, rfl, rfl, rfl, rfl, rfl, rfl, rfl⟩
  · exact respond _ _ _ _ _

end SameUnits

/-! ### A log entry, a response and the objects -/

/-- An event source leaves the number objects alone. -/
@[simp] theorem raise_nums (t v : Nat) (c : Chip) : (raise t v c).nums = c.nums := by
  unfold raise when_ msix
  dsimp only
  split_ifs <;> rfl

/-- An event source leaves the streaming unit alone. -/
@[simp] theorem raise_hod (t v : Nat) (c : Chip) : (raise t v c).hod = c.hod := by
  unfold raise when_ msix
  dsimp only
  split_ifs <;> rfl

/-- A log entry leaves the number objects alone. -/
@[simp] theorem snagWith_nums (code unit tenant snap data : Nat) (c : Chip) :
    (snagWith code unit tenant snap data c).nums = c.nums := by
  unfold snagWith
  dsimp only
  split_ifs <;> simp

@[simp] theorem snag_nums (code unit tenant : Nat) (c : Chip) : (snag code unit tenant c).nums = c.nums := snagWith_nums _ _ _ _ _ c

/-- A log entry leaves the streaming unit alone. -/
@[simp] theorem snag_hod (code unit tenant : Nat) (c : Chip) : (snag code unit tenant c).hod = c.hod := by
  unfold snag snagWith
  dsimp only
  split_ifs <;> simp

@[simp] theorem num_snag (code unit tenant o : Nat) (c : Chip) : (snag code unit tenant c).num o = c.num o := by
  simp only [Chip.num, snag_nums]

/-- A value that fits its object is read back as it was written. -/
theorem num_setNum_fits {o v w : Nat} (c : Chip) (hw : objWidth o = w) (hv : v < 2 ^ (8 * w)) : (setNum o v c).num o = v := by
  rw [num_setNum_same, hw, wrap, Nat.mod_eq_of_lt hv]

/-- An answer leaves the queue and the Dust Sheet alone. -/
@[simp] theorem answered_pending (r : Req) (a o : Nat) (data : List Byte) (x : State × Nat) :
    (answered r a o data x).pending = x.1.pending := by
  unfold answered
  split <;> rfl

@[simp] theorem answered_dust (r : Req) (a o : Nat) (data : List Byte) (x : State × Nat) :
    (answered r a o data x).dust = x.1.dust := by
  unfold answered
  split <;> rfl

end Sys2Proof.Machine
end

section
/-!
SUPPORT. O55 and O24: a step runs the front command; versions that switch at their boundary and those that are released.
-/

namespace Sys2Proof.Machine

/-- Settles O55: a step is defined by the front of the queue. -/
theorem stepRunsFrontCommand : Obligations.StepRunsFrontCommand := fun _ _ _ => rfl

/-! ### A handle's record -/

/-- The record that changed. -/
@[simp] theorem handle_modHandle_same (k : SetupKind) (n : Nat) (f : Handle → Handle) (c : Chip) :
    (modHandle k n f c).handle k n = f (c.handle k n) := by
  cases k <;> exact tget_tmod_same _ _ n f

/-- The other records. -/
theorem handle_modHandle_other {k j : SetupKind} {n m : Nat} (f : Handle → Handle) (c : Chip) (h : (j, m) ≠ (k, n)) :
    (modHandle k n f c).handle j m = c.handle j m := by
  by_cases hj : j = k
  · subst hj
    have hm : m ≠ n := fun e => h (by rw [e])
    cases j <;> exact tget_tmod_other _ _ f hm
  · cases k <;> cases j <;> trivial

/-- A handle that is not listed is empty. -/
theorem handle_of_not_listed {k : SetupKind} {n : Nat} {c : Chip} (h : (k, n) ∉ c.allHandles) : c.handle k n = {} := by
  have tget_unlisted : ∀ t : Table Handle, n ∉ t.map Prod.fst → tget {} t n = {} := by
    intro t
    induction t with
    | nil => exact fun _ => rfl
    | cons e t ih =>
      intro hn
      simp only [List.map_cons, List.mem_cons, not_or] at hn
      rw [tget, if_neg (Ne.symm hn.1), ih hn.2]
  refine tget_unlisted _ fun hm => h ?_
  unfold Chip.allHandles
  simp only [List.mem_append]
  obtain ⟨e, he, rfl⟩ := List.mem_map.mp hm
  cases k with
  | template => exact .inl (.inl (.inl (List.mem_map.mpr ⟨e, he, rfl⟩)))
  | layer => exact .inl (.inl (.inr (List.mem_map.mpr ⟨e, he, rfl⟩)))
  | modset => exact .inl (.inr (List.mem_map.mpr ⟨e, he, rfl⟩))
  | control => exact .inr (List.mem_map.mpr ⟨e, he, rfl⟩)

/-- `d` is `c` but for its setup objects. -/
def SetupOnly (c d : Chip) : Prop := d = { c with setup := d.setup }

theorem SetupOnly.trans {b c d : Chip} (h : SetupOnly b c) (k : SetupOnly c d) : SetupOnly b d := by
  unfold SetupOnly at *
  rw [k, h]

theorem setupOnly_modHandle (k : SetupKind) (n : Nat) (f : Handle → Handle) (c : Chip) : SetupOnly c (modHandle k n f c) := rfl

theorem setupOnly_collect (k : SetupKind) (n : Nat) (c : Chip) : SetupOnly c (collect k n c) := rfl

theorem setupOnly_forEach {α : Type} {f : α → Chip → Chip} (hf : ∀ a c, SetupOnly c (f a c)) (l : List α) (c : Chip) :
    SetupOnly c (forEach l f c) :=
  forEach_keeps (SetupOnly c) f l c (fun a _ _ h => h.trans (hf a _)) rfl

/-! ### The switch at a boundary (R55) -/

theorem setupOnly_switchVersion (x : SetupKind × Nat) (c : Chip) : SetupOnly c (switchVersion x c) := by
  unfold switchVersion
  split
  · split <;> rfl
  · rfl

/-- A handle with its next version in force where the boundary has come by tick `stc`. -/
def Handle.switched (h : Handle) (stc : Nat) : Handle :=
  match h.next with
  | some (v, t) => if t ≤ stc then { h with current := some v, next := none } else h
  | none => h

/-- What a switched record holds, case by case of the next version. -/
theorem switched_record {h h' : Handle} {stc : Nat} {vs : List Version} (e : h' = { h.switched stc with versions := vs }) :
    (∀ v t, h.next = some (v, t) → t ≤ stc → h'.current = some v ∧ h'.next = none) ∧
    (∀ v t, h.next = some (v, t) → stc < t → h'.current = h.current ∧ h'.next = h.next) ∧
    (h.next = none → h'.current = h.current ∧ h'.next = none) ∧ h'.staging = h.staging ∧ h'.nextVer = h.nextVer := by
  subst e
  unfold Handle.switched
  rcases hn : h.next with _ | ⟨v, t⟩
  · simp [hn]
  · by_cases ht : t ≤ stc
    · simp only [ht, if_true, Option.some.injEq, Prod.mk.injEq, reduceCtorEq, false_implies, and_true, and_imp]
      exact ⟨fun _ _ e _ _ => e, fun _ t' _ e h' => absurd ht (by omega)⟩
    · simp only [ht, if_false, hn, Option.some.injEq, Prod.mk.injEq, reduceCtorEq, false_implies, true_and, and_true, and_imp]
      exact ⟨fun _ t' _ e h' => absurd h' (by omega), fun _ _ _ _ _ => trivial⟩

/-- Dropping versions neither hastens nor delays a switch. -/
theorem switched_versions (h : Handle) (stc : Nat) (vs : List Version) :
    ({ h with versions := vs } : Handle).switched stc = { h.switched stc with versions := vs } := by
  unfold Handle.switched
  dsimp only
  split
  · split <;> rfl
  · rfl

/-- A second switch at the same tick changes nothing. -/
theorem switched_switched (h : Handle) (stc : Nat) : (h.switched stc).switched stc = h.switched stc := by
  unfold Handle.switched
  rcases hn : h.next with _ | ⟨v, t⟩
  · simp only [hn]
  · by_cases ht : t ≤ stc <;> simp [hn, ht]

/-- The record of a switched handle: only its versions may shrink further. -/
theorem handle_switchVersion_same (k : SetupKind) (n : Nat) (c : Chip) :
    ∃ vs, (switchVersion (k, n) c).handle k n = { (c.handle k n).switched c.time.stc with versions := vs } := by
  unfold switchVersion Handle.switched
  rcases hn : (c.handle k n).next with _ | ⟨v, t⟩
  · exact ⟨_, rfl⟩
  · by_cases ht : t ≤ c.time.stc
    · simp only [ht, if_true, collect, handle_modHandle_same]
      exact ⟨_, rfl⟩
    · simp only [ht, if_false]
      exact ⟨_, rfl⟩

theorem handle_switchVersion_other {k : SetupKind} {n : Nat} {x : SetupKind × Nat} (c : Chip) (h : (k, n) ≠ x) :
    (switchVersion x c).handle k n = c.handle k n := by
  unfold switchVersion
  split
  · split
    · unfold collect
      rw [handle_modHandle_other _ _ h, handle_modHandle_other _ _ h]
    · rfl
  · rfl

/-- The loop over handles switches each one that it visits, and no other. -/
theorem handle_forEach_switchVersion (k : SetupKind) (n : Nat) (l : List (SetupKind × Nat)) (c : Chip) :
    ∃ vs, (forEach l switchVersion c).handle k n =
      { (if (k, n) ∈ l then (c.handle k n).switched c.time.stc else c.handle k n) with versions := vs } := by
  induction l generalizing c with
  | nil => exact ⟨_, rfl⟩
  | cons x l ih =>
    obtain ⟨vs, h⟩ := ih (switchVersion x c)
    have ht : (switchVersion x c).time = c.time := by rw [setupOnly_switchVersion x c]
    rw [ht] at h
    refine ⟨vs, h.trans ?_⟩
    by_cases hx : (k, n) = x
    · subst hx
      obtain ⟨ws, hw⟩ := handle_switchVersion_same k n c
      simp only [hw, switched_versions, switched_switched, List.mem_cons_self, if_true, ite_self]
    · simp only [handle_switchVersion_other c hx, List.mem_cons, hx, false_or]

/-- After VERSION_SWITCH every handle stands as its boundary says. -/
theorem handle_versionSwitch (k : SetupKind) (n : Nat) (c : Chip) :
    ∃ vs, (forEach c.allHandles switchVersion c).handle k n = { (c.handle k n).switched c.time.stc with versions := vs } := by
  obtain ⟨vs, h⟩ := handle_forEach_switchVersion k n c.allHandles c
  refine ⟨vs, h.trans ?_⟩
  by_cases hl : (k, n) ∈ c.allHandles
  · rw [if_pos hl]
  · rw [if_neg hl, handle_of_not_listed hl]
    rfl

/-! ### The release of versions (R19, R55) -/

/-- A handle's record without the versions that are neither in force, nor next, nor used. -/
def Chip.collected (c : Chip) (k : SetupKind) (n : Nat) : Handle :=
  { c.handle k n with versions := (c.handle k n).versions.filter (fun v =>
      (c.handle k n).current == some v.ver || (c.handle k n).next.map Prod.fst == some v.ver ||
        c.voiceUses k n v.ver || c.eventUses k n v.ver) }

theorem handle_collect (k : SetupKind) (n : Nat) (x : SetupKind × Nat) (c : Chip) :
    (collect x.1 x.2 c).handle k n = if (k, n) = x then c.collected k n else c.handle k n := by
  unfold collect
  by_cases hx : (k, n) = x
  · subst hx
    rw [if_pos rfl, handle_modHandle_same]
    rfl
  · rw [if_neg hx, handle_modHandle_other _ _ hx]

/-- A collection of templates changes no layer, so it changes no use of a template; and uses of the other kinds are read from
the journal and the voices alone. -/
theorem eventUses_collect {k : SetupKind} (n v : Nat) {x : SetupKind × Nat} (c : Chip) (h : k = .template → x.1 = .template) :
    (collect x.1 x.2 c).eventUses k n v = c.eventUses k n v := by
  cases k with
  | template =>
    have hl : ∀ m, (collect x.1 x.2 c).handle .layer m = c.handle .layer m := fun m => by
      rw [handle_collect, if_neg (fun e => by simpa [← e] using h rfl)]
    unfold Chip.eventUses
    simp only [hl]
    rfl
  | layer => rfl
  | modset => rfl
  | control => rfl

/-- A second collection changes nothing. -/
theorem collected_collect {k : SetupKind} (n : Nat) {x : SetupKind × Nat} (c : Chip) (h : k = .template → x.1 = .template) :
    (collect x.1 x.2 c).collected k n = c.collected k n := by
  have hv : ∀ v, (collect x.1 x.2 c).voiceUses k n v = c.voiceUses k n v := fun _ => rfl
  unfold Chip.collected
  simp only [eventUses_collect n _ c h, hv, handle_collect]
  by_cases hx : (k, n) = x
  · simp only [if_pos hx, Chip.collected, List.filter_filter, Bool.and_self]
  · simp only [if_neg hx]

/-- The loop over handles collects each one that it visits, and no other. -/
theorem handle_forEach_collect (k : SetupKind) (n : Nat) (l : List (SetupKind × Nat)) (c : Chip)
    (h : k = .template → ∀ x ∈ l, x.1 = .template) :
    (forEach l (fun x c => collect x.1 x.2 c) c).handle k n = if (k, n) ∈ l then c.collected k n else c.handle k n := by
  induction l generalizing c with
  | nil => rfl
  | cons x l ih =>
    have hx : k = .template → x.1 = .template := fun e => h e x List.mem_cons_self
    refine (ih (collect x.1 x.2 c) (fun e y hy => h e y (List.mem_cons_of_mem _ hy))).trans ?_
    rw [collected_collect n c hx, handle_collect]
    by_cases he : (k, n) = x <;> simp [he]

/-- A loop that meets no handle of a kind leaves its records alone. -/
theorem handle_forEach_collect_other {k : SetupKind} (n : Nat) (l : List (SetupKind × Nat)) (c : Chip) (h : ∀ x ∈ l, x.1 ≠ k) :
    (forEach l (fun x c => collect x.1 x.2 c) c).handle k n = c.handle k n := by
  refine forEach_keeps (fun d => d.handle k n = c.handle k n) _ l c (fun x hx d hd => ?_) rfl
  rw [handle_collect, if_neg (fun e => h x hx (by rw [← e])), hd]

/-- After VERSION_RELEASE every handle holds the versions that are in force, next or used: templates are collected first, while
the layers that say what events use still stand. -/
theorem handle_versionRelease (k : SetupKind) (n : Nat) (c : Chip) :
    (forEach c.allHandles (fun x c => collect x.1 x.2 c) c).handle k n = c.collected k n := by
  by_cases hl : (k, n) ∈ c.allHandles
  · by_cases hk : k = .template
    · subst hk
      unfold Chip.allHandles at hl ⊢
      rw [List.append_assoc, List.append_assoc] at hl ⊢
      rw [forEach_append, handle_forEach_collect_other, handle_forEach_collect, if_pos]
      · simpa using hl
      · intro _ x hx
        obtain ⟨e, -, rfl⟩ := List.mem_map.mp hx
        rfl
      · intro x hx e
        simp only [List.mem_append, List.mem_map] at hx
        rcases hx with ⟨y, -, rfl⟩ | ⟨y, -, rfl⟩ | ⟨y, -, rfl⟩ <;> cases e
    · rw [handle_forEach_collect k n _ c (fun e => absurd e hk), if_pos hl]
  · have hc : (forEach c.allHandles (fun x c => collect x.1 x.2 c) c).handle k n = c.handle k n := by
      refine forEach_keeps (fun d => d.handle k n = c.handle k n) _ _ c (fun x hx d hd => ?_) rfl
      rw [handle_collect, if_neg (fun e : (k, n) = x => hl (e ▸ hx)), hd]
    unfold Chip.collected
    rw [hc, handle_of_not_listed hl]
    rfl

/-- Settles O24: each handle's record after the loop over all handles, with the switch and the collection both idempotent. -/
theorem versionSwitchAndRelease : Obligations.VersionSwitchAndRelease := by
  intro s c
  refine ⟨completes_onChip rfl fun k n => ?_, completes_onChip rfl fun k n => ?_⟩
  · obtain ⟨vs, h⟩ := handle_versionSwitch k n c
    obtain ⟨hdue, hwaits, hnone, hstaging, hver⟩ := switched_record h
    have hs := setupOnly_forEach setupOnly_switchVersion c.allHandles c
    exact ⟨hdue, hwaits, hnone, hstaging, hver, congrArg (fun d => { s with chip := d }) hs⟩
  · have h : _ = c.collected k n := handle_versionRelease k n c
    have hs := setupOnly_forEach (fun x c => setupOnly_collect x.1 x.2 c) c.allHandles c
    exact ⟨(congrArg Handle.versions h :), (congrArg Handle.current h :), (congrArg Handle.next h :),
      congrArg (fun d => { s with chip := d }) hs⟩

end Sys2Proof.Machine
end

section
/-!
SUPPORT. O25: the strobes of the sample clock, of the frame and of the task board.
-/

namespace Sys2Proof.Machine

/-! ### The sample clock (R24, R457) -/

/-- The chip once the final limiters of the next tick have worked. -/
def limitedAtTick (c : Chip) : Chip :=
  let c1 := modTime (fun t => { t with stc := t.stc + 1 }) c
  let c2 := modScreed (fun x =>
    { x with pins := (x.limited.filter (fun e => e.1 / 4096 == 2)).map (fun e => (e.1 % 4096, e.2)) }) c1
  stepLimiters (if c2.quiet then modSkim (fun k => { k with outs := [] }) c2 else stepInstances c2)

/-- The limited host outputs of the pass before are kept, and the pass of this tick is made. -/
def passOfTick (c : Chip) : Chip :=
  let d := match c.passNow with
    | some (p + 1) => keepHost p c
    | _ => c
  match d.passNow with
  | some p => when_ (!d.quiet) (skimPass p) d
  | none => d

/-- The end of a tick: returns and TDM inputs take effect. -/
def endTick (tdm : List (Fin 128 × BitVec 32)) (d : Chip) : Chip :=
  modSkim (fun k => { k with tdmIn1 := k.tdmIn, tdmIn := d.tdmInputs tdm }) (modScreed (fun x => { x with rets := x.newRets }) d)

/-- The three parts of a tick. -/
theorem sampleTick_eq (tdm : List (Fin 128 × BitVec 32)) (c : Chip) :
    sampleTick tdm c = endTick tdm (passOfTick (limitedAtTick c)) := by
  unfold sampleTick
  extract_lets c1 pins c2 c3 c4 c5 c6
  rw [show limitedAtTick c = c3 from rfl]
  clear_value c3
  rfl

theorem passOfTick_none {c : Chip} (h : c.passNow = none) : passOfTick c = c := by
  unfold passOfTick
  simp only [h]

theorem passOfTick_first {c : Chip} (h : c.passNow = some 0) : passOfTick c = if c.quiet then c else skimPass 0 c := by
  unfold passOfTick
  simp only [h]
  cases c.quiet <;> rfl

theorem passOfTick_later {c : Chip} {p : Nat} (h : c.passNow = some (p + 1)) :
    passOfTick c = if c.quiet then keepHost p c else skimPass (p + 1) (keepHost p c) := by
  have hp : (keepHost p c).passNow = some (p + 1) := h
  have hq : (keepHost p c).quiet = c.quiet := rfl
  unfold passOfTick
  simp only [h, hp, hq]
  cases c.quiet <;> rfl

/-- SAMPLE_TICK acts on the chip. -/
theorem exec_sampleTick (tdm : List (Fin 128 × BitVec 32)) (s : State) :
    exec (.sampleTick tdm) s = s.onChip (fun c => if c.time.stopped then c else sampleTick tdm c) := rfl

/-- SAMPLE_TICK while the sample clock runs. -/
theorem leaves_sampleTick {s : State} (tdm : List (Fin 128 × BitVec 32)) {d : Chip} (h : s.chip.time.stopped = false)
    (hd : passOfTick (limitedAtTick s.chip) = d) : Leaves (.sampleTick tdm) s (endTick tdm d) := by
  refine leaves_onChip (exec_sampleTick tdm s) ?_
  simp only [h, Bool.false_eq_true, if_false, sampleTick_eq, hd]

/-! ### The frame (R73, R108, R477, R478) -/

/-- MAX_RELEASE: feathers change neither time nor setup, so the voices are picked by the chip before it. -/
theorem leaves_maxRelease (s : State) : Leaves .maxRelease s (forEach (s.chip.voiceList.filter (fun x =>
      let ms := field (s.chip.voiceImage x.2) 0x12 2
      decide (x.2.state = .releasing) && !x.2.control && decide (ms ≠ 0) &&
        (match x.2.release with
          | some (t, _, _) => decide (t + (ms * s.chip.fs + 999) / 1000 ≤ s.chip.time.stc) | none => false)))
    (fun x c => featherVoice x.1 (c.frame + 1) 3 c) s.chip) := by
  refine leaves_onChip rfl ?_
  rw [forEach_filter]
  refine forEach_congr (fun d => d.time = s.chip.time ∧ d.setup = s.chip.setup) _ _ ⟨rfl, rfl⟩ (fun x d hd => ?_) (fun x d hd => ?_)
  · obtain ⟨ht, hs⟩ := hd
    have himg : d.voiceImage x.2 = s.chip.voiceImage x.2 := by
      cases hc : x.2.control <;> simp only [Chip.voiceImage, Chip.voiceVersion, Chip.handle, Chip.handles, hs, hc]
    have hms : ∀ ms, d.msTicks ms = (ms * s.chip.fs + 999) / 1000 := fun ms => by simp only [Chip.msTicks, Chip.fs, ht]
    dsimp only
    rw [himg, ht]
    rcases x.2.release with _ | ⟨t, _, _⟩
    · simp
    · simp [hms, and_assoc]
  · exact iteInduction (motive := fun d : Chip => d.time = _ ∧ d.setup = _) (fun _ => hd) (fun _ => hd)

/-- FEATHER_END: the frame stands still while the voices are told. -/
theorem leaves_featherEnd (s : State) : Leaves .featherEnd s (forEach (s.chip.voiceList.filter (fun x =>
      decide (x.2.state = .feathering) &&
        (decide (x.2.featherStart + x.2.featherLen ≤ s.chip.time.stc) || decide (x.2.featherLeft = 0))))
    (fun x d => modVoice x.1 (fun v => { v with endAt := some (s.chip.frame + 1, v.endReason) }) d) s.chip) := by
  refine leaves_onChip rfl ?_
  rw [forEach_filter]
  refine forEach_congr (fun d => d.time = s.chip.time) _ _ rfl (fun x d hd => ?_) (fun x d hd => ?_)
  · simp [Chip.frame, hd]
  · exact iteInduction (motive := fun d : Chip => d.time = _) (fun _ => hd) (fun _ => hd)

/-- What a cluster has computed is not touched by the control outputs. -/
theorem computed_controlOutputs (k : Nat) (c : Chip) : (controlOutputs k c).stipple.computed = c.stipple.computed := by
  unfold controlOutputs
  refine forEach_keeps (fun d : Chip => d.stipple.computed = c.stipple.computed) _ _ _ (fun j _ d hd => ?_) rfl
  exact forEach_keeps (fun d : Chip => d.stipple.computed = c.stipple.computed) _ _ _ (fun _ _ _ hd => hd) hd

/-- STIPPLE_FRAME. -/
theorem completes_stippleFrame (cl : Fin 4) (s : State) : Completes (.stippleFrame cl) s (fun s' =>
    tget 0 s'.chip.stipple.computed cl.val = s.chip.frame + 2 ∧
    s'.chip = controlOutputs (s.chip.frame + 1) (modStipple (fun x =>
      { x with computed := tset 0 x.computed cl.val (s.chip.frame + 2) }) (evalCluster cl.val (s.chip.frame + 1) false s.chip))) := by
  refine ⟨_, rfl, ?_, rfl⟩
  show tget 0 (controlOutputs _ _).stipple.computed cl.val = _
  rw [computed_controlOutputs]
  exact tget_tset_same 0 (evalCluster cl.val (s.chip.frame + 1) false s.chip).stipple.computed cl.val (s.chip.frame + 2)

/-! ### The task board (R163, R165, R193) -/

/-- A run list with no voice left goes on with its first task. -/
theorem runList_task {core k fuel t : Nat} {rest : List Nat} {c : Chip} (hrun : (c.core core).running = .nothing)
    (hv : (c.core core).voices = []) (ht : (c.core core).tasks = t :: rest) :
    runList core k (fuel + 1) c =
      enterTask core t (modCore core (fun r => { r with tasks := rest, running := .nothing, doneAt := false }) c) := by
  simp only [runList, CoreRun.free, hrun, hv, ht]
  rfl

/-- The end of a run list: thread 0 idles. -/
theorem runList_end {core k fuel : Nat} {c : Chip} (hfree : (c.core core).free = true)
    (hrun : ∀ lead i, (c.core core).running ≠ .voice lead i true) (hv : (c.core core).voices = [])
    (ht : (c.core core).tasks = []) :
    runList core k (fuel + 1) c =
      modThread (4 * core) (fun t => { t with state := .idle }) (modCore core (fun r => { r with running := .nothing }) c) := by
  simp only [runList, hfree, hv, ht]
  rcases hr : (c.core core).running with _ | ⟨lead, i, _ | _⟩ | t
  · rfl
  · rfl
  · exact absurd hr (hrun lead i)
  · rfl

/-- USER_OVERRUN on a core whose voice runs USER instances. -/
theorem leaves_userOverrun {s : State} {core : Fin 256} {lead inst n : Nat} {v : Voice}
    (hr : (s.chip.core core.val).running = .voice lead inst true) (hv : s.chip.leadVoice lead = some (n, v)) :
    Leaves (.userOverrun core) s (abandonPass core.val lead (snag 0x1008 v.lead v.tenant s.chip)) := by
  show execUserOverrun core s = _
  unfold execUserOverrun State.onChip
  simp only [hr, hv]

/-- On any other core there is no overrun. -/
theorem leaves_userOverrun_other {s : State} {core : Fin 256} (h : ∀ lead inst, (s.chip.core core.val).running ≠ .voice lead inst true) :
    Leaves (.userOverrun core) s s.chip := by
  show execUserOverrun core s = _
  unfold execUserOverrun State.onChip
  rcases hr : (s.chip.core core.val).running with _ | ⟨lead, i, _ | _⟩ | t
  · simp only [hr]
  · simp only [hr]
  · exact absurd hr (h lead i)
  · simp only [hr]

/-- INSTANCE_ENTRY acts on the chip. -/
theorem exec_instanceEntry (core : Fin 256) (s : State) :
    exec (.instanceEntry core) s = s.onChip (fun c => when_ (c.core core.val).free (runList core.val c.workFrame runFuel) c) := rfl

/-- INSTANCE_ENTRY on a core whose thread 0 has nothing left to do goes along its run list. -/
theorem leaves_instanceEntry_free {s : State} {core : Fin 256} {d : Chip} (hf : (s.chip.core core.val).free = true)
    (hd : runList core.val s.chip.workFrame (2047 + 1) s.chip = d) : Leaves (.instanceEntry core) s d := by
  refine leaves_onChip (exec_instanceEntry core s) ?_
  rw [hf]
  exact hd

/-! ### The frame strobe (R24, R478) -/

/-- FRAME_BOUNDARY acts on the chip. -/
theorem exec_frameBoundary (bad : List (Fin 256)) (s : State) :
    exec (.frameBoundary bad) s = s.onChip (fun c =>
      if c.time.stc % c.bsize = 0 ∧ c.hawk.boundaryDone ≤ c.frame ∧ !c.time.stopped then
        frameBoundary c.frame (bad.map Fin.val) c else c) := rfl

/-- No strobe falls between two boundaries, before the next frame or while the sample clock is stopped. -/
theorem leaves_frameBoundary_idle {s : State} (bad : List (Fin 256))
    (h : s.chip.time.stc % s.chip.bsize ≠ 0 ∨ s.chip.frame < s.chip.hawk.boundaryDone ∨ s.chip.time.stopped = true) :
    Leaves (.frameBoundary bad) s s.chip := by
  refine leaves_onChip (exec_frameBoundary bad s) (if_neg ?_)
  rintro ⟨hk, hb, ht⟩
  rcases h with h | h | h
  · exact h hk
  · exact absurd hb (Nat.not_le.mpr h)
  · simp [h] at ht

/-- At a strobe the work of the boundary is done. -/
theorem leaves_frameBoundary {s : State} (bad : List (Fin 256)) (h1 : s.chip.time.stc % s.chip.bsize = 0)
    (h2 : s.chip.hawk.boundaryDone ≤ s.chip.frame) (h3 : s.chip.time.stopped = false) :
    Leaves (.frameBoundary bad) s (frameBoundary s.chip.frame (bad.map Fin.val) s.chip) :=
  leaves_onChip (exec_frameBoundary bad s) (if_pos ⟨h1, h2, by rw [h3]; rfl⟩)

/-- What the strobe of frame `k` does before the work of the frame. -/
def frameOpening (k : Nat) (c : Chip) : Chip :=
  endDue k (frameEnd k (takeSettings k (if 1 ≤ c.hawk.boundaryDone then deadline (c.hawk.boundaryDone - 1) c else c)))

theorem frameBoundary_eq (k : Nat) (bad : List Nat) (c : Chip) :
    frameBoundary k bad c =
      if (frameOpening k c).time.silent then frameOpening k c
      else
        let c4 := openFrame k bad (purge k (modHawk (fun h => { h with boundaryDone := k + 1 }) (stepMigrations k (frameOpening k c))))
        let c5 := freeOldSlots (noteElection (recheckCauses (settleHops (tdmBoundary c4))))
        noteIdle (clearConflicts (sendRetireList (freeForwarded k c5))) := by
  unfold frameBoundary
  extract_lets c1 c2
  have h2 : c2 = frameOpening k c := by
    by_cases h : 1 ≤ c.hawk.boundaryDone <;> simp [c2, c1, frameOpening, when_, h]
  clear_value c2
  subst h2
  rfl

/-- FRAME_DEADLINE acts on the chip. -/
theorem exec_frameDeadline (s : State) :
    exec .frameDeadline s = s.onChip (fun c =>
      if 1 ≤ c.hawk.boundaryDone ∧ c.hawk.boundaryDone * c.bsize ≤ c.time.stc then deadline (c.hawk.boundaryDone - 1) c else c) := rfl

/-- The deadline of a frame is passed once. -/
theorem deadlineDone_deadline {k : Nat} {c : Chip} (h : c.hawk.deadlineDone < k + 1) : (deadline k c).hawk.deadlineDone = k + 1 := by
  unfold deadline
  rw [if_neg (by omega)]
  rfl

/-- FRAME_DEADLINE with no frame dispatched, before the frame's end, or a second time. -/
theorem leaves_frameDeadline_idle {s : State} (h : s.chip.hawk.boundaryDone = 0 ∨
    s.chip.time.stc < s.chip.hawk.boundaryDone * s.chip.bsize ∨ s.chip.hawk.boundaryDone ≤ s.chip.hawk.deadlineDone) :
    Leaves .frameDeadline s s.chip := by
  refine leaves_onChip (exec_frameDeadline s) ?_
  by_cases hg : 1 ≤ s.chip.hawk.boundaryDone ∧ s.chip.hawk.boundaryDone * s.chip.bsize ≤ s.chip.time.stc
  · exact (if_pos hg).trans (if_pos (by omega))
  · exact if_neg hg

/-- FRAME_DEADLINE at the end of the frame last dispatched. -/
theorem completes_frameDeadline {s : State} (h1 : 1 ≤ s.chip.hawk.boundaryDone)
    (h2 : s.chip.hawk.boundaryDone * s.chip.bsize ≤ s.chip.time.stc) (h3 : s.chip.hawk.deadlineDone < s.chip.hawk.boundaryDone) :
    Completes .frameDeadline s (fun t => t.chip.hawk.deadlineDone = s.chip.hawk.boundaryDone ∧ t.pending = s.pending ∧ t.dust = s.dust) := by
  refine completes_onChip (exec_frameDeadline s) ⟨?_, rfl, rfl⟩
  show (ite _ _ _ : Chip).hawk.deadlineDone = _
  rw [if_pos ⟨h1, h2⟩, deadlineDone_deadline (by omega)]
  omega

/-- LOOKAHEAD_PASS acts on the chip. -/
theorem exec_lookaheadPass (s : State) :
    exec .lookaheadPass s = s.onChip (fun c => if c.time.silent || c.time.stopped then c else lookahead (c.frame + 1) c) := rfl

/-- STIPPLE_LATE acts on the chip. -/
theorem exec_stippleLate (cl : Fin 4) (s : State) :
    exec (.stippleLate cl) s = s.onChip (fun c => stippleLate cl.val (c.frame + 1) c) := rfl

/-- STIPPLE_LATE counts a cluster once a frame. -/
theorem completes_stippleLate {cl : Fin 4} {s : State} (h : tget 0 s.chip.stipple.late cl.val ≠ s.chip.frame + 2) :
    Completes (.stippleLate cl) s (fun s' => tget 0 s'.chip.stipple.late cl.val = s.chip.frame + 2 ∧
      s'.chip = bump Obj.stippleCountersLateFrames (modStipple (fun x => { x with late := tset 0 x.late cl.val (s.chip.frame + 2) })
        (evalCluster cl.val (s.chip.frame + 1) true s.chip))) := by
  have e : stippleLate cl.val (s.chip.frame + 1) s.chip =
      bump Obj.stippleCountersLateFrames (modStipple (fun x => { x with late := tset 0 x.late cl.val (s.chip.frame + 2) })
        (evalCluster cl.val (s.chip.frame + 1) true s.chip)) := if_neg h
  refine completes_onChip (exec_stippleLate cl s) ⟨?_, e⟩
  show tget 0 (stippleLate cl.val (s.chip.frame + 1) s.chip).stipple.late cl.val = _
  rw [e]
  exact tget_tset_same 0 (evalCluster cl.val (s.chip.frame + 1) true s.chip).stipple.late cl.val (s.chip.frame + 2)

/-- Settles O25: each strobe's guard decides its branch; feathers and mod blocks leave the time base alone. -/
theorem frameClockEffects : Obligations.FrameClockEffects := by
  intro s c
  refine ⟨fun tdm h => leaves_onChip (exec_sampleTick tdm s) (if_pos h), fun tdm h => ⟨fun hp => ?_, fun hp => ?_, fun p hp => ?_⟩,
    fun bad h => leaves_frameBoundary_idle bad h, fun bad h1 h2 h3 => ⟨fun hs => ?_, fun hs => ?_⟩,
    fun h => leaves_onChip (exec_lookaheadPass s) (if_pos ?_), fun h1 h2 => leaves_onChip (exec_lookaheadPass s) (if_neg ?_),
    leaves_maxRelease s, leaves_featherEnd s, fun cl => completes_stippleFrame cl s,
    fun cl => ⟨fun h => leaves_onChip (exec_stippleLate cl s) (if_pos h), fun h => completes_stippleLate h⟩,
    fun h => leaves_frameDeadline_idle h, fun h1 h2 h3 => completes_frameDeadline h1 h2 h3,
    fun core lead inst n v h1 h2 => leaves_userOverrun h1 h2, fun core h => leaves_userOverrun_other h,
    fun core h => leaves_onChip (exec_instanceEntry core s) ?_,
    fun core t rest hf hr hv ht => leaves_instanceEntry_free hf (runList_task hr hv ht),
    fun core hf hr hv ht => leaves_instanceEntry_free hf (runList_end hf hr hv ht)⟩
  · exact leaves_sampleTick tdm h (passOfTick_none hp)
  · exact leaves_sampleTick tdm h (passOfTick_first hp)
  · exact leaves_sampleTick tdm h (passOfTick_later hp)
  · have hs' : (frameOpening s.chip.frame s.chip).time.silent = true := hs
    have e := leaves_frameBoundary bad h1 h2 h3
    rwa [frameBoundary_eq, if_pos hs'] at e
  · have hs' : (frameOpening s.chip.frame s.chip).time.silent = false := hs
    have e := leaves_frameBoundary bad h1 h2 h3
    rwa [frameBoundary_eq, if_neg (Bool.eq_false_iff.mp hs')] at e
  · simpa using h
  · simp [c, h1, h2]
  · rw [show (s.chip.core core.val).free = false from h]
    rfl

end Sys2Proof.Machine
end

section
/-!
SUPPORT. O32: drives that are found, lost and reinstated; extents that are read here and on other chips.
-/

namespace Sys2Proof.Machine

/-! ### Widths of the drives' and volumes' objects (R297) -/

theorem width_driveState {d : Nat} (h : d < 12) : objWidth (Obj.hodDriveState d) = 1 :=
  (by decide +kernel : ∀ d : Fin 12, objWidth (Obj.hodDriveState d.val) = 1) ⟨d, h⟩

theorem width_driveRetired {d : Nat} (h : d < 12) : objWidth (Obj.hodDriveRetired d) = 1 :=
  (by decide +kernel : ∀ d : Fin 12, objWidth (Obj.hodDriveRetired d.val) = 1) ⟨d, h⟩

theorem width_volumeState {slot : Nat} (h : slot < 16) : objWidth (Obj.hodVolumeState slot) = 1 :=
  (by decide +kernel : ∀ slot : Fin 16, objWidth (Obj.hodVolumeState slot.val) = 1) ⟨slot, h⟩

/-! ### Counting and retiring drives (R293) -/

@[simp] theorem countDrives_hod (c : Chip) : (countDrives c).hod = c.hod := rfl
@[simp] theorem countDrives_mem (c : Chip) : (countDrives c).mem = c.mem := rfl

theorem num_countDrives {o : Nat} (c : Chip) (h : o ≠ Obj.hodDriveCount) : (countDrives c).num o = c.num o :=
  num_setNum_other c _ h

/-- What retirement of a drive does to one of its slots. -/
def retireSlot (s : Nat) (c : Chip) : Chip :=
  let vol := c.num (Obj.hodVolumeNumber s)
  let c := forEach ((c.cursorList.filter (fun x => !x.2.remote && x.2.volume == vol && c.mounted s)).map Prod.fst)
    (fun n c => modCursor n (fun x => { x with dying := true }) c) c
  dropReads vol (when_ (c.hod.import_.isOpen && c.hod.import_.slot == s) importAbort (setNum (Obj.hodVolumeState s) 6 c))

theorem retireDrive_eq {d : Nat} {c : Chip} (h : c.num (Obj.hodDriveState d) ≠ 3) :
    retireDrive d c =
      let e := snag 0x0301 d 0xFF (setNum (Obj.hodDriveRetired d) 1 (setNum (Obj.hodDriveState d) 3 c))
      countDrives (forEach ((e.driveSlots d).filter (fun s => e.mounted s || e.num (Obj.hodVolumeState s) == 1)) retireSlot e) :=
  if_neg h

theorem num_importAbort {o : Nat} (c : Chip) (h : o ≠ Obj.hodImportStatus) : (importAbort c).num o = c.num o := by
  show (setNum Obj.hodImportStatus 0 (modHod (fun h => { h with import_ := {} }) c)).num o = c.num o
  rw [num_setNum_other _ _ h, modHod_num]

/-- Apart from its own state and the import's status, a retired slot changes no number. -/
theorem num_retireSlot {o s : Nat} (c : Chip) (hs : o ≠ Obj.hodVolumeState s) (hi : o ≠ Obj.hodImportStatus) :
    (retireSlot s c).num o = c.num o := by
  unfold retireSlot
  extract_lets vol d
  have hd : d.num o = c.num o := forEach_keeps (fun d : Chip => d.num o = c.num o) _ _ c (fun _ _ _ h => h) rfl
  show (when_ _ importAbort (setNum (Obj.hodVolumeState s) 6 d)).num o = c.num o
  unfold when_
  split
  · rw [num_importAbort _ hi, num_setNum_other _ _ hs, hd]
  · rw [num_setNum_other _ _ hs, hd]

/-- A drive that is retired reads RETIRED, and stays so over a reset. -/
theorem num_retireDrive {d : Nat} {c : Chip} (hd : d < 12) (h : c.num (Obj.hodDriveState d) ≠ 3) :
    (retireDrive d c).num (Obj.hodDriveState d) = 3 ∧ (retireDrive d c).num (Obj.hodDriveRetired d) = 1 := by
  rw [retireDrive_eq h]
  extract_lets e
  have slots {o : Nat} (hv : ∀ s, o ≠ Obj.hodVolumeState s) (hi : o ≠ Obj.hodImportStatus) (hc : o ≠ Obj.hodDriveCount)
      (l : List Nat) : (countDrives (forEach l retireSlot e)).num o = e.num o := by
    rw [num_countDrives _ hc]
    exact forEach_keeps (fun x : Chip => x.num o = e.num o) _ _ e
      (fun s _ x hx => (num_retireSlot x (hv s) hi).trans hx) rfl
  have he (o : Nat) : e.num o = (setNum (Obj.hodDriveRetired d) 1 (setNum (Obj.hodDriveState d) 3 c)).num o := num_snag _ _ _ _ _
  simp only [Obj.hodDriveState, Obj.hodDriveRetired, Obj.hodVolumeState, Obj.hodImportStatus, Obj.hodDriveCount] at slots he ⊢
  constructor
  · rw [slots (fun s => by omega) (by omega) (by omega), he, num_setNum_other _ _ (by omega)]
    exact num_setNum_fits _ (width_driveState hd) (by decide)
  · rw [slots (fun s => by omega) (by omega) (by omega), he]
    exact num_setNum_fits _ (width_driveRetired hd) (by decide)

/-! ### Drives found (R39, R272) -/

/-- DRIVE_ENUMERATED where no NVMe controller is found. -/
theorem leaves_driveEnumerated_other {found : FoundDrive} {s : State} (h : found.isNvme = false) :
    Leaves (.driveEnumerated found) s
      (snag 0x0304 (found.port.val * 256 + found.link.val * 16 + found.down.val) 0xFF s.chip) := by
  show execDriveEnumerated found s = _
  unfold execDriveEnumerated State.onChip
  simp only [h, Bool.not_false, if_true]

/-- The drive at a location, where it has one. -/
theorem knownDrive_none {c : Chip} {loc : Nat}
    (h : ∀ d, d < 12 → c.num (Obj.hodDriveState d) = 0 ∨ c.num (Obj.hodDriveLocation d) ≠ loc) :
    (upTo 12).find? (fun d => c.num (Obj.hodDriveState d) != 0 && c.num (Obj.hodDriveLocation d) == loc) = none := by
  refine List.find?_eq_none.mpr fun d hd => ?_
  rcases h d (List.mem_range.mp hd) with h | h <;> simp [h]

/-- A thirteenth drive stays untrained and is reported. -/
theorem leaves_driveEnumerated_full {found : FoundDrive} {s : State} (h : found.isNvme = true)
    (hd : ∀ d, d < 12 → s.chip.num (Obj.hodDriveState d) ≠ 0 ∧
      s.chip.num (Obj.hodDriveLocation d) ≠ found.port.val * 256 + found.link.val * 16 + found.down.val) :
    Leaves (.driveEnumerated found) s
      (snag 0x0305 (found.port.val * 256 + found.link.val * 16 + found.down.val) 0xFF s.chip) := by
  have hu : ((upTo 12).filter (fun d => s.chip.num (Obj.hodDriveState d) != 0)).length = 12 := by
    rw [List.filter_eq_self.mpr fun d hm => by simpa using (hd d (List.mem_range.mp hm)).1]
    rfl
  show execDriveEnumerated found s = _
  unfold execDriveEnumerated State.onChip
  simp only [h, knownDrive_none fun d hm => .inr (hd d hm).2, hu]
  rfl

/-- The first drive found takes number 0. -/
theorem completes_driveEnumerated {found : FoundDrive} {s : State} (hn : found.isNvme = true) (hm : found.meets = true)
    (h0 : ∀ d, d < 12 → s.chip.num (Obj.hodDriveState d) = 0) (hr : s.chip.num (Obj.hodDriveRetired 0) = 0) :
    Completes (.driveEnumerated found) s (fun t =>
      t.chip.num (Obj.hodDriveState 0) = 2 ∧
      t.chip.num (Obj.hodDriveLocation 0) = found.port.val * 256 + found.link.val * 16 + found.down.val ∧
      t.chip.num Obj.hodDriveCount = 1 ∧ t.chip.num (Obj.hodDriveLink 0) = found.width.val * 16 + found.generation.val ∧
      t.chip.hod = s.chip.hod ∧ t.pending = s.pending ∧ t.dust = s.dust) := by
  have hu : (upTo 12).find? (fun d => s.chip.num (Obj.hodDriveState d) == 0) = some 0 := by
    simp [upTo, List.range_succ_eq_map, h0]
  have hl : ((upTo 12).filter (fun d => s.chip.num (Obj.hodDriveState d) != 0)).length = 0 := by
    rw [List.filter_eq_nil_iff.mpr fun d hd => by simp [h0 d (List.mem_range.mp hd)]]
    rfl
  set loc := found.port.val * 256 + found.link.val * 16 + found.down.val with hloc
  let e := setBlob (Obj.hodDriveSerial 0) (slice found.serial 0 20)
    (setNum (Obj.hodDriveLink 0) (found.width.val * 16 + found.generation.val) (setNum (Obj.hodDriveLocation 0) loc s.chip))
  have hf : e.num (Obj.hodDriveRetired 0) = 0 := by
    show (setNum _ _ (setNum _ _ s.chip)).num _ = 0
    rw [num_setNum_other _ _ (by decide), num_setNum_other _ _ (by decide), hr]
  have hs {d : Nat} (hd : d < 12) : e.num (Obj.hodDriveState d) = 0 := by
    show (setNum _ _ (setNum _ _ s.chip)).num _ = 0
    simp only [Obj.hodDriveState, Obj.hodDriveLink, Obj.hodDriveLocation] at h0 ⊢
    rw [num_setNum_other _ _ (by omega), num_setNum_other _ _ (by omega), h0 d hd]
  have he : exec (.driveEnumerated found) s = .next { s with chip := countDrives (setNum (Obj.hodDriveState 0) 2 e) } := by
    show execDriveEnumerated found s = _
    unfold execDriveEnumerated State.onChip
    simp only [hn, hm, hl, hu, knownDrive_none fun d hd => .inl (h0 d hd)]
    show Host.Outcome.next { s with chip := (if s.chip.num (Obj.hodDriveState 0) = 3 then s.chip
      else countDrives (setNum (Obj.hodDriveState 0) (if e.flag (Obj.hodDriveRetired 0) then 3 else 2) e)) } = _
    simp [h0, Chip.flag, hf]
  refine ⟨_, he, ?_⟩
  have hcount : ((upTo 12).filter (fun d => (setNum (Obj.hodDriveState 0) 2 e).num (Obj.hodDriveState d) == 2)) = [0] := by
    refine (List.filter_congr fun d hd => ?_).trans (show (upTo 12).filter (fun d => d == 0) = [0] from rfl)
    by_cases hz : d = 0
    · subst hz
      rw [num_setNum_fits e (width_driveState (by decide)) (by decide)]
      rfl
    · rw [num_setNum_other _ _ (by simp only [Obj.hodDriveState]; omega), hs (List.mem_range.mp hd)]
      simp [hz]
  have ho {o : Nat} (h1 : o ≠ Obj.hodDriveCount) (h2 : o ≠ Obj.hodDriveState 0) :
      (countDrives (setNum (Obj.hodDriveState 0) 2 e)).num o = e.num o := by
    rw [num_countDrives _ h1, num_setNum_other _ _ h2]
  have hport := found.port.isLt
  have hlink := found.link.isLt
  have hdown := found.down.isLt
  have hwidth := found.width.isLt
  have hgen := found.generation.isLt
  refine ⟨?_, ?_, ?_, ?_, rfl, rfl, rfl⟩
  · show (countDrives _).num _ = 2
    rw [num_countDrives _ (by decide), num_setNum_fits e (width_driveState (by decide)) (by decide)]
  · show (countDrives _).num _ = loc
    rw [ho (by decide) (by decide)]
    show (setNum _ _ (setNum _ _ s.chip)).num _ = loc
    rw [num_setNum_other _ _ (by decide)]
    exact num_setNum_fits _ (show objWidth _ = 2 by decide +kernel) (by omega)
  · show (setNum _ _ _).num _ = 1
    rw [hcount]
    exact num_setNum_fits _ (show objWidth _ = 1 by decide +kernel) (by decide)
  · show (countDrives _).num _ = _
    rw [ho (by decide) (by decide)]
    exact num_setNum_fits _ (show objWidth _ = 1 by decide +kernel) (by omega)

/-! ### Drives lost and reinstated (R293) -/

/-- A drive on a root link is one of the twelve. -/
theorem lt_of_mem_linkDrives {c : Chip} {port link d : Nat} (h : d ∈ c.linkDrives port link) : d < 12 :=
  List.mem_range.mp (List.mem_filter.mp h).1

/-- A drive whose link fails is enumerated again. -/
theorem num_driveState_enumerating {d : Nat} (c : Chip) (hd : d < 12) :
    (countDrives (setNum (Obj.hodDriveState d) 1 c)).num (Obj.hodDriveState d) = 1 := by
  rw [num_countDrives _ (by simp only [Obj.hodDriveState, Obj.hodDriveCount]; omega)]
  exact num_setNum_fits c (width_driveState hd) (by decide)

/-- The record of a drive. -/
@[simp] theorem drive_modDrive_same (d : Nat) (f : Drive → Drive) (c : Chip) : (modDrive d f c).drive d = f (c.drive d) :=
  tget_tmod_same _ c.hod.drives d f

/-- ROOT_LINK_DOWN acts on the chip, drive by drive. -/
theorem exec_rootLinkDown (port link : Fin 4) (s : State) :
    exec (.rootLinkDown port link) s = s.onChip (fun c => forEach (c.linkDrives port.val link.val) (fun d c =>
      let l := (c.drive d).linkDowns.filter (fun t => decide (c.now < t + 1000000000))
      if 3 ≤ l.length then retireDrive d c
      else countDrives (setNum (Obj.hodDriveState d) 1 (modDrive d (fun x => { x with linkDowns := c.now :: l }) c))) c) := rfl

/-- Fewer than three failures of a link in a second. -/
theorem completes_rootLinkDown {port link : Fin 4} {s : State} {d : Nat} (hd : s.chip.linkDrives port.val link.val = [d])
    (h : ((s.chip.drive d).linkDowns.filter (fun t => decide (s.chip.now < t + 1000000000))).length < 3) :
    Completes (.rootLinkDown port link) s (fun t => t.chip.num (Obj.hodDriveState d) = 1 ∧
      (t.chip.drive d).linkDowns = s.chip.now :: (s.chip.drive d).linkDowns.filter (fun t => decide (s.chip.now < t + 1000000000)) ∧
      t.chip.mem = s.chip.mem) := by
  have hlt : d < 12 := lt_of_mem_linkDrives (hd ▸ List.mem_singleton_self d)
  refine ⟨_, exec_rootLinkDown port link s, ?_⟩
  simp only [hd, forEach, List.foldl_cons, List.foldl_nil]
  rw [if_neg (Nat.not_le.mpr h)]
  refine ⟨num_driveState_enumerating _ hlt, ?_, rfl⟩
  show ((modDrive d _ s.chip).drive d).linkDowns = _
  rw [drive_modDrive_same]

/-- The fourth failure in a second retires the drive. -/
theorem leaves_rootLinkDown_retired {port link : Fin 4} {s : State} {d : Nat} (hd : s.chip.linkDrives port.val link.val = [d])
    (h : 3 ≤ ((s.chip.drive d).linkDowns.filter (fun t => decide (s.chip.now < t + 1000000000))).length) :
    Leaves (.rootLinkDown port link) s (retireDrive d s.chip) := by
  refine leaves_onChip (exec_rootLinkDown port link s) ?_
  simp only [hd, forEach, List.foldl_cons, List.foldl_nil]
  rw [if_pos h]

/-- CONTROLLER_FATAL acts on the chip. -/
theorem exec_controllerFatal (d : Fin 12) (s : State) :
    exec (.controllerFatal d) s = s.onChip (fun c =>
      if c.num (Obj.hodDriveState d.val) ≠ 1 ∧ c.num (Obj.hodDriveState d.val) ≠ 2 then c
      else if (c.drive d.val).controllerReset then retireDrive d.val c
      else countDrives (setNum (Obj.hodDriveState d.val) 1 (modDrive d.val (fun x => { x with controllerReset := true }) c))) := rfl

/-- A second fatal status retires the drive. -/
theorem completes_controllerFatal_again {d : Fin 12} {s : State}
    (h : s.chip.num (Obj.hodDriveState d.val) = 1 ∨ s.chip.num (Obj.hodDriveState d.val) = 2)
    (hr : (s.chip.drive d.val).controllerReset = true) :
    Completes (.controllerFatal d) s (fun t => t.chip.num (Obj.hodDriveState d.val) = 3 ∧ t.chip.num (Obj.hodDriveRetired d.val) = 1) := by
  have e : exec (.controllerFatal d) s = .next { s with chip := retireDrive d.val s.chip } := by
    rw [exec_controllerFatal, State.onChip, if_neg (by omega), if_pos hr]
  exact ⟨_, e, num_retireDrive d.isLt (by omega)⟩

/-- The first fatal status resets the controller. -/
theorem completes_controllerFatal_first {d : Fin 12} {s : State}
    (h : s.chip.num (Obj.hodDriveState d.val) = 1 ∨ s.chip.num (Obj.hodDriveState d.val) = 2)
    (hr : (s.chip.drive d.val).controllerReset = false) :
    Completes (.controllerFatal d) s (fun t => t.chip.num (Obj.hodDriveState d.val) = 1 ∧ (t.chip.drive d.val).controllerReset = true) := by
  refine ⟨_, exec_controllerFatal d s, ?_⟩
  dsimp only
  rw [if_neg (by omega), if_neg (by simp [hr])]
  refine ⟨num_driveState_enumerating _ d.isLt, ?_⟩
  show ((modDrive d.val _ s.chip).drive d.val).controllerReset = true
  rw [drive_modDrive_same]

/-- DRIVE_REINSTATE by a master without A, and by one with it. -/
theorem answers_driveReinstate {r : Req} {a : Nat} {d : Fin 12} {s : State} (h : Writes r a (Obj.hodDriveRetired d.val) [0] s) :
    let c := (judged r.path s).chip
    (c.may 0x01 0x40 a 3 = false → Answers (.driveReinstate r d) r a (Obj.hodDriveRetired d.val) [0] s c St.noAccess) ∧
    (c.may 0x01 0x40 a 3 = true → c.flag (Obj.hodDriveRetired d.val) = true →
      Answers (.driveReinstate r d) r a (Obj.hodDriveRetired d.val) [0] s
        (countDrives (setNum (Obj.hodDriveErrors d.val) 0 (setNum (Obj.hodDriveState d.val) 1
          (setNum (Obj.hodDriveRetired d.val) 0 (modDrive d.val (fun _ => {}) c))))) St.ok) := by
  intro c
  exact ⟨fun hm => serveRow_chip h (by rw [if_pos (by simp [c, hm])]), fun hm hf => serveRow_chip h (by simp [c, hm, hf])⟩

end Sys2Proof.Machine
end

section
/-!
SUPPORT. O32, second part: extents that are read here and on other chips, and what other chips offer.
-/

namespace Sys2Proof.Machine

/-! ### A read that ends (R283, R290) -/

/-- The preload's end changes numbers alone. -/
@[simp] theorem settlePreload_hod (slot : Nat) (c : Chip) : (settlePreload slot c).hod = c.hod := by
  unfold settlePreload when_
  dsimp only
  split <;> rfl

/-- Messages to other chips leave the streaming unit alone. -/
theorem hod_forEach_sendLath {α : Type} (l : List α) (cls type tag : Nat) (dst : α → Nat) (fields : α → List Nat) (c : Chip) :
    (forEach l (fun x c => sendLath cls type (dst x) tag (fields x) c) c).hod = c.hod :=
  forEach_keeps (fun d : Chip => d.hod = c.hod) _ l c (fun _ _ _ h => h) rfl

/-- The last extent that entered the cache is there. -/
theorem mem_cache_cacheExtent (x : Extent) (c : Chip) : x ∈ (cacheExtent x c).hod.cache :=
  List.mem_append_right _ (List.mem_singleton_self x)

@[simp] theorem cacheExtent_reads (x : Extent) (c : Chip) : (cacheExtent x c).hod.reads = c.hod.reads := rfl

/-- The cache entry of a read that has ended at tick `stc`. -/
def Read.extent (r : Read) (data : List Byte) (stc : Nat) : Extent :=
  { volume := r.volume, object := r.object, index := r.index, data := data, used := stc, pinned := r.pin }

/-- A read that has ended is no longer in flight, and its extent is in the cache. -/
theorem finishRead_hod (r : Read) (data : List Byte) (c : Chip) :
    (finishRead r data c).hod.reads =
      c.hod.reads.filter (fun x => !(x.volume == r.volume && x.object == r.object && x.index == r.index)) ∧
    r.extent data c.time.stc ∈ (finishRead r data c).hod.cache := by
  unfold finishRead
  extract_lets c1 c2 mine c3 c4
  have h3 : c3.hod = c2.hod := hod_forEach_sendLath _ _ _ _ _ _ _
  have h4 : c4.hod.reads = c2.hod.reads ∧ c4.hod.cache = c2.hod.cache :=
    ⟨(congrArg Hod.reads h3 : c3.hod.reads = _), (congrArg Hod.cache h3 : c3.hod.cache = _)⟩
  have h2 : r.extent data c.time.stc ∈ c2.hod.cache := mem_cache_cacheExtent _ _
  have hr : c2.hod.reads = c.hod.reads.filter (fun x => !(x.volume == r.volume && x.object == r.object && x.index == r.index)) := rfl
  rw [← h4.2] at h2
  rw [← h4.1] at hr
  split
  · unfold when_
    split
    · rw [settlePreload_hod]
      exact ⟨hr, h2⟩
    · exact ⟨hr, h2⟩
  · exact ⟨hr, h2⟩

/-- EXTENT_READ_COMPLETE names the one local read in flight. -/
theorem find_localRead {c : Chip} {x : Read} {volume : Fin 65536} {object index : BitVec 32} (hr : c.hod.reads = [x])
    (hv : x.volume = volume.val) (ho : x.object = object.toNat) (hi : x.index = index.toNat) (hs : x.server = none) :
    c.hod.reads.find? (fun r => r.volume == volume.val && r.object == object.toNat && r.index == index.toNat &&
      r.server.isNone) = some x := by
  simp [hr, hv, ho, hi, hs]

/-- Nothing is in flight: the completion is stray. -/
theorem leaves_extentReadComplete_stray {volume : Fin 65536} {object index : BitVec 32} (result : ReadResult) {s : State}
    (h : s.chip.hod.reads = []) : Leaves (.extentReadComplete volume object index result) s s.chip := by
  show execExtentReadComplete volume object index result s = _
  unfold execExtentReadComplete State.withKeys
  simp only [h, List.find?_nil]

/-- An attempt before the last fails. -/
theorem readFailed_again {slot : Nat} {x : Read} (c : Chip) (h : x.attempts < 3) :
    readFailed slot x c = countFailure (c.num (Obj.hodVolumeDrive slot)) (bump Obj.hodCountersReadRetries
      (modRead x (fun x => { x with attempts := x.attempts + 1, issued := c.now }) c)) := by
  unfold readFailed
  rw [if_neg (Nat.not_le.mpr h)]
  dsimp only
  rw [num_bump_other _ (by simp only [Obj.hodVolumeDrive, Obj.hodCountersReadRetries]; omega)]
  rfl

/-- EXTENT_READ_COMPLETE with an error. -/
theorem leaves_extentReadComplete_error {volume : Fin 65536} {object index : BitVec 32} {s : State} {x : Read} {slot : Nat}
    (hr : s.chip.hod.reads = [x]) (hv : x.volume = volume.val) (ho : x.object = object.toNat) (hi : x.index = index.toNat)
    (hs : x.server = none) (hslot : s.chip.volumeSlot volume.val = some slot) :
    Leaves (.extentReadComplete volume object index .error) s (readFailed slot x s.chip) := by
  show execExtentReadComplete volume object index .error s = _
  unfold execExtentReadComplete State.withKeys
  simp only [find_localRead hr hv ho hi hs, hslot]

/-- EXTENT_READ_COMPLETE with data that verifies. -/
theorem completes_extentReadComplete {volume : Fin 65536} {object index : BitVec 32} {s : State} {x : Read} {slot : Nat}
    {extent tag p : List Byte} (hr : s.chip.hod.reads = [x]) (hv : x.volume = volume.val) (ho : x.object = object.toNat)
    (hi : x.index = index.toNat) (hs : x.server = none) (hslot : s.chip.volumeSlot volume.val = some slot)
    (ht : (s.chip.volume slot).tags.find? (fun y => y.1 == (s.chip.volume slot).extentNumber x.object x.index) = none)
    (hp : verifyExtent s.dust (s.chip.volume slot) x.object x.index (tagEntry tag) (slice extent 0 65536) = some p) :
    Completes (.extentReadComplete volume object index (.data extent tag)) s (fun t => t.chip.hod.reads = [] ∧
      (∃ y ∈ t.chip.hod.cache, y.volume = x.volume ∧ y.object = x.object ∧ y.index = x.index ∧ y.data = p ∧ y.pinned = x.pin) ∧
      t.dust = s.dust ∧ t.pending = s.pending) := by
  let e := (s.chip.volume slot).extentNumber x.object x.index
  let d := modVolume slot (fun v => { v with tags := tset {} v.tags e (tagEntry tag) }) s.chip
  have he : exec (.extentReadComplete volume object index (.data extent tag)) s = .next { s with chip := finishRead x p d } := by
    show execExtentReadComplete volume object index (.data extent tag) s = _
    unfold execExtentReadComplete State.withKeys
    simp only [find_localRead hr hv ho hi hs, hslot, ht, hp]
    rfl
  obtain ⟨hreads, hcache⟩ := finishRead_hod x p d
  refine ⟨_, he, ?_, ⟨_, hcache, rfl, rfl, rfl, rfl, rfl⟩, rfl, rfl⟩
  have hd : d.hod.reads = [x] := hr
  rw [hreads, hd]
  simp

/-! ### Reads that time out (R293, R295) -/

/-- READ_TIMEOUT while no read of this chip's drives is 50 ms old. -/
theorem leaves_readTimeout_none {s : State} (h : ∀ x ∈ s.chip.hod.reads, x.server ≠ none ∨ s.chip.now < x.issued + 50000000) :
    Leaves .readTimeout s s.chip := by
  show execReadTimeout s = _
  unfold execReadTimeout State.onChip
  dsimp only
  rw [List.filter_eq_nil_iff.mpr fun x hx => ?_]
  · rfl
  · rcases h x hx with h | h
    · simp [h]
    · simp [Nat.not_le.mpr h]

/-- A read of this chip's drives that is 50 ms old. -/
theorem leaves_readTimeout {s : State} {x : Read} {slot : Nat} (hr : s.chip.hod.reads = [x]) (hs : x.server = none)
    (hi : x.issued + 50000000 ≤ s.chip.now) (hv : s.chip.volumeSlot x.volume = some slot) :
    Leaves .readTimeout s (readFailed slot x s.chip) := by
  have hf : s.chip.inFlight x.volume x.object x.index = true := by simp [Chip.inFlight, hr]
  show execReadTimeout s = _
  unfold execReadTimeout State.onChip
  simp [hr, hs, hi, forEach, hv, hf]

/-- REMOTE_TIMEOUT while no remote read is 2 ms old. -/
theorem leaves_remoteTimeout_none {s : State} (h : ∀ x ∈ s.chip.hod.reads, x.server = none ∨ s.chip.now < x.issued + 2000000) :
    Leaves .remoteTimeout s s.chip := by
  show execRemoteTimeout s = _
  unfold execRemoteTimeout State.onChip
  dsimp only
  rw [List.filter_eq_nil_iff.mpr fun x hx => ?_]
  · rfl
  · rcases h x hx with h | h
    · simp [h]
    · simp [Nat.not_le.mpr h]

/-- A remote read that is 2 ms old goes to its next server. -/
theorem leaves_remoteTimeout {s : State} {x : Read} (hr : s.chip.hod.reads = [x]) (hs : x.server ≠ none)
    (hi : x.issued + 2000000 ≤ s.chip.now) : Leaves .remoteTimeout s (nextServer x s.chip) := by
  have hs' : x.server.isSome = true := Option.isSome_iff_ne_none.mpr hs
  show execRemoteTimeout s = _
  unfold execRemoteTimeout State.onChip
  simp [hr, hs', hi, forEach]

/-- Counting a timeout moves no chip of the view. -/
theorem servers_bump_remoteTimeouts (c : Chip) (number : Nat) :
    (bump Obj.hodCountersRemoteTimeouts c).servers number = c.servers number := by
  have hm : (bump Obj.hodCountersRemoteTimeouts c).me = c.me := num_bump_other c (by decide)
  have ht : (bump Obj.hodCountersRemoteTimeouts c).num Obj.chainTopology = c.num Obj.chainTopology := num_bump_other c (by decide)
  have hh (m : Nat) : (bump Obj.hodCountersRemoteTimeouts c).hopsTo m = c.hopsTo m := by
    unfold Chip.hopsTo
    rw [hm, ht]
    rfl
  unfold Chip.servers
  simp only [hh]
  rfl

/-- Every server was tried: the read ends. -/
theorem nextServer_none {x : Read} {c : Chip} (hr : c.hod.reads = [x])
    (h : (c.servers x.volume).find? (fun m => !x.tried.contains m) = none) :
    nextServer x c = modHod (fun h => { h with reads := [] }) (bump Obj.hodCountersRemoteTimeouts c) := by
  unfold nextServer
  simp only [servers_bump_remoteTimeouts, h, modHod, bump_hod, hr]
  simp

/-- The next server is asked. -/
theorem nextServer_some {x : Read} {c : Chip} {m : Nat} (hr : c.hod.reads = [x])
    (h : (c.servers x.volume).find? (fun m => !x.tried.contains m) = some m) :
    (nextServer x c).hod.reads = [{ x with server := some m, tried := x.tried ++ [m], issued := c.now }] ∧
    (nextServer x c).out = c.out ++ [.lath 2 4 0 m 0 [x.volume, x.object, x.index, x.need.getD 0]] := by
  unfold nextServer
  simp only [servers_bump_remoteTimeouts, h]
  refine ⟨?_, rfl⟩
  show (modRead x _ (bump Obj.hodCountersRemoteTimeouts c)).hod.reads = _
  unfold modRead modHod
  simp only [bump_hod, hr]
  simp
  rfl

/-! ### Extents for other chips (R294, R295) -/

/-- EXTENT_REQ for a volume that is not mounted here. -/
theorem leaves_extentReq_absent {chip : Byte} {fields : List Nat} {s : State} (h : s.chip.volumeSlot (fields.getD 0 0) = none) :
    Leaves (.extentReq chip fields) s s.chip := by
  show execExtentReq chip fields s = _
  unfold execExtentReq State.onChip
  simp only [h]

/-- EXTENT_REQ for a volume that this chip does not serve. -/
theorem leaves_extentReq_notServed {chip : Byte} {fields : List Nat} {s : State} {slot : Nat}
    (h : s.chip.volumeSlot (fields.getD 0 0) = some slot) (hs : s.chip.flag (Obj.hodVolumeServe slot) = false) :
    Leaves (.extentReq chip fields) s s.chip := by
  show execExtentReq chip fields s = _
  unfold execExtentReq State.onChip
  dsimp only
  simp only [h]
  rw [if_pos (.inr (.inl (by rw [hs]; rfl)))]

/-- What the service of one extent leaves. -/
def serveExtent (chip : Byte) (fields : List Nat) (c : Chip) : Chip :=
  match c.cached (fields.getD 0 0) (fields.getD 1 0) (fields.getD 2 0) with
  | some x => sendLath 4 1 chip.toNat 0 ([fields.getD 0 0, fields.getD 1 0, fields.getD 2 0] ++ x.data.map BitVec.toNat) c
  | none =>
    let d := modHod (fun h => { h with served := h.served ++
      [⟨chip.toNat, fields.getD 0 0, fields.getD 1 0, fields.getD 2 0⟩] }) c
    if c.inFlight (fields.getD 0 0) (fields.getD 1 0) (fields.getD 2 0) then d
    else modHod (fun h => { h with reads := h.reads ++
      [{ volume := fields.getD 0 0, object := fields.getD 1 0, index := fields.getD 2 0, need := some (fields.getD 3 0),
         issued := c.now }] }) d

/-- EXTENT_REQ for an extent of a VALID object that this chip serves. -/
theorem leaves_extentReq {chip : Byte} {fields : List Nat} {s : State} {slot : Nat}
    (h : s.chip.volumeSlot (fields.getD 0 0) = some slot) (hs : s.chip.flag (Obj.hodVolumeServe slot) = true)
    (h5 : s.chip.num (Obj.hodVolumeState slot) ≠ 5) (he : (tget {} (s.chip.volume slot).dir (fields.getD 1 0)).state = 1)
    (hx : fields.getD 2 0 < (tget {} (s.chip.volume slot).dir (fields.getD 1 0)).extents)
    (hb : s.chip.extentBad (fields.getD 0 0) (fields.getD 1 0) (fields.getD 2 0) = false) :
    Leaves (.extentReq chip fields) s (serveExtent chip fields s.chip) := by
  show execExtentReq chip fields s = _
  unfold execExtentReq State.onChip
  dsimp only
  simp only [h]
  rw [if_neg]
  · rfl
  · rintro (e | e | e | e | e)
    · exact h5 e
    · rw [hs] at e
      cases e
    · exact e he
    · exact absurd hx (Nat.not_lt.mpr e)
    · rw [hb] at e
      cases e

/-- EXTENT_DATA with no read in flight. -/
theorem leaves_extentData_stray {chip : Byte} {fields : List Nat} {s : State} (h : s.chip.hod.reads = []) :
    Leaves (.extentData chip fields) s s.chip := by
  show execExtentData chip fields s = _
  unfold execExtentData State.onChip
  simp only [h, List.find?_nil]

/-- EXTENT_DATA from a chip that was asked ends the read. -/
theorem leaves_extentData {chip : Byte} {fields : List Nat} {s : State} {x : Read} (hr : s.chip.hod.reads = [x])
    (hv : x.volume = fields.getD 0 0) (ho : x.object = fields.getD 1 0) (hi : x.index = fields.getD 2 0)
    (ht : chip.toNat ∈ x.tried) :
    Leaves (.extentData chip fields) s (finishRead x (slice ((fields.drop 3).map (BitVec.ofNat 8)) 0 65536) s.chip) := by
  have hf : s.chip.hod.reads.find? (fun r => r.volume == fields.getD 0 0 && r.object == fields.getD 1 0 &&
      r.index == fields.getD 2 0 && r.tried.contains chip.toNat) = some x := by
    rw [hr]
    simp [hv, ho, hi, ht]
  show execExtentData chip fields s = _
  unfold execExtentData State.onChip
  simp only [hf]

/-- A conflict changes the slot's state to CONFLICT, or nothing of the volumes. -/
theorem checkConflict_keeps {slot : Nat} (c : Chip) (h : slot < 16) :
    (checkConflict slot c).hod = c.hod ∧ (checkConflict slot c).mem = c.mem ∧
    ∀ m, (checkConflict slot c).num (Obj.hodVolumeState m) = c.num (Obj.hodVolumeState m) ∨
      (checkConflict slot c).num (Obj.hodVolumeState m) = 5 := by
  unfold checkConflict
  extract_lets st vol
  split
  · refine ⟨snag_hod _ _ _ _, (SameUnits.snag _ _ _ _).mem, fun m => ?_⟩
    rw [num_snag]
    by_cases hm : m = slot
    · subst hm
      exact .inr (num_setNum_fits c (width_volumeState h) (by decide))
    · exact .inl (num_setNum_other c _ (by simp only [Obj.hodVolumeState]; omega))
  · exact ⟨rfl, rfl, fun _ => .inl rfl⟩

/-- VOLUME_OFFER acts on the chip. -/
theorem exec_volumeOffer (chip : Byte) (fields : List Nat) (s : State) :
    exec (.volumeOffer chip fields) s = s.onChip (fun c => forEach (upTo 16) checkConflict (modHod (fun h => { h with
      offers := h.offers.filter (fun o => o.1 != chip.toNat) ++ offerEntries chip.toNat fields }) c)) := rfl

/-- VOLUME_OFFER replaces a chip's offers; a slot at most enters CONFLICT. -/
theorem completes_volumeOffer (chip : Byte) (fields : List Nat) (s : State) :
    Completes (.volumeOffer chip fields) s (fun t =>
      t.chip.hod.offers = s.chip.hod.offers.filter (fun o => o.1 != chip.toNat) ++ offerEntries chip.toNat fields ∧
      t.chip.hod.volumes = s.chip.hod.volumes ∧ t.chip.mem = s.chip.mem ∧
      (∀ slot, slot < 16 → t.chip.num (Obj.hodVolumeState slot) = s.chip.num (Obj.hodVolumeState slot) ∨
        t.chip.num (Obj.hodVolumeState slot) = 5)) := by
  let d := modHod (fun h => { h with
    offers := h.offers.filter (fun o => o.1 != chip.toNat) ++ offerEntries chip.toNat fields }) s.chip
  have hk : (forEach (upTo 16) checkConflict d).hod = d.hod ∧ (forEach (upTo 16) checkConflict d).mem = d.mem ∧
      ∀ m, (forEach (upTo 16) checkConflict d).num (Obj.hodVolumeState m) = d.num (Obj.hodVolumeState m) ∨
        (forEach (upTo 16) checkConflict d).num (Obj.hodVolumeState m) = 5 := by
    refine forEach_keeps (fun x : Chip => x.hod = d.hod ∧ x.mem = d.mem ∧ ∀ m,
      x.num (Obj.hodVolumeState m) = d.num (Obj.hodVolumeState m) ∨ x.num (Obj.hodVolumeState m) = 5) _ _ _
      (fun slot hm x ⟨hh, hmem, hn⟩ => ?_) ⟨rfl, rfl, fun _ => .inl rfl⟩
    obtain ⟨kh, kmem, kn⟩ := checkConflict_keeps x (List.mem_range.mp hm)
    refine ⟨kh.trans hh, kmem.trans hmem, fun m => ?_⟩
    rcases kn m with k | k
    · rw [k]
      exact hn m
    · exact .inr k
  have he : exec (.volumeOffer chip fields) s = .next { s with chip := forEach (upTo 16) checkConflict d } :=
    exec_volumeOffer chip fields s
  generalize forEach (upTo 16) checkConflict d = x at hk he
  obtain ⟨hh, hmem, hn⟩ := hk
  refine ⟨_, he, ?_, ?_, hmem, fun slot _ => hn slot⟩
  · show x.hod.offers = _
    rw [hh]
    rfl
  · show x.hod.volumes = _
    rw [hh]
    rfl

/-- Settles O32: each command's branches, with the numbers of drives and slots told apart by their objects. -/
theorem drivesAndExtents : Obligations.DrivesAndExtents := by
  refine ⟨fun found s => ?_, fun port link s => ?_, fun d s => ?_, fun r a d s h => answers_driveReinstate h,
    fun volume object index result s x slot => ?_, fun s => ?_, fun chip fields s => ?_⟩
  · intro c loc
    refine ⟨fun h => ?_, fun h hd => ?_, fun hn hm h0 hr => ?_⟩
    · exact leaves_driveEnumerated_other h
    · exact leaves_driveEnumerated_full h hd
    · exact completes_driveEnumerated hn hm h0 hr
  · refine ⟨fun h => ?_, fun d hd => ⟨completes_rootLinkDown hd, leaves_rootLinkDown_retired hd⟩⟩
    refine leaves_onChip (exec_rootLinkDown port link s) ?_
    rw [h]
    rfl
  · refine ⟨fun h1 h2 => leaves_onChip (exec_controllerFatal d s) (if_pos ⟨h1, h2⟩), completes_controllerFatal_again,
      completes_controllerFatal_first⟩
  · intro c hv ho hi hs hslot
    refine ⟨leaves_extentReadComplete_stray result, fun hr h3 => ?_, fun extent tag p hr hres ht hp => ?_⟩
    · rw [← readFailed_again _ h3]
      exact leaves_extentReadComplete_error hr hv ho hi hs hslot
    · subst hres
      exact completes_extentReadComplete hr hv ho hi hs hslot ht hp
  · refine ⟨leaves_readTimeout_none, fun x slot hr hs hi hv => leaves_readTimeout hr hs hi hv, leaves_remoteTimeout_none,
      fun x hr hs hi => ⟨fun h => ?_, fun m h => ?_⟩⟩
    · rw [← nextServer_none hr h]
      exact leaves_remoteTimeout hr hs hi
    · exact ⟨_, leaves_remoteTimeout hr hs hi, nextServer_some hr h⟩
  · refine ⟨leaves_extentReq_absent, fun slot h hs => leaves_extentReq_notServed h hs,
      fun slot h hs h5 he hx hb => ⟨fun x hc => ?_, fun hc hf => ?_, fun hc hf => ?_⟩, leaves_extentData_stray,
      fun x hr hv ho hi ht => leaves_extentData hr hv ho hi ht, completes_volumeOffer chip fields s⟩
    all_goals
      have e : Leaves (.extentReq chip fields) s _ := leaves_extentReq h hs h5 he hx hb
      unfold serveExtent at e
    · rwa [hc] at e
    · rwa [hc, hf] at e
    · rwa [hc, hf] at e

end Sys2Proof.Machine
end

section
/-!
SUPPORT. O38: leases that lapse, resets of the chip, of gangs and of cores, restarts, dead crossings and replays.
-/

namespace Sys2Proof.Machine

/-! ### What a reset sets up (R313, R486) -/

namespace SameUnits

theorem fitRegions (fuel cache meta_ : Nat) (c : Chip) : SameUnits c (fitRegions fuel cache meta_ c) := by
  induction fuel generalizing cache meta_ c with
  | zero => exact modHod _ c
  | succ fuel ih =>
    unfold Machine.fitRegions
    split_ifs
    · exact modHod _ c
    · exact (snag _ _ _ c).trans (ih _ _ _)
    · exact (snag _ _ _ c).trans (ih _ _ _)
    · exact modHod _ c

/-- The set-up of a reset reaches DRAM regions, partitions and number objects alone. -/
theorem setUp (cold : Bool) (c : Chip) : SameUnits c (setUp cold c) := by
  unfold Machine.setUp
  extract_lets c1 c2 c3 c4 c5 c6
  have h1 : SameUnits c c1 := fitRegions _ _ _ c
  have h2 : SameUnits c1 c2 := modTrowel _ c1
  have h3 : SameUnits c2 c3 := forEach (fun _ d => when_ (setNum _ _) _ d) _ _
  have h4 : SameUnits c3 c4 := forEach (fun _ d => when_ (setNum _ _) _ d) _ _
  have h5 : SameUnits c4 c5 := forEach (fun _ d => when_ (setNum _ _) _ d) _ _
  have h6 : SameUnits c5 c6 := forEach (fun _ d => when_ (setNum _ _) _ d) _ _
  refine ((((((h1.trans h2).trans h3).trans h4).trans h5).trans h6)).trans (forEach (fun ch d => ?_) _ _)
  cases cold with
  | false => exact (setNum _ _ d).trans (setNum _ _ _)
  | true => exact setNum _ _ d

end SameUnits

/-! ### Warm and cold resets (R486) -/

/-- The chip a warm reset sets up from. -/
def warmBase (c : Chip) : Chip :=
  { nums := warmNums c, blobs := warmBlobs c, flashNums := c.flashNums, flashBlobs := c.flashBlobs, draws := c.draws, out := c.out
    boot := { c.boot with warm := true, started := false, due := none, powerLost := false, idleSince := none, img := none }
    time := warmTime c.time
    work := { access := c.work.accessStored, accessStored := c.work.accessStored, port0Root := c.work.port0Root
              queues := (c.work.queues.map (fun q => (q.1, ({ seq := q.2.seq } : Queue)))).filter (fun q => q.2 != {})
              journal := warmJournal c.work.journal } }

theorem warmReset_eq (cause : Nat) (s : State) :
    warmReset cause s = { s with chip := snagWith 0x0703 0 0xFF 0xFFFF cause (setNum Obj.faultLastReset cause (setUp false
      (setNum Obj.plumbSampleRate (warmBase s.chip).time.rate (setNum Obj.plumbBlockSize (warmBase s.chip).time.block
        (warmBase s.chip))))) } := by
  unfold warmReset
  rfl

theorem sameUnits_warmReset (cause : Nat) (s : State) : SameUnits (warmBase s.chip) (warmReset cause s).chip := by
  rw [warmReset_eq]
  have h := (SameUnits.setNum Obj.plumbBlockSize (warmBase s.chip).time.block (warmBase s.chip)).trans
    (SameUnits.setNum Obj.plumbSampleRate (warmBase s.chip).time.rate _)
  refine ((h.trans (SameUnits.setUp false _)).trans (SameUnits.setNum Obj.faultLastReset cause _)).trans ?_
  dsimp only
  exact SameUnits.snagWith _ _ _ _ _ _

@[simp] theorem warmReset_dust (cause : Nat) (s : State) : (warmReset cause s).dust = s.dust := by rw [warmReset_eq]
@[simp] theorem warmReset_pending (cause : Nat) (s : State) : (warmReset cause s).pending = s.pending := by rw [warmReset_eq]

/-- Fault.LastReset names the cause of a warm reset. -/
theorem lastReset_warmReset {cause : Nat} (s : State) (h : cause < 256) : (warmReset cause s).chip.num Obj.faultLastReset = cause := by
  rw [warmReset_eq]
  simp only [Chip.num, snagWith_nums]
  exact num_setNum_fits _ (show objWidth _ = 1 by decide +kernel) h

/-- A warm reset clears what sounds and keeps the journal's local region and the flash records. -/
theorem warmReset_units (cause : Nat) (s : State) :
    (warmReset cause s).chip.hawk = {} ∧ (warmReset cause s).chip.skim = {} ∧ (warmReset cause s).chip.mem = [] ∧
    (warmReset cause s).chip.time.stc = s.chip.time.stc ∧
    (warmReset cause s).chip.work.journal.recs = s.chip.work.journal.recs ∧
    (warmReset cause s).chip.flashNums = s.chip.flashNums ∧ (warmReset cause s).chip.boot.powerLost = false := by
  have h := sameUnits_warmReset cause s
  refine ⟨h.hawk, h.skim, h.mem, ?_, ?_, h.flashNums, ?_⟩
  · rw [h.time]
    rfl
  · rw [h.journal]
    rfl
  · rw [h.boot]
    rfl

/-- The chip a cold reset sets up from. -/
def coldBase (c : Chip) : Chip :=
  let n : Chip :=
    { nums := c.flashNums, blobs := c.flashBlobs, flashNums := c.flashNums, flashBlobs := c.flashBlobs, draws := c.draws, out := c.out
      boot := { c.boot with warm := false, started := false, due := none, powerLost := false, idleSince := none, img := none }
      work := { access := c.work.accessStored, accessStored := c.work.accessStored } }
  modWork (fun w => { w with port0Root := n.num Obj.pciePort0Mode == 1 })
    (modTime (fun t => { t with rate := n.num Obj.plumbSampleRate, block := n.num Obj.plumbBlockSize
                                rebaseHz := rateHz (n.num Obj.plumbSampleRate) }) n)

theorem coldReset_eq (s : State) : coldReset s = { s with chip := setUp true (coldBase s.chip), dust := { store := s.dust.store } } := by
  unfold coldReset
  rfl

/-- A cold reset keeps the flash records, and nothing else of these units. -/
theorem coldReset_units (s : State) :
    (coldReset s).chip.time.stc = 0 ∧ (coldReset s).chip.hawk = {} ∧ (coldReset s).chip.skim = {} ∧ (coldReset s).chip.mem = [] ∧
    (coldReset s).chip.work.journal = {} ∧ (coldReset s).chip.flashNums = s.chip.flashNums := by
  have h : SameUnits (coldBase s.chip) (coldReset s).chip := by
    rw [coldReset_eq]
    exact SameUnits.setUp true _
  refine ⟨?_, h.hawk, h.skim, h.mem, h.journal, h.flashNums⟩
  rw [h.time]
  rfl

/-- The wrapped keys in flash last a cold reset; the keys themselves do not. -/
@[simp] theorem coldReset_dust (s : State) : (coldReset s).dust = { store := s.dust.store } := by rw [coldReset_eq]
@[simp] theorem coldReset_pending (s : State) : (coldReset s).pending = s.pending := by rw [coldReset_eq]

/-- Reset.Request 1 or 2 is answered, and then the reset is made. -/
theorem exec_resetRequest {r : Req} {a v : Nat} {data : List Byte} {s : State} (h : Writes r a Obj.resetRequest data s)
    (hv : v = 1 ∨ v = 2) :
    thenReset (serveRow r Obj.resetRequest data (resetRequestAct v) s) = .next (finishReset (answered r a Obj.resetRequest data
      ({ s with chip := modBoot (fun b => { b with due := some v }) (judged r.path s).chip }, St.ok))) := by
  have hst : (if v = 1 ∨ v = 2 then St.ok else St.badValue) = St.ok := if_pos hv
  exact congrArg thenReset (serveRow_chip h (if_pos hst))

/-- WARM_RESET. -/
theorem completes_warmReset {r : Req} {a : Nat} {s : State} (h : Writes r a Obj.resetRequest [1] s) :
    let c := (judged r.path s).chip
    Completes (.warmReset r) s (fun t =>
      t.chip.num Obj.faultLastReset = 1 ∧ t.chip.time.stc = c.time.stc ∧ t.chip.hawk = {} ∧ t.chip.skim = {} ∧ t.chip.mem = [] ∧
      t.chip.work.journal.recs = c.work.journal.recs ∧ t.chip.flashNums = c.flashNums ∧ t.dust = s.dust ∧ t.pending = s.pending) := by
  intro c
  let x : State × Nat := ({ s with chip := modBoot (fun b => { b with due := some 1 }) c }, St.ok)
  let y := answered r a Obj.resetRequest [1] x
  have hy : SameUnits x.1.chip y.chip := SameUnits.answered r a _ _ x
  have hf : finishReset y = warmReset 1 y := by
    unfold finishReset
    rw [show y.chip.boot.due = some 1 from congrArg Boot.due hy.boot]
    rfl
  refine ⟨_, exec_resetRequest h (.inl rfl), ?_⟩
  show (fun t : State => _) (finishReset y)
  rw [hf]
  obtain ⟨hhawk, hskim, hmem, hstc, hrecs, hflash, -⟩ := warmReset_units 1 y
  refine ⟨lastReset_warmReset y (by decide), hstc.trans (congrArg Time.stc hy.time), hhawk, hskim, hmem,
    hrecs.trans (congrArg Journal.recs hy.journal), hflash.trans hy.flashNums, ?_, ?_⟩
  · exact (warmReset_dust 1 y).trans (answered_dust r a _ _ x)
  · exact (warmReset_pending 1 y).trans (answered_pending r a _ _ x)

/-- COLD_RESET. -/
theorem completes_coldReset {r : Req} {a : Nat} {s : State} (h : Writes r a Obj.resetRequest [2] s) :
    Completes (.coldReset r) s (fun t =>
      t.chip.time.stc = 0 ∧ t.chip.hawk = {} ∧ t.chip.skim = {} ∧ t.chip.mem = [] ∧ t.chip.work.journal = {} ∧
      t.chip.flashNums = (judged r.path s).chip.flashNums ∧ t.dust.keys = [] ∧ t.dust.store = s.dust.store ∧ t.pending = s.pending) := by
  let x : State × Nat := ({ s with chip := modBoot (fun b => { b with due := some 2 }) (judged r.path s).chip }, St.ok)
  let y := answered r a Obj.resetRequest [2] x
  have hy : SameUnits x.1.chip y.chip := SameUnits.answered r a _ _ x
  have hf : finishReset y = coldReset y := by
    unfold finishReset
    rw [show y.chip.boot.due = some 2 from congrArg Boot.due hy.boot]
    rfl
  refine ⟨_, exec_resetRequest h (.inr rfl), ?_⟩
  show (fun t : State => _) (finishReset y)
  rw [hf]
  obtain ⟨hstc, hhawk, hskim, hmem, hjournal, hflash⟩ := coldReset_units y
  refine ⟨hstc, hhawk, hskim, hmem, hjournal, hflash.trans hy.flashNums, ?_, ?_, ?_⟩
  · rw [coldReset_dust]
  · rw [coldReset_dust]
    show y.dust.store = s.dust.store
    rw [show y.dust = s.dust from answered_dust r a _ _ x]
  · exact (coldReset_pending y).trans (answered_pending r a _ _ x)

/-! ### Main supply loss (R487, R560, R561) -/

/-- The control block written last is the one in force. -/
theorem control_writeControl (b : Bool) (c : Chip) :
    (writeControl b c).work.journal.control.isSealed = b ∧ (writeControl b c).work.journal.control.stcLast = c.time.stc ∧
    (writeControl b c).work.journal.recs = c.work.journal.recs := by
  unfold writeControl modJournal modWork
  dsimp only
  by_cases h : c.work.journal.blockA.gen < c.work.journal.blockB.gen
  · simp [Journal.control, h]
  · simp [Journal.control, h]

/-- POWER_FAIL acts on the chip. -/
theorem exec_powerFail (s : State) : exec .powerFail s =
    s.onChip (fun c => if c.boot.powerLost then c else writeControl true (modBoot (fun b => { b with powerLost := true }) c)) := rfl

/-- POWER_FAIL seals the control block. -/
theorem completes_powerFail {s : State} (h : s.chip.boot.powerLost = false) :
    Completes .powerFail s (fun t => t.chip.boot.powerLost = true ∧ t.chip.work.journal.control.isSealed = true ∧
      t.chip.work.journal.control.stcLast = s.chip.time.stc ∧ t.chip.work.journal.recs = s.chip.work.journal.recs ∧ t.dust = s.dust) := by
  have e : exec .powerFail s = .next { s with chip := writeControl true (modBoot (fun b => { b with powerLost := true }) s.chip) } := by
    rw [exec_powerFail, State.onChip, if_neg (by simp [h])]
  obtain ⟨hsealed, hlast, hrecs⟩ := control_writeControl true (modBoot (fun b => { b with powerLost := true }) s.chip)
  exact ⟨_, e, rfl, hsealed, hlast, hrecs, rfl⟩

/-- The STC resumes at a multiple of 64 that is not before the tick of the outage. -/
theorem stc_resumeAfter (last n : Nat) (c : Chip) :
    last ≤ (resumeAfter last n c).time.stc ∧ (resumeAfter last n c).time.stc % 64 = 0 := by
  show last ≤ (last + (n * c.fs + slowHz - 1) / slowHz + 63) / 64 * 64 ∧
    (last + (n * c.fs + slowHz - 1) / slowHz + 63) / 64 * 64 % 64 = 0
  generalize (n * c.fs + slowHz - 1) / slowHz = q
  omega

/-- A power-fail restart is a warm reset at the tick where the STC resumes. -/
theorem powerFailRestart_units (cycles : Nat) (s : State) :
    (powerFailRestart cycles s).chip.num Obj.faultLastReset = 2 ∧ (powerFailRestart cycles s).chip.boot.powerLost = false ∧
    (powerFailRestart cycles s).chip.work.journal.recs = s.chip.work.journal.recs ∧
    s.chip.work.journal.control.stcLast ≤ (powerFailRestart cycles s).chip.time.stc ∧
    (powerFailRestart cycles s).chip.time.stc % 64 = 0 ∧ (powerFailRestart cycles s).dust = s.dust := by
  let u : State := { s with chip := resumeAfter s.chip.work.journal.control.stcLast cycles s.chip }
  have e : powerFailRestart cycles s = { warmReset 2 u with
      chip := setNum Obj.faultOutageUs (cycles * 1000000 / slowHz) (warmReset 2 u).chip } := by
    unfold powerFailRestart
    rfl
  obtain ⟨-, -, -, hstc, hrecs, -, hlost⟩ := warmReset_units 2 u
  obtain ⟨hle, hmod⟩ := stc_resumeAfter s.chip.work.journal.control.stcLast cycles s.chip
  have hn : (setNum Obj.faultOutageUs (cycles * 1000000 / slowHz) (warmReset 2 u).chip).num Obj.faultLastReset = 2 :=
    (num_setNum_other _ _ (by decide)).trans (lastReset_warmReset u (by decide))
  rw [e]
  refine ⟨hn, ?_, ?_, ?_, ?_, warmReset_dust 2 u⟩
  · rw [setNum_boot]
    exact hlost
  · rw [setNum_work]
    exact hrecs
  · rw [setNum_time, hstc]
    exact hle
  · rw [setNum_time, hstc]
    exact hmod

end Sys2Proof.Machine
end

section
/-!
SUPPORT. O38, second part: leases, restarts of the supervisor, dead crossings, gangs and cores, and replays.
-/

namespace Sys2Proof.Machine

/-! ### Leases that lapse (R491, R492) -/

/-- LEASE_EXPIRY acts on the chip, lease by lease. -/
theorem exec_leaseExpiry (s : State) : exec .leaseExpiry s = s.onChip (fun c =>
    forEach (c.work.leases.filter (fun l => l.kind != 1 && l.expiry != noTerm && decide (l.expiry < c.time.stc))) revokeLease c) := rfl

theorem leaves_leaseExpiry_none {s : State}
    (h : ∀ l ∈ s.chip.work.leases, l.kind = 1 ∨ l.expiry = noTerm ∨ s.chip.time.stc ≤ l.expiry) : Leaves .leaseExpiry s s.chip := by
  refine leaves_onChip (exec_leaseExpiry s) ?_
  rw [List.filter_eq_nil_iff.mpr fun l hl => ?_]
  · rfl
  · rcases h l hl with h | h | h
    · simp [h]
    · simp [h]
    · simp [Nat.not_lt.mpr h]

/-- A lease whose expiry has passed is revoked. -/
theorem leaves_leaseExpiry {s : State} {l : Lease} (hl : s.chip.work.leases = [l]) (hk : l.kind ≠ 1) (hn : l.expiry ≠ noTerm)
    (he : l.expiry < s.chip.time.stc) : Leaves .leaseExpiry s (revokeLease l s.chip) := by
  refine leaves_onChip (exec_leaseExpiry s) ?_
  simp [hl, hk, hn, he, forEach]

/-- The lease on the coat's staging image ends with the image. -/
theorem revokeLease_coat {l : Lease} {c : Chip} (hl : c.work.leases = [l]) (hk : l.kind = 4) (hw : c.skim.wet.phase = .idle) :
    (revokeLease l c).skim.next = [] ∧ (revokeLease l c).work.leases = [] := by
  have e : revokeLease l c = leaseDrop 4 l.unit (setNext [] c) := by
    unfold revokeLease
    rw [hk]
    exact if_neg (by simp [hw])
  rw [e]
  refine ⟨rfl, ?_⟩
  show (c.work.leases.filter (fun x => !(x.kind == 4 && x.unit == l.unit))) = []
  simp [hl, hk]

/-! ### RESET_N, VBAK and the supervisor (R21, R486, R561) -/

/-- The cases of RESET_N. -/
theorem exec_resetN (low : Nat) (supplies ignored : Bool) (cycles : Nat) (s : State) :
    exec (.resetN low supplies ignored cycles) s =
      if ignored || !supplies then .next s
      else if s.chip.boot.powerLost then
        (if s.chip.work.journal.control.isSealed then .next (powerFailRestart cycles s) else .next (coldReset s))
      else if 10000 ≤ low then .next (coldReset s)
      else .next s := rfl

/-- VBAK_LOSS without main supply. -/
theorem exec_vbakLoss (s : State) : exec .vbakLoss s =
    if s.chip.boot.powerLost then
      .next { s with chip := modWork (fun w => { w with journal := {} }) s.chip, dust := { s.dust with keys := [], lost := [] } }
    else .next s := rfl

/-- What a restart of the supervisor leaves before a third one becomes a reset. -/
def restartNoted (c : Chip) : Chip :=
  let recent := c.work.supervisor.restarts.filter (fun t => decide (c.now < t + 60000000000))
  modWork (fun w => { w with supervisor := { w.supervisor with restarting := true, restarts := c.now :: recent } })
    (snag 0x0701 0 0xFF (bump Obj.supervisorRestarts c))

theorem exec_supervisorRestart (s : State) : exec .supervisorRestart s =
    if 2 ≤ (s.chip.work.supervisor.restarts.filter (fun t => decide (s.chip.now < t + 60000000000))).length then
      .next (warmReset 3 { s with chip := restartNoted s.chip })
    else .next { s with chip := restartNoted s.chip } := rfl

/-- A restart leaves time and voices alone. -/
theorem restartNoted_units (c : Chip) : (restartNoted c).hawk = c.hawk ∧ (restartNoted c).time = c.time := by
  have h := (SameUnits.bump Obj.supervisorRestarts c).trans (SameUnits.snag 0x0701 0 0xFF _)
  exact ⟨h.hawk, h.time⟩

theorem completes_supervisorRestart {s : State}
    (h : (s.chip.work.supervisor.restarts.filter (fun t => decide (s.chip.now < t + 60000000000))).length < 2) :
    Completes .supervisorRestart s (fun t => t.chip.work.supervisor.restarting = true ∧
      t.chip.work.supervisor.restarts =
        s.chip.now :: s.chip.work.supervisor.restarts.filter (fun t => decide (s.chip.now < t + 60000000000)) ∧
      t.chip.hawk = s.chip.hawk ∧ t.chip.time = s.chip.time) := by
  obtain ⟨hhawk, htime⟩ := restartNoted_units s.chip
  exact ⟨_, (exec_supervisorRestart s).trans (if_neg (Nat.not_le.mpr h)), rfl, rfl, hhawk, htime⟩

/-- The third restart in 60 s is a warm reset. -/
theorem completes_supervisorRestart_third {s : State}
    (h : 2 ≤ (s.chip.work.supervisor.restarts.filter (fun t => decide (s.chip.now < t + 60000000000))).length) :
    Completes .supervisorRestart s (fun t => t.chip.num Obj.faultLastReset = 3 ∧ t.chip.hawk = {}) := by
  obtain ⟨hhawk, -⟩ := warmReset_units 3 { s with chip := restartNoted s.chip }
  exact ⟨_, (exec_supervisorRestart s).trans (if_pos h), lastReset_warmReset _ (by decide), hhawk⟩

/-- The end of a restart serves what was held. -/
theorem exec_supervisorRestartDone (s : State) : exec .supervisorRestartDone s =
    .next (s.chip.work.supervisor.held.foldl (fun s x => serveMsg x.1 x.2 s)
      { s with chip := modWork (fun w => { w with supervisor := { w.supervisor with restarting := false, held := [] } }) s.chip }) := rfl

/-! ### Dead crossings (R33, R494) -/

theorem exec_crossingDead (island : Island) (s : State) :
    exec (.crossingDead island) s = s.onChip (fun c => islandDead island (snag 0x0001 (islandUnit island) 0xFF c)) := rfl

/-- A core that does not execute any more is retired. -/
theorem flag_retireCore {n : Nat} (alive : Bool) (c : Chip) (h : n < 256) :
    (retireCore n alive c).flag (Obj.trowelCoreRetired n) = true := by
  unfold retireCore
  split
  case isTrue hr => exact hr
  case isFalse =>
    have hw : objWidth (Obj.trowelCoreRetired n) = 1 :=
      (by decide +kernel : ∀ n : Fin 256, objWidth (Obj.trowelCoreRetired n.val) = 1) ⟨n, h⟩
    dsimp only
    unfold Chip.flag
    rw [num_setNum_other _ _ (by simp only [Obj.trowelCoreRetired, Obj.trowelCoreClockMHz]; omega),
      num_setNum_fits _ hw (by decide)]
    rfl

/-- Without Screed its returns are gone. -/
theorem islandDead_screed (c : Chip) : (islandDead .screed c).screed.lost = true ∧ (islandDead .screed c).screed.rets = [] := by
  have h := SameUnits.snag 0x0002 0 0xFF (modScreed (fun x => { x with lost := true, rets := [], newRets := [] }) c)
  constructor
  · show (snag _ _ _ _).screed.lost = true
    rw [h.screed]
    rfl
  · show (snag _ _ _ _).screed.rets = []
    rw [h.screed]
    rfl

/-! ### Gangs and cores (R490) -/

/-- A core whose reset has begun stays in it. -/
theorem inReset_beginCoreReset (n : Nat) (c : Chip) : ((beginCoreReset n c).core n).inReset = true := by
  unfold beginCoreReset
  split
  case isTrue h => exact h
  case isFalse =>
    dsimp only
    rw [core_modCore_same]

theorem exec_gangResetDone (gang : Bool) (n : Fin 256) (table : List Byte) (s : State) :
    exec (.gangResetDone gang n table) s = s.onChip (fun c =>
      if gang then
        if (gangCores (n.val % 16)).any (fun k => (c.core k).inReset) then
          loadTable (n.val % 16) table (clearMem (memScratch (n.val % 16) 0) (memScratch (n.val % 16) 0x200000)
            (forEach (gangCores (n.val % 16)) endCoreReset c))
        else c
      else endCoreReset n.val c) := rfl

/-- What a cleared table reads at a key. -/
theorem tget_tclear {α : Type} (d : α) (t : Table α) (lo hi k : Nat) :
    tget d (tclear t lo hi) k = if lo ≤ k ∧ k < hi then d else tget d t k := by
  induction t with
  | nil => simp [tclear, tget]
  | cons e t ih =>
    obtain ⟨k', v⟩ := e
    unfold tclear at ih ⊢
    by_cases hk : k' < lo ∨ hi ≤ k'
    · rw [List.filter_cons_of_pos (by simpa using hk), tget, tget, ih]
      by_cases he : k' = k
      · rw [if_pos he, if_pos he, if_neg (by omega)]
      · rw [if_neg he, if_neg he]
    · rw [List.filter_cons_of_neg (by simpa using hk), ih, tget]
      by_cases he : k' = k
      · rw [if_pos (by omega), if_pos (by omega)]
      · rw [if_neg he]

/-- Cleared memory reads 0, and the rest as before. -/
theorem byte_clearMem (lo hi a : Nat) (c : Chip) : (clearMem lo hi c).byte a = if lo ≤ a ∧ a < hi then 0 else c.byte a :=
  tget_tclear 0 c.mem lo hi a

/-- The reset of a core without voices clears its local data memory. -/
theorem endCoreReset_empty {n : Nat} {c : Chip} (h : (c.core n).inReset = true) (hv : c.coreVoices n = []) :
    ((endCoreReset n c).core n).inReset = false ∧
    ∀ a, (endCoreReset n c).byte a = if memLocal n 0 ≤ a ∧ a < memLocal n 0x14000 then 0 else c.byte a := by
  unfold endCoreReset
  rw [if_neg (by simp [h]), hv]
  refine ⟨?_, fun a => byte_clearMem _ _ a c⟩
  dsimp only
  rw [core_modCore_same]

/-! ### Replays (R502) -/

/-- Tenant.ReplayGo while nothing waits to be replayed, and with no record left. -/
theorem answers_replayGo {r : Req} {a : Nat} {t : Fin 16} {s : State} (h : Writes r a (Obj.faultTenantReplayGo t.val) [1] s) :
    let c := (judged r.path s).chip
    (tget .none c.work.journal.replay t.val ≠ .waiting →
      Answers (.replayGo r t) r a (Obj.faultTenantReplayGo t.val) [1] s c St.busy) ∧
    (tget .none c.work.journal.replay t.val = .waiting → c.work.journal.toReplay = [] →
      Answers (.replayGo r t) r a (Obj.faultTenantReplayGo t.val) [1] s
        (writeControl false (modJournal (fun j => { j with replay := tset .none j.replay t.val .done }) c)) St.ok) := by
  intro c
  refine ⟨fun hw => serveRow_chip h (if_pos hw), fun hw hr => serveRow_chip h ((if_neg (not_not.mpr hw)).trans ?_)⟩
  have hr' : (judged r.path s).chip.work.journal.toReplay = [] := hr
  simp only [hr', List.filter_nil, List.sortBy, forEach, List.foldl_nil, modJournal, modWork]
  rw [← hr']

/-- Settles O38: the units each reset sets up from, the lease or request that stands alone in its list, and the rules of the
reset objects. -/
theorem leasesPowerAndResets : Obligations.LeasesPowerAndResets := by
  refine ⟨fun s => ?_, fun r a s => ?_, fun n table s => ?_⟩
  · intro c
    refine ⟨leaves_leaseExpiry_none, fun l => leaves_leaseExpiry, fun l hl hk hu hn he hw => ?coat, fun h => ?_, completes_powerFail,
      fun cycles h1 h2 => ?restart, fun cycles h => ?noRestart, fun low supplies ignored cycles h => ?ignored,
      fun low cycles h1 h2 => ?short, fun low cycles h1 h2 => ?long, fun low cycles h => ?outage, ?cold, fun h => ?vbak, fun h => ?mains,
      fun h => ?noneHeld, fun p m h => ?held, ⟨completes_supervisorRestart, completes_supervisorRestart_third⟩, ?other, fun n => ?core,
      ?screed, fun g => ?gang⟩
    case coat =>
      exact ⟨_, leaves_leaseExpiry hl (by omega) hn he, revokeLease_coat hl hk hw⟩
    case restart => exact ⟨_, if_pos ⟨h1, h2⟩, powerFailRestart_units cycles s⟩
    case noRestart =>
      refine if_neg ?_
      rintro ⟨h1, h2⟩
      rcases h with h | h
      · exact Bool.false_ne_true (h.symm.trans h1)
      · exact Bool.false_ne_true (h.symm.trans h2)
    case ignored =>
      refine (exec_resetN low supplies ignored cycles s).trans (if_pos ?_)
      rcases h with h | h <;> simp [h]
    case short =>
      have h1' : s.chip.boot.powerLost = false := h1
      show exec _ s = _
      rw [exec_resetN, h1']
      exact if_neg (Nat.not_le.mpr h2)
    case long =>
      have h1' : s.chip.boot.powerLost = false := h1
      rw [exec_resetN, h1']
      exact if_pos h2
    case outage =>
      have h' : s.chip.boot.powerLost = true := h
      rw [exec_resetN, h']
      by_cases hs : s.chip.work.journal.control.isSealed = true
      · exact (if_pos hs).trans (congrArg _ (if_pos hs).symm)
      · exact (if_neg hs).trans (congrArg _ (if_neg hs).symm)
    case cold =>
      obtain ⟨hstc, hhawk, -, hmem, hjournal, hflash⟩ := coldReset_units s
      exact ⟨hstc, hhawk, hmem, by rw [coldReset_dust], by rw [coldReset_dust], hjournal, hflash⟩
    case vbak => exact ⟨_, (exec_vbakLoss s).trans (if_pos h), rfl, rfl, rfl, rfl⟩
    case mains => exact (exec_vbakLoss s).trans (if_neg (by simp [c, h]))
    case noneHeld =>
      have h' : s.chip.work.supervisor.held = [] := h
      show exec _ s = _
      rw [exec_supervisorRestartDone, h', List.foldl_nil, modWork]
      rw [← h']
    case held =>
      have h' : s.chip.work.supervisor.held = [(p, m)] := h
      rw [exec_supervisorRestartDone, h']
      rfl
    case other => exact leaves_onChip (exec_crossingDead .other s) rfl
    case core => exact ⟨_, exec_crossingDead (.core n) s, flag_retireCore false _ n.isLt⟩
    case screed => exact ⟨_, exec_crossingDead .screed s, islandDead_screed _⟩
    case gang => exact leaves_onChip (exec_crossingDead (.gang g) s) rfl
    exact leaves_onChip (exec_powerFail s) (if_pos h)
  · intro c
    refine ⟨completes_warmReset, completes_coldReset, fun gang h => serveRow_chip h rfl, fun core h => serveRow_chip h rfl,
      fun n => inReset_beginCoreReset n c, fun t h => answers_replayGo h⟩
  · intro c
    refine ⟨fun h => ?_, fun h hv => ?_, fun h => ?_⟩
    · refine leaves_onChip (exec_gangResetDone false n table s) ?_
      show endCoreReset n.val c = c
      refine if_pos ?_
      rw [h]
      rfl
    · obtain ⟨hreset, hbyte⟩ := endCoreReset_empty h hv
      refine ⟨_, exec_gangResetDone false n table s, hreset, fun a h1 h2 => ?_, fun a ha => ?_⟩
      · exact (hbyte a).trans (if_pos ⟨h1, h2⟩)
      · exact (hbyte a).trans (if_neg (by omega))
    · refine leaves_onChip (exec_gangResetDone true n table s) ?_
      refine (if_pos rfl).trans (if_neg ?_)
      simpa using h

end Sys2Proof.Machine
end

section
/-!
SUPPORT. O49: a tempo change takes the tempo as its object is wide, so a state that holds a wider number refutes the statement.
-/

namespace Sys2Proof.Machine

/-- On a chip that is no member of a chain, and not quarantined, a write of a chain-scope object is a write with its local rule (R374). -/
theorem scopeRow_local {r : Req} {o : Nat} {data : List Byte} {s : State} (ho : o < 2 ^ 32) (h : Reaches r.path (writeMsg r o data) s)
    (hm : (judged r.path s).chip.isMember = false) (hq : (judged r.path s).chip.isQuarantined = false) :
    scopeRow r o data s = serveRow r o data (localScope o (leNat data)) s := by
  have e : (writeMsg r o data).object.toNat = o := by
    show (BitVec.ofNat 32 o).toNat = o
    rw [BitVec.toNat_ofNat]
    exact Nat.mod_eq_of_lt ho
  unfold scopeRow serveRow
  dsimp only
  rw [serve_reaches _ h, serve_reaches _ h]
  unfold runScope
  simp only [hm, hq, e, Bool.or_self, Bool.false_eq_true, if_false]
  rfl

/-- Plumb.Tempo.Go is answered OK on such a chip, and its change is scheduled (R462). -/
theorem scopeRow_tempoGo {r : Req} {a : Nat} {data : List Byte} {s : State} (h : Writes r a Obj.plumbTempoGo data s)
    (hm : (judged r.path s).chip.isMember = false) (hq : (judged r.path s).chip.isQuarantined = false) :
    scopeRow r Obj.plumbTempoGo data s = .next (answered r a Obj.plumbTempoGo data
      ({ s with chip := applyScope Obj.plumbTempoGo (leNat data) 0 [] (judged r.path s).chip }, St.ok)) := by
  rw [scopeRow_local h.1 h.2.1 hm hq]
  have hb (c : Chip) : belowMin c Obj.plumbTempoGo (leNat data) = false := rfl
  refine serveRow_chip h ?_
  simp only [hb, Bool.false_eq_true, if_false, if_true]

/-- The tempo that a change carries is the object's low 32 bits. -/
theorem tempo_applyScope_tempoGo (v x : Nat) (c : Chip) :
    (applyScope Obj.plumbTempoGo v x [] c).time.tempoChange.map TempoChange.tempo = some (wrap 32 (c.num Obj.plumbTempoSet)) := by
  have hw : objWidth Obj.plumbTempoSet = 4 := by decide +kernel
  have e : (setNum Obj.plumbTempoSet (c.num Obj.plumbTempoSet) (setNum Obj.plumbTempoRelocate (c.num Obj.plumbTempoRelocate)
      (setNum Obj.plumbTempoApplyTick (c.num Obj.plumbTempoApplyTick) c))).num Obj.plumbTempoSet = wrap 32 (c.num Obj.plumbTempoSet) := by
    rw [num_setNum_same, hw]
  exact congrArg some e

/-- A state whose Plumb.Tempo.Set holds a number one bit wider than the object. -/
def wideTempoState : State := { chip := { nums := [(Obj.plumbTempoSet, 2 ^ 32)] } }

/-- A request of tenant 0's first mailbox. -/
def hostRequest : Req := { path := .mailbox 0 0, txn := 1 }

/-- Refutes O49: in `wideTempoState`, where Plumb.Tempo.Set reads 2 ^ 32, Plumb.Tempo.Go 1 by `hostRequest` schedules the tempo 0,
the object's low 32 bits, and not the number that the statement reads.The statement speaks of every state, and nothing in it
bounds an object's number by its width; `setNum` itself never writes a number that wide. -/
theorem not_ratesTempoAndTimers : ¬ Obligations.RatesTempoAndTimers := by
  intro h
  obtain ⟨hwrites, -⟩ := h
  have hm : (judged hostRequest.path wideTempoState).chip.isMember = false := by decide +kernel
  have hq : (judged hostRequest.path wideTempoState).chip.isQuarantined = false := by decide +kernel
  have hw : Writes hostRequest 16 Obj.plumbTempoGo [1] wideTempoState := by decide +kernel
  have hn : (judged hostRequest.path wideTempoState).chip.num Obj.plumbTempoSet = 2 ^ 32 := by decide +kernel
  obtain ⟨-, -, hset, -⟩ := hwrites hostRequest 16 wideTempoState hm hq
  obtain ⟨t, hexec, d, hd, htime, -⟩ := hset hw
  have hrun : t = _ := Host.Outcome.next.inj (hexec.symm.trans (scopeRow_tempoGo hw hm hq))
  have hleft : t.chip.time = d.time := by
    rw [hd]
    exact (SameUnits.answered _ _ _ _ _).time
  have htempo : t.chip.time.tempoChange.map TempoChange.tempo = some (wrap 32 (2 ^ 32)) := by
    rw [hrun, (SameUnits.answered _ _ _ _ _).time, tempo_applyScope_tempoGo, hn]
  rw [hleft, htime] at htempo
  have hread : some ((judged hostRequest.path wideTempoState).chip.num Obj.plumbTempoSet) = some (wrap 32 (2 ^ 32)) := htempo
  rw [hn] at hread
  exact absurd hread (by decide)

end Sys2Proof.Machine
end

section
/-!
SUPPORT. O23: what writing an Image object, a commit and a withdrawal leave and answer, for any kind of setup object.
-/

namespace Sys2Proof.Machine

/-- A command that is a WRITE with the rule `act` leaves the chip and answers the STATUS that the rule gives in the judged state. -/
theorem answers_serveRow {i : Instr} {r : Req} {a o : Nat} {data : List Byte} {s : State} {act : Act} {c : Chip} {st : Nat}
    (hi : exec i s = serveRow r o data act s) (h : Writes r a o data s)
    (hx : act a (judged r.path s) = ({ judged r.path s with chip := c }, st)) : Answers i r a o data s c st := by
  rw [judged_state] at hx
  exact hi.trans (serveRow_writes h hx)

/-! ### Staging (R53, R411, R492) -/

/-- A master with W on the handle, whose staging no other master leases, stages the image and takes the lease for 10 s. -/
theorem stageAct_allowed {k : SetupKind} {n a : Nat} {image : List Byte} {s : State} (hw : s.chip.may k.access n a 1 = true)
    (hl : s.chip.leasedByOther 2 (k.imageObj n) a = false) :
    let c := leaseSet 2 (k.imageObj n) a (s.chip.time.stc + 10 * s.chip.fs)
      (modHandle k n (fun h => { h with staging := image }) s.chip)
    stageAct k n image a s = ({ s with chip := c }, St.ok) := by
  simp only [stageAct, actWhen, chipAct, hw, hl, Bool.not_true, Bool.false_eq_true, if_false, if_true]
  rfl

/-! ### Commits (R54, R55, R376) -/

/-- A commit whose checks fail writes its Result, adds no version, and answers NO_ACCESS for result 8 and REFUSED otherwise. -/
theorem commitAct_fails {k : SetupKind} {n a : Nat} {s : State} (h : (commitCheck (collect k n s.chip) k n a).1 ≠ 0) :
    let verdict := commitCheck (collect k n s.chip) k n a
    commitAct k n a s = ({ s with chip := setNum (k.resultObj n) verdict.1 (collect k n s.chip) },
      if verdict.1 = 8 then St.noAccess else St.refused) := by
  simp only [commitAct, chipAct, if_pos h]

/-- A commit whose checks pass writes Result 0 and adds the version; a chain-wide layer of a member is replicated. -/
theorem commitAct_passes {k : SetupKind} {n a : Nat} {s : State} (h : (commitCheck (collect k n s.chip) k n a).1 = 0) :
    let c := addVersion k n a (commitCheck (collect k n s.chip) k n a).2 (setNum (k.resultObj n) 0 (collect k n s.chip))
    let img := (c.handle k n).staging
    commitAct k n a s = ({ s with chip :=
      if k == .layer && isChainLayer img && c.isMember then replicate n a img c else c }, St.ok) := by
  simp only [commitAct, chipAct, h, ne_eq, not_true, if_false, when_]

/-! ### Withdrawals (R53, R376) -/

/-- A withdrawal needs A on the handle. -/
theorem withdrawAct_noAccess {k : SetupKind} {n a : Nat} {s : State} (h : s.chip.may k.access n a 3 = false) :
    withdrawAct k n a s = (s, St.noAccess) := by
  simp only [withdrawAct, chipAct, h, Bool.not_false, if_true]

/-- With nothing committed a withdrawal changes nothing and answers OK. -/
theorem withdrawAct_none {k : SetupKind} {n a : Nat} {s : State} (h : s.chip.may k.access n a 3 = true)
    (hv : s.chip.newest k n = none) : withdrawAct k n a s = (s, St.ok) := by
  simp only [withdrawAct, chipAct, h, hv, Bool.not_true, Bool.false_eq_true, if_false]

/-- Else no version is in force or next any more, and a member tells the chain of a chain-wide layer. -/
theorem withdrawAct_some {k : SetupKind} {n a : Nat} {s : State} {v : Version} (h : s.chip.may k.access n a 3 = true)
    (hv : s.chip.newest k n = some v) :
    let w := withdraw k n s.chip
    withdrawAct k n a s = ({ s with chip :=
      if k == .layer && isChainLayer v.image && w.isMember then sendLath 5 1 0xFF 8 [1, n, a - 0x10, 0] w else w }, St.ok) := by
  simp only [withdrawAct, chipAct, h, hv, Bool.not_true, Bool.false_eq_true, if_false, when_]

/-! ### The commands -/

/-- The commands of the four kinds are WRITEs of 1 and 2 to the kind's Commit object, with the rules of commits and withdrawals. -/
theorem exec_commit_withdraw {r : Req} {n : Fin 4096} {k : SetupKind} {commit withdrawal : Instr}
    (h : (k, commit, withdrawal) ∈ [(SetupKind.template, Instr.templateCommit r n, Instr.templateWithdraw r n),
      (.layer, .layerCommit r n, .layerWithdraw r n), (.modset, .modsetCommit r n, .modsetWithdraw r n),
      (.control, .controlCommit r n, .controlWithdraw r n)]) (s : State) :
    exec commit s = serveRow r (k.commitObj n.val) [1] (commitAct k n.val) s ∧
      exec withdrawal s = serveRow r (k.commitObj n.val) [2] (withdrawAct k n.val) s := by
  simp only [List.mem_cons, List.not_mem_nil, or_false, Prod.mk.injEq] at h
  rcases h with ⟨rfl, rfl, rfl⟩ | ⟨rfl, rfl, rfl⟩ | ⟨rfl, rfl, rfl⟩ | ⟨rfl, rfl, rfl⟩ <;> exact ⟨rfl, rfl⟩

/-- Settles O23: each command is a WRITE with the rule of its kind, and the rule is settled by the commit's verdict, or by the right
to withdraw and the newest version.  NO_ACCESS for result 8 and withdrawal at once are the model's choices (log entry 44). -/
theorem commitsAndWithdrawals : Obligations.CommitsAndWithdrawals := by
  intro r a n s
  refine ⟨fun j image hw hmay hlease => answers_serveRow rfl hw (stageAct_allowed hmay hlease),
    fun k commit withdrawal hk => ?_⟩
  obtain ⟨hcommit, hwithdrawal⟩ := exec_commit_withdraw hk s
  refine ⟨fun hw => ⟨fun hpass => ?_, fun hno => ?_, fun hfail hother => ?_⟩,
    fun hw => ⟨fun hmay => ?_, fun hmay hnone => ?_, fun v hmay hsome => ?_⟩⟩
  · exact answers_serveRow hcommit hw (commitAct_passes hpass)
  · refine answers_serveRow hcommit hw ((commitAct_fails (by rw [hno]; decide)).trans ?_)
    rw [hno, if_pos rfl]
  · exact answers_serveRow hcommit hw ((commitAct_fails hfail).trans (by rw [if_neg hother]))
  · exact answers_serveRow hwithdrawal hw (withdrawAct_noAccess hmay)
  · exact answers_serveRow hwithdrawal hw (withdrawAct_none hmay hnone)
  · exact answers_serveRow hwithdrawal hw (withdrawAct_some hmay hsome)

end Sys2Proof.Machine
end

section
/-!
SUPPORT. O27: the migration of a voice at its source and at its target, message by message.
-/

namespace Sys2Proof.Machine

/-! ### What a voice's change and its frame leave alone -/

/-- The voice that changed. -/
theorem voice_modVoice_same (n : Nat) (f : Voice → Voice) (c : Chip) : (modVoice n f c).voice n = (c.voice n).map f :=
  tget_tmod_same none c.hawk.voices n fun v => v.map f

/-- The frame of a voice is memory. -/
@[simp] theorem syncFrame_hawk (n : Nat) (c : Chip) : (syncFrame n c).hawk = c.hawk := by
  unfold syncFrame
  split
  · split <;> rfl
  · rfl

/-- A read that is asked for here or of another chip concerns the streaming unit. -/
@[simp] theorem requestExtent_hawk (x : Cursor) (ix need : Nat) (c : Chip) : (requestExtent x ix need c).hawk = c.hawk := by
  unfold requestExtent
  dsimp only
  split
  · rfl
  · split <;> rfl

/-- So do the reads that a cursor asks for ahead. -/
@[simp] theorem requestAhead_hawk (n : Nat) (c : Chip) : (requestAhead n c).hawk = c.hawk := by
  unfold requestAhead
  split
  · rfl
  · split
    · rfl
    · exact forEach_keeps (fun d : Chip => d.hawk = c.hawk) _ _ c (fun _ _ _ h => (requestExtent_hawk _ _ _ _).trans h) rfl

/-! ### The operator's request (R97, R103, R105) -/

/-- The ask that Migrate.Go 1 makes for voice `n`. -/
def operatorAsk (n : Nat) (c : Chip) : MigAsk :=
  { voice := n, frame := c.frame + 1, chip := some (c.num Obj.hawkMigrateTargetChip),
    core := if c.num Obj.hawkMigrateTargetCore = 0xFFFF then none else some (c.num Obj.hawkMigrateTargetCore), attempts := 0, cause := 3 }

/-- The live audio voice that Migrate.VoiceId names. -/
def Chip.migrateNamed (c : Chip) : Option (Nat × Voice) :=
  c.voiceList.find? (fun x => x.2.id == c.num Obj.hawkMigrateVoiceId && x.2.live && !x.2.control && !x.2.incoming)

/-- What Migrate.Go 1 leaves and answers. -/
def migrateGo (c : Chip) : Chip × Nat :=
  if c.num Obj.hawkMigrateStatus = 1 ∨ c.num Obj.hawkMigrateStatus = 2 then (c, St.busy)
  else match c.migrateNamed with
    | none => (setNum Obj.hawkMigrateStatus 5 c, St.ok)
    | some (n, v) =>
      if !c.movable v then (setNum Obj.hawkMigrateStatus 6 c, St.ok)
      else (setNum Obj.hawkMigrateStatus 1 (modHawk (fun h => { h with asks := h.asks ++ [operatorAsk n c] }) c), St.ok)

/-- MIGRATE_GO leaves and answers what the object's rule says. -/
theorem answers_migrateGo {r : Req} {a : Nat} {s : State} {c : Chip} {st : Nat} (h : Writes r a Obj.hawkMigrateGo [1] s)
    (hgo : migrateGo (judged r.path s).chip = (c, st)) : Answers (.migrateGo r) r a Obj.hawkMigrateGo [1] s c st :=
  serveRow_chip h hgo

theorem migrateGo_busy {c : Chip} (h : c.num Obj.hawkMigrateStatus = 1 ∨ c.num Obj.hawkMigrateStatus = 2) :
    migrateGo c = (c, St.busy) := if_pos h

theorem migrateGo_unnamed {c : Chip} (h1 : c.num Obj.hawkMigrateStatus ≠ 1) (h2 : c.num Obj.hawkMigrateStatus ≠ 2)
    (hn : c.migrateNamed = none) : migrateGo c = (setNum Obj.hawkMigrateStatus 5 c, St.ok) := by
  unfold migrateGo
  rw [if_neg (not_or_intro h1 h2), hn]

theorem migrateGo_unmovable {c : Chip} {n : Nat} {v : Voice} (h1 : c.num Obj.hawkMigrateStatus ≠ 1)
    (h2 : c.num Obj.hawkMigrateStatus ≠ 2) (hn : c.migrateNamed = some (n, v)) (hm : c.movable v = false) :
    migrateGo c = (setNum Obj.hawkMigrateStatus 6 c, St.ok) := by
  unfold migrateGo
  rw [if_neg (not_or_intro h1 h2), hn]
  simp only [hm, Bool.not_false, if_true]

theorem migrateGo_asks {c : Chip} {n : Nat} {v : Voice} (h1 : c.num Obj.hawkMigrateStatus ≠ 1)
    (h2 : c.num Obj.hawkMigrateStatus ≠ 2) (hn : c.migrateNamed = some (n, v)) (hm : c.movable v = true) :
    migrateGo c =
      (setNum Obj.hawkMigrateStatus 1 (modHawk (fun h => { h with asks := h.asks ++ [operatorAsk n c] }) c), St.ok) := by
  unfold migrateGo
  rw [if_neg (not_or_intro h1 h2), hn]
  simp only [hm, Bool.not_true, Bool.false_eq_true, if_false]

/-! ### The cut-off and the timers (R100, R101, R104) -/

/-- A copy that is discarded is no voice any more. -/
@[simp] theorem voice_discardCopy_same (m : MigIn) (c : Chip) : (discardCopy m c).voice m.voice = none :=
  tget_tset_same none c.hawk.voices m.voice none

/-- Nor is its migration at its target. -/
theorem migIn_discardCopy_only {m : MigIn} {c : Chip} (h : c.hawk.migIn = [m]) : (discardCopy m c).hawk.migIn = [] := by
  show c.hawk.migIn.filter (fun x => x.voice != m.voice) = []
  simp [h]

/-- MIGRATION_CUTOFF with one migration here, for which no COMMIT came by half of the frame after its first. -/
theorem leaves_migrationCutoff {s : State} {m : MigIn} (h : s.chip.hawk.migIn = [m]) (hc : m.commit = false)
    (ht : (m.frame + 1) * s.chip.bsize + s.chip.bsize / 2 ≤ s.chip.time.stc) :
    Leaves .migrationCutoff s
      (sendLath 2 3 m.source 0 [((s.chip.voice m.voice).map (fun v => v.id)).getD 0] (discardCopy m s.chip)) := by
  refine leaves_onChip rfl ?_
  rw [h, List.filter_cons_of_pos (by simp [hc, ht])]
  rfl

/-- MIGRATION_CUTOFF while every migration here has its COMMIT or has not reached its cut-off. -/
theorem leaves_migrationCutoff_none {s : State}
    (h : ∀ m ∈ s.chip.hawk.migIn, m.commit = true ∨ s.chip.time.stc < (m.frame + 1) * s.chip.bsize + s.chip.bsize / 2) :
    Leaves .migrationCutoff s s.chip := by
  refine leaves_onChip rfl ?_
  rw [List.filter_eq_nil_iff.mpr fun m hm => ?_]
  · rfl
  · rcases h m hm with h | h
    · simp [h]
    · simp [Nat.not_le.mpr h]

/-- MIGRATION_QUERY_TIMER with one migration to another chip that is committed, unresolved and due. -/
theorem leaves_migrationQueryTimer {s : State} {m : MigOut} {v : Voice} (h : s.chip.hawk.migOut = [m]) (hp : m.phase ≠ .shipped)
    (hr : m.resolved = none) (hl : m.localCopy = none) (hf : m.frame + 4 ≤ s.chip.frame)
    (hk : (s.chip.frame - m.frame) % 4 = 0) (hv : s.chip.voice m.voice = some v) :
    Leaves .migrationQueryTimer s (sendLath 2 5 m.targetChip 0 [v.id]
      (modHawk (fun x => { x with migOut := [{ m with phase := .queried }] }) s.chip)) := by
  refine leaves_onChip rfl ?_
  rw [h, List.filter_cons_of_pos (by simp [hp, hr, hl, hf, hk])]
  simp only [List.filter_nil, forEach, List.foldl_cons, List.foldl_nil, hv, modHawk, h, List.map_cons, List.map_nil, if_true]

/-- MIGRATION_RETRY off a boundary. -/
theorem leaves_migrationRetry_between {s : State} (h : s.chip.time.stc % s.chip.bsize ≠ 0) : Leaves .migrationRetry s s.chip := by
  show execMigrationRetry s = _
  unfold execMigrationRetry State.onChip
  dsimp only
  rw [if_pos h]

/-- MIGRATION_RETRY at a boundary takes the one ask that is due and not at its first attempt. -/
theorem leaves_migrationRetry {s : State} {a : MigAsk} (hk : s.chip.time.stc % s.chip.bsize = 0) (h : s.chip.hawk.asks = [a])
    (hf : a.frame ≤ s.chip.frame) (ha : 0 < a.attempts) :
    Leaves .migrationRetry s (shipOne s.chip.frame a (modHawk (fun h => { h with asks := [] }) s.chip)) := by
  have hdue : s.chip.hawk.asks.filter (fun a => decide (a.frame ≤ s.chip.frame) && decide (0 < a.attempts)) = [a] := by
    rw [h, List.filter_cons_of_pos (by simp [hf, ha]), List.filter_nil]
  show execMigrationRetry s = _
  unfold execMigrationRetry State.onChip
  dsimp only
  rw [if_neg (not_not.mpr hk), hdue]
  simp only [forEach, List.foldl_cons, List.foldl_nil, modHawk, h, List.contains_cons, BEq.rfl, Bool.true_or, Bool.not_true,
    Bool.false_eq_true, not_false_eq_true, List.filter_cons_of_neg, List.filter_nil]

/-! ### The record at its target (R97, R100) -/

/-- The core that would take the voice of a record. -/
def Chip.recordCore (c : Chip) (fields : List Nat) : Option Nat :=
  let v := recordVoice c fields
  let named := fields.getD 10 0xFFFF
  let cores := if named = 0xFFFF then c.poolCores (c.poolOf v.tenant) else [named]
  c.chooseCore (cores.filter (fun n => decide (n < 256))) 0 (c.need v)

/-- `d` has the migrations, the numbering and the boundary of `c`, and holds voice `n` as `c` does. -/
structure KeepsCopy (n : Nat) (c d : Chip) : Prop where
  migIn : d.hawk.migIn = c.hawk.migIn
  nextVoice : d.hawk.nextVoice = c.hawk.nextVoice
  boundaryDone : d.hawk.boundaryDone = c.hawk.boundaryDone
  held : (d.voice n).isSome = (c.voice n).isSome

theorem KeepsCopy.trans {n : Nat} {b c d : Chip} (h : KeepsCopy n b c) (k : KeepsCopy n c d) : KeepsCopy n b d :=
  ⟨k.migIn.trans h.migIn, k.nextVoice.trans h.nextVoice, k.boundaryDone.trans h.boundaryDone, k.held.trans h.held⟩

/-- What leaves the allocator alone keeps the copy. -/
theorem keepsCopy_of_hawk {n : Nat} {c d : Chip} (h : d.hawk = c.hawk) : KeepsCopy n c d := by
  refine ⟨?_, ?_, ?_, ?_⟩ <;> simp only [Chip.voice, h]

theorem keepsCopy_modVoice (n : Nat) (f : Voice → Voice) (c : Chip) : KeepsCopy n c (modVoice n f c) :=
  ⟨rfl, rfl, rfl, by rw [voice_modVoice_same, Option.isSome_map]⟩

/-- The cursors of a record open in the streaming unit and are named in their voice. -/
theorem keepsCopy_recordCursors (n : Nat) (fields : List Nat) (c : Chip) : KeepsCopy n c (recordCursors n fields c) := by
  refine forEach_keeps (KeepsCopy n c) _ _ c (fun i _ d hd => hd.trans ?_) (keepsCopy_of_hawk rfl)
  dsimp only
  split
  · exact keepsCopy_of_hawk rfl
  · refine KeepsCopy.trans ?_ (keepsCopy_of_hawk (requestAhead_hawk _ _))
    refine KeepsCopy.trans ?_ (keepsCopy_modVoice n _ _)
    exact keepsCopy_of_hawk rfl

/-- The copy of a record stands in the tables: its voice `w`, numbered next, and its migration. -/
def addCopy (w : Voice) (m : MigIn) (c : Chip) : Chip :=
  modHawk (fun h => { h with voices := tput h.voices m.voice (some w), nextVoice := m.voice + 1, migIn := h.migIn ++ [m] }) c

/-- The copy is listed. -/
theorem isSome_voice_addCopy (w : Voice) (m : MigIn) (c : Chip) : ((addCopy w m c).voice m.voice).isSome = true :=
  congrArg Option.isSome (tget_tput_same none c.hawk.voices m.voice (some w))

/-- The copy of a record: bound on the core that takes it, with the generators, slot states and lines of the record. -/
def Chip.recordCopy (c : Chip) (fields : List Nat) : Voice :=
  let v := recordVoice c fields
  let core := (c.recordCore fields).getD 0
  let base := (if (c.need v).block = 0 then none else c.findBlock (coreCluster core) (c.need v).block).map
    (fun i => coreCluster core * 16384 + i * (c.need v).block)
  recordState fields { bindGens c base (fields.getD 6 0) v with
    slots := c.takeSlots core (c.need v).w, incoming := true, pinned := true
    combs := ((descs (c.voiceImage v)).filter (fun d => d.kernel == 0x08)).map (fun d => zeros (combLine c.fs d.aux)) }

/-- The rest of a record: the frame of the copy `w` and its cursors. -/
def fillCopy (n : Nat) (fields : List Nat) (w : Voice) (c : Chip) : Chip :=
  syncFrame n (recordCursors n fields (writeBytes w.framePlace (((fields.drop recordHead).take 1024).map (BitVec.ofNat 8)) c))

theorem keepsCopy_fillCopy (n : Nat) (fields : List Nat) (w : Voice) (c : Chip) : KeepsCopy n c (fillCopy n fields w c) := by
  refine KeepsCopy.trans ?_ (keepsCopy_of_hawk (syncFrame_hawk n _))
  exact KeepsCopy.trans (keepsCopy_of_hawk (writeBytes_hawk c _ _)) (keepsCopy_recordCursors n fields _)

/-- The chip once a record from chip `chip` has been taken. -/
def Chip.withRecord (c : Chip) (chip : Byte) (fields : List Nat) : Chip :=
  fillCopy c.hawk.nextVoice fields (c.recordCopy fields)
    (addCopy (c.recordCopy fields) { voice := c.hawk.nextVoice, frame := fields.getD 6 0, source := chip.toNat } c)

/-- Its tables list the copy and its migration. -/
theorem withRecord_hawk (c : Chip) (chip : Byte) (fields : List Nat) :
    (c.withRecord chip fields).hawk.migIn =
        c.hawk.migIn ++ [{ voice := c.hawk.nextVoice, frame := fields.getD 6 0, source := chip.toNat }] ∧
      (c.withRecord chip fields).hawk.nextVoice = c.hawk.nextVoice + 1 ∧
      (c.withRecord chip fields).hawk.boundaryDone = c.hawk.boundaryDone ∧
      ((c.withRecord chip fields).voice c.hawk.nextVoice).isSome = true :=
  have h := keepsCopy_fillCopy c.hawk.nextVoice fields (c.recordCopy fields)
    (addCopy (c.recordCopy fields) { voice := c.hawk.nextVoice, frame := fields.getD 6 0, source := chip.toNat } c)
  ⟨h.migIn, h.nextVoice, h.boundaryDone, h.held.trans (isSome_voice_addCopy _ _ _)⟩

/-- RECORD that this chip may not take is answered with ABORT. -/
theorem leaves_migRecord_refused {chip : Byte} {fields : List Nat} {s : State}
    (h : recordOk s.chip fields (recordVoice s.chip fields) (s.chip.recordCore fields) = false) :
    Leaves (.migRecord chip fields) s (sendLath 2 3 chip.toNat 0 [fields.getD 0 0] s.chip) := by
  show execMigRecord chip fields s = _
  unfold execMigRecord State.onChip
  rw [Chip.recordCore] at h
  dsimp only at h ⊢
  rw [if_pos (by rw [h]; rfl)]
  rfl

/-- RECORD before the boundary of its frame is worked: the copy joins the tables and is filled. -/
theorem leaves_migRecord_taken {chip : Byte} {fields : List Nat} {s : State}
    (h : recordOk s.chip fields (recordVoice s.chip fields) (s.chip.recordCore fields) = true)
    (hk : s.chip.hawk.boundaryDone ≤ fields.getD 6 0) : Leaves (.migRecord chip fields) s (s.chip.withRecord chip fields) := by
  obtain ⟨-, -, hdone, -⟩ := withRecord_hawk s.chip chip fields
  rw [← hdone] at hk
  show execMigRecord chip fields s = _
  unfold execMigRecord State.onChip
  refine congrArg (fun c => Host.Outcome.next { s with chip := c }) ?_
  refine (if_neg ?_).trans (if_pos hk)
  rw [Bool.not_eq_true', Bool.not_eq_false]
  exact h

/-! ### Messages of a migration at its source (R100, R101) -/

/-- A message of chip `chip` about the migration `m` counts at its source when it comes from the target. -/
def tellSource (chip : Byte) (m : MigOut) (f : MigOut → MigOut) (c : Chip) : Chip :=
  if m.targetChip = chip.toNat then modOut m.voice f c else c

theorem tellSource_target {chip : Byte} {m : MigOut} (f : MigOut → MigOut) (c : Chip) (h : m.targetChip = chip.toNat) :
    tellSource chip m f c = modOut m.voice f c := if_pos h

theorem tellSource_other {chip : Byte} {m : MigOut} (f : MigOut → MigOut) (c : Chip) (h : m.targetChip ≠ chip.toNat) :
    tellSource chip m f c = c := if_neg h

section
variable {chip : Byte} {fields : List Nat} {s : State} {m : MigOut}

/-- READY at the source. -/
theorem leaves_migReady (h : s.chip.outOf (fields.headD 0) = some m) :
    Leaves (.migReady chip fields) s (tellSource chip m (fun m => { m with ready := true }) s.chip) := by
  show execMigReady chip fields s = _
  unfold execMigReady State.onChip
  simp only [h, tellSource]

/-- COMMITTED at the source. -/
theorem leaves_migCommitted (h : s.chip.outOf (fields.headD 0) = some m) :
    Leaves (.migCommitted chip fields) s (tellSource chip m (fun m => { m with resolved := some true }) s.chip) := by
  show execMigCommitted chip fields s = _
  unfold execMigCommitted State.onChip
  simp only [h, tellSource]

/-- ABORT at the source. -/
theorem leaves_migrationAbort_source (h : s.chip.outOf (fields.headD 0) = some m) :
    Leaves (.migrationAbort chip fields) s (tellSource chip m (fun m => { m with resolved := some false }) s.chip) := by
  show execMigrationAbort chip fields s = _
  unfold execMigrationAbort State.onChip
  simp only [h, tellSource]

/-- QUERY_REPLY at a source that has committed. -/
theorem leaves_migQueryReply (h : s.chip.outOf (fields.headD 0) = some m) (hp : m.phase ≠ .shipped) :
    Leaves (.migQueryReply chip fields) s
      (tellSource chip m (fun m => { m with resolved := some (fields.getD 1 0 != 0) }) s.chip) := by
  show execMigQueryReply chip fields s = _
  unfold execMigQueryReply State.onChip
  simp only [h, hp, tellSource, ne_eq, not_false_eq_true, and_true]

/-- QUERY_REPLY of a chip that is not the target. -/
theorem leaves_migQueryReply_other (h : s.chip.outOf (fields.headD 0) = some m) (hm : m.targetChip ≠ chip.toNat) :
    Leaves (.migQueryReply chip fields) s s.chip := by
  show execMigQueryReply chip fields s = _
  unfold execMigQueryReply State.onChip
  simp only [h, hm, false_and, if_false]

end

/-! ### Messages of a migration at its target (R100, R101) -/

section
variable {chip : Byte} {fields : List Nat} {s : State} {m : MigIn}

/-- ABORT at the target: the copy goes when the source sends it. -/
theorem leaves_migrationAbort_target (ho : s.chip.outOf (fields.headD 0) = none) (hi : s.chip.inOf (fields.headD 0) = some m) :
    Leaves (.migrationAbort chip fields) s (if m.source = chip.toNat then discardCopy m s.chip else s.chip) := by
  show execMigrationAbort chip fields s = _
  unfold execMigrationAbort State.onChip
  simp only [ho, hi]

/-- COMMIT in time. -/
theorem leaves_migCommit (hi : s.chip.inOf (fields.headD 0) = some m)
    (ht : s.chip.time.stc < (m.frame + 1) * s.chip.bsize + s.chip.bsize / 2) (hl : m.lost = false) :
    Leaves (.migCommit chip fields) s (sendLath 2 4 chip.toNat 0 [fields.headD 0]
      (modHawk (fun h => { h with migIn := h.migIn.map (fun x => if x.voice = m.voice then { x with commit := true } else x) })
        s.chip)) := by
  show execMigCommit chip fields s = _
  unfold execMigCommit State.onChip
  simp only [hi, ht, hl, Bool.not_false, and_true, if_true]

/-- COMMIT past the cut-off, or to a copy that has lost a frame. -/
theorem leaves_migCommit_late (hi : s.chip.inOf (fields.headD 0) = some m)
    (h : (m.frame + 1) * s.chip.bsize + s.chip.bsize / 2 ≤ s.chip.time.stc ∨ m.lost = true) :
    Leaves (.migCommit chip fields) s (sendLath 2 3 chip.toNat 0 [fields.headD 0] (discardCopy m s.chip)) := by
  show execMigCommit chip fields s = _
  unfold execMigCommit State.onChip
  simp only [hi]
  rw [if_neg]
  rintro ⟨ht, hl⟩
  rcases h with h | h
  · exact Nat.not_le.mpr ht h
  · simp [h] at hl

end

/-- Settles O27: a request asks by the object's rule; timers act on the migrations that are due; a record joins the tables and its
cursors keep it there; a message is heard from the chip at the other end.  A voice that is not found ends FAILED by the model's choice
(log entry 51). -/
theorem migrationProtocol : Obligations.MigrationProtocol := by
  intro s c
  refine ⟨fun r a hw => ?go, fun m h hc ht => ?cutoff, leaves_migrationCutoff_none,
    fun m v h hp hr hl hf hk hv => ⟨_, leaves_migrationQueryTimer h hp hr hl hf hk hv, rfl, rfl, rfl⟩,
    leaves_migrationRetry_between, fun a => leaves_migrationRetry, fun chip fields => ?record,
    fun chip fields m ho => ?source, fun chip fields m ho hi => ?abort, fun chip fields m hi => ?commit,
    fun chip fields => leaves_onChip rfl rfl⟩
  case go =>
    refine ⟨fun h => answers_migrateGo hw (migrateGo_busy h), fun h1 h2 => ⟨fun hn => ?_, fun n v hn hm => ?_, fun n v hn hm => ?_⟩⟩
    · exact answers_migrateGo hw (migrateGo_unnamed h1 h2 hn)
    · exact answers_migrateGo hw (migrateGo_unmovable h1 h2 hn hm)
    · exact answers_migrateGo hw (migrateGo_asks h1 h2 hn hm)
  case cutoff =>
    exact ⟨_, leaves_migrationCutoff h hc ht, migIn_discardCopy_only h, voice_discardCopy_same m c, rfl⟩
  case record =>
    refine ⟨fun h => ⟨_, leaves_migRecord_refused h, rfl⟩, fun h hk => ?_⟩
    obtain ⟨hmig, hnext, -, hvoice⟩ := withRecord_hawk c chip fields
    exact ⟨_, leaves_migRecord_taken h hk, hmig, hnext, hvoice, rfl, rfl⟩
  case source =>
    refine ⟨fun hm => ?_, fun hm => ?_⟩
    · simp only [← tellSource_target _ c hm]
      exact ⟨leaves_migReady ho, leaves_migCommitted ho, leaves_migrationAbort_source ho, leaves_migQueryReply ho⟩
    · refine ⟨?_, ?_, ?_, leaves_migQueryReply_other ho hm⟩
      · exact (leaves_migReady ho).trans (by rw [tellSource_other _ _ hm])
      · exact (leaves_migCommitted ho).trans (by rw [tellSource_other _ _ hm])
      · exact (leaves_migrationAbort_source ho).trans (by rw [tellSource_other _ _ hm])
  case abort =>
    have hrun := leaves_migrationAbort_target (chip := chip) ho hi
    exact ⟨fun hm => by rwa [if_pos hm] at hrun, fun hm => by rwa [if_neg hm] at hrun⟩
  case commit =>
    exact ⟨fun ht hl => ⟨_, leaves_migCommit hi ht hl, rfl, rfl⟩, leaves_migCommit_late hi⟩

end Sys2Proof.Machine
end

section
/-!
SUPPORT. O28: events, voices and journal records that cross chips.
-/

namespace Sys2Proof.Machine

/-! ### The journal -/

/-- The journal that changed. -/
@[simp] theorem journal_modJournal (f : Journal → Journal) (c : Chip) : (modJournal f c).work.journal = f c.work.journal := rfl

/-- A change of the journal is what it makes of the present one. -/
theorem modJournal_congr {f g : Journal → Journal} {c : Chip} (h : f c.work.journal = g c.work.journal) :
    modJournal f c = modJournal g c := by
  simp only [modJournal, modWork, h]

@[simp] theorem now_sendLath (cls type dst tag : Nat) (fields : List Nat) (c : Chip) :
    (sendLath cls type dst tag fields c).now = c.now := rfl

@[simp] theorem work_sendLath (cls type dst tag : Nat) (fields : List Nat) (c : Chip) :
    (sendLath cls type dst tag fields c).work = c.work := rfl

/-! ### The mirror's holder (R500) -/

section
variable {chip : Byte} {tag : BitVec 32} {fields : List Nat} {fails i : Nat} {s : State}

/-- EVENT_MIRROR with a retire list: the slot applies it and its free records are told. -/
theorem leaves_eventMirror_retire (ht : tag.getLsbD 31 = true) (hi : s.chip.work.journal.slotOf chip.toNat = some i) :
    let d := forEach (retireEntries fields) (fun x c => applyRetire i x.1 x.2.1 x.2.2.1 x.2.2.2 c) s.chip
    Leaves (.eventMirror chip tag fields fails) s (sendLath 1 1 chip.toNat tag.toNat [d.work.journal.mirrorFreeIn i] d) := by
  show execEventMirror chip tag fields fails s = _
  have hb : bit tag.toNat 31 = true := ht
  unfold execEventMirror State.onChip
  simp only [hb, if_true, hi]

/-- Does slot `i` hold a record already (R500)? -/
def Journal.mirrors (j : Journal) (i : Nat) (r : JRec) : Bool :=
  (j.mirror i).any (fun x => match x.2 with
    | some y => y.tenant == r.tenant && y.queue == r.queue && entrySeq y.entry == entrySeq r.entry
    | none => false)

/-- EVENT_MIRROR with a record: it is written once, and the slot's free records are told. -/
theorem leaves_eventMirror_record {d : Chip} (ht : tag.getLsbD 31 = false)
    (ha : assignSlot chip.toNat (fields.headD 0 == 1) s.chip = (some i, d)) :
    let e := if d.work.journal.mirrors i (jrecOf fields.tail) then d else writeMirror i (jrecOf fields.tail) fails d
    Leaves (.eventMirror chip tag fields fails) s (sendLath 1 1 chip.toNat tag.toNat [e.work.journal.mirrorFreeIn i] e) := by
  show execEventMirror chip tag fields fails s = _
  have hb : bit tag.toNat 31 = false := ht
  unfold execEventMirror State.onChip
  simp only [hb, Bool.false_eq_true, if_false, ha]
  rfl

/-! ### The mirror's source (R500, R501) -/

/-- MIRROR_ACK of a chip that is not the holder. -/
theorem leaves_mirrorAck_other {free : Nat} (h : chip.toNat ≠ s.chip.num Obj.chainMirrorHolder) :
    Leaves (.mirrorAck chip tag free) s s.chip := by
  show execMirrorAck chip tag free s = _
  unfold execMirrorAck State.onChip
  simp only [ne_eq, h, not_false_eq_true, if_true]

/-- The journal hears of the holder's free records. -/
def noteMirrorFree (free : Nat) (c : Chip) : Chip :=
  setNum Obj.faultJournalMirrorFree free (modJournal (fun j => { j with mirrorFree := some free }) c)

/-- MIRROR_ACK of a record that does not wait for one. -/
theorem leaves_mirrorAck_stray {free : Nat} (h : chip.toNat = s.chip.num Obj.chainMirrorHolder)
    (hu : s.chip.work.journal.unacked.find? (fun x => x.1 == tag.toNat) = none) :
    Leaves (.mirrorAck chip tag free) s (noteMirrorFree free s.chip) := by
  show execMirrorAck chip tag free s = _
  unfold execMirrorAck State.onChip
  simp only [ne_eq, h, not_true_eq_false, if_false, setNum_work, journal_modJournal, hu]
  rfl

/-- The journal once the record of a tag is mirrored. -/
def noteMirrored (tag : BitVec 32) (j : Journal) : Journal :=
  { j with unacked := j.unacked.filter (fun x => x.1 != tag.toNat)
           recs := j.recs.map (fun x => (x.1, x.2.map (fun y =>
             if y.order % 2 ^ 31 = tag.toNat then { y with mirrored := true } else y))) }

/-- MIRROR_ACK of a record while the journal is being mirrored anew: no completion is released yet. -/
theorem leaves_mirrorAck_remirroring {free x t : Nat} {f : List Nat} (h : chip.toNat = s.chip.num Obj.chainMirrorHolder)
    (hr : s.chip.work.journal.remirroring = true)
    (hu : s.chip.work.journal.unacked.find? (fun x => x.1 == tag.toNat) = some (x, t, f)) :
    Leaves (.mirrorAck chip tag free) s (modJournal (noteMirrored tag) (noteMirrorFree free s.chip)) := by
  show execMirrorAck chip tag free s = _
  unfold execMirrorAck State.onChip
  simp only [ne_eq, h, not_true_eq_false, if_false, setNum_work, journal_modJournal, hu, hr, if_true]
  rfl

/-! ### Forwarded events (R91) -/

/-- An event that this home does not have joins the events of the passes. -/
theorem receiveForward_new {r : JRec} {c : Chip} (h : c.knowsEvent r.src r.tenant r.queue (entrySeq r.entry) = false) :
    ∃ x, (receiveForward r c).work.journal.inbox = c.work.journal.inbox ++ [x] ∧ x.entry = r.entry ∧ x.src = r.src ∧
      x.acceptTick = c.time.stc ∧ x.state = .pending ∧
      (receiveForward r c).work.journal.nextOrder = c.work.journal.nextOrder + 1 := by
  unfold receiveForward
  simp only [h, Bool.false_eq_true, if_false]
  exact ⟨_, rfl, rfl, rfl, rfl, rfl, rfl⟩

/-- An event that it has changes nothing. -/
theorem receiveForward_known {r : JRec} {c : Chip} (h : c.knowsEvent r.src r.tenant r.queue (entrySeq r.entry) = true) :
    receiveForward r c = c := if_pos h

/-- A record as its home takes it from chip `chip`: an event that is not reissued comes from the sender itself. -/
def forwardedRec (chip : Byte) (fields : List Nat) : JRec :=
  { jrecOf fields with src := (if (jrecOf fields).reissued then (jrecOf fields).src else chip.toNat) }

theorem forwardedRec_src (h : (jrecOf fields).reissued = false) : (forwardedRec chip fields).src = chip.toNat :=
  if_neg (Bool.eq_false_iff.mp h)

/-- EVENT_FORWARD. -/
theorem leaves_eventForward : Leaves (.eventForward chip fields) s (receiveForward (forwardedRec chip fields) s.chip) := rfl

/-! ### Placement (R94, R95) -/

/-- Does this chip hold the template version that an order names? -/
def Chip.holdsOrdered (c : Chip) (chip : Byte) (fields : List Nat) : Bool :=
  (c.handle .template (orderVoice c chip.toNat fields).template).versions.any (fun x => x.hash == fields.getD 1 0)

/-- PLACEMENT at a chip that is quarantined or does not hold the template version. -/
theorem leaves_placement_refused (h : s.chip.isQuarantined = true ∨ s.chip.holdsOrdered chip fields = false) :
    Leaves (.placement chip fields) s (sendLath 1 4 chip.toNat 0 [(orderVoice s.chip chip.toNat fields).id] s.chip) := by
  refine congrArg (fun c => Host.Outcome.next { s with chip := c }) (if_pos ?_)
  show (s.chip.isQuarantined || !s.chip.holdsOrdered chip fields) = true
  rcases h with h | h <;> simp [h]

/-- The frame that an order starts in, and whether it comes past the cut-off. -/
def Chip.orderedFrame (c : Chip) (chip : Byte) (fields : List Nat) : Nat × Bool :=
  orderFrame c (orderVoice c chip.toNat fields).n0

/-- The voice of an order as it starts here: at sub-sample 0 of its frame, and LATE, when it comes past the cut-off. -/
def Chip.orderedVoice (c : Chip) (chip : Byte) (fields : List Nat) : Voice :=
  let v := orderVoice c chip.toNat fields
  if (c.orderedFrame chip fields).2 then { v with onsetTick := (c.orderedFrame chip fields).1 * c.bsize, onsetFrac := 0, late := true }
  else v

/-- Its start. -/
def Chip.orderedStart (c : Chip) (chip : Byte) (fields : List Nat) : Start :=
  { voice := c.hawk.nextVoice, frame := (c.orderedFrame chip fields).1, immediate := (c.orderedFrame chip fields).2, order := 0
    accepted := c.time.stc, onsetTick := (c.orderedVoice chip fields).onsetTick, onsetFrac := (c.orderedVoice chip fields).onsetFrac
    ordered := true }

/-- The chip once an order's start has run. -/
def Chip.withOrder (c : Chip) (chip : Byte) (fields : List Nat) : Chip :=
  runStart (c.orderedFrame chip fields).1 false (c.orderedStart chip fields) (modHawk (fun h =>
    { h with voices := tput h.voices c.hawk.nextVoice (some (c.orderedVoice chip fields)), nextVoice := c.hawk.nextVoice + 1
             starts := h.starts ++ [c.orderedStart chip fields] }) c)

/-- PLACEMENT for a frame whose boundary is not the last one worked. -/
theorem leaves_placement (hq : s.chip.isQuarantined = false) (hh : s.chip.holdsOrdered chip fields = true)
    (hd : (s.chip.withOrder chip fields).hawk.boundaryDone ≠ (s.chip.orderedFrame chip fields).1 + 1) :
    Leaves (.placement chip fields) s (s.chip.withOrder chip fields) := by
  refine congrArg (fun c => Host.Outcome.next { s with chip := c }) ((if_neg ?_).trans ?_)
  · show ¬ (s.chip.isQuarantined || !s.chip.holdsOrdered chip fields) = true
    simp [hq, hh]
  · change (match (s.chip.withOrder chip fields).voice s.chip.hawk.nextVoice with | none => _ | some v => _) = _
    split
    · rfl
    · refine if_neg ?_
      show ¬ (_ && (s.chip.withOrder chip fields).hawk.boundaryDone == (s.chip.orderedFrame chip fields).1 + 1) = true
      simp [hd]

/-- PLACE_REFUSE of a voice that this chip is not the home of. -/
theorem leaves_placeRefuse_none (h : tget none s.chip.hawk.owned (fields.headD 0) = none) :
    Leaves (.placeRefuse chip fields) s s.chip := by
  show execPlaceRefuse chip fields s = _
  unfold execPlaceRefuse State.onChip
  simp only [h]

/-- PLACE_REFUSE of a voice of this home counts when its holder sends it. -/
theorem leaves_placeRefuse {o : Owned} (h : tget none s.chip.hawk.owned (fields.headD 0) = some o) :
    Leaves (.placeRefuse chip fields) s
      (if o.chip = chip.toNat then reown (fields.headD 0) o false (chip.toNat :: o.refused) s.chip else s.chip) := by
  show execPlaceRefuse chip fields s = _
  unfold execPlaceRefuse State.onChip
  simp only [h]

/-! ### Reports at the home (R96, R367, R403) -/

/-- HOLDER_REPORT of an inventory at a chip that is not the layer's home. -/
theorem leaves_holderReport_inventory (ht : tag.getLsbD 31 = true)
    (hm : s.chip.num (Obj.chainLayerHome (tag.toNat % 4096)) ≠ s.chip.me) : Leaves (.holderReport chip tag fields) s s.chip := by
  show execHolderReport chip tag fields s = _
  unfold execHolderReport State.onChip
  simp only [ht, if_true, hm, ne_eq, not_false_eq_true]

/-- HOLDER_REPORT of a notice. -/
theorem leaves_holderReport_notice (ht : tag.getLsbD 31 = false) (h : fields.headD 0 < 0x100) :
    Leaves (.holderReport chip tag fields) s (relayNotice fields s.chip) := by
  show execHolderReport chip tag fields s = _
  unfold execHolderReport State.onChip
  simp only [ht, Bool.false_eq_true, if_false, h, if_true]

/-- HOLDER_REPORT of a voice that is lost. -/
theorem leaves_holderReport_lost {o : Owned} (ht : tag.getLsbD 31 = false) (h : fields.headD 0 = 0x104)
    (ho : tget none s.chip.hawk.owned (fields.getD 1 0) = some o) :
    Leaves (.holderReport chip tag fields) s (lostVoice (fields.getD 1 0) o s.chip) := by
  show execHolderReport chip tag fields s = _
  unfold execHolderReport State.onChip
  simp only [ht, Bool.false_eq_true, if_false, h, Nat.reduceLT, if_true, ho]

/-- HOLDER_REPORT of a voice that its holder still has. -/
theorem leaves_holderReport_voice (ht : tag.getLsbD 31 = false) (h : 0x100 ≤ fields.headD 0) (hl : fields.headD 0 ≠ 0x104) :
    Leaves (.holderReport chip tag fields) s (takeReport chip.toNat fields s.chip) := by
  show execHolderReport chip tag fields s = _
  unfold execHolderReport State.onChip
  simp only [ht, Bool.false_eq_true, if_false, Nat.not_lt.mpr h, hl]

theorem takeReport_feathering {m : Nat} {o : Owned} {c : Chip} (h : fields.getD 0 0 = 0x102)
    (ho : tget none c.hawk.owned (fields.getD 1 0) = some o) :
    takeReport m fields c = modOwned (fields.getD 1 0) (fun o => { o with feathering := true }) c := by
  simp only [takeReport, h, ho]

theorem takeReport_placed {m : Nat} {o : Owned} {c : Chip} (h : fields.getD 0 0 = 0x100)
    (ho : tget none c.hawk.owned (fields.getD 1 0) = some o) :
    takeReport m fields c = modOwned (fields.getD 1 0) (fun o => { o with chip := m, lead := fields.getD 2 0, known := true }) c := by
  simp only [takeReport, h, ho]

/-! ### Releases and controllers at a holder (R96, R102, R127) -/

/-- RELEASE of a voice that this chip does not hold. -/
theorem leaves_homeRelease_none (h : s.chip.voiceList.find? (fun x => x.2.id == fields.getD 0 0) = none) :
    Leaves (.homeRelease chip fields) s s.chip := by
  show execHomeRelease chip fields s = _
  unfold execHomeRelease State.onChip
  simp only [h]

/-- The tick and fraction at which a holder applies what the home sent for tick `t`: past half of the frame of `t`, the next
boundary. -/
def Chip.heldPoint (c : Chip) (t f : Nat) : Nat × Nat :=
  if c.time.stc < t / c.bsize * c.bsize + c.bsize / 2 then (t, f) else ((c.frame + 1) * c.bsize, 0)

theorem heldPoint_intime {c : Chip} {t : Nat} (f : Nat) (h : c.time.stc < t / c.bsize * c.bsize + c.bsize / 2) :
    c.heldPoint t f = (t, f) := if_pos h

theorem heldPoint_late {c : Chip} {t : Nat} (f : Nat) (h : t / c.bsize * c.bsize + c.bsize / 2 ≤ c.time.stc) :
    c.heldPoint t f = ((c.frame + 1) * c.bsize, 0) := if_neg (Nat.not_lt.mpr h)

/-- RELEASE of a voice that this chip holds: a release, a kill, a steal. -/
theorem leaves_homeRelease {n : Nat} {v : Voice}
    (h : s.chip.voiceList.find? (fun x => x.2.id == fields.getD 0 0) = some (n, v)) :
    let p := s.chip.heldPoint (fields.getD 1 0) (fields.getD 2 0)
    (fields.getD 4 0 = 0 → Leaves (.homeRelease chip fields) s
      (setRelease n p.1 p.2 (fields.getD 3 0) (modVoice n (fun v => { v with held := false }) s.chip))) ∧
    (fields.getD 4 0 = 1 → Leaves (.homeRelease chip fields) s (killVoice n p.1 5 s.chip)) ∧
    (fields.getD 4 0 = 2 → Leaves (.homeRelease chip fields) s (featherVoice n (s.chip.frameFrom p.1) 4 s.chip)) := by
  refine ⟨fun hk => ?_, fun hk => ?_, fun hk => ?_⟩
  all_goals
    show execHomeRelease chip fields s = _
    unfold execHomeRelease State.onChip
    simp only [h, hk]
    rfl

/-- CONTROLLER_FWD of a per-note controller. -/
theorem leaves_controllerFwd_perNote (h : fields.getD 0 0 = 1) :
    Leaves (.controllerFwd chip fields) s (applyPerNote (fields.getD 1 0) (fields.getD 2 0) (fields.getD 3 0) (fields.getD 4 0)
      (fields.getD 5 0) (fields.getD 6 0) (s.chip.heldPoint (fields.getD 7 0) 0).1 [] s.chip) := by
  show execControllerFwd chip fields s = _
  unfold execControllerFwd State.onChip Chip.heldPoint
  simp only [h, if_true, apply_ite Prod.fst]

/-- CONTROLLER_FWD of a channel controller. -/
theorem leaves_controllerFwd_channel (h : fields.getD 0 0 ≠ 1) :
    Leaves (.controllerFwd chip fields) s (applyController (fields.getD 1 0) (fields.getD 3 0) (fields.getD 5 0) (fields.getD 6 0)
      (s.chip.heldPoint (fields.getD 7 0) 0).1 0 false s.chip) := by
  show execControllerFwd chip fields s = _
  unfold execControllerFwd State.onChip Chip.heldPoint
  simp only [h, if_false, apply_ite Prod.fst]

end

/-! ### Mirroring goes on (R500, R501) -/

section
variable {s : State}

/-- MIRROR_RESEND of the one record that waits, 1 ms after it was sent. -/
theorem leaves_mirrorResend {x t : Nat} {f : List Nat} (h : s.chip.work.journal.unacked = [(x, t, f)])
    (ht : t + 1000000 ≤ s.chip.now) :
    Leaves .mirrorResend s (modJournal (fun j => { j with unacked := [(x, s.chip.now, f)] })
      (sendLath 1 0 (s.chip.num Obj.chainMirrorHolder) x f s.chip)) := by
  show execMirrorResend s = _
  unfold execMirrorResend State.onChip
  have hdue : [(x, t, f)].filter (fun y => decide (y.2.1 + 1000000 ≤ s.chip.now)) = [(x, t, f)] :=
    List.filter_cons_of_pos (decide_eq_true ht)
  simp only [h, hdue, forEach, List.foldl_cons, List.foldl_nil, now_sendLath]
  refine congrArg (fun c => Host.Outcome.next { s with chip := c }) (modJournal_congr ?_)
  simp only [work_sendLath, h, List.map_cons, List.map_nil, ht, if_true]

/-- Before that it is not sent again. -/
theorem leaves_mirrorResend_early {x t : Nat} {f : List Nat} (h : s.chip.work.journal.unacked = [(x, t, f)])
    (ht : s.chip.now < t + 1000000) : Leaves .mirrorResend s s.chip := by
  have hlate : ¬ t + 1000000 ≤ s.chip.now := Nat.not_le.mpr ht
  show execMirrorResend s = _
  unfold execMirrorResend State.onChip
  have hdue : [(x, t, f)].filter (fun y => decide (y.2.1 + 1000000 ≤ s.chip.now)) = [] :=
    List.filter_cons_of_neg (by simp [hlate])
  simp only [h, hdue, forEach, List.foldl_nil]
  refine congrArg (fun c => Host.Outcome.next { s with chip := c }) (modJournal_congr (g := id) ?_)
  simp only [h, List.map_cons, List.map_nil, hlate, if_false, id]
  rw [← h]

/-- REMIRROR_DONE once every record is acknowledged. -/
theorem leaves_remirrorDone (hr : s.chip.work.journal.remirroring = true) (hu : s.chip.work.journal.unacked = []) :
    Leaves .remirrorDone s (readyAll (modJournal (fun j => { j with remirroring := false }) s.chip)) := by
  show execRemirrorDone s = _
  unfold execRemirrorDone State.onChip
  simp only [hr, hu, List.isEmpty_nil, Bool.and_self, if_true]

/-- REMIRROR_DONE before that, or while nothing is mirrored anew. -/
theorem leaves_remirrorDone_idle (h : s.chip.work.journal.remirroring = false ∨ s.chip.work.journal.unacked ≠ []) :
    Leaves .remirrorDone s s.chip := by
  show execRemirrorDone s = _
  unfold execRemirrorDone State.onChip
  dsimp only
  rw [if_neg]
  rcases h with h | h <;> simp [h]

end

/-- Settles O28: a record or a retire list by the sender's slot, an acknowledgement by the holder and its tag, an event by what its home
knows, an order by what this chip holds and when it comes, and each other message by the voice it names.  The mirror message's
first flag and the order of a message's fields are the model's choices (log entries 68 and 13). -/
theorem eventsAcrossChips : Obligations.EventsAcrossChips := by
  intro chip fields s c g
  have hg : fields.headD 0 = g 0 := by
    show fields.headD 0 = fields.getD 0 0
    cases fields <;> rfl
  refine ⟨fun tag fails i ht hi => leaves_eventMirror_retire ht hi, fun tag fails i d ht ha => leaves_eventMirror_record ht ha,
    fun tag free h => leaves_mirrorAck_other h, fun tag free h hu => leaves_mirrorAck_stray h hu,
    fun tag free x t f h hr hu => ⟨_, leaves_mirrorAck_remirroring h hr hu, rfl, rfl, rfl⟩,
    leaves_eventForward, fun hr hk => ?new, fun hr hk => ?known, fun h => leaves_placement_refused h,
    fun hq hh hd => leaves_placement hq hh hd, fun h _ => leaves_placeRefuse_none (by rwa [hg]), fun o _ ho => ?refuse,
    fun tag ht _ => ⟨fun h => ?notice, fun o h ho => ?feathering, fun o h ho => ?placed, fun o h ho => ?lost⟩,
    fun tag ht hm => leaves_holderReport_inventory ht hm, fun h => leaves_homeRelease_none h, fun n v hv ht => ?release,
    fun n v hv ht hk => ?lateRelease, fun hk ht => ?perNote, fun hk ht => ?controller, fun hk ht => ?lateController,
    fun x t f h => ⟨fun ht => ⟨_, leaves_mirrorResend h ht, rfl, rfl⟩, fun ht => leaves_mirrorResend_early h ht⟩,
    ⟨_, rfl, rfl, rfl⟩, fun hr hu => leaves_remirrorDone hr hu, fun h => leaves_remirrorDone_idle h⟩
  case new =>
    have hk' : c.knowsEvent (forwardedRec chip fields).src (jrecOf fields).tenant (jrecOf fields).queue
        (entrySeq (jrecOf fields).entry) = false := by rwa [forwardedRec_src hr]
    obtain ⟨x, hinbox, hentry, hsrc, htick, hstate, horder⟩ := receiveForward_new hk'
    exact ⟨_, leaves_eventForward, x, hinbox, hentry, hsrc.trans (forwardedRec_src hr), htick, hstate, horder⟩
  case known =>
    have hk' : c.knowsEvent (forwardedRec chip fields).src (jrecOf fields).tenant (jrecOf fields).queue
        (entrySeq (jrecOf fields).entry) = true := by rwa [forwardedRec_src hr]
    have hrun := leaves_eventForward (chip := chip) (fields := fields) (s := s)
    rwa [receiveForward_known hk'] at hrun
  case refuse =>
    rw [← hg] at ho ⊢
    have hrun := leaves_placeRefuse (chip := chip) ho
    exact ⟨fun h => by rwa [if_pos h] at hrun, fun h => by rwa [if_neg h] at hrun⟩
  case notice => exact leaves_holderReport_notice ht (by rwa [hg])
  case feathering =>
    have hrun := leaves_holderReport_voice (chip := chip) (s := s) ht (by rw [hg, h]; decide) (by rw [hg, h]; decide)
    rwa [takeReport_feathering h ho] at hrun
  case placed =>
    have hrun := leaves_holderReport_voice (chip := chip) (s := s) ht (by rw [hg, h]) (by rw [hg, h]; decide)
    rwa [takeReport_placed h ho] at hrun
  case lost => exact leaves_holderReport_lost ht (hg.trans h) ho
  case release =>
    have hrun := leaves_homeRelease (chip := chip) hv
    rwa [heldPoint_intime _ ht] at hrun
  case lateRelease =>
    obtain ⟨hrun, -, -⟩ := leaves_homeRelease (chip := chip) hv
    rw [heldPoint_late _ ht] at hrun
    exact hrun hk
  case perNote =>
    have hrun := leaves_controllerFwd_perNote (chip := chip) (s := s) hk
    rwa [heldPoint_intime _ ht] at hrun
  case controller =>
    have hrun := leaves_controllerFwd_channel (chip := chip) (s := s) hk
    rwa [heldPoint_intime _ ht] at hrun
  case lateController =>
    have hrun := leaves_controllerFwd_channel (chip := chip) (s := s) hk
    rwa [heldPoint_late _ ht] at hrun

end Sys2Proof.Machine
end

section
/-!
SUPPORT. O21: what enabling an effects task, loading code, setting a thread's mode and enabling a global generator leave and answer.
-/

namespace Sys2Proof.Machine

variable {r : Req} {a : Nat} {s : State}

/-! ### Effects tasks (R167, R414) -/

/-- A disabled task whose requirements hold, within its tenant's quota, takes its bases and owner and is enabled. -/
theorem answers_taskEnable {t : Fin 1024} (hw : Writes r a (Obj.trowelTaskEnable t.val) [1] s)
    (hoff : (judged r.path s).chip.flag (Obj.trowelTaskEnable t.val) = false)
    (hok : taskStatus (judged r.path s).chip t.val a = St.ok) (hq : taskQuota (judged r.path s).chip t.val a = false) :
    Answers (.taskEnable r t) r a (Obj.trowelTaskEnable t.val) [1] s
      (quietExit (setNum (Obj.trowelTaskEnable t.val) 1 (modTrowel (fun w =>
        { w with tasks := tput w.tasks t.val { enabledAt := w.enableCount }, enableCount := w.enableCount + 1 })
        (setNum (Obj.trowelTaskOwner t.val) ((masterTenant a).getD 0xFF) (assignBases t.val (judged r.path s).chip))))) St.ok :=
  serveRow_chip hw (by simp only [hoff, hok, hq, Bool.false_eq_true, ne_eq, not_true, if_false])

/-- Beyond the quota the tenant's QUOTA source is raised and the task stays disabled. -/
theorem answers_taskEnable_quota {t : Fin 1024} (hw : Writes r a (Obj.trowelTaskEnable t.val) [1] s)
    (hoff : (judged r.path s).chip.flag (Obj.trowelTaskEnable t.val) = false)
    (hok : taskStatus (judged r.path s).chip t.val a = St.ok) (hq : taskQuota (judged r.path s).chip t.val a = true) :
    Answers (.taskEnable r t) r a (Obj.trowelTaskEnable t.val) [1] s (raise (a - 0x10) 36 (judged r.path s).chip) St.refused :=
  serveRow_chip hw (by simp only [hoff, hok, hq, Bool.false_eq_true, ne_eq, not_true, if_false, if_true])

/-- A task whose requirements fail is answered with the STATUS that they give. -/
theorem answers_taskEnable_fails {t : Fin 1024} (hw : Writes r a (Obj.trowelTaskEnable t.val) [1] s)
    (hoff : (judged r.path s).chip.flag (Obj.trowelTaskEnable t.val) = false)
    (hst : taskStatus (judged r.path s).chip t.val a ≠ St.ok) :
    Answers (.taskEnable r t) r a (Obj.trowelTaskEnable t.val) [1] s (judged r.path s).chip
      (taskStatus (judged r.path s).chip t.val a) :=
  serveRow_chip hw (by simp only [hoff, hst, Bool.false_eq_true, ne_eq, not_false_iff, if_false, if_true])

/-- An enabled task is disabled. -/
theorem answers_taskDisable {t : Fin 1024} (hw : Writes r a (Obj.trowelTaskEnable t.val) [0] s)
    (hon : (judged r.path s).chip.flag (Obj.trowelTaskEnable t.val) = true) :
    Answers (.taskDisable r t) r a (Obj.trowelTaskEnable t.val) [0] s (disableTask t.val (judged r.path s).chip) St.ok :=
  serveRow_chip hw (by simp only [hon, if_true])

/-! ### Code loads (R169) -/

/-- A load that fits, onto cores that stand outside its range and let the master write, begins. -/
theorem answers_codeLoad (hw : Writes r a Obj.trowelCodeLoad [1] s) :
    let c := (judged r.path s).chip
    let image := c.blob Obj.trowelCodeImage
    let base := c.num Obj.trowelCodeBase
    let last := base + (image.length + 3) / 4
    last ≤ 0x3000 → c.trowel.load = none → (∀ k ∈ c.loadCores, codeBusy c k base last = false ∧ c.may 0x14 k a 1 = true) →
    Answers (.codeLoad r) r a Obj.trowelCodeLoad [1] s (setNum Obj.trowelCodeStatus 1 (modTrowel (fun w =>
      { w with load := some (image, base, leNat (c.blob Obj.trowelCodeCoreMask)) }) c)) St.ok := by
  intro c image base last hfit hidle hcores
  have hbusy : (c.trowel.load.isSome || c.loadCores.any (fun k => codeBusy c k base last)) = false := by
    rw [hidle]
    exact List.any_eq_false.mpr fun k hk => by simp [(hcores k hk).1]
  have hmay : c.loadCores.any (fun k => !c.may 0x14 k a 1) = false :=
    List.any_eq_false.mpr fun k hk => by simp [(hcores k hk).2]
  refine serveRow_chip hw ?_
  rw [if_neg (Nat.not_lt.mpr hfit), if_neg (ne_true_of_eq_false hbusy), if_neg (ne_true_of_eq_false hmay)]

/-- A range of octets reads as the octets in it do. -/
theorem bytesAt_congr {c d : Chip} {k n : Nat} (h : ∀ j, k ≤ j → j < k + n → d.byte j = c.byte j) :
    d.bytesAt k n = c.bytesAt k n := by
  unfold Chip.bytesAt
  induction n generalizing k with
  | zero => rfl
  | succ n ih =>
    rw [tgets, tgets, ih fun j h1 h2 => h j (by omega) (by omega)]
    exact congrArg (· :: _) (h k (by omega) (by omega))

/-- The program memories of the cores lie apart: an image that fits in them stands in each core it was written to. -/
theorem bytesAt_loadImage {image : List Byte} {base n : Nat} (hfit : 4 * base + image.length ≤ 0x80000) (l : List Nat) (hn : n ∈ l)
    (c : Chip) : (forEach l (fun m c => writeBytes (memProgram m (4 * base)) image c) c).bytesAt (memProgram n (4 * base)) image.length
      = image := by
  induction l using List.reverseRecOn with
  | nil => cases hn
  | append_singleton l m ih =>
    rw [forEach_append]
    show (writeBytes (memProgram m (4 * base)) image (forEach l _ c)).bytesAt _ _ = image
    by_cases hm : n = m
    · rw [hm]
      exact bytesAt_writeBytes _ _ _
    · have hl : n ∈ l := by simpa [hm] using hn
      refine (bytesAt_congr fun j h1 h2 => byte_writeBytes_other _ _ ?_).trans (ih hl)
      unfold memProgram at h1 h2 ⊢
      omega

/-- Once the load is done its image stands in each core of the mask, and Status reads 2. -/
theorem completes_codeLoadDone {image : List Byte} {base mask : Nat} (h : s.chip.trowel.load = some (image, base, mask)) :
    Completes .codeLoadDone s (fun s' => s'.chip.trowel.load = none ∧ s'.chip.num Obj.trowelCodeStatus = 2 ∧
      (∀ n, n < 256 → bit mask n = true → 4 * base + image.length ≤ 0x80000 →
        s'.chip.bytesAt (memProgram n (4 * base)) image.length = image) ∧
      s'.pending = s.pending ∧ s'.dust = s.dust) := by
  have he : exec .codeLoadDone s = s.onChip (fun c => setNum Obj.trowelCodeStatus 2 (setNum Obj.trowelCodeHash (Config.sha384 image)
      (modTrowel (fun w => { w with load := none })
        (forEach ((upTo 256).filter (fun n => bit mask n)) (fun n c => writeBytes (memProgram n (4 * base)) image c) c)))) := by
    show execCodeLoadDone s = _
    unfold execCodeLoadDone State.onChip
    simp only [h]
  refine completes_onChip he ⟨rfl, ?_, fun n hn hb hfit => ?_, rfl, rfl⟩
  · exact num_setNum_fits _ (show objWidth _ = 1 by decide +kernel) (by decide)
  · exact bytesAt_loadImage hfit _ (List.mem_filter.mpr ⟨List.mem_range.mpr hn, hb⟩) s.chip

/-! ### Thread modes (R201, R230) -/

/-- A thread goes OFF. -/
theorem answers_threadMode_off {core : Fin 256} {thread : Fin 3}
    (hw : Writes r a (Obj.trowelThreadMode (4 * core.val + thread.val + 1)) [0] s) :
    Answers (.threadMode r core thread 0) r a (Obj.trowelThreadMode (4 * core.val + thread.val + 1)) [0] s
      (setNum (Obj.trowelThreadMode (4 * core.val + thread.val + 1)) 0 (threadOff (4 * core.val + thread.val + 1)
        (judged r.path s).chip)) St.ok := serveRow_chip hw rfl

/-- A thread that was OFF, of an enabled task of its core, goes IDLE in its mode and takes the flags that stand. -/
theorem answers_threadMode {core : Fin 256} {thread mode : Fin 3} :
    let c := (judged r.path s).chip
    let k := 4 * core.val + thread.val + 1
    let t := c.num (Obj.trowelThreadTask k)
    mode ≠ 0 → Writes r a (Obj.trowelThreadMode k) [BitVec.ofNat 8 mode.val] s → t < 1024 →
    c.flag (Obj.trowelTaskEnable t) = true → c.num (Obj.trowelTaskCore t) = core.val → c.num (Obj.trowelThreadMode k) = 0 →
    Answers (.threadMode r core thread mode) r a (Obj.trowelThreadMode k) [BitVec.ofNat 8 mode.val] s
      (wakeFlags k (modThread k (fun th => { th with state := .idle, wait := .none })
        (setNum (Obj.trowelThreadMode k) mode.val c))) St.ok := by
  intro c k t hmode hw ht hon hcore hoff
  have hm : mode.val ≠ 0 := fun h => hmode (Fin.ext h)
  have hk : k / 4 = core.val := by omega
  have hallowed : ¬(1024 ≤ t ∨ (!c.flag (Obj.trowelTaskEnable t)) = true ∨ c.num (Obj.trowelTaskCore t) ≠ k / 4) := by
    simp [hon, hcore, hk, ht]
  exact serveRow_chip hw ((if_neg hm).trans ((if_neg hallowed).trans
    (congrArg (fun d => (wakeFlags k d, St.ok)) (if_pos (beq_iff_eq.mpr hoff)))))

/-! ### Global generators (R129, R414) -/

/-- A generator whose definition is well formed, within the cluster's units, the chip's PITCH generators and its owner's quota,
begins. -/
theorem answers_globalEnable {n : Fin 4096} (hw : Writes r a (Obj.stippleGlobalEnable n.val) [1] s) :
    let c := (judged r.path s).chip
    let d := c.blob (Obj.stippleGlobalDef n.val)
    (tget {} c.stipple.globals n.val).def_ = [] → genFormat true d = true →
    c.globalUnitsIn (c.num (Obj.stippleGlobalCluster n.val)) + globalUnits d ≤ 4096 →
    (field d 0 1 = 8 → c.pitchCount < 64) →
    (∀ t, masterTenant a = some t → c.num (Obj.stippleGlobalOwner n.val) = t →
      c.gensUsed t + globalUnits d ≤ c.num (Obj.tenantQuotaGenerators t)) →
    Answers (.globalEnable r n) r a (Obj.stippleGlobalEnable n.val) [1] s
      (quietExit (modStipple (fun x => { x with globals := tput x.globals n.val (Gen.begin d (256 * c.time.stc) n.val none) })
        (setNum (Obj.stippleGlobalEnable n.val) 1 c))) St.ok := by
  intro c d hfree hformat hunits hpitch hquota
  have hrefused : ¬((!genFormat true d) = true ∨ 4096 < c.globalUnitsIn (c.num (Obj.stippleGlobalCluster n.val)) + globalUnits d ∨
      (field d 0 1 = 8 ∧ 64 ≤ c.pitchCount)) := by
    rintro (h | h | ⟨h8, h⟩)
    · simp [hformat] at h
    · omega
    · exact absurd (hpitch h8) (by omega)
  refine serveRow_chip hw ?_
  rw [if_neg (not_not.mpr hfree), if_neg hrefused]
  refine (if_neg ?_).trans rfl
  cases hm : masterTenant a with
  | none => simp
  | some t => simpa using hquota t hm

/-- Settles O21: each command is a WRITE whose rule is settled by the checks that its clause names, and a load that is done stands in
every core of its mask, the cores' program memories lying apart.  The bases of tasks and the checks of a load (log entry 55) and of
a generator (entry 52) are the model's reading. -/
theorem tasksCodeAndGenerators : Obligations.TasksCodeAndGenerators := by
  intro r a s c
  refine ⟨fun t hw hoff => ⟨answers_taskEnable hw hoff, answers_taskEnable_quota hw hoff, answers_taskEnable_fails hw hoff⟩,
    fun t hw hon => answers_taskDisable hw hon, answers_codeLoad, fun image base mask h => completes_codeLoadDone h,
    fun core thread hw => answers_threadMode_off hw, fun core thread mode => answers_threadMode, fun n => answers_globalEnable⟩

end Sys2Proof.Machine
end

section
/-!
SUPPORT. O42: the CAN controllers: what each operation on a queue and on the error counts leaves, and the commands made of them.
-/

namespace Sys2Proof.Machine

/-! ### Widths of the CAN objects (R443) -/

theorem width_canState {k : Nat} (h : k < 2) : objWidth (Obj.canState k) = 1 :=
  (by decide +kernel : ∀ k : Fin 2, objWidth (Obj.canState k.val) = 1) ⟨k, h⟩

theorem width_canConflictId {k : Nat} (h : k < 2) : objWidth (Obj.canConflictId k) = 4 :=
  (by decide +kernel : ∀ k : Fin 2, objWidth (Obj.canConflictId k.val) = 4) ⟨k, h⟩

theorem width_canSlotLastStatus {u : Nat} (h : u < 128) : objWidth (Obj.canSlotLastStatus u) = 1 :=
  (by decide +kernel : ∀ u : Fin 128, objWidth (Obj.canSlotLastStatus u.val) = 1) ⟨u, h⟩

/-- A counter that saturates within its width reads what it counted to. -/
theorem num_bump_satAdd (o : Nat) (c : Chip) : (bump o c).num o = satAdd (8 * objWidth o) (c.num o) 1 := by
  rw [num_bump_same, wrap, Nat.mod_eq_of_lt]
  exact (Nat.min_le_right _ _).trans_lt (Nat.sub_lt (Nat.two_pow_pos _) Nat.one_pos)

/-! ### Controllers and slots -/

/-- A controller's record. -/
@[simp] theorem ctl_modCtl_same (k : Nat) (f : CanCtl → CanCtl) (c : Chip) : (modCtl k f c).ctl k = f (c.ctl k) :=
  tget_tmod_same _ c.can.ctl k f

/-- A slot's record. -/
@[simp] theorem slot_modSlot_same (u : Nat) (f : CanSlot → CanSlot) (c : Chip) : (modSlot u f c).slot u = f (c.slot u) :=
  tget_tmod_same _ c.can.slots u f

@[simp] theorem ctl_setNum (k o v : Nat) (c : Chip) : (setNum o v c).ctl k = c.ctl k := rfl
@[simp] theorem slot_setNum (u o v : Nat) (c : Chip) : (setNum o v c).slot u = c.slot u := rfl
@[simp] theorem ctl_bump (k o : Nat) (c : Chip) : (bump o c).ctl k = c.ctl k := rfl
@[simp] theorem ctl_emit (k : Nat) (x : Out) (c : Chip) : (emit x c).ctl k = c.ctl k := rfl

/-- An event source and a log entry leave the controllers and slots alone. -/
@[simp] theorem raise_can (t v : Nat) (c : Chip) : (raise t v c).can = c.can := by
  unfold raise when_ msix
  dsimp only
  split_ifs <;> rfl

@[simp] theorem snagWith_can (code unit tenant snap data : Nat) (c : Chip) : (snagWith code unit tenant snap data c).can = c.can := by
  unfold snagWith
  dsimp only
  split_ifs <;> simp

@[simp] theorem ctl_snagWith (k code unit tenant snap data : Nat) (c : Chip) :
    (snagWith code unit tenant snap data c).ctl k = c.ctl k := by
  simp only [Chip.ctl, snagWith_can]

@[simp] theorem num_snagWith (code unit tenant snap data o : Nat) (c : Chip) :
    (snagWith code unit tenant snap data c).num o = c.num o := by
  simp only [Chip.num, snagWith_nums]

/-! ### Work on the queue (R437, R440)

Whatever is queued, sent again or aborted, a controller keeps all but its queue, and the time base stands. -/

/-- `d` has the time base of `c`, and of controller `k` all but its queue. -/
structure KeepsCtl (k : Nat) (c d : Chip) : Prop where
  time : d.time = c.time
  ctl : d.ctl k = { c.ctl k with queue := (d.ctl k).queue }

namespace KeepsCtl

variable {k : Nat} {b c d : Chip}

theorem refl (c : Chip) : KeepsCtl k c c := ⟨rfl, rfl⟩

theorem trans (h : KeepsCtl k b c) (g : KeepsCtl k c d) : KeepsCtl k b d :=
  ⟨g.time.trans h.time, by rw [g.ctl, h.ctl]⟩

theorem of_can_eq (ht : d.time = c.time) (h : d.can = c.can) : KeepsCtl k c d :=
  ⟨ht, by simp only [Chip.ctl, h]⟩

theorem modSlot (u : Nat) (f : CanSlot → CanSlot) (c : Chip) : KeepsCtl k c (modSlot u f c) := ⟨rfl, rfl⟩

theorem modQueue (f : List CanFrame → List CanFrame) (c : Chip) :
    KeepsCtl k c (modCtl k (fun x => { x with queue := f x.queue }) c) := ⟨rfl, by rw [ctl_modCtl_same]⟩

theorem putFrame (i : Nat) (f : Option CanFrame) (c : Chip) : KeepsCtl k c (putFrame k i f c) := by
  cases f with
  | none => exact modQueue (fun q => q.eraseIdx i) c
  | some g => exact modQueue (fun q => q.set i g) c

theorem canQueue (f : CanFrame) (c : Chip) : KeepsCtl k c (canQueue k f c) := modQueue (· ++ [f]) c

theorem slotStatus (f : CanFrame) (st : Nat) (c : Chip) : KeepsCtl k c (slotStatus f st c) := by
  unfold Machine.slotStatus
  split <;> exact of_can_eq rfl rfl

theorem beginHead (c : Chip) : KeepsCtl k c (beginHead k c) := by
  unfold Machine.beginHead
  split
  · exact refl c
  · split
    · exact (of_can_eq rfl rfl : KeepsCtl k c (draw c).2).trans (putFrame _ _ _)
    · exact refl c

theorem queueSlotOn (u : Nat) (v : Int) (c : Chip) : KeepsCtl k c (queueSlotOn k u v c) := by
  unfold Machine.queueSlotOn
  split
  · exact refl c
  · refine (beginHead c).trans ?_
    dsimp only
    split
    · exact canQueue _ _
    · split
      · exact putFrame _ _ _
      · exact (putFrame _ _ _).trans (modSlot _ _ _)

theorem followSlot (f : CanFrame) (c : Chip) : KeepsCtl k c (followSlot k f c) := by
  unfold Machine.followSlot
  split
  · exact refl c
  · split
    · exact (modSlot _ _ c).trans (queueSlotOn _ _ _)
    · exact refl c

theorem frameError (c : Chip) : KeepsCtl k c (frameError k c) := by
  unfold Machine.frameError
  split
  · split
    · exact ((putFrame _ _ c).trans (slotStatus _ _ _)).trans (followSlot _ _)
    · exact putFrame _ _ c
  · exact refl c

end KeepsCtl

@[simp] theorem ctl_slotStatus (k : Nat) (f : CanFrame) (st : Nat) (c : Chip) : (slotStatus f st c).ctl k = c.ctl k := by
  unfold slotStatus
  split <;> rfl

/-- A discarded queue is empty; the rest of the controller stands. -/
@[simp] theorem ctl_discardQueue (k : Nat) (c : Chip) : (discardQueue k c).ctl k = { c.ctl k with queue := [] } := by
  unfold discardQueue
  refine forEach_keeps (fun d : Chip => d.ctl k = { c.ctl k with queue := [] }) _ _ _ (fun u _ d h => h) ?_
  exact forEach_keeps (fun d : Chip => d.ctl k = { c.ctl k with queue := [] }) _ _ _
    (fun f _ d h => (ctl_slotStatus k f 4 d).trans h) (ctl_modCtl_same k _ c)

/-- The frame that is sent first is one of the queue. -/
theorem headFrame_congr {k : Nat} {c d : Chip} (h : (d.ctl k).queue = (c.ctl k).queue) : d.headFrame k = c.headFrame k := by
  unfold Chip.headFrame
  rw [h]

/-- With no value waiting behind the frame of slot `u`, nothing follows it. -/
theorem followSlot_none {k : Nat} {f : CanFrame} {c : Chip} (h : ∀ u, f.slot = some u → (c.slot u).next = none) :
    followSlot k f c = c := by
  unfold followSlot
  split
  · rfl
  · rw [h _ ‹_›]

/-! ### Error counts and states (R438) -/

section
variable {k : Nat} (tec rec_ : Nat) (c : Chip)

@[simp] theorem ctl_setCounts : (setCounts k tec rec_ c).ctl k = { c.ctl k with tec := tec, rec_ := rec_ } := by
  unfold setCounts
  dsimp only
  split_ifs <;> exact ctl_modCtl_same k _ c

@[simp] theorem slot_setCounts (u : Nat) : (setCounts k tec rec_ c).slot u = c.slot u := by
  unfold setCounts
  dsimp only
  split_ifs <;> rfl

@[simp] theorem time_setCounts : (setCounts k tec rec_ c).time = c.time := by
  unfold setCounts
  dsimp only
  split_ifs <;> rfl

/-- The counts show in three objects. -/
theorem num_setCounts_other {o : Nat} (ht : o ≠ Obj.canTec k) (hr : o ≠ Obj.canRec k) (hs : o ≠ Obj.canState k) :
    (setCounts k tec rec_ c).num o = c.num o := by
  have h : (setNum (Obj.canTec k) (min 255 tec) (setNum (Obj.canRec k) (min 255 rec_)
      (modCtl k (fun x => { x with tec := tec, rec_ := rec_ }) c))).num o = c.num o := by
    rw [num_setNum_other _ _ ht, num_setNum_other _ _ hr]
    rfl
  unfold setCounts
  dsimp only
  split_ifs
  · rw [num_setNum_other _ _ hs, h]
  · rw [num_setNum_other _ _ hs, h]
  · exact h

/-- The state follows the counts between 1 ACTIVE and 2 PASSIVE. -/
theorem state_setCounts (hk : k < 2) : (setCounts k tec rec_ c).num (Obj.canState k) =
    if c.num (Obj.canState k) = 1 ∧ (127 < tec ∨ 127 < rec_) then 2
    else if c.num (Obj.canState k) = 2 ∧ tec ≤ 127 ∧ rec_ ≤ 127 then 1 else c.num (Obj.canState k) := by
  have h : (setNum (Obj.canTec k) (min 255 tec) (setNum (Obj.canRec k) (min 255 rec_)
      (modCtl k (fun x => { x with tec := tec, rec_ := rec_ }) c))).num (Obj.canState k) = c.num (Obj.canState k) := by
    rw [num_setNum_other _ _ (by simp only [Obj.canState, Obj.canTec]; omega),
      num_setNum_other _ _ (by simp only [Obj.canState, Obj.canRec]; omega)]
    rfl
  unfold setCounts
  dsimp only
  rw [h]
  split_ifs
  · exact num_setNum_fits _ (width_canState hk) (by decide)
  · exact num_setNum_fits _ (width_canState hk) (by decide)
  · exact h

end

theorem canSends_iff {k : Nat} {c : Chip} : canSends c k = true ↔ c.num (Obj.canState k) = 1 ∨ c.num (Obj.canState k) = 2 := by
  simp [canSends]

/-- With both counts up to 127 a controller that carries frames is ACTIVE. -/
theorem state_setCounts_low {k tec rec_ : Nat} {c : Chip} (hk : k < 2) (hs : canSends c k = true) (ht : tec ≤ 127) (hr : rec_ ≤ 127) :
    (setCounts k tec rec_ c).num (Obj.canState k) = 1 := by
  rw [state_setCounts _ _ _ hk]
  rcases canSends_iff.mp hs with h | h
  · rw [if_neg (by omega), if_neg (by omega), h]
  · rw [if_neg (by omega), if_pos ⟨h, ht, hr⟩]

/-- A frame that meets an error is sent again (R438, R440). -/
theorem transmitError_resends {k i : Nat} {f : CanFrame} {c : Chip} (hh : c.headFrame k = some (i, f)) (hl : f.late = false)
    (ht : (c.ctl k).tec + 8 ≤ 255) : transmitError k c =
      setCounts k ((c.ctl k).tec + 8) (c.ctl k).rec_ (putFrame k i (some { f with phase := .waiting }) c) := by
  unfold transmitError frameError
  simp only [hh, hl, Bool.false_eq_true, if_false]
  exact if_neg (Nat.not_lt.mpr ht)

/-- The first bus-off in 10 s. -/
theorem busOff_first {k : Nat} {c : Chip} (h : (c.ctl k).busOffs = []) : busOff k c =
    setNum (Obj.canState k) 3 (emit (.source (211 + k))
      (modCtl k (fun x => { x with busOffs := [c.now] }) (bump (Obj.canCountersBusOffs k) (discardQueue k c)))) := by
  unfold busOff
  simp only [h, List.filter_nil]
  rfl

/-- A mode is entered with an empty queue and counts of 0, in the state that the Mode in force selects (R441, R442). -/
theorem enterMode_units {k : Nat} (hk : k < 2) (c : Chip) :
    ((enterMode k c).ctl k).queue = [] ∧ ((enterMode k c).ctl k).tec = 0 ∧
    (enterMode k c).num (Obj.canState k) =
      (if c.num (Obj.canMode (canCfg c k)) = 1 then 1 else if c.num (Obj.canMode (canCfg c k)) = 2 then 6 else 0) := by
  have hvalue (m : Nat) : (if m = 1 then 1 else if m = 2 then 6 else 0) < 2 ^ (8 * 1) ∧
      (if m = 1 then 1 else if m = 2 then 6 else 0) ≠ 2 := by split_ifs <;> decide
  obtain ⟨hfits, hne⟩ := hvalue (c.num (Obj.canMode (canCfg c k)))
  refine ⟨?_, ?_, ?_⟩
  · simp only [enterMode, ctl_setCounts, ctl_setNum, ctl_modCtl_same, ctl_discardQueue]
  · simp only [enterMode, ctl_setCounts]
  · rw [enterMode, state_setCounts _ _ _ hk, num_setNum_fits _ (width_canState hk) hfits, if_neg (by omega),
      if_neg fun h => hne h.1]

/-! ### Heartbeats (R137) -/

/-- CAN_HEARTBEAT acts on the chip. -/
theorem exec_canHeartbeat (slot : Fin 128) (s : State) : exec (.canHeartbeat slot) s = s.onChip (fun c =>
    if c.time.stc % c.bsize = 0 ∧ c.flag (Obj.canSlotEnable slot.val) ∧ c.num (Obj.stippleCanHeartbeat slot.val) ≠ 0 ∧
        (c.slot slot.val).lastAt + c.num (Obj.stippleCanHeartbeat slot.val) * 1000000 ≤ c.now then
      (c.slotValue slot.val).elim c (fun v => queueSlot slot.val v c)
    else c) := by
  show execCanHeartbeat slot s = _
  unfold execCanHeartbeat State.onChip
  dsimp only
  cases s.chip.slotValue slot.val <;> rfl

section
variable {slot : Fin 128} {s : State}

/-- Between boundaries, and while a slot is off, has no Heartbeat, sent within it or has no value, nothing is sent. -/
theorem leaves_canHeartbeat_none (h : s.chip.time.stc % s.chip.bsize ≠ 0 ∨ s.chip.num (Obj.canSlotEnable slot.val) = 0 ∨
      s.chip.num (Obj.stippleCanHeartbeat slot.val) = 0 ∨
      s.chip.now < (s.chip.slot slot.val).lastAt + s.chip.num (Obj.stippleCanHeartbeat slot.val) * 1000000 ∨
      s.chip.slotValue slot.val = none) : Leaves (.canHeartbeat slot) s s.chip := by
  refine leaves_onChip (exec_canHeartbeat slot s) ?_
  split
  case isFalse => rfl
  case isTrue hdue =>
    obtain ⟨hframe, hon, hset, hlapsed⟩ := hdue
    rcases h with h | h | h | h | h
    · exact absurd hframe h
    · simp [Chip.flag, h] at hon
    · exact absurd h hset
    · exact absurd hlapsed (Nat.not_le.mpr h)
    · rw [h]
      rfl

/-- A slot whose Heartbeat has lapsed sends its value at the boundary. -/
theorem leaves_canHeartbeat {v : Int} (hframe : s.chip.time.stc % s.chip.bsize = 0)
    (hon : s.chip.num (Obj.canSlotEnable slot.val) ≠ 0) (hset : s.chip.num (Obj.stippleCanHeartbeat slot.val) ≠ 0)
    (hlapsed : (s.chip.slot slot.val).lastAt + s.chip.num (Obj.stippleCanHeartbeat slot.val) * 1000000 ≤ s.chip.now)
    (hv : s.chip.slotValue slot.val = some v) : Leaves (.canHeartbeat slot) s (queueSlot slot.val v s.chip) := by
  refine leaves_onChip (exec_canHeartbeat slot s) ((if_pos ⟨hframe, ?on, hset, hlapsed⟩).trans ?sent)
  case on => simpa [Chip.flag] using hon
  case sent =>
    rw [hv]
    rfl

end

/-! ### Frames sent (R437, R438) -/

@[simp] theorem ctl_putFrame_none (k i : Nat) (c : Chip) :
    (putFrame k i none c).ctl k = { c.ctl k with queue := (c.ctl k).queue.eraseIdx i } := ctl_modCtl_same k _ c

/-- A controller once a frame of its queue has been sent: the frame is counted, the transmit count goes down, and an abort came too
late. -/
def frameLeft (k i : Nat) (f : CanFrame) (c : Chip) : Chip :=
  when_ f.late (bump (Obj.canCountersAbortTooLate k))
    (setCounts k ((c.ctl k).tec - 1) (c.ctl k).rec_ (bump (Obj.canCountersTxFrames k) (putFrame k i none c)))

/-- A slot whose frame was sent by controller `k`. -/
def slotSent (k u : Nat) (f : CanFrame) (c : Chip) : Chip :=
  modSlot u (fun y => { y with
    count := if k = u / 64 ∨ !canSends c (u / 64) then (y.count + 1) % 256 else y.count
    last := some (sfield f.data 0 2), lastAt := c.now }) c

section
variable (k i : Nat) (f : CanFrame) (c : Chip)

theorem ctl_frameLeft : (frameLeft k i f c).ctl k =
    { c.ctl k with queue := (c.ctl k).queue.eraseIdx i, tec := (c.ctl k).tec - 1 } := by
  unfold frameLeft when_
  split_ifs <;> simp only [ctl_bump, ctl_setCounts, ctl_putFrame_none]

theorem slot_frameLeft (u : Nat) : (frameLeft k i f c).slot u = c.slot u := by
  unfold frameLeft when_
  split_ifs <;> exact slot_setCounts _ _ _ u

theorem time_frameLeft : (frameLeft k i f c).time = c.time := by
  unfold frameLeft when_
  split_ifs <;> exact time_setCounts _ _ _

/-- A frame without an abort is counted once. -/
theorem txFrames_frameLeft (h : f.late = false) : (frameLeft k i f c).num (Obj.canCountersTxFrames k) =
    satAdd (8 * objWidth (Obj.canCountersTxFrames k)) (c.num (Obj.canCountersTxFrames k)) 1 := by
  unfold frameLeft when_
  rw [h, if_neg Bool.false_ne_true, num_setCounts_other, num_bump_satAdd]
  · rfl
  all_goals simp only [Obj.canCountersTxFrames, Obj.canTec, Obj.canRec, Obj.canState]; omega

end

section
variable {k : Fin 2} {s : State}

/-- Neither a controller that carries no frames nor one with none queued sends one or meets a collision. -/
theorem leaves_canFrameSent_none (h : canSends s.chip k.val = false ∨ s.chip.headFrame k.val = none) :
    Leaves (.canFrameSent k) s s.chip := by
  show execCanFrameSent k s = _
  unfold execCanFrameSent State.onChip
  rcases h with h | h <;> simp [h]

theorem leaves_collision_none (h : canSends s.chip k.val = false ∨ s.chip.headFrame k.val = none) :
    Leaves (.collision k) s s.chip := by
  show execCollision k s = _
  unfold execCollision State.onChip
  rcases h with h | h <;> simp [h]

/-- CAN_FRAME_SENT for the frame of no slot. -/
theorem leaves_canFrameSent_message {i : Nat} {f : CanFrame} (hs : canSends s.chip k.val = true)
    (hh : s.chip.headFrame k.val = some (i, f)) (hf : f.slot = none) :
    Leaves (.canFrameSent k) s (frameLeft k.val i f s.chip) := by
  show execCanFrameSent k s = _
  unfold execCanFrameSent State.onChip
  simp only [hs, hh, hf, slotStatus, followSlot, Bool.not_true, Bool.false_eq_true, if_false, ctl_bump, ctl_putFrame_none]
  rfl

/-- CAN_FRAME_SENT for the frame of a slot with no value waiting behind it. -/
theorem leaves_canFrameSent_slot {i u : Nat} {f : CanFrame} (hs : canSends s.chip k.val = true)
    (hh : s.chip.headFrame k.val = some (i, f)) (hf : f.slot = some u) (hn : (s.chip.slot u).next = none) :
    Leaves (.canFrameSent k) s (slotSent k.val u f
      (setNum (Obj.canSlotLastStatus u) (if f.late then 3 else 1) (frameLeft k.val i f s.chip))) := by
  have hfollow : followSlot k.val f (slotSent k.val u f (setNum (Obj.canSlotLastStatus u) (if f.late then 3 else 1)
      (frameLeft k.val i f s.chip))) = _ := followSlot_none fun w hw => by
    obtain rfl : u = w := Option.some.inj (hf.symm.trans hw)
    rw [slotSent, slot_modSlot_same, slot_setNum, slot_frameLeft, hn]
  refine Eq.trans ?_ (congrArg (fun c => Host.Outcome.next { s with chip := c }) hfollow)
  show execCanFrameSent k s = _
  unfold execCanFrameSent State.onChip
  simp only [hs, hh, hf, slotStatus, Bool.not_true, Bool.false_eq_true, if_false, ctl_bump, ctl_putFrame_none]
  rfl

end

/-! ### Bus errors (R438) -/

theorem now_congr {c d : Chip} (h : d.time = c.time) : d.now = c.now := by
  unfold Chip.now Chip.nsOf
  rw [h]

section
variable {k : Fin 2} {s : State}

/-- CAN_BUS_ERROR acts on the chip. -/
theorem exec_canBusError (k : Fin 2) (tx dominant : Bool) (s : State) : exec (.canBusError k tx dominant) s = s.onChip (fun c =>
    if !canSends c k.val then c else if tx then transmitError k.val c
    else setCounts k.val (c.ctl k.val).tec ((c.ctl k.val).rec_ + if dominant then 8 else 1) c) := rfl

theorem leaves_canBusError_none (tx dominant : Bool) (h : canSends s.chip k.val = false) :
    Leaves (.canBusError k tx dominant) s s.chip :=
  leaves_onChip (exec_canBusError k tx dominant s) (if_pos (by rw [h]; rfl))

theorem leaves_canBusError_receive (dominant : Bool) (h : canSends s.chip k.val = true) : Leaves (.canBusError k false dominant) s
    (setCounts k.val (s.chip.ctl k.val).tec ((s.chip.ctl k.val).rec_ + if dominant then 8 else 1) s.chip) :=
  leaves_onChip (exec_canBusError k false dominant s) ((if_neg (by simp [h])).trans (if_neg Bool.false_ne_true))

theorem leaves_canBusError_transmit (dominant : Bool) (h : canSends s.chip k.val = true) :
    Leaves (.canBusError k true dominant) s (transmitError k.val s.chip) :=
  leaves_onChip (exec_canBusError k true dominant s) ((if_neg (by simp [h])).trans (if_pos rfl))

/-- A transmit count beyond 255 is bus-off. -/
theorem completes_canBusError_busOff (dominant : Bool) (h : canSends s.chip k.val = true) (ht : 255 < (s.chip.ctl k.val).tec + 8)
    (hb : (s.chip.ctl k.val).busOffs = []) : Completes (.canBusError k true dominant) s (fun t =>
      t.chip.num (Obj.canState k.val) = 3 ∧ (t.chip.ctl k.val).queue = [] ∧ (t.chip.ctl k.val).busOffs = [s.chip.now]) := by
  let d := setCounts k.val ((s.chip.ctl k.val).tec + 8) (s.chip.ctl k.val).rec_ (frameError k.val s.chip)
  have hkeeps := KeepsCtl.frameError (k := k.val) s.chip
  have hnone : (d.ctl k.val).busOffs = [] := by
    rw [ctl_setCounts, hkeeps.ctl]
    exact hb
  have hnow : d.now = s.chip.now := now_congr ((time_setCounts _ _ _).trans hkeeps.time)
  have hoff : transmitError k.val s.chip = busOff k.val d := if_pos ht
  rw [busOff_first hnone] at hoff
  refine ⟨_, leaves_canBusError_transmit dominant h, ?_⟩
  rw [hoff]
  refine ⟨num_setNum_fits _ (width_canState k.isLt) (by decide), ?_, ?_⟩
  · simp only [ctl_setNum, ctl_emit, ctl_modCtl_same, ctl_bump, ctl_discardQueue]
  · simp only [ctl_setNum, ctl_emit, ctl_modCtl_same, hnow]

/-- BUS_OFF_RECOVERY acts on the chip. -/
theorem exec_busOffRecovery (k : Fin 2) (s : State) : exec (.busOffRecovery k) s = s.onChip (fun c =>
    if c.num (Obj.canState k.val) = 3 then setCounts k.val 0 0 (setNum (Obj.canState k.val) 1 c) else c) := rfl

/-- A controller in BUS_OFF goes on ACTIVE, with counts of 0 and its queue. -/
theorem completes_busOffRecovery (h : s.chip.num (Obj.canState k.val) = 3) : Completes (.busOffRecovery k) s (fun t =>
    t.chip.num (Obj.canState k.val) = 1 ∧ (t.chip.ctl k.val).tec = 0 ∧ (t.chip.ctl k.val).rec_ = 0 ∧
      (t.chip.ctl k.val).queue = (s.chip.ctl k.val).queue) := by
  have hrun := leaves_onChip (exec_busOffRecovery k s) (if_pos h)
  have hstate : (setNum (Obj.canState k.val) 1 s.chip).num (Obj.canState k.val) = 1 :=
    num_setNum_fits _ (width_canState k.isLt) (by decide)
  refine ⟨_, hrun, ?_, ?_, ?_, ?_⟩
  · exact state_setCounts_low k.isLt (canSends_iff.mpr (.inl hstate)) (by decide) (by decide)
  all_goals rw [ctl_setCounts]
  rw [ctl_setNum]

end

/-! ### Collisions (R439) -/

section
variable {k : Fin 2} {s : State} {i : Nat} {f : CanFrame}

/-- A collision of the frame in transmission is noted before it counts as a transmit error. -/
def noteCollision (k : Nat) (f : CanFrame) (c : Chip) : Chip :=
  modCtl k (fun x => { x with collisions := (f.shownId, c.now) :: x.collisions.filter (fun y => decide (c.now < y.2 + 1000000000)) })
    (bump (Obj.canCountersCollisions k) c)

/-- What a collision leaves before it is judged a conflict: with low counts the controller stays ACTIVE. -/
def collided (k i : Nat) (f : CanFrame) (c : Chip) : Chip :=
  setCounts k ((c.ctl k).tec + 8) (c.ctl k).rec_ (putFrame k i (some { f with phase := .waiting }) (noteCollision k f c))

@[simp] theorem ctl_noteCollision (k : Nat) (f : CanFrame) (c : Chip) : (noteCollision k f c).ctl k = { c.ctl k with
    collisions := (f.shownId, c.now) :: (c.ctl k).collisions.filter (fun y => decide (c.now < y.2 + 1000000000)) } :=
  ctl_modCtl_same k _ _

/-- Of collisions on the same identifier within the last second the third is a conflict. -/
theorem leaves_collision (hs : canSends s.chip k.val = true) (hh : s.chip.headFrame k.val = some (i, f)) (hl : f.late = false)
    (ht : (s.chip.ctl k.val).tec + 8 ≤ 127) : Leaves (.collision k) s
      (let d := collided k.val i f s.chip
       if 2 ≤ (((s.chip.ctl k.val).collisions.filter (fun y => decide (s.chip.now < y.2 + 1000000000))).filter
            (fun y => y.1 == f.shownId)).length ∧ canSends d k.val = true then
         snagWith 0x0601 k.val 0xFF 0xFFFF f.shownId (emit (.source (211 + k.val)) (setNum (Obj.canConflictId k.val) f.shownId
           (setNum (Obj.canState k.val) 4 (discardQueue k.val d))))
       else d) := by
  have hhead : (noteCollision k.val f s.chip).headFrame k.val = some (i, f) := by
    rw [headFrame_congr, hh]
    rw [ctl_noteCollision]
  have herror : transmitError k.val (noteCollision k.val f s.chip) = collided k.val i f s.chip := by
    rw [transmitError_resends hhead hl (by rw [ctl_noteCollision]; dsimp only; omega), ctl_noteCollision]
    rfl
  show execCollision k s = _
  unfold execCollision State.onChip
  simp only [hs, hh, Bool.not_true, Bool.false_eq_true, if_false]
  rw [← herror]
  rfl

theorem state_collided {c : Chip} (hs : canSends c k.val = true) (ht : (c.ctl k.val).tec + 8 ≤ 127) (hr : (c.ctl k.val).rec_ ≤ 127) :
    (collided k.val i f c).num (Obj.canState k.val) = 1 := by
  refine state_setCounts_low k.isLt ?_ ht hr
  have hnum : (putFrame k.val i (some { f with phase := .waiting }) (noteCollision k.val f c)).num (Obj.canState k.val) =
      c.num (Obj.canState k.val) :=
    num_bump_other _ (by simp only [Obj.canState, Obj.canCountersCollisions]; omega)
  rw [canSends_iff] at hs ⊢
  rwa [hnum]

/-- The first collision on an identifier. -/
theorem completes_collision_first (hs : canSends s.chip k.val = true) (hh : s.chip.headFrame k.val = some (i, f)) (hl : f.late = false)
    (ht : (s.chip.ctl k.val).tec + 8 ≤ 127) (hr : (s.chip.ctl k.val).rec_ ≤ 127) (hc : (s.chip.ctl k.val).collisions = []) :
    Completes (.collision k) s (fun t => (t.chip.ctl k.val).collisions = [(f.shownId, s.chip.now)] ∧
      t.chip.num (Obj.canState k.val) ≠ 4 ∧ (t.chip.ctl k.val).tec = (s.chip.ctl k.val).tec + 8) := by
  have hrun := leaves_collision hs hh hl ht
  rw [hc] at hrun
  refine ⟨_, hrun, ?_⟩
  rw [if_neg (by simp)]
  refine ⟨?_, by rw [state_collided hs ht hr]; decide, by rw [collided, ctl_setCounts]⟩
  rw [collided, ctl_setCounts, (KeepsCtl.putFrame _ _ _).ctl, ctl_noteCollision, hc]
  rfl

/-- The third collision on an identifier within the same second. -/
theorem completes_collision_third (hs : canSends s.chip k.val = true) (hh : s.chip.headFrame k.val = some (i, f)) (hl : f.late = false)
    (ht : (s.chip.ctl k.val).tec + 8 ≤ 127) (hr : (s.chip.ctl k.val).rec_ ≤ 127)
    (hc : (s.chip.ctl k.val).collisions = [(f.shownId, s.chip.now), (f.shownId, s.chip.now)]) :
    Completes (.collision k) s (fun t => t.chip.num (Obj.canState k.val) = 4 ∧
      t.chip.num (Obj.canConflictId k.val) = f.shownId % 2 ^ 32 ∧ (t.chip.ctl k.val).queue = []) := by
  have hrun := leaves_collision hs hh hl ht
  rw [hc] at hrun
  have hsends : canSends (collided k.val i f s.chip) k.val = true := canSends_iff.mpr (.inl (state_collided hs ht hr))
  refine ⟨_, hrun, ?_⟩
  rw [if_pos ⟨by simp, hsends⟩]
  refine ⟨?_, ?_, ?_⟩
  · rw [num_snagWith, emit_num, num_setNum_other _ _ (by simp only [Obj.canState, Obj.canConflictId]; omega)]
    exact num_setNum_fits _ (width_canState k.isLt) (by decide)
  · rw [num_snagWith, emit_num, num_setNum_same, width_canConflictId k.isLt, wrap]
  · simp only [ctl_snagWith, ctl_emit, ctl_setNum, ctl_discardQueue]

end

/-! ### The objects (R440 to R442) -/

section
variable {r : Req} {a : Nat} {s : State} {k : Fin 2}

/-- A slot that is disabled aborts its frames on both controllers, and no value of it waits any more. -/
theorem answers_slotDisable {slot : Fin 128} (hw : Writes r a (Obj.canSlotEnable slot.val) [0] s) :
    Answers (.slotEnable r slot false) r a (Obj.canSlotEnable slot.val) [0] s
      (modSlot slot.val (fun x => { x with next := none }) (abortFrames 1 (fun f => f.slot == some slot.val)
        (abortFrames 0 (fun f => f.slot == some slot.val) (setNum (Obj.canSlotEnable slot.val) 0 (judged r.path s).chip)))) St.ok :=
  serveRow_chip hw (by simp only [forEach, List.foldl_cons, List.foldl_nil, Bool.false_eq_true, if_false])

/-- Can.Restart acts in ID_CONFLICT only. -/
theorem answers_canRestart (hw : Writes r a (Obj.canRestart k.val) [1] s) :
    let c := (judged r.path s).chip
    (c.num (Obj.canState k.val) = 4 → Answers (.canRestart r k) r a (Obj.canRestart k.val) [1] s (enterMode k.val c) St.ok) ∧
    (c.num (Obj.canState k.val) ≠ 4 → Answers (.canRestart r k) r a (Obj.canRestart k.val) [1] s c St.ok) := by
  intro c
  exact ⟨fun h => serveRow_chip hw (congrArg (·, St.ok) (if_pos (beq_iff_eq.mpr h))),
    fun h => serveRow_chip hw (congrArg (·, St.ok) (if_neg fun e => h (beq_iff_eq.mp e)))⟩

/-- Can.Retired 0 acts in RETIRED only. -/
theorem answers_canReinstate (hw : Writes r a (Obj.canRetired k.val) [0] s) :
    let c := (judged r.path s).chip
    (c.num (Obj.canState k.val) = 5 → Answers (.canReinstate r k) r a (Obj.canRetired k.val) [0] s
      (enterMode k.val (modCtl k.val (fun x => { x with busOffs := [] }) (setNum (Obj.canRetired k.val) 0 c))) St.ok) ∧
    (c.num (Obj.canState k.val) ≠ 5 → Answers (.canReinstate r k) r a (Obj.canRetired k.val) [0] s c St.ok) :=
  ⟨fun h => serveRow_chip hw (if_pos h), fun h => serveRow_chip hw (if_neg h)⟩

/-- Outside REDUNDANT a new Mode acts on its own controller, by the state that stands. -/
theorem answers_canMode {mode : Fin 3} {c : Chip} (hw : Writes r a (Obj.canMode k.val) [BitVec.ofNat 8 mode.val] s)
    (hr : (judged r.path s).chip.num Obj.canRedundancy ≠ 1) :
    let d := setNum (Obj.canMode k.val) mode.val (judged r.path s).chip
    let st := (judged r.path s).chip.num (Obj.canState k.val)
    (if st = 5 then d else if mode.val = 0 then setNum (Obj.canState k.val) 0 (discardQueue k.val d)
      else if st = 0 ∨ st = 4 ∨ (st ≠ 3 ∧ mode.val ≠ (judged r.path s).chip.num (Obj.canMode k.val)) then enterMode k.val d
      else d) = c →
    Answers (.canMode r k mode) r a (Obj.canMode k.val) [BitVec.ofNat 8 mode.val] s c St.ok := by
  intro d st hc
  have hone : ctlsOf d k.val = [k.val] := by
    refine if_neg ?_
    rwa [num_setNum_other _ _ (by simp only [Obj.canRedundancy, Obj.canMode]; omega)]
  have hst : d.num (Obj.canState k.val) = st := num_setNum_other _ _ (by simp only [Obj.canState, Obj.canMode]; omega)
  refine serveRow_chip hw (congrArg (·, St.ok) ?_)
  show forEach (ctlsOf d k.val) _ d = c
  rw [hone, forEach, List.foldl_cons, List.foldl_nil, ← hc, ← hst]

end

/-- Settles O42: a frame, an error or a collision by the frame that is sent first and by the counts, of which an operation on the queue
changes none, and each write by its object's rule.  How the counts move (log entry 15), that a mode is entered through OFF with
counts of 0 (entry 80) and that RETIRED is kept over Mode OFF (entry 81) are the model's choices. -/
theorem canControllers : Obligations.CanControllers := by
  refine ⟨fun slot s => ⟨leaves_canHeartbeat_none, fun v hframe hon hset hlapsed hv => leaves_canHeartbeat hframe hon hset hlapsed hv⟩,
    fun k s => ?_, fun r a k slot mode s => ?_⟩
  · intro c x
    refine ⟨fun h => ⟨leaves_canFrameSent_none h, leaves_collision_none h⟩, fun i f hs hh hf hl => ?message,
      fun i f u hs hh hf hn hu => ?slot, fun tx dominant h => leaves_canBusError_none tx dominant h,
      fun dominant h => leaves_canBusError_receive dominant h, fun i f dominant hs hh hl ht => ?resent,
      fun dominant hs ht hb => completes_canBusError_busOff dominant hs ht hb, completes_busOffRecovery,
      fun h => leaves_onChip (exec_busOffRecovery k s) (if_neg h),
      fun i f hs hh hl ht hr hc => completes_collision_first hs hh hl ht hr hc,
      fun i f hs hh hl ht hr hc => completes_collision_third hs hh hl ht hr hc⟩
    case message =>
      have hctl := ctl_frameLeft k.val i f c
      exact ⟨_, leaves_canFrameSent_message hs hh hf, congrArg CanCtl.queue hctl, congrArg CanCtl.tec hctl,
        (congrArg CanCtl.rec_ hctl :), txFrames_frameLeft k.val i f c hl⟩
    case slot =>
      refine ⟨_, leaves_canFrameSent_slot hs hh hf hn, ?_, ?_, ?_, ?_⟩
      · exact congrArg CanCtl.queue (ctl_frameLeft k.val i f c)
      · exact num_setNum_fits _ (width_canSlotLastStatus hu) (by split <;> decide)
      · rw [slotSent, slot_modSlot_same]
        exact now_congr (time_frameLeft k.val i f c)
      · rw [slotSent, slot_modSlot_same]
    case resent =>
      have hrun := leaves_canBusError_transmit dominant hs
      rwa [transmitError_resends hh hl ht] at hrun
  · intro c u
    refine ⟨fun hw => serveRow_chip hw rfl, fun hw => serveRow_chip hw rfl, answers_slotDisable, answers_canRestart,
      fun hw hr => ⟨fun h => ?_, fun h hm => ?_, fun h hm => ?_⟩, answers_canReinstate, enterMode_units k.isLt⟩
    · exact answers_canMode hw hr (if_pos h)
    · exact answers_canMode hw hr ((if_neg h).trans (if_pos (congrArg Fin.val hm)))
    · have hmode : mode.val ≠ 0 := fun e => hm (Fin.ext e)
      refine answers_canMode hw hr ((if_neg ?_).trans ((if_neg hmode).trans (if_pos ?_)))
      · rcases h with h | h <;> exact fun e => absurd (h.symm.trans e) (by decide)
      · exact h.imp_right .inl

end Sys2Proof.Machine
end

section
/-!
SUPPORT. O11, O15 and O20: what a data store leaves, when a pending write is seen, and what illegal words, bad words and refused
accesses raise.
-/

namespace Sys2Proof.Machine

/-! ### Data stores (R149, R171, R182) -/

@[simp] theorem length_leBytes (n x : Nat) : (leBytes n x).length = n := by
  induction n generalizing x with
  | zero => rfl
  | succ n ih => rw [leBytes, List.length_cons, ih]

/-- A store that is allowed and names a memory writes the value's octets there. -/
theorem storeData_mem {k addr n p : Nat} {c : Chip} (x : Nat) (hok : c.accessOk k addr n true = true)
    (hp : placeOf (k / 4) addr = .mem p) : storeData k addr n x c = writeBytes p (leBytes n x) c := by
  rw [storeData, if_pos hok, hp]

/-- A store that is not allowed is discarded (R166). -/
theorem storeData_refused {k addr n : Nat} {c : Chip} (x : Nat) (hno : c.accessOk k addr n true = false) :
    storeData k addr n x c = c := by
  rw [storeData, if_neg (Bool.eq_false_iff.mp hno)]

/-- All that a store can do: nothing, or a write of the value's octets at one place. -/
theorem storeData_cases (k addr n x : Nat) (c : Chip) :
    storeData k addr n x c = c ∨ ∃ p, storeData k addr n x c = writeBytes p (leBytes n x) c := by
  unfold storeData
  split
  · split
    · exact .inr ⟨_, rfl⟩
    · exact .inl rfl
  · exact .inl rfl

/-- A store changes memory and the marks of bad words alone. -/
theorem storeData_frame (k addr n x : Nat) (c : Chip) :
    storeData k addr n x c =
      { c with mem := (storeData k addr n x c).mem, errs := { c.errs with bad := (storeData k addr n x c).errs.bad } } := by
  obtain h | ⟨p, h⟩ := storeData_cases k addr n x c
  · rw [h]
  · rw [h, writeBytes]

/-- A store marks no word bad. -/
theorem bad_of_bad_storeData {k addr n x w : Nat} {c : Chip} (hw : w ∈ (storeData k addr n x c).errs.bad) : w ∈ c.errs.bad := by
  obtain h | ⟨p, h⟩ := storeData_cases k addr n x c
  · rwa [h] at hw
  · rw [h] at hw
    exact List.mem_of_mem_filter hw

/-- Settles O11: a store writes the value's octets at one place or does nothing, and a write of octets has its own frame. -/
theorem storeFrame : Obligations.StoreFrame := by
  intro k addr n x c c'
  refine ⟨fun p hok hp => ?reads, fun j hj => byte_storeData_other hj, storeData_refused x, mem_wf_storeData,
    storeData_frame k addr n x c, fun w => bad_of_bad_storeData⟩
  case reads =>
    have hread := bytesAt_writeBytes p (leBytes n x) c
    rwa [length_leBytes, ← storeData_mem x hok hp] at hread

/-! ### Pending writes (R159 to R161) -/

/-- The only pending write of a thread is seen in every cycle after its own, and in no other. -/
theorem view_landWrites_one {th : Thread} (g : Nat) (w : RegWrite) (cyc : Nat) (h : th.writes = []) :
    (landWrites th [(g, w)]).view cyc = if th.slot + g < cyc then th.regs.apply w else th.regs := by
  simp only [landWrites, List.foldl_cons, List.foldl_nil, Thread.view, h, insertPending]

/-- A write that lands in the cycle of the one pending write is applied after it: its slot is the later one (R161). -/
theorem view_landWrites_sameCycle {th : Thread} {g n cyc : Nat} {v : RegWrite} (w : RegWrite)
    (h : th.writes = [⟨th.slot + g, n, v⟩]) (hcyc : th.slot + g < cyc) :
    (landWrites th [(g, w)]).view cyc = (th.regs.apply v).apply w := by
  have hlast : (landWrites th [(g, w)]).writes = [⟨th.slot + g, n, v⟩, ⟨th.slot + g, th.slot, w⟩] := by
    simp only [landWrites, List.foldl_cons, List.foldl_nil, h, insertPending, Nat.lt_irrefl, if_false]
  rw [Thread.view, hlast]
  simp only [List.foldl_cons, List.foldl_nil, hcyc, if_true]
  rfl

/-- Writes that all land before cycle `cyc` are all seen in it. -/
theorem foldl_view_landed {ws : List Pending} {cyc : Nat} (h : ∀ w ∈ ws, w.cycle < cyc) (r : Regs) :
    ws.foldl (fun r w => if w.cycle < cyc then r.apply w.write else r) r = ws.foldl (fun r w => r.apply w.write) r :=
  List.foldl_ext _ _ r fun _ w hw => if_pos (h w hw)

/-- Settling splits the pending writes: a first part, all of it seen by the next slot's decode, lands, and the rest stays. -/
theorem settle_splits (th : Thread) : ∃ done, done ++ th.settle.writes = th.writes ∧
    th.settle.regs = done.foldl (fun r w => r.apply w.write) th.regs ∧ ∀ w ∈ done, w.cycle < th.slot + 3 := by
  refine ⟨_, List.prefix_iff_eq_append.mp (List.takeWhile_prefix _), rfl, fun w hw => ?_⟩
  have hseen := List.mem_takeWhile_imp hw
  exact of_decide_eq_true hseen

/-- What the next slot's decode has landed, every reader of that cycle or a later one sees as before. -/
theorem view_settle {th : Thread} {cyc : Nat} (h : th.slot + 3 ≤ cyc) : th.settle.view cyc = th.view cyc := by
  obtain ⟨done, hwrites, hregs, hdone⟩ := settle_splits th
  rw [Thread.view, Thread.view, ← hwrites, List.foldl_append, hregs,
    foldl_view_landed fun w hw => Nat.lt_of_lt_of_le (hdone w hw) h]

/-- Settles O15: pending writes are applied in the order of their cycles and, in one cycle, of their slots. -/
theorem pipelineVisibility : Obligations.PipelineVisibility := by
  refine ⟨fun th g w cyc h => view_landWrites_one g w cyc h, fun th r g n cyc a b _ h hcyc => ?x,
    fun th r g n cyc a b _ h hcyc => ?a, fun th cyc h => view_settle h⟩
  case x | a =>
    rw [view_landWrites_sameCycle _ h hcyc]
    exact tget_tset_same ..

/-! ### Words that fault (R166, R173, R300) -/

section

variable {t : Thr} {s : State} {legal : Views → Bool} {f : Views → Chip → Effect} {i : Instr}

/-- An illegal word that is fetched leaves a core fault ILLEGAL alone. -/
theorem leaves_illegal (hb : s.chip.badFetch (thrKey t) = false) (hl : ∀ v, legal v = false) (hi : exec i s = s.issue t legal f) :
    Leaves i s (coreFault codeIllegal (thrKey t) s.chip) :=
  leaves_onChip hi (issue_illegal hb (hl _))

/-- A word of an uncorrectable location of program memory passes as a NOP with a MEMORY fault, whatever it is (R300). -/
theorem leaves_badFetch (hb : s.chip.badFetch (thrKey t) = true) (hi : exec i s = s.issue t legal f) :
    Leaves i s (coreFault codeMemory (thrKey t) (modThread (thrKey t) (fun th => (th.flow .seq).settle) s.chip)) :=
  leaves_onChip hi (if_pos hb)

/-- A legal word whose access faults leaves its effect `ws`, `fl` and `c`, and the fault (R166). -/
theorem leaves_fault {code : Nat} {ws : List (Nat × RegWrite)} {fl : Flow} {c : Chip} (hi : exec i s = s.issue t legal f)
    (hb : s.chip.badFetch (thrKey t) = false) (hl : legal (s.chip.views (thrKey t)) = true)
    (hf : (f (s.chip.views (thrKey t)) s.chip).fault = some code) (hw : (f (s.chip.views (thrKey t)) s.chip).writes = ws)
    (hg : (f (s.chip.views (thrKey t)) s.chip).flow = fl) (hc : (f (s.chip.views (thrKey t)) s.chip).chip = c) :
    Leaves i s (coreFault code (thrKey t) (modThread (thrKey t) (fun th => afterSlot th ws fl) c)) := by
  subst hw hg hc
  refine leaves_onChip hi ?_
  simp only [Machine.issue, hb, hl, hf, Bool.not_true, Bool.false_eq_true, if_false]
  rfl

end

/-! ### What a format's legality asks of every word of it (R172, R173) -/

section

variable (v : Views)

theorem macLegal_of_reserved {f : MacFields} (h : f.reserved ≠ 0) : macLegal f v = false := by
  rw [macLegal, beq_false_of_ne h]
  rfl

theorem accLegal_of_reserved {f : AccFields} (h : f.reserved ≠ 0) : accLegal f v = false := by
  rw [accLegal, beq_false_of_ne h]
  rfl

theorem accPairLegal_of_reserved {f : AccFields} (h : f.reserved ≠ 0) : accPairLegal f v = false := by
  rw [accPairLegal, accLegal_of_reserved v h, Bool.false_and]

theorem accShLegal_of_reserved {f : AccFields} (lo hi : Int) (h : f.reserved ≠ 0) : accShLegal lo hi f v = false := by
  rw [accShLegal, beq_false_of_ne h]
  rfl

theorem alu1Legal_of_reserved {f : AluFields} (h : f.reserved ≠ 0) : alu1Legal f v = false := by
  rw [alu1Legal, beq_false_of_ne h]
  rfl

theorem alu2Legal_of_reserved {f : AluFields} (h : f.reserved ≠ 0) : alu2Legal f v = false := by
  rw [alu2Legal, beq_false_of_ne h]
  rfl

theorem aluShLegal_of_reserved {f : AluFields} (h : f.reserved ≠ 0) : aluShLegal f v = false := by
  rw [aluShLegal, beq_false_of_ne h]
  rfl

theorem memLegal_pair_of_odd {f : MemFields} (h : f.reg.toNat % 2 = 1) : memLegal pairReg f v = false := by
  simp [memLegal, pairReg, h]

theorem memLegal_quad_of_odd {f : MemFields} (h : f.reg.toNat % 2 = 1) : memLegal quadReg f v = false := by
  have hquad : f.reg.toNat % 4 ≠ 0 := by omega
  simp [memLegal, quadReg, hquad]

end

section

variable {t : Thr} {s : State} (hb : s.chip.badFetch (thrKey t) = false)

include hb

theorem leaves_illegal_mac_of_reserved {f : MacFields} (h : f.reserved ≠ 0) :
    ∀ i ∈ [Instr.mac t f, .msu t f, .mpy t f, .macr t f, .mpysu t f, .macsu t f, .macsh t f, .msush t f],
      Leaves i s (coreFault codeIllegal (thrKey t) s.chip) := by
  have ill {i op} : exec i s = s.issue t (macLegal f) op → _ := leaves_illegal hb fun v => macLegal_of_reserved v h
  simp only [List.forall_mem_cons]
  exact ⟨ill rfl, ill rfl, ill rfl, ill rfl, ill rfl, ill rfl, ill rfl, ill rfl, List.forall_mem_nil _⟩

theorem leaves_illegal_acc_of_reserved {f : AccFields} (h : f.reserved ≠ 0) :
    ∀ i ∈ [Instr.adda t f, .suba t f, .mova t f, .nega t f, .absa t f, .clra t f, .cmpa t f, .maxa t f, .mina t f, .sha t f,
        .shax t f, .lsra t f, .sata t f, .addax t f, .movax t f, .movaxp t f, .rnda t f, .cmova t f, .normA t f, .expA t f,
        .movxa t f, .movxap t f, .movxr t f, .movrx t f],
      Leaves i s (coreFault codeIllegal (thrKey t) s.chip) := by
  have ill {i op} : exec i s = s.issue t (accLegal f) op → _ := leaves_illegal hb fun v => accLegal_of_reserved v h
  have pair {i op} : exec i s = s.issue t (accPairLegal f) op → _ := leaves_illegal hb fun v => accPairLegal_of_reserved v h
  have shift {i op lo hi} : exec i s = s.issue t (accShLegal lo hi f) op → _ :=
    leaves_illegal hb fun v => accShLegal_of_reserved v lo hi h
  have cmova : Leaves (.cmova t f) s (coreFault codeIllegal (thrKey t) s.chip) :=
    leaves_illegal hb (fun _ => by rw [beq_false_of_ne h]; rfl) rfl
  simp only [List.forall_mem_cons]
  exact ⟨ill rfl, ill rfl, ill rfl, ill rfl, ill rfl, ill rfl, ill rfl, ill rfl, ill rfl, shift rfl,
    ill rfl, shift rfl, ill rfl, ill rfl, ill rfl, pair rfl, ill rfl, cmova, ill rfl, ill rfl,
    ill rfl, pair rfl, shift rfl, shift rfl, List.forall_mem_nil _⟩

theorem leaves_illegal_alu_of_reserved {f : AluFields} (h : f.reserved ≠ 0) :
    ∀ i ∈ [Instr.movx t f, .addx t f, .subx t f, .addsx t f, .subsx t f, .andx t f, .orx t f, .xorx t f, .notx t f, .negx t f,
        .absx t f, .shlx t f, .shrx t f, .lsrx t f, .maxx t f, .minx t f, .cmpx t f],
      Leaves i s (coreFault codeIllegal (thrKey t) s.chip) := by
  have one {i op} : exec i s = s.issue t (alu1Legal f) op → _ := leaves_illegal hb fun v => alu1Legal_of_reserved v h
  have two {i op} : exec i s = s.issue t (alu2Legal f) op → _ := leaves_illegal hb fun v => alu2Legal_of_reserved v h
  have shift {i op} : exec i s = s.issue t (aluShLegal f) op → _ := leaves_illegal hb fun v => aluShLegal_of_reserved v h
  have cmpx : Leaves (.cmpx t f) s (coreFault codeIllegal (thrKey t) s.chip) :=
    leaves_illegal hb (fun v => by rw [alu2Legal_of_reserved v h, Bool.false_and]) rfl
  simp only [List.forall_mem_cons]
  exact ⟨one rfl, two rfl, two rfl, two rfl, two rfl, two rfl, two rfl, two rfl, one rfl, one rfl,
    one rfl, shift rfl, shift rfl, shift rfl, two rfl, two rfl, cmpx, List.forall_mem_nil _⟩

/-- A pair or a quad that begins at an odd register (R172). -/
theorem leaves_illegal_mem_of_odd {f : MemFields} (h : f.reg.toNat % 2 = 1) :
    ∀ i ∈ [Instr.ldw t f, .ldd t f, .stw t f, .std t f], Leaves i s (coreFault codeIllegal (thrKey t) s.chip) := by
  have pair {i op} : exec i s = s.issue t (memLegal pairReg f) op → _ := leaves_illegal hb fun v => memLegal_pair_of_odd v h
  have quad {i op} : exec i s = s.issue t (memLegal quadReg f) op → _ := leaves_illegal hb fun v => memLegal_quad_of_odd v h
  simp only [List.forall_mem_cons]
  exact ⟨pair rfl, quad rfl, pair rfl, quad rfl, List.forall_mem_nil _⟩

/-- A halfword store that is not allowed stores nothing, steps its pointer and raises ACCESS (R166). -/
theorem leaves_sth_refused {f : MemFields} (hns : f.ns = false)
    (hno : s.chip.accessOk (thrKey t) ((s.chip.views (thrKey t)).ea f.ptr f.disp) 2 true = false) :
    Leaves (.sth t f) s (coreFault codeAccess (thrKey t) (modThread (thrKey t) (fun th =>
      afterSlot th ((s.chip.views (thrKey t)).step f.ptr.toNat f.u) .seq) s.chip)) := by
  have hlegal : memLegal anyReg f (s.chip.views (thrKey t)) = true := by
    rw [memLegal, hns]
    rfl
  have hfault : accessFault s.chip (thrKey t) ((s.chip.views (thrKey t)).ea f.ptr f.disp) 2 true = some codeAccess := by
    rw [accessFault, hno]
    rfl
  exact leaves_fault rfl hb hlegal hfault rfl rfl (storeData_refused _ hno)

end

/-- Settles O20: each format's legality fails on a nonzero reserved field or an odd pair, a bad fetch raises MEMORY whatever the word
is, and a refused store leaves its pointer's step alone before the fault. -/
theorem coreFaultsOfWords : Obligations.CoreFaultsOfWords := by
  intro t s k
  exact ⟨fun hb => ⟨fun f h => leaves_illegal_mac_of_reserved hb h, fun f h => leaves_illegal_acc_of_reserved hb h,
    fun f h => leaves_illegal_alu_of_reserved hb h, fun f h => leaves_illegal_mem_of_odd hb h,
    fun f hns hno => leaves_sth_refused hb hns hno⟩, fun hb => leaves_badFetch hb rfl⟩

end Sys2Proof.Machine
end

section
/-!
SUPPORT. O1 to O3: the MAC family with its parallel moves, and the accumulator arithmetic.
-/

namespace Sys2Proof.Machine

/-! ### Values outside Q1.31 (R148) -/

/-- A value lies within Q1.31 exactly when bits [39:31] are equal (R148). -/
theorem outside_eq_false_iff (a : BitVec 40) : outside a = false ↔ -(2 ^ 31) ≤ a.toInt ∧ a.toInt < 2 ^ 31 := by
  have hlt := a.isLt
  have h0 : a.extractLsb' 31 9 = 0 ↔ a.toNat / 2 ^ 31 = 0 := by
    rw [← BitVec.toNat_inj, BitVec.extractLsb'_toNat, Nat.shiftRight_eq_div_pow]
    show _ % 2 ^ 9 = 0 ↔ _
    omega
  have h1 : a.extractLsb' 31 9 = 0x1FF ↔ a.toNat / 2 ^ 31 = 511 := by
    rw [← BitVec.toNat_inj, BitVec.extractLsb'_toNat, Nat.shiftRight_eq_div_pow]
    show _ % 2 ^ 9 = 511 ↔ _
    omega
  simp only [outside, vOf, Bool.and_eq_false_iff, bne_eq_false_iff_eq, h0, h1, BitVec.toInt_eq_toNat_cond]
  split <;> omega

/-- Above Q1.31 a value is outside it and positive. -/
theorem outside_of_le {a : BitVec 40} (h : 2 ^ 31 ≤ a.toInt) : outside a = true ∧ a.msb = false := by
  refine ⟨?_, ?_⟩
  · rw [← Bool.not_eq_false, outside_eq_false_iff]
    omega
  · rw [BitVec.msb_eq_toInt, decide_eq_false_iff_not]
    omega

/-- Below Q1.31 a value is outside it and negative. -/
theorem outside_of_lt {a : BitVec 40} (h : a.toInt < -(2 ^ 31)) : outside a = true ∧ a.msb = true := by
  refine ⟨?_, ?_⟩
  · rw [← Bool.not_eq_false, outside_eq_false_iff]
    omega
  · rw [BitVec.msb_eq_toInt, decide_eq_true_iff]
    omega

/-! ### Narrowing (R148) -/

section

variable {w lo : Nat} {sat : Bool} {a : BitVec 40}

/-- A narrowing that is not asked to saturate, or need not, takes bits as they stand. -/
theorem narrow_within (h : sat = false ∨ -(2 ^ 31) ≤ a.toInt ∧ a.toInt < 2 ^ 31) :
    narrow w lo sat a = (a.extractLsb' lo w, false) := by
  rw [narrow, if_neg]
  rw [Bool.and_eq_true, ← outside_eq_false_iff] at *
  rintro ⟨hsat, hout⟩
  simp [hsat, hout] at h

/-- A saturating narrowing of a value above Q1.31 gives the greatest value. -/
theorem narrow_above (hs : sat = true) (h : 2 ^ 31 ≤ a.toInt) :
    narrow w lo sat a = (BitVec.ofNat w (2 ^ (w - 1) - 1), true) := by
  simp [narrow, hs, outside_of_le h]

/-- A saturating narrowing of a value below Q1.31 gives the least value. -/
theorem narrow_below (hs : sat = true) (h : a.toInt < -(2 ^ 31)) :
    narrow w lo sat a = (BitVec.ofNat w (2 ^ (w - 1)), true) := by
  simp [narrow, hs, outside_of_lt h]

end

/-! ### Issue of an instruction by its effect (R159, R173) -/

/-- A legal instruction whose effect has no fault writes what its effect names and goes on as it says. -/
theorem issuesAs_of_effect {i : Instr} {t : Thr} {s : State} {legal : Views → Bool} {f : Views → Chip → Effect}
    {ws : List (Nat × RegWrite)} {fl : Flow} {c : Chip} (hl : legal (s.chip.views (thrKey t)) = true)
    (hi : exec i s = s.issue t legal f)
    (he : f (s.chip.views (thrKey t)) s.chip = { writes := ws, flow := fl, chip := c }) : IssuesAs i t s ws fl c :=
  issue_as hi hl (by rw [he]) (by rw [he]) (by rw [he]) (by rw [he])

/-! ### Format M (R174, R176, R177) -/

section

variable {f : MacFields} (v : Views) (c : Chip)

/-- What makes a Format M word legal (R173). -/
theorem macLegal_of (hr : f.reserved = 0) (hu : f.pm = 0 → f.u = false) (hp : f.pm = 2 → f.xd % 2 = 0)
    (ha : f.pm = 3 → f.xd.toNat < 4) : macLegal f v = true := by
  simp only [macLegal, Bool.and_eq_true, Bool.or_eq_true, bne_iff_ne, beq_iff_eq, Bool.not_eq_true', decide_eq_true_eq]
  exact ⟨⟨⟨hr, Decidable.not_or_of_imp hu⟩, Decidable.not_or_of_imp hp⟩, Decidable.not_or_of_imp ha⟩

/-- A Format M word with no parallel move. -/
theorem parallelMove_none (h : f.pm = 0) : parallelMove f v c = { chip := c } := by
  rw [parallelMove, h]
  rfl

/-- One with the load of an X register. -/
theorem parallelMove_load (h : f.pm = 1) : parallelMove f v c =
    loadEffect v c (v.p v.ag f.pp.toNat).toNat 2 (loadX v f.xd.toNat) (v.step f.pp.toNat f.u) := by
  rw [parallelMove, h]
  rfl

/-- One with the load of an X pair. -/
theorem parallelMove_loadPair (h : f.pm = 2) : parallelMove f v c =
    loadEffect v c (v.p v.ag f.pp.toNat).toNat 4 (loadPair v f.xd.toNat) (v.step f.pp.toNat f.u) := by
  rw [parallelMove, h]
  rfl

/-- One with the store of an accumulator whose narrowing gives `n`. -/
theorem parallelMove_store (h : f.pm = 3) {n : BitVec 16 × Bool} (hn : narrow16 v.ma.sat (v.a v.ma f.xd.toNat) = n) :
    parallelMove f v c = storeEffect v c (v.p v.ag f.pp.toNat).toNat 2 n.1.toNat (svWrite n.2 ++ v.step f.pp.toNat f.u) := by
  rw [parallelMove, h, hn]
  rfl

/-- A parallel move never redirects the program. -/
theorem parallelMove_flow : (parallelMove f v c).flow = .seq := by
  unfold parallelMove
  dsimp only
  split <;> rfl

end

/-- A legal Format M word lands its parallel move's writes, then AD and the flags. -/
theorem issuesAs_mac {i : Instr} {t : Thr} {f : MacFields} {s : State} {uns : Bool}
    {op : BitVec 40 → BitVec 40 → BitVec 40 × RegWrite} {ws : List (Nat × RegWrite)}
    (hl : macLegal f (s.chip.views (thrKey t)) = true) (hf : (parallelMove f (s.chip.views (thrKey t)) s.chip).fault = none)
    (hi : exec i s = s.issue t (macLegal f) (macEffect f uns op))
    (hw : (macEffect f uns op (s.chip.views (thrKey t)) s.chip).writes = ws) :
    IssuesAs i t s ws .seq (parallelMove f (s.chip.views (thrKey t)) s.chip).chip :=
  issue_as hi hl hf hw (parallelMove_flow _ _) rfl

/-- Settles O1: each operation is `macEffect` of its own arithmetic, beside the parallel move. -/
theorem macFamilyResults : Obligations.MacFamilyResults := by
  intro t f s hr hu hp ha v e scale xa p pu d d16 sum difference plain hf
  have hl := macLegal_of v hr hu hp ha
  exact ⟨issuesAs_mac hl hf rfl rfl, issuesAs_mac hl hf rfl rfl, issuesAs_mac hl hf rfl rfl, issuesAs_mac hl hf rfl rfl,
    issuesAs_mac hl hf rfl rfl, issuesAs_mac hl hf rfl rfl, issuesAs_mac hl hf rfl rfl, issuesAs_mac hl hf rfl rfl⟩

/-- Settles O2: each value of PM has its own effect, and the stored halfword is the accumulator's narrowing. -/
theorem parallelMoves : Obligations.ParallelMoves := by
  intro f v c p step word a
  refine ⟨parallelMove_none v c, fun h => ?_, fun h => ?_, fun h hin => ?_, fun h hsat habove => ?_, fun h hsat hbelow => ?_⟩
  · rw [parallelMove_load v c h]
    exact ⟨rfl, rfl⟩
  · rw [parallelMove_loadPair v c h]
    exact ⟨rfl, rfl⟩
  · rw [parallelMove_store v c h (narrow_within hin)]
    exact ⟨rfl, rfl⟩
  · rw [parallelMove_store v c h (narrow_above hsat habove)]
    exact ⟨rfl, rfl⟩
  · rw [parallelMove_store v c h (narrow_below hsat hbelow)]
    exact ⟨rfl, rfl⟩

/-! ### Accumulator arithmetic (R178) -/

/-- A Format A word that uses neither COND nor SH is legal with both 0. -/
theorem accLegal_of {f : AccFields} (v : Views) (hr : f.reserved = 0) (hc : f.cond = 0) (hs : f.sh = 0) :
    accLegal f v = true := by
  rw [accLegal, hr, hc, hs]
  rfl

section

variable {f : AccFields} {i : Instr} {t : Thr} {s : State} {legal : Views → Bool}
  {op : BitVec 40 → BitVec 40 → BitVec 40 × RegWrite} {mv : BitVec 40 → BitVec 40 → BitVec 40}

/-- An operation on AD and AS that gives `r` writes its value and its flags. -/
theorem issuesAs_acc {r : BitVec 40 × RegWrite} {ws : List (Nat × RegWrite)} (hl : legal (s.chip.views (thrKey t)) = true)
    (hi : exec i s = s.issue t legal (accEffect f op))
    (hr : op ((s.chip.views (thrKey t)).a (s.chip.views (thrKey t)).ac f.ad.toNat)
      ((s.chip.views (thrKey t)).a (s.chip.views (thrKey t)).ac f.as_.toNat) = r)
    (hw : [(sAC, RegWrite.a f.ad.toNat r.1), (sAC, r.2)] = ws) : IssuesAs i t s ws .seq s.chip :=
  issuesAs_of_effect hl hi (by rw [accEffect, hr, hw])

/-- A move into AD of `r` writes it with the Move class. -/
theorem issuesAs_accMove {r : BitVec 40} (hl : legal (s.chip.views (thrKey t)) = true)
    (hi : exec i s = s.issue t legal (accMove f mv))
    (hr : mv ((s.chip.views (thrKey t)).a (s.chip.views (thrKey t)).ac f.ad.toNat)
      ((s.chip.views (thrKey t)).a (s.chip.views (thrKey t)).ac f.as_.toNat) = r) :
    IssuesAs i t s [(sAC, .a f.ad.toNat r), (sAC, flagsAdd r false false)] .seq s.chip :=
  issuesAs_acc hl hi (congrArg (fun x => (x, flagsMove x)) hr) rfl

end

/-- The greater of two values is the second when the first is not above it. -/
theorem ite_lt_greater {w : Nat} {a b : BitVec w} (h : a.toInt ≤ b.toInt) : (if a.toInt < b.toInt then b else a) = b := by
  split
  · rfl
  · exact BitVec.eq_of_toInt_eq (by omega)

/-- The smaller of two values is the first when it is not above the second. -/
theorem ite_lt_smaller {w : Nat} {a b : BitVec w} (h : a.toInt ≤ b.toInt) : (if a.toInt < b.toInt then a else b) = a := by
  split
  · rfl
  · exact BitVec.eq_of_toInt_eq (by omega)

/-- Settles O3: each operation is an effect on AD and AS; signs and order decide ABSA, MAXA and MINA. -/
theorem accumulatorArithmetic : Obligations.AccumulatorArithmetic := by
  intro t f s hr hc hs v d a sum difference move
  have hl := accLegal_of v hr hc hs
  refine ⟨issuesAs_acc hl rfl rfl rfl, issuesAs_acc hl rfl rfl rfl, issuesAs_accMove hl rfl rfl, issuesAs_acc hl rfl rfl rfl,
    fun hneg => ?_, fun hpos => ?_, issuesAs_accMove hl rfl rfl, issuesAs_of_effect hl rfl rfl,
    fun hle => ⟨?_, ?_⟩, fun hle => ⟨?_, ?_⟩⟩
  · have hmsb : a.msb = true := by rw [BitVec.msb_eq_toInt, decide_eq_true hneg]
    exact issuesAs_acc hl rfl (if_pos hmsb) rfl
  · have hmsb : ¬ a.msb = true := by
      rw [BitVec.msb_eq_toInt, decide_eq_true_iff]
      omega
    exact issuesAs_acc hl rfl (if_neg hmsb) rfl
  · exact issuesAs_accMove hl rfl (if_neg (Int.not_lt.mpr hle))
  · exact issuesAs_accMove hl rfl (ite_lt_smaller hle)
  · exact issuesAs_accMove hl rfl (ite_lt_greater hle)
  · exact issuesAs_accMove hl rfl (if_neg (Int.not_lt.mpr hle))

end Sys2Proof.Machine
end

section
/-!
SUPPORT. O4 and O5: shifts, saturation and moves of the accumulators, and the moves between them and X.
-/

namespace Sys2Proof.Machine

/-! ### Format A words that use COND or SH (R173, R178, R185) -/

/-- A word that uses SH is legal with SH in its range. -/
theorem accShLegal_of {lo hi : Int} {f : AccFields} (v : Views) (hr : f.reserved = 0) (hc : f.cond = 0)
    (hlo : lo ≤ f.sh.toInt) (hhi : f.sh.toInt ≤ hi) : accShLegal lo hi f v = true := by
  rw [accShLegal, hr, hc, decide_eq_true hlo, decide_eq_true hhi]
  rfl

/-- A word that names an X pair is legal with an even XS. -/
theorem accPairLegal_of {f : AccFields} {v : Views} (hl : accLegal f v = true) (hx : f.xs % 2 = 0) :
    accPairLegal f v = true := by
  rw [accPairLegal, hl, hx]
  rfl

/-- Whether a condition is assigned does not depend on the flags (R185). -/
theorem condHolds_isSome_eq (n : Nat) (st st' : BitVec 32) : (condHolds n st).isSome = (condHolds n st').isSome := by
  unfold condHolds
  dsimp only
  split <;> rfl

section

variable {f : AccFields} {t : Thr} {s : State}

/-- A value that SATA gives is written with its flags, SV set when it was outside Q1.31. -/
theorem issuesAs_sata {r : BitVec 40} {sv : Bool} (hl : accLegal f (s.chip.views (thrKey t)) = true)
    (hsv : outside ((s.chip.views (thrKey t)).a (s.chip.views (thrKey t)).ac f.as_.toNat) = sv)
    (hr : (if sv then (if ((s.chip.views (thrKey t)).a (s.chip.views (thrKey t)).ac f.as_.toNat).msb then 0xFF80000000
      else 0x007FFFFFFF) else (s.chip.views (thrKey t)).a (s.chip.views (thrKey t)).ac f.as_.toNat) = r) :
    IssuesAs (.sata t f) t s [(sAC, .a f.ad.toNat r), (sAC, .flags (zOf r) (nOf r) (vOf r) false false sv)] .seq s.chip := by
  subst hsv hr
  exact issuesAs_acc hl rfl rfl rfl

/-- CMOVA with an assigned condition has the effect its condition asks for (R185). -/
theorem issuesAs_cmova {holds : Bool} {ws : List (Nat × RegWrite)} (hr : f.reserved = 0) (hs : f.sh = 0)
    (hc : condHolds f.cond.toNat (s.chip.views (thrKey t)).ac.st = some holds)
    (he : (if holds = true then accMove f (fun _ a => a) (s.chip.views (thrKey t)) s.chip else { chip := s.chip }) =
      { writes := ws, chip := s.chip }) : IssuesAs (.cmova t f) t s ws .seq s.chip := by
  refine issuesAs_of_effect ?_ rfl (.trans ?_ he)
  · rw [hr, hs, condHolds_isSome_eq _ _ (s.chip.views (thrKey t)).ac.st, hc]
    rfl
  · simp only [hc, Option.some.injEq]

end

/-- Settles O4: shifts and moves are effects on AS; SATA's bounds and CMOVA's condition decide what is written. -/
theorem accumulatorShiftsAndMoves : Obligations.AccumulatorShiftsAndMoves := by
  intro t f s hr v d a x shifted sum move
  have legal (hc : f.cond = 0) (hs : f.sh = 0) : accLegal f v = true := accLegal_of v hr hc hs
  refine ⟨fun hc => ?sha, fun hc hs => issuesAs_of_effect (legal hc hs) rfl rfl, fun hc h0 => ?lsra,
    fun hc hs hlo hhi => ?within, fun hc hs habove => ?above, fun hc hs hbelow => ?below,
    fun hc hs => issuesAs_of_effect (legal hc hs) rfl rfl, fun hc hs => issuesAs_of_effect (legal hc hs) rfl rfl,
    fun hc hs hx => issuesAs_of_effect (accPairLegal_of (legal hc hs) hx) rfl rfl,
    fun hc hs => issuesAs_acc (legal hc hs) rfl rfl rfl, fun hs hholds => issuesAs_cmova hr hs hholds rfl,
    fun hs hfails => issuesAs_cmova hr hs hfails rfl⟩
  case sha => exact issuesAs_acc (accShLegal_of v hr hc (BitVec.le_toInt _) BitVec.toInt_le) rfl rfl rfl
  case lsra => exact issuesAs_accMove (accShLegal_of v hr hc h0 BitVec.toInt_le) rfl rfl
  case within => exact issuesAs_sata (legal hc hs) ((outside_eq_false_iff a).mpr ⟨hlo, hhi⟩) rfl
  case above =>
    obtain ⟨hout, hmsb⟩ := outside_of_le habove
    exact issuesAs_sata (legal hc hs) hout (if_neg (Bool.eq_false_iff.mp hmsb))
  case below =>
    obtain ⟨hout, hmsb⟩ := outside_of_lt hbelow
    exact issuesAs_sata (legal hc hs) hout (if_pos hmsb)

/-! ### Moves between accumulators and X (R148, R178, R179) -/

/-- The upper and the lower half of an accumulator's low word. -/
theorem extractLsb'_halves (a : BitVec 40) : (a.extractLsb' 0 32).extractLsb' 16 16 = a.extractLsb' 16 16 ∧
    (a.extractLsb' 0 32).extractLsb' 0 16 = a.extractLsb' 0 16 := by
  constructor <;> ext i hi <;> simp

section

variable {f : AccFields} {t : Thr} {s : State}

/-- MOVXA writes the narrowed halfword, and SV when it saturated. -/
theorem issuesAs_movxa {n : BitVec 16 × Bool} {ws : List (Nat × RegWrite)} (hl : accLegal f (s.chip.views (thrKey t)) = true)
    (hn : narrow16 (s.chip.views (thrKey t)).ma.sat ((s.chip.views (thrKey t)).a (s.chip.views (thrKey t)).ma f.as_.toNat) = n)
    (hw : (sMA, RegWrite.x (physX (s.chip.views (thrKey t)).id f.xs.toNat) n.1) :: svWrite n.2 = ws) :
    IssuesAs (.movxa t f) t s ws .seq s.chip :=
  issuesAs_of_effect hl rfl (by dsimp only; rw [hn, hw])

/-- MOVXAP writes the narrowed word's halves, and SV when it saturated. -/
theorem issuesAs_movxap {n : BitVec 32 × Bool} {ws : List (Nat × RegWrite)} (hl : accLegal f (s.chip.views (thrKey t)) = true)
    (hn : narrow 32 0 (s.chip.views (thrKey t)).ma.sat
      ((s.chip.views (thrKey t)).a (s.chip.views (thrKey t)).ma f.as_.toNat) = n)
    (hw : (sMA, RegWrite.x (physX (s.chip.views (thrKey t)).id f.xs.toNat) (n.1.extractLsb' 16 16)) ::
      (sMA, .x (physX (s.chip.views (thrKey t)).id (f.xs.toNat + 1)) (n.1.extractLsb' 0 16)) :: svWrite n.2 = ws)
    (hx : f.xs % 2 = 0) : IssuesAs (.movxap t f) t s ws .seq s.chip :=
  issuesAs_of_effect (accPairLegal_of hl hx) rfl (by dsimp only; rw [hn, hw])

/-- MOVXA and MOVXAP of a value that needs no saturation write its bits as they stand. -/
theorem issuesAs_movxa_within (hl : accLegal f (s.chip.views (thrKey t)) = true)
    (hin : (s.chip.views (thrKey t)).ma.sat = false ∨
      -(2 ^ 31) ≤ ((s.chip.views (thrKey t)).a (s.chip.views (thrKey t)).ma f.as_.toNat).toInt ∧
        ((s.chip.views (thrKey t)).a (s.chip.views (thrKey t)).ma f.as_.toNat).toInt < 2 ^ 31) :
    let v := s.chip.views (thrKey t)
    let a := v.a v.ma f.as_.toNat
    IssuesAs (.movxa t f) t s [(sMA, .x (physX v.id f.xs.toNat) (a.extractLsb' 16 16))] .seq s.chip ∧
    (f.xs % 2 = 0 → IssuesAs (.movxap t f) t s [(sMA, .x (physX v.id f.xs.toNat) (a.extractLsb' 16 16)),
      (sMA, .x (physX v.id (f.xs.toNat + 1)) (a.extractLsb' 0 16))] .seq s.chip) := by
  intro v a
  refine ⟨issuesAs_movxa hl (narrow_within hin) rfl, issuesAs_movxap hl (narrow_within hin) ?_⟩
  dsimp only
  rw [(extractLsb'_halves _).1, (extractLsb'_halves _).2]
  rfl

end

/-- Settles O5: exponents and parts are read in MA; what is narrowed is within Q1.31, above it or below it. -/
theorem accumulatorToX : Obligations.AccumulatorToX := by
  intro t f s hr hc v d a x
  have legal (hs : f.sh = 0) : accLegal f v = true := accLegal_of v hr hc hs
  have part {n : BitVec 6} (hs : f.sh = n) (hlo : 0 ≤ n.toInt) (hhi : n.toInt ≤ 2) : accShLegal 0 2 f v = true :=
    accShLegal_of v hr hc (hs ▸ hlo) (hs ▸ hhi)
  refine ⟨fun hs => issuesAs_of_effect (legal hs) rfl rfl, fun hs => issuesAs_of_effect (legal hs) rfl rfl,
    fun hs hsat => issuesAs_movxa_within (legal hs) (.inl hsat),
    fun hs _ hlo hhi => issuesAs_movxa_within (legal hs) (.inr ⟨hlo, hhi⟩),
    fun hs hsat habove => ⟨issuesAs_movxa (legal hs) (narrow_above hsat habove) rfl,
      issuesAs_movxap (legal hs) (narrow_above hsat habove) rfl⟩,
    fun hs hsat hbelow => ⟨issuesAs_movxa (legal hs) (narrow_below hsat hbelow) rfl,
      issuesAs_movxap (legal hs) (narrow_below hsat hbelow) rfl⟩,
    fun hs => ?low, fun hs => ?high, fun hs => ?guard⟩
  case low | high | guard =>
    have hl := part hs (by decide) (by decide)
    exact ⟨issuesAs_of_effect hl rfl (by dsimp only; rw [hs]; rfl), issuesAs_of_effect hl rfl (by dsimp only; rw [hs]; rfl)⟩

end Sys2Proof.Machine
end

section
/-!
SUPPORT. O6: the exponent of an accumulator, NORM's shift, and what narrowing keeps.
-/

namespace Sys2Proof.Machine

/-! ### Exponents (R179) -/

section

variable {w : Nat} {a : BitVec w}

/-- The leading signs end at the first bit, from the top, that is unlike the sign. -/
theorem leadingSigns_eq_findIdx (a : BitVec w) :
    leadingSigns w a = (List.range w).findIdx fun i => !(a.getLsbD (w - 1 - i) == a.msb) := by
  rw [leadingSigns, upTo, List.takeWhile_eq_take_findIdx_not, List.length_take_of_le List.findIdx_le_length]

theorem leadingSigns_le (a : BitVec w) : leadingSigns w a ≤ w := by
  rw [leadingSigns_eq_findIdx]
  simpa using List.findIdx_le_length (xs := List.range w)

/-- The bits counted are like the sign. -/
theorem getLsbD_of_lt_leadingSigns {i : Nat} (h : i < leadingSigns w a) : a.getLsbD (w - 1 - i) = a.msb := by
  rw [leadingSigns_eq_findIdx] at h
  simpa using List.not_of_lt_findIdx h

/-- The bit after them is unlike it. -/
theorem getLsbD_leadingSigns (h : leadingSigns w a < w) : a.getLsbD (w - 1 - leadingSigns w a) ≠ a.msb := by
  have hlt : ((List.range w).findIdx fun i => !(a.getLsbD (w - 1 - i) == a.msb)) < (List.range w).length := by
    rwa [← leadingSigns_eq_findIdx, List.length_range]
  have hfound := List.findIdx_getElem (w := hlt)
  rw [leadingSigns_eq_findIdx]
  simpa using hfound

/-- The sign itself is counted. -/
theorem leadingSigns_pos (hw : 0 < w) : 0 < leadingSigns w a := by
  rw [Nat.pos_iff_ne_zero]
  intro h0
  refine getLsbD_leadingSigns (a := a) (by omega) ?_
  rw [h0, BitVec.msb_eq_getLsbD_last, Nat.sub_zero]

end

/-- The exponent lies between -8 and 31. -/
theorem exponent_bounds (a : BitVec 40) : -8 ≤ exponent a ∧ exponent a ≤ 31 := by
  have hpos := leadingSigns_pos (a := a) (by decide)
  have hle := leadingSigns_le a
  unfold exponent
  omega

/-- A shift by the exponent moves each bit up by the count of leading signs less 9; below it zeros come in, above it signs. -/
theorem getLsbD_shift40_exponent (a : BitVec 40) {j : Nat} (hj : j < 40) :
    (shift40 a (exponent a)).1.getLsbD j =
      if j + 9 < leadingSigns 40 a then false
      else if j + 9 - leadingSigns 40 a < 40 then a.getLsbD (j + 9 - leadingSigns 40 a) else a.msb := by
  unfold shift40
  split
  case isTrue h =>
    have hk : (exponent a).toNat = leadingSigns 40 a - 9 := by unfold exponent; omega
    have hge : 9 ≤ leadingSigns 40 a := by unfold exponent at h; omega
    have hpos : j - (leadingSigns 40 a - 9) = j + 9 - leadingSigns 40 a := by omega
    simp only [hk, BitVec.getLsbD_shiftLeft, hj, hpos]
    split_ifs <;> simp <;> omega
  case isFalse h =>
    have hk : (-exponent a).toNat = 9 - leadingSigns 40 a := by unfold exponent; omega
    have hlt : leadingSigns 40 a < 9 := by unfold exponent at h; omega
    have hpos : 9 - leadingSigns 40 a + j = j + 9 - leadingSigns 40 a := by omega
    have hin : ¬ j + 9 < leadingSigns 40 a := by omega
    have hj' : ¬ 40 ≤ j := by omega
    simp only [hk, BitVec.getLsbD_sshiftRight, hpos, hin, hj', if_false, decide_false, Bool.not_false, Bool.true_and]

/-- After NORM's shift the bits from 31 up are all the sign. -/
theorem getLsbD_shift40_exponent_high (a : BitVec 40) {j : Nat} (hlo : 31 ≤ j) (hj : j < 40) :
    (shift40 a (exponent a)).1.getLsbD j = a.msb := by
  have hle := leadingSigns_le a
  rw [getLsbD_shift40_exponent a hj, if_neg (by omega)]
  split
  case isTrue hin =>
    have hsign := getLsbD_of_lt_leadingSigns (a := a) (i := 40 - 1 - (j + 9 - leadingSigns 40 a)) (by omega)
    rwa [Nat.sub_sub_self (by omega)] at hsign
  case isFalse => rfl

/-- A value other than 0 all of whose bits are like its sign is negative. -/
theorem msb_of_leadingSigns_eq {a : BitVec 40} (ha : a ≠ 0) (h : leadingSigns 40 a = 40) : a.msb = true := by
  by_contra hneg
  refine ha (BitVec.eq_of_getLsbD_eq fun i hi => ?_)
  have hsign := getLsbD_of_lt_leadingSigns (a := a) (i := 40 - 1 - i) (by omega)
  rw [Nat.sub_sub_self (by omega), Bool.eq_false_of_not_eq_true hneg] at hsign
  rw [hsign]
  simp

/-- Bit 30 is unlike the sign, for any value but 0. -/
theorem getLsbD_shift40_exponent_30 {a : BitVec 40} (ha : a ≠ 0) : (shift40 a (exponent a)).1.getLsbD 30 ≠ a.msb := by
  rw [getLsbD_shift40_exponent a (by decide)]
  obtain hall | hlt := (leadingSigns_le a).eq_or_lt
  · rw [if_pos (by omega), msb_of_leadingSigns_eq ha hall]
    decide
  · have hpos := leadingSigns_pos (a := a) (by decide)
    rw [if_neg (by omega), if_pos (by omega)]
    exact getLsbD_leadingSigns hlt

/-- The halfword of a value within Q1.31 is its floor in steps of 2^16 (R148). -/
theorem toInt_high_of_within {a : BitVec 40} (hlo : -(2 ^ 31) ≤ a.toInt) (hhi : a.toInt < 2 ^ 31) :
    (a.extractLsb' 16 16).toInt = Int.fdiv a.toInt (2 ^ 16) := by
  have hlt := a.isLt
  rw [BitVec.toInt_eq_toNat_cond] at hlo hhi ⊢
  rw [Int.fdiv_eq_ediv_of_nonneg _ (by decide), BitVec.toInt_eq_toNat_cond, BitVec.extractLsb'_toNat,
    Nat.shiftRight_eq_div_pow]
  split_ifs at * <;> omega

/-- Settles O6: leading signs bound the exponent, and place the sign and the bit unlike it after NORM's shift. -/
theorem exponentsAndNarrowing : Obligations.ExponentsAndNarrowing := by
  refine ⟨exponent_bounds, by decide, by decide, fun a ha => ?norm, outside_eq_false_iff, fun sat a hin => ?narrow⟩
  case norm =>
    intro r
    have hsign : r.msb = a.msb := by
      rw [BitVec.msb_eq_getLsbD_last]
      exact getLsbD_shift40_exponent_high a (by decide) (by decide)
    rw [hsign]
    refine ⟨BitVec.eq_of_getLsbD_eq fun i hi => ?_, getLsbD_shift40_exponent_30 ha⟩
    rw [BitVec.getLsbD_extractLsb', getLsbD_shift40_exponent_high a (by omega) (by omega)]
    cases a.msb
    · simp
    · rw [if_pos rfl, BitVec.getLsbD_allOnes, Bool.and_true]
  case narrow =>
    obtain ⟨hlo, hhi⟩ := (outside_eq_false_iff a).mp hin
    rw [narrow16, narrow_within (.inr ⟨hlo, hhi⟩)]
    exact ⟨toInt_high_of_within hlo hhi, rfl⟩

end Sys2Proof.Machine
end

section
/-!
SUPPORT. O7 and O8: the X register operations and the immediates.
-/

namespace Sys2Proof.Machine

/-! ### Values of 16 bits (R148, R180) -/

/-- A value held between two bounds. -/
theorem clampInt_eq_ite {lo hi : Int} (z : Int) (h : lo ≤ hi) :
    clampInt lo hi z = if z < lo then lo else if hi < z then hi else z := by
  unfold clampInt
  split_ifs <;> omega

/-- A sum that saturates takes the bound it passed. -/
theorem sat16_eq (z : Int) : sat16 z = BitVec.ofInt 16 (if z < -32768 then -32768 else if 32767 < z then 32767 else z) := by
  rw [sat16, clampInt_eq_ite z (by decide)]

/-- The absolute value of ABSX saturates as a sum does. -/
theorem abs16_eq (a : BitVec 16) : abs16 a = sat16 (if a.toInt < 0 then -a.toInt else a.toInt) := by
  have hlo := a.le_toInt
  have hhi := a.toInt_lt
  rw [abs16, BitVec.msb_eq_toInt]
  by_cases hneg : a.toInt < 0
  · rw [decide_eq_true hneg, if_pos rfl, if_pos hneg]
  · rw [decide_eq_false hneg, if_neg Bool.false_ne_true, if_neg hneg, sat16_eq, if_neg (by omega), if_neg (by omega),
      BitVec.ofInt_toInt]

theorem not_eq_ofInt (a : BitVec 16) : ~~~a = BitVec.ofInt 16 (-1 - a.toInt) := by
  rw [sub_eq_add_neg, add_comm, BitVec.ofInt_add, BitVec.ofInt_neg, BitVec.ofInt_toInt, BitVec.not_eq_neg_add,
    BitVec.sub_eq_add_neg]
  rfl

theorem neg_eq_ofInt (a : BitVec 16) : -a = BitVec.ofInt 16 (-a.toInt) := by
  rw [BitVec.ofInt_neg, BitVec.ofInt_toInt]

/-- A shift left multiplies, modulo 2^16. -/
theorem shiftLeft_eq_ofNat (a : BitVec 16) (n : Nat) : a <<< n = BitVec.ofNat 16 (a.toNat * 2 ^ n) :=
  BitVec.eq_of_toNat_eq (by rw [BitVec.toNat_shiftLeft, BitVec.toNat_ofNat, Nat.shiftLeft_eq])

/-- A logical shift right divides. -/
theorem ushiftRight_eq_ofNat (a : BitVec 16) (n : Nat) : a >>> n = BitVec.ofNat 16 (a.toNat / 2 ^ n) := by
  rw [← Nat.shiftRight_eq_div_pow, ← BitVec.toNat_ushiftRight, BitVec.ofNat_toNat, BitVec.setWidth_eq]

/-- An arithmetic shift right is the floor of a division (R12). -/
theorem sshiftRight_eq_ofInt (a : BitVec 16) (n : Nat) : a.sshiftRight n = BitVec.ofInt 16 (Int.fdiv a.toInt (2 ^ n)) := by
  rw [Int.fdiv_eq_ediv_of_nonneg _ (by positivity), ← BitVec.ofInt_toInt (x := a.sshiftRight n), BitVec.toInt_sshiftRight,
    Int.shiftRight_eq_div_pow]
  norm_cast

/-- A pointer plus a signed value, modulo 2^24. -/
theorem add_signExtend_eq (p : BitVec 24) (n : BitVec 16) : p + n.signExtend 24 = BitVec.ofInt 24 (p.toNat + n.toInt) := by
  rw [BitVec.ofInt_add, BitVec.ofInt_natCast, BitVec.ofNat_toNat, BitVec.setWidth_eq, BitVec.signExtend]

/-! ### Format X (R180) -/

section

variable {f : AluFields} {v : Views}

theorem alu2Legal_of (hr : f.reserved = 0) (hn : f.shn = 0) : alu2Legal f v = true := by
  rw [alu2Legal, hr, hn]
  rfl

theorem alu1Legal_of (hr : f.reserved = 0) (hb : f.xb = 0) (hn : f.shn = 0) : alu1Legal f v = true := by
  rw [alu1Legal, hr, hb, hn]
  rfl

theorem aluShLegal_of (hr : f.reserved = 0) (hb : f.xb = 0) : aluShLegal f v = true := by
  rw [aluShLegal, hr, hb]
  rfl

end

/-- An operation on XA and XB that gives `r` writes it to XD in MA, and nothing else. -/
theorem issuesAs_alu {i : Instr} {t : Thr} {f : AluFields} {s : State} {legal : Views → Bool}
    {op : BitVec 16 → BitVec 16 → BitVec 16} {r : BitVec 16} (hl : legal (s.chip.views (thrKey t)) = true)
    (hi : exec i s = s.issue t legal (aluEffect f op))
    (hr : op ((s.chip.views (thrKey t)).x (s.chip.views (thrKey t)).ma f.xa.toNat)
      ((s.chip.views (thrKey t)).x (s.chip.views (thrKey t)).ma f.xb.toNat) = r) :
    IssuesAs i t s [(sMA, .x (physX (s.chip.views (thrKey t)).id f.xd.toNat) r)] .seq s.chip :=
  issuesAs_of_effect hl hi (by rw [aluEffect, hr])

/-- Settles O7: each operation is `aluEffect` of its own arithmetic; CMPX writes the flags of a compare. -/
theorem xRegisterResults : Obligations.XRegisterResults := by
  intro t f s hr v a b wide xd held
  refine ⟨fun hn => ?two, fun hb hn => ?one, fun hb => ?shift⟩
  case two =>
    have hl : alu2Legal f v = true := alu2Legal_of hr hn
    refine ⟨issuesAs_alu hl rfl rfl, issuesAs_alu hl rfl rfl, issuesAs_alu hl rfl (sat16_eq _),
      issuesAs_alu hl rfl (sat16_eq _), issuesAs_alu hl rfl rfl, issuesAs_alu hl rfl rfl, issuesAs_alu hl rfl rfl, fun hle => ⟨?_, ?_⟩, fun hle => ⟨?_, ?_⟩,
      fun hd => issuesAs_of_effect ?_ rfl rfl⟩
    · exact issuesAs_alu hl rfl (if_neg (Int.not_lt.mpr hle))
    · exact issuesAs_alu hl rfl (ite_lt_smaller hle)
    · exact issuesAs_alu hl rfl (ite_lt_greater hle)
    · exact issuesAs_alu hl rfl (if_neg (Int.not_lt.mpr hle))
    · rw [hl, hd]
      rfl
  case one =>
    have hl : alu1Legal f v = true := alu1Legal_of hr hb hn
    exact ⟨issuesAs_alu hl rfl rfl, issuesAs_alu hl rfl (not_eq_ofInt _), issuesAs_alu hl rfl (neg_eq_ofInt _),
      issuesAs_alu hl rfl ((abs16_eq _).trans (sat16_eq _))⟩
  case shift =>
    have hl : aluShLegal f v = true := aluShLegal_of hr hb
    exact ⟨issuesAs_alu hl rfl (shiftLeft_eq_ofNat _ _), issuesAs_alu hl rfl (sshiftRight_eq_ofInt _ _),
      issuesAs_alu hl rfl (ushiftRight_eq_ofNat _ _)⟩

/-! ### Format I and Format P (R181) -/

/-- An immediate that names one of `n` registers is legal below `n`. -/
theorem immLegalOf_of {f : ImmFields} {n : Nat} (v : Views) (hr : f.reserved = 0) (h : f.reg.toNat < n) :
    immLegalOf n f v = true := by
  rw [immLegalOf, hr, decide_eq_true h]
  rfl

/-- Settles O8: each immediate is one write, at the stage of its row, and an accumulator's with its flags. -/
theorem immediateResults : Obligations.ImmediateResults := by
  intro t f s hr v n x wide xd
  have hl : immLegal f v = true := beq_iff_eq.mpr hr
  have low {m : Nat} (h : n < m) : immLegalOf m f v = true := immLegalOf_of v hr h
  exact ⟨issuesAs_of_effect hl rfl rfl, issuesAs_of_effect hl rfl rfl, issuesAs_of_effect hl rfl rfl,
    issuesAs_of_effect hl rfl rfl, issuesAs_of_effect hl rfl rfl, issuesAs_of_effect hl rfl rfl,
    fun h => issuesAs_of_effect (low h) rfl rfl, fun h => issuesAs_of_effect (low h) rfl rfl,
    fun h => issuesAs_of_effect (low h) rfl rfl,
    fun h => issuesAs_of_effect (low h) rfl (by rw [add_signExtend_eq]),
    fun h => issuesAs_of_effect (low (Nat.lt_one_iff.mpr h)) rfl rfl,
    fun pd imm => issuesAs_of_effect rfl rfl rfl⟩

end Sys2Proof.Machine
end

section
/-!
SUPPORT. O9 and O10: the loads and the stores through a pointer.
-/

namespace Sys2Proof.Machine

/-! ### Format L (R172, R182, R183) -/

/-- A word of Format L is legal with NS 0 and a register that suits it. -/
theorem memLegal_of {reg : Nat → Bool} {f : MemFields} (v : Views) (hns : f.ns = false) (hreg : reg f.reg.toNat = true) :
    memLegal reg f v = true := by
  rw [memLegal, hns, hreg]
  rfl

/-- The first register of a pair, of a quad, and one of the first four or eight. -/
theorem pairReg_of {n : Nat} (h : n % 2 = 0) : pairReg n = true := beq_iff_eq.mpr h
theorem quadReg_of {n : Nat} (h : n % 4 = 0) : quadReg n = true := beq_iff_eq.mpr h
theorem accReg_of {n : Nat} (h : n < 4) : accReg n = true := decide_eq_true h
theorem lowReg_of {n : Nat} (h : n < 8) : lowReg n = true := decide_eq_true h

/-- The value of an X pair. -/
theorem toNat_pair (v : Views) (r : Regs) (n : Nat) : (v.pair r n).toNat = (v.x r n).toNat * 65536 + (v.x r (n + 1)).toNat := by
  rw [Views.pair, BitVec.toNat_append, ← Nat.shiftLeft_add_eq_or_of_lt (BitVec.isLt _), Nat.shiftLeft_eq]

section

variable {i : Instr} {t : Thr} {f : MemFields} {s : State} {legal : Views → Bool} {n : Nat} {ws : List (Nat × RegWrite)}

/-- A load that is allowed, of a word without error, writes what `mk` makes of the value, then the pointer's step. -/
theorem issuesAs_load {mk : Views → Nat → List (Nat × RegWrite)}
    (hf : accessFault s.chip (thrKey t) ((s.chip.views (thrKey t)).ea f.ptr f.disp) n false = none)
    (hl : legal (s.chip.views (thrKey t)) = true) (hi : exec i s = s.issue t legal (loadL f n mk))
    (hw : (loadL f n mk (s.chip.views (thrKey t)) s.chip).writes = ws) : IssuesAs i t s ws .seq s.chip :=
  issue_as hi hl hf hw rfl rfl

/-- A store that is allowed stores what MA gives it, and leaves the writes this causes and the pointer's step. -/
theorem issuesAs_store {val : Views → Nat × List (Nat × RegWrite)} {x : Nat} {more : List (Nat × RegWrite)}
    (hf : accessFault s.chip (thrKey t) ((s.chip.views (thrKey t)).ea f.ptr f.disp) n true = none)
    (hl : legal (s.chip.views (thrKey t)) = true) (hi : exec i s = s.issue t legal (storeL f n val))
    (hx : val (s.chip.views (thrKey t)) = (x, more)) (hw : more ++ (s.chip.views (thrKey t)).step f.ptr.toNat f.u = ws) :
    IssuesAs i t s ws .seq (storeData (thrKey t) ((s.chip.views (thrKey t)).ea f.ptr f.disp) n x s.chip) := by
  refine issue_as hi hl hf ?_ rfl ?_
  · rw [storeL, hx, ← hw, storeEffect]
  · rw [storeL, hx, storeEffect]
    rfl

/-- A store of a narrowed accumulator stores its value, and sets SV when it saturated (R175). -/
theorem issuesAs_storeNarrow {w lo x : Nat} {wide : BitVec w → Nat} {y : BitVec w × Bool}
    (hf : accessFault s.chip (thrKey t) ((s.chip.views (thrKey t)).ea f.ptr f.disp) n true = none)
    (hl : legal (s.chip.views (thrKey t)) = true) (hi : exec i s = s.issue t legal (storeNarrow f n w lo wide))
    (hy : narrow w lo ((s.chip.views (thrKey t)).ma.sat && !f.ns)
      ((s.chip.views (thrKey t)).a (s.chip.views (thrKey t)).ma f.reg.toNat) = y)
    (hx : wide y.1 = x) (hw : svWrite y.2 ++ (s.chip.views (thrKey t)).step f.ptr.toNat f.u = ws) :
    IssuesAs i t s ws .seq (storeData (thrKey t) ((s.chip.views (thrKey t)).ea f.ptr f.disp) n x s.chip) := by
  subst hy hx
  exact issuesAs_store hf hl hi rfl hw

end

/-- Settles O9: each load is `loadL` of its own registers. -/
theorem loadResults : Obligations.LoadResults := by
  intro t f s hns v base ea n step got x free
  have legal {reg : Nat → Bool} (h : reg n = true) : memLegal reg f v = true := memLegal_of v hns h
  exact ⟨fun hf => issuesAs_load hf (legal rfl) rfl rfl, fun hf h => issuesAs_load hf (legal (pairReg_of h)) rfl rfl,
    fun hf h => issuesAs_load hf (legal (quadReg_of h)) rfl rfl, fun hf h => issuesAs_load hf (legal (accReg_of h)) rfl rfl,
    fun hf h => issuesAs_load hf (legal (accReg_of h)) rfl rfl, fun hf h => issuesAs_load hf (legal (lowReg_of h)) rfl rfl,
    fun hf h => issuesAs_load hf (legal (lowReg_of h)) rfl rfl, fun hf h => issuesAs_load hf (legal (accReg_of h)) rfl rfl⟩

/-- Settles O10: each store is `storeL` of its own value; SAT, NS and the bounds of Q1.31 decide what an accumulator gives. -/
theorem storeResults : Obligations.StoreResults := by
  intro t f s v base ea n a step pair stored free asIs high low
  have legal {reg : Nat → Bool} (hns : f.ns = false) (h : reg n = true) : memLegal reg f v = true := memLegal_of v hns h
  have pair_eq (i : Nat) : (v.pair v.ma i).toNat = pair i := toNat_pair v v.ma i
  refine ⟨fun hns hf => issuesAs_store hf (legal hns rfl) rfl rfl rfl,
    fun hns hf h => issuesAs_store hf (legal hns (pairReg_of h)) rfl (congrArg (·, []) (pair_eq n)) rfl,
    fun hns hf h => issuesAs_store hf (legal hns (quadReg_of h)) rfl
      (congrArg (·, []) (congrArg₂ (· + 2 ^ 32 * ·) (pair_eq n) (pair_eq (n + 2)))) rfl,
    fun hns hf h => issuesAs_store hf (legal hns rfl) rfl (congrArg (·, []) (if_pos h)) rfl,
    fun hns hf h => issuesAs_store hf (legal hns rfl) rfl (congrArg (·, []) (if_neg (Nat.not_lt.mpr h))) rfl,
    fun hns hf h => issuesAs_store hf (legal hns (accReg_of h)) rfl rfl rfl,
    fun h hasIs => ?asIs, fun h hhigh => ?high, fun h hlow => ?low⟩
  case asIs =>
    have hin : (v.ma.sat && !f.ns) = false ∨ -(2 ^ 31) ≤ a.toInt ∧ a.toInt < 2 ^ 31 := by
      obtain hns | hsat | hin := hasIs
      · exact .inl (by rw [hns, Bool.not_true, Bool.and_false])
      · exact .inl (by rw [Regs.sat, hsat, Bool.false_and])
      · exact .inr hin
    exact ⟨fun hf => issuesAs_storeNarrow hf (accReg_of h) rfl (narrow_within hin) rfl rfl,
      fun hf => issuesAs_storeNarrow hf (accReg_of h) rfl (narrow_within hin) rfl rfl,
      fun hf => issuesAs_storeNarrow hf (accReg_of h) rfl (narrow_within hin) rfl rfl⟩
  case high =>
    obtain ⟨hns, hsat, habove⟩ := hhigh
    have hasked : (v.ma.sat && !f.ns) = true := by rw [Regs.sat, hsat, hns]; rfl
    exact ⟨fun hf => issuesAs_storeNarrow hf (accReg_of h) rfl (narrow_above hasked habove) rfl rfl,
      fun hf => issuesAs_storeNarrow hf (accReg_of h) rfl (narrow_above hasked habove) rfl rfl,
      fun hf => issuesAs_storeNarrow hf (accReg_of h) rfl (narrow_above hasked habove) rfl rfl⟩
  case low =>
    obtain ⟨hns, hsat, hbelow⟩ := hlow
    have hasked : (v.ma.sat && !f.ns) = true := by rw [Regs.sat, hsat, hns]; rfl
    exact ⟨fun hf => issuesAs_storeNarrow hf (accReg_of h) rfl (narrow_below hasked hbelow) rfl rfl,
      fun hf => issuesAs_storeNarrow hf (accReg_of h) rfl (narrow_below hasked hbelow) rfl rfl,
      fun hf => issuesAs_storeNarrow hf (accReg_of h) rfl (narrow_below hasked hbelow) rfl rfl⟩

end Sys2Proof.Machine
end

section
/-!
SUPPORT. O12 and O13: branches, loops, repeats, control words, and the moves of special registers.
-/

namespace Sys2Proof.Machine

/-! ### Threads by number -/

@[simp] theorem thrKey_div (t : Thr) : thrKey t / 4 = t.core.val := by
  unfold thrKey
  omega

@[simp] theorem thrKey_mod (t : Thr) : thrKey t % 4 = t.thread.val := by
  unfold thrKey
  omega

/-! ### Moves of special registers (R192) -/

/-- A move of a special register of an even pair, or of LC or BX, is legal. -/
theorem sregLegal_of {sreg : BitVec 5} {xr : BitVec 4} (v : Views) (hs : sreg.toNat < 19)
    (hx : sreg.toNat = 16 ∨ sreg.toNat = 17 ∨ xr % 2 = 0) : sregLegal sreg xr 0 v = true := by
  have hreg : (sreg == 16 || sreg == 17 || xr % 2 == 0) = true := by
    rw [Bool.or_eq_true, Bool.or_eq_true, beq_iff_eq, beq_iff_eq, beq_iff_eq, or_assoc]
    exact hx.imp BitVec.eq_of_toNat_eq (Or.imp_left BitVec.eq_of_toNat_eq)
  rw [sregLegal, decide_eq_true hs, hreg]
  rfl

section

variable {α : Type} {n : Nat} (p m lc bx st : α)

/-! Which of the five kinds of special register a number names. -/

theorem sregKind_p (h : n < 8) :
    (if n < 8 then p else if n < 16 then m else if n = 16 then lc else if n = 17 then bx else st) = p := if_pos h

theorem sregKind_m (hge : 8 ≤ n) (hlt : n < 16) :
    (if n < 8 then p else if n < 16 then m else if n = 16 then lc else if n = 17 then bx else st) = m := by
  rw [if_neg (Nat.not_lt.mpr hge), if_pos hlt]

theorem sregKind_lc (h : n = 16) :
    (if n < 8 then p else if n < 16 then m else if n = 16 then lc else if n = 17 then bx else st) = lc := by
  subst h
  rfl

theorem sregKind_bx (h : n = 17) :
    (if n < 8 then p else if n < 16 then m else if n = 16 then lc else if n = 17 then bx else st) = bx := by
  subst h
  rfl

theorem sregKind_st (h : n = 18) :
    (if n < 8 then p else if n < 16 then m else if n = 16 then lc else if n = 17 then bx else st) = st := by
  subst h
  rfl

end

/-- Settles O13: SREG's number decides which register is moved, between which stages. -/
theorem specialRegisterMoves : Obligations.SpecialRegisterMoves := by
  intro t sreg xr s v n pair out one
  refine ⟨fun hlt hx => ?p, fun hge hlt hx => ?m, fun heq => ?lc, fun heq => ?bx, fun heq hx => ?st⟩
  case p =>
    have hl := sregLegal_of v (sreg := sreg) (by omega) (.inr (.inr hx))
    exact ⟨issue_as rfl hl rfl (congrArg ([·]) (sregKind_p _ _ _ _ _ hlt)) rfl rfl,
      issue_as rfl hl rfl (sregKind_p _ _ _ _ _ hlt) rfl rfl⟩
  case m =>
    have hl := sregLegal_of v (sreg := sreg) (by omega) (.inr (.inr hx))
    exact ⟨issue_as rfl hl rfl (congrArg ([·]) (sregKind_m _ _ _ _ _ hge hlt)) rfl rfl,
      issue_as rfl hl rfl (sregKind_m _ _ _ _ _ hge hlt) rfl rfl⟩
  case lc =>
    have hl := sregLegal_of (xr := xr) v (sreg := sreg) (by omega) (.inl heq)
    exact ⟨issue_as rfl hl rfl (congrArg ([·]) (sregKind_lc _ _ _ _ _ heq)) rfl rfl,
      issue_as rfl hl rfl (sregKind_lc _ _ _ _ _ heq) rfl rfl⟩
  case bx =>
    have hl := sregLegal_of (xr := xr) v (sreg := sreg) (by omega) (.inr (.inl heq))
    exact ⟨issue_as rfl hl rfl (congrArg ([·]) (sregKind_bx _ _ _ _ _ heq)) rfl rfl,
      issue_as rfl hl rfl (sregKind_bx _ _ _ _ _ heq) rfl rfl⟩
  case st =>
    have hl := sregLegal_of v (sreg := sreg) (by omega) (.inr (.inr hx))
    refine ⟨issue_as rfl hl rfl (congrArg ([·]) (sregKind_st _ _ _ _ _ heq)) rfl rfl,
      issue_as rfl hl rfl ((sregKind_st _ _ _ _ _ heq).trans ?_) rfl rfl⟩
    exact congrArg (fun n => pairWrites v xr.toNat (v.th.readSt n v.ma)) (thrKey_mod t)

/-! ### Branches (R184 to R187) -/

section

variable {t : Thr} {s : State} {cond xr : BitVec 4} {l ind : Bool} {target : BitVec 16}

/-- A branch with an assigned condition that holds as `taken` says. -/
theorem issuesAs_branch {taken : Bool} {ws : List (Nat × RegWrite)} {g : Option (BitVec 16)}
    (hfree : (s.chip.views (thrKey t)).th.confined = false)
    (hc : condHolds cond.toNat (s.chip.views (thrKey t)).id.st = some taken) (ht : ind = true → target = 0)
    (hw : (if taken && l then [(sID, RegWrite.x (physX (s.chip.views (thrKey t)).id xr.toNat)
      ((s.chip.views (thrKey t)).th.pc + 3))] else []) = ws)
    (hg : (if taken then some (if ind then (s.chip.views (thrKey t)).x (s.chip.views (thrKey t)).id xr.toNat else target)
      else none) = g) : IssuesAs (.branch t cond l ind xr target) t s ws (.delayed g) s.chip := by
  refine issuesAs_of_effect ?_ rfl ?_
  · rw [hfree, hc]
    cases ind
    · rfl
    · rw [ht rfl]
      rfl
  · simp only [hc, Option.getD_some, hw, hg]

/-- DBNZ counts down, and branches by what it leaves. -/
theorem issuesAs_dbnz {xd : BitVec 4} {n : BitVec 16} {g : Option (BitVec 16)}
    (hfree : (s.chip.views (thrKey t)).th.confined = false)
    (hn : (s.chip.views (thrKey t)).x (s.chip.views (thrKey t)).id xd.toNat - 1 = n)
    (hg : (if n = 0 then none else some target) = g) :
    IssuesAs (.dbnz t xd 0 target) t s [(sID, .x (physX (s.chip.views (thrKey t)).id xd.toNat) n)] (.delayed g) s.chip := by
  refine issuesAs_of_effect ?_ rfl ?_
  · rw [hfree]
    rfl
  · simp only [hn, hg]

end

/-! ### Loops and repeats (R188 to R191) -/

theorem loopFlow_pos (v : Views) {n : Nat} (ofs : BitVec 11) (h : 1 ≤ n) :
    loopFlow v n ofs = .loop (v.th.pc.toNat + 1) (v.th.pc.toNat + 1 + ofs.toNat) := if_neg (Nat.ne_of_gt h)

theorem loopFlow_zero (v : Views) {n : Nat} (ofs : BitVec 11) (h : n = 0) :
    loopFlow v n ofs = .jump (BitVec.ofNat 16 (v.th.pc.toNat + 2 + ofs.toNat)) 2 := by
  rw [loopFlow, if_pos h]
  congr 2
  omega

theorem rptFlow_pos (v : Views) {n : Nat} (h : 1 ≤ n) : rptFlow v n = .repeat_ n := if_neg (Nat.ne_of_gt h)

theorem rptFlow_zero (v : Views) : rptFlow v 0 = .jump (v.th.pc + 2) 1 := if_pos rfl

/-- A loop may open outside another one and outside the places of R187. -/
theorem loopLegal_of {v : Views} {ofs : BitVec 11} (hfree : v.th.confined = false) (hloop : v.th.loop = none) (hofs : ofs ≠ 0) :
    loopLegal v ofs = true := by
  rw [loopLegal, hfree, hloop, bne_iff_ne.mpr hofs]
  rfl

section

variable {t : Thr} {s : State} {fl : Flow}

/-- A repeat of a repeatable instruction, at most 256 times, goes on as its count says. -/
theorem issuesAs_rpti {count : BitVec 9} (hfree : (s.chip.views (thrKey t)).th.confined = false) (hcount : count.toNat ≤ 256)
    (hword : repeatable (s.chip.programWord t.core.val ((s.chip.views (thrKey t)).th.pc.toNat + 1)) = true)
    (hfl : rptFlow (s.chip.views (thrKey t)) count.toNat = fl) : IssuesAs (.rpti t 0 count) t s [] fl s.chip := by
  refine issuesAs_of_effect ?_ rfl (by rw [hfl])
  rw [hfree, decide_eq_true hcount]
  exact (congrArg (fun n => repeatable (s.chip.programWord n _)) (thrKey_div t)).trans hword

theorem issuesAs_rptx {xs : BitVec 4} {n : Nat} (hfree : (s.chip.views (thrKey t)).th.confined = false)
    (hn : ((s.chip.views (thrKey t)).x (s.chip.views (thrKey t)).id xs.toNat).toNat = n) (hcount : n ≤ 256)
    (hword : repeatable (s.chip.programWord t.core.val ((s.chip.views (thrKey t)).th.pc.toNat + 1)) = true)
    (hfl : rptFlow (s.chip.views (thrKey t)) n = fl) : IssuesAs (.rptx t xs 0) t s [] fl s.chip := by
  subst hn
  refine issuesAs_of_effect ?_ rfl (by rw [hfl])
  rw [hfree, decide_eq_true hcount]
  exact (congrArg (fun n => repeatable (s.chip.programWord n _)) (thrKey_div t)).trans hword

end

/-- ROTW's sum of the window base and K, modulo 8. -/
theorem rotw_eq (w : BitVec 3) (k : BitVec 20) : w + k.extractLsb' 0 3 = BitVec.ofNat 3 (w.toNat + k.toNat) := by
  refine BitVec.eq_of_toNat_eq ?_
  rw [BitVec.toNat_add, BitVec.extractLsb'_toNat, BitVec.toNat_ofNat, Nat.shiftRight_zero, Nat.add_mod_mod]

/-- Settles O12: the condition, the count or the register named decides the flow; control words write by their own masks. -/
theorem programFlowResults : Obligations.ProgramFlowResults := by
  intro t s v th free x
  have legal {ofs : BitVec 11} (hfree : free) (hloop : th.loop = none) (hofs : ofs ≠ 0) : loopLegal v ofs = true :=
    loopLegal_of hfree hloop hofs
  have legalLc {ofs : BitVec 11} (hfree : free) (hloop : th.loop = none) (hofs : ofs ≠ 0) :
      (loopLegal v ofs && (0 : BitVec 12) == 0) = true := by rw [legal hfree hloop hofs]; rfl
  refine ⟨fun cond l ind xr target hfree hc ht => issuesAs_branch hfree hc ht rfl rfl,
    fun cond l ind xr target hfree hc ht => issuesAs_branch hfree hc ht rfl rfl,
    fun xd target hfree hx => issuesAs_dbnz hfree rfl (if_neg ?more),
    fun xd target hfree hx => issuesAs_dbnz hfree ?last rfl,
    fun ofs hfree hloop hofs hlc => issue_as rfl (legalLc hfree hloop hofs) rfl rfl (loopFlow_pos v ofs hlc) rfl,
    fun ofs hfree hloop hofs hlc => issue_as rfl (legalLc hfree hloop hofs) rfl rfl (loopFlow_zero v ofs hlc) rfl,
    fun count ofs hfree hloop hofs hn => issue_as rfl (legal hfree hloop hofs) rfl ?count (loopFlow_pos v ofs hn) rfl,
    fun ofs hfree hloop hofs => issue_as rfl (legal hfree hloop hofs) rfl rfl (loopFlow_zero v ofs rfl) rfl,
    fun count hfree hmax hn hword => issuesAs_rpti hfree hmax hword (rptFlow_pos v hn),
    fun xs hfree hmax hn hword => issuesAs_rptx hfree rfl hmax hword (rptFlow_pos v hn),
    fun hfree hword => ⟨issuesAs_rpti hfree (Nat.zero_le _) hword (rptFlow_zero v),
      fun xs hx => issuesAs_rptx hfree (congrArg BitVec.toNat hx) (Nat.zero_le _) hword (rptFlow_zero v)⟩,
    issuesAs_of_effect rfl rfl rfl, fun hfree => issuesAs_of_effect ?sync rfl rfl,
    fun k hk => issuesAs_of_effect (decide_eq_true hk) rfl (by rw [rotw_eq]),
    fun mask hmask => ?mask⟩
  case more =>
    intro h
    exact hx (sub_eq_zero.mp h)
  case last =>
    show x xd.toNat - 1 = 0
    rw [hx, sub_self]
  case count => exact congrArg (fun n => [(sID, RegWrite.lc n)]) (BitVec.ofNat_toNat 16 count).symm
  case sync =>
    rw [show v.th.confined = false from hfree]
    rfl
  case mask =>
    have hl : (mask &&& ~~~stMask == 0) = true := beq_iff_eq.mpr hmask
    exact ⟨issue_as rfl hl rfl rfl rfl rfl, issue_as rfl hl rfl rfl rfl rfl⟩

end Sys2Proof.Machine
end

section
/-!
SUPPORT. O16 and O17: the program counter through delay slots, loops and repeats; DONE, WAITE, SIGE and RTI.
-/

namespace Sys2Proof.Machine

/-! ### The next index (R184, R188 to R191) -/

/-- A thread past an instruction that is issued for the last time, as the loop logic at E answers (R189). -/
def Thread.pastLoop (th : Thread) : Option (Nat × BitVec 16 × Bool) → Thread
  | some (n, w, ended) =>
    { th with rpt := 0, pc := BitVec.ofNat 16 n, loop := if ended then none else th.loop,
              writes := insertPending ⟨th.slot + sID, th.slot, .lc w⟩ th.writes, slot := th.slot + (if ended then 3 else 1) }
  | none => { th with rpt := 0, pc := th.pc + 1, slot := th.slot + 1 }

/-- The same thread once its delay slots are counted, where those of `d` were left (R184). -/
def Thread.pastDelay (th : Thread) : Option (Nat × Option (BitVec 16)) → Thread
  | some (n, g) =>
    if n = 1 then { th with pc := g.getD th.pc, delay := none }
    else if 2 ≤ n then { th with delay := some (n - 1, g) } else th
  | none => th

section

variable {th : Thread}

/-- An instruction with repetitions left is issued again. -/
theorem advance_of_rpt (h : 1 < th.rpt) : th.advance = { th with rpt := th.rpt - 1, slot := th.slot + 1 } := if_pos h

/-- The loop logic decides the next index, and a branch whose last delay slot this is replaces it. -/
theorem advance_eq (hr : ¬ 1 < th.rpt) :
    th.advance = (th.pastLoop (th.loopEnd (th.view (th.slot + sID)).lc)).pastDelay th.delay := by
  obtain ⟨regs, writes, slot, pc, delay, loop, rpt, ef, state, wait, shadow, restart⟩ := th
  obtain _ | ⟨_ | _ | n, _ | g⟩ := delay
  all_goals exact if_neg hr

/-- A branch's delay slots leave the loop state alone. -/
theorem loop_pastDelay (d : Option (Nat × Option (BitVec 16))) : (th.pastDelay d).loop = th.loop := by
  obtain _ | ⟨n, g⟩ := d
  · rfl
  · rw [Thread.pastDelay]
    split_ifs <;> rfl

/-- Outside loops no instruction is the end of one. -/
theorem loopEnd_of_loop_none (h : th.loop = none) (lc : BitVec 16) : th.loopEnd lc = none := by
  rw [Thread.loopEnd, h]

/-- No instruction but the one at E is the end of a loop. -/
theorem loopEnd_of_pc_ne {s e : Nat} (h : th.loop = some (s, e)) (hpc : th.pc.toNat ≠ e) (lc : BitVec 16) :
    th.loopEnd lc = none := by
  rw [Thread.loopEnd, h]
  exact if_neg hpc

/-- With passes left the loop begins again at S. -/
theorem loopEnd_again {s e : Nat} {lc : BitVec 16} (hl : th.loop = some (s, e)) (hpc : th.pc.toNat = e) (h : 2 ≤ lc.toNat) :
    th.loopEnd lc = some (s, lc - 1, false) := by
  simp only [Thread.loopEnd, hl, hpc, h, if_true]

/-- In the last pass it ends past E. -/
theorem loopEnd_last {s e : Nat} {lc : BitVec 16} (hl : th.loop = some (s, e)) (hpc : th.pc.toNat = e) (h : lc.toNat < 2) :
    th.loopEnd lc = some (e + 1, 0, true) := by
  simp only [Thread.loopEnd, hl, hpc, Nat.not_le.mpr h, if_true, if_false]

/-- Outside loops the program goes on at the next index, or where its delay slots say. -/
theorem advance_of_loop_none {d : Option (Nat × Option (BitVec 16))} (hr : ¬ 1 < th.rpt) (hl : th.loop = none)
    (hd : th.delay = d) : th.advance = (th.pastLoop none).pastDelay d := by
  rw [advance_eq hr, loopEnd_of_loop_none hl, hd]

/-- Outside delay slots the loop logic's answer stands. -/
theorem advance_of_delay_none {x : Option (Nat × BitVec 16 × Bool)} (hr : ¬ 1 < th.rpt) (hd : th.delay = none)
    (hx : th.loopEnd (th.view (th.slot + sID)).lc = x) : th.advance = th.pastLoop x := by
  rw [advance_eq hr, hx, hd, Thread.pastDelay]

/-- Outside loops no branch leaves one. -/
theorem leaveLoop_of_loop_none (h : th.loop = none) (g : Option (BitVec 16)) : leaveLoop th g = th := by
  unfold leaveLoop
  rw [h]

/-- A branch outside loops and its two delay slots. -/
theorem flow_delayed_seq_seq (g : Option (BitVec 16)) (hd : th.delay = none) (hr : th.rpt = 0) (hl : th.loop = none) :
    ((th.flow (.delayed g)).flow .seq).flow .seq =
      { th with rpt := 0, pc := g.getD (th.pc + 3), slot := th.slot + 3, delay := none } := by
  have hnone : ¬ 1 < 0 := by decide
  have hbranch : th.flow (.delayed g) = { th with rpt := 0, pc := th.pc + 1, slot := th.slot + 1, delay := some (2, g) } := by
    rw [Thread.flow, leaveLoop_of_loop_none hl, advance_of_loop_none (by omega) hl hd]
    rfl
  have hfirst : (th.flow (.delayed g)).flow .seq =
      { th with rpt := 0, pc := th.pc + 1 + 1, slot := th.slot + 1 + 1, delay := some (1, g) } := by
    rw [hbranch]
    exact advance_of_loop_none (d := some (2, g)) hnone hl rfl
  have hpc : th.pc + 1 + 1 + 1 = th.pc + 3 := by
    rw [add_assoc, add_assoc]
    rfl
  rw [hfirst, ← hpc]
  exact advance_of_loop_none (d := some (1, g)) hnone hl rfl

/-- An instruction that is not the end of a loop leaves the loop state alone. -/
theorem loop_advance (hr : ¬ 1 < th.rpt) (h : ∀ lc, th.loopEnd lc = none) : th.advance.loop = th.loop := by
  rw [advance_eq hr, loop_pastDelay, h, Thread.pastLoop]

/-- A branch out of a loop's body ends the loop, one within it does not (R190). -/
theorem leaveLoop_of_loop {s e : Nat} (g : BitVec 16) (h : th.loop = some (s, e)) :
    leaveLoop th (some g) = if s ≤ g.toNat ∧ g.toNat ≤ e then th else { th with loop := none } := by
  unfold leaveLoop
  rw [h]

/-- A branch from a place of a loop other than E keeps the loop state where its target lies in the loop (R190). -/
theorem loop_flow_delayed {s e : Nat} (g : BitVec 16) (hr : ¬ 1 < th.rpt) (hl : th.loop = some (s, e))
    (hpc : th.pc.toNat ≠ e) :
    (th.flow (.delayed (some g))).loop = if s ≤ g.toNat ∧ g.toNat ≤ e then some (s, e) else none := by
  show (leaveLoop th (some g)).advance.loop = _
  rw [leaveLoop_of_loop g hl]
  split
  · rw [loop_advance hr (loopEnd_of_pc_ne hl hpc), hl]
  · exact loop_advance hr (loopEnd_of_loop_none rfl)

/-- The value of LC once the one pending write has landed. -/
theorem lc_settled_one {c n : Nat} {w : BitVec 16} (h : th.writes = [⟨c, n, .lc w⟩]) : th.settled.lc = w := by
  rw [Thread.settled, h]
  rfl

/-- What a loop's logic writes to LC at E, where nothing else is pending, is what LC then holds. -/
theorem lc_settled_pastLoop {n : Nat} {w : BitVec 16} {ended : Bool} (h : th.writes = []) :
    (th.pastLoop (some (n, w, ended))).settled.lc = w := by
  refine lc_settled_one (c := th.slot + sID) (n := th.slot) ?_
  rw [Thread.pastLoop, h, insertPending]

end

/-- Settles O16: what stands at an instruction (a delay slot, the end of a loop, a repeat) decides the next index. -/
theorem branchesLoopsAndRepeats : Obligations.BranchesLoopsAndRepeats := by
  refine ⟨fun th g hd hr hl => ?delay, fun th e s hd hr hl hpc => ?loop, fun th s e g hd hr hl hpc => ?leave,
    fun th hd hl hr => ?again, fun th hd hl hr => ?last⟩
  case delay =>
    rw [flow_delayed_seq_seq (some g) hd hr hl, flow_delayed_seq_seq none hd hr hl]
    exact ⟨rfl, rfl, rfl, rfl⟩
  case loop =>
    have hend {x : Option (Nat × BitVec 16 × Bool)} (hx : th.loopEnd (th.view (th.slot + sID)).lc = x) :
        th.flow .seq = th.pastLoop x := advance_of_delay_none (by omega) hd hx
    intro lc
    refine ⟨fun hlc => ?_, fun hlc => ?_⟩
    · rw [hend (loopEnd_again hl hpc hlc)]
      exact ⟨rfl, hl, rfl, lc_settled_pastLoop⟩
    · rw [hend (loopEnd_last hl hpc hlc)]
      exact ⟨rfl, rfl, rfl, lc_settled_pastLoop⟩
  case leave => exact loop_flow_delayed g (by omega) hl hpc
  case again =>
    rw [Thread.flow, advance_of_rpt hr]
    exact ⟨rfl, rfl⟩
  case last =>
    rw [Thread.flow, advance_of_loop_none (by omega) hl hd]
    exact ⟨rfl, rfl⟩

/-! ### DONE, WAITE, SIGE and RTI (R193, R206, R209, R210, R215) -/

/-- DONE on a thread 1 to 3 ends the thread. -/
theorem endRun_thread {k : Nat} (c : Chip) (h : k % 4 ≠ 0) :
    endRun k c = modThread k (fun th => { th with state := .idle, wait := .none }) c := if_neg h

/-- DONE on a thread 0 that runs no effects task is marked for the task board (R193). -/
theorem endRun_voice {k : Nat} {c : Chip} (h : k % 4 = 0) (ht : ∀ n, (c.core (k / 4)).running ≠ .task n) :
    endRun k c = modCore (k / 4) (fun r => { r with doneAt := true }) c := by
  rw [endRun, if_pos h]
  split
  case h_1 n hn => exact absurd hn (ht n)
  case h_2 => rfl

/-- DONE outside a handler and the places of R187 drains the thread and ends what it runs. -/
theorem issuesAs_doneI {t : Thr} {s : State} {c : Chip} (hfree : (s.chip.views (thrKey t)).th.confined = false)
    (hsh : (s.chip.views (thrKey t)).th.shadow = none) (hc : endRun (thrKey t) s.chip = c) :
    IssuesAs (.doneI t 0) t s [] .ended c := by
  refine issue_as rfl ?_ rfl rfl rfl hc
  rw [hfree, hsh]
  rfl

/-- The flags that WAITE asks for, and the register it answers in. -/
theorem waite_fields (xd : BitVec 4) (mask : BitVec 16) :
    (xd ++ mask).extractLsb' 0 16 = mask ∧ (xd ++ mask).extractLsb' 16 4 = xd := by
  refine ⟨?_, BitVec.extractLsb'_append_eq_left⟩
  rw [BitVec.extractLsb'_append_eq_of_add_le (by decide), BitVec.extractLsb'_eq_self]

/-- Without an interrupt to take WAITE issues, and takes the flags it asks for or parks (R209). -/
theorem issuesAs_waite {t : Thr} {s : State} {xd : BitVec 4} {mask got : BitVec 16} {ws : List (Nat × RegWrite)} {fl : Flow}
    {c : Chip} (hint : s.chip.canInterrupt (thrKey t) = false) (hfree : (s.chip.views (thrKey t)).th.confined = false)
    (hm : mask ≠ 0) (hgot : (s.chip.views (thrKey t)).th.ef &&& mask = got)
    (he : (if got = 0 then { flow := .stay, chip := park (thrKey t) (.flags mask) s.chip }
      else { writes := [(sMA, .x (physX (s.chip.views (thrKey t)).id xd.toNat) got)],
             chip := modThread (thrKey t) (fun th => { th with ef := th.ef &&& ~~~got, state := .run, wait := .none }) s.chip }) =
      ({ writes := ws, flow := fl, chip := c } : Effect)) : IssuesAs (.waite t (xd ++ mask)) t s ws fl c := by
  obtain ⟨hmask, hxd⟩ := waite_fields xd mask
  refine issuesAs_of_effect ?_ (if_neg (Bool.eq_false_iff.mp hint)) (.trans ?_ he)
  · rw [hmask, hfree, bne_iff_ne.mpr hm]
    rfl
  · simp only [hmask, hxd, hgot]
    rfl

section

variable (core : BitVec 4) (thread : BitVec 2) (self : BitVec 1) (flag : BitVec 4)

/-! The fields of SIGE: core, thread, SELF, nine reserved bits and the flag (R210). -/

theorem sige_core : (core ++ thread ++ self ++ 0#9 ++ flag).extractLsb' 16 4 = core := by
  rw [BitVec.extractLsb'_append_eq_of_le (by decide), BitVec.extractLsb'_append_eq_of_le (by decide),
    BitVec.extractLsb'_append_eq_of_le (by decide)]
  exact BitVec.extractLsb'_append_eq_left

theorem sige_thread : (core ++ thread ++ self ++ 0#9 ++ flag).extractLsb' 14 2 = thread := by
  rw [BitVec.extractLsb'_append_eq_of_le (by decide), BitVec.extractLsb'_append_eq_of_le (by decide),
    BitVec.extractLsb'_append_eq_of_le (by decide), BitVec.extractLsb'_append_eq_of_add_le (by decide)]
  exact BitVec.extractLsb'_eq_self

theorem sige_self : (core ++ thread ++ self ++ 0#9 ++ flag).getLsbD 13 = self.getLsbD 0 := by
  rw [BitVec.getLsbD_append, if_neg (by decide), BitVec.getLsbD_append, if_neg (by decide), BitVec.getLsbD_append,
    if_pos (by decide)]

theorem sige_reserved : (core ++ thread ++ self ++ 0#9 ++ flag).extractLsb' 4 9 = 0 := by
  rw [BitVec.extractLsb'_append_eq_of_le (by decide), BitVec.extractLsb'_append_eq_of_add_le (by decide)]
  exact BitVec.extractLsb'_eq_self

theorem sige_flag : (core ++ thread ++ self ++ 0#9 ++ flag).extractLsb' 0 4 = flag := by
  rw [BitVec.extractLsb'_append_eq_of_add_le (by decide)]
  exact BitVec.extractLsb'_eq_self

end

/-- SIGE with SELF 0, or with SELF 1 and core 0, sets its flag on the thread `k` that it names. -/
theorem issuesAs_sige {t : Thr} {s : State} {core flag : BitVec 4} {thread : BitVec 2} {self : BitVec 1} {k : Nat}
    (hfree : (s.chip.views (thrKey t)).th.confined = false) (hself : self.getLsbD 0 = true → core = 0)
    (hk : 4 * (if self.getLsbD 0 then thrKey t / 4 else thrKey t / 64 * 16 + core.toNat) + thread.toNat = k) :
    IssuesAs (.sige t (core ++ thread ++ self ++ 0#9 ++ flag)) t s [] .seq (setFlag k flag.toNat s.chip) := by
  refine issuesAs_of_effect ?_ rfl ?_
  · rw [hfree, sige_reserved, sige_self, sige_core, Bool.and_eq_true, Bool.or_eq_true, Bool.not_eq_true', beq_iff_eq]
    exact ⟨rfl, Decidable.or_iff_not_imp_left.mpr fun h => hself (by simpa using h)⟩
  · rw [sigeTarget, sige_self, sige_core, sige_thread, sige_flag]
    exact congrArg (fun k => ({ chip := setFlag k flag.toNat s.chip } : Effect)) hk

/-- RTI returns to the shadow (R215). -/
theorem issuesAs_rti {t : Thr} {s : State} {sh : Shadow} (hfree : (s.chip.views (thrKey t)).th.confined = false)
    (hsh : (s.chip.views (thrKey t)).th.shadow = some sh) :
    IssuesAs (.rti t 0) t s [] (.jump sh.pc 2) (modThread (thrKey t) (fun th =>
      { th with regs := { th.settled with st := sh.st }, writes := [], loop := sh.loop, shadow := none }) s.chip) := by
  refine issuesAs_of_effect ?_ rfl ?_
  · rw [hfree, hsh]
    rfl
  · simp only [hsh]
    rfl

/-- Settles O17: the thread's number and what it runs decide DONE, its flags WAITE, SELF the target of SIGE, the shadow RTI. -/
theorem threadControlResults : Obligations.ThreadControlResults := by
  intro t s k c v free
  refine ⟨fun hfree hsh ht => issuesAs_doneI hfree hsh (endRun_thread c ?thread),
    fun hfree hsh ht hrun => issuesAs_doneI hfree hsh ?voice,
    fun xd mask hint hfree hm hgot => issuesAs_waite hint hfree hm rfl (if_neg hgot),
    fun xd mask hint hfree hm hgot => issuesAs_waite hint hfree hm hgot (if_pos rfl),
    fun opnd hint => leaves_onChip (if_pos hint) rfl,
    fun core thread flag hfree => ⟨issuesAs_sige hfree (fun h => absurd h (by decide)) ?gang,
      issuesAs_sige hfree (fun _ => rfl) ?self⟩,
    fun sh hfree hsh => issuesAs_rti hfree hsh⟩
  case thread =>
    rw [thrKey_mod]
    exact fun h => ht (Fin.ext h)
  case voice =>
    have h0 : thrKey t % 4 = 0 := by rw [thrKey_mod, ht]; rfl
    rw [← thrKey_div] at hrun
    rw [endRun_voice h0 hrun, thrKey_div]
  case gang =>
    have hgang : thrKey t / 64 = t.core.val / 16 := by
      unfold thrKey
      omega
    rw [if_neg (by decide), hgang]
  case self => rw [if_pos (by decide), thrKey_div]

end Sys2Proof.Machine
end

section
/-!
SUPPORT. O14: TAPM, and the block instructions as a loop over words that ends, or is stopped and resumed.
-/

namespace Sys2Proof.Machine

/-! ### The loop of a block instruction (R198, R199) -/

/-- Where a block instruction begins: at its first word, or where BX left it. -/
def blockStart (v : Views) : Nat := if v.ag.bx.msb then (v.ag.bx.extractLsb' 0 13).toNat else 0

/-- Where it ends: at its last word, or before that where it is stopped. -/
def blockStop (n : Nat) (stopAt : Option (BitVec 13)) : Nat :=
  match stopAt with
  | some i => min n i.toNat
  | none => n

/-- What a block instruction of `n` words leaves when its loop has ended as `b`. -/
def blockEnd (n : Nat) (fin : BlockRun → List (Nat × RegWrite)) (b : BlockRun) : Effect :=
  let finished := n ≤ b.done || b.fault.isSome
  { writes := fin b ++ [(sAG, .bx (if finished then 0 else BitVec.ofNat 16 (0x8000 + b.done)))],
    flow := if finished then .seq else .stay, chip := b.chip, fault := b.fault }

theorem blockStop_le (n : Nat) (stopAt : Option (BitVec 13)) : blockStop n stopAt ≤ n := by
  cases stopAt
  · exact Nat.le_refl n
  · exact Nat.min_le_left ..

theorem blockEffect_eq_blockEnd (v : Views) (c : Chip) (ps pd n x0 : Nat) (stopAt : Option (BitVec 13))
    (word : BlockRun → BlockRun) (fin : BlockRun → List (Nat × RegWrite)) :
    blockEffect v c ps pd n x0 stopAt word fin = blockEnd n fin (blockLoop word (blockStop n stopAt) (n - blockStart v)
      ⟨blockStart v, v.p v.ag ps, v.p v.ag pd, x0, c, none⟩) := rfl

section

variable {word : BlockRun → BlockRun} {run : Nat → BlockRun} {start stop : Nat}

/-- A loop whose every word takes `run i` to `run (i + 1)` without a fault ends at `stop`. -/
theorem blockLoop_eq_run (hdone : ∀ i, (run i).done = start + i) (hfault : ∀ i, (run i).fault = none)
    (hword : ∀ i, i < stop - start → word (run i) = run (i + 1)) (hle : start ≤ stop) :
    ∀ fuel i, i ≤ stop - start → stop - start ≤ i + fuel → blockLoop word stop fuel (run i) = run (stop - start)
  | 0, i, hi, hfuel => congrArg run (Nat.le_antisymm hi hfuel)
  | fuel + 1, i, hi, hfuel => by
    rw [blockLoop, hdone, hfault]
    obtain heq | hlt := hi.eq_or_lt
    · rw [if_pos (.inl (by omega)), heq]
    · rw [if_neg (by simp; omega), hword i hlt]
      exact blockLoop_eq_run hdone hfault hword hle fuel (i + 1) hlt (by omega)

end

/-- What a block instruction leaves whose words take `run 0`, its start, to `run` of the words done. -/
theorem blockEffect_of_run {v : Views} {c : Chip} {ps pd n x0 : Nat} {stopAt : Option (BitVec 13)}
    {word : BlockRun → BlockRun} {fin : BlockRun → List (Nat × RegWrite)} {run : Nat → BlockRun}
    (hstart : run 0 = ⟨blockStart v, v.p v.ag ps, v.p v.ag pd, x0, c, none⟩)
    (hdone : ∀ i, (run i).done = blockStart v + i) (hfault : ∀ i, (run i).fault = none)
    (hword : ∀ i, i < blockStop n stopAt - blockStart v → word (run i) = run (i + 1))
    (hle : blockStart v ≤ blockStop n stopAt) :
    blockEffect v c ps pd n x0 stopAt word fin =
      { writes := fin (run (blockStop n stopAt - blockStart v)) ++
          [(sAG, .bx (if n ≤ blockStop n stopAt then 0 else BitVec.ofNat 16 (0x8000 + blockStop n stopAt)))],
        flow := if n ≤ blockStop n stopAt then .seq else .stay,
        chip := (run (blockStop n stopAt - blockStart v)).chip } := by
  have hstop := blockStop_le n stopAt
  rw [blockEffect_eq_blockEnd, ← hstart,
    blockLoop_eq_run hdone hfault hword hle (n - blockStart v) 0 (Nat.zero_le _) (by omega), blockEnd, hdone, hfault,
    Nat.add_sub_of_le hle]
  simp only [Option.isSome_none, Bool.or_false, decide_eq_true_eq]

/-! ### BLKEXP and BMOV (R198) -/

/-- BLKEXP after `i` words from `p`, stepped by `next`, from word `start` with exponent `first`. -/
def blkexpRun (c : Chip) (k size : Nat) (next : BitVec 24 → BitVec 24) (p : BitVec 24) (start first i : Nat) : BlockRun :=
  { done := start + i, ps := Nat.repeat next i p, pd := p,
    x := (List.range i).foldl (fun m i => min m (leadingSigns (8 * size)
      (BitVec.ofNat (8 * size) (c.loadData k (Nat.repeat next i p).toNat size)) - 1)) first,
    chip := c, fault := none }

/-- The memory that BMOV leaves after `i` words. -/
def bmovChip (c : Chip) (k : Nat) (nextS nextD : BitVec 24 → BitVec 24) (src dst : BitVec 24) (i : Nat) : Chip :=
  (List.range i).foldl (fun c i => storeData k (Nat.repeat nextD i dst).toNat 4
    (c.loadData k (Nat.repeat nextS i src).toNat 4) c) c

/-- BMOV after `i` words. -/
def bmovRun (c : Chip) (k : Nat) (nextS nextD : BitVec 24 → BitVec 24) (src dst : BitVec 24) (start i : Nat) : BlockRun :=
  { done := start + i, ps := Nat.repeat nextS i src, pd := Nat.repeat nextD i dst, x := 0,
    chip := bmovChip c k nextS nextD src dst i, fault := none }

section

variable (c : Chip) (k : Nat) (p dst : BitVec 24) (next nextD : BitVec 24 → BitVec 24) (start i : Nat)

/-- One more word of BLKEXP takes the smaller exponent and steps the pointer. -/
theorem blkexpRun_succ (size first : Nat) : blkexpRun c k size next p start first (i + 1) =
    { blkexpRun c k size next p start first i with
      done := start + i + 1, ps := next (Nat.repeat next i p),
      x := min (blkexpRun c k size next p start first i).x (leadingSigns (8 * size)
        (BitVec.ofNat (8 * size) (c.loadData k (Nat.repeat next i p).toNat size)) - 1) } := by
  rw [blkexpRun, List.range_succ, List.foldl_append]
  rfl

/-- One more word of BMOV is read from what the words before have left, and written. -/
theorem bmovRun_succ : bmovRun c k next nextD p dst start (i + 1) =
    { bmovRun c k next nextD p dst start i with
      done := start + i + 1, ps := next (Nat.repeat next i p), pd := nextD (Nat.repeat nextD i dst),
      chip := storeData k (Nat.repeat nextD i dst).toNat 4
        ((bmovChip c k next nextD p dst i).loadData k (Nat.repeat next i p).toNat 4) (bmovChip c k next nextD p dst i) } := by
  rw [bmovRun, bmovChip, List.range_succ, List.foldl_append]
  rfl

end

/-- A block instruction of at most 4,096 words outside the places of R187 is legal. -/
theorem blockLegal_of {v : Views} {n w : Nat} (hfree : v.th.confined = false) (hn : n ≤ 4096) :
    ((0 : BitVec w) == 0 && !v.th.confined && decide (n ≤ 4096)) = true := by
  rw [hfree, decide_eq_true hn, beq_self_eq_true]
  rfl

/-- ROTW by one. -/
theorem wb_succ (w : BitVec 3) : w + 1 = BitVec.ofNat 3 (w.toNat + 1) := by
  rw [BitVec.ofNat_add, BitVec.ofNat_toNat, BitVec.setWidth_eq]
  rfl

/-- Settles O14: TAPM is a load, a store two octets up and a product; a block's words are a run from where BX left it to where it
ends or is stopped. -/
theorem tapAndBlockResults : Obligations.TapAndBlockResults := by
  intro t s k v c ptr next start bxLeft on
  refine ⟨fun ad xc ps r hload hstore => ?tapm, fun xd ps xc w stopAt => ?blkexp, fun pd ps xc stopAt => ?bmov⟩
  case tapm =>
    intro d p sum
    refine issue_as rfl rfl ((Option.orElse_eq_none _ _).mpr ⟨hload, hstore⟩) ?_ rfl rfl
    dsimp only
    rw [wb_succ]
    rfl
  case blkexp =>
    intro n stop size first place hfree hn hle hok
    refine issuesAs_of_effect (blockLegal_of hfree hn) rfl (blockEffect_of_run
      (run := blkexpRun c k size (next ps) (ptr ps) start first) rfl (fun _ => rfl) (fun _ => rfl) (fun i hi => ?_) hle)
    rw [blkexpRun_succ]
    dsimp only
    split
    case h_1 e he => exact absurd ((hok i hi).symm.trans he) (Option.some_ne_none e).symm
    case h_2 => rfl
  case bmov =>
    intro n stop src dst copied hfree hn hle hok
    refine issuesAs_of_effect (blockLegal_of hfree hn) rfl (blockEffect_of_run
      (run := bmovRun c k (next ps) (next pd) (ptr ps) (ptr pd) start) rfl (fun _ => rfl) (fun _ => rfl) (fun i hi => ?_) hle)
    rw [bmovRun_succ]
    dsimp only
    split
    case h_1 e he => exact absurd (((Option.orElse_eq_none _ _).mpr (hok i hi)).symm.trans he) (Option.some_ne_none e).symm
    case h_2 => rfl

end Sys2Proof.Machine
end

section
/-!
SUPPORT. O18: entry into a handler, and the preemption of threads by READY ones.
-/

namespace Sys2Proof.Machine

/-! ### Entry into a handler (R212, R213) -/

/-- A thread in the handler of flag `f`, with the vectors at `base`: all it had issued before has landed, and what it leaves for RTI
stands in the shadow. -/
def Thread.inHandler (base f : Nat) (th : Thread) : Thread :=
  { th with regs := { th.settled with st := th.settled.st &&& ~~~0x00040000#32 }, writes := [], slot := th.slot - 4 + 7,
            pc := BitVec.ofNat 16 (base + 4 * f), loop := none, ef := th.ef &&& ~~~(1#16 <<< f), wait := .none,
            shadow := some ⟨th.pc, th.settled.st, th.loop⟩, state := if th.state = .parked then .run else th.state }

/-- The interrupt taken is the pending one. -/
theorem enterInterrupt_of_pending {k f : Nat} {c : Chip} (h : c.pendingInt k = some f) :
    enterInterrupt k c = modThread k (Thread.inHandler (c.intBase k) f) c := by
  rw [enterInterrupt, h]
  rfl

/-- A thread's state is the one R201 names, but that OFF reads as IDLE on thread 0. -/
theorem state_of_threadState {k : Nat} {c : Chip} {st : ThreadState} (h : c.threadState k = st) (hidle : st ≠ .idle) :
    (c.thread k).state = st := by
  unfold Chip.threadState at h
  split at h
  · exact absurd h.symm hidle
  · exact h

/-- A thread in RUN or PARKED whose interrupt may be taken enters the handler of its pending flag. -/
theorem leaves_interruptEntry {t : Thr} {s : State} {f : Nat} (hc : s.chip.canInterrupt (thrKey t) = true)
    (hf : s.chip.pendingInt (thrKey t) = some f)
    (hs : s.chip.threadState (thrKey t) = .run ∨ s.chip.threadState (thrKey t) = .parked) :
    Leaves (.interruptEntry t) s (modThread (thrKey t) (Thread.inHandler (s.chip.intBase (thrKey t)) f) s.chip) := by
  have htaken : (s.chip.canInterrupt (thrKey t) &&
      (s.chip.threadState (thrKey t) == .run || s.chip.threadState (thrKey t) == .parked)) = true := by
    simpa [hc] using hs
  exact leaves_onChip rfl ((if_pos htaken).trans (enterInterrupt_of_pending hf))

/-! ### Thread switches (R202, R203) -/

section

variable {core : Fin 256} {s : State} {n o : Nat}

/-- With none in RUN the first READY thread begins. -/
theorem leaves_threadSwitch_begins (hn : s.chip.readyThread core.val = some n) (hr : s.chip.runThread core.val = none) :
    Leaves (.threadSwitch core) s (modThread (4 * core.val + n) (fun th => { th with state := .run }) s.chip) := by
  refine leaves_onChip (execThreadSwitch.eq_def core s) ?_
  simp only [hn, hr]

/-- A READY thread of a lower number than the one in RUN takes its place outside a delay slot. -/
theorem leaves_threadSwitch_preempts (hn : s.chip.readyThread core.val = some n) (ho : s.chip.runThread core.val = some o)
    (hlt : n < o) (hd : (s.chip.thread (4 * core.val + o)).delay = none) :
    Leaves (.threadSwitch core) s
      (modThread (4 * core.val + n) (fun th => { th with state := .run }) (switchOut (4 * core.val + o) s.chip)) := by
  refine leaves_onChip (execThreadSwitch.eq_def core s) ?_
  simp only [hn, ho, hlt, hd, Option.isNone_none, and_self, if_true]

/-- One of a higher number, or one that finds a delay slot, does not. -/
theorem leaves_threadSwitch_held (hn : s.chip.readyThread core.val = some n) (ho : s.chip.runThread core.val = some o)
    (h : o < n ∨ (s.chip.thread (4 * core.val + o)).delay ≠ none) : Leaves (.threadSwitch core) s s.chip := by
  have hheld : ¬(n < o ∧ (s.chip.thread (4 * core.val + o)).delay.isNone) := by
    rw [Option.isNone_iff_eq_none]
    rintro ⟨hlt, hd⟩
    exact h.elim (fun hgt => Nat.lt_asymm hlt hgt) (absurd hd)
  refine leaves_onChip (execThreadSwitch.eq_def core s) ?_
  simp only [hn, ho, if_neg hheld]

end

/-- What an outgoing thread had issued has landed; its program stays where it is. -/
theorem thread_switchOut (k : Nat) (c : Chip) :
    (switchOut k c).thread k =
      { c.thread k with regs := (c.thread k).settled, writes := [], slot := (c.thread k).slot - 4 + 7, state := .ready } :=
  thread_modThread_same c k _

theorem thread_switchOut_other {k j : Nat} (c : Chip) (h : j ≠ k) : (switchOut k c).thread j = c.thread j :=
  thread_modThread_other c _ h

/-- Settles O18: the handler is entered as `Thread.inHandler` says, and a switch changes the record of the READY thread and, where it
preempts, that of the one in RUN.  That all writes in flight land at once is the model's reading (log entry 53). -/
theorem interruptsAndThreadSwitches : Obligations.InterruptsAndThreadSwitches := by
  refine ⟨fun t s f => ?entry, fun core s n => ?switch⟩
  case entry =>
    intro k c hc hf hs
    refine ⟨_, leaves_interruptEntry hc hf hs, ?_⟩
    have hrun : (if (c.thread k).state = .parked then .run else (c.thread k).state) = ThreadState.run := by
      obtain hs | hs := hs
      · rw [state_of_threadState hs (by decide), if_neg (by decide)]
      · rw [if_pos (state_of_threadState hs (by decide))]
    dsimp only
    rw [thread_modThread_same]
    exact ⟨rfl, rfl, rfl, rfl, rfl, rfl, hrun, fun j hj => thread_modThread_other _ _ hj, rfl⟩
  case switch =>
    intro c at_ hn
    refine ⟨fun hr => ⟨_, leaves_threadSwitch_begins hn hr, ?begins, rfl⟩,
      fun o ho hlt hd => ⟨_, leaves_threadSwitch_preempts hn ho hlt hd, ?preempts⟩,
      fun o ho h => leaves_threadSwitch_held hn ho h⟩
    case begins => exact congrArg Thread.state (thread_modThread_same _ _ _)
    case preempts =>
      have hne : at_ o ≠ at_ n := fun h => Nat.ne_of_gt hlt (Nat.add_left_cancel h)
      dsimp only
      rw [thread_modThread_same, thread_modThread_other _ _ hne, thread_switchOut]
      exact ⟨rfl, rfl, rfl, rfl, fun j hn ho => (thread_modThread_other _ _ hn).trans (thread_switchOut_other c ho)⟩

end Sys2Proof.Machine
end

section
/-!
SUPPORT. O19: SEMA and SEMR by who holds the semaphore, and the revocation of one lapsed lease.
-/

namespace Sys2Proof.Machine

/-! ### SEMA (R218, R219) -/

section

variable (xd : BitVec 4) (try_ : BitVec 1) (sem : BitVec 6)

/-! The fields of SEMA: XD, a reserved bit, TRY, eight reserved bits and the semaphore. -/

theorem sema_xd : (xd ++ 0#1 ++ try_ ++ 0#8 ++ sem).extractLsb' 16 4 = xd := by
  rw [BitVec.extractLsb'_append_eq_of_le (by decide), BitVec.extractLsb'_append_eq_of_le (by decide),
    BitVec.extractLsb'_append_eq_of_le (by decide)]
  exact BitVec.extractLsb'_append_eq_left

theorem sema_reserved_high : (xd ++ 0#1 ++ try_ ++ 0#8 ++ sem).getLsbD 15 = false := by
  rw [BitVec.getLsbD_append, if_neg (by decide), BitVec.getLsbD_append, if_neg (by decide), BitVec.getLsbD_append,
    if_neg (by decide), BitVec.getLsbD_append, if_pos (by decide)]
  rfl

theorem sema_try : (xd ++ 0#1 ++ try_ ++ 0#8 ++ sem).getLsbD 14 = try_.getLsbD 0 := by
  rw [BitVec.getLsbD_append, if_neg (by decide), BitVec.getLsbD_append, if_neg (by decide), BitVec.getLsbD_append,
    if_pos (by decide)]

theorem sema_reserved_low : (xd ++ 0#1 ++ try_ ++ 0#8 ++ sem).extractLsb' 6 8 = 0 := by
  rw [BitVec.extractLsb'_append_eq_of_le (by decide), BitVec.extractLsb'_append_eq_of_add_le (by decide)]
  exact BitVec.extractLsb'_eq_self

theorem sema_sem : (xd ++ 0#1 ++ try_ ++ 0#8 ++ sem).extractLsb' 0 6 = sem := by
  rw [BitVec.extractLsb'_append_eq_of_add_le (by decide)]
  exact BitVec.extractLsb'_eq_self

end

/-- The effect of SEMA by thread `k` on semaphore `n` of its gang, with physical register `xd` for the answer. -/
def semaEffect (k n xd : Nat) (try_ : Bool) (c : Chip) : Effect :=
  let gang := k / 64
  let x := c.sem gang n
  if x.held.isNone then { writes := [(sMX, .x xd (if x.revoked then 3 else 1))], chip := grantSem gang n k c }
  else if holds x k then
    { writes := [(sMX, .x xd 1)],
      chip := modSem gang n (fun y => { y with held := y.held.map (fun h => { h with expiry := c.semExpiry gang }) }) c }
  else if try_ then { writes := [(sMX, .x xd 0)], chip := c }
  else
    let me := (k / 4, k % 4, xd)
    { flow := .stay, chip := park k (.sema n xd) (modSem gang n (fun y =>
        { y with queue := if y.queue.contains me then y.queue else y.queue ++ [me] }) c) }

/-- Outside the places of R187 SEMA issues as its effect says. -/
theorem issuesAs_sema {t : Thr} {s : State} {xd : BitVec 4} {try_ : BitVec 1} {sem : BitVec 6} {ws : List (Nat × RegWrite)}
    {fl : Flow} {c : Chip} (hfree : (s.chip.views (thrKey t)).th.confined = false)
    (he : semaEffect (thrKey t) sem.toNat (physX (s.chip.views (thrKey t)).id xd.toNat) (try_.getLsbD 0) s.chip =
      { writes := ws, flow := fl, chip := c }) : IssuesAs (.sema t (xd ++ 0#1 ++ try_ ++ 0#8 ++ sem)) t s ws fl c := by
  refine issuesAs_of_effect ?_ rfl (.trans ?_ he)
  · rw [hfree, sema_reserved_high, sema_reserved_low]
    rfl
  · rw [sema_xd, sema_try, sema_sem]
    rfl

section

variable {k n : Nat} {c : Chip} (xd : Nat) {try_ : Bool}

/-- A free semaphore is granted; the answer tells whether its last lease was revoked. -/
theorem semaEffect_free (h : (c.sem (k / 64) n).held = none) : semaEffect k n xd try_ c =
    { writes := [(sMX, .x xd (if (c.sem (k / 64) n).revoked then 3 else 1))], chip := grantSem (k / 64) n k c } :=
  if_pos (by rw [h]; rfl)

variable {h : SemHold} (hx : (c.sem (k / 64) n).held = some h)

include hx

/-- Who holds a held semaphore. -/
theorem holds_of_held : holds (c.sem (k / 64) n) k = (4 * h.core + h.thread == k) := by
  rw [holds, hx]

/-- What SEMA does to a held semaphore turns on whether its thread is the holder. -/
theorem semaEffect_held : semaEffect k n xd try_ c =
    if 4 * h.core + h.thread = k then
      { writes := [(sMX, .x xd 1)], chip := modSem (k / 64) n (fun y =>
          { y with held := y.held.map (fun h => { h with expiry := c.semExpiry (k / 64) }) }) c }
    else if try_ then { writes := [(sMX, .x xd 0)], chip := c }
    else { flow := .stay, chip := park k (.sema n xd) (modSem (k / 64) n (fun y =>
        { y with queue := if y.queue.contains (k / 4, k % 4, xd) then y.queue else y.queue ++ [(k / 4, k % 4, xd)] }) c) } := by
  simp only [semaEffect, holds_of_held hx, hx, Option.isNone_some, Bool.false_eq_true, if_false, beq_iff_eq]

end

/-- Two changes of a semaphore that agree on its record leave the same. -/
theorem modSem_congr {gang n : Nat} {f g : Sem → Sem} {c : Chip} (h : f (c.sem gang n) = g (c.sem gang n)) :
    modSem gang n f c = modSem gang n g c := by
  unfold modSem modTrowel tmod
  exact congrArg (fun y => { c with trowel := { c.trowel with sems := tset {} c.trowel.sems (64 * gang + n) y } }) h

/-! ### SEMR (R219, R220) -/

/-- The fields of SEMR: fourteen reserved bits and the semaphore. -/
theorem semr_fields (sem : BitVec 6) : (0#14 ++ sem).extractLsb' 6 14 = 0 ∧ (0#14 ++ sem).extractLsb' 0 6 = sem := by
  refine ⟨BitVec.extractLsb'_append_eq_left, ?_⟩
  rw [BitVec.extractLsb'_append_eq_of_add_le (by decide), BitVec.extractLsb'_eq_self]

/-- Outside the places of R187 SEMR passes on the semaphore of its holder, does nothing for a former holder, and is logged for any
other thread. -/
theorem issuesAs_semr {t : Thr} {s : State} {sem : BitVec 6} {h : SemHold} {c : Chip}
    (hfree : (s.chip.views (thrKey t)).th.confined = false) (hx : (s.chip.sem (thrKey t / 64) sem.toNat).held = some h)
    (hc : (if 4 * h.core + h.thread = thrKey t then passSem (thrKey t / 64) sem.toNat false s.chip
      else if (s.chip.sem (thrKey t / 64) sem.toNat).former.contains (thrKey t / 4, thrKey t % 4) then s.chip
      else snag 0x1006 (64 * (thrKey t / 64) + sem.toNat) (s.chip.semTenant (thrKey t)) s.chip) = c) :
    IssuesAs (.semr t (0#14 ++ sem)) t s [] .seq c := by
  obtain ⟨hreserved, hsem⟩ := semr_fields sem
  refine issue_as rfl ?_ rfl rfl rfl (.trans ?_ hc)
  · rw [hfree, hreserved]
    rfl
  · simp only [hsem, Chip.views, holds_of_held hx, beq_iff_eq]

/-- With no thread in its queue a semaphore stands free. -/
theorem passSem_free {gang n : Nat} {c : Chip} (h : (c.sem gang n).queue = []) (revoked : Bool) :
    passSem gang n revoked c = modSem gang n (fun y => { y with held := none, revoked := revoked || y.revoked }) c := by
  rw [passSem, h]

/-- Else the first in its queue is granted it. -/
theorem passSem_next {gang n : Nat} {c : Chip} {w : Nat × Nat × Nat} {rest : List (Nat × Nat × Nat)}
    (h : (c.sem gang n).queue = w :: rest) (revoked : Bool) :
    passSem gang n revoked c = wakeSem (4 * w.1 + w.2.1) w.2.2 (if revoked then 3 else 1) (grantSem gang n (4 * w.1 + w.2.1)
      (modSem gang n (fun y => { y with queue := rest, held := none }) c)) := by
  rw [passSem, h]

/-! ### Revocation (R220) -/

/-- The lease on a held semaphore is revoked: its holder is a former one, takes EF11, and the semaphore is passed on. -/
theorem revokeSem_of_held {gang n : Nat} {c : Chip} {h : SemHold} (hx : (c.sem gang n).held = some h) :
    revokeSem gang n c = passSem gang n true (setFlag (4 * h.core + h.thread) 11 (modSem gang n (fun y =>
      { y with former := (h.core, h.thread) :: y.former.filter (· != (h.core, h.thread)) }) c)) := by
  rw [revokeSem, hx]

/-- While no lease has lapsed nothing is revoked. -/
theorem leaves_semaphoreRevoke_none {s : State} (h : s.chip.lapsedSems = []) : Leaves .semaphoreRevoke s s.chip :=
  leaves_onChip rfl (by rw [h]; rfl)

/-- The one lease that has lapsed is revoked. -/
theorem leaves_semaphoreRevoke_one {s : State} {gang n : Nat} (hn : n < 64) (h : s.chip.lapsedSems = [64 * gang + n]) :
    Leaves .semaphoreRevoke s (revokeSem gang n s.chip) := by
  have hgang : (64 * gang + n) / 64 = gang := by omega
  have hsem : (64 * gang + n) % 64 = n := by omega
  refine leaves_onChip rfl ?_
  rw [h]
  show revokeSem ((64 * gang + n) / 64) ((64 * gang + n) % 64) s.chip = _
  rw [hgang, hsem]

/-- The gang of a thread. -/
theorem thrKey_gang (t : Thr) : thrKey t / 64 = t.core.val / 16 := by
  unfold thrKey
  omega

/-- Settles O19: the holder's place, or that there is none, decides SEMA and SEMR, and the queue what SEMR passes on. -/
theorem semaphoreResults : Obligations.SemaphoreResults := by
  intro t xd sem s k c v gang x me sema semr answer lapse hfree
  have hgang : k / 64 = gang := thrKey_gang t
  have hcore : k / 4 = me.1 := thrKey_div t
  have hthread : k % 4 = me.2 := thrKey_mod t
  have hheld {h : SemHold} (hx : x.held = some h) : (c.sem (k / 64) sem.toNat).held = some h := by rw [hgang]; exact hx
  refine ⟨fun hx b => issuesAs_sema hfree ?free, fun h hx hc ht b => issuesAs_sema hfree ?renews,
    fun h hx hk => ⟨issuesAs_sema hfree ?refused, fun hq => issuesAs_sema hfree ?waits⟩,
    fun h hx hk hq => issuesAs_semr hfree (hheld hx) ?leftFree, fun h w rest hx hk hq => issuesAs_semr hfree (hheld hx) ?passed,
    fun h hx hk hf => issuesAs_semr hfree (hheld hx) ?former, fun h hx hk hf => issuesAs_semr hfree (hheld hx) ?foreign,
    leaves_semaphoreRevoke_none, fun h hl hx => ?lapsed⟩
  case free =>
    rw [semaEffect_free _ (hgang ▸ hx), grantSem, hgang, hcore, hthread]
    rfl
  case renews =>
    have hk : 4 * h.core + h.thread = thrKey t := by rw [hc, ht]; rfl
    rw [semaEffect_held _ (hheld hx), if_pos hk, hgang]
    rfl
  case refused =>
    rw [semaEffect_held _ (hheld hx), if_neg hk]
    rfl
  case waits =>
    rw [semaEffect_held _ (hheld hx), if_neg hk, hgang, hcore, hthread]
    refine congrArg (fun d => ({ flow := .stay, chip := park k _ d } : Effect)) (modSem_congr ?_)
    exact congrArg (fun q => { x with queue := q }) (if_neg (Bool.eq_false_iff.mp hq))
  case leftFree =>
    rw [if_pos hk, hgang, passSem_free hq]
    rfl
  case passed =>
    rw [if_pos hk, hgang, passSem_next hq]
    rfl
  case former => rw [if_neg hk, hgang, hcore, hthread, if_pos hf]
  case foreign => rw [if_neg hk, hgang, hcore, hthread, if_neg (Bool.eq_false_iff.mp hf)]
  case lapsed =>
    rw [← revokeSem_of_held hx]
    exact leaves_semaphoreRevoke_one sem.isLt hl

end Sys2Proof.Machine
end

section
/-!
SUPPORT. O22: the all-wait detector, the reinstatement of a core, and the thermal steps, trip and ungating.
-/

namespace Sys2Proof.Machine

/-! ### The all-wait detector (R222 to R225) -/

/-- An event source leaves the Trowel state alone. -/
@[simp] theorem raise_trowel (t v : Nat) (c : Chip) : (raise t v c).trowel = c.trowel := by
  unfold raise when_ msix
  dsimp only
  split_ifs <;> rfl

/-- A log entry leaves the Trowel state alone. -/
@[simp] theorem snagWith_trowel (code unit tenant snap data : Nat) (c : Chip) :
    (snagWith code unit tenant snap data c).trowel = c.trowel := by
  unfold snagWith
  dsimp only
  split_ifs <;> simp

/-- The task that a thread belongs to is a matter of the Trowel state and the objects. -/
theorem taskOf_congr {c d : Chip} (ht : d.trowel = c.trowel) (hn : d.nums = c.nums) : d.taskOf = c.taskOf := by
  funext k
  unfold Chip.taskOf Chip.core Chip.num
  rw [ht, hn]

/-- Entries in the logs of tenants leave it alone. -/
theorem taskOf_forEach_snagWith (tenants : List Nat) (unit snap : Nat) (c : Chip) :
    (forEach tenants (fun t d => snagWith 0x1007 unit t snap 0 d) c).taskOf = c.taskOf :=
  forEach_keeps (fun d => d.taskOf = c.taskOf) _ tenants c
    (fun _ _ _ h => (taskOf_congr (snagWith_trowel ..) (snagWith_nums ..)).trans h) rfl

section

variable {gang : Fin 16} {s : State}

/-- Without the condition of R222 the detector changes nothing. -/
theorem leaves_allWaitDetector_idle (h : s.chip.allWait gang.val = false) : Leaves (.allWaitDetector gang) s s.chip := by
  refine leaves_onChip (execAllWaitDetector.eq_def gang s) ?_
  exact if_pos (by rw [h]; rfl)

/-- With it the stall is logged to each tenant concerned, every blocked thread is broken off, and tasks that have stalled in three
frames end. -/
theorem leaves_allWaitDetector_stall (h : s.chip.allWait gang.val = true) :
    let c := s.chip
    let ks := c.blocked gang.val
    let tenants := ((ks.map (fun k => (c.runOf k).1)).filter (fun t => decide (t < 16))).eraseDups
    let snap := addSnapshot (stallSnapshot c gang.val ks) c
    let logged := forEach tenants (fun t c => snagWith 0x1007 gang.val t snap.1 0 c) snap.2
    let broken := forEach ks breakThread (bump (Obj.trowelGangStalls gang.val) logged)
    Leaves (.allWaitDetector gang) s (forEach (ks.filterMap c.taskOf).eraseDups (fun t c =>
      if 3 ≤ (tget {} c.trowel.tasks t).stallFrames then disableTaskLogged t c else c) broken) := by
  intro c ks tenants snap logged broken
  have htasks : logged.taskOf = c.taskOf := taskOf_forEach_snagWith tenants _ _ snap.2
  rw [← htasks]
  refine leaves_onChip (execAllWaitDetector.eq_def gang s) ?_
  exact if_neg (by rw [h]; decide)

end

/-! ### Reinstatement (R228) -/

section

variable {r : Req} {a : Nat} {core : Fin 256} {s : State} (hw : Writes r a (Obj.trowelCoreRetired core.val) [0] s)

include hw

/-- Reinstatement needs A on the core. -/
theorem answers_coreReinstate_noAccess (hmay : (judged r.path s).chip.may 0x14 core.val a 3 = false) (passed : Bool) :
    Answers (.coreReinstate r core passed) r a (Obj.trowelCoreRetired core.val) [0] s (judged r.path s).chip St.noAccess :=
  serveRow_chip hw (if_pos (by rw [hmay]; rfl))

variable (hmay : (judged r.path s).chip.may 0x14 core.val a 3 = true)
  (hret : (judged r.path s).chip.flag (Obj.trowelCoreRetired core.val) = true)

include hmay hret

/-- A retired core that passes its self-check is marked for the next boundary. -/
theorem answers_coreReinstate_passed : Answers (.coreReinstate r core true) r a (Obj.trowelCoreRetired core.val) [0] s
    (modCore core.val (fun x => { x with reinstate := true }) (judged r.path s).chip) St.ok :=
  serveRow_chip hw (by simp [hmay, hret])

/-- One that fails it has the failure counted. -/
theorem answers_coreReinstate_failed : Answers (.coreReinstate r core false) r a (Obj.trowelCoreRetired core.val) [0] s
    (bump (Obj.trowelCoreSelfCheckFails core.val) (judged r.path s).chip) St.ok :=
  serveRow_chip hw (by simp [hmay, hret, when_])

end

/-! ### Capacity at a clock (R36, R168) -/

/-- The slots of a core at a clock are those of the rate in force and of what its enabled tasks declare. -/
theorem slotsAt_congr {c d : Chip} (htime : d.time = c.time) (htasks : d.trowel.tasks = c.trowel.tasks)
    (hcore : ∀ t, d.num (Obj.trowelTaskCore t) = c.num (Obj.trowelTaskCore t))
    (hcycles : ∀ t, d.num (Obj.trowelTaskCycles t) = c.num (Obj.trowelTaskCycles t)) (n mhz : Nat) :
    d.slotsAt n mhz = c.slotsAt n mhz := by
  simp only [Chip.slotsAt, Chip.rateSlots, Chip.bsize, Chip.taskCycles, Chip.coreTasks, htime, htasks, hcore, hcycles]
  rfl

/-! ### Thermal steps, trip and ungating (R564 to R566) -/

/-- The chip once a step down of a gang to `mhz` is decided. -/
def stepDecided (gang mhz : Nat) (c : Chip) : Chip :=
  bump Obj.powerThermalSteps (modTrowel (fun w => { w with clockStep := tput w.clockStep gang (mhz, c.now) }) c)

/-- A decided step leaves the slots of every core at every clock alone. -/
theorem slotsAt_stepDecided (gang mhz : Nat) (c : Chip) (n m : Nat) : (stepDecided gang mhz c).slotsAt n m = c.slotsAt n m := by
  have hcore (t : Nat) : Obj.trowelTaskCore t ≠ Obj.powerThermalSteps := by
    unfold Obj.trowelTaskCore Obj.powerThermalSteps
    omega
  have hcycles (t : Nat) : Obj.trowelTaskCycles t ≠ Obj.powerThermalSteps := by
    unfold Obj.trowelTaskCycles Obj.powerThermalSteps
    omega
  refine slotsAt_congr (c := c) (d := stepDecided gang mhz c) rfl rfl (fun t => ?_) (fun t => ?_) n m
  · exact num_bump_other _ (hcore t)
  · exact num_bump_other _ (hcycles t)

section

variable {gang : Fin 16} {z : BitVec 8} {s : State}

/-- Below Warn a reading decides nothing. -/
theorem leaves_thermalStepDown_cool (h : z.toInt < (takeReading gang.val z.toInt s.chip).snum 8 Obj.powerThermalWarn) :
    Leaves (.thermalStepDown gang z) s (takeReading gang.val z.toInt s.chip) := by
  refine leaves_onChip (execThermalStepDown.eq_def gang z s) (if_neg ?_)
  exact fun ⟨hwarn, _⟩ => Int.not_lt.mpr hwarn h

/-- A step down of a gang whose voices fit at the lower clock is decided, and no voice is asked to move. -/
theorem leaves_thermalStepDown_fits :
    let c := takeReading gang.val z.toInt s.chip
    let mhz := c.gangClock gang.val
    c.snum 8 Obj.powerThermalWarn ≤ z.toInt → z.toInt < 115 → 800 < mhz → tget (0, 0) c.trowel.clockStep gang.val = (0, 0) →
    (∀ n ∈ (upTo 16).map (fun i => 16 * gang.val + i), c.occupancy n ≤ c.slotsAt n (mhz - 200)) →
    Leaves (.thermalStepDown gang z) s (stepDecided gang.val (mhz - 200) c) := by
  intro c mhz hwarn htrip hclock hnone hfit
  refine leaves_onChip (execThermalStepDown.eq_def gang z s) ?_
  refine (if_pos ⟨hwarn, htrip, hclock, hnone⟩).trans ?_
  refine forEach_keeps (· = stepDecided gang.val (mhz - 200) c) _ _ _ (fun n hn d hd => ?_) rfl
  have hexcess : d.occupancy n - d.slotsAt n (mhz - 200) = 0 := by
    rw [hd, slotsAt_stepDecided]
    exact Nat.sub_eq_zero_of_le (hfit n hn)
  exact (if_pos (.inl hexcess)).trans hd

/-- From 5 °C below Warn on, or at 1.60 GHz, a gang's clock stays. -/
theorem leaves_thermalStepUp_stays :
    let c := takeReading gang.val z.toInt s.chip
    let mhz := c.gangClock gang.val
    c.snum 8 Obj.powerThermalWarn - 5 ≤ z.toInt ∨ mhz = 0 ∨ 1600 ≤ mhz → Leaves (.thermalStepUp gang z) s c := by
  intro c mhz h
  refine leaves_onChip (execThermalStepUp.eq_def gang z s) (if_neg ?_)
  rintro ⟨hcool, hpos, hlow⟩
  obtain hwarm | hoff | hfull := h
  · exact Int.not_lt.mpr hwarm hcool
  · exact Nat.ne_of_gt hpos hoff
  · exact Nat.not_lt.mpr hfull hlow

/-- From 115 °C on a gang is down for a trip, once, and a decided step is dropped. -/
theorem completes_thermalTrip (h : 115 ≤ z.toInt) :
    let c := takeReading gang.val z.toInt s.chip
    Completes (.thermalTrip gang z) s (fun s' => gang.val ∈ s'.chip.trowel.trips ∧
      tget (0, 0) s'.chip.trowel.clockStep gang.val = (0, 0) ∧
      s'.chip = { c with trowel := { c.trowel with trips := s'.chip.trowel.trips, clockStep := s'.chip.trowel.clockStep } }) := by
  intro c
  have hleaves : Leaves (.thermalTrip gang z) s (modTrowel (fun w =>
      { w with trips := if w.trips.contains gang.val then w.trips else w.trips ++ [gang.val],
               clockStep := tdel w.clockStep gang.val }) c) := by
    refine leaves_onChip (execThermalTrip.eq_def gang z s) ?_
    exact if_pos h
  refine ⟨_, hleaves, ?_, tget_tdel_same _ _ _, rfl⟩
  show gang.val ∈ if c.trowel.trips.contains gang.val then c.trowel.trips else c.trowel.trips ++ [gang.val]
  split
  case isTrue hin => exact List.contains_iff_mem.mp hin
  case isFalse => exact List.mem_append_right _ (List.mem_singleton_self _)

/-- Above 100 °C a gang that has tripped stays gated, and one that has not is left alone. -/
theorem leaves_thermalUngate_stays :
    let c := takeReading gang.val z.toInt s.chip
    100 < z.toInt ∨ (c.core (16 * gang.val)).tripped = false → Leaves (.thermalUngate gang z) s c := by
  intro c h
  refine leaves_onChip (execThermalUngate.eq_def gang z s) (if_neg ?_)
  rintro ⟨hcool, htripped⟩
  exact h.elim (Int.not_lt.mpr hcool) (fun hnot => Bool.eq_false_iff.mp hnot htripped)

end

/-- Settles O22: the detector by its condition, the reinstatement by the master's right and the self-check, and the thermal commands
by the reading and the gang's clock; entries in logs leave each thread's task alone, and a decided step the capacity it is decided on.
The blocked set (log entry 24), the self-check's outcome (40), the count of stalled frames (56) and the thermal timing (92) are the
model's reading. -/
theorem stallsAndThermal : Obligations.StallsAndThermal := by
  refine ⟨fun gang s => leaves_allWaitDetector_idle, fun gang s => leaves_allWaitDetector_stall,
    fun r a core s hw => ⟨answers_coreReinstate_noAccess hw,
      fun hmay hret => ⟨answers_coreReinstate_passed hw hmay hret, answers_coreReinstate_failed hw hmay hret⟩⟩,
    fun gang z s => ?_⟩
  intro c mhz cores
  refine ⟨leaves_thermalStepDown_cool, fun hwarn htrip hclock hnone hfit => ?down, fun hcool hpos hlow => ?up,
    leaves_thermalStepUp_stays, completes_thermalTrip, fun hcool => ?untripped, fun hcool htripped => ?ungated,
    leaves_thermalUngate_stays⟩
  case down => exact ⟨_, leaves_thermalStepDown_fits hwarn htrip hclock hnone hfit, tget_tput_same _ _ _ _, rfl⟩
  case up => exact leaves_onChip (execThermalStepUp.eq_def gang z s) (if_pos ⟨hcool, hpos, hlow⟩)
  case untripped => exact leaves_onChip (execThermalTrip.eq_def gang z s) (if_neg (Int.not_le.mpr hcool))
  case ungated => exact leaves_onChip (execThermalUngate.eq_def gang z s) (if_pos ⟨hcool, htripped⟩)

end Sys2Proof.Machine
end

section
/-!
SUPPORT. O53 and O54: the arithmetic of a lane's word, and what a pass leaves in the clip counters.
-/

namespace Sys2Proof.Machine

/-! ### Floor division by powers of two (R12) -/

/-- Truncation toward minus infinity is the quotient of Euclid. -/
theorem shrFloor_eq_ediv (z : Int) (k : Nat) : shrFloor z k = z / 2 ^ k := by
  rw [shrFloor, Int.fdiv_eq_ediv_of_nonneg _ (Int.natCast_nonneg _), Nat.cast_pow]
  rfl

/-- Scaling up by more than is divided away is exact. -/
theorem mul_pow_ediv_of_le {n e : Nat} (z : Int) (h : n ≤ e) : z * 2 ^ e / 2 ^ n = z * 2 ^ (e - n) := by
  rw [← Nat.sub_add_cancel h, pow_add, ← mul_assoc, Int.mul_ediv_cancel _ (by positivity), Nat.add_sub_cancel]

/-- Scaling up by less than is divided away divides by what is left. -/
theorem mul_pow_ediv_of_ge {n e : Nat} (z : Int) (h : e ≤ n) : z * 2 ^ e / 2 ^ n = z / 2 ^ (n - e) := by
  rw [← Nat.sub_add_cancel h, pow_add, Int.mul_ediv_mul_of_pos_left _ _ (by positivity), Nat.add_sub_cancel]

/-- A quotient by `2 ^ k` and the range of what it divides. -/
theorem ediv_pow_bounds {m k : Nat} {x : Int} (hlo : -(2 ^ (m + k)) ≤ x) (hhi : x < 2 ^ (m + k)) :
    x / 2 ^ k * 2 ^ k ≤ x ∧ x < (x / 2 ^ k + 1) * 2 ^ k ∧ -(2 ^ m) ≤ x / 2 ^ k ∧ x / 2 ^ k < 2 ^ m := by
  have hk : (0 : Int) < 2 ^ k := by positivity
  rw [pow_add] at hlo hhi
  refine ⟨Int.ediv_mul_le _ hk.ne', Int.lt_ediv_add_one_mul_self _ hk, ?_, Int.ediv_lt_of_lt_mul hk hhi⟩
  exact (Int.le_ediv_iff_mul_le hk).mpr (by rwa [neg_mul])

/-! ### The windows (R238) -/

section

variable {wide : Bool} {e : Nat} {x : Int}

/-- A source below the window is replaced by the lower limit. -/
theorem window_below (h : x < -(2 ^ (39 + e))) : window wide e x = (-(if wide then 2 ^ 47 else 2 ^ 23), true) := if_pos h

/-- A source above the window is replaced by the upper limit. -/
theorem window_above (h : 2 ^ (39 + e) ≤ x) : window wide e x = ((if wide then 2 ^ 47 else 2 ^ 23) - 1, true) := by
  have hpos : (0 : Int) < 2 ^ (39 + e) := by positivity
  unfold window
  rw [if_neg (by omega), if_pos h]

/-- A source within the narrow window loses its bits below 2^(16 + E). -/
theorem window_narrow_within (hlo : -(2 ^ (39 + e)) ≤ x) (hhi : x < 2 ^ (39 + e)) : window false e x = (x / 2 ^ (16 + e), false) := by
  unfold window
  rw [if_neg (Int.not_lt.mpr hlo), if_neg (Int.not_le.mpr hhi), if_neg Bool.false_ne_true, shrFloor_eq_ediv]

/-- A source within the wide window is moved by 8 - E bits. -/
theorem window_wide_within (hlo : -(2 ^ (39 + e)) ≤ x) (hhi : x < 2 ^ (39 + e)) : window true e x = (x * 2 ^ 8 / 2 ^ e, false) := by
  unfold window
  rw [if_neg (Int.not_lt.mpr hlo), if_neg (Int.not_le.mpr hhi), if_pos rfl]
  split
  case isTrue he => rw [mul_pow_ediv_of_le x he]
  case isFalse he => rw [shrFloor_eq_ediv, mul_pow_ediv_of_ge x (Nat.le_of_not_le he)]

/-- What the narrow window gives of a source within it. -/
theorem window_narrow_bounds (hlo : -(2 ^ (39 + e)) ≤ x) (hhi : x < 2 ^ (39 + e)) :
    let y := (window false e x).1
    y * 2 ^ (16 + e) ≤ x ∧ x < (y + 1) * 2 ^ (16 + e) ∧ -(2 ^ 23) ≤ y ∧ y < 2 ^ 23 := by
  rw [window_narrow_within hlo hhi]
  rw [show 39 + e = 23 + (16 + e) by omega] at hlo hhi
  exact ediv_pow_bounds hlo hhi

/-- What the wide window gives of a source within it. -/
theorem window_wide_bounds (hlo : -(2 ^ (39 + e)) ≤ x) (hhi : x < 2 ^ (39 + e)) :
    let y := (window true e x).1
    y * 2 ^ e ≤ x * 2 ^ 8 ∧ x * 2 ^ 8 < (y + 1) * 2 ^ e ∧ -(2 ^ 47) ≤ y ∧ y < 2 ^ 47 := by
  rw [window_wide_within hlo hhi]
  have hscale : (2 : Int) ^ (47 + e) = 2 ^ (39 + e) * 2 ^ 8 := by rw [← pow_add, show 39 + e + 8 = 47 + e by omega]
  refine ediv_pow_bounds ?_ ?_ <;> rw [hscale] <;> omega

/-- With E up to 8 the wide window drops nothing. -/
theorem window_wide_exact (hlo : -(2 ^ (39 + e)) ≤ x) (hhi : x < 2 ^ (39 + e)) (he : e ≤ 8) :
    (window true e x).1 * 2 ^ e = x * 2 ^ 8 := by
  rw [window_wide_within hlo hhi]
  exact Int.ediv_mul_cancel (Dvd.dvd.mul_left (pow_dvd_pow 2 he) x)

/-- From 2^54 on a source gives the upper limit at every exponent. -/
theorem window_top (he : e ≤ 15) (h : 2 ^ 54 ≤ x) : (window wide e x).1 = (if wide then 2 ^ 47 else 2 ^ 23) - 1 := by
  rw [window_above ((pow_le_pow_right₀ (by decide) (by omega)).trans h)]

/-- Down from -2^54 it gives the lower limit: at E = 15 the lower limit stands for -2^54 itself. -/
theorem window_bottom (he : e ≤ 15) (h : x ≤ -(2 ^ 54)) : (window wide e x).1 = -(if wide then 2 ^ 47 else 2 ^ 23) := by
  have hle : (2 : Int) ^ (39 + e) ≤ 2 ^ 54 := pow_le_pow_right₀ (by decide) (by omega)
  by_cases hlt : x < -(2 ^ (39 + e))
  · rw [window_below hlt]
  · have hpow : (2 : Int) ^ (39 + e) = 2 ^ 54 := by omega
    obtain rfl : e = 15 := by
      have hexp := Nat.pow_right_injective (le_refl 2) (Int.natCast_inj.mp (by push_cast; exact hpow) : (2 : Nat) ^ (39 + e) = 2 ^ 54)
      omega
    obtain rfl : x = -(2 ^ 54) := by omega
    cases wide <;> rfl

end

/-! ### Gain and product (R239) -/

/-- The product of the narrow window in units of 2^-39. -/
theorem laneProduct_narrow (e : Nat) (y g : Int) : laneProduct false e y g = y * g * 2 ^ e / 2 ^ 5 := by
  unfold laneProduct
  rw [if_neg Bool.false_ne_true]
  split
  case isTrue he => rw [mul_pow_ediv_of_le _ he]
  case isFalse he => rw [shrFloor_eq_ediv, mul_pow_ediv_of_ge _ (by omega)]

/-- The product of the wide window in units of 2^-39. -/
theorem laneProduct_wide {e : Nat} (y g : Int) (he : e ≤ 29) : laneProduct true e y g = y * g * 2 ^ e / 2 ^ 29 := by
  unfold laneProduct
  rw [if_pos rfl, shrFloor_eq_ediv, mul_pow_ediv_of_ge _ he]

/-! ### Saturation (R239, R240) -/

/-- Q17.39 holds what lies within it. -/
theorem satBus_eq_self_iff (z : Int) : satBus z = z ↔ -(2 ^ 55) ≤ z ∧ z < 2 ^ 55 := by
  unfold satBus clampInt
  omega

/-- Q9.23 holds an accumulator of less than 2^47. -/
theorem satTap_shrFloor_eq_self_iff (acc : Int) : satTap (shrFloor acc 16) = shrFloor acc 16 ↔ -(2 ^ 47) ≤ acc ∧ acc < 2 ^ 47 := by
  rw [shrFloor_eq_ediv]
  unfold satTap clampInt
  omega

/-! ### One word on a lane (R239 to R242) -/

/-- A lane's ACC: what the pass has loaded, or what it powers up with. -/
def laneHeld (n lane : Nat) (p : Pass) : Int :=
  match p.acc.find? (fun e => e.1 == lane) with
  | some e => e.2
  | none => satBus (Config.laneAcc n lane)

/-- The gain of a word: its ramp's, or 1. -/
def wordGain (c : Chip) (w : CoatWord) : Int := if w.g = 1 then c.rampGain w.ramp else 2 ^ 21

/-- What LD, MAC, LDW and MACW bring to ACC, before it saturates. -/
def laneSum (c : Chip) (n lane : Nat) (pres : Table Int) (w : CoatWord) (p : Pass) : Int :=
  let wide := decide (3 ≤ w.op)
  laneProduct wide w.e (window wide w.e (c.source n pres p w.sk w.si).1).1 (wordGain c w) +
    if w.op = 2 ∨ w.op = 4 then laneHeld n lane p else 0

section

variable (c : Chip) (n lane : Nat) (pres : Table Int) {w : CoatWord} (p : Pass)

/-- LD, MAC, LDW and MACW change ACC and the counts of what they clip. -/
theorem runWord_load (h1 : 1 ≤ w.op) (h4 : w.op ≤ 4) : runWord c n lane pres w p =
    { p with
      acc := tput p.acc lane (satBus (laneSum c n lane pres w p))
      windowClips := p.windowClips +
        if (window (decide (3 ≤ w.op)) w.e (c.source n pres p w.sk w.si).1).2 then 1 else 0
      accClips := p.accClips + if satBus (laneSum c n lane pres w p) = laneSum c n lane pres w p then 0 else 1
      chainClips := p.chainClips + if (c.source n pres p w.sk w.si).2 then 1 else 0 } := if_pos ⟨h1, h4⟩

/-- ACC takes a sum that the word brings, saturated to Q17.39 and counted where it does not fit. -/
theorem runWord_load_acc (h1 : 1 ≤ w.op) (h4 : w.op ≤ 4) {z : Int} (hz : laneSum c n lane pres w p = z) :
    tget 0 (runWord c n lane pres w p).acc lane = max (-(2 ^ 55)) (min (2 ^ 55 - 1) z) ∧
    (runWord c n lane pres w p).accClips = p.accClips + if -(2 ^ 55) ≤ z ∧ z < 2 ^ 55 then 0 else 1 := by
  rw [runWord_load c n lane pres p h1 h4, hz]
  refine ⟨tget_tput_same _ _ _ _, ?_⟩
  simp only [satBus_eq_self_iff]

/-- PUT to a local bus adds ACC to it. -/
theorem runWord_put_bus {acc : Int} (hop : w.op = 5) (hacc : laneHeld n lane p = acc) (hk : w.dk = 0) :
    runWord c n lane pres w p =
    { p with
      buses := tset 0 p.buses w.di (satBus (tget 0 p.buses w.di + acc))
      busClips := p.busClips + if satBus (tget 0 p.buses w.di + acc) = tget 0 p.buses w.di + acc then 0 else 1 } := by
  subst hacc
  exact (if_neg (by omega)).trans ((if_pos hop).trans (if_pos hk))

/-- PUT to a chain bus adds ACC modulo 2^64. -/
theorem runWord_put_chain {acc : Int} (hop : w.op = 5) (hacc : laneHeld n lane p = acc) (hk : w.dk = 1) :
    runWord c n lane pres w p =
    { p with chain := tset 0 p.chain w.di (toSigned 64 (ofInt 64 (tget 0 p.chain w.di + acc))) } := by
  subst hacc
  exact (if_neg (by omega)).trans ((if_pos hop).trans ((if_neg (by omega)).trans (if_pos hk)))

/-- PUT to an external destination writes ACC as Q9.23. -/
theorem runWord_put_tap {acc : Int} (hop : w.op = 5) (hacc : laneHeld n lane p = acc) (hk : 2 ≤ w.dk) :
    runWord c n lane pres w p =
    { p with
      outs := tset 0 p.outs (tapKey w.dk w.di) (satTap (shrFloor acc 16))
      tapClips := p.tapClips + if satTap (shrFloor acc 16) = shrFloor acc 16 then 0 else 1 } := by
  subst hacc
  exact (if_neg (by omega)).trans ((if_pos hop).trans ((if_neg (by omega)).trans (if_neg (by omega))))

end

/-! ### The counters of a pass (R258) -/

/-- A counter of 32 bits goes up and saturates. -/
theorem num_bumpBy_same {o : Nat} (k : Nat) (c : Chip) (hw : objWidth o = 4) :
    (bumpBy o k c).num o = min (c.num o + k) 0xFFFFFFFF := by
  rw [bumpBy, num_setNum_same, hw, wrap, satAdd]
  exact Nat.mod_eq_of_lt (by omega)

/-- The other number objects. -/
theorem num_bumpBy_other {o p : Nat} (k : Nat) (c : Chip) (h : p ≠ o) : (bumpBy o k c).num p = c.num p := num_setNum_other c _ h

@[simp] theorem num_raise (t v o : Nat) (c : Chip) : (raise t v c).num o = c.num o := by
  simp only [Chip.num, raise_nums]

/-- A Screed parameter writes objects of area 0x31. -/
theorem num_applyScreed {o : Nat} (ix value : Nat) (c : Chip) (h : o < 0x31000000) : (applyScreed ix value c).num o = c.num o := by
  have hobj {q : Nat} (hq : screedParam ix = some q) : 0x31000000 ≤ q := by
    unfold screedParam at hq
    dsimp only at hq
    split_ifs at hq <;> simp only [Option.some.injEq] at hq <;> omega
  unfold applyScreed
  split
  · rfl
  next q hq =>
    have hother := num_setNum_other c value (Nat.ne_of_lt (Nat.lt_of_lt_of_le h (hobj hq)))
    dsimp only
    split_ifs
    · exact hother
    · exact hother

/-- A safe-load entry starts a ramp or writes a Screed parameter. -/
theorem num_applyEntry {o : Nat} (e : LoadEntry) (c : Chip) (h : o < 0x31000000) : (applyEntry e c).num o = c.num o := by
  unfold applyEntry
  dsimp only
  split_ifs
  · rfl
  · exact num_applyScreed _ _ c h

/-- A count that may be taken leaves the other number objects. -/
theorem num_when_bump {o p : Nat} (b : Bool) (c : Chip) (h : p ≠ o) : (when_ b (bump o) c).num p = c.num p := by
  cases b
  · rfl
  · exact num_bump_other c h

/-- The sets of a sample write their slots' objects, the count of late sets and what their entries name. -/
theorem num_applySets {o : Nat} (n : Nat) (c : Chip) (h : o < 0x30500000) (hlate : o ≠ Obj.skimCountersLateSafeLoads) :
    (applySets n c).num o = c.num o := by
  refine forEach_keeps (fun d : Chip => d.num o = c.num o) _ _ c (fun x _ d hd => ?_) rfl
  have hentries : (forEach x.entries applyEntry d).num o = c.num o :=
    forEach_keeps (fun d : Chip => d.num o = c.num o) _ _ d
      (fun e _ d hd => (num_applyEntry e d (by omega)).trans hd) hd
  dsimp only
  split
  next i _ =>
    rw [num_raise, num_setNum_other _ _ (by unfold Obj.skimSafeLoadAppliedTick; omega), setLoadStatus,
      num_setNum_other _ _ (by unfold Obj.skimSafeLoadStatus; omega), num_when_bump _ _ hlate, hentries]
  next => rw [num_when_bump _ _ hlate, hentries]

/-- A stream that is read counts a packet that is missing. -/
theorem num_useStream {o : Nat} (rising : Bool) (m : Nat) (c : Chip) (h : o ≠ Obj.skimCountersChainMissed) :
    (useStream rising m c).2.num o = c.num o := by
  unfold useStream
  extract_lets st put rest
  refine iteInduction (motive := fun x : (Table Int × Option Nat) × Chip => x.2.num o = c.num o) (fun _ => rfl) (fun _ => ?_)
  cases st.packets.find? (fun e => e.1 == m) with
  | some _ => rfl
  | none => exact num_bump_other _ h

/-- The presented sum counts missing packets and sums that lack a member. -/
theorem num_presented {o : Nat} (n : Nat) (c : Chip) (hmissed : o ≠ Obj.skimCountersChainMissed)
    (hmismatch : o ≠ Obj.lathCountersContribMismatch) : (presented n c).2.num o = c.num o := by
  unfold presented
  dsimp only
  split
  · rfl
  · rw [num_when_bump _ _ hmismatch, num_useStream _ _ _ hmissed, num_useStream _ _ _ hmissed]

/-- Exchange sends are written to memory. -/
theorem num_writeSends (n o : Nat) (c : Chip) : (writeSends n c).num o = c.num o := by
  refine forEach_keeps (fun d : Chip => d.num o = c.num o) _ _ c (fun x _ d hd => ?_) rfl
  exact iteInduction (motive := fun d : Chip => d.num o = c.num o) (fun _ => hd) (fun _ => hd)

theorem num_notePeaks (n o : Nat) (buses : Table Int) (c : Chip) : (notePeaks n buses c).num o = c.num o := rfl

/-- A bus packet that is forwarded leaves the chip, and nothing else changes. -/
theorem forwardBus_out (rising : Bool) (m : Nat) (c : Chip) :
    forwardBus rising m c = { c with out := (forwardBus rising m c).out } := by
  unfold forwardBus
  extract_lets inPort st x add
  refine iteInduction (motive := fun d : Chip => d = { c with out := d.out }) (fun _ => ?_) (fun _ => rfl)
  refine iteInduction (motive := fun d : Chip => d = { c with out := d.out }) (fun _ => ?_) (fun _ => rfl)
  cases st.packets.find? (fun e => e.1 == m) with
  | some _ => rfl
  | none => rfl

theorem num_forwardBus (rising : Bool) (m o : Nat) (c : Chip) : (forwardBus rising m c).num o = c.num o := by
  rw [forwardBus_out]
  rfl

/-- The clips of a pass join their counters. -/
def countClips (a : Pass) (c : Chip) : Chip :=
  bumpBy Obj.skimCountersWindowClips a.windowClips (bumpBy Obj.skimCountersAccClips a.accClips
    (bumpBy Obj.skimCountersBusClips a.busClips (bumpBy Obj.skimCountersTapClips a.tapClips
    (bumpBy Obj.skimCountersChainClips a.chainClips c))))

/-- With no second coat the counters take the clips of the first. -/
theorem countClips_alone (a : Pass) (c : Chip) :
    bumpBy Obj.skimCountersWindowClips (a.windowClips + ({} : Pass).windowClips) (bumpBy Obj.skimCountersAccClips
      (a.accClips + ({} : Pass).accClips) (bumpBy Obj.skimCountersBusClips (a.busClips + ({} : Pass).busClips)
      (bumpBy Obj.skimCountersTapClips (a.tapClips + ({} : Pass).tapClips) (bumpBy Obj.skimCountersChainClips
      (a.chainClips + ({} : Pass).chainClips) c)))) = countClips a c := rfl

/-- Each counter takes its own clips. -/
theorem num_countClips (a : Pass) (c : Chip) :
    (countClips a c).num Obj.skimCountersWindowClips = min (c.num Obj.skimCountersWindowClips + a.windowClips) 0xFFFFFFFF ∧
    (countClips a c).num Obj.skimCountersAccClips = min (c.num Obj.skimCountersAccClips + a.accClips) 0xFFFFFFFF ∧
    (countClips a c).num Obj.skimCountersBusClips = min (c.num Obj.skimCountersBusClips + a.busClips) 0xFFFFFFFF ∧
    (countClips a c).num Obj.skimCountersTapClips = min (c.num Obj.skimCountersTapClips + a.tapClips) 0xFFFFFFFF := by
  have hwindow : objWidth Obj.skimCountersWindowClips = 4 := by decide +kernel
  have hacc : objWidth Obj.skimCountersAccClips = 4 := by decide +kernel
  have hbus : objWidth Obj.skimCountersBusClips = 4 := by decide +kernel
  have htap : objWidth Obj.skimCountersTapClips = 4 := by decide +kernel
  unfold countClips
  simp (disch := decide) only [num_bumpBy_other, num_bumpBy_same _ _ hwindow, num_bumpBy_same _ _ hacc,
    num_bumpBy_same _ _ hbus, num_bumpBy_same _ _ htap, and_self]

/-- What the pass of sample `n` reads: the presented sum, and the chip once sets, ramps and streams are served. -/
def passReady (n : Nat) (c : Chip) : Table Int × Chip := presented n (advanceRamps (applySets n c))

/-- The run of the current coat in the pass of sample `n`. -/
def passCurrent (n : Nat) (c : Chip) : Pass :=
  let d := passReady n c
  runCoat d.2.skim.current n d.1 d.2 (sendStage n d.2)

/-- Outside a crossfade a pass writes the numbers that its sets and streams write, and the counts of one coat's clips. -/
theorem num_skimPass {n : Nat} {c : Chip} (o : Nat) (h : (passReady n c).2.skim.wet.phase ≠ .crossing) :
    (skimPass n c).num o = (countClips (passCurrent n c) (passReady n c).2).num o := by
  unfold skimPass
  extract_lets c1 pr c2 sends a b w j outs chain dip fade outs2 adds own c3 c4 c5
  have hb : b = {} := if_neg h
  have hclips : c3 = countClips a c2 := by
    simp only [c3, hb]
    exact countClips_alone a c2
  have hnum : c4.num o = c3.num o := modSkim_num _ _ _
  rw [num_forwardBus, num_forwardBus, num_notePeaks, num_writeSends, hnum, hclips]
  rfl

/-- The counters of clips as the pass finds them. -/
theorem num_passReady {o : Nat} (n : Nat) (c : Chip) (h : o ∈ [Obj.skimCountersWindowClips, Obj.skimCountersAccClips,
    Obj.skimCountersBusClips, Obj.skimCountersTapClips]) : (passReady n c).2.num o = c.num o := by
  obtain ⟨hlow, hlate, hmissed, hmismatch⟩ : o < 0x30500000 ∧ o ≠ Obj.skimCountersLateSafeLoads ∧
      o ≠ Obj.skimCountersChainMissed ∧ o ≠ Obj.lathCountersContribMismatch := by
    revert o
    decide
  exact (num_presented n _ hmissed hmismatch).trans (num_applySets n c hlow hlate)

/-- After a pass outside a crossfade each counter has gone up by the coat's clips. -/
theorem num_skimPass_clips {n : Nat} {c : Chip} (h : (passReady n c).2.skim.wet.phase ≠ .crossing) :
    let a := passCurrent n c
    let t := skimPass n c
    t.num Obj.skimCountersWindowClips = min (c.num Obj.skimCountersWindowClips + a.windowClips) 0xFFFFFFFF ∧
    t.num Obj.skimCountersAccClips = min (c.num Obj.skimCountersAccClips + a.accClips) 0xFFFFFFFF ∧
    t.num Obj.skimCountersBusClips = min (c.num Obj.skimCountersBusClips + a.busClips) 0xFFFFFFFF ∧
    t.num Obj.skimCountersTapClips = min (c.num Obj.skimCountersTapClips + a.tapClips) 0xFFFFFFFF := by
  intro a t
  obtain ⟨hwindow, hacc, hbus, htap⟩ := num_countClips a (passReady n c).2
  rw [num_passReady n c (by decide)] at hwindow hacc hbus htap
  exact ⟨(num_skimPass _ h).trans hwindow, (num_skimPass _ h).trans hacc, (num_skimPass _ h).trans hbus,
    (num_skimPass _ h).trans htap⟩

/-- Settles O53: below, above or within the window a source has its own value; a word counts its window's clip and a pass its words'. -/
theorem laneWindows : Obligations.LaneWindows := by
  refine ⟨fun e x he => ?_, fun c n lane pres w p h1 h4 => ?_, fun c n => ?_⟩
  · intro narrow wide
    refine ⟨fun h => ⟨window_below h, window_below h⟩, fun h => ⟨window_above h, window_above h⟩, fun hlo hhi => ?_,
      fun h => ⟨window_top he h, window_top he h⟩, fun h => ⟨window_bottom he h, window_bottom he h⟩⟩
    obtain ⟨hn1, hn2, hn3, hn4⟩ := window_narrow_bounds hlo hhi
    obtain ⟨hw1, hw2, hw3, hw4⟩ := window_wide_bounds hlo hhi
    exact ⟨congrArg Prod.snd (window_narrow_within hlo hhi), congrArg Prod.snd (window_wide_within hlo hhi),
      hn1, hn2, hn3, hn4, hw1, hw2, hw3, hw4, window_wide_exact hlo hhi⟩
  · rw [runWord_load c n lane pres p h1 h4]
  · intro d a h
    exact (num_skimPass_clips h).1

/-- A source within the window of exponent 0 and the gain 1 give the source truncated to 24 bits. -/
theorem laneProduct_unity {x : Int} (hlo : -(2 ^ 39) ≤ x) (hhi : x < 2 ^ 39) :
    (window false 0 x).1 * 2 ^ 21 * 2 ^ 0 / 2 ^ 5 = x / 2 ^ 16 * 2 ^ 16 := by
  rw [window_narrow_within hlo hhi]
  show x / 2 ^ 16 * 2 ^ 21 * 2 ^ 0 / 2 ^ 5 = x / 2 ^ 16 * 2 ^ 16
  omega

/-- Settles O54: each operation brings its own sum to ACC, PUT goes by the destination's kind, and a pass counts the saturations. -/
theorem laneProducts : Obligations.LaneProducts := by
  refine ⟨fun c n lane pres w p he => ?_, fun c n lane pres w p acc hop hacc => ?_, fun c n => ?_⟩
  · intro acc g q win narrow broad load
    have hnarrow (h : w.op ≤ 2) : laneSum c n lane pres w p = narrow + if w.op = 2 ∨ w.op = 4 then acc else 0 := by
      rw [laneSum, decide_eq_false (by omega), laneProduct_narrow]
      rfl
    have hbroad (h : 3 ≤ w.op) : laneSum c n lane pres w p = broad + if w.op = 2 ∨ w.op = 4 then acc else 0 := by
      rw [laneSum, decide_eq_true h, laneProduct_wide _ _ (by omega)]
      rfl
    have hld (h : w.op = 1) : load narrow := by
      rw [if_neg (by omega), add_zero] at hnarrow
      exact runWord_load_acc c n lane pres p (by omega) (by omega) (hnarrow (by omega))
    refine ⟨hld, fun h => ?mac, fun h => ?ldw, fun h => ?macw, fun h hg h0 x hx hlo hhi => ?unity⟩
    case mac =>
      rw [if_pos (.inl h)] at hnarrow
      exact runWord_load_acc c n lane pres p (by omega) (by omega) (hnarrow (by omega))
    case ldw =>
      rw [if_neg (by omega), add_zero] at hbroad
      exact runWord_load_acc c n lane pres p (by omega) (by omega) (hbroad (by omega))
    case macw =>
      rw [if_pos (.inr h)] at hbroad
      exact runWord_load_acc c n lane pres p (by omega) (by omega) (hbroad (by omega))
    case unity =>
      have hunity : narrow = x / 2 ^ 16 * 2 ^ 16 := by
        simp only [narrow, win, g, hg, h0, hx, zero_ne_one, if_false]
        exact laneProduct_unity hlo hhi
      rw [(hld h).1, hunity]
      omega
  · intro q sum
    have hheld : laneHeld n lane p = acc := by
      unfold laneHeld
      rw [hacc]
    refine ⟨?kept, fun hk => ?bus, fun hk => ?chain, fun hk => ?tap⟩
    case kept =>
      obtain hk | hk | hk : w.dk = 0 ∨ w.dk = 1 ∨ 2 ≤ w.dk := by omega
      · rw [show q = _ from runWord_put_bus c n lane pres p hop hheld hk]
      · rw [show q = _ from runWord_put_chain c n lane pres p hop hheld hk]
      · rw [show q = _ from runWord_put_tap c n lane pres p hop hheld hk]
    case bus =>
      simp only [q, runWord_put_bus c n lane pres p hop hheld hk, satBus_eq_self_iff]
      exact ⟨tget_tset_same _ _ _ _, fun k hk => tget_tset_other _ _ _ hk, rfl⟩
    case chain =>
      simp only [q, runWord_put_chain c n lane pres p hop hheld hk]
      exact ⟨tget_tset_same _ _ _ _, fun k hk => tget_tset_other _ _ _ hk⟩
    case tap =>
      simp only [q, runWord_put_tap c n lane pres p hop hheld hk, satTap_shrFloor_eq_self_iff]
      exact ⟨(tget_tset_same _ _ _ _).trans (by rw [shrFloor_eq_ediv]; rfl), fun k hk => tget_tset_other _ _ _ hk, trivial⟩
  · intro d a t h
    exact (num_skimPass_clips h).2

end Sys2Proof.Machine
end

section
/-!
SUPPORT. O26: late passes, the exchange channels' copies, stream windows, and the audio rings.
-/

namespace Sys2Proof.Machine

section

variable {s : State}

/-! ### Late passes (R479) -/

/-- SKIM_OVERRUN before the first pass. -/
theorem leaves_skimOverrun_none (h : s.chip.passNow = none) : Leaves .skimOverrun s s.chip := by
  refine leaves_onChip (execSkimOverrun.eq_def s) ?_
  simp only [h]

/-- SKIM_OVERRUN when the pass of this tick has not been made. -/
theorem leaves_skimOverrun_unmade {p : Nat} (h : s.chip.passNow = some p) (hp : s.chip.skim.passed ≠ p + 1) :
    Leaves .skimOverrun s s.chip := by
  refine leaves_onChip (execSkimOverrun.eq_def s) ?_
  simp only [h]
  exact if_pos hp

/-- What every overrun leaves: the values of the pass before stand again, and the overrun is counted and logged. -/
def overrunPass (p : Nat) (c : Chip) : Chip :=
  snag 0x1203 0 0xFF (bump Obj.skimCountersOverruns (writeSends p (modSkim (fun k =>
    { k with outs := k.prevOuts, own := if p = 0 then k.own else tput k.own p (tget [] k.own (p - 1)), overrun := p + 1 }) c)))

/-- A first overrun aborts a crossfade and leaves any other wet edge. -/
theorem leaves_skimOverrun_first {p : Nat} (h : s.chip.passNow = some p) (hp : s.chip.skim.passed = p + 1)
    (hfirst : s.chip.skim.overrun = 0) {c : Chip} (hc : (if (overrunPass p s.chip).skim.wet.phase = .crossing then
      wetEnd 5 (overrunPass p s.chip) else overrunPass p s.chip) = c) : Leaves .skimOverrun s c := by
  have hagain : (s.chip.skim.overrun != 0 && decide (p + 1 < s.chip.skim.overrun + 64)) = false := by
    rw [hfirst]
    rfl
  refine leaves_onChip (execSkimOverrun.eq_def s) ?_
  simp only [h, hagain]
  exact (if_neg (not_not.mpr hp)).trans hc

/-! ### Exchange channels (R254 to R256) -/

/-- EXCHANGE_COPY of a channel whose task sends. -/
theorem leaves_exchangeCopy {x : Fin 512} {t : Nat} (ht : s.chip.exchangeTask x.val = some t)
    (hdir : s.chip.num (Obj.skimExchangeDir x.val) = 1) (hframe : 2 ≤ s.chip.frame) :
    let c := s.chip
    let core := c.num (Obj.trowelTaskCore t)
    let c1 := writeBytes (c.bufferPlace x.val t ((c.frame - 2) % 4)) (c.bytesAt (exchangeWord x.val (c.frame - 2) 0) (4 * c.bsize)) c
    Leaves (.exchangeCopy x) s
      (forEach ((upTo 4).filter (fun i => c1.taskOf (4 * core + i) == some t)) (fun i c => setFlag (4 * core + i) 9 c) c1) := by
  refine leaves_onChip (execExchangeCopy.eq_def x s) ?_
  simp only [ht]
  exact if_pos ⟨hdir, hframe⟩

/-- EXCHANGE_COPY of any other channel, or before frame 2. -/
theorem leaves_exchangeCopy_idle {x : Fin 512}
    (h : s.chip.exchangeTask x.val = none ∨ s.chip.num (Obj.skimExchangeDir x.val) ≠ 1 ∨ s.chip.frame < 2) :
    Leaves (.exchangeCopy x) s s.chip := by
  refine leaves_onChip (execExchangeCopy.eq_def x s) ?_
  cases ht : s.chip.exchangeTask x.val with
  | none => rfl
  | some t =>
    refine if_neg ?_
    rintro ⟨hdir, hframe⟩
    obtain h | h | h := h
    · cases h.symm.trans ht
    · exact h hdir
    · exact Nat.not_lt.mpr hframe h

/-- EXCHANGE_RETURN_COPY of a channel whose task was DONE in time. -/
theorem leaves_exchangeReturnCopy {x : Fin 512} {t : Nat} (ht : s.chip.exchangeTask x.val = some t)
    (hdir : s.chip.num (Obj.skimExchangeDir x.val) = 2) (hframe : 1 ≤ s.chip.frame)
    (hdone : (tget {} s.chip.trowel.tasks t).doneFrame = s.chip.frame) :
    Leaves (.exchangeReturnCopy x) s (writeBytes (exchangeWord x.val s.chip.frame 0)
      (s.chip.bytesAt (s.chip.bufferPlace x.val t ((s.chip.frame - 1) % 4)) (4 * s.chip.bsize)) s.chip) := by
  refine leaves_onChip (execExchangeReturnCopy.eq_def x s) ?_
  simp only [ht]
  exact if_pos ⟨hdir, hframe, hdone⟩

/-- EXCHANGE_RETURN_COPY of a channel whose task was late. -/
theorem leaves_exchangeReturnCopy_late {x : Fin 512} {t : Nat} (ht : s.chip.exchangeTask x.val = some t)
    (hlate : (tget {} s.chip.trowel.tasks t).doneFrame ≠ s.chip.frame) : Leaves (.exchangeReturnCopy x) s s.chip := by
  refine leaves_onChip (execExchangeReturnCopy.eq_def x s) ?_
  simp only [ht]
  exact if_neg (fun ⟨_, _, hdone⟩ => hlate hdone)

/-- Octets read from memory are as many as were asked for. -/
theorem length_bytesAt (k n : Nat) (c : Chip) : (c.bytesAt k n).length = n := by
  unfold Chip.bytesAt
  induction n generalizing k with
  | zero => rfl
  | succ n ih => exact congrArg (· + 1) (ih (k + 1))

/-- A copy of `n` octets is read back at its place and leaves the rest of memory alone. -/
theorem copy_reads (src dst n : Nat) (c : Chip) :
    let t := writeBytes dst (c.bytesAt src n) c
    t.bytesAt dst n = c.bytesAt src n ∧ (∀ j, j < dst ∨ dst + n ≤ j → t.byte j = c.byte j) ∧
      t = { c with mem := t.mem, errs := t.errs } := by
  have hread := bytesAt_writeBytes dst (c.bytesAt src n) c
  have hother (j : Nat) := byte_writeBytes_other (j := j) (k := dst) (c.bytesAt src n) c
  rw [length_bytesAt] at hread
  rw [length_bytesAt] at hother
  exact ⟨hread, hother, rfl⟩

/-! ### Stream windows (R289) -/

/-- WINDOW_FILL fills every cursor's window in turn. -/
theorem leaves_windowFill {l : List (Nat × Cursor)} (h : s.chip.cursorList = l) :
    Leaves .windowFill s (forEach (l.map Prod.fst) (fillCursor s.chip.frame) s.chip) := by
  refine leaves_onChip (execWindowFill.eq_def s) ?_
  rw [h]

/-! ### Audio in (R389, R405) -/

section

variable {t : Fin 16} {q : Fin 4} {fetched : List (List Byte)}

/-- AUDIO_IN_FRAME on a queue that is not DISABLED: the entry that was found is taken, or the frame is missing. -/
theorem leaves_audioInFrame {o : Option (List Byte)} {d : Chip} (htick : s.chip.time.stc % s.chip.bsize = s.chip.bsize / 2)
    (hnew : (s.chip.queue (qix t.val (16 + q.val))).audioFrame ≠ s.chip.frame + 1)
    (hon : (s.chip.queue (qix t.val (16 + q.val))).state ≠ .disabled)
    (hr : (if (s.chip.queue (qix t.val (16 + q.val))).state = .running then
        findEntry (qix t.val (16 + q.val)) s.chip.frame (!s.chip.hasFunction t.val) (s.chip.queue (qix t.val (16 + q.val))).size
          fetched s.chip else (none, s.chip)) = (o, d)) :
    Leaves (.audioInFrame t q fetched) s (raise t.val (16 + q.val)
      (o.elim (missAudio (qix t.val (16 + q.val)) s.chip.frame d)
        (fun e => takeAudio (qix t.val (16 + q.val)) s.chip.frame e d))) := by
  refine leaves_onChip (execAudioInFrame.eq_def t q fetched s) ?_
  refine (if_neg (fun h => ?_)).trans ?_
  · obtain h | h | h := h
    · exact hon h
    · exact h htick
    · exact hnew h
  · dsimp only
    rw [hr]
    cases o <;> rfl

/-- AUDIO_IN_FRAME on a DISABLED queue. -/
theorem leaves_audioInFrame_disabled (h : (s.chip.queue (qix t.val (16 + q.val))).state = .disabled) :
    Leaves (.audioInFrame t q fetched) s s.chip :=
  leaves_onChip (execAudioInFrame.eq_def t q fetched s) (if_pos (.inl h))

end

/-! ### Audio and stems out (R404, R406) -/

/-- AUDIO_OUT_FRAME on a RUNNING queue whose entry is due: with no slot free it is dropped, else written. -/
theorem leaves_audioOutFrame {t : Fin 16} {q : Fin 8} :
    let c := s.chip
    let i := qix t.val (20 + q.val)
    let x := c.queue i
    let k := (c.time.stc - 2) / c.bsize - 2
    let n := x.channels (20 + q.val)
    let filled := x.filled || (decide (q.val < 4) && frameFaded c k)
    let body := if q.val < 4 then audioBody c k x.first n else stemBody c t.val (q.val - 4) k n
    x.state = .running → 2 * c.bsize + 2 ≤ c.time.stc → x.audioFrame ≠ k + 1 →
    Leaves (.audioOutFrame t q) s (if x.hasSlot then
      raise t.val (20 + q.val) (modQueue i (fun y => { y with filled := false, audioFrame := k + 1 })
        (ringPost i (fun p => audioHeader c.bsize k n filled p ++ body) c))
      else modQueue i (fun y => { y with count := satAdd 32 y.count 1, filled := true, audioFrame := k + 1 }) c) := by
  intro c i x k n filled body hrun hdue hnew
  refine leaves_onChip (execAudioOutFrame.eq_def t q s) ?_
  refine (if_neg (fun h => ?_)).trans ?_
  · obtain h | h | h := h
    · exact h hrun
    · exact Nat.not_lt.mpr hdue h
    · exact hnew h
  · show (if (!x.hasSlot) = true then _ else _) = _
    cases x.hasSlot <;> rfl

end

/-- Settles O26: each command is its guard and one effect; a first overrun is judged by the wet edge that it finds.  A HALTED queue
reads as missing data (log entry 69). -/
theorem audioAndExchangeFrames : Obligations.AudioAndExchangeFrames := by
  intro s c
  refine ⟨leaves_skimOverrun_none, fun p => leaves_skimOverrun_unmade, fun p hnow hmade hfirst => ?overrun,
    fun x t => leaves_exchangeCopy, fun x => leaves_exchangeCopy_idle, fun x t ht hdir hframe => ⟨fun hdone => ?done, ?late⟩,
    leaves_windowFill, fun n x => leaves_windowFill, fun t q fetched => ?audioIn, fun t q => ?audioOut⟩
  case overrun =>
    intro c1 c2
    exact ⟨fun hphase => leaves_skimOverrun_first hnow hmade hfirst (if_neg hphase),
      fun hphase => leaves_skimOverrun_first hnow hmade hfirst (if_pos hphase)⟩
  case done => exact ⟨_, leaves_exchangeReturnCopy ht hdir hframe hdone, copy_reads _ _ _ _⟩
  case late => exact leaves_exchangeReturnCopy_late ht
  case audioIn =>
    intro i r htick hnew
    have hon {st : QueueState} (h : (c.queue i).state = st) (hst : st ≠ .disabled) : (c.queue i).state ≠ .disabled := h ▸ hst
    refine ⟨fun e hrun he => ?_, fun hrun hnone => ?_, fun hhalt => ?_, leaves_audioInFrame_disabled⟩
    · exact leaves_audioInFrame (o := some e) (d := r.2) htick hnew (hon hrun (by decide)) ((if_pos hrun).trans (Prod.ext he rfl))
    · exact leaves_audioInFrame (o := none) (d := r.2) htick hnew (hon hrun (by decide)) ((if_pos hrun).trans (Prod.ext hnone rfl))
    · exact leaves_audioInFrame (o := none) (d := c) htick hnew (hon hhalt (by decide)) (if_neg (by rw [hhalt]; decide))
  case audioOut =>
    intro i x k hrun hdue hnew
    have h := leaves_audioOutFrame hrun hdue hnew
    exact ⟨fun hslot => by rwa [if_neg (by rw [show x.hasSlot = false from hslot]; decide)] at h,
      fun hslot => by rwa [if_pos (show x.hasSlot = true from hslot)] at h⟩

end Sys2Proof.Machine
end

section
/-!
SUPPORT. O29: coats and the wet edge, from their commands to the switch.
-/

namespace Sys2Proof.Machine

/-! ### An event source (R408) -/

/-- A bit that has been set is set. -/
theorem bit_withBit_true (n i : Nat) : bit (withBit n i true) i = true := by
  unfold withBit bit
  split
  case isTrue h => exact h
  case isFalse h => rw [if_pos rfl, Nat.add_comm, Nat.testBit_two_pow_add_eq, Bool.eq_false_iff.mpr h, Bool.not_false]

/-- A source that is raised stands in its tenant's status. -/
theorem evtStatus_raise (t v : Nat) (c : Chip) : bit ((raise t v c).tenant t).evtStatus v = true := by
  unfold raise
  dsimp only
  split
  case isTrue h => exact h
  case isFalse =>
    set d := modTenant t (fun x => { x with evtStatus := withBit x.evtStatus v true }) c with hd
    have hset : bit (d.tenant t).evtStatus v = true := by
      rw [hd, tenant_modTenant_same]
      exact bit_withBit_true _ _
    unfold when_ msix
    split_ifs
    · exact hset
    · rw [tenant_modTenant_same]
      exact hset
    · exact hset

/-! ### Permissions (R411, R554) -/

/-- Of the objects only Lifecycle.State bears on permissions. -/
theorem may_setNum {o : Nat} (v : Nat) (c : Chip) (h : o ≠ Obj.lifecycleState) (kind unit master right : Nat) :
    (setNum o v c).may kind unit master right = c.may kind unit master right := by
  simp only [Chip.may, Chip.accessEntry, Chip.accessBase, Chip.kolefLevel, num_setNum_other c v h.symm, setNum_work]

/-! ### Coats (R245, R246) -/

section

variable {r : Req} {a : Nat} {s : State}

/-- A commit that passes its checks makes the staged image the next coat, under the master's lease. -/
theorem answers_coatCommit_passed (hw : Writes r a Obj.skimCoatCommit [1] s) :
    let c := (judged r.path s).chip
    let d := setNum Obj.skimCoatResult (coatResult c a) c
    coatResult c a = 0 → Answers (.coatCommit r) r a Obj.skimCoatCommit [1] s
      (quietExit (leaseSet 4 Obj.skimCoatCommit a noTerm (setNext (d.blob Obj.skimCoatImage) d))) St.ok := by
  intro c d h
  exact serveRow_chip hw (if_neg (not_not.mpr h))

/-- One that fails a check records the check as its Result. -/
theorem answers_coatCommit_failed (hw : Writes r a Obj.skimCoatCommit [1] s) :
    let c := (judged r.path s).chip
    coatResult c a ≠ 0 → Answers (.coatCommit r) r a Obj.skimCoatCommit [1] s
      (setNum Obj.skimCoatResult (coatResult c a) c) (resultStatus (coatResult c a)) :=
  fun h => serveRow_chip hw (if_pos h)

/-- The next coat is cleared outside a wet edge. -/
theorem answers_coatClear_idle (hw : Writes r a Obj.skimCoatCommit [2] s) :
    let c := (judged r.path s).chip
    c.skim.wet.phase = .idle → Answers (.coatClear r) r a Obj.skimCoatCommit [2] s
      (leaseDrop 4 Obj.skimCoatCommit (setNext [] (setNum Obj.skimCoatResult 0 c))) St.ok :=
  fun h => serveRow_chip hw (if_neg (not_not.mpr h))

/-- A wet edge keeps it. -/
theorem answers_coatClear_busy (hw : Writes r a Obj.skimCoatCommit [2] s) :
    let c := (judged r.path s).chip
    c.skim.wet.phase ≠ .idle → Answers (.coatClear r) r a Obj.skimCoatCommit [2] s (setNum Obj.skimCoatResult 7 c) St.busy :=
  fun h => serveRow_chip hw (if_pos h)

/-! ### Go and Cancel (R469, R474) -/

/-- Without C on the wet edge, Go records its Result and is refused. -/
theorem answers_wetEdgeGo_noAccess (hw : Writes r a Obj.skimWetEdgeGo [1] s) :
    let c := (judged r.path s).chip
    c.may 0x01 0x30 a 2 = false → Answers (.wetEdgeGo r) r a Obj.skimWetEdgeGo [1] s
      (setNum Obj.skimWetEdgeResult (wetGoResult c) c) St.noAccess := by
  intro c h
  refine serveRow_chip hw (if_pos ?_)
  rw [may_setNum _ _ (by decide), show (judged r.path s).chip.may 0x01 0x30 a 2 = false from h]
  rfl

/-- With it, a Go that its checks refuse records its Result. -/
theorem answers_wetEdgeGo_failed (hw : Writes r a Obj.skimWetEdgeGo [1] s) :
    let c := (judged r.path s).chip
    c.may 0x01 0x30 a 2 = true → wetGoResult c ≠ 0 → Answers (.wetEdgeGo r) r a Obj.skimWetEdgeGo [1] s
      (setNum Obj.skimWetEdgeResult (wetGoResult c) c) (resultStatus (wetGoResult c)) := by
  intro c h hfail
  refine serveRow_chip hw ((if_neg ?_).trans (if_pos hfail))
  rw [may_setNum _ _ (by decide), show (judged r.path s).chip.may 0x01 0x30 a 2 = true from h]
  decide

/-- In staged mode a next coat and no wet edge pass every check. -/
theorem wetGoResult_staged {c : Chip} (hnext : c.skim.next ≠ []) (hidle : c.skim.wet.phase = .idle)
    (hmode : c.num Obj.skimWetEdgeMode = 2) : wetGoResult c = 0 := by
  unfold wetGoResult
  rw [if_neg (by simpa using hnext), if_neg (not_not.mpr hidle), if_neg (by rw [hmode]; omega)]

/-- F of a crossfade and D of a staged switch, in ticks. -/
def wetLength (cross : Bool) (c : Chip) : Nat :=
  (c.num (if cross then Obj.skimWetEdgeFeatherMs else Obj.skimWetEdgeDipMs) * c.fs + 999) / 1000

/-- The objects that show a scheduled wet edge leave Skim as the schedule sets it. -/
theorem skim_schedule (st n start stop : Nat) (late : Bool) (f : Skim → Skim) (c : Chip) :
    (setWetStatus st late (setNum Obj.skimWetEdgeChanged n (setNum Obj.skimWetEdgeStartTick start
      (setNum Obj.skimWetEdgeEndTick stop (modSkim f c))))).skim = f c.skim := rfl

/-- A Go in staged mode schedules the switch, no earlier than a dip after the tick after next. -/
theorem completes_wetEdgeGo_staged (hw : Writes r a Obj.skimWetEdgeGo [1] s) :
    let c := (judged r.path s).chip
    let d := setNum Obj.skimWetEdgeResult (wetGoResult c) c
    let dip := (d.num Obj.skimWetEdgeDipMs * d.fs + 999) / 1000
    let start := max (d.num Obj.skimWetEdgeApplyTick) (d.time.stc + 2 + dip)
    c.may 0x01 0x30 a 2 = true → c.skim.next ≠ [] → c.skim.wet.phase = .idle → c.num Obj.skimWetEdgeMode = 2 →
    Completes (.wetEdgeGo r) s (fun t => ∃ e, t = answered r a Obj.skimWetEdgeGo [1] ({ s with chip := e }, St.ok) ∧
      e.skim.wet.phase = .pending ∧ e.skim.wet.cross = false ∧ e.skim.wet.start = start ∧ e.skim.wet.len = dip ∧
      e.skim.wet.changed = changedSet c.skim.current c.skim.next ∧ e.skim.current = c.skim.current ∧ e.skim.next = c.skim.next) := by
  intro c d dip start hmay hnext hidle hmode
  have hmode' : d.num Obj.skimWetEdgeMode = 2 := (num_setNum_other c _ (by decide)).trans hmode
  have hpass : ¬ wetGoResult c ≠ 0 := not_not.mpr (wetGoResult_staged hnext hidle hmode)
  have hmay' : ¬ (!d.may 0x01 0x30 a 2) = true := by
    rw [may_setNum _ _ (by decide), hmay]
    decide
  have hstaged : (d.num Obj.skimWetEdgeMode == 1 || (d.num Obj.skimWetEdgeMode == 0 && d.coatsFit)) = false := by
    rw [hmode']
    rfl
  refine ⟨_, serveRow_chip hw ((if_neg hmay').trans (if_neg hpass)), _, rfl, ?_⟩
  simp only [skim_schedule]
  exact ⟨trivial, hstaged, congrArg (fun cross : Bool => max (d.num Obj.skimWetEdgeApplyTick)
    (d.time.stc + 2 + if cross then 0 else wetLength cross d)) hstaged, congrArg (wetLength · d) hstaged, rfl, rfl, rfl⟩

/-- A PENDING wet edge is cancelled. -/
theorem answers_wetEdgeCancel_pending (hw : Writes r a Obj.skimWetEdgeGo [2] s) :
    let c := (judged r.path s).chip
    c.may 0x01 0x30 a 2 = true → c.skim.wet.phase = .pending → Answers (.wetEdgeCancel r) r a Obj.skimWetEdgeGo [2] s
      (setNum Obj.skimWetEdgeResult 0 (setWetStatus 5 c.skim.wet.late (modSkim (fun k => { k with wet := {} }) c))) St.ok :=
  fun hmay h => serveRow_chip hw ((if_neg (by rw [hmay]; decide)).trans (if_pos h))

/-- With nothing PENDING it is too late. -/
theorem answers_wetEdgeCancel_late (hw : Writes r a Obj.skimWetEdgeGo [2] s) :
    let c := (judged r.path s).chip
    c.may 0x01 0x30 a 2 = true → c.skim.wet.phase ≠ .pending → Answers (.wetEdgeCancel r) r a Obj.skimWetEdgeGo [2] s
      (setNum Obj.skimWetEdgeResult 8 c) St.refused :=
  fun hmay h => serveRow_chip hw ((if_neg (by rw [hmay]; decide)).trans (if_neg h))

/-- Without C on the wet edge nothing is cancelled. -/
theorem answers_wetEdgeCancel_noAccess (hw : Writes r a Obj.skimWetEdgeGo [2] s) :
    let c := (judged r.path s).chip
    c.may 0x01 0x30 a 2 = false → Answers (.wetEdgeCancel r) r a Obj.skimWetEdgeGo [2] s c St.noAccess :=
  fun hmay => serveRow_chip hw (if_pos (by rw [hmay]; rfl))

end

/-! ### The switch (R471, R472) -/

/-- WetEdge.Status holds the state below LATE. -/
theorem num_setWetStatus {st : Nat} (late : Bool) (c : Chip) (h : st < 128) :
    (setWetStatus st late c).num Obj.skimWetEdgeStatus % 128 = st := by
  have hw : objWidth Obj.skimWetEdgeStatus = 1 := by decide +kernel
  rw [setWetStatus, num_setNum_fits c hw (by split <;> omega)]
  split <;> omega

/-- The other number objects. -/
theorem num_setWetStatus_other {st o : Nat} (late : Bool) (c : Chip) (h : o ≠ Obj.skimWetEdgeStatus) :
    (setWetStatus st late c).num o = c.num o := num_setNum_other c _ h

theorem skim_switchCoat (c : Chip) : (switchCoat c).skim = { c.skim with current := c.skim.next, next := [] } := rfl

/-- The coat that becomes current shows its cycles. -/
theorem num_switchCoat_cycles (c : Chip) :
    (switchCoat c).num Obj.skimCoatCurrentCycles = coatCycles c.skim.next % 2 ^ 16 := by
  have hw : objWidth Obj.skimCoatCurrentCycles = 2 := by decide +kernel
  show (setNext [] (setCurrent c.skim.next c)).num Obj.skimCoatCurrentCycles = _
  unfold setNext setCurrent
  rw [num_setNum_other _ _ (by decide), num_setNum_other _ _ (by decide), modSkim_num, num_setNum_same, hw]
  rfl

theorem raiseCoat_skim (w : Wet) (c : Chip) : (raiseCoat w c).skim = c.skim := by
  unfold raiseCoat
  cases w.tenant with
  | none => rfl
  | some t => exact (SameUnits.raise t 37 c).skim

theorem num_raiseCoat (w : Wet) (o : Nat) (c : Chip) : (raiseCoat w c).num o = c.num o := by
  unfold raiseCoat
  cases w.tenant with
  | none => rfl
  | some t => simp only [Chip.num, raise_nums]

/-- The tenant that wrote Go has its COAT source raised. -/
theorem evtStatus_raiseCoat {w : Wet} {t : Nat} (c : Chip) (h : w.tenant = some t) :
    bit ((raiseCoat w c).tenant t).evtStatus 37 = true := by
  unfold raiseCoat
  rw [h]
  exact evtStatus_raise t 37 c

/-- A guard that is computed decides as what it says. -/
theorem when_eq_ite {α : Type} {b : Bool} {p : Prop} [Decidable p] (h : b = true ↔ p) (f : α → α) (x : α) :
    when_ b f x = if p then f x else x := ite_congr (propext h) (fun _ => rfl) (fun _ => rfl)

section

variable {s : State} {c : Chip}

/-- CROSSFADE_START. -/
theorem leaves_crossfadeStart
    (h : (if s.chip.skim.wet.phase = .pending ∧ s.chip.skim.wet.cross = true ∧ s.chip.skim.wet.start ≤ s.chip.passNext then
      setWetStatus 2 s.chip.skim.wet.late (setWetPhase .crossing s.chip) else s.chip) = c) : Leaves .crossfadeStart s c :=
  leaves_onChip (i := .crossfadeStart) (execCrossfadeStart.eq_def s) ((when_eq_ite (by simp [and_assoc]) _ _).trans h)

/-- CROSSFADE_END. -/
theorem leaves_crossfadeEnd
    (h : (if s.chip.skim.wet.phase = .crossing ∧ s.chip.skim.wet.start + s.chip.skim.wet.len ≤ s.chip.passNext then
      raiseCoat s.chip.skim.wet (wetEnd 4 (switchCoat s.chip)) else s.chip) = c) : Leaves .crossfadeEnd s c :=
  leaves_onChip (i := .crossfadeEnd) (execCrossfadeEnd.eq_def s) ((when_eq_ite (by simp) _ _).trans h)

/-- DIP_OUT_START. -/
theorem leaves_dipOutStart
    (h : (if s.chip.skim.wet.phase = .pending ∧ s.chip.skim.wet.cross = false ∧
        s.chip.skim.wet.start ≤ s.chip.passNext + s.chip.skim.wet.len then
      setWetStatus 3 s.chip.skim.wet.late (setWetPhase .dipOut s.chip) else s.chip) = c) : Leaves .dipOutStart s c :=
  leaves_onChip (i := .dipOutStart) (execDipOutStart.eq_def s) ((when_eq_ite (by simp [and_assoc]) _ _).trans h)

/-- STAGE_SWITCH. -/
theorem leaves_stageSwitch
    (h : (if s.chip.skim.wet.phase = .dipOut ∧ s.chip.skim.wet.start ≤ s.chip.passNext then
      raiseCoat s.chip.skim.wet (setWetPhase .dipIn (switchCoat s.chip)) else s.chip) = c) : Leaves .stageSwitch s c :=
  leaves_onChip (i := .stageSwitch) (execStageSwitch.eq_def s) ((when_eq_ite (by simp) _ _).trans h)

/-- DIP_END. -/
theorem leaves_dipEnd
    (h : (if s.chip.skim.wet.phase = .dipIn ∧ s.chip.skim.wet.start + s.chip.skim.wet.len ≤ s.chip.passNext then
      wetEnd 4 s.chip else s.chip) = c) : Leaves .dipEnd s c :=
  leaves_onChip (i := .dipEnd) (execDipEnd.eq_def s) ((when_eq_ite (by simp) _ _).trans h)

end

/-- Settles O29: a request by the checks of its rule, a strobe by its guard; what the switch shows is read after the wet edge's own
writes.  Coat.Clear during a switch is BUSY (log entry 57), and Cancel with nothing PENDING is TOO_LATE (log entry 60). -/
theorem coatsAndWetEdges : Obligations.CoatsAndWetEdges := by
  refine ⟨fun r a s => ?requests, fun s => ?strobes⟩
  case requests =>
    intro c
    refine ⟨fun hw => ?commit, fun hw => ⟨answers_coatClear_idle hw, answers_coatClear_busy hw⟩, fun hw => ?go,
      fun hw => ⟨answers_wetEdgeCancel_pending hw, answers_wetEdgeCancel_late hw, answers_wetEdgeCancel_noAccess hw⟩⟩
    case commit =>
      intro d
      have hfail {n : Nat} (h : coatResult c a = n) (hn : n ≠ 0) :
          Answers (.coatCommit r) r a Obj.skimCoatCommit [1] s d (resultStatus n) :=
        h ▸ answers_coatCommit_failed hw (h ▸ hn)
      refine ⟨answers_coatCommit_passed hw, fun h => hfail h (by decide), fun h => hfail h (by decide), fun hpos hlt => ?_⟩
      have hrefused : resultStatus (coatResult c a) = St.refused := by
        generalize coatResult c a = n at hpos hlt
        interval_cases n <;> rfl
      exact hrefused ▸ hfail rfl (Nat.ne_of_gt hpos)
    case go =>
      intro d
      have hfail {n : Nat} (hmay : c.may 0x01 0x30 a 2 = true) (h : wetGoResult c = n) (hn : n ≠ 0) :
          Answers (.wetEdgeGo r) r a Obj.skimWetEdgeGo [1] s d (resultStatus n) :=
        h ▸ answers_wetEdgeGo_failed hw hmay (h ▸ hn)
      refine ⟨answers_wetEdgeGo_noAccess hw, fun hmay h => hfail hmay h (by decide), fun hmay h => ?_,
        completes_wetEdgeGo_staged hw⟩
      obtain h | h := h
      · exact hfail hmay h (by decide)
      · exact hfail hmay h (by decide)
  case strobes =>
    intro c w p
    refine ⟨fun hphase hcross hstart => ?crossfadeStart, fun h => leaves_crossfadeStart (if_neg ?_),
      fun hphase hend => ?crossfadeEnd, fun h => leaves_crossfadeEnd (if_neg ?_),
      fun hphase hstaged hstart => ?dipOutStart, fun h => leaves_dipOutStart (if_neg ?_),
      fun hphase hstart => ?stageSwitch, fun h => leaves_stageSwitch (if_neg ?_),
      fun hphase hend => ?dipEnd, fun h => leaves_dipEnd (if_neg ?_)⟩
    case crossfadeStart =>
      exact ⟨_, leaves_crossfadeStart (if_pos ⟨hphase, hcross, hstart⟩), rfl, num_setWetStatus _ _ (by decide), rfl, rfl⟩
    case crossfadeEnd =>
      refine ⟨_, leaves_crossfadeEnd (if_pos ⟨hphase, hend⟩), raiseCoat_skim _ _, ?_, ?_, fun x hx => evtStatus_raiseCoat _ hx⟩
      · rw [num_raiseCoat]
        exact num_setWetStatus _ _ (by decide)
      · rw [num_raiseCoat, wetEnd, num_setWetStatus_other _ _ (by decide), modSkim_num]
        exact num_switchCoat_cycles c
    case dipOutStart =>
      exact ⟨_, leaves_dipOutStart (if_pos ⟨hphase, hstaged, hstart⟩), rfl, num_setWetStatus _ _ (by decide)⟩
    case stageSwitch =>
      exact ⟨_, leaves_stageSwitch (if_pos ⟨hphase, hstart⟩), raiseCoat_skim _ _, fun x hx => evtStatus_raiseCoat _ hx⟩
    case dipEnd =>
      exact ⟨_, leaves_dipEnd (if_pos ⟨hphase, hend⟩), rfl, num_setWetStatus _ _ (by decide)⟩
    all_goals
      simp only [not_and_or, Nat.not_le, Bool.not_eq_true, Bool.not_eq_false]
      exact h

end Sys2Proof.Machine
end

section
/-!
SUPPORT. O30: a set of a slot beyond the dictionary's 256 has no Status object, so a state that holds one refutes the statement.
-/

namespace Sys2Proof.Machine

/-- An object number that no row covers reads 0 after any write. -/
theorem num_setNum_uncovered {o : Nat} (v : Nat) (c : Chip) (h : objWidth o = 0) : (setNum o v c).num o = 0 := by
  rw [num_setNum_same, h]
  exact Nat.mod_one v

/-- A set that is PENDING for slot 256; the dictionary's slots are 0 to 255 (R258). -/
def straySet : LoadSet := { slot := some 256, applyTick := 0, due := 0, seq := 0, entries := [], late := false }

/-- A state in which that set alone waits, and is due at the sample that the next boundary serves. -/
def straySetState : State := { chip := { time := { stc := 32 }, skim := { sets := [straySet] } } }

/-- The stray set is TAKEN, and its slot's Status is written as any slot's. -/
theorem chip_takeSets_straySet : takeSets 0 straySetState.chip =
    setLoadStatus 256 3 false (modSkim (fun k => { k with sets := [{ straySet with taken := some 0 }] }) straySetState.chip) := rfl

/-- Refutes O30: in `straySetState` SAFE_LOAD_TAKEN takes the set of slot 256, whose Status object no row of the dictionary covers, so
it reads 0 and not the 3 that the statement reads.  The statement speaks of every state, and nothing in it bounds a set's slot; a
commit names one of the slots 0 to 255. -/
theorem not_safeLoadsAndExchange : ¬ Obligations.SafeLoadsAndExchange := by
  intro h
  obtain ⟨-, htaken, -⟩ := h
  obtain ⟨-, -, hone⟩ := htaken straySetState
  obtain ⟨t, hexec, -, hstatus⟩ := hone straySet (by decide) rfl rfl (by decide)
  have hrun : t = { straySetState with chip := takeSets 0 straySetState.chip } := Host.Outcome.next.inj (hexec.symm.trans rfl)
  have hwidth : objWidth (Obj.skimSafeLoadStatus 256) = 0 := by decide +kernel
  have hread : t.chip.num (Obj.skimSafeLoadStatus 256) = 0 := by
    rw [hrun, chip_takeSets_straySet]
    exact num_setNum_uncovered _ _ hwidth
  have hthree := hstatus 256 rfl
  rw [hread] at hthree
  exact absurd hthree (by decide)

end Sys2Proof.Machine
end

section
/-!
SUPPORT. O31: bus and stem packets, digests, and Nerlil messages from another chip.
-/

namespace Sys2Proof.Machine

/-! ### A packet joins a stream -/

/-- What is put at a key is found there. -/
theorem find?_tput_same {α : Type} (t : Table α) (k : Nat) (v : α) : (tput t k v).find? (fun e => e.1 == k) = some (k, v) := by
  induction t with
  | nil => simp [tput]
  | cons e t ih =>
    obtain ⟨j, w⟩ := e
    rw [tput]
    split_ifs with hsame hbelow
    · simp
    · simp
    · rwa [List.find?_cons_of_neg (by simpa using hsame)]

/-- A stream once the packet of sample or step `m` is there. -/
def Stream.withPacket (st : Stream) (m contrib origin : Nat) (sum : Table Int) : Stream :=
  { st with packets := tput st.packets m (contrib, sum), origin := origin }

/-! ### Bus packets (R251 to R253) -/

/-- The values of a bus packet as a map. -/
def busSum (values : List (BitVec 64)) : Table Int :=
  ((values.zipIdx).map (fun v => (v.2, v.1.toInt))).filter (fun e => e.2 != 0 && decide (e.1 < 512))

/-- The chip once a bus packet has joined its stream. -/
def busArrived (rising : Bool) (m contrib origin : Nat) (values : List (BitVec 64)) (c : Chip) : Chip :=
  modSkim (fun k => if rising then { k with rising := k.rising.withPacket m contrib origin (busSum values) }
    else { k with falling := k.falling.withPacket m contrib origin (busSum values) }) c

section

variable {rising : Bool} {m contrib origin epoch : Nat} {values : List (BitVec 64)} {c : Chip}

/-- A bus packet on a port that carries none, of another epoch, or later than its pass, is missing. -/
theorem takeBus_missed (h : c.busPort (if rising then 1 else 0) m = false ∨ epoch ≠ c.epochOf m ∨ m + c.presentDelay < c.skim.passed) :
    takeBus rising m contrib origin epoch values c = c :=
  if_pos (by simpa [or_assoc] using h)

/-- Any other joins its stream and is forwarded. -/
theorem takeBus_arrived
    (h : ¬ (c.busPort (if rising then 1 else 0) m = false ∨ epoch ≠ c.epochOf m ∨ m + c.presentDelay < c.skim.passed)) :
    takeBus rising m contrib origin epoch values c = forwardBus rising m (busArrived rising m contrib origin values c) :=
  if_neg (by simpa [or_assoc] using h)

/-- A packet waits for this chip's contribution. -/
theorem forwardBus_waits (h : c.skim.passed ≤ m) : forwardBus rising m c = c := if_neg (fun ⟨_, hm⟩ => Nat.not_lt.mpr h hm)

/-- A rising packet that has come in by port 1 leaves by port 0 with this chip's contribution. -/
theorem forwardBus_rising {k : Nat} {sum : Table Int} (hout : c.busPort 0 m = true) (hin : c.busPort 1 m = true)
    (hm : m < c.skim.passed) (hp : c.skim.rising.packets.find? (fun e => e.1 == m) = some (m, k, sum)) :
    forwardBus true m c = sendBus true m (k + if c.contributes then 1 else 0) c.skim.rising.origin
      (addBuses sum (tget [] c.skim.own m)) c := by
  refine (if_pos ⟨hout, hm⟩).trans ((if_pos hin).trans ?_)
  simp only [if_true, hp]

/-- A packet that is here before its pass joins its stream. -/
theorem takeBus_early (h : ¬ (c.busPort (if rising then 1 else 0) m = false ∨ epoch ≠ c.epochOf m ∨
      m + c.presentDelay < c.skim.passed)) (hm : c.skim.passed ≤ m) :
    takeBus rising m contrib origin epoch values c = busArrived rising m contrib origin values c := by
  refine (takeBus_arrived h).trans (forwardBus_waits ?_)
  cases rising <;> exact hm

/-- A rising packet that is here after its pass goes on at once. -/
theorem takeBus_rising_late (h : ¬ (c.busPort 1 m = false ∨ epoch ≠ c.epochOf m ∨ m + c.presentDelay < c.skim.passed))
    (hm : m < c.skim.passed) (hout : c.busPort 0 m = true) :
    takeBus true m contrib origin epoch values c = sendBus true m (contrib + if c.contributes then 1 else 0) origin
      (addBuses (busSum values) (tget [] c.skim.own m)) (busArrived true m contrib origin values c) := by
  have hin : c.busPort 1 m = true := eq_true_of_ne_false (fun hclosed => h (.inl hclosed))
  exact (takeBus_arrived (rising := true) h).trans (forwardBus_rising (c := busArrived true m contrib origin values c) hout hin hm
    (find?_tput_same _ _ _))

end

/-! ### Stem packets (R251, R336) -/

/-- The values of a stem packet as a map. -/
def stemSum (values : List (BitVec 32)) : Table Int :=
  ((values.zipIdx).map (fun v => (v.2, v.1.toInt))).filter (fun e => e.2 != 0 && decide (e.1 < 256))

/-- The chip once a stem packet has joined its stream. -/
def stemArrived (rising : Bool) (m contrib origin : Nat) (values : List (BitVec 32)) (c : Chip) : Chip :=
  setStemStream rising ((c.stemStream rising).withPacket m contrib origin (stemSum values)) c

/-- A stem packet that is forwarded leaves the chip, and nothing else changes. -/
theorem forwardStem_out (rising : Bool) (m : Nat) (c : Chip) :
    forwardStem rising m c = { c with out := (forwardStem rising m c).out } := by
  unfold forwardStem
  extract_lets inPort
  cases c.chain.stemOwn.find? (fun e => e.1 == m) with
  | none => rfl
  | some e =>
    refine iteInduction (motive := fun d : Chip => d = { c with out := d.out }) (fun _ => ?_) (fun _ => rfl)
    refine iteInduction (motive := fun d : Chip => d = { c with out := d.out }) (fun _ => ?_) (fun _ => rfl)
    cases (c.stemStream rising).packets.find? (fun e => e.1 == m) with
    | some _ => rfl
    | none => rfl

section

variable {rising : Bool} {m contrib origin epoch : Nat} {values : List (BitVec 32)} {c : Chip}

/-- A stem packet on a port that carries none, of another epoch, or later than its presentation, is discarded. -/
theorem takeStem_missed (h : c.busPort (if rising then 1 else 0) m = false ∨ epoch ≠ c.epochOf m ∨ m < c.chain.stemShown) :
    takeStem rising m contrib origin epoch values c = c :=
  if_pos (by simpa [or_assoc] using h)

/-- Any other joins its stream; what is forwarded changes nothing here. -/
theorem takeStem_arrived
    (h : ¬ (c.busPort (if rising then 1 else 0) m = false ∨ epoch ≠ c.epochOf m ∨ m < c.chain.stemShown)) :
    let t := takeStem rising m contrib origin epoch values c
    t = { stemArrived rising m contrib origin values c with out := t.out } := by
  have e : takeStem rising m contrib origin epoch values c = forwardStem rising m (stemArrived rising m contrib origin values c) :=
    if_neg (by simpa [or_assoc] using h)
  intro t
  rw [show t = _ from e]
  exact forwardStem_out _ _ _

/-- A stream that has been set is read back. -/
theorem stemStream_setStemStream (rising : Bool) (x : Stream) (c : Chip) : (setStemStream rising x c).stemStream rising = x := by
  cases rising <;> rfl

/-- What a stem packet that is taken leaves as it is, and its count of contributors in its stream. -/
theorem takeStem_keeps
    (h : ¬ (c.busPort (if rising then 1 else 0) m = false ∨ epoch ≠ c.epochOf m ∨ m < c.chain.stemShown)) :
    let t := takeStem rising m contrib origin epoch values c
    t.chain.ports = c.chain.ports ∧ t.nums = c.nums ∧ (tget (0, []) (t.stemStream rising).packets m).1 = contrib := by
  intro t
  rw [show t = _ from takeStem_arrived h]
  refine ⟨?_, rfl, ?_⟩
  · cases rising <;> rfl
  · show (tget (0, []) ((stemArrived rising m contrib origin values c).stemStream rising).packets m).1 = contrib
    rw [stemArrived, stemStream_setStemStream]
    exact congrArg Prod.fst (tget_tput_same _ _ _ _)

end

/-! ### Messages from another chip (R432) -/

/-- A response that no request awaits is dropped. -/
theorem takeResponse_none {chip : Nat} {message : List Byte} {c : Chip} (h : c.work.awaited = []) : takeResponse chip message c = c := by
  unfold takeResponse
  simp only [h, List.find?_nil]

/-- The response to the one request that is awaited goes to where the request came from. -/
theorem takeResponse_one {chip : Nat} {message : List Byte} {c : Chip} {w : Awaited} (h : c.work.awaited = [w]) (hdst : w.dst = chip)
    (htxn : w.txn = field message 2 2) (hop : w.op + 128 = field message 0 1) :
    takeResponse chip message c = deliver w.path message { c with work := { c.work with awaited := [] } } := by
  unfold takeResponse
  simp only [h, hdst, htxn, hop, beq_self_eq_true, Bool.and_self, List.find?_cons_of_pos, modWork, List.erase_cons_head]

/-- A request from another chip is served; a response goes to its request. -/
theorem exec_chainNdp (chip : Byte) (tag : BitVec 32) (message : List Byte) (s : State) :
    exec (.chainNdp chip tag message) s = if bit (field message 0 1) 7 then s.onChip (takeResponse chip.toNat message) else
      .next (serveMsg (.chain chip (BitVec.ofNat 8 tag.toNat) (bit tag.toNat 8)) (parseMsg message false) s) := rfl

/-- A response leaves what taking it leaves. -/
theorem leaves_chainNdp_response {chip : Byte} {tag : BitVec 32} {message : List Byte} {s : State} {c : Chip}
    (h : bit (field message 0 1) 7 = true) (hc : takeResponse chip.toNat message s.chip = c) :
    Leaves (.chainNdp chip tag message) s c :=
  leaves_onChip ((exec_chainNdp chip tag message s).trans (if_pos h)) hc

/-- Settles O31: a packet is missing or joins its stream, a digest counts from a member of the view, and a message is a request or a
response; what forwarding adds is output. -/
theorem packetsFromChips : Obligations.PacketsFromChips := by
  refine ⟨fun m contrib origin epoch values s => ?bus, fun m contrib origin epoch values s => ?stem,
    fun chip octets s => ⟨fun hview hother => ?_, fun h => ?_⟩, fun chip tag message s => ⟨fun h => ?_, fun h hnone => ?_, ?_⟩⟩
  case bus =>
    intro c sum put missed
    refine ⟨fun h => leaves_onChip (execBusRising.eq_def m contrib origin epoch values s) (takeBus_missed (rising := true) h),
      fun h => leaves_onChip (execBusFalling.eq_def m contrib origin epoch values s) (takeBus_missed (rising := false) h),
      fun h hm => leaves_onChip (execBusRising.eq_def m contrib origin epoch values s) (takeBus_early (rising := true) h hm),
      fun h hm => leaves_onChip (execBusFalling.eq_def m contrib origin epoch values s) (takeBus_early (rising := false) h hm),
      fun h hm hout => leaves_onChip (execBusRising.eq_def m contrib origin epoch values s) (takeBus_rising_late h hm hout)⟩
  case stem =>
    intro c missed
    refine ⟨fun h => leaves_onChip (execStemRising.eq_def m contrib origin epoch values s) (takeStem_missed (rising := true) h),
      fun h => leaves_onChip (execStemFalling.eq_def m contrib origin epoch values s) (takeStem_missed (rising := false) h),
      fun h => ?_, fun h => ?_⟩
    · obtain ⟨hports, hnums, hpacket⟩ := takeStem_keeps (rising := true) (contrib := contrib.toNat) (origin := origin.toNat)
        (values := values) h
      exact completes_onChip (execStemRising.eq_def m contrib origin epoch values s) ⟨hports, hnums, rfl, rfl, hpacket⟩
    · obtain ⟨hports, hnums, hpacket⟩ := takeStem_keeps (rising := false) (contrib := contrib.toNat) (origin := origin.toNat)
        (values := values) h
      exact completes_onChip (execStemFalling.eq_def m contrib origin epoch values s) ⟨hports, hnums, rfl, rfl, hpacket⟩
  · exact leaves_onChip (execHawkDigest.eq_def chip octets s) (if_pos ⟨hview, hother⟩)
  · refine leaves_onChip (execHawkDigest.eq_def chip octets s) (if_neg ?_)
    rintro ⟨hview, hother⟩
    exact h.elim (fun hout => Bool.eq_false_iff.mp hout hview) hother
  · exact (exec_chainNdp chip tag message s).trans (if_neg (by rw [h]; decide))
  · exact leaves_chainNdp_response h (takeResponse_none hnone)
  · exact fun w h hone hdst htxn hop => leaves_chainNdp_response h (takeResponse_one hone hdst htxn hop)

end Sys2Proof.Machine
end

section
/-!
SUPPORT. O33: what mounting, unmounting, formatting and preloading a volume leave and answer.
-/

namespace Sys2Proof.Machine

/-! ### Widths of the volumes' and imports' objects (R297) -/

theorem width_volumeMount {slot : Nat} (h : slot < 16) : objWidth (Obj.hodVolumeMount slot) = 1 :=
  (by decide +kernel : ∀ slot : Fin 16, objWidth (Obj.hodVolumeMount slot.val) = 1) ⟨slot, h⟩

theorem width_volumeResult {slot : Nat} (h : slot < 16) : objWidth (Obj.hodVolumeResult slot) = 1 :=
  (by decide +kernel : ∀ slot : Fin 16, objWidth (Obj.hodVolumeResult slot.val) = 1) ⟨slot, h⟩

theorem width_volumePreload {slot : Nat} (h : slot < 16) : objWidth (Obj.hodVolumePreload slot) = 1 :=
  (by decide +kernel : ∀ slot : Fin 16, objWidth (Obj.hodVolumePreload slot.val) = 1) ⟨slot, h⟩

theorem width_importStatus : objWidth Obj.hodImportStatus = 1 := by decide +kernel

/-- Objects of one unit are told apart by their subindex. -/
theorem unitObj_ne {i j : Nat} (n : Nat) (h : i ≠ j) : i + 256 * n ≠ j + 256 * n := mt Nat.add_right_cancel h

/-! ### Offers and metadata (R282, R294) -/

/-- Offers are messages to the chain: no number object changes. -/
@[simp] theorem sendOffers_nums (c : Chip) : (sendOffers c).nums = c.nums := by
  unfold sendOffers when_
  split <;> rfl

@[simp] theorem num_sendOffers (o : Nat) (c : Chip) : (sendOffers c).num o = c.num o := by
  simp only [Chip.num, sendOffers_nums]

@[simp] theorem sendOffers_hod (c : Chip) : (sendOffers c).hod = c.hod := by
  unfold sendOffers when_
  split <;> rfl

@[simp] theorem volume_modVolume_same (slot : Nat) (f : Volume → Volume) (c : Chip) :
    (modVolume slot f c).volume slot = f (c.volume slot) := tget_tmod_same _ c.hod.volumes slot f

/-- A volume that leaves takes its metadata and its cached extents along. -/
theorem clearVolume_volumes_cache (slot : Nat) (c : Chip) :
    (clearVolume slot c).hod.volumes = tdel c.hod.volumes slot ∧
    (clearVolume slot c).hod.cache = c.hod.cache.filter (fun e => e.volume != c.num (Obj.hodVolumeNumber slot)) := ⟨rfl, rfl⟩

/-! ### How a mount ends (R282, R283) -/

/-- Head extents of this chip's own drive are asked for without a message. -/
theorem num_pinExtent_local (vol object index o : Nat) (c : Chip) : (pinExtent vol object index false c).num o = c.num o := by
  unfold pinExtent
  simp only [Bool.false_eq_true, if_false]
  split_ifs <;> rfl

theorem num_forEach_pinExtent_local (vol o : Nat) (heads : List (Nat × Nat)) (c : Chip) :
    (forEach heads (fun x c => forEach (upTo x.2) (fun i c => pinExtent vol x.1 i false c) c) c).num o = c.num o :=
  forEach_keeps (fun d : Chip => d.num o = c.num o) _ _ c (fun x _ d hd =>
    forEach_keeps (fun e : Chip => e.num o = c.num o) _ _ d
      (fun i _ e he => (num_pinExtent_local vol x.1 i o e).trans he) hd) rfl

/-- Of a slot's objects the end of its preload writes HeadsPinned and, from PRELOADING to MOUNTED, State. -/
theorem num_settlePreload_other {o slot : Nat} (c : Chip) (hs : o ≠ Obj.hodVolumeState slot)
    (hp : o ≠ Obj.hodVolumeHeadsPinned slot) : (settlePreload slot c).num o = c.num o := by
  unfold settlePreload when_
  dsimp only
  split_ifs
  · rw [num_setNum_other _ _ hs, num_setNum_other _ _ hp]
  · rw [num_setNum_other _ _ hp]

theorem volumeState_settlePreload {slot : Nat} (c : Chip) (h : slot < 16) :
    (settlePreload slot c).num (Obj.hodVolumeState slot) = c.num (Obj.hodVolumeState slot) ∨
    (settlePreload slot c).num (Obj.hodVolumeState slot) = 2 := by
  unfold settlePreload when_
  dsimp only
  split_ifs
  · exact .inr (num_setNum_fits _ (width_volumeState h) (by decide))
  · exact .inl (num_setNum_other _ _ (unitObj_ne slot (by decide)))

/-- A mounted slot that is preloaded reads PRELOADING, or MOUNTED again once no head is missing; but for these and HeadsPinned
its number objects stay. -/
theorem num_preload_mounted {slot : Nat} {c : Chip} (h : slot < 16) (hm : c.mounted slot = true) :
    ((preload slot c).num (Obj.hodVolumeState slot) = 2 ∨ (preload slot c).num (Obj.hodVolumeState slot) = 3) ∧
    ∀ o, o ≠ Obj.hodVolumeState slot → o ≠ Obj.hodVolumeHeadsPinned slot → (preload slot c).num o = c.num o := by
  unfold preload
  simp only [hm, Bool.not_true, Bool.not_false, Bool.false_eq_true, if_false, when_, if_true]
  constructor
  · refine (volumeState_settlePreload _ h).symm.imp id fun e => ?_
    rw [e, num_forEach_pinExtent_local]
    exact num_setNum_fits _ (width_volumeState h) (by decide)
  · intro o hs hp
    rw [num_settlePreload_other _ hs hp, num_forEach_pinExtent_local, num_setNum_other _ _ hs]

/-- A conflict writes the slot's State alone. -/
theorem num_checkConflict_other {o slot : Nat} (c : Chip) (h : o ≠ Obj.hodVolumeState slot) :
    (checkConflict slot c).num o = c.num o := by
  unfold checkConflict
  dsimp only
  split_ifs
  · rw [num_snag, num_setNum_other _ _ h]
  · rfl

/-- A failed mount, with its result. -/
def failMount (slot n : Nat) (c : Chip) : Chip := setNum (Obj.hodVolumeResult slot) n (setNum (Obj.hodVolumeState slot) 4 c)

theorem num_failMount {slot : Nat} (n : Nat) (c : Chip) (h : slot < 16) :
    (failMount slot n c).num (Obj.hodVolumeMount slot) = c.num (Obj.hodVolumeMount slot) ∧
    (failMount slot n c).num (Obj.hodVolumeState slot) = 4 := by
  unfold failMount
  constructor
  · exact (num_setNum_other _ _ (unitObj_ne slot (by decide))).trans (num_setNum_other _ _ (unitObj_ne slot (by decide)))
  · exact (num_setNum_other _ _ (unitObj_ne slot (by decide))).trans (num_setNum_fits c (width_volumeState h) (by decide))

/-- A volume that is mounted: its metadata, and what its slot's objects read. -/
def showVolume (slot : Nat) (v : Volume) (c : Chip) : Chip :=
  setNum (Obj.hodVolumeBytes slot) (v.sb.extents * 65536) (setNum (Obj.hodVolumeImageHash slot) v.sb.imageHash
    (setNum (Obj.hodVolumeId slot) v.sb.id (setNum (Obj.hodVolumeResult slot) 0 (setNum (Obj.hodVolumeState slot) 2
      (modVolume slot (fun _ => v) c)))))

theorem num_showVolume {slot : Nat} (v : Volume) (c : Chip) (h : slot < 16) :
    (showVolume slot v c).num (Obj.hodVolumeMount slot) = c.num (Obj.hodVolumeMount slot) ∧
    (showVolume slot v c).num (Obj.hodVolumeState slot) = 2 := by
  have other {o : Nat} (hb : o ≠ Obj.hodVolumeBytes slot) (hi : o ≠ Obj.hodVolumeImageHash slot) (hd : o ≠ Obj.hodVolumeId slot)
      (hr : o ≠ Obj.hodVolumeResult slot) :
      (showVolume slot v c).num o = (setNum (Obj.hodVolumeState slot) 2 (modVolume slot (fun _ => v) c)).num o := by
    unfold showVolume
    rw [num_setNum_other _ _ hb, num_setNum_other _ _ hi, num_setNum_other _ _ hd, num_setNum_other _ _ hr]
  constructor
  · exact (other (unitObj_ne slot (by decide)) (unitObj_ne slot (by decide)) (unitObj_ne slot (by decide))
      (unitObj_ne slot (by decide))).trans (num_setNum_other _ _ (unitObj_ne slot (by decide)))
  · exact (other (unitObj_ne slot (by decide)) (unitObj_ne slot (by decide)) (unitObj_ne slot (by decide))
      (unitObj_ne slot (by decide))).trans (num_setNum_fits _ (width_volumeState h) (by decide))

/-- A volume that is shown, and preloaded where Preload asks for that (R283). -/
def takeVolume (slot : Nat) (v : Volume) (c : Chip) : Chip :=
  when_ ((showVolume slot v c).flag (Obj.hodVolumePreload slot)) (preload slot) (showVolume slot v c)

theorem num_takeVolume {slot : Nat} (v : Volume) (c : Chip) (h : slot < 16) :
    (takeVolume slot v c).num (Obj.hodVolumeMount slot) = c.num (Obj.hodVolumeMount slot) ∧
    ((takeVolume slot v c).num (Obj.hodVolumeState slot) = 2 ∨ (takeVolume slot v c).num (Obj.hodVolumeState slot) = 3) := by
  obtain ⟨hmount, hstate⟩ := num_showVolume v c h
  unfold takeVolume when_
  split
  · obtain ⟨hs, ho⟩ := num_preload_mounted h (c := showVolume slot v c) (by simp [Chip.mounted, hstate])
    exact ⟨(ho _ (unitObj_ne slot (by decide)) (unitObj_ne slot (by decide))).trans hmount, hs⟩
  · exact ⟨hmount, .inl hstate⟩

/-- A mount that ends fails, or takes the volume and offers it. -/
theorem finishMount_cases (d : DustSheet) (slot : Nat) (found : Option MountData) (c : Chip) :
    ∃ e : Chip, e.nums = c.nums ∧ ((∃ n, finishMount d slot found c = failMount slot n e) ∨
      ∃ v, finishMount d slot found c = sendOffers (checkConflict slot (takeVolume slot v e))) := by
  generalize hf : finishMount d slot found c = f
  unfold finishMount at hf
  extract_lets master fail c0 at hf
  cases found with
  | none => exact ⟨c0, rfl, .inl ⟨1, hf.symm⟩⟩
  | some m =>
    dsimp -zeta only at hf
    extract_lets sb v broken e n loaded shown pinned at hf
    split at hf
    · exact ⟨c0, rfl, .inl ⟨1, hf.symm⟩⟩
    split at hf
    · exact ⟨c0, rfl, .inl ⟨2, hf.symm⟩⟩
    have he : e.nums = c.nums :=
      forEach_keeps (fun x : Chip => x.nums = c.nums) _ broken c0 (fun i _ x hx => (snagWith_nums _ _ _ _ _ x).trans hx) rfl
    split at hf
    · exact ⟨e, he, .inl ⟨n, hf.symm⟩⟩
    · exact ⟨e, he, .inr ⟨v, hf.symm⟩⟩

/-- However a mount ends, the Mount object is as it was and the slot reads MOUNTED, PRELOADING, FAILED or CONFLICT. -/
theorem num_finishMount {slot : Nat} (d : DustSheet) (found : Option MountData) (c : Chip) (h : slot < 16) :
    (finishMount d slot found c).num (Obj.hodVolumeMount slot) = c.num (Obj.hodVolumeMount slot) ∧
    ((finishMount d slot found c).num (Obj.hodVolumeState slot) = 2 ∨ (finishMount d slot found c).num (Obj.hodVolumeState slot) = 3 ∨
      (finishMount d slot found c).num (Obj.hodVolumeState slot) = 4 ∨ (finishMount d slot found c).num (Obj.hodVolumeState slot) = 5) := by
  obtain ⟨e, hnums, ⟨n, he⟩ | ⟨v, he⟩⟩ := finishMount_cases d slot found c
  all_goals have hc : e.num (Obj.hodVolumeMount slot) = c.num (Obj.hodVolumeMount slot) := by simp only [Chip.num, hnums]
  · obtain ⟨hmount, hstate⟩ := num_failMount n e h
    rw [he]
    exact ⟨hmount.trans hc, .inr (.inr (.inl hstate))⟩
  · obtain ⟨hmount, hstate⟩ := num_takeVolume v e h
    obtain ⟨-, -, hconflict⟩ := checkConflict_keeps (takeVolume slot v e) h
    rw [he, num_sendOffers, num_sendOffers]
    refine ⟨(num_checkConflict_other _ (unitObj_ne slot (by decide))).trans (hmount.trans hc), ?_⟩
    rcases hconflict slot with k | k
    · rw [k]
      exact hstate.imp_right .inl
    · exact .inr (.inr (.inr k))

/-! ### Mount, unmount and format (R282) -/

section

variable {r : Req} {a : Nat} {slot : Fin 16} {s : State}

/-- MOUNT of a slot that is EMPTY, FAILED or RETIRED. -/
theorem answers_mount (hw : Writes r a (Obj.hodVolumeMount slot.val) [1] s) :
    let c := (judged r.path s).chip
    let st := c.num (Obj.hodVolumeState slot.val)
    st = 0 ∨ st = 4 ∨ st = 6 → Answers (.hodMount r slot) r a (Obj.hodVolumeMount slot.val) [1] s
      (setNum (Obj.hodVolumeMount slot.val) 1 (setNum (Obj.hodVolumeState slot.val) 1
        (modHod (fun h => { h with mounting := tput h.mounting slot.val (a + 1) }) c))) St.ok := by
  intro c st h
  exact serveRow_chip hw (if_neg (show ¬(st = 1 ∨ st = 2 ∨ st = 3 ∨ st = 5) by omega))

/-- MOUNT of a slot that is mounting or mounted changes nothing. -/
theorem answers_mount_again (hw : Writes r a (Obj.hodVolumeMount slot.val) [1] s) :
    let c := (judged r.path s).chip
    let st := c.num (Obj.hodVolumeState slot.val)
    st = 1 ∨ st = 2 ∨ st = 3 ∨ st = 5 → Answers (.hodMount r slot) r a (Obj.hodVolumeMount slot.val) [1] s c St.ok := by
  intro c st h
  exact serveRow_chip hw (if_pos h)

/-- UNMOUNT by a master without A on the volume. -/
theorem answers_unmount_noAccess (hw : Writes r a (Obj.hodVolumeMount slot.val) [0] s) :
    let c := (judged r.path s).chip
    c.may 0x15 slot.val a 3 = false → Answers (.hodUnmount r slot) r a (Obj.hodVolumeMount slot.val) [0] s
      (setNum (Obj.hodVolumeResult slot.val) 6 c) St.noAccess := by
  intro c h
  exact serveRow_chip hw (if_pos (by rw [h]; rfl))

/-- UNMOUNT while cursors are open on the volume. -/
theorem answers_unmount_open (hw : Writes r a (Obj.hodVolumeMount slot.val) [0] s) :
    let c := (judged r.path s).chip
    c.may 0x15 slot.val a 3 = true → c.mounted slot.val = true →
    c.cursorList.any (fun x => x.2.volume == c.num (Obj.hodVolumeNumber slot.val) && !x.2.remote) = true →
    Answers (.hodUnmount r slot) r a (Obj.hodVolumeMount slot.val) [0] s
      (setNum (Obj.hodVolumeResult slot.val) 7 c) St.refused := by
  intro c h hm ho
  refine serveRow_chip hw ?_
  dsimp only
  rw [if_neg (by rw [h]; decide), if_pos (by rw [hm, ho]; rfl)]

/-- What an UNMOUNT that nothing forbids leaves. -/
def unmounted (slot : Nat) (c : Chip) : Chip :=
  when_ (c.mounted slot) sendOffers (setNum (Obj.hodVolumeMount slot) 0 (setNum (Obj.hodVolumeResult slot) 0
    (setNum (Obj.hodVolumeState slot) 0 (when_ (c.mounted slot) (clearVolume slot) c))))

/-- UNMOUNT with no import open, and no cursor on what the slot holds. -/
theorem answers_unmount (hw : Writes r a (Obj.hodVolumeMount slot.val) [0] s) :
    let c := (judged r.path s).chip
    c.may 0x15 slot.val a 3 = true → c.hod.import_.isOpen = false →
    (c.mounted slot.val && c.cursorList.any (fun x => x.2.volume == c.num (Obj.hodVolumeNumber slot.val) && !x.2.remote)) = false →
    Answers (.hodUnmount r slot) r a (Obj.hodVolumeMount slot.val) [0] s (unmounted slot.val c) St.ok := by
  intro c h hi ho
  refine serveRow_chip hw ?_
  dsimp only
  rw [if_neg (by rw [h]; decide), if_neg (by rw [ho, hi]; exact Bool.false_ne_true)]
  rfl

/-- Of a slot that holds no volume only Mount, Result and State change. -/
theorem unmounted_not_mounted {n : Nat} {c : Chip} (h : c.mounted n = false) :
    unmounted n c = setNum (Obj.hodVolumeMount n) 0 (setNum (Obj.hodVolumeResult n) 0 (setNum (Obj.hodVolumeState n) 0 c)) := by
  simp only [unmounted, h, when_, Bool.false_eq_true, if_false]

/-- A slot that is unmounted reads EMPTY, without a failure, and Mount 0. -/
theorem num_unmounted {n : Nat} (c : Chip) (h : n < 16) :
    (unmounted n c).num (Obj.hodVolumeState n) = 0 ∧ (unmounted n c).num (Obj.hodVolumeResult n) = 0 ∧
    (unmounted n c).num (Obj.hodVolumeMount n) = 0 := by
  have e (o : Nat) : (unmounted n c).num o = (setNum (Obj.hodVolumeMount n) 0 (setNum (Obj.hodVolumeResult n) 0
      (setNum (Obj.hodVolumeState n) 0 (when_ (c.mounted n) (clearVolume n) c)))).num o := by
    unfold unmounted
    cases c.mounted n with
    | false => rfl
    | true => exact num_sendOffers o _
  have hsm : Obj.hodVolumeState n ≠ Obj.hodVolumeMount n := unitObj_ne _ (by decide)
  have hsr : Obj.hodVolumeState n ≠ Obj.hodVolumeResult n := unitObj_ne _ (by decide)
  have hrm : Obj.hodVolumeResult n ≠ Obj.hodVolumeMount n := unitObj_ne _ (by decide)
  refine ⟨?_, ?_, (e _).trans (num_setNum_fits _ (width_volumeMount h) (by decide))⟩
  · rw [e, num_setNum_other _ _ hsm, num_setNum_other _ _ hsr]
    exact num_setNum_fits _ (width_volumeState h) (by decide)
  · rw [e, num_setNum_other _ _ hrm]
    exact num_setNum_fits _ (width_volumeResult h) (by decide)

/-- A mounted volume takes its metadata and its cached extents along. -/
theorem unmounted_hod {n : Nat} {c : Chip} (h : c.mounted n = true) :
    (unmounted n c).hod.volumes = tdel c.hod.volumes n ∧
    (unmounted n c).hod.cache = c.hod.cache.filter (fun e => e.volume != c.num (Obj.hodVolumeNumber n)) := by
  have e : (unmounted n c).hod = (clearVolume n c).hod := by
    simp only [unmounted, h, when_, if_true, sendOffers_hod, setNum_hod]
  rw [e]
  exact clearVolume_volumes_cache n c

/-- FORMAT by a master without A on the volume. -/
theorem answers_format_noAccess (hw : Writes r a (Obj.hodVolumeMount slot.val) [3] s) :
    let c := (judged r.path s).chip
    c.may 0x15 slot.val a 3 = false → Answers (.hodFormat r slot) r a (Obj.hodVolumeMount slot.val) [3] s
      (setNum (Obj.hodVolumeResult slot.val) 6 c) St.noAccess := by
  intro c h
  exact serveRow_chip hw (if_pos (by rw [h]; rfl))

/-- FORMAT of a slot that is neither EMPTY nor FAILED. -/
theorem answers_format_refused (hw : Writes r a (Obj.hodVolumeMount slot.val) [3] s) :
    let c := (judged r.path s).chip
    let st := c.num (Obj.hodVolumeState slot.val)
    c.may 0x15 slot.val a 3 = true → st ≠ 0 → st ≠ 4 → Answers (.hodFormat r slot) r a (Obj.hodVolumeMount slot.val) [3] s
      (setNum (Obj.hodVolumeResult slot.val) 7 c) St.refused := by
  intro c st h h0 h4
  exact serveRow_chip hw ((if_neg (by rw [h]; decide)).trans (if_pos ⟨h0, h4⟩))

/-- FORMAT of one that is EMPTY or FAILED begins. -/
theorem answers_format (hw : Writes r a (Obj.hodVolumeMount slot.val) [3] s) :
    let c := (judged r.path s).chip
    let st := c.num (Obj.hodVolumeState slot.val)
    c.may 0x15 slot.val a 3 = true → st = 0 ∨ st = 4 → Answers (.hodFormat r slot) r a (Obj.hodVolumeMount slot.val) [3] s
      (setNum (Obj.hodVolumeMount slot.val) 3 (setNum (Obj.hodVolumeState slot.val) 1 c)) St.ok := by
  intro c st h hst
  exact serveRow_chip hw ((if_neg (by rw [h]; decide)).trans (if_neg (show ¬(st ≠ 0 ∧ st ≠ 4) by omega)))

/-! ### Preload (R283) -/

/-- PRELOAD of the value that stands. -/
theorem answers_preload_same {on : Bool} (hw : Writes r a (Obj.hodVolumePreload slot.val) [if on then 1 else 0] s) :
    let c := (judged r.path s).chip
    c.flag (Obj.hodVolumePreload slot.val) = on → Answers (.hodPreload r slot on) r a (Obj.hodVolumePreload slot.val)
      [if on then 1 else 0] s (setNum (Obj.hodVolumePreload slot.val) (if on then 1 else 0) c) St.ok := by
  intro c h
  exact serveRow_chip hw (if_pos h.symm)

/-- PRELOAD 1 of a slot that is MOUNTED pins its heads. -/
theorem answers_preload_on (hw : Writes r a (Obj.hodVolumePreload slot.val) [1] s) :
    let c := (judged r.path s).chip
    c.flag (Obj.hodVolumePreload slot.val) = false → c.num (Obj.hodVolumeState slot.val) = 2 →
    Answers (.hodPreload r slot true) r a (Obj.hodVolumePreload slot.val) [1] s
      (preload slot.val (setNum (Obj.hodVolumePreload slot.val) 1 c)) St.ok := by
  intro c h hst
  have hs : (setNum (Obj.hodVolumePreload slot.val) 1 c).num (Obj.hodVolumeState slot.val) = 2 :=
    (num_setNum_other _ _ (unitObj_ne _ (by decide))).trans hst
  refine serveRow_chip hw ?_
  dsimp only
  rw [if_neg (by rw [h]; decide), if_pos rfl, if_pos rfl, hs]
  rfl

/-- What a PRELOAD 0 leaves: no extent of the volume is pinned, and no preload read of it is under way. -/
def unpinned (slot : Nat) (c : Chip) : Chip :=
  let vol := c.num (Obj.hodVolumeNumber slot)
  settlePreload slot (modHod (fun h => { h with
    cache := h.cache.map (fun e => if e.volume = vol then { e with pinned := false } else e),
    reads := h.reads.filter (fun r => !(r.pin && r.volume == vol && r.need.isNone)) }) (setNum (Obj.hodVolumePreload slot) 0 c))

theorem answers_preload_off (hw : Writes r a (Obj.hodVolumePreload slot.val) [0] s) :
    let c := (judged r.path s).chip
    c.flag (Obj.hodVolumePreload slot.val) = true → Answers (.hodPreload r slot false) r a (Obj.hodVolumePreload slot.val) [0] s
      (unpinned slot.val c) St.ok := by
  intro c h
  refine serveRow_chip hw ?_
  dsimp only
  rw [if_neg (by rw [h]; decide), if_neg Bool.false_ne_true]
  rfl

theorem num_preload_unpinned {n : Nat} (c : Chip) (h : n < 16) : (unpinned n c).num (Obj.hodVolumePreload n) = 0 := by
  unfold unpinned
  exact (num_settlePreload_other _ (unitObj_ne n (by decide)) (unitObj_ne n (by decide))).trans
    (num_setNum_fits c (width_volumePreload h) (by decide))

theorem not_pinned_unpinned (n : Nat) (c : Chip) :
    ∀ e ∈ (unpinned n c).hod.cache, e.volume = c.num (Obj.hodVolumeNumber n) → e.pinned = false := by
  unfold unpinned
  rw [settlePreload_hod]
  intro e he hv
  obtain ⟨x, -, rfl⟩ := List.mem_map.mp he
  split
  · rfl
  · rename_i hx
    rw [if_neg hx] at hv
    exact absurd hv hx

end

/-! ### Mounts and formats that are done (R282) -/

section

variable {slot : Fin 16} {s : State}

/-- MOUNT_DONE for a slot that no MOUNT is under way on. -/
theorem leaves_mountDone_idle (found : Option MountData)
    (h : s.chip.num (Obj.hodVolumeState slot.val) ≠ 1 ∨ s.chip.num (Obj.hodVolumeMount slot.val) ≠ 1) :
    Leaves (.mountDone slot found) s s.chip := by
  show execMountDone slot found s = _
  rw [execMountDone, State.withKeys, if_neg (by omega)]

/-- MOUNT_DONE for one that a MOUNT is under way on. -/
theorem exec_mountDone (found : Option MountData) (hst : s.chip.num (Obj.hodVolumeState slot.val) = 1)
    (ho : s.chip.num (Obj.hodVolumeMount slot.val) = 1) :
    exec (.mountDone slot found) s = .next { s with chip := finishMount s.dust slot.val found s.chip } := by
  show execMountDone slot found s = _
  rw [execMountDone, State.withKeys, if_pos ⟨hst, ho⟩]

/-- A mount whose namespace is absent ends FAILED with Result 1. -/
theorem finishMount_none (d : DustSheet) {n : Nat} (c : Chip) (h : n < 16) :
    (finishMount d n none c).num (Obj.hodVolumeState n) = 4 ∧ (finishMount d n none c).num (Obj.hodVolumeResult n) = 1 ∧
    (finishMount d n none c).hod.volumes = c.hod.volumes :=
  ⟨(num_failMount 1 _ h).2, num_setNum_fits _ (width_volumeResult h) (by decide), rfl⟩

/-- FORMAT_DONE for a slot that no FORMAT is under way on. -/
theorem leaves_formatDone_idle (superblock : Option (List Byte)) (h : s.chip.num (Obj.hodVolumeMount slot.val) ≠ 3) :
    Leaves (.formatDone slot superblock) s s.chip := by
  show execFormatDone slot superblock s = _
  rw [execFormatDone, State.withKeys, if_pos h]

/-- A format that failed: the slot reads FAILED and Mount 0. -/
theorem completes_formatDone_failed (h : s.chip.num (Obj.hodVolumeMount slot.val) = 3) :
    Completes (.formatDone slot none) s (fun t => t.chip.num (Obj.hodVolumeState slot.val) = 4 ∧
      t.chip.num (Obj.hodVolumeMount slot.val) = 0 ∧ t.chip.hod = s.chip.hod) := by
  let d := setNum (Obj.hodVolumeMount slot.val) 0 (setNum (Obj.hodVolumeState slot.val) 4 s.chip)
  have e : exec (.formatDone slot none) s = .next { s with chip := flashStore (Obj.hodVolumeMount slot.val) d } := by
    show execFormatDone slot none s = _
    rw [execFormatDone, State.withKeys, if_neg (not_not.mpr h)]
  refine ⟨_, e, ?_, num_setNum_fits _ (width_volumeMount slot.isLt) (by decide), rfl⟩
  exact (num_setNum_other _ _ (unitObj_ne _ (by decide))).trans (num_setNum_fits _ (width_volumeState slot.isLt) (by decide))

/-- What a namespace holds after a format that wrote superblock `sb`: no keys, FREE directory entries and an empty extent map. -/
def freshVolume (sb : List Byte) : MountData :=
  let n (o : Nat) : Nat := field sb o 4 * 65536
  ⟨sb, sb, zeros (n 0x24), ((upTo (n 0x2C / 64)).map (fun _ => zeros 0x3C ++ leBytes 4 (crc32c (zeros 0x3C)))).flatten,
    zeros (n 0x34)⟩

/-- A format that succeeded is mounted: Mount reads 1, and the slot reads what the mount ended with. -/
theorem completes_formatDone (sb : List Byte) (h : s.chip.num (Obj.hodVolumeMount slot.val) = 3) :
    Completes (.formatDone slot (some sb)) s (fun t => t.chip.num (Obj.hodVolumeMount slot.val) = 1 ∧
      (t.chip.num (Obj.hodVolumeState slot.val) = 2 ∨ t.chip.num (Obj.hodVolumeState slot.val) = 3 ∨
        t.chip.num (Obj.hodVolumeState slot.val) = 4 ∨ t.chip.num (Obj.hodVolumeState slot.val) = 5)) := by
  let d := modHod (fun h => { h with mounting := tput h.mounting slot.val 1 })
    (flashStore (Obj.hodVolumeMount slot.val) (setNum (Obj.hodVolumeMount slot.val) 1 s.chip))
  have hd : d.num (Obj.hodVolumeMount slot.val) = 1 := num_setNum_fits s.chip (width_volumeMount slot.isLt) (by decide)
  have e : exec (.formatDone slot (some sb)) s =
      .next { s with chip := finishMount s.dust slot.val (some (freshVolume sb)) d } := by
    show execFormatDone slot (some sb) s = _
    rw [execFormatDone, State.withKeys, if_neg (not_not.mpr h)]
    rfl
  obtain ⟨hmount, hstate⟩ := num_finishMount s.dust (some (freshVolume sb)) d slot.isLt
  exact ⟨_, e, hmount.trans hd, hstate⟩

end

end Sys2Proof.Machine
end

section
/-!
SUPPORT. O33, second part: objects that are imported and deleted.
-/

namespace Sys2Proof.Machine

/-! ### Imports (R289, R297, R492) -/

section

variable {r : Req} {a : Nat} {s : State}

/-- An import is busy for every master but the one that began it. -/
theorem importBusy_iff {c : Chip} {m : Nat} : importBusy c m = true ↔ c.hod.import_.isOpen = true ∧ c.hod.import_.master ≠ m := by
  simp only [importBusy, Bool.and_eq_true, bne_iff_ne]

theorem importBusy_closed {c : Chip} (m : Nat) (h : c.hod.import_.isOpen = false) : importBusy c m = false := by
  rw [importBusy, h, Bool.false_and]

theorem importBusy_own {c : Chip} {m : Nat} (h : c.hod.import_.master = m) : importBusy c m = false := by
  rw [importBusy, h, bne_self_eq_false, Bool.and_false]

/-- IMPORT_BEGIN while another master's import is open. -/
theorem answers_importBegin_busy (hw : Writes r a Obj.hodImportCommit [1] s) :
    let c := (judged r.path s).chip
    c.hod.import_.isOpen = true → c.hod.import_.master ≠ a →
    Answers (.importBegin r) r a Obj.hodImportCommit [1] s c St.busy := by
  intro c ho hm
  exact serveRow_chip hw (if_pos (importBusy_iff.mpr ⟨ho, hm⟩))

/-- IMPORT_BEGIN of an object that the volume cannot hold. -/
theorem answers_importBegin_refused (hw : Writes r a Obj.hodImportCommit [1] s) :
    let c := (judged r.path s).chip
    c.hod.import_.isOpen = false → importTarget c = false →
    Answers (.importBegin r) r a Obj.hodImportCommit [1] s c St.refused := by
  intro c ho ht
  refine serveRow_chip hw ?_
  dsimp only
  rw [importBusy_closed a ho, ht]
  rfl

/-- IMPORT_BEGIN by a master without W on the volume. -/
theorem answers_importBegin_noAccess (hw : Writes r a Obj.hodImportCommit [1] s) :
    let c := (judged r.path s).chip
    c.hod.import_.isOpen = false → importTarget c = true → importCheck c a = 6 →
    Answers (.importBegin r) r a Obj.hodImportCommit [1] s (setNum Obj.hodImportStatus 6 c) St.noAccess := by
  intro c ho ht hc
  refine serveRow_chip hw ?_
  dsimp only
  rw [importBusy_closed a ho, ht, hc]
  rfl

/-- IMPORT_BEGIN that passes every check opens the import, under the master's lease for 10 s. -/
theorem answers_importBegin (hw : Writes r a Obj.hodImportCommit [1] s) :
    let c := (judged r.path s).chip
    let slot := c.num Obj.hodImportVolume
    let entry := slice (c.blob Obj.hodImportEntry) 0 64
    let d := dirEntry entry
    let opened : Import := { slot := slot, object := c.num Obj.hodImportObject, master := a, entry := entry, isOpen := true }
    c.hod.import_.isOpen = false → importTarget c = true → importCheck c a = 0 →
    dirValid { d with state := 1, extents := (d.length * d.frameBytes + 65535) / 65536 } = true →
    Answers (.importBegin r) r a Obj.hodImportCommit [1] s (leaseSet 5 slot a (c.time.stc + 10 * c.fs)
      (setNum Obj.hodImportStatus 1 (modHod (fun h => { h with import_ := opened }) c))) St.ok := by
  intro c slot entry d opened ho ht hc hd
  refine serveRow_chip hw ?_
  dsimp only
  rw [importBusy_closed a ho, ht, hc, hd]
  rfl

/-- IMPORT_DATA with no import open, or once its finish has begun. -/
theorem answers_importData_refused {data : List Byte} (hw : Writes r a Obj.hodImportData data s) :
    let c := (judged r.path s).chip
    c.hod.import_.isOpen = false ∨ c.hod.import_.finishing = true →
    Answers (.importData r data) r a Obj.hodImportData data s c St.refused := by
  intro c h
  refine serveRow_chip hw (if_pos ?_)
  rcases h with h | h <;> rw [h]
  · rfl
  · exact Bool.or_true _

/-- IMPORT_DATA by another master. -/
theorem answers_importData_busy {data : List Byte} (hw : Writes r a Obj.hodImportData data s) :
    let c := (judged r.path s).chip
    c.hod.import_.isOpen = true → c.hod.import_.finishing = false → c.hod.import_.master ≠ a →
    Answers (.importData r data) r a Obj.hodImportData data s c St.busy := by
  intro c ho hf hm
  exact serveRow_chip hw ((if_neg (by rw [ho, hf]; decide)).trans (if_pos hm))

/-- IMPORT_DATA by the master that began: the data is appended and the lease runs 10 s from it. -/
theorem answers_importData {data : List Byte} (hw : Writes r a Obj.hodImportData data s) :
    let c := (judged r.path s).chip
    let i := c.hod.import_
    i.isOpen = true → i.finishing = false → i.master = a → Answers (.importData r data) r a Obj.hodImportData data s
      (leaseSet 5 i.slot a (c.time.stc + 10 * c.fs)
        (modHod (fun h => { h with import_ := { i with data := i.data ++ data } }) c)) St.ok := by
  intro c i ho hf hm
  exact serveRow_chip hw ((if_neg (by rw [ho, hf]; decide)).trans (if_neg (not_not.mpr hm)))

/-- IMPORT_FINISH by another master. -/
theorem answers_importFinish_busy (hw : Writes r a Obj.hodImportCommit [2] s) :
    let c := (judged r.path s).chip
    c.hod.import_.isOpen = true → c.hod.import_.master ≠ a →
    Answers (.importFinish r) r a Obj.hodImportCommit [2] s c St.busy := by
  intro c ho hm
  exact serveRow_chip hw (if_pos (importBusy_iff.mpr ⟨ho, hm⟩))

/-- IMPORT_FINISH with no import open. -/
theorem answers_importFinish_refused (hw : Writes r a Obj.hodImportCommit [2] s) :
    let c := (judged r.path s).chip
    c.hod.import_.isOpen = false → Answers (.importFinish r) r a Obj.hodImportCommit [2] s c St.refused := by
  intro c ho
  refine serveRow_chip hw ?_
  dsimp only
  rw [importBusy_closed a ho, ho]
  rfl

/-- Data extents that the object of an open import needs (R279). -/
def Import.extents (i : Import) : Nat := ((dirEntry i.entry).length * (dirEntry i.entry).frameBytes + 65535) / 65536

/-- IMPORT_FINISH by the master that began, with no cursor open on the object: the writing begins where the volume has room,
else the import is dropped with Status NO_SPACE. -/
theorem answers_importFinish (hw : Writes r a Obj.hodImportCommit [2] s) :
    let c := (judged r.path s).chip
    let i := c.hod.import_
    i.isOpen = true → i.master = a → i.finishing = false → objectOpen c i.slot i.object = false →
    (i.extents ≤ (freeExtents (c.volume i.slot) 0 i.extents).length → Answers (.importFinish r) r a Obj.hodImportCommit [2] s
      (modHod (fun h => { h with import_ := { i with finishing := true } }) c) St.ok) ∧
    ((freeExtents (c.volume i.slot) 0 i.extents).length < i.extents → Answers (.importFinish r) r a Obj.hodImportCommit [2] s
      (setNum Obj.hodImportStatus 3 (importAbort c)) St.refused) := by
  intro c i ho hm hf hopen
  refine ⟨fun h => serveRow_chip hw ?_, fun h => serveRow_chip hw ?_⟩
  all_goals
    dsimp only
    rw [importBusy_own hm, ho, hf, hopen, if_neg Bool.false_ne_true, if_neg (by decide), if_neg Bool.false_ne_true]
  · exact if_neg (Nat.not_lt.mpr h)
  · exact if_pos h

/-- IMPORT_DELETE while an import is open. -/
theorem answers_importDelete_busy (hw : Writes r a Obj.hodImportCommit [3] s) :
    let c := (judged r.path s).chip
    c.hod.import_.isOpen = true → Answers (.importDelete r) r a Obj.hodImportCommit [3] s c St.busy := by
  intro c ho
  exact serveRow_chip hw (if_pos (by rw [ho, Bool.or_true]))

/-! ### Changes of an object -/

/-- A change of an object is what `f` makes of the directory, under the next GENERATION. -/
theorem volume_changeObject (slot object : Nat) (f : Volume → Volume) (c : Chip) :
    ((changeObject slot object f c).volume slot).dir = (f (c.volume slot)).dir ∧
    ((changeObject slot object f c).volume slot).sb.generation = (f (c.volume slot)).sb.generation + 1 := by
  unfold changeObject
  extract_lets vol h hash d e
  have hv : (sendOffers (setNum (Obj.hodVolumeImageHash slot) hash e)).volume slot = d.volume slot := by
    rw [Chip.volume, sendOffers_hod]
    rfl
  rw [hv, volume_modVolume_same]
  exact ⟨rfl, rfl⟩

/-- A deleted object's entry is no longer VALID. -/
def deleteEntry (object : Nat) (v : Volume) : Volume :=
  let e := tget {} v.dir object
  { v with dir := tset {} v.dir object (if e.state = 1 then { e with state := 2 } else e) }

theorem state_deleteEntry (object : Nat) (v : Volume) : (tget {} (deleteEntry object v).dir object).state ≠ 1 := by
  simp only [deleteEntry, tget_tset_same]
  split
  · exact Nat.succ_ne_self 1
  · assumption

/-- What an IMPORT_DELETE that passes every check leaves. -/
def objectDeleted (c : Chip) : Chip :=
  let o := c.num Obj.hodImportObject
  setNum Obj.hodImportStatus 2 (changeObject (c.num Obj.hodImportVolume) o (deleteEntry o) c)

/-- IMPORT_DELETE that passes every check. -/
theorem answers_importDelete (hw : Writes r a Obj.hodImportCommit [3] s) :
    let c := (judged r.path s).chip
    c.hod.import_.isOpen = false → importTarget c = true → importCheck c a = 0 →
    Answers (.importDelete r) r a Obj.hodImportCommit [3] s (objectDeleted c) St.ok := by
  intro c ho ht hc
  refine serveRow_chip hw ?_
  dsimp only
  rw [importBusy_closed a ho, ho, ht, hc]
  rfl

/-- The object is no longer VALID, its volume has the next GENERATION, and Status reads DONE. -/
theorem objectDeleted_reads (c : Chip) :
    (objectDeleted c).num Obj.hodImportStatus = 2 ∧
    (tget {} ((objectDeleted c).volume (c.num Obj.hodImportVolume)).dir (c.num Obj.hodImportObject)).state ≠ 1 ∧
    ((objectDeleted c).volume (c.num Obj.hodImportVolume)).sb.generation =
      (c.volume (c.num Obj.hodImportVolume)).sb.generation + 1 := by
  obtain ⟨hdir, hgen⟩ := volume_changeObject (c.num Obj.hodImportVolume) (c.num Obj.hodImportObject)
    (deleteEntry (c.num Obj.hodImportObject)) c
  refine ⟨num_setNum_fits _ width_importStatus (by decide), ?_, hgen⟩
  show (tget {} ((changeObject _ _ _ c).volume _).dir _).state ≠ 1
  rw [hdir]
  exact state_deleteEntry _ _

end

/-! ### Imports that are done (R289) -/

/-- An import whose last writes complete: its entry is VALID, at the end of the extent map, over the lowest free extents. -/
def installEntry (i : Import) (v : Volume) : Volume :=
  let d := dirEntry i.entry
  let es := freeExtents v 0 i.extents
  { v with dir := tset {} v.dir i.object { d with state := 1, mapIndex := mapEnd v, extents := i.extents },
           map := tsets 0 v.map (mapEnd v) es, bad := v.bad.filter (fun e => !es.contains e),
           tags := v.tags.filter (fun x => !es.contains x.1) }

/-- What IMPORT_DONE leaves of an import that is finishing. -/
def importInstalled (c : Chip) : Chip :=
  let i := c.hod.import_
  leaseDrop 5 i.slot (setNum Obj.hodImportStatus 2 (modHod (fun h => { h with import_ := {} })
    (changeObject i.slot i.object (installEntry i) c)))

/-- IMPORT_DONE acts on the chip. -/
theorem exec_importDone (s : State) :
    exec .importDone s = s.onChip (fun c => if !c.hod.import_.finishing then c else importInstalled c) := rfl

/-- No import is open any more, its object is VALID, and Status reads DONE. -/
theorem importInstalled_reads (c : Chip) :
    (importInstalled c).num Obj.hodImportStatus = 2 ∧ (importInstalled c).hod.import_ = {} ∧
    (tget {} ((importInstalled c).volume c.hod.import_.slot).dir c.hod.import_.object).state = 1 := by
  let d := modHod (fun h => { h with import_ := {} })
    (changeObject c.hod.import_.slot c.hod.import_.object (installEntry c.hod.import_) c)
  have hstatus : (setNum Obj.hodImportStatus 2 d).num Obj.hodImportStatus = 2 :=
    num_setNum_fits d width_importStatus (by decide)
  refine ⟨hstatus, rfl, ?_⟩
  show (tget {} ((changeObject _ _ _ c).volume _).dir _).state = 1
  rw [(volume_changeObject _ _ _ c).1]
  simp only [installEntry, tget_tset_same]

/-- Settles O33: each WRITE by the check of its rule that decides it, a mount by how `finishMount` ends, and a change of an object
by its entry in the directory.  MOUNT of a mounted slot, the Result of a refused UNMOUNT or FORMAT, and DONE after a delete are the
model's own choice (entry 63). -/
theorem volumesAndImports : Obligations.VolumesAndImports := by
  refine ⟨fun r a slot s => ?volumes, fun slot s => ?done, fun r a s => ?imports, fun s => ?installed⟩
  case volumes =>
    intro c n o st vol
    refine ⟨fun hw => ⟨answers_mount hw, answers_mount_again hw⟩,
      fun hw => ⟨answers_unmount_noAccess hw, answers_unmount_open hw, fun ha hm hi => ?_, fun ha hm hi hopen => ?_⟩,
      fun hw => ⟨answers_format_noAccess hw, answers_format_refused hw, answers_format hw⟩,
      fun on hw => answers_preload_same hw, fun hw => answers_preload_on hw, fun hw hf => ?_⟩
    · have hu : unmounted n c = _ := unmounted_not_mounted hm
      rw [← hu]
      exact answers_unmount hw ha hi (by rw [hm, Bool.false_and])
    · obtain ⟨hvolumes, hcache⟩ := unmounted_hod hm
      obtain ⟨hstate, hresult, hmount⟩ := num_unmounted c slot.isLt
      exact ⟨_, answers_unmount hw ha hi (by rw [hopen, Bool.and_false]), _, rfl, hstate, hresult, hmount, hvolumes, hcache⟩
    · exact ⟨_, answers_preload_off hw hf, _, rfl, num_preload_unpinned c slot.isLt, not_pinned_unpinned n c⟩
  case done =>
    exact ⟨leaves_mountDone_idle, exec_mountDone,
      fun hst ho => ⟨_, exec_mountDone none hst ho, finishMount_none s.dust s.chip slot.isLt⟩,
      leaves_formatDone_idle, completes_formatDone_failed, completes_formatDone⟩
  case imports =>
    intro c i slot entry d opened
    refine ⟨fun hw => ⟨answers_importBegin_busy hw, answers_importBegin_refused hw, answers_importBegin_noAccess hw,
        answers_importBegin hw⟩,
      fun data hw => ⟨answers_importData_refused hw, answers_importData_busy hw, answers_importData hw⟩,
      fun hw => ⟨answers_importFinish_busy hw, answers_importFinish_refused hw,
        fun ho hm hf hopen => (answers_importFinish hw ho hm hf hopen).1,
        fun ho hm hf hopen => (answers_importFinish hw ho hm hf hopen).2⟩,
      fun hw => ⟨answers_importDelete_busy hw, fun ho ht hc => ?_⟩⟩
    exact ⟨_, answers_importDelete hw ho ht hc, _, rfl, objectDeleted_reads c⟩
  case installed =>
    refine ⟨fun h => leaves_onChip (exec_importDone s) (if_pos (by rw [h]; rfl)), fun h => ?_⟩
    obtain ⟨hstatus, himport, hentry⟩ := importInstalled_reads s.chip
    exact ⟨_, leaves_onChip (exec_importDone s) (if_neg (by rw [h]; decide)), hstatus, himport, hentry, rfl, rfl⟩

end Sys2Proof.Machine
end

section
/-!
SUPPORT. O58: what each operation on the Dust Sheet keeps in order, and that every command keeps the sheet so and the queue as it is.
-/

namespace Sys2Proof.Machine

/-! ### Tables in order (R317, R551) -/

/-- A new entry lengthens a table by one at the most. -/
theorem length_tput_le {α : Type} (t : Table α) (k : Nat) (v : α) : (tput t k v).length ≤ t.length + 1 := by
  induction t with
  | nil => exact Nat.le_refl 1
  | cons e t ih =>
    obtain ⟨k', w⟩ := e
    simp only [tput]
    split_ifs <;> simp only [List.length_cons] at * <;> omega

theorem length_tdel_le {α : Type} (t : Table α) (k : Nat) : (tdel t k).length ≤ t.length := by
  induction t with
  | nil => exact Nat.le_refl 0
  | cons e t ih =>
    obtain ⟨k', w⟩ := e
    simp only [tdel]
    split_ifs <;> simp only [List.length_cons] <;> omega

/-- A table is in order when each key is below all that follow it. -/
theorem tsorted_some_iff {α : Type} {t : Table α} {lo : Nat} :
    tsorted (some lo) t = true ↔ (lo :: t.map Prod.fst).Pairwise (· < ·) := by
  induction t generalizing lo with
  | nil => simp [tsorted]
  | cons e t ih =>
    obtain ⟨k, v⟩ := e
    simp only [tsorted, Bool.and_eq_true, decide_eq_true_eq, ih, List.map_cons]
    rw [List.pairwise_cons (a := lo), List.forall_mem_cons]
    refine ⟨fun ⟨hk, hp⟩ => ⟨⟨hk, fun a ha => hk.trans ((List.pairwise_cons.mp hp).1 a ha)⟩, hp⟩, fun ⟨⟨hk, _⟩, hp⟩ => ⟨hk, hp⟩⟩

theorem tsorted_none_iff {α : Type} {t : Table α} : tsorted none t = true ↔ (t.map Prod.fst).Pairwise (· < ·) := by
  cases t with
  | nil => simp [tsorted]
  | cons e t => exact tsorted_some_iff

/-- Entries left out of a table in order leave it in order. -/
theorem tsorted_sublist {α β : Type} {t : Table α} {u : Table β} (h : tsorted none t = true)
    (hs : (u.map Prod.fst).Sublist (t.map Prod.fst)) : tsorted none u = true :=
  tsorted_none_iff.mpr ((tsorted_none_iff.mp h).sublist hs)

/-! ### The Dust Sheet (R317 to R320, R551, R552) -/

/-- Its state, its lost keys and its locks have no part in its order. -/
theorem DustSheet.ok_of_tables {d e : DustSheet} (h : d.ok) (hk : e.keys = d.keys) (hs : e.store = d.store) : e.ok := by
  unfold DustSheet.ok
  rw [hk, hs]
  exact h

/-- With the keys lost, the wrapped forms stand in order. -/
theorem DustSheet.ok_without_keys {d e : DustSheet} (h : d.ok) (hk : e.keys = []) (hs : e.store = d.store) : e.ok := by
  obtain ⟨-, -, -, hsorted, hids⟩ := h
  unfold DustSheet.ok
  rw [hk, hs]
  exact ⟨rfl, Nat.zero_le _, fun _ he => absurd he List.not_mem_nil, hsorted, hids⟩

/-- With the wrapped forms lost, the keys stand in order. -/
theorem DustSheet.ok_without_store {d e : DustSheet} (h : d.ok) (hk : e.keys = d.keys) (hs : e.store = []) : e.ok := by
  obtain ⟨hkeys, hlen, hne, -, -⟩ := h
  unfold DustSheet.ok
  rw [hk, hs]
  exact ⟨hkeys, hlen, hne, rfl, fun _ he => absurd he List.not_mem_nil⟩

/-- A key installed under a KEY_ID that is not 0, while there is room. -/
theorem DustSheet.ok_install {d : DustSheet} {id : Nat} {key : List Byte} (wrapped : List Byte) (h : d.ok) (hid : id ≠ 0)
    (hkey : key ≠ []) (hroom : d.keys.length < 4096) :
    DustSheet.ok { d with keys := tput d.keys id key, store := tput d.store id wrapped } := by
  obtain ⟨hkeys, -, hne, hsorted, hids⟩ := h
  refine ⟨twf_tput id hkey hkeys, (length_tput_le _ _ _).trans hroom, fun e he => ?_, tsorted_tput wrapped hsorted, fun e he => ?_⟩
  · rcases mem_tput he with rfl | he
    · exact hid
    · exact hne e he
  · rcases mem_tput he with rfl | he
    · exact hid
    · exact hids e he

/-- A key removed. -/
theorem DustSheet.ok_remove {d : DustSheet} (id : Nat) (lost : List Nat) (h : d.ok) :
    DustSheet.ok { d with keys := tdel d.keys id, store := tdel d.store id, lost := lost } := by
  obtain ⟨hkeys, hlen, hne, hsorted, hids⟩ := h
  exact ⟨twf_tdel id hkeys, (length_tdel_le _ _).trans hlen, fun e he => hne e (mem_tdel he), tsorted_tdel hsorted,
    fun e he => hids e (mem_tdel he)⟩

/-- The keys that the wrapped forms give at start (R540, R552). -/
def unwrapped (state : Nat) (store : Table (List Byte)) : Table (List Byte) :=
  ((store.filterMap (fun x => (Config.unwrapKey state x.2).map (fun k => (x.1, k)))).filter (fun x => decide (x.2 ≠ []))).take 4096

/-- Each is a wrapped form's, under its KEY_ID and in its place. -/
theorem unwrapped_ids_sublist (state : Nat) (store : Table (List Byte)) :
    ((unwrapped state store).map Prod.fst).Sublist (store.map Prod.fst) := by
  have hall : ((store.filterMap (fun x => (Config.unwrapKey state x.2).map (fun k => (x.1, k)))).map Prod.fst).Sublist
      (store.map Prod.fst) := by
    induction store with
    | nil => exact List.Sublist.refl _
    | cons x store ih =>
      rw [List.filterMap_cons]
      cases Config.unwrapKey state x.2 with
      | none => exact ih.cons _
      | some k => exact ih.cons_cons _
  exact (((List.take_sublist _ _).trans List.filter_sublist).map Prod.fst).trans hall

/-- The key coat unwraps into an empty sheet or leaves the sheet alone. -/
theorem DustSheet.ok_unwrapAll {d : DustSheet} (state : Nat) (h : d.ok) : (unwrapAll state d).ok := by
  unfold unwrapAll
  split
  · exact h
  · obtain ⟨-, -, -, hsorted, hids⟩ := h
    have hsub := unwrapped_ids_sublist state d.store
    refine ⟨?_, List.length_take_le _ _, fun e he => ?_, hsorted, hids⟩
    · simp only [twf, Bool.and_eq_true, List.all_eq_true]
      exact ⟨tsorted_sublist hsorted hsub, fun e he => (List.mem_filter.mp (List.mem_of_mem_take he)).2⟩
    · obtain ⟨x, hx, hxe⟩ := List.mem_map.mp (hsub.subset (List.mem_map_of_mem he))
      exact hxe ▸ hids x hx

/-! ### What a command keeps -/

/-- `t` has the queue of `s`, and a Dust Sheet in order where `s` has. -/
structure KeepsSheet (s t : State) : Prop where
  pending : t.pending = s.pending
  dust : s.dust.ok → t.dust.ok

namespace KeepsSheet

theorem refl (s : State) : KeepsSheet s s := ⟨rfl, id⟩

theorem trans {s t u : State} (h : KeepsSheet s t) (k : KeepsSheet t u) : KeepsSheet s u :=
  ⟨k.pending.trans h.pending, fun hs => k.dust (h.dust hs)⟩

/-- A change of the chip touches neither. -/
theorem chip (s : State) (c : Chip) : KeepsSheet s { s with chip := c } := ⟨rfl, id⟩

theorem wipeTrigger (cause : Nat) (s : State) : KeepsSheet s (wipeTrigger cause s) := by
  unfold Machine.wipeTrigger
  split
  · exact chip s _
  · exact ⟨rfl, fun h => DustSheet.ok_of_tables h rfl rfl⟩

theorem warmReset (cause : Nat) (s : State) : KeepsSheet s (warmReset cause s) :=
  ⟨warmReset_pending cause s, fun h => (warmReset_dust cause s).symm ▸ h⟩

theorem coldReset (s : State) : KeepsSheet s (coldReset s) :=
  ⟨coldReset_pending s, fun h => (coldReset_dust s).symm ▸ DustSheet.ok_without_keys h rfl rfl⟩

theorem finishReset (s : State) : KeepsSheet s (finishReset s) := by
  unfold Machine.finishReset
  split
  · exact warmReset 1 s
  · exact coldReset s
  · exact refl s

theorem powerFailRestart (cycles : Nat) (s : State) : KeepsSheet s (powerFailRestart cycles s) :=
  ((chip s _).trans (warmReset 2 _)).trans (chip _ _)

/-! ### Requests (R427 to R432) -/

section

variable {p : Path} {m : Msg} {run : Option Nat → State → State × Reply}

theorem answerBy (a : Option Nat) {s : State} {x : State × Reply} (h : KeepsSheet s x.1) : KeepsSheet s (answerBy p m a x) := by
  unfold Machine.answerBy
  split
  · exact h
  · exact h.trans (chip _ _)

theorem serveNerlil (h : ∀ a s, KeepsSheet s (run a s).1) (s : State) : KeepsSheet s (serveNerlil p m run s) := by
  have hrun (a : Option Nat) (c : Chip) : KeepsSheet s (Machine.answerBy p m a (run a { s with chip := c })) :=
    answerBy a ((chip s c).trans (h a _))
  unfold Machine.serveNerlil
  dsimp only
  split
  · exact chip s _
  · split_ifs
    · exact chip s _
    · exact chip s _
    · exact chip s _
    · exact chip s _
    · exact chip s _
    · split
      · split_ifs
        · exact hrun _ _
        · exact chip s _
        · exact chip s _
      · exact hrun _ _

/-- A service that keeps both keeps them however it is asked. -/
theorem serve (h : ∀ a s, KeepsSheet s (run a s).1) (s : State) : KeepsSheet s (serve p m run s) := by
  unfold Machine.serve
  dsimp only
  split
  · exact h _ s
  · split_ifs
    · split
      · exact refl s
      · exact chip s _
    · exact answerBy _ (h _ s)
    · exact serveNerlil h s

end

end KeepsSheet

/-! ### Rules of objects -/

/-- An object's rule that keeps the queue, and the Dust Sheet in order. -/
def SheetAct (act : Act) : Prop := ∀ a s, KeepsSheet s (act a s).1

/-- A rule of the chip alone. -/
theorem sheetAct_chip (f : Nat → Chip → Chip × Nat) : SheetAct (chipAct f) := fun _ s => .chip s _

theorem sheetAct_cfg (p : Path) (i w : Nat) : SheetAct (cfgAct p i w) := by
  intro a s
  unfold cfgAct
  dsimp only
  split_ifs
  all_goals exact .chip s _

theorem sheetAct_seq (p : Path) (i v : Nat) : SheetAct (seqAct p i v) := by
  intro a s
  unfold seqAct
  dsimp only
  split_ifs
  all_goals exact .chip s _

theorem sheetAct_queueField (p : Path) (i sub v : Nat) : SheetAct (queueFieldAct p i sub v) := by
  intro a s
  unfold queueFieldAct
  dsimp only
  split_ifs
  all_goals exact .chip s _

theorem sheetAct_screedRws (unit param value : Nat) : SheetAct (screedRwsAct unit param value) := by
  intro a s
  unfold screedRwsAct
  split
  · exact .chip s _
  · exact .refl s

theorem sheetAct_rdmOutbox (u : Nat) (bs : List Byte) : SheetAct (rdmOutboxAct u bs) := by
  intro a s
  unfold rdmOutboxAct
  dsimp only
  split
  · exact .refl s
  · split
    · exact .refl s
    · split
      · exact .refl s
      · split_ifs
        all_goals exact .chip s _

theorem sheetAct_retired (core v : Nat) : SheetAct (retiredAct core v) := by
  intro a s
  unfold retiredAct
  split
  · exact .chip s _
  · exact .refl s

/-- The advance of the life cycle drops the wrapped forms (R550). -/
theorem sheetAct_advance (v : Nat) : SheetAct (advanceAct v) := by
  intro a s
  unfold advanceAct
  dsimp only
  split
  · exact .refl s
  · split
    · exact .refl s
    · exact ((KeepsSheet.chip s _).trans (.wipeTrigger 0 _)).trans ⟨rfl, fun h => DustSheet.ok_without_store h rfl rfl⟩

/-- An installation that is not refused has a KEY_ID and room. -/
theorem install_of_status_ok {s : State} {id : Nat} (h : installStatus s id = St.ok) :
    id ≠ 0 ∧ s.dust.keys.length < 4096 := by
  unfold installStatus at h
  split_ifs at h with hlocked hid hbusy
  · exact absurd h (by decide)
  · exact absurd h (by decide)
  · exact absurd h (by decide)
  · exact ⟨fun h0 => hid (.inl h0), Nat.lt_of_not_le fun hfull => hbusy (.inl hfull)⟩

theorem sheetAct_keyInstall (id : Nat) (wrapped : List Byte) : SheetAct (keyInstallAct id wrapped) := by
  intro a s
  unfold keyInstallAct
  dsimp only
  split
  · exact .chip s _
  case isFalse hst =>
    obtain ⟨hid, hroom⟩ := install_of_status_ok (not_not.mp hst)
    split
    · exact .chip s _
    · split
      · exact .chip s _
      case isFalse hkey => exact ⟨rfl, fun h => DustSheet.ok_install wrapped h hid hkey hroom⟩

theorem sheetAct_keyRemove (id : Nat) : SheetAct (keyRemoveAct id) := by
  intro a s
  unfold keyRemoveAct
  dsimp only
  split
  · exact .refl s
  · split
    · exact .refl s
    · exact ⟨rfl, fun h => DustSheet.ok_remove id _ h⟩

/-! ### The rule of every object (R418) -/

theorem sheetAct_ite {p : Prop} [Decidable p] {f g : Act} (hf : SheetAct f) (hg : SheetAct g) : SheetAct (if p then f else g) := by
  split
  · exact hf
  · exact hg

theorem sheetAct_system (o : Nat) (data : List Byte) : SheetAct (systemAction o data) := by
  unfold systemAction
  repeat' refine sheetAct_ite ?_ ?_
  any_goals exact sheetAct_chip _
  exact sheetAct_retired _ _

theorem sheetAct_tenant (o : Nat) (data : List Byte) : SheetAct (tenantAction o data) := by
  unfold tenantAction
  repeat' refine sheetAct_ite ?_ ?_
  all_goals exact sheetAct_chip _

theorem sheetAct_handle (k : SetupKind) (n sub : Nat) (data : List Byte) : SheetAct (handleAction k n sub data) :=
  sheetAct_ite (sheetAct_chip _) (sheetAct_ite (sheetAct_chip _) (sheetAct_chip _))

theorem sheetAct_setup (o : Nat) (data : List Byte) : SheetAct (setupAction o data) := by
  unfold setupAction
  extract_lets a ix sub
  refine sheetAct_ite (sheetAct_handle _ _ _ _) (sheetAct_ite (sheetAct_handle _ _ _ _) (sheetAct_ite ?_ (sheetAct_chip _)))
  exact sheetAct_ite (sheetAct_chip _) (sheetAct_chip _)

theorem sheetAct_plainIf (o : Nat) (data : List Byte) (st : Nat) (ok : Nat → Chip → Bool) : SheetAct (plainIf o data st ok) :=
  sheetAct_chip _

theorem sheetAct_hawk (o : Nat) (data : List Byte) : SheetAct (hawkAction o data) := by
  unfold hawkAction
  refine sheetAct_ite ?_ (sheetAct_ite ?_ (sheetAct_ite ?_ ?_))
  · exact sheetAct_chip _
  · exact sheetAct_chip _
  · exact sheetAct_plainIf _ _ _ _
  · exact sheetAct_chip _

theorem sheetAct_skim (o : Nat) (data : List Byte) : SheetAct (skimAction o data) := by
  unfold skimAction
  repeat' refine sheetAct_ite ?_ ?_
  all_goals exact sheetAct_chip _

theorem sheetAct_screed (o : Nat) (data : List Byte) : SheetAct (screedAction o data) :=
  sheetAct_ite (sheetAct_ite (sheetAct_screedRws _ _ _) (sheetAct_chip _))
    (sheetAct_ite (sheetAct_screedRws _ _ _) (sheetAct_screedRws _ _ _))

theorem sheetAct_hod (o : Nat) (data : List Byte) : SheetAct (hodAction o data) := by
  unfold hodAction
  repeat' refine sheetAct_ite ?_ ?_
  any_goals exact sheetAct_chip _
  all_goals
    split
    all_goals exact sheetAct_chip _

theorem sheetAct_chain (o : Nat) (data : List Byte) : SheetAct (chainAction o data) := by
  unfold chainAction
  repeat' refine sheetAct_ite ?_ ?_
  any_goals exact sheetAct_chip _
  split
  all_goals exact sheetAct_chip _

theorem sheetAct_queue (p : Path) (o : Nat) (data : List Byte) : SheetAct (queueAction p o data) := by
  unfold queueAction
  dsimp only
  split
  · exact sheetAct_cfg _ _ _
  · exact sheetAct_seq _ _ _
  · exact sheetAct_queueField _ _ _ _

theorem sheetAct_plumb (o : Nat) (data : List Byte) : SheetAct (plumbAction o data) := by
  unfold plumbAction
  repeat' refine sheetAct_ite ?_ ?_
  all_goals exact sheetAct_chip _

theorem sheetAct_uart (u sub o : Nat) (data : List Byte) : SheetAct (uartAction u sub o data) := by
  unfold uartAction
  dsimp only
  split
  any_goals exact sheetAct_chip _
  exact sheetAct_rdmOutbox _ _

theorem sheetAct_can (k sub o : Nat) (data : List Byte) : SheetAct (canAction k sub o data) := by
  unfold canAction
  dsimp only
  split
  any_goals exact sheetAct_chip _
  exact sheetAct_ite (sheetAct_chip _) (sheetAct_chip _)

theorem sheetAct_port (o : Nat) (data : List Byte) : SheetAct (portAction o data) := by
  unfold portAction
  refine sheetAct_ite ?uart (sheetAct_ite ?can (sheetAct_ite ?_ (sheetAct_ite ?_ (sheetAct_ite ?cv (sheetAct_ite ?_ (sheetAct_ite ?_ ?_))))))
  case uart => exact sheetAct_uart _ _ _ _
  case can => exact sheetAct_can _ _ _ _
  case cv =>
    split
    all_goals exact sheetAct_chip _
  all_goals exact sheetAct_chip _

theorem sheetAct_reset (o : Nat) (data : List Byte) : SheetAct (resetAction o data) := by
  unfold resetAction
  repeat' refine sheetAct_ite ?_ ?_
  all_goals exact sheetAct_chip _

theorem sheetAct_security (o : Nat) (data : List Byte) : SheetAct (securityAction o data) :=
  sheetAct_ite (sheetAct_advance _) (sheetAct_ite (sheetAct_chip _)
    (sheetAct_ite (sheetAct_keyInstall _ _) (sheetAct_ite (sheetAct_keyRemove _) (sheetAct_chip _))))

/-- Whatever object is written, its rule keeps both. -/
theorem sheetAct_object (p : Path) (o : Nat) (data : List Byte) : SheetAct (objectAction p o data) := by
  unfold objectAction
  split
  · exact sheetAct_system o data
  · exact sheetAct_tenant o data
  · exact sheetAct_setup o data
  · exact sheetAct_setup o data
  · exact sheetAct_hawk o data
  · exact sheetAct_skim o data
  · exact sheetAct_screed o data
  · exact sheetAct_hod o data
  · exact sheetAct_chain o data
  · exact sheetAct_queue p o data
  · exact sheetAct_plumb o data
  · exact sheetAct_port o data
  · exact sheetAct_reset o data
  · exact sheetAct_security o data
  · exact sheetAct_chip _

/-! ### The services (R391, R426, R428, R431) -/

namespace KeepsSheet

theorem writeObject {act : Act} (h : SheetAct act) (a : Option Nat) (o : Nat) (data : List Byte) (s : State) :
    KeepsSheet s (writeObject act a o data s).1 := by
  unfold Machine.writeObject
  split
  · exact refl s
  · split
    · exact refl s
    · exact h _ s

theorem barWrite {act : Act} (h : SheetAct act) (t : Nat) (m : Msg) (s : State) : KeepsSheet s (barWrite t m act s) := by
  unfold Machine.barWrite
  dsimp only
  split
  · exact h _ s
  · exact refl s

theorem runWrite {act : Act} (h : SheetAct act) (p : Path) (m : Msg) (a : Option Nat) (s : State) :
    KeepsSheet s (runWrite p m act a s).1 := by
  unfold Machine.runWrite
  split
  · exact barWrite h _ m s
  · split
    · exact refl s
    · dsimp only
      split
      · exact (writeObject h a _ _ s).trans (chip _ _)
      · exact writeObject h a _ _ s

theorem runScope (p : Path) (m : Msg) (a : Option Nat) (s : State) : KeepsSheet s (runScope p m a s).1 := by
  unfold Machine.runScope
  dsimp only
  split
  · split
    · exact refl s
    · split
      · exact refl s
      · split_ifs
        · exact chip s _
        · exact refl s
        · exact refl s
        · split
          · exact chip s _
          · exact chip s _
  · exact runWrite (sheetAct_chip _) p m a s

theorem runAnyWrite (p : Path) (m : Msg) (a : Option Nat) (s : State) : KeepsSheet s (runAnyWrite p m a s).1 := by
  unfold Machine.runAnyWrite
  dsimp only
  split
  · exact runScope p m a s
  · exact runWrite (sheetAct_object p _ _) p m a s

theorem runRead (p : Path) (m : Msg) (a : Option Nat) (s : State) : KeepsSheet s (runRead p m a s).1 := by
  unfold Machine.runRead
  dsimp only
  split
  · exact refl s
  · split_ifs
    all_goals exact chip s _

theorem runBegin (p : Path) (m : Msg) (a : Option Nat) (s : State) : KeepsSheet s (runBegin p m a s).1 := by
  unfold Machine.runBegin
  dsimp only
  split
  · exact refl s
  · split_ifs
    all_goals exact chip s _

theorem runData (p : Path) (m : Msg) (a : Option Nat) (s : State) : KeepsSheet s (runData p m a s).1 := by
  unfold Machine.runData
  dsimp only
  split
  · exact refl s
  · split_ifs
    all_goals exact chip s _

theorem writeWhole (p : Path) (m : Msg) (value : List Byte) (a : Option Nat) (s : State) :
    KeepsSheet s (writeWhole p m value a s).1 := by
  unfold Machine.writeWhole
  dsimp only
  split
  · exact (runAnyWrite p _ a s).trans (chip _ _)
  · exact runAnyWrite p _ a s

theorem runEnd (p : Path) (m : Msg) (a : Option Nat) (s : State) : KeepsSheet s (runEnd p m a s).1 := by
  unfold Machine.runEnd
  dsimp only
  split
  · exact refl s
  · split_ifs
    · exact chip s _
    · exact chip s _
    · exact (chip s _).trans (writeWhole p m _ a _)

theorem runAbort (p : Path) (m : Msg) (a : Option Nat) (s : State) : KeepsSheet s (runAbort p m a s).1 := by
  unfold Machine.runAbort
  split
  · exact refl s
  · exact chip s _

theorem runPut (m : Msg) (a : Option Nat) (s : State) : KeepsSheet s (runPut m a s).1 := by
  unfold Machine.runPut
  dsimp only
  split_ifs
  all_goals exact chip s _

theorem runGet (p : Path) (m : Msg) (a : Option Nat) (s : State) : KeepsSheet s (runGet p m a s).1 := by
  unfold Machine.runGet
  dsimp only
  split
  · exact refl s
  · exact chip s _

theorem queueWordWrite (p : Path) (t i off v : Nat) (s : State) : KeepsSheet s (queueWordWrite p t i off v s) := by
  unfold Machine.queueWordWrite
  dsimp only
  split
  · exact sheetAct_queueField _ _ _ _ _ s
  · exact sheetAct_queueField _ _ _ _ _ s
  · exact sheetAct_cfg _ _ _ _ s
  · exact sheetAct_queueField _ _ _ _ _ s
  · exact sheetAct_seq _ _ _ _ s
  · exact refl s

theorem barStore (p : Path) (t off v : Nat) (s : State) : KeepsSheet s (barStore p t off v s) := by
  unfold Machine.barStore
  dsimp only
  split
  · exact chip s _
  · split
    · exact chip s _
    · split
      · exact chip s _
      · split
        · exact queueWordWrite _ _ _ _ _ s
        · split_ifs
          all_goals exact chip s _

theorem barAccess (p : Path) (t : Nat) (m : Msg) (s : State) : KeepsSheet s (barAccess p t m s) := by
  unfold Machine.barAccess
  dsimp only
  split
  · exact refl s
  · split
    · exact chip s _
    · split
      · exact barStore p t _ _ s
      · exact refl s

/-- Whatever service a message asks for. -/
theorem runService (p : Path) (m : Msg) (a : Option Nat) (s : State) : KeepsSheet s (runService p m a s).1 := by
  unfold Machine.runService
  split
  · exact barAccess _ _ m s
  · split
    · exact runRead p m a s
    · exact runAnyWrite p m a s
    · exact runBegin p m a s
    · exact runData p m a s
    · exact runEnd p m a s
    · exact runAbort p m a s
    · exact refl s
    · exact runPut m a s
    · exact runGet p m a s
    · exact refl s
    · exact refl s

theorem serveMsg (p : Path) (m : Msg) (s : State) : KeepsSheet s (serveMsg p m s) :=
  (serve (runService p m) s).trans (finishReset _)

theorem foldl_serveMsg (l : List (Path × Msg)) (s : State) :
    KeepsSheet s (l.foldl (fun s x => Machine.serveMsg x.1 x.2 s) s) := by
  induction l generalizing s with
  | nil => exact refl s
  | cons x l ih => exact (serveMsg x.1 x.2 s).trans (ih _)

end KeepsSheet

/-! ### The commands -/

theorem completes_row {i : Instr} {r : Req} {o : Nat} {data : List Byte} {act : Act} {s : State}
    (hi : exec i s = serveRow r o data act s) (h : SheetAct act) : Completes i s (KeepsSheet s) :=
  ⟨_, hi, .serve (.runWrite h r.path _) s⟩

theorem completes_scopeRow {i : Instr} {r : Req} {o : Nat} {data : List Byte} {s : State}
    (hi : exec i s = scopeRow r o data s) : Completes i s (KeepsSheet s) :=
  ⟨_, hi, .serve (.runScope r.path _) s⟩

theorem completes_resetRow {i : Instr} {r : Req} {o : Nat} {data : List Byte} {act : Act} {s : State}
    (hi : exec i s = thenReset (serveRow r o data act s)) (h : SheetAct act) : Completes i s (KeepsSheet s) :=
  ⟨_, hi, (KeepsSheet.serve (.runWrite h r.path _) s).trans (.finishReset _)⟩

theorem completes_message {i : Instr} {p : Path} {m : Msg} {s : State} (hi : exec i s = .next (serveMsg p m s)) :
    Completes i s (KeepsSheet s) :=
  ⟨_, hi, .serveMsg p m s⟩

theorem completes_kolef {i : Instr} {k : KolefCmd} {body : State → State} {s : State} (hi : exec i s = kolefRun k body s)
    (h : ∀ s, KeepsSheet s (body s)) : Completes i s (KeepsSheet s) := by
  unfold Completes
  rw [hi]
  unfold kolefRun
  dsimp only
  split_ifs
  · exact ⟨_, rfl, .refl s⟩
  · exact ⟨_, rfl, .chip s _⟩
  · exact ⟨_, rfl, .chip s _⟩
  · exact ⟨_, rfl, (KeepsSheet.chip s _).trans (h _)⟩

/-- A reset of a tenant is asked for by its object or by its function. -/
theorem completes_askReset {i : Instr} {r : Req} {t : Nat} {discard : Bool} {s : State} (hi : exec i s = askReset r t discard s) :
    Completes i s (KeepsSheet s) := by
  unfold askReset at hi
  split at hi
  · exact completes_onChip hi (.chip s _)
  · exact completes_row hi (sheetAct_chip _)

/-- The key coat wipes and drops what a life-cycle change leaves, and unwraps what is left (R540, R550). -/
theorem completes_keyCoat (rate : Option (BitVec 16)) (s : State) : Completes (.keyCoat rate) s (KeepsSheet s) := by
  unfold Completes
  show ∃ t, execKeyCoat rate s = .next t ∧ _
  unfold execKeyCoat
  split
  · exact ⟨_, rfl, .refl s⟩
  · dsimp only
    generalize hw : (if s.chip.num Obj.lifecycleLastApplied = s.chip.num Obj.lifecycleState then s else _) = w
    have hs : KeepsSheet s w := by
      rw [← hw]
      split
      · exact .refl s
      · exact (KeepsSheet.wipeTrigger 0 s).trans ⟨rfl, fun h => DustSheet.ok_without_store h rfl rfl⟩
    split
    · exact ⟨_, rfl, hs.trans (.chip w _)⟩
    · exact ⟨_, rfl, hs.trans (.chip w _)⟩
    · split
      · exact ⟨_, rfl, hs.trans (.chip w _)⟩
      · exact ⟨_, rfl, hs.trans ⟨rfl, DustSheet.ok_unwrapAll _⟩⟩

theorem completes_patrolScrub (inst : Fin 531) (word : BitVec 19) (double : Bool) (s : State) :
    Completes (.patrolScrub inst word double) s (KeepsSheet s) := by
  have hbad (d : DustSheet) : (badKeyWord word.toNat d).keys = d.keys ∧ (badKeyWord word.toNat d).store = d.store := by
    unfold badKeyWord
    split
    · split <;> exact ⟨rfl, rfl⟩
    · exact ⟨rfl, rfl⟩
  unfold Completes
  show ∃ t, execPatrolScrub inst word double s = .next t ∧ _
  unfold execPatrolScrub
  split_ifs
  · exact ⟨_, rfl, .refl s⟩
  · exact ⟨_, rfl, rfl, fun h => DustSheet.ok_of_tables h (hbad s.dust).1 (hbad s.dust).2⟩
  · exact ⟨_, rfl, .chip s _⟩
  · exact ⟨_, rfl, .chip s _⟩

theorem completes_wipeComplete (verified : Bool) (s : State) : Completes (.wipeComplete verified) s (KeepsSheet s) := by
  unfold Completes
  show ∃ t, execWipeComplete verified s = .next t ∧ _
  unfold execWipeComplete
  split_ifs
  · exact ⟨_, rfl, .refl s⟩
  · exact ⟨_, rfl, rfl, fun h => DustSheet.ok_without_keys h rfl rfl⟩
  · exact ⟨_, rfl, rfl, fun h => DustSheet.ok_without_keys h rfl rfl⟩
  · exact ⟨_, rfl, rfl, fun h => DustSheet.ok_of_tables h rfl rfl⟩

theorem completes_resetN (low : Nat) (supplies ignored : Bool) (cycles : Nat) (s : State) :
    Completes (.resetN low supplies ignored cycles) s (KeepsSheet s) := by
  unfold Completes
  rw [exec_resetN]
  split_ifs
  · exact ⟨_, rfl, .refl s⟩
  · exact ⟨_, rfl, .powerFailRestart cycles s⟩
  · exact ⟨_, rfl, .coldReset s⟩
  · exact ⟨_, rfl, .coldReset s⟩
  · exact ⟨_, rfl, .refl s⟩

theorem completes_mailboxTake (s : State) : Completes .mailboxTake s (KeepsSheet s) := by
  unfold Completes
  show ∃ t, execMailboxTake s = .next t ∧ _
  unfold execMailboxTake
  dsimp only
  split
  · exact ⟨_, rfl, .refl s⟩
  · split
    · exact ⟨_, rfl, .refl s⟩
    · exact ⟨_, rfl, (KeepsSheet.chip s _).trans (.serveMsg _ _ _)⟩

theorem completes_canFrameReceived (ctl : Fin 2) (frame : CanRx) (s : State) :
    Completes (.canFrameReceived ctl frame) s (KeepsSheet s) := by
  unfold Completes
  show ∃ t, execCanFrameReceived ctl frame s = .next t ∧ _
  unfold execCanFrameReceived
  dsimp only
  split
  · exact ⟨_, rfl, .refl s⟩
  · split
    · exact ⟨_, rfl, .chip s _⟩
    · split
      · exact ⟨_, rfl, .chip s _⟩
      · exact ⟨_, rfl, (KeepsSheet.chip s _).trans (.serveMsg _ _ _)⟩

/-- Every command ends in a next state, with the queue as it was and the Dust Sheet in order if it was. -/
theorem completes_keepsSheet (i : Instr) (s : State) : Completes i s (KeepsSheet s) := by
  cases i
  -- Clocks, timers, messages and events outside act on the chip alone.
  case sampleTick | skimOverrun | frameBoundary | lookaheadPass | maxRelease | featherEnd | stippleFrame | stippleLate |
    frameDeadline | userOverrun | instanceEntry | exchangeCopy | exchangeReturnCopy | windowFill | audioInFrame |
    audioOutFrame | canHeartbeat | dmxPacket | cvLoad | cvReadback | cvFaultTimeout | senseSample | prefetch | dispatch |
    migrationCutoff | migrationQueryTimer | migrationRetry | versionSwitch | versionRelease | codeLoadDone | threadSwitch |
    interruptEntry | semaphoreRevoke | allWaitDetector | thermalStepDown | thermalStepUp | thermalTrip | thermalUngate |
    safeLoadTaken | crossfadeStart | crossfadeEnd | dipOutStart | stageSwitch | dipEnd | readTimeout | rootLinkDown |
    controllerFatal | remoteTimeout | dramScrub | codeword | replayTimeout | lathSync | pdelayReq | pdelayResp | lathHello |
    lathCredit | heartbeat | eventMirror | mirrorAck | eventForward | placement | placeRefuse | holderReport | homeRelease |
    controllerFwd | migRecord | migReady | migCommit | migrationAbort | migCommitted | migQuery | migQueryReply | busRising |
    busFalling | stemRising | stemFalling | hawkDigest | extentReq | extentData | volumeOffer | chainCensus | viewVote |
    viewApply | configPropose | configVote | configApply | configFetch | configData | replicate | replicateAck | chainAudit |
    auditTimer | syncTimer | pdelayTimer | helloTimer | heartbeatTimer | signalDetected | lanesLock | trainTimeout |
    alignLock | laneFailure | retrainLock | signalLost | censusSettle | viewApplyTimeout | applyBoundary | remirrorDone |
    heartbeatMiss | lossSwitch | lossEffective | inventoryWaitEnd | timeMasterElection | configApplyTimer | chainWriteApply |
    mirrorResend | flr | linkDown | dmaError | doorbell | coalTime | resetDone | stcLoRead | evtStatusClear | evtEnable |
    mailboxDoorbell | mailboxWithdraw | ndpNotify | sessionExpiry | forwardTimeout | flashRecordWritten | canFrameSent |
    canBusError | busOffRecovery | collision | wclkWindow | plumbLock | holdover | holdoverTimeout | chainHoldover |
    realignment | rateTransition | renderStop | clockStop | rateTransitionResume | blockSizeChange | tempoApply | timerCount |
    leaseExpiry | powerFail | crossingDead | characterReceived | rxTimeout | characterSent | retryBackoff | dmxBreak |
    dmxIdle | rdmTimeout | rdmResponse | tdmRealignment | tdmNoClock | bootReady | quietEntry | powerWake | kolefImgTimeout |
    driveEnumerated | vfEnable | importDone | gangResetDone | tdmFrameStart | rdmReplyIdle | chainClockClassExpiry =>
    exact ⟨_, rfl, .chip s _⟩
  -- So do the Trowel instructions.
  case mac | msu | mpy | macr | mpysu | macsu | macsh | msush | adda | suba | mova | nega | absa | clra | cmpa | maxa | mina | sha |
    shax | lsra | sata | addax | movax | movaxp | rnda | cmova | normA | expA | movxa | movxap | movxr | movrx | movx | addx |
    subx | addsx | subsx | andx | orx | xorx | notx | negx | absx | shlx | shrx | lsrx | maxx | minx | cmpx | movi | addi |
    andi | ori | xori | cmpi | movml | movmh | movia | addip | movilc | movip | ldh | ldw | ldd | lda | ldah | ldp | ldm |
    ldg | sth | stw | std | staw | stah | sta23 | stpm | stg | branch | dbnz | loopLc | loopi | rpti | rptx | moveIntoSreg |
    moveOutOfSreg | blkexp | bmov | tapm | nopI | syncP | doneI | rotw | stset | stclr | sige | rti | sema | semr =>
    exact ⟨_, rfl, .chip s _⟩
  case waite t opnd =>
    show ∃ u, execWaite t opnd s = .next u ∧ _
    unfold execWaite
    split
    · exact ⟨_, rfl, .chip s _⟩
    · exact ⟨_, rfl, .chip s _⟩
  -- Hod reads the keys and changes the chip.
  case extentReadComplete | mountDone | formatDone => exact ⟨_, rfl, .chip s _⟩
  -- Writes of an object whose rule is of the chip alone.
  case migrateGo | stealReserve | stagingImageWrite | templateCommit | templateWithdraw | layerCommit | layerWithdraw |
    modsetCommit | modsetWithdraw | controlCommit | controlWithdraw | globalEnable | taskEnable | taskDisable | codeLoad |
    coreReinstate | coatCommit | coatClear | safeLoadCommit | safeLoadCancel | exchangeDir | wetEdgeGo | wetEdgeCancel |
    hodMount | hodUnmount | hodFormat | hodPreload | importBegin | importData | importFinish | importDelete | driveReinstate |
    conflictClear | journalReinstate | dramReinstate | portEnable | portDisable | portReset | portReinstate | laneReinstate |
    quarantineRequest | resync | tenantEnable | accessApply | accessApplyStore | canAbort | slotEnable | canRestart | canMode |
    canReinstate | clockSource | gangReset | coreReset | replayGo | uartMode | uartMute | midiBind | rdmRequest | cvEnable |
    cvReinstate | updateCommit | commitRollback | revokeKeySlot | powerStandby |
      threadMode | uartTx | tdmMode =>
    exact completes_row rfl (sheetAct_chip _)
  -- Writes of an object whose rule has more to say.
  case queueEnable | queueDisable => exact completes_row rfl (sheetAct_cfg _ _ _)
  case queueSeq => exact completes_row rfl (sheetAct_seq _ _ _)
  case rdmOutbox => exact completes_row rfl (sheetAct_rdmOutbox _ _)
  case keyInstall => exact completes_row rfl (sheetAct_keyInstall _ _)
  case keyRemove => exact completes_row rfl (sheetAct_keyRemove _)
  case screedParameterWrite r unit param value =>
    show ∃ t, execScreedParameterWrite r unit param value s = .next t ∧ _
    unfold execScreedParameterWrite
    split
    · exact ⟨_, rfl, .serve (.runWrite (sheetAct_screedRws _ _ _) r.path _) s⟩
    · exact ⟨_, rfl, .refl s⟩
  case sampleRate | blockSize | tempoSet | tempoRelocate | tempoAndRelocate => exact completes_scopeRow rfl
  case chainWrite r o data =>
    show ∃ t, execChainWrite r o data s = .next t ∧ _
    unfold execChainWrite
    split
    · exact ⟨_, rfl, .serve (.runScope r.path _) s⟩
    · exact ⟨_, rfl, .refl s⟩
  -- Messages of the dictionary, by whatever path.
  case ndpRead | ndpWrite | writeBegin | writeData | writeEnd | ndpAbort | ndpIdentify | queuePut | queueGet | ndpPing =>
    exact completes_message rfl
  case pendingRead =>
    refine ⟨_, rfl, .serve (fun a s => ?_) s⟩
    dsimp only
    split
    · exact .chip s _
    · exact .refl s
  case uartRxRead =>
    refine ⟨_, rfl, .serve (fun a s => ?_) s⟩
    dsimp only
    split
    · exact .chip s _
    · exact .refl s
  case mailboxTake => exact completes_mailboxTake s
  case canFrameReceived ctl frame => exact completes_canFrameReceived ctl frame s
  case chainNdp chip tag message =>
    show ∃ t, execChainNdp chip tag message s = .next t ∧ _
    unfold execChainNdp
    split
    · exact ⟨_, rfl, .chip s _⟩
    · exact ⟨_, rfl, .serveMsg _ _ s⟩
  case supervisorRestartDone => exact ⟨_, rfl, (KeepsSheet.chip s _).trans (.foldl_serveMsg _ _)⟩
  -- Kolef.
  case kolefId | kolefLog | kolefStc | kolefImg | kolefLc | kolefHelp => exact completes_kolef rfl (fun s => .chip s _)
  case kolefRd | kolefWr => exact completes_kolef rfl (.serveMsg _ _)
  case kolefReset cold =>
    refine completes_kolef (show _ = execKolefReset cold s from rfl) ?_
    intro s
    dsimp only
    split
    · exact (KeepsSheet.chip s _).trans (.coldReset _)
    · exact (KeepsSheet.chip s _).trans (.warmReset 1 _)
  -- Resets, boot and the Dust Sheet.
  case tenantReset | resetWithDiscard => exact completes_askReset rfl
  case warmReset | coldReset => exact completes_resetRow rfl (sheetAct_chip _)
  case lifeAdvance => exact completes_resetRow rfl (sheetAct_advance _)
  case powerFailRestart cycles =>
    show ∃ t, execPowerFailRestart cycles s = .next t ∧ _
    unfold execPowerFailRestart
    split
    · exact ⟨_, rfl, .powerFailRestart cycles s⟩
    · exact ⟨_, rfl, .refl s⟩
  case resetN low supplies ignored cycles => exact completes_resetN low supplies ignored cycles s
  case supervisorRestart =>
    unfold Completes
    rw [exec_supervisorRestart]
    split
    · exact ⟨_, rfl, (KeepsSheet.chip s _).trans (.warmReset 3 _)⟩
    · exact ⟨_, rfl, .chip s _⟩
  case alwaysOnWatchdog =>
    show ∃ t, execAlwaysOnWatchdog s = .next t ∧ _
    unfold execAlwaysOnWatchdog
    split
    · exact ⟨_, rfl, .refl s⟩
    · exact ⟨_, rfl, (KeepsSheet.chip s _).trans (.warmReset 4 _)⟩
  case vbakLoss =>
    unfold Completes
    rw [exec_vbakLoss]
    split
    · exact ⟨_, rfl, rfl, fun h => DustSheet.ok_without_keys h rfl rfl⟩
    · exact ⟨_, rfl, .refl s⟩
  case keyCoat rate => exact completes_keyCoat rate s
  case patrolScrub inst word double => exact completes_patrolScrub inst word double s
  case wipeTrigger cause => exact ⟨_, rfl, .wipeTrigger cause.val s⟩
  case wipeComplete verified => exact completes_wipeComplete verified s

/-- Settles O58: an empty queue leaves the state alone, and the command at the front of another keeps the sheet in order. -/
theorem stepKeepsDustSheet : Obligations.StepKeepsDustSheet := by
  intro s t hok hstep
  cases hq : s.pending with
  | nil =>
    have hidle : step s = .next s := by
      unfold step
      rw [hq]
    rw [hidle] at hstep
    exact Host.Outcome.next.inj hstep ▸ hok
  | cons i rest =>
    have hfront : step s = exec i { s with pending := rest } := by
      unfold step
      rw [hq]
    obtain ⟨u, hu, hkeeps⟩ := completes_keepsSheet i { s with pending := rest }
    rw [hfront, hu] at hstep
    exact Host.Outcome.next.inj hstep ▸ hkeeps.dust hok

end Sys2Proof.Machine
end

section
/-!
SUPPORT. O60: a read serves alike whatever keys and wrapped forms the Dust Sheet holds.
-/

namespace Sys2Proof.Machine

/-! ### Other keys in the Dust Sheet (R317) -/

/-- The state with other keys and wrapped forms in its Dust Sheet. -/
def rekeyed (keys store : Table (List Byte)) (s : State) : State :=
  { s with dust := { s.dust with keys := keys, store := store } }

section

variable (keys store : Table (List Byte))

@[simp] theorem rekeyed_chip (s : State) : (rekeyed keys store s).chip = s.chip := rfl

/-- What a read returns knows the sheet's state alone (R321). -/
theorem valueFrom_rekeyed (o off lim : Nat) (s : State) : valueFrom o off lim (rekeyed keys store s) = valueFrom o off lim s := rfl

/-- A reset sets up the same chip. -/
theorem finishReset_rekeyed_chip (s : State) : (finishReset (rekeyed keys store s)).chip = (finishReset s).chip := by
  unfold finishReset
  rw [rekeyed_chip]
  split
  · simp only [warmReset_eq, rekeyed_chip]
  · simp only [coldReset_eq, rekeyed_chip]
  · rfl

end

/-! ### Services that do not see the keys (R426 to R432) -/

/-- A service's answer, and its state with other keys. -/
def withKeys (keys store : Table (List Byte)) (r : State × Reply) : State × Reply := (rekeyed keys store r.1, r.2)

/-- A service that answers alike, and leaves alike, whatever the keys. -/
def Blind (run : Option Nat → State → State × Reply) : Prop :=
  ∀ a keys store s, run a (rekeyed keys store s) = withKeys keys store (run a s)

theorem blind_runRead (p : Path) (m : Msg) : Blind (runRead p m) := by
  intro a keys store s
  unfold runRead
  simp only [valueFrom_rekeyed, rekeyed_chip]
  split
  · rfl
  · simp only [apply_ite (withKeys keys store)]
    rfl

theorem blind_runGet (p : Path) (m : Msg) : Blind (runGet p m) := by
  intro a keys store s
  unfold runGet
  dsimp only [rekeyed_chip]
  split <;> rfl

/-- A BAR0 access that writes nothing. -/
theorem barAccess_rekeyed (p : Path) (t : Nat) {m : Msg} (h : m.op ≠ 2) (keys store : Table (List Byte)) (s : State) :
    barAccess p t m (rekeyed keys store s) = rekeyed keys store (barAccess p t m s) := by
  have hw : ¬ (m.op = 2 ∧ m.data.length = 4) := fun hw => h hw.1
  unfold barAccess
  simp only [if_neg hw, apply_ite (rekeyed keys store)]
  rfl

/-- READ, IDENTIFY and QUEUE_GET. -/
theorem blind_runService (p : Path) {m : Msg} (h : m.op = 1 ∨ m.op = 7 ∨ m.op = 9) : Blind (runService p m) := by
  intro a keys store s
  unfold runService
  cases p with
  | bar t =>
    have h2 : m.op ≠ 2 := by
      rcases h with h | h | h <;> rw [h] <;> decide
    simp only [barAccess_rekeyed _ _ h2]
    rfl
  | kolef | mailbox t b | can c n fd | chain c o an =>
    rcases h with h | h | h
    · simp only [h]
      exact blind_runRead _ m a keys store s
    · simp only [h]
      rfl
    · simp only [h]
      exact blind_runGet _ m a keys store s

section

variable {p : Path} {m : Msg} {run : Option Nat → State → State × Reply} (h : Blind run) (keys store : Table (List Byte)) (s : State)
include h

theorem answerBy_rekeyed (a b : Option Nat) :
    answerBy p m b (run a (rekeyed keys store s)) = rekeyed keys store (answerBy p m b (run a s)) := by
  rw [h a keys store s]
  unfold answerBy
  rw [apply_ite (rekeyed keys store)]
  rfl

theorem serveNerlil_rekeyed : serveNerlil p m run (rekeyed keys store s) = rekeyed keys store (serveNerlil p m run s) := by
  have hrun (a : Option Nat) (c : Chip) : answerBy p m a (run a { rekeyed keys store s with chip := c }) =
      rekeyed keys store (answerBy p m a (run a { s with chip := c })) := answerBy_rekeyed h keys store { s with chip := c } a a
  unfold serveNerlil
  dsimp only [rekeyed_chip]
  split
  · rfl
  · split_ifs
    · rfl
    · rfl
    · rfl
    · rfl
    · rfl
    · split
      · split_ifs
        · exact hrun _ _
        · rfl
        · rfl
      · exact hrun _ _

theorem serve_rekeyed : serve p m run (rekeyed keys store s) = rekeyed keys store (serve p m run s) := by
  unfold serve
  dsimp only [rekeyed_chip]
  split
  · rw [h]
    rfl
  · split_ifs
    · split <;> rfl
    · exact answerBy_rekeyed h keys store s _ _
    · exact serveNerlil_rekeyed h keys store s

end

/-! ### Reads -/

/-- A command that leaves the same chip, whatever the keys. -/
def KeyBlind (i : Instr) : Prop :=
  ∀ s keys store, ∃ t t', exec i s = .next t ∧ exec i (rekeyed keys store s) = .next t' ∧ t'.chip = t.chip

/-- A message that asks for a read. -/
theorem keyBlind_message {i : Instr} {p : Path} {m : Msg} (hi : ∀ s, exec i s = .next (serveMsg p m s))
    (h : m.op = 1 ∨ m.op = 7 ∨ m.op = 9) : KeyBlind i := by
  intro s keys store
  refine ⟨_, _, hi s, hi _, ?_⟩
  unfold serveMsg
  rw [serve_rekeyed (blind_runService p h), finishReset_rekeyed_chip]

/-- Kolef answers a command from the chip alone, or runs its body on a chip it has from the chip. -/
theorem kolefRun_cases (k : KolefCmd) (c : Chip) :
    ∃ c', (∀ body s, s.chip = c → kolefRun k body s = .next { s with chip := c' }) ∨
      (∀ body s, s.chip = c → kolefRun k body s = .next (body { s with chip := c' })) := by
  by_cases himg : c.boot.img.isSome = true
  · refine ⟨c, .inl ?_⟩
    rintro body s rfl
    exact if_pos himg
  obtain ⟨d, hd⟩ : ∃ d, d = modUart 0 (fun x => { x with rx := [], timeout := false }) c := ⟨_, rfl⟩
  by_cases hrec : (d.inRecovery && !k.inRom) = true
  · refine ⟨kolefLine St.badRequest [] d, .inl ?_⟩
    rintro body s rfl
    subst hd
    exact (if_neg himg).trans (if_pos hrec)
  by_cases hlev : (!k.allowed d.kolefLevel) = true
  · refine ⟨kolefLine St.noAccess [] d, .inl ?_⟩
    rintro body s rfl
    subst hd
    exact (if_neg himg).trans ((if_neg hrec).trans (if_pos hlev))
  · refine ⟨d, .inr ?_⟩
    rintro body s rfl
    subst hd
    exact (if_neg himg).trans ((if_neg hrec).trans (if_neg hlev))

/-- A command of Kolef. -/
theorem keyBlind_kolef {i : Instr} {k : KolefCmd} {body : State → State} (hi : ∀ s, exec i s = kolefRun k body s)
    (h : ∀ keys store s, (body (rekeyed keys store s)).chip = (body s).chip) : KeyBlind i := by
  intro s keys store
  rw [hi, hi]
  obtain ⟨c, hrun | hrun⟩ := kolefRun_cases k s.chip
  · exact ⟨_, _, hrun _ s rfl, hrun _ _ rfl, rfl⟩
  · exact ⟨_, _, hrun _ s rfl, hrun _ _ rfl, h keys store { s with chip := c }⟩

/-- A command of Kolef that changes the chip alone. -/
theorem keyBlind_kolefChip {i : Instr} {k : KolefCmd} {f : Chip → Chip} (hi : ∀ s, exec i s = kolefChip k f s) : KeyBlind i :=
  keyBlind_kolef (body := fun s => { s with chip := f s.chip }) hi fun _ _ _ => rfl

theorem keyBlind_uartRxRead (r : Req) (u : Fin 4) (offset : BitVec 32) : KeyBlind (.uartRxRead r u offset) := by
  intro s keys store
  refine ⟨_, _, rfl, rfl, ?_⟩
  rw [serve_rekeyed]
  · rfl
  · intro a keys store s
    simp only [apply_ite (withKeys keys store)]
    rfl

theorem keyBlind_kolefRd (object : BitVec 32) : KeyBlind (.kolefRd object) := by
  refine keyBlind_kolef (fun _ => rfl) fun keys store s => ?_
  unfold serveMsg
  rw [serve_rekeyed (blind_runService _ (.inl rfl)), finishReset_rekeyed_chip]

/-- Settles O60: a service of the dictionary reads the sheet's state and none of its keys, and Kolef's ID and LOG the chip alone. -/
theorem keysCannotBeRead : Obligations.KeysCannotBeRead := by
  intro s keys store t t' i hi ht ht'
  have hblind : KeyBlind i := by
    obtain ⟨r, o, offset, dst, rfl⟩ | ⟨r, q, dst, rfl⟩ | ⟨r, dst, rfl⟩ | ⟨r, u, offset, rfl⟩ | ⟨o, rfl⟩ | rfl | ⟨n, k, rfl⟩ := hi
    · exact keyBlind_message (fun _ => rfl) (.inl rfl)
    · exact keyBlind_message (fun _ => rfl) (.inr (.inr rfl))
    · exact keyBlind_message (fun _ => rfl) (.inr (.inl rfl))
    · exact keyBlind_uartRxRead r u offset
    · exact keyBlind_kolefRd o
    · exact keyBlind_kolefChip fun s => show execKolefId s = _ by unfold execKolefId; rfl
    · exact keyBlind_kolefChip fun s => show execKolefLog n k s = _ by unfold execKolefLog; rfl
  obtain ⟨u, u', hu, hu', hchip⟩ := hblind s keys store
  rw [← Host.Outcome.next.inj (hu.symm.trans ht), ← Host.Outcome.next.inj (hu'.symm.trans ht')]
  exact hchip

end Sys2Proof.Machine
end

section
/-!
SUPPORT. O34: errors that the scrubbers find, what returns retired rows and pages, and the wipe of the Dust Sheet.
-/

namespace Sys2Proof.Machine

/-! ### What leaves the record of errors alone

Notices, log entries and the records of the journal (R309, R410, R483). -/

section

variable (c : Chip)

theorem raise_errs (t v : Nat) : (raise t v c).errs = c.errs := by
  unfold raise when_ msix
  dsimp only
  split_ifs <;> rfl

theorem snagWith_errs (code unit tenant snap data : Nat) : (snagWith code unit tenant snap data c).errs = c.errs := by
  unfold snagWith
  dsimp only
  split_ifs
  · exact raise_errs _ _ _
  · exact raise_errs _ _ _
  · rfl

theorem noteRow_errs (row : Nat) : (noteRow row c).errs = c.errs := by
  unfold noteRow when_
  dsimp only
  split_ifs
  · rfl
  · exact snagWith_errs _ _ _ _ _ _
  · rfl

theorem freeRecord_errs (p : Nat) : (freeRecord p c).errs = c.errs := by
  unfold freeRecord noteRetire when_
  split
  · split_ifs <;> rfl
  · rfl

theorem moveRecord_errs (p q : Nat) : (moveRecord p q c).errs = c.errs :=
  forEach_keeps (fun d : Chip => d.errs = c.errs) _ _ _ (fun _ _ _ hd => hd) rfl

theorem loseRecords_errs (ps : List Nat) : (loseRecords ps c).errs = c.errs := by
  refine forEach_keeps (fun d : Chip => d.errs = c.errs) _ _ _ (fun t _ d hd => ?_) ?_
  · have hsnag (n : Nat) : (snagWith 0x0105 0 t 0xFFFF n d).errs = c.errs := (snagWith_errs _ _ _ _ _ _).trans hd
    dsimp only
    split_ifs
    · exact (raise_errs _ _ _).trans (hsnag _)
    · exact hsnag _
  · exact forEach_keeps (fun d : Chip => d.errs = c.errs) _ _ _ (fun p _ d hd => (freeRecord_errs d p).trans hd) rfl

theorem retireRow_errs (row : Nat) : (retireRow row c).errs = c.errs := by
  unfold retireRow
  refine forEach_keeps (fun d : Chip => d.errs = c.errs) _ _ _ (fun p _ d hd => ?_) ?_
  · split
    · exact (moveRecord_errs _ _ _).trans hd
    · exact hd
  · unfold when_
    split
    · exact (loseRecords_errs _ _).trans (noteRow_errs c row)
    · exact noteRow_errs c row

theorem modMirror_errs (slot : Nat) (f : Table (Option JRec) → Table (Option JRec)) : (modMirror slot f c).errs = c.errs := rfl

/-- Records of a mirror slot that move while places last. -/
theorem mirrorMoves_errs (slot fuel : Nat) (ps : List Nat) :
    (forEach ps (fun p c => match c.work.journal.mirrorPlace slot fuel 0 with
      | some q => modMirror slot (fun t => tset none (tdel t p) q (tget none t p)) c
      | none => c) c).errs = c.errs := by
  refine forEach_keeps (fun d : Chip => d.errs = c.errs) _ _ _ (fun p _ d hd => ?_) rfl
  split
  · exact (modMirror_errs _ _ _).trans hd
  · exact hd

theorem retireMirrorRow_errs (row n : Nat) : (retireMirrorRow row n c).errs = c.errs :=
  (mirrorMoves_errs _ _ _ _).trans ((modMirror_errs _ _ _).trans (noteRow_errs c row))

theorem badJournalWord_errs (word : Nat) : (badJournalWord word c).errs = c.errs := by
  unfold badJournalWord
  dsimp only
  split_ifs
  · rfl
  · exact retireRow_errs _ _
  · exact retireMirrorRow_errs _ _ _

end

/-! ### The patrol scrubber (R299, R300) -/

/-- An uncorrectable word is counted once, whatever its memory makes of it. -/
theorem uncorrected_badWord (inst word : Nat) (c : Chip) :
    (badWord inst word c).errs.uncorrected = tset 0 c.errs.uncorrected inst (satAdd 32 (tget 0 c.errs.uncorrected inst) 1) := by
  unfold badWord
  dsimp only
  split
  · rw [badJournalWord_errs]
    rfl
  · split
    · rfl
    · split <;> rfl

/-- An uncorrectable word that cores or Skim see is bad from then on; the memory itself stands. -/
theorem badWord_place {inst word p : Nat} (c : Chip) (hinst : inst < 528) (hp : wordPlace inst word = some p) :
    p / 8 ∈ (badWord inst word c).errs.bad ∧ (badWord inst word c).mem = c.mem := by
  have h529 : inst ≠ 529 := by omega
  have h528 (q : Prop) : ¬ (inst = 528 ∧ q) := fun h => by omega
  unfold badWord
  simp only [h529, if_false, hp, h528]
  exact ⟨List.mem_append_right _ (List.mem_singleton_self _), rfl⟩

/-- An entry of the Dust Sheet that holds a double error reads as absent (R300). -/
theorem key_badKeyWord {word id : Nat} {k : List Byte} {d : DustSheet} (h : d.keys[word / 8]? = some (id, k)) :
    (badKeyWord word d).key id = none := by
  have hlost : (badKeyWord word d).lost.contains id = true := by
    unfold badKeyWord
    rw [h]
    dsimp only
    split
    · assumption
    · simp
  unfold DustSheet.key
  exact if_pos (.inr (.inr (.inl hlost)))

theorem badKeyWord_keys (word : Nat) (d : DustSheet) : (badKeyWord word d).keys = d.keys := by
  unfold badKeyWord
  split
  · split <;> rfl
  · rfl

/-- The first and the second correction of a word within 10 s are counted and noted. -/
theorem fixedWord_counts {inst word : Nat} {c : Chip}
    (h : ((tget [] c.errs.fixes (2 ^ 20 * inst + word)).filter (fun t => decide (c.now < t + tenSeconds))).length < 2) :
    fixedWord inst word c = modErrs (fun e => { e with
      corrected := tset 0 e.corrected inst (satAdd 32 (tget 0 e.corrected inst) 1)
      fixes := tset [] e.fixes (2 ^ 20 * inst + word)
        (c.now :: (tget [] c.errs.fixes (2 ^ 20 * inst + word)).filter (fun t => decide (c.now < t + tenSeconds))) }) c := by
  unfold fixedWord
  dsimp only
  rw [if_pos h, if_neg (by omega)]

section

variable (inst : Fin 531) (word : BitVec 19) (s : State)

/-- No word is there. -/
theorem exec_patrolScrub_beyond (double : Bool) (h : instWords inst.val ≤ word.toNat) :
    exec (.patrolScrub inst word double) s = .next s := if_pos h

/-- A single error. -/
theorem exec_patrolScrub_single (h : word.toNat < instWords inst.val) :
    exec (.patrolScrub inst word false) s = s.onChip (fixedWord inst.val word.toNat) :=
  (if_neg (Nat.not_le.mpr h)).trans (if_neg Bool.false_ne_true)

/-- A double error. -/
theorem exec_patrolScrub_double (h : word.toNat < instWords inst.val) :
    exec (.patrolScrub inst word true) s =
      .next { s with chip := badWord inst.val word.toNat s.chip,
                     dust := if inst.val = 530 then badKeyWord word.toNat s.dust else s.dust } :=
  (if_neg (Nat.not_le.mpr h)).trans (if_pos rfl)

end

/-- A double error, whatever its memory. -/
theorem patrolScrub_double {inst : Fin 531} {word : BitVec 19} (s : State) (h : word.toNat < instWords inst.val) :
    Completes (.patrolScrub inst word true) s (fun t =>
      tget 0 t.chip.errs.uncorrected inst.val = satAdd 32 (tget 0 s.chip.errs.uncorrected inst.val) 1 ∧
      (∀ p, inst.val < 528 → wordPlace inst.val word.toNat = some p → p / 8 ∈ t.chip.errs.bad ∧ t.chip.mem = s.chip.mem) ∧
      (∀ id k, inst.val = 530 → s.dust.keys[word.toNat / 8]? = some (id, k) → t.dust.key id = none) ∧
      (inst.val ≠ 530 → t.dust = s.dust) ∧ t.dust.keys = s.dust.keys) := by
  refine ⟨_, exec_patrolScrub_double inst word s h, ?_, fun p hinst hp => badWord_place s.chip hinst hp, fun id k h530 hk => ?_,
    fun h530 => if_neg h530, ?_⟩
  · dsimp only
    rw [uncorrected_badWord, tget_tset_same]
  · dsimp only
    rw [if_pos h530]
    exact key_badKeyWord hk
  · dsimp only
    split
    · exact badKeyWord_keys _ _
    · rfl

/-! ### Pages of DRAM (R315) -/

theorem leNat_leBytes (n v : Nat) : leNat (leBytes n v) = v % 256 ^ n := by
  induction n generalizing v with
  | zero => simp [leBytes, leNat, Nat.mod_one]
  | succ n ih =>
    rw [leBytes, leNat, ih, BitVec.toNat_ofNat, pow_succ' 256, Nat.mod_mul (x := v) (a := 256)]

/-- A page that is retired stands in the list, and the memory stands. -/
theorem mem_retirePage {p : Nat} {c : Chip} (hp : p < 2 ^ 26) (hnew : p ∉ c.retiredPages) (hroom : c.retiredPages.length < 4096)
    (hlen : (c.blob Obj.memoryDramRetiredList).length % 4 = 0) :
    p ∈ (retirePage p c).retiredPages ∧ (retirePage p c).mem = c.mem := by
  have hlist : retirePage p c = setBlob Obj.memoryDramRetiredList (c.blob Obj.memoryDramRetiredList ++ leBytes 4 p) c := by
    unfold retirePage
    rw [if_neg (by simpa using hnew), if_pos hroom]
  rw [hlist]
  refine ⟨?_, rfl⟩
  unfold Chip.retiredPages
  rw [blob_setBlob_same]
  refine List.mem_map.mpr ⟨(c.blob Obj.memoryDramRetiredList).length / 4, ?_, ?_⟩
  · rw [upTo, List.mem_range, List.length_append, length_leBytes]
    omega
  · have hat : 4 * ((c.blob Obj.memoryDramRetiredList).length / 4) = (c.blob Obj.memoryDramRetiredList).length := by omega
    rw [field, hat, List.drop_left, List.take_of_length_le (length_leBytes 4 p).le, leNat_leBytes]
    exact Nat.mod_eq_of_lt (by omega)

section

variable {p : BitVec 26} {s : State}

theorem exec_dramScrub (found : Option (BitVec 26 × Bool)) (s : State) : exec (.dramScrub found) s = execDramScrub found s := rfl

/-- A page beyond the DRAM, or retired, is passed over. -/
theorem dramScrub_out {double : Bool} (h : Config.dramBytes ≤ 2048 * p.toNat ∨ p.toNat ∈ s.chip.retiredPages) :
    Leaves (.dramScrub (some (p, double))) s s.chip := by
  rw [← List.contains_iff_mem] at h
  rw [Leaves, exec_dramScrub, execDramScrub, State.onChip]
  dsimp only
  rw [if_pos h]

variable (hp : 2048 * p.toNat < Config.dramBytes) (hnew : p.toNat ∉ s.chip.retiredPages)
include hp hnew

theorem page_usable : ¬ (Config.dramBytes ≤ 2048 * p.toNat ∨ s.chip.retiredPages.contains p.toNat = true) := by
  rw [List.contains_iff_mem]
  exact fun h => h.elim (Nat.not_le.mpr hp) hnew

/-- A page with a double error is retired. -/
theorem dramScrub_double : Leaves (.dramScrub (some (p, true))) s
    (retirePage p.toNat (badPage p.toNat (bump Obj.memoryDramUncorrected s.chip))) := by
  rw [Leaves, exec_dramScrub, execDramScrub, State.onChip]
  dsimp only
  rw [if_neg (page_usable hp hnew), if_pos rfl]

/-- A page that has not been corrected within 10 s is counted and noted. -/
theorem dramScrub_first (hpages : tget [] s.chip.errs.pages p.toNat = []) : Leaves (.dramScrub (some (p, false))) s
    (modErrs (fun e => { e with pages := tset [] e.pages p.toNat [s.chip.now] }) (bump Obj.memoryDramCorrected s.chip)) := by
  rw [Leaves, exec_dramScrub, execDramScrub, State.onChip]
  dsimp only
  rw [if_neg (page_usable hp hnew), if_neg Bool.false_ne_true, hpages]
  rfl

end

/-! ### The wipe (R318 to R320) -/

theorem width_dustSheetLastCause : objWidth Obj.dustSheetLastCause = 1 := by decide +kernel

/-- A bit that is set is set. -/
theorem testBit_withBit (n i : Nat) : (withBit n i true).testBit i = true := by
  unfold withBit
  split
  · assumption
  · rename_i h
    rw [if_pos rfl, Nat.add_comm, Nat.testBit_two_pow_add_eq]
    simpa using h

/-- A cause is added to those of the wipe that runs. -/
theorem lastCause_withBit (cause : Fin 5) (n : Nat) (c : Chip) :
    bit ((setNum Obj.dustSheetLastCause (withBit n cause.val true) c).num Obj.dustSheetLastCause) cause.val = true := by
  have hcause : cause.val < 8 * 1 := by omega
  rw [num_setNum_same, width_dustSheetLastCause, wrap, bit, Nat.testBit_mod_two_pow, testBit_withBit, decide_eq_true hcause]
  rfl

/-- The cause of a wipe that starts. -/
theorem lastCause_first (cause : Fin 5) (stc : Nat) (c : Chip) :
    (setNum Obj.dustSheetLastWipeStc stc (setNum Obj.dustSheetLastCause (2 ^ cause.val) c)).num Obj.dustSheetLastCause = 2 ^ cause.val := by
  have hcause : 2 ^ cause.val < 2 ^ (8 * 1) := Nat.pow_lt_pow_right (by decide) (by omega)
  rw [num_setNum_other _ _ (by decide), num_setNum_fits c width_dustSheetLastCause hcause]

/-- While a wipe runs every key reads as absent. -/
theorem key_wiping {d : DustSheet} (h : d.state = .wiping) (id : Nat) : d.key id = none := by
  unfold DustSheet.key
  exact if_pos (.inr (.inr (.inr h)))

/-- Which objects are encrypted hangs on Hod's metadata and on which volumes stand in its slots. -/
theorem encrypted_congr {c d : Chip} (hhod : d.hod = c.hod)
    (hstate : ∀ n, d.num (Obj.hodVolumeState n) = c.num (Obj.hodVolumeState n))
    (hnumber : ∀ n, d.num (Obj.hodVolumeNumber n) = c.num (Obj.hodVolumeNumber n)) (vol obj : Nat) :
    d.encrypted vol obj = c.encrypted vol obj := by
  have hslot : d.volumeSlot vol = c.volumeSlot vol := by
    unfold Chip.volumeSlot Chip.mounted
    simp only [hstate, hnumber]
  unfold Chip.encrypted Chip.volume
  rw [hslot, hhod]

/-- After a wipe no extent of an encrypted object is cached (R320). -/
theorem encrypted_forgetKeys {c d : Chip} (h : ∀ vol obj, d.encrypted vol obj = c.encrypted vol obj) :
    ∀ e ∈ (forgetKeys d).hod.cache, c.encrypted e.volume e.object = false := by
  intro e he
  have hkept : (!d.encrypted e.volume e.object) = true := (List.mem_filter.mp he).2
  rw [← h]
  simpa using hkept

section

variable (s : State)

/-- No wipe runs. -/
theorem exec_wipeComplete_idle (verified : Bool) (h : s.dust.state ≠ .wiping) : exec (.wipeComplete verified) s = .next s := if_pos h

/-- The banks read back clear. -/
theorem exec_wipeComplete_clear (h : s.dust.state = .wiping) : exec (.wipeComplete true) s = .next
    { s with dust := { s.dust with keys := [], lost := [], state := .wiped, repeated := false },
             chip := forgetKeys (snag 0x0501 (s.chip.num Obj.dustSheetLastCause) 0xFF (bump Obj.dustSheetWipes s.chip)) } :=
  (if_neg (not_not_intro h)).trans (if_pos rfl)

/-- They do not, for the second time. -/
theorem exec_wipeComplete_fault (h : s.dust.state = .wiping) (hrep : s.dust.repeated = true) : exec (.wipeComplete false) s = .next
    { s with dust := { s.dust with keys := [], lost := [], state := .fault, locked := true, repeated := false },
             chip := forgetKeys (snag 0x0502 0 0xFF s.chip) } :=
  (if_neg (not_not_intro h)).trans ((if_neg Bool.false_ne_true).trans (if_pos hrep))

/-- They do not, for the first time. -/
theorem exec_wipeComplete_repeat (h : s.dust.state = .wiping) (hrep : s.dust.repeated = false) :
    exec (.wipeComplete false) s = .next { s with dust := { s.dust with repeated := true } } :=
  (if_neg (not_not_intro h)).trans ((if_neg Bool.false_ne_true).trans (if_neg (by rw [hrep]; exact Bool.false_ne_true)))

end

/-- Settles O34: each clause from the rule of its command. -/
theorem memoryErrorsAndWipe : Obligations.MemoryErrorsAndWipe := by
  refine ⟨fun inst word s => ?_, fun s => ?_, fun r a s => ?_, fun cause verified s => ?_⟩
  · refine ⟨fun double h => exec_patrolScrub_beyond inst word s double h, fun hin hrecent => ?_, patrolScrub_double s⟩
    refine completes_onChip (exec_patrolScrub_single inst word s hin) ?_
    rw [fixedWord_counts hrecent]
    exact ⟨rfl, rfl, rfl, rfl⟩
  · refine ⟨rfl, fun p double h => ?_, fun p hp hnew => ⟨?_, fun hroom hlen => mem_retirePage p.isLt hnew hroom hlen, ?_⟩⟩
    · exact dramScrub_out h
    · exact dramScrub_double hp hnew
    · exact dramScrub_first hp hnew
  · refine ⟨fun h => serveRow_chip h rfl, fun failing h => ?_, fun h => ?_⟩
    · exact ⟨_, serveRow_chip h rfl, _, rfl, rfl, rfl, rfl⟩
    · refine ⟨_, serveRow_chip h rfl, _, rfl, ?_, rfl, rfl, rfl, rfl⟩
      rw [Chip.retiredPages, blob_setBlob_same]
      rfl
  · refine ⟨fun h => ?_, fun h => ?_, fun h => exec_wipeComplete_idle s verified h, fun h => ?_, fun h hrep => ?_, fun h hrep => ?_⟩
    · exact ⟨_, congrArg Host.Outcome.next (if_pos h), rfl, lastCause_withBit cause _ _, rfl⟩
    · exact ⟨_, congrArg Host.Outcome.next (if_neg h), rfl, lastCause_first cause _ _, key_wiping rfl⟩
    · refine ⟨_, exec_wipeComplete_clear s h, rfl, (num_snag _ _ _ _ _).trans (num_bump_satAdd _ _), encrypted_forgetKeys ?_⟩
      refine encrypted_congr (snag_hod _ _ _ _) (fun n => ?_) fun n => ?_
      · have hother : Obj.hodVolumeState n ≠ Obj.dustSheetWipes := by
          unfold Obj.hodVolumeState Obj.dustSheetWipes
          omega
        rw [num_snag, num_bump_other _ hother]
      · have hother : Obj.hodVolumeNumber n ≠ Obj.dustSheetWipes := by
          unfold Obj.hodVolumeNumber Obj.dustSheetWipes
          omega
        rw [num_snag, num_bump_other _ hother]
    · exact ⟨_, exec_wipeComplete_fault s h hrep, rfl⟩
    · exact ⟨_, exec_wipeComplete_repeat s h hrep, rfl, rfl⟩

end Sys2Proof.Machine
end

section
/-!
SUPPORT. O36: an advance of the life cycle whose warm reset brings back an older Lifecycle.LastApplied.
-/

namespace Sys2Proof.Machine

/-! ### What a warm reset leaves of the numbers (R486) -/

theorem num_fitRegions (fuel cache meta_ o : Nat) (c : Chip) : (fitRegions fuel cache meta_ c).num o = c.num o := by
  induction fuel generalizing cache meta_ c with
  | zero => rfl
  | succ fuel ih =>
    unfold fitRegions
    split_ifs
    · rfl
    · exact (ih _ _ _).trans (num_snag _ _ _ _ c)
    · exact (ih _ _ _).trans (num_snag _ _ _ _ c)
    · rfl

/-- A loop that writes some objects of a family keeps the number of an object outside it. -/
theorem num_whenLoop {o : Nat} (l : List Nat) (g : Nat → Chip → Bool) (p : Nat → Nat) (v : Nat) (c : Chip) (h : ∀ n ∈ l, o ≠ p n) :
    (forEach l (fun n c => when_ (g n c) (setNum (p n) v) c) c).num o = c.num o := by
  refine forEach_keeps (fun d : Chip => d.num o = c.num o) _ l c (fun n hn d hd => ?_) rfl
  unfold when_
  split
  · exact (num_setNum_other d v (h n hn)).trans hd
  · exact hd

/-- The objects of a family of up to 256 units, 256 numbers apart from `base` on, lie below area 0xA0. -/
theorem ne_family {o base : Nat} (units : Nat) (ho : 0xA0000000 ≤ o) (hbase : base + 65536 ≤ 0xA0000000) (hunits : units ≤ 256) :
    ∀ n ∈ upTo units, o ≠ base + 256 * n := by
  intro n hn
  have hlt : n < units := List.mem_range.mp hn
  omega

/-- The CV outputs are set up in their own objects. -/
theorem num_cvLoop {o : Nat} (cold : Bool) (c : Chip) (ho : 0xA0000000 ≤ o) (st : Nat → Chip → Nat) :
    (forEach (upTo 32) (fun ch c =>
      if cold then setNum (Obj.cvState ch) (st ch c) c
      else setNum (Obj.cvCode ch) ((setNum (Obj.cvState ch) (st ch c) c).cvMid ch) (setNum (Obj.cvState ch) (st ch c) c)) c).num o =
      c.num o := by
  refine forEach_keeps (fun d : Chip => d.num o = c.num o) _ _ c (fun ch hch d hd => ?_) rfl
  have hstate : o ≠ Obj.cvState ch := ne_family (base := 0x80300006) 32 ho (by decide) (by decide) ch hch
  have hcode : o ≠ Obj.cvCode ch := ne_family (base := 0x80300004) 32 ho (by decide) (by decide) ch hch
  split
  · exact (num_setNum_other _ _ hstate).trans hd
  · exact (num_setNum_other _ _ hcode).trans ((num_setNum_other _ _ hstate).trans hd)

/-- The set-up of a reset reaches none of the life cycle's objects, which lie in area 0xA0. -/
theorem num_setUp {o : Nat} (cold : Bool) (c : Chip) (ho : 0xA0000000 ≤ o) : (setUp cold c).num o = c.num o := by
  unfold setUp
  extract_lets c1 c2 c3 c4 c5 c6
  have h1 : c1.num o = c.num o := num_fitRegions _ _ _ o c
  have h2 : c2.num o = c1.num o := modTrowel_num c1 _ o
  have h3 : c3.num o = c2.num o := num_whenLoop _ _ Obj.trowelCoreClockMHz _ c2 (ne_family 256 ho (by decide) (by decide))
  have h4 : c4.num o = c3.num o := num_whenLoop (upTo 2) _ Obj.canState _ c3 (ne_family 2 ho (by decide) (by decide))
  have h5 : c5.num o = c4.num o := num_whenLoop (upTo 2) _ Obj.lathPortState _ c4 (ne_family 2 ho (by decide) (by decide))
  have h6 : c6.num o = c5.num o := num_whenLoop _ _ Obj.lathLaneState _ c5 (ne_family 8 ho (by decide) (by decide))
  exact (num_cvLoop cold c6 ho _).trans (h6.trans (h5.trans (h4.trans (h3.trans (h2.trans h1)))))

/-- Of an object entered twice, the later entry lasts a warm reset. -/
theorem tget_warmNums_last {c : Chip} {l : Table Nat} {o v : Nat} (d : Nat) (hret : isRetained o = true) (hnums : c.nums = l ++ [(o, v)]) :
    tget d (warmNums c) o = v := by
  have hfilter : c.nums.filter (fun x => isRetained x.1) = l.filter (fun x => isRetained x.1) ++ [(o, v)] := by
    rw [hnums, List.filter_append]
    simp [hret]
  rw [warmNums, hfilter, List.foldl_append]
  exact tget_tput_same _ _ _ _

/-- Lifecycle.LastApplied after a warm reset. -/
theorem lastApplied_warmReset {s : State} {l : Table Nat} {v : Nat} (h : s.chip.nums = l ++ [(Obj.lifecycleLastApplied, v)]) :
    (warmReset 1 s).chip.num Obj.lifecycleLastApplied = v := by
  have hret : isRetained Obj.lifecycleLastApplied = true := by decide +kernel
  rw [warmReset_eq]
  dsimp only
  rw [num_snagWith, num_setNum_other _ _ (by decide), num_setUp _ _ (by decide), num_setNum_other _ _ (by decide),
    num_setNum_other _ _ (by decide)]
  exact tget_warmNums_last _ hret h

/-! ### The table of number objects -/

/-- A number that fits its object and is not its default is entered. -/
theorem nums_setNum_put {o v : Nat} (c : Chip) (hfit : wrap (8 * objWidth o) v = v) (hd : v ≠ objDflt o) :
    (setNum o v c).nums = tput c.nums o v :=
  (if_neg (hfit.symm ▸ hd)).trans (congrArg _ hfit)

/-- The default 0 is not entered. -/
theorem nums_setNum_zero {o : Nat} (c : Chip) (hd : objDflt o = 0) : (setNum o 0 c).nums = tdel c.nums o :=
  if_pos ((Nat.zero_mod _).trans hd.symm)

/-! ### The counterexample -/

/-- A state whose table of number objects holds Lifecycle.LastApplied behind an object of a higher number. -/
def disorderedState : State :=
  { chip := { nums := [(Obj.lifecycleState, 0), (Obj.dustSheetLastCause, 1), (Obj.lifecycleLastApplied, 0)] } }

/-- A request of the monitor. -/
def monitorRequest : Req := { path := .kolef, txn := 0 }

/-- What the rule of the advance leaves of that chip before its reset. -/
def advancedChip (v : Nat) : Chip :=
  setNum Obj.lifecycleLastApplied v (modBoot (fun b => { b with due := some 1 }) (setNum Obj.dustSheetLastWipeStc 0
    (setNum Obj.dustSheetLastCause 1 (flashStore Obj.lifecycleState (setNum Obj.lifecycleState v disorderedState.chip)))))

theorem advanceAct_disorderedState {v : Nat} (a : Nat) (hv : v = 1 ∨ v = 4) :
    advanceAct v a disorderedState = ({ disorderedState with chip := advancedChip v, dust := { state := .wiping } }, St.ok) := by
  have hst : disorderedState.chip.num Obj.lifecycleState = 0 := by decide +kernel
  unfold advanceAct
  rw [hst]
  dsimp only
  rw [if_neg (by omega), if_neg (by simp)]
  rfl

/-- The new Lifecycle.LastApplied is entered in front, and the old entry stays. -/
theorem nums_advancedChip {v : Nat} (hv : v = 1 ∨ v = 4) (hd : v ≠ objDflt Obj.lifecycleLastApplied) :
    ∃ l, (advancedChip v).nums = l ++ [(Obj.lifecycleLastApplied, 0)] := by
  have hwidth : objWidth Obj.lifecycleLastApplied = 1 := by decide +kernel
  have hfit : wrap (8 * objWidth Obj.lifecycleLastApplied) v = v := by
    rw [hwidth, wrap]
    omega
  have hcause : wrap (8 * objWidth Obj.dustSheetLastCause) 1 = 1 ∧ 1 ≠ objDflt Obj.dustSheetLastCause := by decide +kernel
  have hstc : objDflt Obj.dustSheetLastWipeStc = 0 := by decide +kernel
  obtain ⟨w, hw⟩ : ∃ w, w = wrap (8 * objWidth Obj.lifecycleState) v := ⟨_, rfl⟩
  have hnums : (advancedChip v).nums = tput (tdel (tput (tset (objDflt Obj.lifecycleState) disorderedState.chip.nums
      Obj.lifecycleState w) Obj.dustSheetLastCause 1) Obj.dustSheetLastWipeStc) Obj.lifecycleLastApplied v := by
    rw [advancedChip, nums_setNum_put _ hfit hd, modBoot_nums, nums_setNum_zero _ hstc, nums_setNum_put _ hcause.1 hcause.2, hw]
    rfl
  rw [hnums]
  by_cases hls : w = objDflt Obj.lifecycleState
  · refine ⟨[(Obj.lifecycleLastApplied, v), (Obj.dustSheetLastCause, 1)], ?_⟩
    rw [tset, if_pos hls]
    rfl
  · refine ⟨[(Obj.lifecycleState, w), (Obj.lifecycleLastApplied, v), (Obj.dustSheetLastCause, 1)], ?_⟩
    rw [tset, if_neg hls]
    rfl

/-- An answer to the monitor leaves the number objects alone. -/
theorem answered_monitor_nums (a : Nat) (data : List Byte) (x : State × Nat) :
    (answered monitorRequest a Obj.lifecycleAdvance data x).chip.nums = x.1.chip.nums := by
  unfold answered
  split <;> rfl

/-- So the older Lifecycle.LastApplied is the one that the warm reset keeps. -/
theorem lastApplied_lifeAdvance {next : Fin 5} {t : State} (hv : next.val = 1 ∨ next.val = 4)
    (hd : next.val ≠ objDflt Obj.lifecycleLastApplied)
    (hw : Writes monitorRequest 1 Obj.lifecycleAdvance [BitVec.ofNat 8 next.val] disorderedState)
    (ht : exec (.lifeAdvance monitorRequest next) disorderedState = .next t) : t.chip.num Obj.lifecycleLastApplied = 0 := by
  obtain ⟨l, hl⟩ := nums_advancedChip hv hd
  let x : State × Nat := ({ disorderedState with chip := advancedChip next.val, dust := { state := .wiping } }, St.ok)
  let y := answered monitorRequest 1 Obj.lifecycleAdvance [BitVec.ofNat 8 next.val] x
  have hserve := serveRow_writes (act := advanceAct next.val) (x := x) hw (advanceAct_disorderedState 1 hv)
  have hy : SameUnits x.1.chip y.chip := SameUnits.answered _ _ _ _ x
  have hf : finishReset y = warmReset 1 y := by
    unfold finishReset
    rw [show y.chip.boot.due = some 1 from congrArg Boot.due hy.boot]
    rfl
  have hexec : exec (.lifeAdvance monitorRequest next) disorderedState = .next (finishReset y) := congrArg thenReset hserve
  rw [← Host.Outcome.next.inj (hexec.symm.trans ht), hf]
  exact lastApplied_warmReset ((answered_monitor_nums 1 _ x).trans hl)

/-- Refutes O36: in `disorderedState`, whose life cycle is at 0, the monitor's Lifecycle.Advance to 1 (or to 4, where the part is
delivered at 1) is done, and its warm reset leaves Lifecycle.LastApplied 0: the advance enters the new number in front of the old
entry, and the reset takes over the entries one by one, the old one last. The statement speaks of every state, and nothing in it asks
that the table of number objects is in order; `setNum` leaves an ordered table ordered. -/
theorem not_powerLifeCycleAndKeys : ¬ Obligations.PowerLifeCycleAndKeys := by
  rintro ⟨-, -, -, hadvance, -⟩
  obtain ⟨next, hv, hd⟩ : ∃ next : Fin 5, (next.val = 1 ∨ next.val = 4) ∧ next.val ≠ objDflt Obj.lifecycleLastApplied := by
    by_cases h : objDflt Obj.lifecycleLastApplied = 1
    · exact ⟨4, .inr rfl, by rw [h]; decide⟩
    · exact ⟨1, .inl rfl, Ne.symm h⟩
  have hw : Writes monitorRequest 1 Obj.lifecycleAdvance [BitVec.ofNat 8 next.val] disorderedState := by
    have hall : ∀ next : Fin 5, next.val = 1 ∨ next.val = 4 →
        Writes monitorRequest 1 Obj.lifecycleAdvance [BitVec.ofNat 8 next.val] disorderedState := by decide +kernel
    exact hall next hv
  have hst : (judged monitorRequest.path disorderedState).chip.num Obj.lifecycleState = 0 := by decide +kernel
  obtain ⟨-, hdone⟩ := hadvance monitorRequest 1 next disorderedState hw rfl
  rw [hst] at hdone
  obtain ⟨t, ht, -, hlast, -⟩ := hdone (by omega) (by omega) (by omega)
  rw [lastApplied_lifeAdvance hv hd hw ht] at hlast
  omega

end Sys2Proof.Machine
end

section
/-!
SUPPORT. O45, first part: what the operations on a chain port, its lanes and its messages leave, and what each rule of a port does.
-/

namespace Sys2Proof.Machine

/-! ### The objects of a port (R351) -/

/-- The number objects of Lath.Port; lanes, membership and the rest of the dictionary lie outside. -/
def OfPorts (o : Nat) : Prop := 0x50100000 ≤ o ∧ o < 0x50110000

/-- The objects of port `p` that hold one octet and that its states write. -/
def portOctets (p : Nat) : List Nat :=
  [Obj.lathPortEnable p, Obj.lathPortState p, Obj.lathPortWidth p, Obj.lathPortCause p, Obj.lathPortAdmit p]

theorem width_portOctets {p o : Nat} (hp : p < 2) (ho : o ∈ portOctets p) : objWidth o = 1 :=
  (by decide +kernel : ∀ p : Fin 2, ∀ o ∈ portOctets p.val, objWidth o = 1) ⟨p, hp⟩ o ho

theorem ofPorts_portOctets {p o : Nat} (hp : p < 2) (ho : o ∈ portOctets p) : OfPorts o := by
  simp only [portOctets, List.mem_cons, List.not_mem_nil, or_false] at ho
  rcases ho with rfl | rfl | rfl | rfl | rfl <;>
    simp only [OfPorts, Obj.lathPortEnable, Obj.lathPortState, Obj.lathPortWidth, Obj.lathPortCause, Obj.lathPortAdmit] <;> omega

/-- One of them is read back as it was written. -/
theorem num_setNum_portOctet {p o v : Nat} (c : Chip) (hp : p < 2) (ho : o ∈ portOctets p) (hv : v < 256) :
    (setNum o v c).num o = v := num_setNum_fits c (width_portOctets hp ho) hv

theorem portState_mem (p : Nat) : Obj.lathPortState p ∈ portOctets p := by simp [portOctets]
theorem portWidth_mem (p : Nat) : Obj.lathPortWidth p ∈ portOctets p := by simp [portOctets]
theorem portCause_mem (p : Nat) : Obj.lathPortCause p ∈ portOctets p := by simp [portOctets]
theorem portAdmit_mem (p : Nat) : Obj.lathPortAdmit p ∈ portOctets p := by simp [portOctets]
theorem portEnable_mem (p : Nat) : Obj.lathPortEnable p ∈ portOctets p := by simp [portOctets]

/-! ### A port's record and state -/

section
variable (p q : Nat) (c : Chip)

@[simp] theorem port_modPort_same (f : Port → Port) : (modPort p f c).port p = f (c.port p) := tget_tmod_same _ c.chain.ports p f
@[simp] theorem port_setNum (o v : Nat) : (setNum o v c).port p = c.port p := rfl
@[simp] theorem port_bump (o : Nat) : (bump o c).port p = c.port p := rfl
@[simp] theorem port_emit (x : Out) : (emit x c).port p = c.port p := rfl
@[simp] theorem portState_modPort (f : Port → Port) : (modPort q f c).portState p = c.portState p := rfl
@[simp] theorem portState_emit (x : Out) : (emit x c).portState p = c.portState p := rfl

theorem portState_setNum {o : Nat} (v : Nat) (h : Obj.lathPortState p ≠ o) : (setNum o v c).portState p = c.portState p :=
  num_setNum_other c v h

theorem portState_bump {o : Nat} (h : Obj.lathPortState p ≠ o) : (bump o c).portState p = c.portState p := num_bump_other c h

variable {p c}

/-- A port's state is the one it was put in. -/
theorem portState_setPortState {st : Nat} (hp : p < 2) (hst : st < 256) : (setPortState p st c).portState p = st :=
  num_setNum_portOctet c hp (portState_mem p) hst

theorem num_setPortState {o : Nat} (st : Nat) (h : o ≠ Obj.lathPortState p) : (setPortState p st c).num o = c.num o :=
  num_setNum_other c st h

theorem isUp_iff : c.isUp p = true ↔ c.portState p = portUp := by simp [Chip.isUp]

end

/-! ### Messages out of the ports (R329, R352) -/

theorem out_emit (x : Out) (c : Chip) : (emit x c).out = c.out ++ [x] := rfl

section
variable (p cls type tag : Nat) (fields : List Nat) (c : Chip)

/-- A relayed message is all that a relay adds. -/
theorem relay_eq : relay p cls type tag fields c =
    { c with out := if c.isUp (1 - p) then c.out ++ [Out.lath (1 - p) cls type 0xFE tag fields] else c.out } := by
  unfold relay when_
  split <;> rfl

/-- And messages out of every port that is UP are all that such a sending adds. -/
theorem sendUp_eq : ∃ out, sendUp cls type tag fields c = { c with out := out } := by
  unfold sendUp
  refine forEach_keeps (fun d : Chip => ∃ out, d = { c with out := out }) _ _ _ (fun q _ d hd => ?_) ⟨c.out, rfl⟩
  obtain ⟨out, rfl⟩ := hd
  unfold when_
  split
  · exact ⟨_, rfl⟩
  · exact ⟨out, rfl⟩

theorem num_sendUp (o : Nat) : (sendUp cls type tag fields c).num o = c.num o := by
  obtain ⟨out, h⟩ := sendUp_eq cls type tag fields c
  rw [h]
  rfl

theorem chain_sendUp : (sendUp cls type tag fields c).chain = c.chain := by
  obtain ⟨out, h⟩ := sendUp_eq cls type tag fields c
  rw [h]

end

/-! ### Losses, log entries and the start of a census -/

section
variable (c : Chip)

/-- Declaring a neighbour lost leaves the number objects alone. -/
theorem num_declareLost (p o : Nat) : (declareLost p c).num o = c.num o := by
  unfold declareLost
  split
  · rfl
  · split
    · rfl
    · dsimp only
      rw [relay_eq]
      rfl

/-- An event source and a log entry leave the chain alone. -/
@[simp] theorem raise_chain (t v : Nat) : (raise t v c).chain = c.chain := by
  unfold raise when_ msix
  dsimp only
  split_ifs <;> rfl

@[simp] theorem snag_chain (code unit tenant : Nat) : (snag code unit tenant c).chain = c.chain := by
  unfold snag snagWith
  dsimp only
  split_ifs <;> simp

@[simp] theorem port_snag (code unit tenant p : Nat) : (snag code unit tenant c).port p = c.port p := by
  simp only [Chip.port, snag_chain]

variable {c}

/-- A census writes Chain.State and no other number object. -/
theorem num_startCensus {o : Nat} (h : o ≠ Obj.chainState) : (startCensus c).num o = c.num o := by
  unfold startCensus
  split
  · rfl
  · dsimp only
    rw [num_sendUp, when_]
    split
    · rw [num_setNum_other _ _ h, modChain_num]
    · rw [modChain_num]

/-- With a port UP it is on. -/
theorem censusOn_startCensus (h : c.isUp 0 = true ∨ c.isUp 1 = true) : (startCensus c).chain.censusOn = true := by
  unfold startCensus
  rw [if_neg (by simpa [← Bool.not_eq_true, or_iff_not_imp_left] using h)]
  dsimp only
  rw [chain_sendUp, when_]
  split <;> rfl

end

/-! ### Lanes (R344, R346) -/

/-- An object of a port is none of a lane, and none of the chain. -/
theorem OfPorts.ne_laneState {o : Nat} (h : OfPorts o) (l : Nat) : o ≠ Obj.lathLaneState l := by
  simp only [OfPorts, Obj.lathLaneState] at *
  omega

theorem OfPorts.ne_laneRetired {o : Nat} (h : OfPorts o) (l : Nat) : o ≠ Obj.lathLaneRetired l := by
  simp only [OfPorts, Obj.lathLaneRetired] at *
  omega

theorem OfPorts.ne_laneFailures {o : Nat} (h : OfPorts o) (l : Nat) : o ≠ Obj.lathLaneFailures l := by
  simp only [OfPorts, Obj.lathLaneFailures] at *
  omega

theorem OfPorts.ne_chainState {o : Nat} (h : OfPorts o) : o ≠ Obj.chainState := by
  simp only [OfPorts, Obj.chainState] at *
  omega

section
variable {o : Nat} (ho : OfPorts o) (c : Chip)

include ho

/-- The states of lanes are none of a port's objects. -/
theorem num_setLanes (ls : List Nat) (st : Nat → Nat) : (forEach ls (fun l d => setLane l (st l) d) c).num o = c.num o :=
  forEach_keeps (fun d : Chip => d.num o = c.num o) _ ls c
    (fun l _ d hd => (num_setNum_other d _ (ho.ne_laneState l)).trans hd) rfl

/-- Counting a lane's failure leaves the ports' objects alone. -/
theorem num_countLane (l : Nat) : (countLane l c).num o = c.num o := by
  unfold countLane
  dsimp only
  split
  · rw [num_snag, num_setNum_other _ _ (ho.ne_laneState l), num_setNum_other _ _ (ho.ne_laneRetired l),
      num_bump_other _ (ho.ne_laneFailures l), modChain_num]
  · rw [num_bump_other _ (ho.ne_laneFailures l), modChain_num]

end

section
variable (p q : Nat) (c : Chip)

/-- Setting lanes writes number objects only. -/
theorem setLanes_eq (ls : List Nat) (st : Nat → Nat) :
    ∃ nums, forEach ls (fun l d => setLane l (st l) d) c = { c with nums := nums } := by
  refine forEach_keeps (fun d : Chip => ∃ nums, d = { c with nums := nums }) _ _ _ (fun l _ d hd => ?_) ⟨c.nums, rfl⟩
  obtain ⟨nums, rfl⟩ := hd
  exact ⟨_, rfl⟩

/-- A failure of a lane leaves the ports' records alone. -/
theorem port_countLane (l : Nat) : (countLane l c).port q = c.port q := by
  unfold countLane
  dsimp only
  split
  · rw [port_snag]
    rfl
  · rfl

/-- Bonding lanes writes number objects only. -/
theorem bondLanes_eq (mask : Nat) : ∃ nums, bondLanes p mask c = { c with nums := nums } := by
  obtain ⟨nums, h⟩ := setLanes_eq c (portLanes p) (fun l =>
    let locked := (portLanes p).filter (fun l => bit mask (l - 4 * p) && !c.flag (Obj.lathLaneRetired l))
    if (locked.take (widthFor locked.length)).contains l then 1 else if locked.contains l then 2 else 0)
  unfold bondLanes
  dsimp only at h ⊢
  rw [h]
  exact ⟨_, rfl⟩

theorem widthFor_lt (n : Nat) : widthFor n < 256 := by
  unfold widthFor
  split_ifs <;> omega

theorem port_bondLanes (mask : Nat) : (bondLanes p mask c).port q = c.port q := by
  obtain ⟨nums, h⟩ := bondLanes_eq p c mask
  rw [h]
  rfl

theorem out_bondLanes (mask : Nat) : (bondLanes p mask c).out = c.out := by
  obtain ⟨nums, h⟩ := bondLanes_eq p c mask
  rw [h]

/-- The port takes the width of its usable lanes. -/
theorem width_bondLanes {p : Nat} (hp : p < 2) (mask : Nat) :
    (bondLanes p mask c).num (Obj.lathPortWidth p) = widthFor (c.usable p mask) := by
  unfold bondLanes updateWeight
  dsimp only
  rw [num_setNum_other _ _ (by simp [Obj.lathPortWidth, Obj.lathPortHopWeight]),
    num_setNum_portOctet _ hp (portWidth_mem p) (widthFor_lt _)]
  rfl

end

/-! ### RETRAIN (R344) -/

section
variable {p : Nat} (cause : Nat) {c : Chip}

/-- Only a port in UP or RETRAIN retrains. -/
theorem retrain_idle (hu : c.portState p ≠ portUp) (hr : c.portState p ≠ portRetrain) : retrain p cause c = c :=
  if_neg (by simp [hu, hr])

/-- The first time in 10 s, a port that is UP is in RETRAIN and not retired, with its cause. -/
theorem retrain_first (hu : c.portState p = portUp) (hr : (c.port p).retrains = []) : retrain p cause c =
    setPortState p portRetrain (modPort p (fun x => { x with retrains := [c.now], replays := [], resends := 0 })
      (when_ (cause != 0) (setNum (Obj.lathPortCause p) cause) (bump (Obj.lathPortRetrains p) c))) := by
  unfold retrain
  rw [if_pos (.inl hu), hu]
  cases hc : cause != 0
  all_goals
    simp only [when_, beq_self_eq_true, Bool.true_and, Bool.false_eq_true, if_true, if_false, port_bump, port_setNum, hr,
      List.filter_nil, List.length_singleton]
    rfl

theorem portState_retrain (hp : p < 2) (hu : c.portState p = portUp) (hr : (c.port p).retrains = []) :
    (retrain p cause c).portState p = portRetrain := by
  rw [retrain_first cause hu hr, portState_setPortState hp (by decide)]

variable {cause}

theorem cause_retrain (hp : p < 2) (hc : cause ≠ 0) (hlt : cause < 256) (hu : c.portState p = portUp)
    (hr : (c.port p).retrains = []) : (retrain p cause c).num (Obj.lathPortCause p) = cause := by
  rw [retrain_first cause hu hr, num_setPortState _ (by simp [Obj.lathPortCause, Obj.lathPortState]), modPort_num, when_,
    if_pos (by simpa using hc), num_setNum_portOctet _ hp (portCause_mem p) hlt]

end

/-! ### Leaving UP (R344, R347) -/

section
variable (p : Nat) (c : Chip)

/-- Of a port's objects, one that goes down loses Width and Admit. -/
theorem num_portLeft {o : Nat} (ho : OfPorts o) :
    (portLeft p c).num o = (setNum (Obj.lathPortWidth p) 0 (setNum (Obj.lathPortAdmit p) 0 c)).num o := by
  unfold portLeft
  dsimp only
  split_ifs
  · rw [modChain_num, num_setNum_other _ _ ho.ne_chainState, num_declareLost, modPort_num, num_setLanes ho _ _ (fun _ => 0)]
  · rw [num_declareLost, modPort_num, num_setLanes ho _ _ (fun _ => 0)]

/-- Every other object of a port stands. -/
theorem num_portLeft_other {o : Nat} (ho : OfPorts o) (hw : o ≠ Obj.lathPortWidth p) (ha : o ≠ Obj.lathPortAdmit p) :
    (portLeft p c).num o = c.num o := by
  rw [num_portLeft p c ho, num_setNum_other _ _ hw, num_setNum_other _ _ ha]

variable {p}

theorem width_portLeft (hp : p < 2) : (portLeft p c).num (Obj.lathPortWidth p) = 0 := by
  rw [num_portLeft p c (ofPorts_portOctets hp (portWidth_mem p)), num_setNum_portOctet _ hp (portWidth_mem p) (by decide)]

theorem admit_portLeft (hp : p < 2) : (portLeft p c).num (Obj.lathPortAdmit p) = 0 := by
  rw [num_portLeft p c (ofPorts_portOctets hp (portAdmit_mem p)),
    num_setNum_other _ _ (by simp [Obj.lathPortWidth, Obj.lathPortAdmit]), num_setNum_portOctet _ hp (portAdmit_mem p) (by decide)]

theorem portState_portLeft (hp : p < 2) : (portLeft p c).portState p = c.portState p :=
  num_portLeft_other p c (ofPorts_portOctets hp (portState_mem p)) (by simp [Obj.lathPortState, Obj.lathPortWidth])
    (by simp [Obj.lathPortState, Obj.lathPortAdmit])

end

/-! ### Replays (R337) -/

/-- When the replays of the last millisecond were, with one now. -/
def replayTimes (p : Nat) (c : Chip) : List Nat :=
  (c.now :: (c.port p).replays.filter (fun t => decide (c.now < t + 1000000))).take 64

/-- A port once it has sent again from ACK + 1. -/
def resent (p : Nat) (c : Chip) : Chip :=
  modPort p (fun x => { x with replays := replayTimes p c, resends := x.resends + 1 })
    (emit (.resend p (((c.port p).ack + 1) % 256)) (bump (Obj.lathPortReplays p) c))

section
variable {p : Nat} {c : Chip}

/-- Too many replays, or resends from one ACK, end in RETRAIN. -/
theorem replay_eq (p : Nat) (c : Chip) : replay p c =
    if 32 < (replayTimes p c).length ∨ 8 ≤ (c.port p).resends + 1 then retrain p 1 (resent p c) else resent p c := rfl

theorem portState_resent : (resent p c).portState p = c.portState p := by
  rw [resent, portState_modPort, portState_emit, portState_bump _ _ (by simp [Obj.lathPortState, Obj.lathPortReplays])]

theorem out_resent : (resent p c).out = c.out ++ [Out.resend p (((c.port p).ack + 1) % 256)] := by
  rw [resent, modPort_out, out_emit, bump, bumpBy, setNum_out]

theorem port_resent : (resent p c).port p =
    { c.port p with replays := replayTimes p c, resends := (c.port p).resends + 1 } := port_modPort_same p _ _

end

/-! ### Codewords (R324, R327, R337) -/

/-- What a port does with the slots of the codeword it expects. -/
def takeSlots (p : Nat) (cw : Codeword) (c : Chip) : Chip :=
  let r := takeFlits (slotsOf 20 cw.slots) (c.port p).part
  if !r.1.all flitCrcOk then setNak p (bump (Obj.lathPortUncorrectable p) c)
  else
    let d := forEach r.1 (takeFlit p cw.rpl) (modPort p (fun x => { x with expect := (x.expect + 1) % 256, nak := false, part := r.2 }) c)
    let freed := (upTo 6).map (fun k => if k = 0 then 0 else ((r.1.filter (fun f => flitClass f == k)).map flitSlots).sum)
    when_ (freed.any (· != 0)) (sendPort p 0 4 0 freed) d

section
variable {p : Nat} {cw : Codeword} {c : Chip}

/-- A codeword that Reed-Solomon cannot correct sets NAK. -/
theorem takeCodeword_uncorrectable (hc : cw.corrected = []) (hu : cw.uncorrectable = true) :
    takeCodeword p cw c = modPort p (fun x => { x with nak := true }) (bump (Obj.lathPortUncorrectable p) c) := by
  unfold takeCodeword countCorrected
  rw [hc, hu]
  rfl

/-- One that acknowledges nothing new and asks for no replay is judged by its SEQ. -/
theorem takeCodeword_eq (hc : cw.corrected = []) (hu : cw.uncorrectable = false) (hack : cw.ack.toNat = (c.port p).ack)
    (hnak : cw.nak = false) : takeCodeword p cw c =
      if (cw.seq.toNat + 256 - (c.port p).expect) % 256 ≠ 0 then
        when_ (decide ((cw.seq.toNat + 256 - (c.port p).expect) % 256 < 128)) (setNak p) c
      else takeSlots p cw c := by
  have hcount : countCorrected p cw.corrected c = c := by rw [hc]; rfl
  unfold takeCodeword
  simp only [hcount, hu, hack, hnak, when_, Bool.false_eq_true, if_false, if_true]
  rfl

/-- A flit with a bad CRC makes the codeword uncorrectable as a whole (log entry 74). -/
theorem takeSlots_badCrc (h : (takeFlits (slotsOf 20 cw.slots) (c.port p).part).1.all flitCrcOk = false) :
    takeSlots p cw c = modPort p (fun x => { x with nak := true }) (bump (Obj.lathPortUncorrectable p) c) :=
  if_pos (by rw [h]; rfl)

/-- A codeword that completes no flit is taken, and frees no credits. -/
theorem takeSlots_noFlit (h : (takeFlits (slotsOf 20 cw.slots) (c.port p).part).1 = []) : takeSlots p cw c =
    modPort p (fun x => { x with expect := (x.expect + 1) % 256, nak := false,
                                 part := (takeFlits (slotsOf 20 cw.slots) (c.port p).part).2 }) c := by
  unfold takeSlots
  simp only [h]
  rfl

end

end Sys2Proof.Machine
end

section
/-!
SUPPORT. O45, second part: the commands of a chain port, one lemma per case of its rule.
-/

namespace Sys2Proof.Machine

variable {port : Fin 2} {s : State}

/-! ### CODEWORD, REPLAY_TIMEOUT and CREDIT (R324, R331, R337) -/

section
variable {cw : Codeword}

/-- A codeword is received in ALIGN, UP and RETRAIN. -/
theorem leaves_codeword_closed (ha : s.chip.portState port.val ≠ portAlign) (hu : s.chip.portState port.val ≠ portUp)
    (hr : s.chip.portState port.val ≠ portRetrain) : Leaves (.codeword port cw) s s.chip :=
  leaves_onChip (execCodeword.eq_def port cw s) (if_neg (by simp [ha, hu, hr]))

theorem leaves_codeword_up {d : Chip} (hu : s.chip.portState port.val = portUp) (hd : takeCodeword port.val cw s.chip = d) :
    Leaves (.codeword port cw) s d :=
  leaves_onChip (execCodeword.eq_def port cw s) ((if_pos (by simp [hu])).trans hd)

variable (hu : s.chip.portState port.val = portUp) (hc : cw.corrected = []) (hunc : cw.uncorrectable = false)
  (hack : cw.ack.toNat = (s.chip.port port.val).ack) (hnak : cw.nak = false)

include hu hc hunc hack hnak

/-- A codeword from the past is dropped. -/
theorem leaves_codeword_past (h : 128 ≤ (cw.seq.toNat + 256 - (s.chip.port port.val).expect) % 256) :
    Leaves (.codeword port cw) s s.chip :=
  leaves_codeword_up hu ((takeCodeword_eq hc hunc hack hnak).trans
    ((if_pos (by omega)).trans (if_neg (by simpa using h))))

/-- One from beyond a gap sets NAK. -/
theorem leaves_codeword_gap (h0 : 0 < (cw.seq.toNat + 256 - (s.chip.port port.val).expect) % 256)
    (h : (cw.seq.toNat + 256 - (s.chip.port port.val).expect) % 256 < 128) :
    Leaves (.codeword port cw) s (modPort port.val (fun x => { x with nak := true }) s.chip) :=
  leaves_codeword_up hu ((takeCodeword_eq hc hunc hack hnak).trans
    ((if_pos (by omega)).trans (if_pos (by simpa using h))))

/-- The expected one gives its slots. -/
theorem leaves_codeword_expected {d : Chip} (h : (cw.seq.toNat + 256 - (s.chip.port port.val).expect) % 256 = 0)
    (hd : takeSlots port.val cw s.chip = d) : Leaves (.codeword port cw) s d :=
  leaves_codeword_up hu ((takeCodeword_eq hc hunc hack hnak).trans ((if_neg (by simpa using h)).trans hd))

end

theorem leaves_replayTimeout_down (h : s.chip.portState port.val ≠ portUp) : Leaves (.replayTimeout port) s s.chip :=
  leaves_onChip (execReplayTimeout.eq_def port s) (if_neg (mt isUp_iff.mp h))

theorem leaves_replayTimeout_up (h : s.chip.portState port.val = portUp) :
    Leaves (.replayTimeout port) s (replay port.val s.chip) :=
  leaves_onChip (execReplayTimeout.eq_def port s) (if_pos (isUp_iff.mpr h))

theorem completes_replayTimeout_resends (h : s.chip.portState port.val = portUp) (hr : (s.chip.port port.val).replays = [])
    (hn : (s.chip.port port.val).resends < 7) : Completes (.replayTimeout port) s (fun t =>
      t.chip.out = s.chip.out ++ [Out.resend port.val (((s.chip.port port.val).ack + 1) % 256)] ∧
      t.chip.portState port.val = portUp ∧ (t.chip.port port.val).resends = (s.chip.port port.val).resends + 1) := by
  have htimes : (replayTimes port.val s.chip).length = 1 := by rw [replayTimes, hr]; rfl
  refine ⟨_, leaves_replayTimeout_up h, ?_⟩
  rw [replay_eq, if_neg (by omega)]
  exact ⟨out_resent, portState_resent.trans h, congrArg Port.resends port_resent⟩

theorem completes_replayTimeout_retrains (h : s.chip.portState port.val = portUp) (hn : (s.chip.port port.val).resends = 7)
    (hr : (s.chip.port port.val).retrains = []) :
    Completes (.replayTimeout port) s (fun t => t.chip.portState port.val = portRetrain) := by
  refine ⟨_, leaves_replayTimeout_up h, ?_⟩
  rw [replay_eq, if_pos (.inr (by omega))]
  exact portState_retrain 1 port.isLt (portState_resent.trans h) ((congrArg Port.retrains port_resent).trans hr)

/-- The credits that a peer returns for one class (R331). -/
def giveCredit (p : Nat) (x : BitVec 16 × Nat) (c : Chip) : Chip :=
  when_ (decide (0 < x.2) && decide (x.2 < 6)) (modPort p (fun y => { y with spent := tmod 0 y.spent x.2 (· - x.1.toNat) })) c

/-- They come off what is spent of that class. -/
theorem spent_giveCredit (p k : Nat) (x : BitVec 16 × Nat) (c : Chip) (h0 : 0 < k) (h6 : k < 6) :
    tget 0 ((giveCredit p x c).port p).spent k = tget 0 (c.port p).spent k - if x.2 = k then x.1.toNat else 0 := by
  obtain ⟨n, j⟩ := x
  by_cases hj : j = k
  · subst hj
    simp [giveCredit, when_, h0, h6]
  · rw [if_neg hj, Nat.sub_zero, giveCredit, when_]
    split
    · rw [port_modPort_same, tget_tmod_other _ _ _ (Ne.symm hj)]
    · rfl

/-- The counts of a CREDIT are those of classes from `n` on. -/
theorem spent_forEach_giveCredit (p k : Nat) (h0 : 0 < k) (h6 : k < 6) (counts : List (BitVec 16)) (n : Nat) (c : Chip) :
    tget 0 ((forEach (counts.zipIdx n) (giveCredit p) c).port p).spent k =
      tget 0 (c.port p).spent k - if n ≤ k then (counts.getD (k - n) 0).toNat else 0 := by
  induction counts generalizing n c with
  | nil => simp [forEach]
  | cons a counts ih =>
    show tget 0 ((forEach (counts.zipIdx (n + 1)) (giveCredit p) (giveCredit p (a, n) c)).port p).spent k = _
    rw [ih, spent_giveCredit p k _ _ h0 h6]
    rcases Nat.lt_trichotomy n k with h | rfl | h
    · obtain ⟨m, rfl⟩ : ∃ m, k = n + m + 1 := ⟨k - n - 1, by omega⟩
      rw [if_neg (by omega), if_pos (by omega), if_pos (by omega), show n + m + 1 - (n + 1) = m by omega,
        show n + m + 1 - n = m + 1 by omega, List.getD_cons_succ, Nat.sub_zero]
    · simp
    · rw [if_neg (by omega), if_neg (by omega), if_neg (by omega), Nat.sub_zero]

theorem completes_lathCredit {k : Nat} (counts : List (BitVec 16)) (h0 : 0 < k) (h6 : k < 6) :
    Completes (.lathCredit port counts) s (fun t =>
      tget 0 (t.chip.port port.val).spent k = tget 0 (s.chip.port port.val).spent k - (counts.getD k 0).toNat ∧
      t.chip.nums = s.chip.nums ∧ t.chip.out = s.chip.out) := by
  have hframe : ∀ c : Chip, (forEach counts.zipIdx (giveCredit port.val) c).nums = c.nums ∧
      (forEach counts.zipIdx (giveCredit port.val) c).out = c.out := fun c =>
    forEach_keeps (fun d : Chip => d.nums = c.nums ∧ d.out = c.out) _ _ _
      (fun x _ d hd => by unfold giveCredit when_; split <;> exact hd) ⟨rfl, rfl⟩
  refine completes_onChip (f := forEach counts.zipIdx (giveCredit port.val)) rfl ⟨?_, hframe s.chip⟩
  exact spent_forEach_giveCredit port.val k h0 h6 counts 0 s.chip

/-! ### Time transfer (R341 to R343) -/

/-- A value of 32 bits is read back with its sign. -/
theorem snum_setInt {o : Nat} (v : BitVec 32) (c : Chip) (hw : objWidth o = 4) : (setInt o v.toInt c).snum 32 o = v.toInt := by
  have hlo := BitVec.le_toInt v
  have hhi := BitVec.toInt_lt (x := v)
  rw [setInt, Chip.snum, num_setNum_same, hw]
  simp only [toSigned, ofInt, wrap, Nat.reduceMul] at *
  norm_num at *
  split_ifs <;> omega

theorem width_plumbMasterOffsetPs : objWidth Obj.plumbMasterOffsetPs = 4 := by decide +kernel

theorem leaves_lathSync_idle (fields : List Nat) (residence : BitVec 64) (off : BitVec 32)
    (h : s.chip.portState port.val ≠ portUp ∨ s.chip.isMaster = true) : Leaves (.lathSync port fields residence off) s s.chip := by
  refine leaves_onChip (execLathSync.eq_def port fields residence off s) (if_pos ?_)
  rcases h with h | h
  · simp [mt isUp_iff.mp h]
  · simp [h]

/-- The fields of a SYNC that is passed on: corrected by the link and the residence, and one step older. -/
def syncOnward (p : Nat) (fields : List Nat) (residence : BitVec 64) (c : Chip) : List Nat :=
  [fields.getD 0 0, fields.getD 1 0, fields.getD 2 0,
    ofInt 64 (toSigned 64 (fields.getD 3 0) + c.delayToward p + residence.toNat), fields.getD 4 0, (fields.getD 5 0 + 1) % 256]

/-- A chip in CHAIN once it has taken a SYNC's offset and clock class. -/
def syncTaken (cls : Nat) (off : BitVec 32) (c : Chip) : Chip :=
  let d := modChain (fun h => { h with recs := h.recs.map (fun x =>
    if x.1.serial = h.view.master then ({ x.1 with cls := cls }, x.2) else x) }) (setInt Obj.plumbMasterOffsetPs off.toInt c)
  modTime (fun t => { t with syncAt := d.now }) d

section
variable (cls : Nat) (off : BitVec 32) (c : Chip)

theorem time_syncTaken : (syncTaken cls off c).time = { c.time with syncAt := c.now } := by
  simp only [syncTaken, modTime, setInt, modChain_time, setNum_time]
  rw [now_congr (c := c) (by rw [modChain_time, setNum_time])]

theorem snum_syncTaken : (syncTaken cls off c).snum 32 Obj.plumbMasterOffsetPs = off.toInt := by
  rw [← snum_setInt off c width_plumbMasterOffsetPs, Chip.snum, Chip.snum, syncTaken, modTime_num, modChain_num]

theorem out_syncTaken : (syncTaken cls off c).out = c.out := by
  rw [syncTaken, modTime_out, modChain_out, setInt, setNum_out]

end

section
variable {fields : List Nat} {residence : BitVec 64} {off : BitVec 32} (hu : s.chip.portState port.val = portUp)
  (hm : s.chip.isMaster = false) (hr : s.chip.refState = refChain) (hh : s.chip.time.chainHoldover = false)

include hu hm hr hh

/-- Outside holdover it is passed on and taken. -/
theorem leaves_lathSync_taken : Leaves (.lathSync port fields residence off) s
    (syncTaken (fields.getD 4 0) off (relay port.val 0 0 0 (syncOnward port.val fields residence s.chip) s.chip)) := by
  have href : (relay port.val 0 0 0 (syncOnward port.val fields residence s.chip) s.chip).refState = refChain := by
    rw [relay_eq]
    exact hr
  have hhold : (syncTaken (fields.getD 4 0) off (relay port.val 0 0 0 (syncOnward port.val fields residence s.chip)
      s.chip)).time.chainHoldover = false := by
    rw [time_syncTaken, relay_eq]
    exact hh
  exact leaves_onChip (execLathSync.eq_def port fields residence off s)
    ((if_neg (by simp [isUp_iff.mpr hu, hm])).trans ((if_neg (not_not.mpr href)).trans (if_neg (ne_true_of_eq_false hhold))))

theorem completes_lathSync : Completes (.lathSync port fields residence off) s (fun t =>
    t.chip.time.syncAt = s.chip.now ∧ t.chip.snum 32 Obj.plumbMasterOffsetPs = off.toInt ∧
    t.chip.time.stc = s.chip.time.stc ∧
    t.chip.out = if s.chip.isUp (1 - port.val) then
      s.chip.out ++ [Out.lath (1 - port.val) 0 0 0xFE 0 (syncOnward port.val fields residence s.chip)] else s.chip.out) := by
  refine ⟨_, leaves_lathSync_taken hu hm hr hh, ?_⟩
  dsimp only
  rw [time_syncTaken, snum_syncTaken, out_syncTaken, relay_eq]
  exact ⟨now_congr rfl, rfl, rfl, rfl⟩

end

theorem leaves_pdelayReq_down (seq : BitVec 16) (t2 t3 : BitVec 64) (h : s.chip.portState port.val ≠ portUp) :
    Leaves (.pdelayReq port seq t2 t3) s s.chip :=
  leaves_onChip (execPdelayReq.eq_def port seq t2 t3 s) (if_neg (mt isUp_iff.mp h))

theorem leaves_pdelayReq_up (seq : BitVec 16) (t2 t3 : BitVec 64) (h : s.chip.portState port.val = portUp) :
    Leaves (.pdelayReq port seq t2 t3) s (emit (.lath port.val 0 2 0xFE 0 [seq.toNat, t2.toNat, t3.toNat]) s.chip) :=
  leaves_onChip (execPdelayReq.eq_def port seq t2 t3 s) (if_pos (isUp_iff.mpr h))

theorem leaves_pdelayTimer_down (t1 : BitVec 64) (h : s.chip.portState port.val ≠ portUp) :
    Leaves (.pdelayTimer port t1) s s.chip :=
  leaves_onChip (execPdelayTimer.eq_def port t1 s) (if_neg (mt isUp_iff.mp h))

theorem leaves_pdelayTimer_up (t1 : BitVec 64) (h : s.chip.portState port.val = portUp) :
    let n := (s.chip.port port.val).delaySeq
    Leaves (.pdelayTimer port t1) s (modPort port.val
      (fun y => { y with delaySeq := (n + 1) % 65536, delayAsked := some (n, t1.toNat) })
      (emit (.lath port.val 0 1 0xFE 0 [n]) s.chip)) :=
  leaves_onChip (execPdelayTimer.eq_def port t1 s) (if_pos (isUp_iff.mpr h))

theorem leaves_pdelayResp_unasked (seq : BitVec 16) (t2 t3 t4 : BitVec 64) (h : (s.chip.port port.val).delayAsked = none) :
    Leaves (.pdelayResp port seq t2 t3 t4) s s.chip := by
  refine leaves_onChip (execPdelayResp.eq_def port seq t2 t3 t4 s) ?_
  dsimp only
  rw [h]

theorem completes_pdelayResp {t1 : Nat} (seq : BitVec 16) (t2 t3 t4 : BitVec 64)
    (h : (s.chip.port port.val).delayAsked = some (seq.toNat, t1)) : Completes (.pdelayResp port seq t2 t3 t4) s (fun t =>
      (t.chip.port port.val).delayAsked = none ∧ (t.chip.port port.val).delays =
        (((((t4.toNat : Int) - t1) - ((t3.toNat : Int) - t2.toNat)) / 2).toNat :: (s.chip.port port.val).delays).take 16) := by
  refine completes_onChip (execPdelayResp.eq_def port seq t2 t3 t4 s) ?_
  simp [h, updateWeight]

/-! ### HELLO (R342, R344) -/

section
variable (role version width : Byte) (serial : List Byte)

theorem leaves_lathHello_closed (ha : s.chip.portState port.val ≠ portAlign) (hu : s.chip.portState port.val ≠ portUp) :
    Leaves (.lathHello port role version width serial) s s.chip :=
  leaves_onChip (execLathHello.eq_def port role version width serial s) (if_neg (by simp [ha, hu]))

/-- A peer that is not another than the one before is noted. -/
theorem leaves_lathHello_noted (h : s.chip.portState port.val = portAlign ∨
      s.chip.portState port.val = portUp ∧ (s.chip.port port.val).peer = none) :
    let h : Hello := { role := role.toNat, version := version.toNat, width := width.toNat, serial := slice serial 0 16 }
    Leaves (.lathHello port role version width serial) s (setBlob (Obj.lathPortPeerSerial port.val) (slice serial 0 16)
      (modPort port.val (fun y => { y with peer := some h }) s.chip)) := by
  refine leaves_onChip (execLathHello.eq_def port role version width serial s) ((if_pos (h.imp_right And.left)).trans (if_neg ?_))
  rcases h with h | ⟨-, h⟩
  · simp [h, portAlign, portUp]
  · simp [h]

end

theorem leaves_helloTimer_closed (ha : s.chip.portState port.val ≠ portAlign) (hu : s.chip.portState port.val ≠ portUp) :
    Leaves (.helloTimer port) s s.chip :=
  leaves_onChip (execHelloTimer.eq_def port s) (if_neg (by simp [ha, hu]))

theorem leaves_helloTimer_open (h : s.chip.portState port.val = portAlign ∨ s.chip.portState port.val = portUp) :
    Leaves (.helloTimer port) s (emit (.lath port.val 0 3 0xFE 0
      ([port.val, 1, s.chip.num (Obj.lathPortWidth port.val)] ++ Config.serial.map BitVec.toNat)) s.chip) :=
  leaves_onChip (execHelloTimer.eq_def port s) (if_pos (by simpa using h))

/-! ### Heartbeats (R359 to R361) -/

theorem leaves_heartbeat_down (fields : List Nat) (h : s.chip.portState port.val ≠ portUp) :
    Leaves (.heartbeat port fields) s s.chip :=
  leaves_onChip (execHeartbeat.eq_def port fields s) (if_pos (by simp [mt isUp_iff.mp h]))

/-- The neighbour's, with RENDERING and without a loss. -/
theorem leaves_heartbeat_neighbour {n : Nat} {fields : List Nat} (hu : s.chip.portState port.val = portUp)
    (hn : s.chip.neighbourOf port.val = some n) (hf : fields.headD 0 = n) (h0 : bit (fields.getD 2 0) 0 = true)
    (h1 : bit (fields.getD 2 0) 1 = false) :
    Leaves (.heartbeat port fields) s (modPort port.val (fun x => { x with heard := s.chip.now, idleBeats := 0 }) s.chip) := by
  refine leaves_onChip (execHeartbeat.eq_def port fields s) ?_
  dsimp only
  rw [if_neg (by simp [isUp_iff.mpr hu]), hn, hf, h0, h1]
  simp only [when_, beq_self_eq_true, if_true, Bool.false_eq_true, if_false, port_modPort_same, Nat.reduceLeDiff, decide_false,
    Bool.and_false]

theorem leaves_heartbeatMiss_inTime
    (h : s.chip.now < (s.chip.port port.val).heard + s.chip.num Obj.chainHeartbeatMiss * 100000) :
    Leaves (.heartbeatMiss port) s s.chip :=
  leaves_onChip (execHeartbeatMiss.eq_def port s) (if_neg (by simpa using h))

theorem leaves_heartbeatMiss_late
    (h : (s.chip.port port.val).heard + s.chip.num Obj.chainHeartbeatMiss * 100000 ≤ s.chip.now) :
    Leaves (.heartbeatMiss port) s (declareLost port.val s.chip) :=
  leaves_onChip (execHeartbeatMiss.eq_def port s) (if_pos (by simpa using h))

/-! ### Bringing a port up (R344 to R346) -/

theorem leaves_signalDetected_other (h : s.chip.portState port.val ≠ portDetect) : Leaves (.signalDetected port) s s.chip :=
  leaves_onChip (execSignalDetected.eq_def port s) (if_neg (by simpa using h))

theorem leaves_signalDetected_detect (h : s.chip.portState port.val = portDetect) :
    Leaves (.signalDetected port) s (setNum (Obj.lathPortState port.val) portTrain s.chip) :=
  leaves_onChip (execSignalDetected.eq_def port s) (if_pos (by simpa using h))

theorem leaves_trainTimeout_other (h : s.chip.portState port.val ≠ portTrain) : Leaves (.trainTimeout port) s s.chip :=
  leaves_onChip (execTrainTimeout.eq_def port s) (if_neg (by simpa using h))

theorem completes_trainTimeout (h : s.chip.portState port.val = portTrain) : Completes (.trainTimeout port) s (fun t =>
    t.chip.portState port.val = portDetect ∧
      (t.chip.port port.val).failedTrainings = (s.chip.port port.val).failedTrainings + 1) := by
  refine ⟨_, leaves_onChip (execTrainTimeout.eq_def port s) (if_pos (by simpa using h)), ?_, ?_⟩
  · rw [portState_modPort, portState_setPortState port.isLt (by decide)]
  · rw [port_modPort_same]
    rfl

section
variable (lanes : BitVec 4)

theorem leaves_lanesLock_other (h : s.chip.portState port.val ≠ portTrain ∨ s.chip.usable port.val lanes.toNat = 0) :
    Leaves (.lanesLock port lanes) s s.chip :=
  leaves_onChip (execLanesLock.eq_def port lanes s) (if_neg (by rcases h with h | h <;> simp [h]))

/-- A port whose lanes have locked: the link starts afresh. -/
def aligned (p mask : Nat) (c : Chip) : Chip :=
  setPortState p portAlign (bondLanes p mask (modPort p (fun x => { x with expect := 0, ack := 255, peer := none }) c))

theorem port_aligned (p mask : Nat) (c : Chip) :
    (aligned p mask c).port p = { c.port p with expect := 0, ack := 255, peer := none } := by
  rw [aligned, setPortState, port_setNum, port_bondLanes, port_modPort_same]

theorem completes_lanesLock (h : s.chip.portState port.val = portTrain) (hn : 0 < s.chip.usable port.val lanes.toNat) :
    Completes (.lanesLock port lanes) s (fun t => t.chip.portState port.val = portAlign ∧
      t.chip.num (Obj.lathPortWidth port.val) = widthFor (s.chip.usable port.val lanes.toNat) ∧
      (t.chip.port port.val).expect = 0 ∧ (t.chip.port port.val).ack = 255 ∧ (t.chip.port port.val).peer = none) := by
  have hrun : Leaves (.lanesLock port lanes) s (aligned port.val lanes.toNat s.chip) :=
    leaves_onChip (execLanesLock.eq_def port lanes s) (if_pos (by simp [h, hn]))
  refine ⟨_, hrun, portState_setPortState port.isLt (by decide), ?_, ?_⟩
  · rw [aligned, num_setPortState _ (by simp [Obj.lathPortWidth, Obj.lathPortState]), width_bondLanes _ port.isLt]
    rfl
  · rw [port_aligned]
    exact ⟨rfl, rfl, rfl⟩

end

theorem leaves_alignLock_other (h : s.chip.portState port.val ≠ portAlign ∨ (s.chip.port port.val).peer = none) :
    Leaves (.alignLock port) s s.chip := by
  refine leaves_onChip (execAlignLock.eq_def port s) ?_
  dsimp only
  split
  · simp_all
  · rfl

/-- Where it decides against the link the port is MISWIRED, with the cause. -/
theorem completes_alignLock_miswired {cause : Nat} (hc : cause < 256)
    (hrun : Leaves (.alignLock port) s (setNum (Obj.lathPortCause port.val) cause (setPortState port.val portMiswired s.chip))) :
    Completes (.alignLock port) s (fun t => t.chip.portState port.val = portMiswired ∧
      t.chip.num (Obj.lathPortCause port.val) = cause) := by
  refine ⟨_, hrun, ?_, num_setNum_portOctet _ port.isLt (portCause_mem _) hc⟩
  rw [portState_setNum _ _ _ (by simp [Obj.lathPortState, Obj.lathPortCause]), portState_setPortState port.isLt (by decide)]

section
variable {h : Hello} (hs : s.chip.portState port.val = portAlign) (hp : (s.chip.port port.val).peer = some h)

include hs hp

/-- In ALIGN the peer's HELLO decides. -/
theorem leaves_alignLock {d : Chip} (hd : (if h.version ≠ 1 then
        setNum (Obj.lathPortCause port.val) 5 (setPortState port.val portMiswired s.chip)
      else if h.role = port.val then setNum (Obj.lathPortCause port.val) 4 (setPortState port.val portMiswired s.chip)
      else startCensus (modPort port.val (fun x => { x with retrains := [], heard := s.chip.now, idleBeats := 0 })
        (setPortState port.val portUp (setNum (Obj.lathPortAdmit port.val) 0 s.chip)))) = d) : Leaves (.alignLock port) s d := by
  refine leaves_onChip (execAlignLock.eq_def port s) (Eq.trans ?_ hd)
  simp only [hs, hp, beq_self_eq_true]
  rfl

theorem completes_alignLock_up (hv : h.version = 1) (hrole : h.role ≠ port.val) : Completes (.alignLock port) s (fun t =>
    t.chip.portState port.val = portUp ∧ t.chip.num (Obj.lathPortAdmit port.val) = 0 ∧ t.chip.chain.censusOn = true) := by
  refine ⟨_, leaves_alignLock hs hp ((if_neg (not_not.mpr hv)).trans (if_neg hrole)), ?_⟩
  let d := modPort port.val (fun x => { x with retrains := [], heard := s.chip.now, idleBeats := 0 })
    (setPortState port.val portUp (setNum (Obj.lathPortAdmit port.val) 0 s.chip))
  have hup : d.portState port.val = portUp := portState_setPortState port.isLt (by decide)
  have hframe {o : Nat} (ho : o ∈ portOctets port.val) : (startCensus d).num o = d.num o :=
    num_startCensus (ofPorts_portOctets port.isLt ho).ne_chainState
  refine ⟨(hframe (portState_mem _)).trans hup, (hframe (portAdmit_mem _)).trans ?_, censusOn_startCensus ?_⟩
  · rw [modPort_num, num_setPortState _ (by simp [Obj.lathPortState, Obj.lathPortAdmit]),
      num_setNum_portOctet _ port.isLt (portAdmit_mem _) (by decide)]
  · have h01 : port = 0 ∨ port = 1 := by omega
    rcases h01 with rfl | rfl
    · exact .inl (isUp_iff.mpr hup)
    · exact .inr (isUp_iff.mpr hup)

end

/-! ### Lanes that fail, RETRAIN and loss of signal (R344, R346, R347) -/

theorem leaves_laneFailure_other (lane : Fin 4) (hu : s.chip.portState port.val ≠ portUp)
    (hr : s.chip.portState port.val ≠ portRetrain) : Leaves (.laneFailure port lane) s s.chip :=
  leaves_onChip (execLaneFailure.eq_def port lane s) (if_neg (by simp [hu, hr]))

theorem completes_laneFailure (lane : Fin 4) (hu : s.chip.portState port.val = portUp)
    (hr : (s.chip.port port.val).retrains = []) : Completes (.laneFailure port lane) s (fun t =>
      t.chip.portState port.val = portRetrain ∧ t.chip.num (Obj.lathPortCause port.val) = 2) := by
  refine ⟨_, leaves_onChip (execLaneFailure.eq_def port lane s) (if_pos (by simp [hu])), ?_⟩
  have hup : (countLane (4 * port.val + lane.val) s.chip).portState port.val = portUp :=
    (num_countLane (ofPorts_portOctets port.isLt (portState_mem _)) _ _).trans hu
  have hfirst : ((countLane (4 * port.val + lane.val) s.chip).port port.val).retrains = [] := by rw [port_countLane, hr]
  exact ⟨portState_retrain 2 port.isLt hup hfirst, cause_retrain port.isLt (by decide) (by decide) hup hfirst⟩

section
variable (lanes : BitVec 4)

theorem leaves_retrainLock_other (h : s.chip.portState port.val ≠ portRetrain ∨ s.chip.usable port.val lanes.toNat = 0) :
    Leaves (.retrainLock port lanes) s s.chip :=
  leaves_onChip (execRetrainLock.eq_def port lanes s) (if_neg (by rcases h with h | h <;> simp [h]))

/-- A port once its lanes are bonded again. -/
def relocked (p mask : Nat) (c : Chip) : Chip :=
  setPortState p portUp (modPort p (fun x => { x with retrains := [], heard := (bondLanes p mask c).now, idleBeats := 0 })
    (bondLanes p mask c))

theorem ack_relocked (p mask : Nat) (c : Chip) : ((relocked p mask c).port p).ack = (c.port p).ack := by
  rw [relocked, setPortState, port_setNum, port_modPort_same, port_bondLanes]

theorem portState_relocked {p : Nat} (hp : p < 2) (mask : Nat) (c : Chip) : (relocked p mask c).portState p = portUp :=
  portState_setPortState hp (by decide)

theorem width_relocked {p : Nat} (hp : p < 2) (mask : Nat) (c : Chip) :
    (relocked p mask c).num (Obj.lathPortWidth p) = widthFor (c.usable p mask) := by
  rw [relocked, num_setPortState _ (by simp [Obj.lathPortWidth, Obj.lathPortState]), modPort_num, width_bondLanes _ hp]

theorem out_relocked (p mask : Nat) (c : Chip) : (relocked p mask c).out = c.out := by
  rw [relocked, setPortState, setNum_out, modPort_out, out_bondLanes]

/-- Where no bonded lane is missing, no failure is counted and the port sends again from ACK + 1. -/
theorem leaves_retrainLock (hs : s.chip.portState port.val = portRetrain) (hn : 0 < s.chip.usable port.val lanes.toNat)
    (hl : ∀ l ∈ portLanes port.val, s.chip.num (Obj.lathLaneState l) ≠ 1 ∨ bit lanes.toNat (l - 4 * port.val) = true) :
    Leaves (.retrainLock port lanes) s (emit (.resend port.val (((s.chip.port port.val).ack + 1) % 256))
      (relocked port.val lanes.toNat s.chip)) := by
  have hlost : (portLanes port.val).filter (fun l =>
      s.chip.num (Obj.lathLaneState l) == 1 && !bit lanes.toNat (l - 4 * port.val)) = [] := by
    refine List.filter_eq_nil_iff.mpr fun l hmem => ?_
    rcases hl l hmem with h | h <;> simp [h]
  rw [← ack_relocked port.val lanes.toNat s.chip]
  refine leaves_onChip (execRetrainLock.eq_def port lanes s) ((if_pos ⟨hs, hn⟩).trans ?_)
  dsimp only
  rw [hlost]
  rfl

theorem completes_retrainLock (hs : s.chip.portState port.val = portRetrain) (hn : s.chip.usable port.val lanes.toNat = 4)
    (hl : ∀ l ∈ portLanes port.val, s.chip.num (Obj.lathLaneState l) ≠ 1 ∨ bit lanes.toNat (l - 4 * port.val) = true) :
    Completes (.retrainLock port lanes) s (fun t => t.chip.portState port.val = portUp ∧
      t.chip.num (Obj.lathPortWidth port.val) = 4 ∧
      t.chip.out = s.chip.out ++ [Out.resend port.val (((s.chip.port port.val).ack + 1) % 256)]) := by
  refine ⟨_, leaves_retrainLock lanes hs (hn.symm ▸ Nat.zero_lt_succ 3) hl, ?_, ?_, ?_⟩
  · exact (portState_emit _ _ _).trans (portState_relocked port.isLt _ _)
  · exact (emit_num _ _ _).trans ((width_relocked port.isLt _ _).trans (congrArg widthFor hn))
  · exact (out_emit _ _).trans (congrArg (· ++ _) (out_relocked _ _ _))

end

theorem leaves_signalLost_other (hu : s.chip.portState port.val ≠ portUp) (hr : s.chip.portState port.val ≠ portRetrain)
    (hm : s.chip.portState port.val ≠ portMiswired) : Leaves (.signalLost port) s s.chip :=
  leaves_onChip (execSignalLost.eq_def port s) (if_neg (by simp [hu, hr, hm]))

theorem completes_signalLost (h : s.chip.portState port.val = portUp ∨ s.chip.portState port.val = portRetrain ∨
      s.chip.portState port.val = portMiswired) : Completes (.signalLost port) s (fun t =>
    t.chip.portState port.val = portDetect ∧ t.chip.num (Obj.lathPortCause port.val) = 6 ∧
      t.chip.num (Obj.lathPortAdmit port.val) = 0 ∧ t.chip.num (Obj.lathPortWidth port.val) = 0) := by
  refine ⟨_, leaves_onChip (execSignalLost.eq_def port s) (if_pos h), portState_setPortState port.isLt (by decide), ?_, ?_, ?_⟩
  · rw [num_setPortState _ (by simp [Obj.lathPortCause, Obj.lathPortState]),
      num_portLeft_other _ _ (ofPorts_portOctets port.isLt (portCause_mem _)) (by simp [Obj.lathPortCause, Obj.lathPortWidth])
        (by simp [Obj.lathPortCause, Obj.lathPortAdmit]), num_setNum_portOctet _ port.isLt (portCause_mem _) (by decide)]
  · rw [num_setPortState _ (by simp [Obj.lathPortAdmit, Obj.lathPortState]), admit_portLeft _ port.isLt]
  · rw [num_setPortState _ (by simp [Obj.lathPortWidth, Obj.lathPortState]), width_portLeft _ port.isLt]

/-! ### The timers of the chip (R343, R359) -/

theorem leaves_syncTimer_other (ns : BitVec 64) (frac : BitVec 16) (h : s.chip.isMaster = false) :
    Leaves (.syncTimer ns frac) s s.chip :=
  leaves_onChip (execSyncTimer.eq_def ns frac s) (if_neg (by rw [h]; exact Bool.false_ne_true))

theorem leaves_syncTimer_master (ns : BitVec 64) (frac : BitVec 16) (h : s.chip.isMaster = true) :
    Leaves (.syncTimer ns frac) s (modChain (fun n => { n with syncSeq := (n.syncSeq + 1) % 65536 })
      (sendUp 0 0 0 [ns.toNat, frac.toNat, s.chip.chain.syncSeq, 0, s.chip.num Obj.chainClockClass, 1] s.chip)) :=
  leaves_onChip (execSyncTimer.eq_def ns frac s) (if_pos h)

theorem leaves_heartbeatTimer_noLoss (h : s.chip.chain.losses = []) :
    Leaves .heartbeatTimer s (sendUp 0 5 0 (s.chip.heartbeat none) s.chip) := by
  refine leaves_onChip (execHeartbeatTimer.eq_def s) ?_
  rw [h]
  rfl

end Sys2Proof.Machine
end

section
/-!
SUPPORT. O45, third part: the objects through which a master enables, resets and reinstates ports and lanes, and the statement.
-/

namespace Sys2Proof.Machine

/-! ### Rules that need A on the Lath target (R351) -/

section
variable {r : Req} {a o : Nat} {data : List Byte} {s : State} {f : Chip → Chip} (hw : Writes r a o data s)

include hw

theorem serveRow_lathAct_noAccess (hmay : (judged r.path s).chip.may 0x18 0 a 3 = false) :
    serveRow r o data (lathAct f) s = .next (answered r a o data ({ s with chip := (judged r.path s).chip }, St.noAccess)) :=
  serveRow_chip hw (by simp only [hmay]; rfl)

theorem serveRow_lathAct_ok {c : Chip} (hmay : (judged r.path s).chip.may 0x18 0 a 3 = true)
    (hc : f (judged r.path s).chip = c) :
    serveRow r o data (lathAct f) s = .next (answered r a o data ({ s with chip := c }, St.ok)) :=
  serveRow_chip hw (by simp only [hmay, hc]; rfl)

end

section
variable {r : Req} {a : Nat} {port : Fin 2} {s : State} (hmay : (judged r.path s).chip.may 0x18 0 a 3 = true)

include hmay

/-- Lath.Port.Enable written 1 takes a DISABLED port that is not retired to DETECT. -/
theorem answers_portEnable_disabled (hw : Writes r a (Obj.lathPortEnable port.val) [1] s)
    (hst : (judged r.path s).chip.portState port.val = portDisabled)
    (hret : (judged r.path s).chip.num (Obj.lathPortRetired port.val) = 0) :
    Answers (.portEnable r port) r a (Obj.lathPortEnable port.val) [1] s (setNum (Obj.lathPortState port.val) portDetect
      (setNum (Obj.lathPortEnable port.val) 1 (judged r.path s).chip)) St.ok := by
  refine serveRow_lathAct_ok hw hmay ((if_pos rfl).trans ((if_pos (by simp [hst])).trans ?_))
  have hflag : (setNum (Obj.lathPortEnable port.val) 1 (judged r.path s).chip).flag (Obj.lathPortRetired port.val) = false := by
    rw [Chip.flag, num_setNum_other _ _ (by simp [Obj.lathPortRetired, Obj.lathPortEnable]), hret]
    rfl
  rw [hflag]
  rfl

theorem answers_portEnable_other (hw : Writes r a (Obj.lathPortEnable port.val) [1] s)
    (hst : (judged r.path s).chip.portState port.val ≠ portDisabled) :
    Answers (.portEnable r port) r a (Obj.lathPortEnable port.val) [1] s
      (setNum (Obj.lathPortEnable port.val) 1 (judged r.path s).chip) St.ok :=
  serveRow_lathAct_ok hw hmay ((if_pos rfl).trans (if_neg (by simp [hst])))

/-- Written 0, it takes any other port to DISABLED, and the link is left. -/
theorem completes_portDisable (hw : Writes r a (Obj.lathPortEnable port.val) [0] s)
    (hst : (judged r.path s).chip.portState port.val ≠ portDisabled) : Completes (.portDisable r port) s (fun t => ∃ d,
      t = answered r a (Obj.lathPortEnable port.val) [0] ({ s with chip := d }, St.ok) ∧ d.portState port.val = portDisabled ∧
      d.num (Obj.lathPortEnable port.val) = 0 ∧ d.num (Obj.lathPortWidth port.val) = 0) := by
  refine ⟨_, serveRow_lathAct_ok hw hmay ((if_neg (by decide)).trans (if_pos (by simp [hst]))), _, rfl, ?_, ?_, ?_⟩
  · rw [portState_portLeft _ port.isLt, portState_setPortState port.isLt (by decide)]
  · rw [num_portLeft_other _ _ (ofPorts_portOctets port.isLt (portEnable_mem _)) (by simp [Obj.lathPortEnable, Obj.lathPortWidth])
      (by simp [Obj.lathPortEnable, Obj.lathPortAdmit]), num_setPortState _ (by simp [Obj.lathPortEnable, Obj.lathPortState]),
      num_setNum_portOctet _ port.isLt (portEnable_mem _) (by decide)]
  · rw [width_portLeft _ port.isLt]

theorem answers_portReset_idle (hw : Writes r a (Obj.lathPortReset port.val) [1] s)
    (hu : (judged r.path s).chip.portState port.val ≠ portUp) (hr : (judged r.path s).chip.portState port.val ≠ portRetrain) :
    Answers (.portReset r port) r a (Obj.lathPortReset port.val) [1] s (judged r.path s).chip St.ok :=
  serveRow_lathAct_ok hw hmay (retrain_idle 0 hu hr)

theorem completes_portReset_up (hw : Writes r a (Obj.lathPortReset port.val) [1] s)
    (hu : (judged r.path s).chip.portState port.val = portUp) (hr : ((judged r.path s).chip.port port.val).retrains = []) :
    Completes (.portReset r port) s (fun t => ∃ d,
      t = answered r a (Obj.lathPortReset port.val) [1] ({ s with chip := d }, St.ok) ∧ d.portState port.val = portRetrain) :=
  ⟨_, serveRow_lathAct_ok hw hmay rfl, _, rfl, portState_retrain 0 port.isLt hu hr⟩

/-- Lath.Port.Retired written 0 takes a RETIRED port to DETECT. -/
theorem answers_portReinstate_retired (hw : Writes r a (Obj.lathPortRetired port.val) [0] s)
    (hst : (judged r.path s).chip.portState port.val = portRetired) :
    Answers (.portReinstate r port) r a (Obj.lathPortRetired port.val) [0] s (setNum (Obj.lathPortState port.val) portDetect
      (setNum (Obj.lathPortRetired port.val) 0 (judged r.path s).chip)) St.ok :=
  serveRow_lathAct_ok hw hmay ((if_pos rfl).trans (if_pos (by simp [hst])))

/-- Lath.Lane.Retired written 0 makes a retired lane usable, with no failures. -/
theorem answers_laneReinstate_retired {lane : Fin 8} (hw : Writes r a (Obj.lathLaneRetired lane.val) [0] s)
    (hret : (judged r.path s).chip.num (Obj.lathLaneRetired lane.val) ≠ 0) :
    Answers (.laneReinstate r lane) r a (Obj.lathLaneRetired lane.val) [0] s
      (modChain (fun h => { h with lanes := tmod {} h.lanes lane.val (fun x => { x with failures := [] }) })
        (setNum (Obj.lathLaneState lane.val) 0 (setNum (Obj.lathLaneRetired lane.val) 0 (judged r.path s).chip))) St.ok :=
  serveRow_lathAct_ok hw hmay (if_pos ⟨rfl, by simpa [Chip.flag] using hret⟩)

end

/-- Settles O45: each command by the guard of its rule; what a port's objects show afterwards is read past the lanes', the
membership's and the log's writes, which reach none of them.  SIGNAL_LOST ends in DETECT, a flit whose CRC fails makes its codeword
uncorrectable, and messages leave with HOPS 1 by log entry 74. -/
theorem lathLinks : Obligations.LathLinks := by
  refine ⟨fun port s => ?ports, fun ns frac s => ?timers, fun r a port lane s => ?rows⟩
  case ports =>
    intro c p st x
    exact ⟨fun cw => leaves_codeword_closed,
      fun cw hu hc hunc => leaves_codeword_up hu (takeCodeword_uncorrectable hc hunc),
      fun cw hu hc hunc hack hnak => ⟨leaves_codeword_past hu hc hunc hack hnak, leaves_codeword_gap hu hc hunc hack hnak,
        fun h hcrc => leaves_codeword_expected hu hc hunc hack hnak h (takeSlots_badCrc hcrc),
        fun h hnone => leaves_codeword_expected hu hc hunc hack hnak h (takeSlots_noFlit hnone)⟩,
      leaves_replayTimeout_down, completes_replayTimeout_resends, completes_replayTimeout_retrains,
      fun k counts h0 h6 _ => completes_lathCredit counts h0 h6,
      leaves_lathSync_idle, fun fields residence off => completes_lathSync,
      leaves_pdelayReq_down, leaves_pdelayReq_up, leaves_pdelayTimer_up, leaves_pdelayTimer_down,
      leaves_pdelayResp_unasked, fun seq t2 t3 t4 t1 => completes_pdelayResp seq t2 t3 t4,
      leaves_lathHello_closed, leaves_lathHello_noted, leaves_helloTimer_closed, leaves_helloTimer_open,
      leaves_heartbeat_down, fun n fields => leaves_heartbeat_neighbour, leaves_heartbeatMiss_inTime, leaves_heartbeatMiss_late,
      leaves_signalDetected_other, leaves_signalDetected_detect, leaves_trainTimeout_other, completes_trainTimeout,
      leaves_lanesLock_other, completes_lanesLock, leaves_alignLock_other,
      fun h hs hp => ⟨fun hv => completes_alignLock_miswired (by decide) (leaves_alignLock hs hp (if_pos hv)),
        fun hv hrole => completes_alignLock_miswired (by decide)
          (leaves_alignLock hs hp ((if_neg (not_not.mpr hv)).trans (if_pos hrole))),
        completes_alignLock_up hs hp⟩,
      leaves_laneFailure_other, completes_laneFailure, leaves_retrainLock_other, completes_retrainLock,
      leaves_signalLost_other, completes_signalLost⟩
  case timers => exact ⟨leaves_syncTimer_other ns frac, leaves_syncTimer_master ns frac, leaves_heartbeatTimer_noLoss⟩
  case rows =>
    intro c p st
    exact ⟨fun hmay => ⟨fun hw => serveRow_lathAct_noAccess hw hmay, fun hw => serveRow_lathAct_noAccess hw hmay,
        fun hw => serveRow_lathAct_noAccess hw hmay, fun hw => serveRow_lathAct_noAccess hw hmay,
        fun hw => serveRow_lathAct_noAccess hw hmay⟩,
      fun hmay => ⟨answers_portEnable_disabled hmay, answers_portEnable_other hmay, completes_portDisable hmay,
        answers_portReset_idle hmay, completes_portReset_up hmay, answers_portReinstate_retired hmay,
        answers_laneReinstate_retired hmay⟩⟩

end Sys2Proof.Machine
end

section
/-!
SUPPORT. O56, O57 and O59: the empty queue, the queue under a command, and the state after reset.
-/

namespace Sys2Proof.Machine

/-- Settles O56: a step looks for the front of the queue first. -/
theorem emptyQueueIdles : Obligations.EmptyQueueIdles := by
  intro s h
  unfold step
  rw [h]

/-- Settles O57: what every command keeps includes the queue. -/
theorem everyCommandEndsAndKeepsQueue : Obligations.EveryCommandEndsAndKeepsQueue := by
  intro i s
  obtain ⟨t, ht, hkeeps⟩ := completes_keepsSheet i s
  exact ⟨t, ht, hkeeps.pending⟩

/-- After reset no object is listed, so each reads as its table's reset value (R418). -/
theorem num_reset (o : Nat) : State.reset.chip.num o = objDflt o := rfl

/-- After reset the Dust Sheet holds nothing and is in order. -/
theorem dust_ok_reset : State.reset.dust.ok :=
  ⟨rfl, Nat.zero_le _, fun _ he => absurd he List.not_mem_nil, rfl, fun _ he => absurd he List.not_mem_nil⟩

/-- Settles O59: what no record of the reset state lists reads as its default; the membership, the chip number and the reference
state are the values of their tables (R418). -/
theorem resetState : Obligations.ResetState := by
  have hstate : objDflt Obj.chainState = 0 := by decide +kernel
  have hnumber : objDflt Obj.identityChipNumber = 0xFF := by decide +kernel
  have href : objDflt Obj.plumbRefState = refFree := by decide +kernel
  exact ⟨rfl, num_reset, mem_wf_reset, dust_ok_reset, rfl, rfl, rfl, rfl, rfl, rfl, rfl,
    (num_reset _).trans hstate, (num_reset _).trans hnumber, (num_reset _).trans href, fun _ => ⟨rfl, rfl⟩⟩

end Sys2Proof.Machine
end

section
/-!
SUPPORT. O40: what an event source, a log entry and a queue that halts leave of the queues, and the doorbell of a ring.
-/

namespace Sys2Proof.Machine

/-! ### Queues under event sources and log entries (R392, R408, R485) -/

/-- An event source changes the records of tenants and what is put out, and nothing else of the tenant interface. -/
theorem work_raise (t v : Nat) (c : Chip) : (raise t v c).work = { c.work with tenants := (raise t v c).work.tenants } := by
  unfold raise when_ msix
  dsimp only
  split_ifs <;> rfl

@[simp] theorem queues_raise (t v : Nat) (c : Chip) : (raise t v c).work.queues = c.work.queues := by rw [work_raise]

@[simp] theorem queues_snagWith (code unit tenant snap data : Nat) (c : Chip) :
    (snagWith code unit tenant snap data c).work.queues = c.work.queues := by
  unfold snagWith
  dsimp only
  split_ifs
  · exact queues_raise _ _ _
  · exact queues_raise _ _ _
  · rfl

@[simp] theorem queue_raise (t v j : Nat) (c : Chip) : (raise t v c).queue j = c.queue j := by rw [Chip.queue, Chip.queue, queues_raise]

/-- An entry of a producer that is dropped is counted; no queue changes. -/
@[simp] theorem queues_dropMade (p : Nat) (c : Chip) : (dropMade p c).work.queues = c.work.queues := by
  unfold dropMade
  dsimp only
  split_ifs
  · rfl
  · exact queues_snagWith _ _ _ _ _ _
  · rfl

/-- A queue loses what its producers have waiting, and nothing else. -/
theorem queues_dropAllMade (i : Nat) (c : Chip) :
    (dropAllMade i c).work.queues = (modQueue i (fun q => { q with made := [] }) c).work.queues :=
  forEach_keeps (fun d => d.work.queues = (modQueue i (fun q => { q with made := [] }) c).work.queues) dropMade _ _
    (fun p _ d hd => (queues_dropMade p d).trans hd) rfl

@[simp] theorem queue_dropAllMade_same (i : Nat) (c : Chip) : (dropAllMade i c).queue i = { c.queue i with made := [] } := by
  rw [← queue_modQueue_same c i (fun q => { q with made := [] })]
  exact congrArg (tget {} · i) (queues_dropAllMade i c)

/-- A queue that halts keeps its place in the ring and all else but what its producers have waiting. -/
@[simp] theorem queue_haltQueue_same (i : Nat) (e : QueueError) (c : Chip) :
    (haltQueue i e c).queue i = { c.queue i with state := .halted, error := e, made := [] } := by
  unfold haltQueue when_
  dsimp only
  split <;> simp

/-! ### The doorbell of a ring (R395) -/

/-- The place of a tenant's queue names the queue within the tenant. -/
theorem qix_mod {t : Nat} (q : Fin 28) : qix t q.val % 32 = q.val := by
  have := q.isLt
  unfold qix
  omega

section
variable {t : Fin 16} {q : Fin 28} {v : BitVec 32} {s : State}

/-- A doorbell that the tenant may ring acts on the ring. -/
theorem leaves_doorbell (hf : s.chip.hasFunction t.val = true) (hm : s.chip.may 0x16 (qix t.val q.val) (0x10 + t.val) 1 = true) :
    Leaves (.doorbell t q v) s (ringDoorbell (qix t.val q.val) v.toNat s.chip) :=
  leaves_onChip (execDoorbell.eq_def t q v s) (if_pos (by rw [hf, hm]; rfl))

end

section
variable {i v : Nat} {c : Chip}

theorem ringDoorbell_idle (h : (c.queue i).state ≠ .running) : ringDoorbell i v c = c := if_pos h

section
variable (hr : (c.queue i).state = .running) (hb : c.isBound i = false)

include hr hb

theorem ringDoorbell_beyond (hv : (c.queue i).size ≤ v) : ringDoorbell i v c = haltQueue i .badDoorbell c := by
  unfold ringDoorbell
  simp only [hr, hb, hv, ne_eq, not_true_eq_false, Bool.false_eq_true, if_false, if_true]

variable (hv : v < (c.queue i).size)

include hv

/-- On a ring that the tenant produces the doorbell moves TAIL, as far as the ring has room. -/
theorem ringDoorbell_produced (hp : i % 32 < 8 ∨ (16 ≤ i % 32 ∧ i % 32 < 20)) :
    ringDoorbell i v c =
      if (c.queue i).size - 1 < (c.queue i).outstanding + (v + (c.queue i).size - (c.queue i).tail) % (c.queue i).size then
        haltQueue i .badDoorbell c
      else modQueue i (fun q => { q with tail := v }) c := by
  have hk : (isEsq (i % 32) || isAudioIn (i % 32)) = true := by simpa [isEsq, isAudioIn] using hp
  unfold ringDoorbell
  simp only [hr, hb, hk, Nat.not_le.mpr hv, ne_eq, not_true_eq_false, Bool.false_eq_true, if_false, if_true]

/-- On a ring that the chip produces it moves HEAD, as far as entries are outstanding. -/
theorem ringDoorbell_consumed (hp : ¬ (i % 32 < 8 ∨ (16 ≤ i % 32 ∧ i % 32 < 20))) :
    ringDoorbell i v c =
      if (c.queue i).outstanding < (v + (c.queue i).size - (c.queue i).head) % (c.queue i).size then haltQueue i .badDoorbell c
      else if isNq (i % 32) then nqRoom i (modQueue i (fun q => { q with head := v }) c)
      else modQueue i (fun q => { q with head := v }) c := by
  have hk : (isEsq (i % 32) || isAudioIn (i % 32)) = false := by simpa [isEsq, isAudioIn] using hp
  unfold ringDoorbell
  simp only [hr, hb, hk, Nat.not_le.mpr hv, ne_eq, not_true_eq_false, Bool.false_eq_true, if_false]

end

/-- A queue record replaced by itself stays as it is, and so does every other. -/
theorem queue_modQueue_self {f : Queue → Queue} (h : f (c.queue i) = c.queue i) (j : Nat) : (modQueue i f c).queue j = c.queue j := by
  by_cases hj : j = i
  · rw [hj, queue_modQueue_same, h]
  · exact queue_modQueue_other c f hj

end

/-- Settles O40: the doorbell of a running ring, case by case of who produces the ring and whether the new index is one that R395
allows; a ring that halts keeps HEAD and TAIL. -/
theorem doorbells : Obligations.Doorbells := by
  intro t q v s c i x produced halts hf hm hb hhead htail
  have hi : i % 32 = q.val := qix_mod q
  have hd {d : Chip} (h : ringDoorbell i v.toNat c = d) : Leaves (.doorbell t q v) s d := h ▸ leaves_doorbell hf hm
  have hhalts (h : ringDoorbell i v.toNat c = haltQueue i .badDoorbell c) : halts := by
    have hq := queue_haltQueue_same i .badDoorbell c
    exact ⟨_, hd h, (congrArg Queue.state hq :), (congrArg Queue.error hq :), (congrArg Queue.head hq :), (congrArg Queue.tail hq :)⟩
  refine ⟨fun hr => hd (ringDoorbell_idle hr), fun hr hv => hhalts (ringDoorbell_beyond hr hb hv), fun hr hv hp => ?_, fun hr hv hp => ?_,
    fun hr hp hv => ?_⟩
  · have h := ringDoorbell_produced hr hb hv (hi.symm ▸ hp)
    exact ⟨fun ho => hhalts (h.trans (if_pos ho)), fun ho => hd (h.trans (if_neg (Nat.not_lt.mpr ho)))⟩
  · have h := ringDoorbell_consumed hr hb hv (hi.symm ▸ hp)
    refine ⟨fun ho => hhalts (h.trans (if_pos ho)), fun ho hq => hd ((h.trans (if_neg (Nat.not_lt.mpr ho))).trans (if_neg ?_)),
      fun ho hq => hd ((h.trans (if_neg (Nat.not_lt.mpr ho))).trans (if_pos ?_))⟩
    · simp [hi, isNq, Nat.not_lt.mpr hq]
    · have : 8 ≤ q.val := Nat.not_lt.mp fun hlt => hp (.inl hlt)
      simp [hi, isNq, hq, this]
  · have hnone : (v.toNat + x.size - x.tail) % x.size = 0 := by rw [hv, Nat.add_sub_cancel_left, Nat.mod_self]
    have hroom : x.outstanding < x.size := Nat.mod_lt _ (by omega)
    have h := (ringDoorbell_produced hr hb (hv ▸ htail) (hi.symm ▸ hp)).trans
      (if_neg (show ¬ x.size - 1 < x.outstanding + (v.toNat + x.size - x.tail) % x.size by omega))
    refine ⟨_, hd h, fun j => queue_modQueue_self ?_ j, rfl, rfl, rfl⟩
    rw [hv]

end Sys2Proof.Machine
end

section
/-!
SUPPORT. O43: a second WRITE_BEGIN over Kolef under the TXN of a session that is open. Kolef's requests carry no Nerlil message
(R553), so the obligation asks of them nothing about sessions, while WRITE_BEGIN answers BAD_SESSION (R428) and opens none.
-/

namespace Sys2Proof.Machine

/-- WRITE_BEGIN under the path, master and TXN of an open session changes nothing (R428). -/
theorem runBegin_of_open {p : Path} {m : Msg} {a : Option Nat} {s : State}
    (h : s.chip.work.sessions.any (fun x => x.owns p a m) = true) : (runBegin p m a s).1 = s := by
  unfold runBegin
  dsimp only
  cases writeTarget s.chip a m.object.toNat with
  | error st => rfl
  | ok d =>
    dsimp only
    rw [if_pos h]
    split <;> rfl

/-- A service that Kolef asks for and that keeps the state leaves a printed answer and nothing else (R553). -/
theorem serveMsg_kolef_kept {m : Msg} {s : State} (hr : s.chip.work.supervisor.restarting = false) (hdue : s.chip.boot.due = none)
    (h : (runService .kolef m (some 1) s).1 = s) : (serveMsg .kolef m s).chip.work = s.chip.work := by
  have hs : serve .kolef m (runService .kolef m) s = answerBy .kolef m (some 1) (runService .kolef m (some 1) s) :=
    serve_reaches _ ⟨rfl, hr, fun hn => absurd hn (by decide)⟩
  unfold serveMsg
  rw [hs]
  unfold answerBy
  cases (runService .kolef m (some 1) s).2.later <;> simp [finishReset, respond, deliver, isNerlil, emit, h, hdue]

/-- The object of the counterexample: Trowel.Code.Image, which takes up to 49152 octets. -/
def image : BitVec 32 := 0x01120001

/-- A session of Kolef's that writes one octet to it, under TXN 0. -/
def kolefSession : Session :=
  { path := .kolef, master := some 1, txn := 0, object := image.toNat, total := 1, data := [], lastOffset := 0, lastLength := 0,
    at_ := 0, expiry := 0, ended := .isOpen }

/-- The reset state in life-cycle state 0, where Kolef has level FULL (R549), with that session open. -/
def sessionState : State :=
  { State.reset with chip := { State.reset.chip with
      nums := [(Obj.lifecycleState, 0)], work := { State.reset.chip.work with sessions := [kolefSession] } } }

/-- There Kolef may write the object. -/
theorem writeTarget_sessionState : ∃ d, writeTarget sessionState.chip (some 1) image.toNat = .ok d ∧ lengthStatus d 2 = St.ok := by
  have hf : ∃ d, objFind image.toNat = some d ∧ d.acc = .rw ∧ lengthStatus d 2 = St.ok := by decide +kernel
  obtain ⟨d, hd, hacc, hlen⟩ := hf
  have hmay : mayWriteArea sessionState.chip (some 1) image.toNat = true := by decide +kernel
  exact ⟨d, by simp [writeTarget, hd, hmay, hacc], hlen⟩

/-- Refutes O43: over Kolef a WRITE_BEGIN of two octets, under the TXN of Kolef's open session of one octet, is answered
BAD_SESSION and opens no session, while the statement's second part has it open one. -/
theorem not_dictionaryServices : ¬ Obligations.DictionaryServices := by
  intro h
  obtain ⟨d, hd, hlen⟩ := writeTarget_sessionState
  have hbegin := ((h.2.1 ⟨.kolef, 0⟩ image 0 0xFF [] 2 0 sessionState rfl).1 ⟨rfl, rfl, fun hn => absurd hn (by decide)⟩).1 d hd hlen
    (by decide)
  obtain ⟨t, ht, hmem, -⟩ := hbegin
  have hopen : (runService .kolef (request ⟨.kolef, 0⟩ 3 image 0 0xFF (leBytes 4 2)) (some 1) sessionState).1 = sessionState :=
    (runBegin_of_open (by decide) : (runBegin .kolef _ (some 1) sessionState).1 = sessionState)
  have hwork : t.chip.work = sessionState.chip.work :=
    (congrArg (·.chip.work) (Host.Outcome.next.inj ht)).symm.trans (serveMsg_kolef_kept rfl rfl hopen)
  rw [hwork] at hmem
  exact absurd (congrArg Session.total (List.mem_singleton.mp hmem)) (by decide)

end Sys2Proof.Machine
end

section
/-!
SUPPORT. O37: Kolef reads one command (R542, R553 to R555).
-/

namespace Sys2Proof.Machine

/-! ### A command by what stands in its way -/

/-- The chip once UART0's line was taken. -/
def lineRead (c : Chip) : Chip := modUart 0 (fun x => { x with rx := [], timeout := false }) c

section
variable {k : KolefCmd} {body : State → State} {s : State}

/-- During IMG no command is read. -/
theorem kolefRun_img (h : s.chip.boot.img ≠ none) : kolefRun k body s = .next s := if_pos (Option.isSome_iff_ne_none.mpr h)

variable (h : s.chip.boot.img = none)
include h

/-- In RECOVERY a command outside the ROM is not known. -/
theorem kolefRun_unknown (hr : s.chip.inRecovery = true) (hk : k.inRom = false) :
    kolefRun k body s = .next { s with chip := emit (.kolef St.badRequest []) (lineRead s.chip) } :=
  (if_neg (by simp [h])).trans (if_pos (by rw [hk]; exact Bool.and_eq_true_iff.mpr ⟨hr, rfl⟩))

/-- A command in the ROM, or outside RECOVERY, is judged by its level. -/
theorem kolefRun_known (hr : s.chip.inRecovery = false ∨ k.inRom = true) :
    kolefRun k body s = if k.allowed s.chip.kolefLevel then .next (body { s with chip := lineRead s.chip })
      else .next { s with chip := emit (.kolef St.noAccess []) (lineRead s.chip) } := by
  have hk : ¬ ((lineRead s.chip).inRecovery && !k.inRom) = true := by
    rw [show (lineRead s.chip).inRecovery = s.chip.inRecovery from rfl]
    rcases hr with hr | hr <;> simp [hr]
  refine (if_neg (by simp [h])).trans ((if_neg hk).trans ?_)
  rw [show (modUart 0 _ s.chip).kolefLevel = s.chip.kolefLevel from rfl]
  cases k.allowed s.chip.kolefLevel <;> rfl

/-- A command that its level allows runs. -/
theorem kolefRun_allowed (hr : s.chip.inRecovery = false ∨ k.inRom = true) (ha : k.allowed s.chip.kolefLevel = true) :
    kolefRun k body s = .next (body { s with chip := lineRead s.chip }) := (kolefRun_known h hr).trans (if_pos ha)

/-- Its level forbids a command. -/
theorem kolefRun_forbidden (hr : s.chip.inRecovery = false ∨ k.inRom = true) (ha : k.allowed s.chip.kolefLevel = false) :
    kolefRun k body s = .next { s with chip := emit (.kolef St.noAccess []) (lineRead s.chip) } :=
  (kolefRun_known h hr).trans (if_neg (by simp [ha]))

/-- Its effect is what its row of R555 says of the chip whose line was taken. -/
theorem exec_kolefRun {i : Instr} (hi : exec i s = kolefRun k body s) (hr : s.chip.inRecovery = false ∨ k.inRom = true)
    (ha : k.allowed s.chip.kolefLevel = true) : exec i s = .next (body { s with chip := lineRead s.chip }) :=
  hi.trans (kolefRun_allowed h hr ha)

/-- Such a command that changes the chip alone. -/
theorem leaves_kolefChip {i : Instr} {f : Chip → Chip} {c : Chip} (hi : exec i s = kolefChip k f s)
    (hr : s.chip.inRecovery = false ∨ k.inRom = true) (ha : k.allowed s.chip.kolefLevel = true) (hc : f (lineRead s.chip) = c) :
    Leaves i s c := (exec_kolefRun h hi hr ha).trans (by rw [hc])

end

/-! ### The lines of LOG and HELP -/

/-- A line for each of a list is put out in the list's order. -/
theorem forEach_kolefLine {α : Type} (l : List α) (f : α → List Nat) (st : Nat) (c : Chip) :
    (forEach l (fun x c => kolefLine st (f x) c) c).out = c.out ++ l.map (fun x => .kolef st (f x)) := by
  induction l generalizing c with
  | nil => exact (List.append_nil _).symm
  | cons x l ih =>
    refine (ih (kolefLine st (f x) c)).trans ?_
    simp [kolefLine, emit]

/-- The numbers that HELP prints at a level, inside or outside RECOVERY. -/
def helpCodes (level : Nat) (recovery : Bool) : List Nat :=
  (kolefCmds.filter (fun k => k.allowed level && (!recovery || k.inRom))).map KolefCmd.code

/-- A command stands in R555's order at the place of its number. -/
theorem kolefCmds_code (k : KolefCmd) : kolefCmds[k.code]? = some k := by cases k <;> rfl

/-- HELP prints a command's number if the command would run. -/
theorem mem_helpCodes (level : Nat) (recovery : Bool) (k : KolefCmd) :
    k.code ∈ helpCodes level recovery ↔ k.allowed level = true ∧ (recovery = false ∨ k.inRom = true) := by
  have hcode {a b : KolefCmd} (h : a.code = b.code) : a = b :=
    Option.some.inj ((kolefCmds_code a).symm.trans ((congrArg (kolefCmds[·]?) h).trans (kolefCmds_code b)))
  have hall : k ∈ kolefCmds := List.mem_of_getElem? (kolefCmds_code k)
  simp only [helpCodes, List.mem_map, List.mem_filter, Bool.and_eq_true, Bool.or_eq_true, Bool.not_eq_true']
  exact ⟨fun ⟨a, ⟨_, h⟩, ha⟩ => hcode ha ▸ h, fun h => ⟨k, ⟨hall, h⟩, rfl⟩⟩

/-! ### The end of a transfer that stalls -/

/-- With no transfer there is nothing to end. -/
theorem leaves_imgTimeout_none {s : State} (h : s.chip.boot.img = none) : Leaves .kolefImgTimeout s s.chip :=
  leaves_onChip (execKolefImgTimeout.eq_def s) (by simp only [h])

/-- A transfer is judged by its last octet. -/
theorem leaves_imgTimeout_some {s : State} {x : KolefImg} {c : Chip} (h : s.chip.boot.img = some x)
    (hc : (if x.at_ + 2000000000 ≤ s.chip.now then
      kolefLine St.timeout [] (modBoot (fun b => { b with img := none }) s.chip) else s.chip) = c) : Leaves .kolefImgTimeout s c :=
  leaves_onChip (execKolefImgTimeout.eq_def s) (by simp only [h]; exact hc)

/-! ### The obligation -/

/-- Settles O37: IMG, RECOVERY and the level come first; a command that passes them does as its row of R555 says. -/
theorem kolefCommands : Obligations.KolefCommands := by
  intro s frac cold b n tenant count object data c u commands
  have hrun : ∀ x ∈ commands, ∃ body, exec x.2 s = kolefRun x.1 body s := by
    simp only [commands, List.forall_mem_cons]
    exact ⟨⟨_, execKolefId.eq_def s⟩, ⟨_, execKolefStc.eq_def frac s⟩, ⟨_, execKolefReset.eq_def cold s⟩, ⟨_, execKolefLc.eq_def s⟩,
      ⟨_, execKolefHelp.eq_def s⟩, ⟨_, execKolefImg.eq_def b n s⟩, ⟨_, execKolefLog.eq_def tenant count s⟩,
      ⟨_, execKolefRd.eq_def object s⟩, ⟨_, execKolefWr.eq_def object data s⟩, fun _ h => absurd h List.not_mem_nil⟩
  refine ⟨fun himg x hx => ?_, fun himg => ⟨fun x hx hr hk => ?_, fun x hx hr ha => ?_, ?_, fun hr hl => ?_, fun hl => ?_, fun hl => ?_, ?_, ?_⟩,
    fun x hx => ⟨fun hlt => ?_, fun hle => ?_⟩⟩
  · obtain ⟨body, h⟩ := hrun x hx
    exact h.trans (kolefRun_img himg)
  · obtain ⟨body, h⟩ := hrun x hx
    exact h.trans (kolefRun_unknown himg hr hk)
  · obtain ⟨body, h⟩ := hrun x hx
    exact h.trans (kolefRun_forbidden himg hr ha)
  · exact leaves_kolefChip himg (execKolefId.eq_def s) (.inr rfl) rfl rfl
  · have hallow : decide (c.kolefLevel ≤ 1) = true := decide_eq_true hl
    refine ⟨leaves_kolefChip himg (execKolefStc.eq_def frac s) (.inl hr) hallow rfl,
      exec_kolefRun himg (execKolefRd.eq_def object s) (.inl hr) hallow,
      fun hn => leaves_kolefChip himg (execKolefLog.eq_def tenant count s) (.inl hr) hallow (if_pos hn),
      fun h0 h64 => ⟨_, exec_kolefRun himg (execKolefLog.eq_def none count s) (.inl hr) hallow, ?_⟩⟩
    exact (congrArg Chip.out (if_neg (by omega))).trans (forEach_kolefLine _ (fun x : Snag => x.bytes.map BitVec.toNat) _ _)
  · have hallow : decide (c.kolefLevel ≤ 1) = true := decide_eq_true hl
    exact ⟨exec_kolefRun (i := .kolefReset true) himg (execKolefReset.eq_def true s) (.inr rfl) hallow,
      exec_kolefRun (i := .kolefReset false) himg (execKolefReset.eq_def false s) (.inr rfl) hallow⟩
  · have hallow : (c.kolefLevel == 0) = true := beq_iff_eq.mpr hl
    have himgRun {d : Chip} := leaves_kolefChip (c := d) (i := .kolefImg b n) himg (execKolefImg.eq_def b n s) (.inr rfl) hallow
    refine ⟨leaves_kolefChip himg (execKolefLc.eq_def s) (.inr rfl) hallow rfl, fun hn => himgRun (if_pos hn),
      fun h0 hmax hr hslot => himgRun ((if_neg (by simp [slotSize]; omega)).trans (if_pos ?_)),
      fun h0 hmax hother => ⟨_, himgRun ((if_neg (by simp [slotSize]; omega)).trans (if_neg ?_)), rfl, rfl⟩,
      fun hr => exec_kolefRun himg (execKolefWr.eq_def object data s) (.inl hr) hallow⟩
    · exact Bool.and_eq_true_iff.mpr ⟨congrArg (!·) hr, beq_iff_eq.mpr hslot⟩
    · rintro hrun
      obtain ⟨hrec, hslot⟩ := Bool.and_eq_true_iff.mp hrun
      exact hother.elim (fun h => absurd (hrec.symm.trans (congrArg (!·) h)) (by decide)) fun h => h (beq_iff_eq.mp hslot)
  · refine ⟨_, exec_kolefRun himg (execKolefHelp.eq_def s) (.inr rfl) rfl, helpCodes c.kolefLevel c.inRecovery, rfl,
      (mem_helpCodes _ _ .id).mpr ⟨rfl, .inr rfl⟩, (mem_helpCodes _ _ .help).mpr ⟨rfl, .inr rfl⟩, ?_, ?_⟩
    · refine (mem_helpCodes _ _ .img).trans ⟨fun h => beq_iff_eq.mp h.1, fun h => ⟨beq_iff_eq.mpr h, .inr rfl⟩⟩
    · exact (mem_helpCodes _ _ .wr).trans (and_congr beq_iff_eq (or_iff_left (by decide)))
  · exact leaves_imgTimeout_none himg
  · exact leaves_imgTimeout_some hx (if_neg (Nat.not_le.mpr hlt))
  · exact leaves_imgTimeout_some hx (if_pos hle)

end Sys2Proof.Machine
end

section
/-!
SUPPORT. O48: the word clock filter (R448, R449), the reference states (R450, R451), chain holdover (R454) and realignment (R460).
-/

namespace Sys2Proof.Machine

/-! ### Widths, and what a count or a state leaves -/

theorem width_plumbRefState : objWidth Obj.plumbRefState = 1 := by decide +kernel

theorem width_chainClockClass : objWidth Obj.chainClockClass = 1 := by decide +kernel

/-- A reference state that is entered is the one that stands. -/
theorem refState_setRef {st : Nat} (h : st < 256) (c : Chip) : (setRef st c).refState = st :=
  num_setNum_fits c width_plumbRefState h

/-- No other object changes the reference state. -/
theorem refState_setNum {o : Nat} (h : o ≠ Obj.plumbRefState) (v : Nat) (c : Chip) : (setNum o v c).refState = c.refState :=
  num_setNum_other c v h.symm

/-! ### A window closes -/

/-- The filter's record once a period was accepted. -/
def Ref.accepted (period : Nat) (r : Ref) : Ref :=
  { r with periods := (period :: r.periods).take 16, stoodIn := 0, good := r.good + 1, flyGood := r.flyGood + 1,
           sinceAnomaly := r.sinceAnomaly.map (· + 1) }

/-- The chip once the period is in the filter and Plumb.WclkMilliHz shows the mean. -/
def filtered (period : Nat) (c : Chip) : Chip :=
  setNum Obj.plumbWclkMilliHz (10 ^ 15 / max 1 (c.time.ref.accepted period).mean) (modRef (Ref.accepted period) c)

@[simp] theorem filtered_time (period : Nat) (c : Chip) :
    (filtered period c).time = { c.time with ref := c.time.ref.accepted period } := rfl

@[simp] theorem filtered_fs (period : Nat) (c : Chip) : (filtered period c).fs = c.fs := rfl

theorem refState_filtered (period : Nat) (c : Chip) : (filtered period c).refState = c.refState :=
  refState_setNum (by decide) _ _

section
variable {c : Chip} {a : Nat}

/-- The first edge after the filter started gives the first period. -/
theorem wclkWindow_first (hp : c.time.ref.mean = 0) (ha : a ≠ 0) : wclkWindow (some a) c = acceptedPeriod (filtered a c) :=
  (if_pos hp).trans (if_neg ha)

/-- That period is then the mean. -/
theorem filtered_first (hr : c.time.ref.periods = []) (ha : 0 < a) : filtered a c =
    setNum Obj.plumbWclkMilliHz (1000000000000000 / a) (modRef (fun r => { r.accepted a with periods := [a] }) c) := by
  have hacc : c.time.ref.accepted a = { c.time.ref.accepted a with periods := [a] } := by simp [Ref.accepted, hr]
  have hmean : (c.time.ref.accepted a).mean = a := by rw [hacc]; rfl
  rw [filtered, hmean, Nat.max_eq_right ha]
  unfold modRef
  exact congrArg (fun x => setNum _ _ (modTime (fun t => { t with ref := x }) c)) hacc

/-- An edge inside its window gives the period since the edge before, the missed ones stood in for (R448). -/
theorem wclkWindow_inside (hp : 0 < c.time.ref.mean)
    (hlo : 7 * c.time.ref.mean ≤ 8 * (a - c.time.ref.stoodIn * c.time.ref.mean))
    (hhi : 8 * (a - c.time.ref.stoodIn * c.time.ref.mean) ≤ 9 * c.time.ref.mean) :
    wclkWindow (some a) c = acceptedPeriod (filtered (a - c.time.ref.stoodIn * c.time.ref.mean) c) := by
  refine (if_neg hp.ne').trans (if_pos ?_)
  rw [Nat.add_mul, Nat.one_mul]
  omega

/-- An edge outside its window is an anomaly (R449). -/
theorem wclkWindow_outside (hp : 0 < c.time.ref.mean)
    (h : 8 * a + c.time.ref.mean < 8 * ((c.time.ref.stoodIn + 1) * c.time.ref.mean) ∨
      8 * ((c.time.ref.stoodIn + 1) * c.time.ref.mean) + c.time.ref.mean < 8 * a) :
    wclkWindow (some a) c = anomaly Obj.plumbCountersWclkShort c := by
  refine (if_neg hp.ne').trans (if_neg ?_)
  omega

/-- A window without an edge is one too, and the mean stands in for the period (R448). -/
theorem wclkWindow_missing (hp : 0 < c.time.ref.mean) : wclkWindow none c = anomaly Obj.plumbCountersWclkMissing
    (modRef (fun r => { r with stoodIn := r.stoodIn + 1, sinceAnomaly := r.sinceAnomaly.map (· + 1) }) c) := if_neg hp.ne'

/-- What an anomaly does to the filter's record. -/
def upset (c : Chip) : Chip := modRef (fun r => { r with sinceAnomaly := some 0, good := 0, flyGood := 0 }) c

/-- A single anomaly is counted. -/
theorem anomaly_single (counter : Nat) (h : c.time.ref.sinceAnomaly = none ∨ ∃ n, c.time.ref.sinceAnomaly = some n ∧ 16 < n) :
    anomaly counter c = bump counter (upset c) := by
  unfold anomaly
  obtain h | ⟨n, h, hn⟩ := h <;> simp_all [upset]

/-- A second one within 16 predicted edges is loss. -/
theorem anomaly_second (counter : Nat) {n : Nat} (h : c.time.ref.sinceAnomaly = some n) (hn : n ≤ 16) :
    anomaly counter c = declareLoss (upset c) := by
  unfold anomaly
  simp [h, upset, Nat.not_lt.mpr hn]

end

/-! ### An accepted period in each reference state -/

section
variable {c : Chip}

/-- In ACQUIRING, or in the background of HOLDOVER, the 256th clean period qualifies the word clock. -/
theorem acceptedPeriod_acquiring (h : c.refState = refAcquiring ∨ c.time.ref.acquiring = true) :
    acceptedPeriod c = if 256 ≤ c.time.ref.good then qualify c else c :=
  (if_pos h).trans (when_eq_ite decide_eq_true_iff _ _)

/-- In LOCKED the offset is shown while the mean stays within the pull range. -/
theorem acceptedPeriod_locked (h : c.refState = refLocked) (ha : c.time.ref.acquiring = false)
    (hp : inPullRange c.fs c.time.ref.mean = true) :
    acceptedPeriod c = setInt Obj.plumbOffsetPpm ((10 ^ 20 / (c.time.ref.mean * c.fs) : Nat) - 10 ^ 8 : Int) c := by
  unfold acceptedPeriod
  rw [if_neg (by simp [h, ha, refLocked, refAcquiring]), if_pos (.inr h), h]
  exact congrArg (when_ · declareLoss _) (congrArg (!·) hp)

/-- In FLYWHEEL the 16th clean period returns to the state before. -/
theorem acceptedPeriod_flywheel (h : c.refState = refFlywheel) (ha : c.time.ref.acquiring = false) (hg : 16 ≤ c.time.ref.flyGood)
    (hb : c.time.ref.before = refSlewing) : acceptedPeriod c = setRef refSlewing c := by
  unfold acceptedPeriod
  rw [if_neg (by simp [h, ha, refFlywheel, refAcquiring]), if_neg (by simp [h, refFlywheel, refSlewing, refLocked]), if_pos h, if_pos hg, hb]
  rfl

/-- A word clock within the pull range of the rate in force is followed. -/
theorem qualify_inRange (hp : inPullRange c.fs c.time.ref.mean = true) :
    qualify c = setRef refSlewing (modRef (fun r => { r with acquiring := false }) c) := if_pos hp

end

/-! ### The commands -/

section
variable {s : State} {c : Chip}

/-- The windows of a filter that runs. -/
theorem leaves_wclkWindow {after : Option (BitVec 64)} (hf : s.chip.filters = true)
    (h : wclkWindow (after.map BitVec.toNat) s.chip = c) : Leaves (.wclkWindow after) s c :=
  leaves_onChip (execWclkWindow.eq_def after s) ((when_eq_ite Iff.rfl _ _).trans ((if_pos hf).trans h))

/-- An accepted edge does what its reference state says. -/
theorem completes_wclkWindow_inside {a : BitVec 64} {d : Chip} {P : State → Prop} (hf : s.chip.filters = true)
    (hp : 0 < s.chip.time.ref.mean) (hlo : 7 * s.chip.time.ref.mean ≤ 8 * (a.toNat - s.chip.time.ref.stoodIn * s.chip.time.ref.mean))
    (hhi : 8 * (a.toNat - s.chip.time.ref.stoodIn * s.chip.time.ref.mean) ≤ 9 * s.chip.time.ref.mean)
    (hd : acceptedPeriod (filtered (a.toNat - s.chip.time.ref.stoodIn * s.chip.time.ref.mean) s.chip) = d)
    (h : P { s with chip := d }) : Completes (.wclkWindow (some a)) s P :=
  ⟨_, leaves_wclkWindow hf ((wclkWindow_inside hp hlo hhi).trans hd), h⟩

theorem leaves_plumbLock (hd : (if s.chip.refState = refSlewing then setClass 0 (setRef refLocked s.chip) else s.chip) = c) :
    Leaves .plumbLock s c := leaves_onChip (execPlumbLock.eq_def s) ((when_eq_ite beq_iff_eq _ _).trans hd)

theorem leaves_holdover (hd : (if s.chip.refState = refFlywheel ∧ s.chip.time.ref.lossTick + 64 ≤ s.chip.time.stc then
      snag 0x0402 0 0xFF (bump Obj.plumbCountersSwitchovers
        (setRef refHoldover (modRef (fun r => { r.restart true with heldAt := s.chip.now }) s.chip))) else s.chip) = c) :
    Leaves .holdover s c := leaves_onChip (execHoldover.eq_def s) ((when_eq_ite (by simp) _ _).trans hd)

theorem leaves_holdoverTimeout (hd : (if s.chip.refState = refHoldover ∧ s.chip.time.ref.heldAt + 10000000000 ≤ s.chip.now then
      freeRef s.chip.time.ref.acquiring s.chip else s.chip) = c) : Leaves .holdoverTimeout s c :=
  leaves_onChip (execHoldoverTimeout.eq_def s) ((when_eq_ite (by simp) _ _).trans hd)

theorem leaves_chainHoldover (hd : (if s.chip.refState = refChain ∧ s.chip.time.chainHoldover = false ∧
      s.chip.time.syncAt + 64000 ≤ s.chip.now then snag 0x0206 0 0xFF (modTime (fun t => { t with chainHoldover := true }) s.chip)
      else s.chip) = c) : Leaves .chainHoldover s c :=
  leaves_onChip (execChainHoldover.eq_def s) ((when_eq_ite (by simp [and_assoc]) _ _).trans hd)

theorem leaves_chainClockClassExpiry (hd : (if s.chip.refState = refChain ∧ s.chip.num Obj.chainClockClass = 1 ∧
      s.chip.time.ref.heldAt + 10000000000 ≤ s.chip.now then setClass 2 s.chip else s.chip) = c) : Leaves .chainClockClassExpiry s c :=
  leaves_onChip (execChainClockClassExpiry.eq_def s) ((when_eq_ite (by simp [and_assoc]) _ _).trans hd)

/-- A chip that is not quarantined for TIME, that holds no rebase point, or whose transition runs, does not realign. -/
theorem leaves_realignment_idle (h : s.chip.time.chainRebase = none ∨ bit (s.chip.num Obj.chainQuarantineCause) 2 = false ∨
    s.chip.time.transition.isSome = true) : Leaves .realignment s s.chip := by
  refine leaves_onChip (execRealignment.eq_def s) ?_
  cases hrb : s.chip.time.chainRebase with
  | none => rfl
  | some rb =>
    rw [hrb] at h
    refine (when_eq_ite Iff.rfl _ _).trans (if_neg ?_)
    obtain h | h | h := h
    · cases h
    · simp [h]
    · simp [Option.isNone_eq_false_iff.mpr h]

/-- Else its schedule begins at the next multiple of 64 (R460). -/
theorem leaves_realignment_begins {rb : Nat × Nat × Nat} (h : s.chip.time.chainRebase = some rb)
    (hq : bit (s.chip.num Obj.chainQuarantineCause) 2 = true) (ht : s.chip.time.transition = none) :
    Leaves .realignment s (modTime (fun t =>
      { t with chainRebase := none, transition := some (s.chip.schedule s.chip.next64 s.chip.time.rate (some rb)) }) s.chip) := by
  refine leaves_onChip (execRealignment.eq_def s) ?_
  simp only [h, hq, ht, Option.isNone_none, Bool.and_self, when_, if_true, trigger, modTime]

/-- What FREE leaves. -/
theorem freeRef_reads (acquiring : Bool) (c : Chip) : (freeRef acquiring c).refState = refFree ∧
    (freeRef acquiring c).num Obj.chainClockClass = 2 ∧ (freeRef acquiring c).num Obj.plumbOffsetPpm = 0 := by
  unfold freeRef setClass
  refine ⟨(refState_setNum (by decide) _ _).trans (refState_setRef (by decide) _), num_setNum_fits _ width_chainClockClass (by decide), ?_⟩
  rw [num_setNum_other _ _ (by decide), setRef, num_setNum_other _ _ (by decide), num_setNum_same]
  exact Nat.zero_mod _

end

/-- The rule of Plumb.ClockSource answers OK. -/
theorem clockSource_writes {r : Req} {a : Nat} {source : Fin 2} {s : State} {c d : Chip}
    (h : Writes r a Obj.plumbClockSource [BitVec.ofNat 8 source.val] s) (hc : setNum Obj.plumbClockSource source.val (judged r.path s).chip = c)
    (hd : (if (judged r.path s).chip.refState = refChain then c
      else if source.val = 0 then freeRef false c
      else if (judged r.path s).chip.refState = refFree then acquire c
      else c) = d) : Answers (.clockSource r source) r a Obj.plumbClockSource [BitVec.ofNat 8 source.val] s d St.ok := by
  subst hc
  rw [← hd, ← refState_setNum (show Obj.plumbClockSource ≠ Obj.plumbRefState by decide) source.val (judged r.path s).chip]
  exact serveRow_chip h rfl

/-! ### The obligation -/

/-- Settles O48: a window by where its edge lies and the state it finds, then each command by the guard it stands under. -/
theorem clockReferences : Obligations.ClockReferences := by
  refine ⟨fun s => ?_, fun r a source s h => ?_⟩
  · intro c r p upsetOf
    refine ⟨fun after hf => ?_, fun a hf hr ha hst hg => ?_, fun a hf hp hlo hhi => ⟨fun hst ha hin => ?_, fun hst hg => ?_, fun hst hg hin => ?_,
      fun hst ha hg hb => ?_⟩, fun a hf hp hout => ⟨fun hn => ?_, fun n hn h16 => ?_, fun n hn h16 => ?_⟩, fun hf hp => ⟨fun hn => ?_,
      fun n hn h16 => ?_, fun n hn h16 => ?_⟩, fun h => leaves_plumbLock (if_neg h), fun h => leaves_plumbLock (if_pos h),
      fun h => leaves_holdover (if_neg ?_), fun h hd => leaves_holdover (if_pos ⟨h, hd⟩), fun h => leaves_holdoverTimeout (if_neg ?_),
      fun h hd => ⟨_, leaves_holdoverTimeout (if_pos ⟨h, hd⟩), ?_⟩, fun h => leaves_chainHoldover (if_neg ?_),
      fun h hh hd => leaves_chainHoldover (if_pos ⟨h, hh, hd⟩), fun h => leaves_chainClockClassExpiry (if_neg ?_),
      fun h h1 hd => leaves_chainClockClassExpiry (if_pos ⟨h, h1, hd⟩), leaves_realignment_idle, fun rb => leaves_realignment_begins⟩
    · exact leaves_onChip (execWclkWindow.eq_def after s) ((when_eq_ite Iff.rfl _ _).trans (if_neg (Bool.eq_false_iff.mp hf)))
    · refine leaves_wclkWindow hf ((wclkWindow_first (by rw [Ref.mean, hr]; rfl) (fun h => ha (BitVec.eq_of_toNat_eq h))).trans
        ((acceptedPeriod_acquiring (.inl ((refState_filtered _ c).trans hst))).trans ((if_neg ?_).trans ?_)))
      · exact fun g => absurd hg (Nat.not_lt.mpr (Nat.le_of_succ_le_succ g))
      · exact filtered_first hr (Nat.pos_of_ne_zero fun h => ha (BitVec.eq_of_toNat_eq h))
    · have hst' := (refState_filtered (a.toNat - r.stoodIn * p) c).trans hst
      refine completes_wclkWindow_inside hf hp hlo hhi (acceptedPeriod_locked hst' ha hin) ⟨rfl, ?_, rfl, rfl⟩
      exact (refState_setNum (by decide) _ _).trans hst'
    · have hst' := (refState_filtered (a.toNat - r.stoodIn * p) c).trans hst
      exact completes_wclkWindow_inside hf hp hlo hhi ((acceptedPeriod_acquiring (.inl hst')).trans (if_neg fun g =>
        absurd hg (Nat.not_lt.mpr (Nat.le_of_succ_le_succ g)))) ⟨rfl, hst', rfl, rfl⟩
    · have hst' := (refState_filtered (a.toNat - r.stoodIn * p) c).trans hst
      exact completes_wclkWindow_inside hf hp hlo hhi ((acceptedPeriod_acquiring (.inl hst')).trans ((if_pos (Nat.succ_le_succ hg)).trans
        (qualify_inRange hin))) ⟨rfl, refState_setRef (by decide) _⟩
    · have hst' := (refState_filtered (a.toNat - r.stoodIn * p) c).trans hst
      exact completes_wclkWindow_inside hf hp hlo hhi (acceptedPeriod_flywheel hst' ha (Nat.succ_le_succ hg) hb)
        ⟨rfl, refState_setRef (by decide) _⟩
    · exact leaves_wclkWindow hf ((wclkWindow_outside hp hout).trans (anomaly_single _ (.inl hn)))
    · exact leaves_wclkWindow hf ((wclkWindow_outside hp hout).trans (anomaly_single _ (.inr ⟨n, hn, h16⟩)))
    · exact leaves_wclkWindow hf ((wclkWindow_outside hp hout).trans (anomaly_second _ hn h16))
    · exact leaves_wclkWindow hf ((wclkWindow_missing hp).trans (anomaly_single _ (.inl (congrArg (Option.map (· + 1)) hn))))
    · exact leaves_wclkWindow hf ((wclkWindow_missing hp).trans
        (anomaly_single _ (.inr ⟨n + 1, congrArg (Option.map (· + 1)) hn, Nat.lt_succ_of_le h16⟩)))
    · exact leaves_wclkWindow hf ((wclkWindow_missing hp).trans (anomaly_second _ (congrArg (Option.map (· + 1)) hn) h16))
    · exact fun g => h.elim (· g.1) (Nat.not_lt.mpr g.2)
    · exact fun g => h.elim (· g.1) (Nat.not_lt.mpr g.2)
    · obtain ⟨hst, hclass, hppm⟩ := freeRef_reads c.time.ref.acquiring c
      refine ⟨hst, hclass, ?_, rfl⟩
      rw [Chip.snum, hppm]
      rfl
    · exact fun g => h.elim (· g.1) fun h => h.elim (fun h => absurd (h.symm.trans g.2.1) (by decide)) (Nat.not_lt.mpr g.2.2)
    · exact fun g => h.elim (· g.1) fun h => h.elim (· g.2.1) (Nat.not_lt.mpr g.2.2)
  · intro c set o b
    have hzero : source = 1 → source.val ≠ 0 := by rintro rfl; decide
    exact ⟨fun hc => clockSource_writes h rfl (if_pos hc),
      fun hc hs => ⟨_, clockSource_writes h rfl ((if_neg hc).trans (if_pos (congrArg Fin.val hs))), _, rfl, (freeRef_reads _ _).1,
        (freeRef_reads _ _).2.1⟩,
      fun hf hs => clockSource_writes h rfl ((if_neg (by rw [hf]; decide)).trans ((if_neg (hzero hs)).trans (if_pos hf))),
      fun hf hc hs => clockSource_writes h rfl ((if_neg hc).trans ((if_neg (hzero hs)).trans (if_neg hf)))⟩

end Sys2Proof.Machine
end

section
/-!
SUPPORT. What the last obligations share: a rule that only checks and then changes the chip, as a command that reaches it.
-/

namespace Sys2Proof.Machine

/-- A guard on what does not hold passes it by. -/
theorem not_negb_of_true {b : Bool} (h : b = true) : ¬ (!b) = true := by simp [h]

section
variable {r : Req} {a o : Nat} {data : List Byte} {s : State} {st : Nat → Chip → Nat} {f : Nat → Chip → Chip} (hw : Writes r a o data s)
include hw

/-- A checked rule that passes changes the chip and answers OK. -/
theorem serveRow_actWhen_ok {d : Chip} (h : st a (judged r.path s).chip = St.ok) (hd : f a (judged r.path s).chip = d) :
    serveRow r o data (actWhen st f) s = .next (answered r a o data ({ s with chip := d }, St.ok)) :=
  serveRow_chip hw ((if_pos h).trans (by rw [hd]))

/-- One that does not pass changes nothing and answers with its STATUS. -/
theorem serveRow_actWhen_refused {x : Nat} (h : st a (judged r.path s).chip = x) (hx : x ≠ St.ok) :
    serveRow r o data (actWhen st f) s = .next (answered r a o data ({ s with chip := (judged r.path s).chip }, x)) :=
  serveRow_chip hw ((if_neg fun g => hx (h.symm.trans g)).trans (by rw [h]))

end

/-- A request that reaches a service which answers at once is answered with what the service says. -/
theorem serve_answers {p : Path} {m : Msg} {s : State} {run : Option Nat → State → State × Reply} {x : State × Reply} (h : Reaches p m s)
    (hx : run (actingMaster s.chip p) (judged p s) = x) (hl : x.2.later = false) :
    serve p m run s = { x.1 with chip := respond p m (actingMaster s.chip p) x.2 x.1.chip } := by
  rw [serve_reaches run h, hx]
  exact if_neg (by simp [hl])

/-! ### The ports under a log entry and a response -/

section
variable (c : Chip)

@[simp] theorem raise_ports (t v : Nat) : (raise t v c).ports = c.ports := by
  unfold raise when_ msix
  dsimp only
  split_ifs <;> rfl

@[simp] theorem snagWith_ports (code unit tenant snap data : Nat) : (snagWith code unit tenant snap data c).ports = c.ports := by
  unfold snagWith
  dsimp only
  split_ifs
  · exact raise_ports _ _ _
  · exact raise_ports _ _ _
  · rfl

theorem canNerlil_ports (ctl node : Nat) (fd : Bool) (msg : List Byte) : (canNerlil ctl node fd msg c).ports = c.ports := by
  unfold canNerlil when_
  dsimp only
  split_ifs <;> rfl

theorem deliver_ports (p : Path) (msg : List Byte) : (deliver p msg c).ports = c.ports := by
  cases p with
  | mailbox t m => exact raise_ports _ _ _
  | can ctl node fd => exact canNerlil_ports _ _ _ _ _
  | chain chip origin anon | kolef | bar t => rfl

theorem respond_ports (p : Path) (m : Msg) (master : Option Nat) (r : Reply) : (respond p m master r c).ports = c.ports := by
  unfold respond when_
  dsimp only
  split_ifs <;> exact deliver_ports _ _ _

end

/-! ### A UART's record under what changes other state -/

section
variable (c : Chip) (u : Nat)

@[simp] theorem uart_setNum (o v : Nat) : (setNum o v c).uart u = c.uart u := rfl
@[simp] theorem uart_setBlob (o : Nat) (bs : List Byte) : (setBlob o bs c).uart u = c.uart u := rfl
@[simp] theorem uart_bump (o : Nat) : (bump o c).uart u = c.uart u := rfl
theorem uart_congr {d : Chip} (h : d.ports = c.ports) : d.uart u = c.uart u := congrArg (fun p : Ports => tget ({} : Uart) p.uarts u) h
@[simp] theorem uart_snagWith (code unit tenant snap data : Nat) : (snagWith code unit tenant snap data c).uart u = c.uart u :=
  uart_congr c u (snagWith_ports c code unit tenant snap data)
@[simp] theorem uart_emit (o : Out) : (emit o c).uart u = c.uart u := rfl

end

end Sys2Proof.Machine
end

section
/-!
SUPPORT. O51: DMX packets (R521, R522), and RDM as controller (R523) and as responder (R524).
-/

namespace Sys2Proof.Machine

theorem width_uartRdmStatus : ∀ u : Fin 4, objWidth (Obj.uartRdmStatus u.val) = 1 := by decide +kernel

/-! ### DMX512-A -/

section
variable {u : Fin 4} {s : State}

/-- Is the period since the last packet over (R521)? -/
def dmxDue (u : Nat) (c : Chip) : Prop := ∀ t, (c.uart u).dmxAt = some t → t + c.num (Obj.uartDmxPeriodUs u) * 1000 ≤ c.now

/-- The packet that a DMX port sends next. -/
def dmxPacket (u : Nat) (c : Chip) : Chip :=
  emit (.packet u (c.num (Obj.uartDmxBreakUs u)) (c.num (Obj.uartDmxMabUs u)) (BitVec.ofNat 8 (c.num (Obj.uartDmxStartCode u)) ::
    (upTo (c.num (Obj.uartDmxSlots u))).map (fun i => c.dmxSlot u (i + 1)))) (modUart u (fun x => { x with dmxAt := some c.now }) c)

/-- A port in mode DMX_TX whose period is over sends it, unless an RDM transaction runs. -/
theorem leaves_dmxPacket (hm : s.chip.uartMode u.val = 5) (hr : s.chip.num (Obj.uartRdmStatus u.val) ≠ 1) (hd : dmxDue u.val s.chip) :
    Leaves (.dmxPacket u) s (dmxPacket u.val s.chip) := by
  refine leaves_onChip (execDmxPacket.eq_def u s) (if_pos ⟨hm, ?_, hr⟩)
  cases hat : (s.chip.uart u.val).dmxAt with
  | none => rfl
  | some t => exact decide_eq_true (hd t hat)

/-- Another port, or one that waits, sends none. -/
theorem leaves_dmxPacket_idle
    (h : s.chip.uartMode u.val ≠ 5 ∨ s.chip.num (Obj.uartRdmStatus u.val) = 1 ∨ ¬ dmxDue u.val s.chip) : Leaves (.dmxPacket u) s s.chip := by
  refine leaves_onChip (execDmxPacket.eq_def u s) (if_neg ?_)
  rintro ⟨hm, hd, hr⟩
  refine h.elim (· hm) fun h => h.elim hr fun h => h fun t hat => ?_
  rw [hat] at hd
  exact of_decide_eq_true hd

/-- A packet that was received whole is shown and counted (R522). -/
theorem endPacket_whole {u : Nat} {c : Chip} (ho : (c.uart u).dmxOpen = true) (hne : (c.uart u).dmxBuf ≠ [])
    (hb : (c.uart u).dmxBad = false) (hh : (c.uart u).dmxBuf.head? ≠ some 0xCC) :
    endPacket u c = bump (Obj.uartDmxPackets u) (setBlob (Obj.uartDmxRxData u) (c.uart u).dmxBuf c) :=
  if_pos (by simpa [ho, hb, hne] using hh)

/-- No other is. -/
theorem endPacket_none {u : Nat} {c : Chip} (h : (c.uart u).dmxOpen = false ∨ (c.uart u).dmxBuf = [] ∨ (c.uart u).dmxBad = true ∨
    (c.uart u).dmxBuf.head? = some 0xCC) : endPacket u c = c := by
  refine if_neg ?_
  obtain h | h | h | h := h <;> simp [h]

/-- A break and an idle line end a packet in mode DMX_RX, and a break begins the next. -/
theorem leaves_dmxEnds {c : Chip} (hm : s.chip.uartMode u.val = 6) (hc : endPacket u.val s.chip = c) :
    Leaves (.dmxBreak u) s (modUart u.val (fun x => { x with dmxOpen := true, dmxBuf := [], dmxBad := false }) c) ∧
    Leaves (.dmxIdle u) s (modUart u.val (fun x => { x with dmxOpen := false, dmxBuf := [], dmxBad := false }) c) := by
  subst hc
  exact ⟨leaves_onChip (execDmxBreak.eq_def u s) (if_pos hm), leaves_onChip (execDmxIdle.eq_def u s) (if_pos hm)⟩

end

/-! ### The RDM responder's answer -/

section
variable {u : Fin 4} {s : State} {c : Chip}

/-- With no request there is nothing to answer. -/
theorem leaves_rdmResponse_none (h : (s.chip.uart u.val).request = none) : Leaves (.rdmResponse u) s s.chip :=
  leaves_onChip (execRdmResponse.eq_def u s) (by simp only [h])

/-- Outside mode DMX_RX, or before 200 us have passed, nothing is sent. -/
theorem leaves_rdmResponse_early (h : s.chip.uartMode u.val ≠ 6 ∨ ∀ t, (s.chip.uart u.val).request = some t → s.chip.now < t + 200000) :
    Leaves (.rdmResponse u) s s.chip := by
  cases hreq : (s.chip.uart u.val).request with
  | none => exact leaves_rdmResponse_none hreq
  | some t =>
    refine leaves_onChip (execRdmResponse.eq_def u s) ?_
    simp only [hreq]
    exact if_pos (h.imp_right fun h => h t hreq)

/-- Then the port's own answer goes out, else one that waits in the outbox. -/
theorem leaves_rdmResponse_due {t : Nat} (hm : s.chip.uartMode u.val = 6) (hreq : (s.chip.uart u.val).request = some t)
    (ht : t + 200000 ≤ s.chip.now)
    (hown : ∀ brk bs, (s.chip.uart u.val).answer = some (brk, bs) → emit (.packet u.val (if brk then 176 else 0) (if brk then 12 else 0) bs)
      (modUart u.val (fun y => { y with answer := none, request := none }) s.chip) = c)
    (hbox : ∀ bs, (s.chip.uart u.val).answer = none → (s.chip.uart u.val).response = some bs →
      emit (.packet u.val 176 12 bs) (modUart u.val (fun y => { y with response := none, request := none }) s.chip) = c)
    (hnone : (s.chip.uart u.val).answer = none → (s.chip.uart u.val).response = none → s.chip = c) : Leaves (.rdmResponse u) s c := by
  refine leaves_onChip (execRdmResponse.eq_def u s) ?_
  simp only [hreq]
  rw [if_neg (by omega)]
  cases ha : (s.chip.uart u.val).answer with
  | some x => exact hown x.1 x.2 ha
  | none => cases hb : (s.chip.uart u.val).response with
    | some bs => exact hbox bs ha hb
    | none => exact hnone ha hb

end

/-! ### The RDM controller's reply -/

/-- What the end of a reply leaves: its octets, no capture, and REPLY or COLLISION (R523). -/
theorem endReply_reads (u : Fin 4) (brk : Bool) (bs : List Byte) (bad : Bool) (c : Chip) :
    (endReply u.val brk bs bad c).blob (Obj.uartRdmReply u.val) = bs ∧ ((endReply u.val brk bs bad c).uart u.val).capture = none ∧
    (endReply u.val brk bs bad c).num (Obj.uartRdmStatus u.val) =
      if bad = false ∧ (if brk then rdmValid bs else rdmDiscoveryValid bs) = true then 2 else 4 := by
  have hlt (b : Bool) : (if b = true then 2 else 4) < 2 ^ (8 * 1) := by cases b <;> decide
  refine ⟨blob_setBlob_same _ _ _, ?_, ?_⟩
  · exact congrArg Uart.capture (uart_modUart_same c u.val _)
  · rw [endReply, setBlob_num, num_setNum_fits _ (width_uartRdmStatus u) (hlt _)]
    exact if_congr (by simp) rfl rfl

section
variable {u : Fin 4} {s : State}

/-- A reply that has not begun in 2,800 us is NO_REPLY. -/
theorem leaves_rdmTimeout {c : Chip} (h : (if s.chip.num (Obj.uartRdmStatus u.val) = 1 ∧ (s.chip.uart u.val).capture.isNone ∧
    (s.chip.uart u.val).rdmEnd + 2800000 ≤ s.chip.now then setNum (Obj.uartRdmStatus u.val) 3 s.chip else s.chip) = c) :
    Leaves (.rdmTimeout u) s c := leaves_onChip (execRdmTimeout.eq_def u s) h

/-- An idle line ends a reply that is being captured. -/
theorem leaves_rdmReplyIdle {brk bad : Bool} {bs : List Byte} (hr : s.chip.num (Obj.uartRdmStatus u.val) = 1)
    (hc : (s.chip.uart u.val).capture = some (brk, bs, bad)) : Leaves (.rdmReplyIdle u) s (endReply u.val brk bs bad s.chip) :=
  leaves_onChip (execRdmReplyIdle.eq_def u s) ((if_pos hr).trans (by rw [hc]))

/-- With nothing captured it ends nothing. -/
theorem leaves_rdmReplyIdle_none (h : s.chip.num (Obj.uartRdmStatus u.val) ≠ 1 ∨ (s.chip.uart u.val).capture = none) :
    Leaves (.rdmReplyIdle u) s s.chip := by
  refine leaves_onChip (execRdmReplyIdle.eq_def u s) ?_
  obtain h | h := h
  · exact if_neg h
  · simp only [h, ite_self]

end

/-! ### Requests sent and responses handed over -/

/-- What Uart.Rdm.Request answers (R523). -/
theorem rdmRequest_answers {r : Req} {a x : Nat} {u : Fin 4} {bs : List Byte} {s : State} (hw : Writes r a (Obj.uartRdmRequest u.val) bs s)
    (hx : (if !uartMay u.val a then St.noAccess else if (judged r.path s).chip.uartMode u.val ≠ 5 then St.refused
      else if (judged r.path s).chip.num (Obj.uartRdmStatus u.val) = 1 then St.busy else St.ok) = x) (hne : x ≠ St.ok) :
    Answers (.rdmRequest r u bs) r a (Obj.uartRdmRequest u.val) bs s (judged r.path s).chip x :=
  serveRow_actWhen_refused hw hx hne

/-- A request that passes leaves at once (R523). -/
theorem rdmRequest_sent {r : Req} {a : Nat} {u : Fin 4} {bs : List Byte} {s : State} (hw : Writes r a (Obj.uartRdmRequest u.val) bs s)
    (hm : uartMay u.val a = true) (h5 : (judged r.path s).chip.uartMode u.val = 5)
    (hst : (judged r.path s).chip.num (Obj.uartRdmStatus u.val) ≠ 1) :
    let c := (judged r.path s).chip
    Completes (.rdmRequest r u bs) s (fun t => ∃ d,
        t = answered r a (Obj.uartRdmRequest u.val) bs ({ s with chip := d }, St.ok) ∧ d.num (Obj.uartRdmStatus u.val) = 1 ∧
        d.blob (Obj.uartRdmReply u.val) = [] ∧ (d.uart u.val).capture = none ∧
        d.out = c.out ++ [.packet u.val (c.num (Obj.uartDmxBreakUs u.val)) (c.num (Obj.uartDmxMabUs u.val)) bs]) := by
  intro c
  have hpass : (if !uartMay u.val a then St.noAccess else if c.uartMode u.val ≠ 5 then St.refused
      else if c.num (Obj.uartRdmStatus u.val) = 1 then St.busy else St.ok) = St.ok := by simp [hm, c, h5, hst]
  have hother (o : Nat) (h : o ≠ Obj.uartRdmStatus u.val) (v : Nat) : (setNum (Obj.uartRdmStatus u.val) v c).num o = c.num o :=
    num_setNum_other c v h
  refine ⟨_, serveRow_actWhen_ok hw hpass rfl, _, rfl, num_setNum_fits _ (width_uartRdmStatus u) (by decide), blob_setBlob_same _ _ _,
    congrArg Uart.capture (uart_modUart_same _ u.val _), congrArg (c.out ++ [·]) ?_⟩
  exact congrArg₂ (Out.packet u.val · · bs) (hother _ (by simp [Obj.uartDmxBreakUs, Obj.uartRdmStatus]) _)
    (hother _ (by simp [Obj.uartDmxMabUs, Obj.uartRdmStatus]) _)

section
variable {r : Req} {a : Nat} {u : Fin 4} {bs : List Byte} {s : State} (hw : Writes r a (Obj.uartRdmOutbox u.val) bs s)
include hw

/-- Not everyone writes UART0's Uart.Rdm.Outbox (R512). -/
theorem rdmOutbox_noAccess (hm : uartMay u.val a = false) :
    Answers (.rdmOutbox r u bs) r a (Obj.uartRdmOutbox u.val) bs s (judged r.path s).chip St.noAccess :=
  serveRow_writes hw ((if_pos (by rw [hm]; rfl)).trans (congrArg (·, St.noAccess) (judged_state r.path s _)))

variable (hm : uartMay u.val a = true)
include hm

/-- A response is refused where no request waits for it (R524). -/
theorem rdmOutbox_refused (h : (judged r.path s).chip.uartMode u.val ≠ 6 ∨ (judged r.path s).chip.flag (Obj.uartRdmResponder u.val) = false ∨
      ((judged r.path s).chip.uart u.val).answer.isSome = true ∨ ((judged r.path s).chip.uart u.val).request = none) :
    Answers (.rdmOutbox r u bs) r a (Obj.uartRdmOutbox u.val) bs s (judged r.path s).chip St.refused := by
  refine serveRow_writes hw (Eq.trans (b := (judged r.path s, St.refused)) ((if_neg (by simp [hm])).trans ?_)
    (congrArg (·, St.refused) (judged_state r.path s _)))
  by_cases hg : (judged r.path s).chip.uartMode u.val ≠ 6 ∨ !(judged r.path s).chip.flag (Obj.uartRdmResponder u.val) ∨
      ((judged r.path s).chip.uart u.val).answer.isSome
  · exact if_pos hg
  · have hreq : ((judged r.path s).chip.uart u.val).request = none := by
      simp only [not_or] at hg
      simp_all
    refine (if_neg hg).trans ?_
    simp only [hreq]

/-- Else the time since the request decides: in time it waits or goes out, later it is reported. -/
theorem rdmOutbox_answers {t : Nat} {c : Chip} (h6 : (judged r.path s).chip.uartMode u.val = 6)
    (hr : (judged r.path s).chip.flag (Obj.uartRdmResponder u.val) = true)
    (ha : ((judged r.path s).chip.uart u.val).answer = none) (hreq : ((judged r.path s).chip.uart u.val).request = some t)
    (hc : (if 1800000 < (judged r.path s).chip.now - t then
        snagWith 0x0613 u.val 0xFF 0xFFFF (((judged r.path s).chip.now - t) / 1000) (judged r.path s).chip
      else if 200000 ≤ (judged r.path s).chip.now - t then emit (.packet u.val 176 12 bs)
        (modUart u.val (fun y => { y with response := none, request := none }) (judged r.path s).chip)
      else modUart u.val (fun y => { y with response := some bs }) (judged r.path s).chip) = c) :
    Answers (.rdmOutbox r u bs) r a (Obj.uartRdmOutbox u.val) bs s c St.ok := by
  refine serveRow_writes hw ((if_neg (by simp [hm])).trans ((if_neg (by simp [h6, hr, ha])).trans ?_))
  subst hc
  simp only [hreq]
  split
  · rw [judged_state]
  · split <;> rw [judged_state]

end

/-! ### The obligation -/

/-- Settles O51: DMX and the RDM controller by the mode and status they stand in, the responder by what waits for an answer. -/
theorem dmxAndRdm : Obligations.DmxAndRdm := by
  refine ⟨fun u s => ?_, fun r a u bs s => ?_⟩
  · intro c k x rdm packet sent
    refine ⟨fun h => leaves_dmxPacket_idle (h.imp_right .inl), fun t ht hlt => leaves_dmxPacket_idle (.inr (.inr fun h => ?_)),
      fun hm hr hn => leaves_dmxPacket hm hr fun t ht => ?_, fun t hm hr ht hle => leaves_dmxPacket hm hr fun t' ht' => ?_,
      fun hm => ⟨leaves_onChip (execDmxBreak.eq_def u s) (if_neg hm), leaves_onChip (execDmxIdle.eq_def u s) (if_neg hm),
        leaves_rdmResponse_early (.inl hm)⟩,
      ?_,
      leaves_rdmResponse_none,
      fun t hreq hm => ⟨fun hlt => leaves_rdmResponse_early (.inr fun t' ht' => ?_), fun brk bs hle hans => ?_, fun bs hle hans hbox => ?_,
        fun hle hans hbox => ?_⟩,
      fun h => leaves_rdmTimeout (if_neg ?_), fun hr hc hle => leaves_rdmTimeout (if_pos ⟨hr, by rw [hc]; rfl, hle⟩),
      leaves_rdmReplyIdle_none, fun brk bs bad hr hc => ⟨_, leaves_rdmReplyIdle hr hc, endReply_reads u brk bs bad c⟩⟩
    · exact absurd (h t ht) (Nat.not_le.mpr hlt)
    · cases hn.symm.trans ht
    · cases ht.symm.trans ht'
      exact hle
    · exact fun hm => ⟨fun h => leaves_dmxEnds hm (endPacket_none h),
        fun ho hne hb hh => leaves_dmxEnds hm (endPacket_whole ho hne hb hh)⟩
    · cases hreq.symm.trans ht'
      exact hlt
    · refine leaves_rdmResponse_due hm hreq hle (fun brk' bs' h => ?_) (fun bs' h _ => ?_) (fun h _ => ?_)
      · cases hans.symm.trans h
        rfl
      · cases hans.symm.trans h
      · cases hans.symm.trans h
    · refine leaves_rdmResponse_due hm hreq hle (fun brk' bs' h => ?_) (fun bs' _ h => ?_) (fun _ h => ?_)
      · cases hans.symm.trans h
      · cases hbox.symm.trans h
        rfl
      · cases hbox.symm.trans h
    · refine leaves_rdmResponse_due hm hreq hle (fun brk' bs' h => ?_) (fun bs' _ h => ?_) (fun _ _ => rfl)
      · cases hans.symm.trans h
      · cases hbox.symm.trans h
    · rintro ⟨hr, hc, hle⟩
      exact h.elim (· hr) fun h => h.elim
        (fun h => absurd (h.symm.trans (congrArg Option.isSome (Option.isNone_iff_eq_none.mp hc))) (by decide)) fun h => absurd hle (Nat.not_le.mpr h)
  · intro c k x
    refine ⟨fun hw => ?_, fun hw => ⟨rdmOutbox_noAccess hw, fun hm h => rdmOutbox_refused hw hm h, fun t hm h6 hr ha hreq => ?_⟩⟩
    · intro o
      refine ⟨fun hm => rdmRequest_answers hw (if_pos (by rw [hm]; rfl)) (by decide),
        fun hm h5 => rdmRequest_answers hw ((if_neg (by rw [hm]; decide)).trans (if_pos h5)) (by decide),
        fun hm h5 h1 => rdmRequest_answers hw ((if_neg (by rw [hm]; decide)).trans ((if_neg (not_not.mpr h5)).trans (if_pos h1))) (by decide),
        fun hm h5 h1 => rdmRequest_sent hw hm h5 h1⟩
    · have hout {d : Chip} := rdmOutbox_answers (c := d) hw hm h6 hr ha hreq
      exact ⟨fun h => hout ((if_neg fun g => absurd h (Nat.not_lt.mpr (le_trans (by decide) g.le))).trans (if_neg (Nat.not_le.mpr h))),
        fun h h' => hout ((if_neg (Nat.not_lt.mpr h')).trans (if_pos h)), fun h => hout (if_pos h)⟩

end Sys2Proof.Machine
end

section
/-!
SUPPORT. O50: characters of the UARTs (R509 to R517, R525), MIDI bindings (R519), and the objects of a UART (R510, R512, R534).
-/

namespace Sys2Proof.Machine

/-! ### Mode, Divider and Format in force -/

section
variable {u : Nat} {c d : Chip}

/-- They are read from the port's record and three objects. -/
theorem uartCfg_congr (hx : (d.uart u).cfg = (c.uart u).cfg) (hm : d.num (Obj.uartMode u) = c.num (Obj.uartMode u))
    (hd : d.num (Obj.uartDivider u) = c.num (Obj.uartDivider u)) (hf : d.num (Obj.uartFormat u) = c.num (Obj.uartFormat u)) :
    d.uartCfg u = c.uartCfg u := by rw [Chip.uartCfg, Chip.uartCfg, hx, hm, hd, hf]

/-- A change of the port's record that leaves a waiting write leaves them. -/
theorem uartCfg_modUart {f : Uart → Uart} (h : (f (c.uart u)).cfg = (c.uart u).cfg) : (modUart u f c).uartCfg u = c.uartCfg u :=
  uartCfg_congr ((congrArg Uart.cfg (uart_modUart_same c u f)).trans h) rfl rfl rfl

/-- A write of another object leaves them. -/
theorem uartCfg_setNum {o : Nat} (v : Nat) (hm : o ≠ Obj.uartMode u) (hd : o ≠ Obj.uartDivider u) (hf : o ≠ Obj.uartFormat u) :
    (setNum o v c).uartCfg u = c.uartCfg u :=
  uartCfg_congr rfl (num_setNum_other c v hm.symm) (num_setNum_other c v hd.symm) (num_setNum_other c v hf.symm)

/-- Software flow control stands as long as they and its object do (R514). -/
theorem flowOn_congr (h : d.uartCfg u = c.uartCfg u) (hx : d.num (Obj.uartXonXoff u) = c.num (Obj.uartXonXoff u)) :
    d.flowOn u = c.flowOn u := by rw [Chip.flowOn, Chip.flowOn, Chip.uartMode, Chip.uartMode, h, Chip.flag, Chip.flag, hx]

/-- Software flow control is of mode UART alone. -/
theorem flowOn_false (h : c.uartMode u ≠ 1) : c.flowOn u = false := by simp [Chip.flowOn, h]

end

/-! ### A character joins the receive queue (R510) -/

section
variable {u e : Nat} {c : Chip}

/-- A source that may be raised is put out and changes nothing else. -/
theorem when_uartSource (b : Bool) (u k : Nat) (c : Chip) : ∃ out, when_ b (uartSource u k) c = { c with out := out } := by
  cases b
  · exact ⟨c.out, rfl⟩
  · exact ⟨_, rfl⟩

/-- Where the queue has room, a character joins it; without flow control the sources are all else that shows. -/
theorem storeChar_room (hroom : (c.uart u).rx.length < 128) (hf : c.flowOn u = false) : ∃ out, storeChar u e c =
    { modUart u (fun y => { y with rx := y.rx ++ [if (c.uart u).lost then e + 8192 else e], lost := false, timeout := false }) c with
      out := out } := by
  unfold storeChar
  rw [if_neg (Nat.not_le.mpr hroom)]
  dsimp only
  generalize (if (c.uart u).lost then e + 8192 else e) = e'
  obtain ⟨d, hd⟩ : ∃ d, d = modUart u (fun y => { y with rx := y.rx ++ [e'], lost := false, timeout := false }) c := ⟨_, rfl⟩
  have hflow : d.flowOn u = false := by
    rw [hd]
    exact (flowOn_congr (uartCfg_modUart rfl) rfl).trans hf
  obtain ⟨o₁, h₁⟩ := when_uartSource ((c.uart u).rx.length + 1 == d.num (Obj.uartRxTrigger u)) u 0 d
  obtain ⟨o₂, h₂⟩ := when_uartSource (bit e' 9 || bit e' 10 || bit e' 13) u 2 { d with out := o₁ }
  rw [← hd, h₁, h₂, show Chip.flowOn { d with out := o₂ } u = false from hflow]
  exact ⟨o₂, rfl⟩

/-- Where it has none, the character is discarded, and the next one that joins will show it. -/
theorem storeChar_full (h : 128 ≤ (c.uart u).rx.length) :
    ((storeChar u e c).uart u).rx = (c.uart u).rx ∧ ((storeChar u e c).uart u).lost = true := by
  unfold storeChar
  rw [if_pos h]
  dsimp only
  split <;> simp

end

/-! ### A character in each mode -/

/-- The chip once the errors of a character were counted (R510). -/
def counted (u : Nat) (x : RxChar) (c : Chip) : Chip :=
  when_ x.brk (bump (Obj.uartCountersBreaks u)) (when_ x.framing (bump (Obj.uartCountersFraming u))
    (when_ x.parity (bump (Obj.uartCountersParity u)) c))

/-- A character without parity, framing or break. -/
structure CleanChar (x : RxChar) : Prop where
  parity : x.parity = false
  framing : x.framing = false
  brk : x.brk = false

section
variable {u : Nat} {x : RxChar} {c : Chip}

/-- It counts as no error. -/
theorem counted_clean (h : CleanChar x) : counted u x c = c := by
  rw [counted, h.parity, h.framing, h.brk]
  rfl

/-- A count leaves Mode, Divider and Format. -/
theorem uartCfg_when_bump {o : Nat} (b : Bool) (h : ∀ i, i ≤ 3 → o ≠ 0x80100000 + i + 256 * u) :
    (when_ b (bump o) c).uartCfg u = c.uartCfg u := by
  cases b
  · rfl
  · exact uartCfg_setNum _ (h 1 (by decide)) (h 2 (by decide)) (h 3 (by decide))

/-- The errors counted leave them. -/
theorem uartCfg_counted : (counted u x c).uartCfg u = c.uartCfg u := by
  have hne (k i : Nat) (h : i < k) : 0x80100000 + k + 256 * u ≠ 0x80100000 + i + 256 * u := by omega
  exact (uartCfg_when_bump _ fun i hi => hne 0x15 i (by omega)).trans ((uartCfg_when_bump _ fun i hi => hne 0x13 i (by omega)).trans
    (uartCfg_when_bump _ fun i hi => hne 0x12 i (by omega)))

/-- In mode HALF_DUPLEX every character is stored, whatever its errors. -/
theorem receiveChar_halfDuplex (hm : c.uartMode u = 3) :
    receiveChar u x c = storeChar u (rxEntry x (c.uartCfg u).2.2 false) (counted u x c) := by
  have hflow : (counted u x c).flowOn u = false := flowOn_false (by rw [Chip.uartMode, uartCfg_counted, ← Chip.uartMode, hm]; decide)
  unfold receiveChar
  dsimp only
  rw [show when_ x.brk _ (when_ x.framing _ (when_ x.parity _ c)) = counted u x c from rfl, hflow, hm]
  rfl

variable (h : CleanChar x)
include h

/-- A clean character is a flow character or passes on as its mode says. -/
theorem receiveChar_clean : receiveChar u x c =
    if c.flowOn u = true ∧ (x.data.toNat % 2 ^ (5 + (c.uartCfg u).2.2 % 8) = 0x13 ∨ x.data.toNat % 2 ^ (5 + (c.uartCfg u).2.2 % 8) = 0x11) then
      (if x.data.toNat % 2 ^ (5 + (c.uartCfg u).2.2 % 8) = 0x13 then modUart u (fun y => { y with paused := true }) c
       else startNext u (modUart u (fun y => { y with paused := false }) c))
    else if c.uartMode u = 2 then
      (if bit x.data.toNat 8 then
        (if c.addressed u x.data.toNat then storeChar u (rxEntry x (c.uartCfg u).2.2 true) (setNum (Obj.uartMute u) 0 c)
         else setNum (Obj.uartMute u) 1 c)
       else if c.flag (Obj.uartMute u) then c
       else storeChar u (rxEntry x (c.uartCfg u).2.2 false) c)
    else if c.uartMode u = 4 then
      midiThru u (x.data.toNat % 256) (midiOctet u (x.data.toNat % 256) (storeChar u (rxEntry x (c.uartCfg u).2.2 false) c))
    else if c.uartMode u = 5 then rdmOctet u x (storeChar u (rxEntry x (c.uartCfg u).2.2 false) c)
    else if c.uartMode u = 6 then dmxOctet u (BitVec.ofNat 8 x.data.toNat) false (storeChar u (rxEntry x (c.uartCfg u).2.2 false) c)
    else storeChar u (rxEntry x (c.uartCfg u).2.2 false) c := by
  unfold receiveChar
  dsimp only
  rw [show when_ x.brk _ (when_ x.framing _ (when_ x.parity _ c)) = c from counted_clean h]
  simp only [h.parity, h.framing, h.brk, Bool.not_false, Bool.and_true, Bool.and_eq_true, Bool.or_eq_true, beq_iff_eq, and_true,
    Bool.false_eq_true, if_false]
  refine if_congr Iff.rfl rfl (if_congr Iff.rfl rfl ?_)
  split <;> simp_all

end

/-! ### CHARACTER_RECEIVED -/

section
variable {u : Fin 4} {x : RxChar} {s : State} {c d : Chip}

/-- A port that is OFF hears nothing, unless the chip stands by. -/
theorem leaves_character_off (hp : s.chip.num Obj.powerState ≠ 2) (hm : s.chip.uartMode u.val = 0) :
    Leaves (.characterReceived u x) s s.chip :=
  leaves_onChip (execCharacterReceived.eq_def u x s) ((if_neg hp).trans (if_pos hm))

/-- In STANDBY a character may wake the chip (R525). -/
theorem leaves_character_standby (hp : s.chip.num Obj.powerState = 2) (h : standbyChar u.val x s.chip = d) :
    Leaves (.characterReceived u x) s d := leaves_onChip (execCharacterReceived.eq_def u x s) ((if_pos hp).trans h)

variable (hp : s.chip.num Obj.powerState ≠ 2)
include hp

/-- A port other than UART0 receives as its mode says. -/
theorem leaves_character_other (hu : u.val ≠ 0) (hm : s.chip.uartMode u.val ≠ 0) (h : receiveChar u.val x s.chip = d) :
    Leaves (.characterReceived u x) s d := by
  refine leaves_onChip (execCharacterReceived.eq_def u x s) ((if_neg hp).trans ((if_neg hm).trans ?_))
  rw [← h]
  simp only [hu, false_and, if_false]

variable (hm : s.chip.uartMode 0 ≠ 0)
include hm

/-- UART0 hands an octet to an image transfer (R555). -/
theorem leaves_character_img (hi : s.chip.boot.img.isSome = true) (hb : x.brk = false) :
    Leaves (.characterReceived 0 x) s (imgOctet (BitVec.ofNat 8 x.data.toNat) s.chip) :=
  leaves_onChip (execCharacterReceived.eq_def 0 x s)
    ((if_neg hp).trans ((if_neg hm).trans (if_pos ⟨rfl, hi, by rw [hb]; rfl⟩)))

/-- Else a break starts autobaud, a character may end it, and a line that is no command is answered (R513, R555). -/
theorem leaves_character_zero (hi : ¬ (s.chip.boot.img.isSome ∧ !x.brk))
    (hc : (if x.brk then modUart 0 (fun y => { y with autobaud := true }) s.chip else autobaud x s.chip) = c)
    (hd : (if endsBadLine x c then badLine c (receiveChar 0 x c) else receiveChar 0 x c) = d) :
    Leaves (.characterReceived 0 x) s d := by
  refine leaves_onChip (execCharacterReceived.eq_def 0 x s) ((if_neg hp).trans ((if_neg hm).trans ((if_neg fun g => hi g.2).trans ?_)))
  rw [← hd, ← hc]
  simp only [Fin.val_zero, if_true, true_and]

end

section
variable {x : RxChar} {c : Chip}

/-- Kolef's line ends badly at a 0x0D that no command precedes, in mode UART. -/
theorem endsBadLine_iff : endsBadLine x c = true ↔
    c.uartMode 0 = 1 ∧ x.brk = false ∧ x.data.toNat = 0x0D ∧ kolefKnown c.kolefHeld = false := by
  simp [endsBadLine, and_assoc]

/-- Autobaud that is off measures nothing (R513). -/
theorem autobaud_off (h : (c.uart 0).autobaud = false) : autobaud x c = c := if_neg (by simp [h])

/-- Its character 0x0D at a rate in range sets the divider. -/
theorem autobaud_sets (h : (c.uart 0).autobaud = true) (hb : x.brk = false) (hd : x.data.toNat = 0x0D) (hlo : 435 ≤ 4 * x.low)
    (hhi : 4 * x.low ≤ 41666) :
    autobaud x c = setNum (Obj.uartDivider 0) (4 * x.low) (modUart 0 (fun y => { y with autobaud := false }) c) :=
  if_pos ⟨h, by rw [hb]; rfl, by omega, by omega, by omega, hd⟩

/-- Neither changes what Kolef's line holds, nor the Mode of a port whose Divider alone is written. -/
theorem endsBadLine_autobaud (v : Nat) (f : Uart → Uart) (hcfg : (f (c.uart 0)).cfg = (c.uart 0).cfg) (hrx : (f (c.uart 0)).rx = (c.uart 0).rx) :
    endsBadLine x (setNum (Obj.uartDivider 0) v (modUart 0 f c)) = endsBadLine x c := by
  have hmode : (setNum (Obj.uartDivider 0) v (modUart 0 f c)).uartMode 0 = c.uartMode 0 := by
    simp only [Chip.uartMode, Chip.uartCfg, uart_setNum, uart_modUart_same, hcfg]
    cases (c.uart 0).cfg with
    | some x => rfl
    | none => exact num_setNum_other _ _ (by decide)
  have hheld : (setNum (Obj.uartDivider 0) v (modUart 0 f c)).kolefHeld = c.kolefHeld := by
    simp only [Chip.kolefHeld, uart_setNum, uart_modUart_same, hrx]
  rw [endsBadLine, hmode, hheld]
  rfl

end

/-! ### A character in STANDBY (R525) -/

section
variable {u : Nat} {x : RxChar} {c : Chip}

theorem standbyChar_disabled (h : c.flag (Obj.uartWakeEnable u) = false) : standbyChar u x c = c := if_pos (by rw [h]; rfl)

/-- A slow MULTIDROP port wakes by an address of its own. -/
theorem standbyChar_slow (h : c.flag (Obj.uartWakeEnable u) = true) (hm : c.uartMode u = 2) (hs : 400000000 ≤ 9600 * (c.uartCfg u).2.1) :
    standbyChar u x c = if x.brk = false ∧ bit x.data.toNat 8 = true ∧ c.addressed u x.data.toNat = true then
        uartSource u 3 (storeChar u (rxEntry x (c.uartCfg u).2.2 true)
          (setNum (Obj.uartMute u) 0 (modUart u (fun y => { y with woke := true }) c)))
      else c :=
  (if_neg (not_negb_of_true h)).trans ((if_pos ⟨hm, hs⟩).trans (if_congr (by simp [and_assoc]) rfl rfl))

/-- Any other port that is on wakes by any character and loses it. -/
theorem standbyChar_lost (h : c.flag (Obj.uartWakeEnable u) = true) (hm : c.uartMode u ≠ 0)
    (hs : c.uartMode u ≠ 2 ∨ 9600 * (c.uartCfg u).2.1 < 400000000) :
    standbyChar u x c = uartSource u 3 (snag 0x0618 u 0xFF (bump (Obj.uartCountersWakeLost u)
      (modUart u (fun y => { y with woke := true, lost := true }) c))) :=
  (if_neg (not_negb_of_true h)).trans ((if_neg fun g => hs.elim (· g.1) (Nat.not_lt.mpr g.2)).trans (if_neg hm))

end

/-! ### CHARACTER_SENT (R510, R516) -/

section
variable {u : Fin 4} {b : Bool} {s : State} {c : Chip}

theorem leaves_sent_none (h : (s.chip.uart u.val).sending = none) : Leaves (.characterSent u b) s s.chip :=
  leaves_onChip (execCharacterSent.eq_def u b s) (by simp only [h])

/-- A character that ends or collides makes way for a waiting write, else for the next character. -/
theorem leaves_sent {e : Nat} {d : Chip} (h : (s.chip.uart u.val).sending = some e)
    (hc : (if b && s.chip.uartMode u.val == 3 then collide u.val e s.chip
      else emit (.serial u.val e) (modUart u.val (fun x => { x with sending := none, attempts := 0 }) s.chip)) = c)
    (hd : (if (c.uart u.val).cfg.isSome then applyUart u.val c else startNext u.val c) = d) : Leaves (.characterSent u b) s d := by
  refine leaves_onChip (execCharacterSent.eq_def u b s) ?_
  rw [← hd, ← hc]
  simp only [h]

end

/-- A port whose transmit queue was dropped after too many collisions; `y` is its record before. -/
structure Dropped (y x : Uart) : Prop where
  tx : x.tx = []
  attempts : x.attempts = 0
  collision : x.collision = true
  rx : x.rx = y.rx
  cfg : x.cfg = none

section
variable {u : Nat} {y : Uart} {c : Chip}

/-- In mode HALF_DUPLEX what such a port sends next is flow control or nothing. -/
theorem next_dropped {x : Uart} {p : Nat × Nat × Uart} (h : Dropped y x) (hn : x.next 3 = some p) : Dropped y p.2.2 := by
  unfold Uart.next at hn
  cases hf : x.flow with
  | some f =>
    rw [hf] at hn
    cases hn
    exact ⟨h.tx, h.attempts, h.collision, h.rx, h.cfg⟩
  | none => simp [hf, h.tx] at hn

/-- So it stays as it is when the next character is looked for. -/
theorem startNext_dropped (hm : c.uartMode u = 3) (h : Dropped y (c.uart u)) :
    Dropped y ((startNext u c).uart u) ∧ (startNext u c).uartMode u = 3 := by
  unfold startNext
  dsimp only
  split
  · exact ⟨h, hm⟩
  · rw [hm]
    cases hn : (c.uart u).next 3 with
    | none =>
      dsimp only
      cases (c.uart u).deUntil == noTerm with
      | false => exact ⟨h, hm⟩
      | true =>
        simp only [when_, if_true, Chip.uartMode, uart_modUart_same]
        rw [uartCfg_modUart rfl]
        exact ⟨⟨h.tx, h.attempts, h.collision, h.rx, h.cfg⟩, hm⟩
    | some p =>
      have hp := next_dropped h hn
      obtain ⟨f, k, x⟩ := p
      dsimp only at hp ⊢
      obtain ⟨x', hx'⟩ : ∃ x', x' = { x with sending := some f, attempts := 0, deUntil := if u = 0 then 0 else noTerm } := ⟨_, rfl⟩
      have hd : Dropped y x' := hx' ▸ ⟨hp.tx, rfl, hp.collision, hp.rx, hp.cfg⟩
      rw [← hx']
      obtain ⟨out, ho⟩ := when_uartSource (k == 0 && x.tx.length == (modUart u (fun _ => x') c).num (Obj.uartTxTrigger u)) u 1
        (modUart u (fun _ => x') c)
      rw [ho]
      have hx : Chip.uart { modUart u (fun _ => x') c with out := out } u = x' := uart_modUart_same c u _
      refine ⟨by rw [hx]; exact hd, ?_⟩
      exact (congrArg Prod.fst (uartCfg_congr (c := c) ((congrArg Uart.cfg hx).trans (hd.cfg.trans h.cfg.symm)) rfl rfl rfl)).trans hm

/-- A collision within Uart.Retries waits to be sent again (R516). -/
theorem collide_retries {e : Nat} (h : (c.uart u).attempts < c.num (Obj.uartRetries u)) : collide u e c =
    modUart u (fun y => { y with attempts := y.attempts + 1, retry := some e })
      (uartSource u 2 (modUart u (fun y => { y with collision := true, sending := none }) c)) := if_pos h

/-- One more drops the transmit queue. -/
theorem collide_drops {e : Nat} (hm : c.uartMode u = 3) (hcfg : (c.uart u).cfg = none)
    (h : c.num (Obj.uartRetries u) ≤ (c.uart u).attempts) :
    Dropped (c.uart u) ((collide u e c).uart u) ∧ (collide u e c).uartMode u = 3 := by
  obtain ⟨d, hd⟩ : ∃ d, d = snagWith 0x0611 u 0xFF 0xFFFF ((c.uart u).tx.length + 1) (bump (Obj.uartCountersCollisions u)
      (modUart u (fun y => { y with tx := [], attempts := 0 })
        (uartSource u 2 (modUart u (fun y => { y with collision := true, sending := none }) c)))) := ⟨_, rfl⟩
  have hx : d.uart u = { c.uart u with tx := [], attempts := 0, collision := true, sending := none } := by
    simp only [hd, uart_snagWith, uart_bump, uart_modUart_same, uartSource, uart_emit]
  have hnum (i : Nat) (hi : i ≤ 3) : d.num (0x80100000 + i + 256 * u) = c.num (0x80100000 + i + 256 * u) := by
    rw [hd, num_snagWith, num_bump_other _ (by simp only [Obj.uartCountersCollisions]; omega)]
    rfl
  have hmode : d.uartMode u = 3 := by
    rw [Chip.uartMode, uartCfg_congr (by rw [hx]) (hnum 1 (by decide)) (hnum 2 (by decide)) (hnum 3 (by decide)), ← Chip.uartMode, hm]
  rw [show collide u e c = startNext u d from (if_neg (Nat.not_lt.mpr h)).trans (by rw [hd])]
  exact startNext_dropped hmode (by rw [hx]; exact ⟨rfl, rfl, rfl, rfl, hcfg⟩)

end

/-! ### The objects of a UART (R510, R512, R519) -/

/-- Entries written in octets are the entries sent. -/
theorem txEntries_flatMap (l : List (BitVec 16)) : txEntries (l.flatMap (fun e => leBytes 2 e.toNat)) = l.map BitVec.toNat := by
  have hlen (l : List (BitVec 16)) : (l.flatMap (fun e => leBytes 2 e.toNat)).length / 2 = l.length := by
    induction l with
    | nil => rfl
    | cons e l ih => rw [List.flatMap_cons, List.length_append, length_leBytes, List.length_cons]; omega
  unfold txEntries
  rw [hlen]
  induction l with
  | nil => rfl
  | cons e l ih =>
    have hdrop (i : Nat) : (leBytes 2 e.toNat ++ l.flatMap (fun e => leBytes 2 e.toNat)).drop (2 * (i + 1)) =
        (l.flatMap (fun e => leBytes 2 e.toNat)).drop (2 * i) := by
      rw [List.drop_append, length_leBytes, List.drop_eq_nil_of_le (by rw [length_leBytes]; omega)]
      rfl
    have hfirst : leNat (leBytes 2 e.toNat) = e.toNat := by rw [leNat_leBytes]; exact Nat.mod_eq_of_lt e.isLt
    rw [List.length_cons, upTo, List.range_succ_eq_map, List.map_cons, List.map_map, List.map_cons, ← ih]
    refine congrArg₂ List.cons hfirst (List.map_congr_left fun i _ => ?_)
    exact congrArg (fun t => leNat (t.take 2)) (hdrop i)

/-- The octets of entries are twice as many. -/
theorem length_txOctets (l : List (BitVec 16)) : (l.flatMap (fun e => leBytes 2 e.toNat)).length = 2 * l.length := by
  induction l with
  | nil => rfl
  | cons e l ih => rw [List.flatMap_cons, List.length_append, length_leBytes, List.length_cons, ih]; omega

/-- The octets of a receive queue are twice its entries. -/
theorem length_rxOctets (l : List Nat) : (l.flatMap (leBytes 2)).length = 2 * l.length := by
  induction l with
  | nil => rfl
  | cons e l ih => rw [List.flatMap_cons, List.length_append, length_leBytes, List.length_cons, ih]; omega

section
variable {u : Nat} {c : Chip}

/-- A read of all that a queue holds, from its first octet, empties it. -/
theorem uartRead_all {lim : Nat} (hlim : ((c.uart u).rx.flatMap (leBytes 2)).length ≤ lim) (hf : c.flowOn u = false) :
    (uartRead u 0 lim c).2 = modUart u (fun x => { x with rx := [], timeout := false }) c := by
  have hleft : ((c.uart u).rx.zipIdx.filter (fun x => !(decide (0 ≤ 2 * x.2) &&
      decide (2 * x.2 + 2 ≤ 0 + ((((c.uart u).rx.flatMap (leBytes 2)).drop 0).take lim).length)))) = [] := by
    refine List.filter_eq_nil_iff.mpr fun x hx => ?_
    have hlt := List.snd_lt_of_mem_zipIdx hx
    rw [List.drop_zero, List.take_of_length_le hlim, length_rxOctets]
    simp
    omega
  unfold uartRead
  dsimp only
  rw [if_neg (Nat.not_lt_zero _)]
  dsimp only
  rw [hleft, hf]
  simp [when_]

/-- A read beyond what it holds is refused. -/
theorem uartRead_beyond {off lim : Nat} (h : ((c.uart u).rx.flatMap (leBytes 2)).length < off) :
    uartRead u off lim c = ({ status := St.badRequest }, c) := if_pos h

/-- A read answers at once. -/
theorem later_uartRead (off lim : Nat) : (uartRead u off lim c).1.later = false := by
  unfold uartRead
  dsimp only
  split <;> rfl

end

section
variable {r : Req} {u : Fin 4} {offset : BitVec 32} {s : State}

/-- A read of Uart.Rx that reaches its service and is allowed is answered with what the queue holds from the octet on (R510). -/
theorem exec_uartRxRead (hr : Reaches r.path (readMsg r (Obj.uartRx u.val) offset.toNat) s)
    (hm : mayReadArea (judged r.path s).chip (actingMaster s.chip r.path) (Obj.uartRx u.val) = true) :
    let x := uartRead u.val offset.toNat (pathLimit r.path) (judged r.path s).chip
    Replies (.uartRxRead r u offset) r.path (readMsg r (Obj.uartRx u.val) offset.toNat) s { s with chip := x.2 } x.1 := by
  refine congrArg Host.Outcome.next ((serve_answers hr (if_pos hm) (later_uartRead _ _)).trans ?_)
  exact judged_state r.path s _

/-- One that is not allowed is refused. -/
theorem exec_uartRxRead_noAccess (hr : Reaches r.path (readMsg r (Obj.uartRx u.val) offset.toNat) s)
    (hm : mayReadArea (judged r.path s).chip (actingMaster s.chip r.path) (Obj.uartRx u.val) = false) :
    Replies (.uartRxRead r u offset) r.path (readMsg r (Obj.uartRx u.val) offset.toNat) s (judged r.path s) { status := St.noAccess } := by
  exact congrArg Host.Outcome.next (serve_answers (x := (judged r.path s, { status := St.noAccess })) hr
    (if_neg (Bool.eq_false_iff.mp hm)) rfl)

end

section
variable {r : Req} {a : Nat} {u : Fin 4} {s : State}

/-- Entries written to Uart.Tx join the transmit queue if it has room for all of them (R510). -/
theorem uartTx_answers {entries : List (BitVec 16)} (hw : Writes r a (Obj.uartTx u.val) (entries.flatMap (fun e => leBytes 2 e.toNat)) s) :
    let c := (judged r.path s).chip
    let bs := entries.flatMap (fun e => leBytes 2 e.toNat)
    (uartMay u.val a = false → Answers (.uartTx r u entries) r a (Obj.uartTx u.val) bs s c St.noAccess) ∧
    (uartMay u.val a = true → 128 < (c.uart u.val).tx.length + entries.length →
      Answers (.uartTx r u entries) r a (Obj.uartTx u.val) bs s c St.busy) ∧
    (uartMay u.val a = true → (c.uart u.val).tx.length + entries.length ≤ 128 → Answers (.uartTx r u entries) r a (Obj.uartTx u.val) bs s
      (startNext u.val (modUart u.val (fun x => { x with tx := x.tx ++ entries.map BitVec.toNat }) c)) St.ok) := by
  intro c bs
  have hlen : bs.length = 2 * entries.length := length_txOctets entries
  refine ⟨fun hm => serveRow_actWhen_refused hw (if_pos (congrArg (!·) hm)) (by decide),
    fun hm h => serveRow_actWhen_refused hw ((if_neg (not_negb_of_true hm)).trans ((if_neg ?_).trans (if_pos ?_))) (by decide), fun hm h => ?_⟩
  · show ¬ bs.length % 2 ≠ 0
    omega
  · show 128 < (c.uart u.val).tx.length + bs.length / 2
    omega
  · rw [← txEntries_flatMap entries]
    refine serveRow_actWhen_ok hw ((if_neg (not_negb_of_true hm)).trans ((if_neg ?_).trans (if_neg ?_))) rfl
    · show ¬ bs.length % 2 ≠ 0
      omega
    · show ¬ 128 < (c.uart u.val).tx.length + bs.length / 2
      omega

/-- Mode, Divider and Format take effect at once, or when the character in progress ends (R512). -/
theorem uartMode_answers {object : Fin 3} {v : BitVec 32} (hw : Writes r a (Obj.uartMode u.val + object.val)
    (leBytes (if object.val = 1 then 4 else 1) v.toNat) s) :
    let c := (judged r.path s).chip
    let k := u.val
    let o := Obj.uartMode k + object.val
    let bs := leBytes (if object.val = 1 then 4 else 1) v.toNat
    let n := if object.val = 1 then v.toNat else v.toNat % 256
    (uartMay k a = false → Answers (.uartMode r u object v) r a o bs s c St.noAccess) ∧
    (uartMay k a = true → uartCfgStatus c k object.val n ≠ St.ok →
      Answers (.uartMode r u object v) r a o bs s c (uartCfgStatus c k object.val n)) ∧
    (uartMay k a = true → uartCfgStatus c k object.val n = St.ok → (c.uart k).sending = none →
      Answers (.uartMode r u object v) r a o bs s (applyUart k (setNum o n c)) St.ok) ∧
    (uartMay k a = true → uartCfgStatus c k object.val n = St.ok → (c.uart k).sending.isSome = true →
      Answers (.uartMode r u object v) r a o bs s (modUart k (fun x => { x with cfg := some (c.uartCfg k) }) (setNum o n c)) St.ok) := by
  intro c k o bs n
  refine ⟨fun hm => serveRow_actWhen_refused hw (if_neg (by rw [hm]; decide)) (by decide),
    fun hm hst => serveRow_actWhen_refused hw (if_pos hm) hst, fun hm hst hs => ?_, fun hm hst hs => ?_⟩
  · exact serveRow_actWhen_ok hw ((if_pos hm).trans hst) (if_neg (by rw [uart_setNum, hs]; decide))
  · exact serveRow_actWhen_ok hw ((if_pos hm).trans hst) (if_pos hs)

/-- A UART is bound to a tenant's queue that runs empty, and unbound from none (R519). -/
theorem midiBind_answers {v : Byte} (hw : Writes r a (Obj.uartMidiTenant u.val) [v] s) :
    let c := (judged r.path s).chip
    let k := u.val
    let o := Obj.uartMidiTenant k
    let i := qix v.toNat (c.num (Obj.uartMidiQueue k) % 8)
    (uartMay k a = false → Answers (.midiBind r u false v) r a o [v] s c St.noAccess) ∧
    (uartMay k a = true → v.toNat < 16 →
      (c.may 0x16 i a 1 = false → Answers (.midiBind r u false v) r a o [v] s c St.noAccess) ∧
      (c.may 0x16 i a 1 = true → (c.queue i).state ≠ .running ∨ (c.queue i).head ≠ (c.queue i).tail →
        Answers (.midiBind r u false v) r a o [v] s c St.busy) ∧
      (c.may 0x16 i a 1 = true → (c.queue i).state = .running → (c.queue i).head = (c.queue i).tail →
        Answers (.midiBind r u false v) r a o [v] s (setNum o v.toNat c) St.ok)) ∧
    (uartMay k a = true → 16 ≤ v.toNat → 16 ≤ c.num o → Answers (.midiBind r u false v) r a o [v] s (setNum o v.toNat c) St.ok) := by
  intro c k o i
  refine ⟨fun hm => serveRow_actWhen_refused hw (if_pos (congrArg (!·) hm)) (by decide),
    fun hm hv => ⟨fun hq => ?_, fun hq hst => ?_, fun hq hr he => ?_⟩, fun hm hv hold => ?_⟩
  · exact serveRow_actWhen_refused hw ((if_neg (not_negb_of_true hm)).trans ((if_pos hv).trans (if_pos (congrArg (!·) hq)))) (by decide)
  · exact serveRow_actWhen_refused hw ((if_neg (not_negb_of_true hm)).trans ((if_pos hv).trans
      ((if_neg (not_negb_of_true hq)).trans (if_pos hst)))) (by decide)
  · exact serveRow_actWhen_ok hw ((if_neg (not_negb_of_true hm)).trans ((if_pos hv).trans
      ((if_neg (not_negb_of_true hq)).trans (if_neg fun h => h.elim (· hr) (· he))))) rfl
  · refine serveRow_actWhen_ok hw ((if_neg (not_negb_of_true hm)).trans ((if_neg (Nat.not_lt.mpr hv)).trans ?_)) rfl
    rw [Chip.boundQueue, if_neg (Nat.not_lt.mpr hold)]

/-- An unbound UART's queue number is free to change. -/
theorem midiBind_unbound {v : Byte} (hw : Writes r a (Obj.uartMidiQueue u.val) [v] s) (hm : uartMay u.val a = true)
    (ht : 16 ≤ (judged r.path s).chip.num (Obj.uartMidiTenant u.val)) :
    Answers (.midiBind r u true v) r a (Obj.uartMidiQueue u.val) [v] s (setNum (Obj.uartMidiQueue u.val) v.toNat (judged r.path s).chip) St.ok := by
  refine serveRow_actWhen_ok hw ((if_neg (not_negb_of_true hm)).trans ((if_neg (Nat.not_lt.mpr ht)).trans ?_)) rfl
  rw [Chip.boundQueue, if_neg (Nat.not_lt.mpr ht)]

end

/-! ### The obligation -/

/-- Settles O50: characters by the state of the chip, the port and its mode; objects by what their rules check. -/
theorem uartCharacters : Obligations.UartCharacters := by
  refine ⟨fun u x s => ?_, fun r a u s => ?_⟩
  · intro c k m f d y char
    refine ⟨fun hm hp => leaves_character_off hp hm, fun hp hu => ?_, fun hp hu hm => ?_, fun hp => ⟨?_, ?_, ?_⟩, fun h => ?_, fun h => ?_,
      fun coll h => leaves_sent_none h, fun e he => ?_, ?_⟩
    · have hu' : u.val ≠ 0 := fun h => hu (Fin.ext h)
      have hrun {e : Chip} (hm : m ≠ 0) := leaves_character_other (d := e) (x := x) hp hu' hm
      have hquiet (hm : m ≠ 1) : ¬ (c.flowOn k = true ∧ (char = 0x13 ∨ char = 0x11)) := by simp [flowOn_false (c := c) (u := k) hm]
      have hmode {n : Nat} (hm : m = n) : s.chip.uartMode u.val = n := hm
      refine ⟨fun hm hpar hfr hb hroom => ?_, fun hm hpar hfr hb hfull => ?_, fun hm => hrun (by omega) (receiveChar_halfDuplex hm),
        fun hm hflow hpar hfr hb => ?_, fun hm hpar hfr hb => ?_, fun hm hpar hfr hb => ?_, fun hm hpar hfr hb => ?_, fun hm hpar hfr hb => ?_⟩
      · obtain ⟨out, hout⟩ := storeChar_room (u := k) (e := rxEntry x f false) hroom (flowOn_false (c := c) (by rw [hmode hm]; decide))
        have hx := uart_modUart_same c k (fun z =>
          { z with rx := z.rx ++ [if y.lost then rxEntry x f false + 8192 else rxEntry x f false], lost := false, timeout := false })
        refine ⟨_, hrun (by omega) ((receiveChar_halfDuplex hm).trans ((congrArg _ (counted_clean ⟨hpar, hfr, hb⟩)).trans hout)), ?_⟩
        exact ⟨(congrArg Uart.rx hx :), (congrArg Uart.lost hx :), (congrArg Uart.timeout hx :), (congrArg Uart.tx hx :), rfl, rfl⟩
      · exact ⟨_, hrun (by omega) ((receiveChar_halfDuplex hm).trans (congrArg _ (counted_clean ⟨hpar, hfr, hb⟩))), storeChar_full hfull⟩
      · have hrcv := receiveChar_clean (u := k) (c := c) ⟨hpar, hfr, hb⟩
        refine ⟨fun hc => hrun (by omega) (hrcv.trans ((if_pos ⟨hflow, .inl hc⟩).trans (if_pos hc))), fun hc => hrun (by omega) (hrcv.trans
          ((if_pos ⟨hflow, .inr hc⟩).trans (if_neg fun h => absurd (h.symm.trans hc) (by decide)))), fun hc hc' => hrun (by omega)
          (hrcv.trans ((if_neg fun g => g.2.elim hc hc').trans ?_))⟩
        rw [hmode hm]
        rfl
      · have hrcv := (receiveChar_clean (u := k) (c := c) ⟨hpar, hfr, hb⟩).trans ((if_neg (hquiet (by omega))).trans (if_pos hm))
        exact ⟨fun h8 hmute => hrun (by omega) (hrcv.trans ((if_neg (Bool.eq_false_iff.mp h8)).trans (if_pos hmute))),
          fun h8 hmute => hrun (by omega) (hrcv.trans ((if_neg (Bool.eq_false_iff.mp h8)).trans (if_neg (Bool.eq_false_iff.mp hmute)))),
          fun h8 hadr => hrun (by omega) (hrcv.trans ((if_pos h8).trans (if_neg (Bool.eq_false_iff.mp hadr)))),
          fun h8 hadr => hrun (by omega) (hrcv.trans ((if_pos h8).trans (if_pos hadr)))⟩
      · refine hrun (by omega) ((receiveChar_clean (u := k) (c := c) ⟨hpar, hfr, hb⟩).trans ((if_neg (hquiet (by omega))).trans ?_))
        rw [hmode hm]
        rfl
      · refine hrun (by omega) ((receiveChar_clean (u := k) (c := c) ⟨hpar, hfr, hb⟩).trans ((if_neg (hquiet (by omega))).trans ?_))
        rw [hmode hm]
        rfl
      · refine hrun (by omega) ((receiveChar_clean (u := k) (c := c) ⟨hpar, hfr, hb⟩).trans ((if_neg (hquiet (by omega))).trans ?_))
        rw [hmode hm]
        rfl
    · subst hu
      have hnoImg (h : x.brk = true ∨ c.boot.img = none) : ¬ (s.chip.boot.img.isSome ∧ !x.brk) := by
        obtain h | h := h
        · simp [h]
        · simp [show s.chip.boot.img = none from h]
      refine ⟨fun hb hi => leaves_character_img hp hm hi hb, fun hb => leaves_character_zero hp hm (hnoImg (.inl hb)) (if_pos hb) (if_neg ?_),
        fun hb hi ha => ?_, fun hb hi ha hd hk hlo hhi => ?_⟩
      · exact fun g => absurd (hb.symm.trans (endsBadLine_iff.mp g).2.1) (by decide)
      · have hz {e : Chip} := leaves_character_zero (d := e) hp hm (hnoImg (.inr hi)) ((if_neg (Bool.eq_false_iff.mp hb)).trans (autobaud_off ha))
        refine ⟨fun h => hz (if_neg fun g => ?_), fun h1 hd hk => hz (if_pos (endsBadLine_iff.mpr ⟨h1, hb, hd, hk⟩))⟩
        obtain ⟨h1, -, hd, hk⟩ := endsBadLine_iff.mp g
        exact h.elim (· h1) fun h => h.elim (· hd) fun h => absurd (h.symm.trans hk) (by decide)
      · refine leaves_character_zero hp hm (hnoImg (.inr hi)) ((if_neg (Bool.eq_false_iff.mp hb)).trans (autobaud_sets ha hb hd hlo hhi))
          (if_neg fun g => ?_)
        rw [endsBadLine_autobaud _ _ rfl rfl] at g
        obtain ⟨h1, -, -, hk'⟩ := endsBadLine_iff.mp g
        exact hk.elim (· h1) fun h => absurd (h.symm.trans hk') (by decide)
    · exact fun h => leaves_character_standby hp (standbyChar_disabled h)
    · intro hw hm hs
      have hslow := standbyChar_slow (x := x) hw hm hs
      exact ⟨fun h => leaves_character_standby hp (hslow.trans (if_neg fun g => h.elim (fun h => absurd (h.symm.trans g.1) (by decide))
          fun h => h.elim (fun h => absurd (h.symm.trans g.2.1) (by decide)) fun h => absurd (h.symm.trans g.2.2) (by decide))),
        fun hb h8 ha => leaves_character_standby hp (hslow.trans (if_pos ⟨hb, h8, ha⟩))⟩
    · exact fun hw hm hs => leaves_character_standby hp (standbyChar_lost hw hm hs)
    · exact leaves_onChip (execRxTimeout.eq_def u s) (if_pos (List.isEmpty_iff.mpr h))
    · exact leaves_onChip (execRxTimeout.eq_def u s) (if_neg (mt List.isEmpty_iff.mp h))
    · intro sent
      have hx : sent.uart k = { y with sending := none, attempts := 0 } := uart_modUart_same c k _
      have hsome : (sent.uart k).cfg.isSome = y.cfg.isSome := by rw [hx]
      have hends {b : Bool} {d : Chip} (hb : b = false ∨ m ≠ 3) := leaves_sent (b := b) (c := sent) (d := d) he (if_neg (by
        obtain h | h := hb
        · simp [h]
        · simp [show s.chip.uartMode u.val ≠ 3 from h]))
      have hnone (h : y.cfg = none) : ¬ (sent.uart k).cfg.isSome = true := by rw [hsome, h]; decide
      refine ⟨fun h => hends (.inl rfl) (if_neg (hnone h)), fun h => hends (.inl rfl) (if_pos (hsome.trans h)),
        fun hm h => hends (.inr hm) (if_neg (hnone h)), fun hm h hlt => ?_, fun hm h hge => ?_⟩
      · have hcol := collide_retries (e := e) hlt
        have hy : (collide k e c).uart k = { y with collision := true, sending := none, attempts := y.attempts + 1, retry := some e } := by
          rw [hcol, uart_modUart_same, uartSource, uart_emit, uart_modUart_same]
        refine ⟨_, leaves_sent (b := true) he (if_pos (by simp [show s.chip.uartMode u.val = 3 from hm])) ((if_neg ?_).trans (if_pos ?_)), hy,
          congrArg Chip.out hcol⟩
        · rw [show (collide u.val e s.chip).uart u.val = _ from hy, show y.cfg = none from h]
          decide
        · rw [show (collide u.val e s.chip).uart u.val = _ from hy]
          rfl
      · obtain ⟨hdrop, hm3⟩ := collide_drops (e := e) (c := c) (u := k) hm h hge
        obtain ⟨hlast, -⟩ := startNext_dropped hm3 hdrop
        refine ⟨_, leaves_sent (b := true) he (if_pos (by simp [show s.chip.uartMode u.val = 3 from hm])) (if_neg ?_), hlast.tx, hlast.attempts,
          hlast.collision, hlast.rx⟩
        rw [show ((collide u.val e s.chip).uart u.val).cfg = none from hdrop.cfg]
        decide
    · exact completes_onChip rfl ⟨uart_modUart_same _ _ _, rfl, rfl⟩
  · intro c k
    refine ⟨fun entries => uartTx_answers, fun offset => ?_, fun object v => uartMode_answers, fun hw => ?_, fun v => midiBind_answers,
      fun v => midiBind_unbound⟩
    · intro q all hr
      refine ⟨exec_uartRxRead_noAccess hr, fun hm hlt => ?_, fun hm h0 hlim hf => ?_⟩
      · have hread := exec_uartRxRead hr hm
        rw [uartRead_beyond hlt] at hread
        exact hread.trans (congrArg Host.Outcome.next (judged_state r.path s _).symm)
      · subst h0
        have hread := exec_uartRxRead hr hm
        have hall := uartRead_all hlim hf
        have hx : (uartRead k 0 (pathLimit r.path) c).2.uart k = { c.uart k with rx := [], timeout := false } := by
          rw [hall, uart_modUart_same]
        have hkept := (uart_congr _ k (respond_ports _ r.path q (actingMaster s.chip r.path) (uartRead k 0 (pathLimit r.path) c).1)).trans hx
        exact ⟨_, hread, (congrArg Uart.rx hkept :), (congrArg Uart.timeout hkept :), (congrArg Uart.tx hkept :)⟩
    · exact ⟨fun hm => serveRow_actWhen_refused hw (if_neg (by rw [hm]; decide)) (by decide), fun hm => serveRow_actWhen_ok hw (if_pos hm) rfl⟩

end Sys2Proof.Machine
end

section
/-!
SUPPORT. O44: NOTIFY (R423, R431), what ends by time (R419, R428, R432), and Nerlil that arrives by CAN (R434, R435, R442).
-/

namespace Sys2Proof.Machine

/-! ### Loops in which few turns count -/

section
variable {α σ : Type} {f : α → σ → σ} {l : List α} {c d : σ}

/-- A loop whose turns do nothing does nothing. -/
theorem forEach_idle (h : ∀ n ∈ l, f n c = c) : forEach l f c = c :=
  forEach_keeps (· = c) f l c (fun n hn _ hd => by rw [hd, h n hn]) rfl

/-- A loop in which one turn counts does what that turn does. -/
theorem forEach_one {t : α} (hl : l.Nodup) (ht : t ∈ l) (hd : f t c = d) (hbefore : ∀ n ∈ l, n ≠ t → f n c = c)
    (hafter : ∀ n ∈ l, n ≠ t → f n d = d) : forEach l f c = d := by
  obtain ⟨l₁, l₂, rfl⟩ := List.append_of_mem ht
  obtain ⟨-, hcons, hdis⟩ := List.nodup_append.mp hl
  have hfst : forEach l₁ f c = c := forEach_idle fun n hn =>
    hbefore n (List.mem_append_left _ hn) (hdis n hn t List.mem_cons_self)
  have hsnd : forEach l₂ f d = d := forEach_idle fun n hn =>
    hafter n (List.mem_append_right _ (List.mem_cons_of_mem _ hn)) fun h => (List.nodup_cons.mp hcons).1 (h ▸ hn)
  rw [forEach_append, hfst]
  exact (congrArg (forEach l₂ f) hd).trans hsnd

end

/-! ### NOTIFY -/

/-- A tenant's function is read from its record and from port 0. -/
theorem hasFunction_congr {c d : Chip} {t : Nat} (ht : d.tenant t = c.tenant t) (hp : d.work.port0Root = c.work.port0Root) :
    d.hasFunction t = c.hasFunction t := by rw [Chip.hasFunction, Chip.hasFunction, ht, hp]

section
variable {s : State}

/-- With a function, or with nothing pending and enabled, no tenant is notified. -/
theorem leaves_ndpNotify_idle (h : ∀ t, t < 16 → s.chip.hasFunction t = true ∨ (s.chip.tenant t).evtStatus &&& (s.chip.tenant t).evtEnable = 0) :
    Leaves .ndpNotify s s.chip := by
  refine leaves_onChip (execNdpNotify.eq_def s) (forEach_idle fun t ht => if_neg ?_)
  obtain h | h := h t (List.mem_range.mp ht) <;> simp [h]

/-- A tenant that is due is notified over the chain where its bind entry says so. -/
theorem leaves_ndpNotify_one {t : Nat} {e : List Byte} (ht : t < 16) (hf : s.chip.hasFunction t = false)
    (hp : (s.chip.tenant t).evtStatus &&& (s.chip.tenant t).evtEnable ≠ 0) (hat : (s.chip.tenant t).notifyAt = none)
    (hother : ∀ n, n < 16 → n ≠ t → s.chip.hasFunction n = true ∨ (s.chip.tenant n).evtStatus &&& (s.chip.tenant n).evtEnable = 0)
    (he : notifyEntry s.chip t = some e) (h3 : field e 0 1 = 3) :
    Leaves .ndpNotify s (sendLath 5 0 (field e 1 1) 0 ((notifyBytes s.chip t).map BitVec.toNat)
      (modTenant t (fun x => { x with notifyAt := some s.chip.now }) s.chip)) := by
  refine leaves_onChip (execNdpNotify.eq_def s) (forEach_one List.nodup_range (List.mem_range.mpr ht) ?_ (fun n hn hne => if_neg ?_)
    (fun n hn hne => if_neg ?_))
  · simp [hf, hp, hat, he, h3]
  · obtain h | h := hother n (List.mem_range.mp hn) hne <;> simp [h]
  · have hn' : (sendLath 5 0 (field e 1 1) 0 ((notifyBytes s.chip t).map BitVec.toNat)
        (modTenant t (fun x => { x with notifyAt := some s.chip.now }) s.chip)).tenant n = s.chip.tenant n := tenant_modTenant_other _ _ hne
    rw [hn', hasFunction_congr hn' rfl]
    obtain h | h := hother n (List.mem_range.mp hn) hne <;> simp [h]

end

/-! ### What ends by time -/

section
variable {s : State}

/-- Forwarded requests younger than 200 ms wait on. -/
theorem leaves_forwardTimeout_inTime (h : ∀ x ∈ s.chip.work.awaited, s.chip.now < x.at_ + 200000000) : Leaves .forwardTimeout s s.chip := by
  refine leaves_onChip (execForwardTimeout.eq_def s) ?_
  have hlate : s.chip.work.awaited.filter (fun a => decide (a.at_ + 200000000 ≤ s.chip.now)) = [] :=
    List.filter_eq_nil_iff.mpr fun a ha => by simpa using h a ha
  have hkept : s.chip.work.awaited.filter (fun a => decide (s.chip.now < a.at_ + 200000000)) = s.chip.work.awaited :=
    List.filter_eq_self.mpr fun a ha => decide_eq_true (h a ha)
  simp only [hlate, hkept, modWork]
  rfl

/-- An older one, alone, is answered TIMEOUT (R432). -/
theorem leaves_forwardTimeout_late {x : Awaited} (h : s.chip.work.awaited = [x]) (hx : x.at_ + 200000000 ≤ s.chip.now) :
    let d := { s.chip with work := { s.chip.work with awaited := [] } }
    Leaves .forwardTimeout s (respond x.path x.msg (actingMaster d x.path) { status := St.timeout } d) := by
  refine leaves_onChip (execForwardTimeout.eq_def s) ?_
  simp only [h, modWork, List.filter_cons, decide_eq_true hx, decide_eq_false (Nat.not_lt.mpr hx), List.filter_nil, if_true,
    Bool.false_eq_true, if_false]
  rfl

/-- With no record pending there is none to write. -/
theorem leaves_flashRecord_none {ok : Bool} (h : s.chip.flashPending = []) : Leaves (.flashRecordWritten ok) s s.chip :=
  leaves_onChip (execFlashRecordWritten.eq_def ok s) (by simp only [h])

/-- The oldest record ends the wait of its request (R419). -/
theorem leaves_flashRecord {ok : Bool} {w : FlashWrite} {rest : List FlashWrite} {d : Chip} (h : s.chip.flashPending = w :: rest)
    (hd : (if ok then respond w.path w.msg w.master { status := St.ok } (recordFlash w { s.chip with flashPending := rest })
      else respond w.path w.msg w.master { status := St.storeFailed } (snag 0x0702 0 0xFF { s.chip with flashPending := rest })) = d) :
    Leaves (.flashRecordWritten ok) s d :=
  leaves_onChip (execFlashRecordWritten.eq_def ok s) (by simp only [h]; exact hd)

end

/-! ### CAN_FRAME_RECEIVED -/

/-- A remote frame carries no message (R434). -/
theorem nerlilOf_remote (c : Chip) (k : Nat) (f : CanRx) : nerlilOf c k { f with remote := true } = none :=
  by simp [nerlilOf]

section
variable {k : Fin 2} {f : CanRx} {s : State}

/-- A controller that takes no part hears no frame. -/
theorem leaves_canFrame_off (h1 : s.chip.num (Obj.canState k.val) ≠ 1) (h2 : s.chip.num (Obj.canState k.val) ≠ 2)
    (h6 : s.chip.num (Obj.canState k.val) ≠ 6) : Leaves (.canFrameReceived k f) s s.chip :=
  (execCanFrameReceived.eq_def k f s).trans (if_pos ⟨h1, h2, h6⟩)

variable (hst : s.chip.num (Obj.canState k.val) = 1 ∨ s.chip.num (Obj.canState k.val) = 2 ∨ s.chip.num (Obj.canState k.val) = 6)
include hst

/-- A frame that is no Nerlil message is counted and no more. -/
theorem leaves_canFrame_other (h : nerlilOf (frameReceived k.val s.chip) k.val f = none) :
    Leaves (.canFrameReceived k f) s (frameReceived k.val s.chip) := by
  refine (execCanFrameReceived.eq_def k f s).trans ((if_neg (by omega)).trans ?_)
  simp only [h]

/-- In REDUNDANT the second copy of a request is passed over (R442). -/
theorem leaves_canFrame_seen {node : Nat} {m : Msg} (h : nerlilOf (frameReceived k.val s.chip) k.val f = some (node, m))
    (hseen : seenBefore (frameReceived k.val s.chip) node m = true) : Leaves (.canFrameReceived k f) s (frameReceived k.val s.chip) := by
  refine (execCanFrameReceived.eq_def k f s).trans ((if_neg (by omega)).trans ?_)
  simp only [h]
  exact if_pos hseen

/-- Else a request is served, on the controller that it came by. -/
theorem exec_canFrame_served {node : Nat} {m : Msg} {d : Chip} (hd : frameReceived k.val s.chip = d)
    (h : nerlilOf d k.val f = some (node, m)) (hred : d.num Obj.canRedundancy ≠ 1) :
    exec (.canFrameReceived k f) s = .next (serveMsg (.can k (BitVec.ofNat 8 node) (f.format.val == 1)) m
      { s with chip := { d with can := { d.can with seen := d.can.seen.filter (fun x => withinSecond d x.2.2.2.2.2) } } }) := by
  have hseen : ¬ seenBefore d node m = true := by simp [seenBefore, hred]
  refine (execCanFrameReceived.eq_def k f s).trans ((if_neg (by omega)).trans ?_)
  simp only [hd, h]
  refine (if_neg hseen).trans ?_
  rw [if_neg hred, List.append_nil]
  split
  · rename_i hred'
    exact absurd hred' hred
  · rfl

end

/-! ### The obligation -/

/-- Settles O44: each command by what it finds waiting; frames by the controller's state and what they carry. -/
theorem noticesAndTimeouts : Obligations.NoticesAndTimeouts := by
  refine ⟨fun s => ?_, fun k f s => ?_⟩
  · intro c
    refine ⟨leaves_ndpNotify_idle, fun t e ht hf hp hat hother he h3 => ?_, completes_onChip (execSessionExpiry.eq_def s) ⟨rfl, rfl⟩, leaves_forwardTimeout_inTime,
      fun x => leaves_forwardTimeout_late, fun ok => leaves_flashRecord_none,
      fun w rest h => ⟨leaves_flashRecord h (if_pos rfl), leaves_flashRecord h (if_neg (by decide))⟩⟩
    exact ⟨_, leaves_ndpNotify_one ht hf hp hat hother he h3, congrArg Tenant.notifyAt (tenant_modTenant_same c t _), rfl⟩
  · intro c st d
    exact ⟨leaves_canFrame_off, leaves_canFrame_other, fun node m hst => exec_canFrame_served hst rfl, fun node m hst => leaves_canFrame_seen hst,
      nerlilOf_remote d k.val f⟩

end Sys2Proof.Machine
end

section
/-!
SUPPORT. O41: event registers (R391, R409, R415, R455), mailboxes (R407), and access tables (R411 to R414).
-/

namespace Sys2Proof.Machine

/-! ### Bits of an event word -/

/-- Bits subtracted where they stand are cleared. -/
theorem testBit_sub_and (a b k : Nat) : (a - (a &&& b)).testBit k = (a.testBit k && !b.testBit k) := by
  have hle (a b : Nat) : (a &&& b) % 2 ≤ a % 2 := by
    have := (Nat.and_mod_two_eq_one (a := a) (b := b)).mp
    omega
  induction k generalizing a b with
  | zero =>
    have hiff := Nat.and_mod_two_eq_one (a := a) (b := b)
    have hand : a &&& b ≤ a := Nat.and_le_left
    have hdiv : (a &&& b) / 2 = a / 2 &&& b / 2 := Nat.and_div_two
    simp only [Nat.testBit_zero, ← decide_not, ← Bool.decide_and]
    exact decide_eq_decide.mpr (by omega)
  | succ k ih =>
    have hand : a &&& b ≤ a := Nat.and_le_left
    have hdiv : (a &&& b) / 2 = a / 2 &&& b / 2 := Nat.and_div_two
    have hmod := hle a b
    have hhalf : (a - (a &&& b)) / 2 = a / 2 - (a / 2 &&& b / 2) := by omega
    rw [Nat.testBit_add_one, hhalf, ih, ← Nat.testBit_add_one, ← Nat.testBit_add_one]

/-- A word of 32 bits shifted to its place shows there alone. -/
theorem testBit_word (v : BitVec 32) (lo k : Nat) :
    (v.toNat * 2 ^ lo).testBit k = (decide (lo ≤ k) && decide (k < lo + 32) && v.getLsbD (k - lo)) := by
  rw [Nat.testBit_mul_two_pow, ← BitVec.testBit_toNat]
  by_cases hk : k < lo + 32
  · simp [hk]
  · have hv : v.toNat.testBit (k - lo) = false :=
      Nat.testBit_lt_two_pow (v.isLt.trans_le (Nat.pow_le_pow_right (by decide) (by omega)))
    simp [hv]

/-- A number whose field of 32 bits at `lo` takes a value. -/
def putWord (n lo v : Nat) : Nat := n - bits n (lo + 31) lo * 2 ^ lo + v * 2 ^ lo

/-- It is what stands above the field, the value, and what stands below. -/
theorem putWord_eq (n lo v : Nat) : putWord n lo v = 2 ^ lo * (2 ^ 32 * (n / 2 ^ lo / 2 ^ 32) + v) + n % 2 ^ lo := by
  have hfield : bits n (lo + 31) lo = n / 2 ^ lo % 2 ^ 32 := by rw [bits, show lo + 31 + 1 - lo = 32 by omega]
  have hlow := Nat.div_add_mod n (2 ^ lo)
  have hhigh := Nat.div_add_mod (n / 2 ^ lo) (2 ^ 32)
  have hn : n = 2 ^ lo * (2 ^ 32 * (n / 2 ^ lo / 2 ^ 32)) + n / 2 ^ lo % 2 ^ 32 * 2 ^ lo + n % 2 ^ lo := by
    conv_lhs => rw [← hlow, ← hhigh]
    ring
  have hv : 2 ^ lo * (2 ^ 32 * (n / 2 ^ lo / 2 ^ 32) + v) = 2 ^ lo * (2 ^ 32 * (n / 2 ^ lo / 2 ^ 32)) + v * 2 ^ lo := by ring
  rw [putWord, hfield, hv]
  omega

/-- The value shows in the field, and every other bit is as it was. -/
theorem testBit_putWord (n lo k : Nat) (v : BitVec 32) :
    (putWord n lo v.toNat).testBit k = if lo ≤ k ∧ k < lo + 32 then v.getLsbD (k - lo) else n.testBit k := by
  rw [putWord_eq, Nat.testBit_two_pow_mul_add _ (Nat.mod_lt _ (Nat.two_pow_pos lo)), Nat.testBit_mod_two_pow]
  by_cases hlo : k < lo
  · rw [if_pos hlo, if_neg (by omega), decide_eq_true hlo, Bool.true_and]
  · rw [if_neg hlo, Nat.testBit_two_pow_mul_add _ v.isLt, BitVec.testBit_toNat]
    by_cases hhi : k < lo + 32
    · rw [if_pos (by omega), if_pos ⟨by omega, hhi⟩]
    · rw [if_neg (by omega), if_neg (by omega), ← Nat.testBit_add, ← Nat.testBit_add]
      congr 1
      omega

/-! ### Event registers -/

section
variable {t : Fin 16} {w : Fin 4} {v : BitVec 32} {frac : Byte} {s : State}

/-- A tenant without a function has no registers. -/
theorem leaves_registers_none (h : s.chip.hasFunction t.val = false) :
    Leaves (.stcLoRead t frac) s s.chip ∧ Leaves (.evtStatusClear t w v) s s.chip ∧ Leaves (.evtEnable t w v) s s.chip := by
  have hf {f : Chip → Chip} : when_ (s.chip.hasFunction t.val) f s.chip = s.chip := by rw [h]; rfl
  exact ⟨leaves_onChip (execStcLoRead.eq_def t frac s) hf, leaves_onChip (execEvtStatusClear.eq_def t w v s) hf,
    leaves_onChip (execEvtEnable.eq_def t w v s) hf⟩

variable (h : s.chip.hasFunction t.val = true)
include h

theorem leaves_stcLoRead : Leaves (.stcLoRead t frac) s (latchStc t.val frac.toNat s.chip) :=
  leaves_onChip (execStcLoRead.eq_def t frac s) (by rw [h]; rfl)

theorem leaves_evtStatusClear : Leaves (.evtStatusClear t w v) s (clearEvents t.val w.val v.toNat s.chip) :=
  leaves_onChip (execEvtStatusClear.eq_def t w v s) (by rw [h]; rfl)

theorem leaves_evtEnable : Leaves (.evtEnable t w v) s (setEnableWord t.val w.val v.toNat s.chip) :=
  leaves_onChip (execEvtEnable.eq_def t w v s) (by rw [h]; rfl)

end

/-- A message sent or made pending leaves the enables. -/
theorem evtEnable_msix (t k : Nat) (c : Chip) : ((msix t k c).tenant t).evtEnable = (c.tenant t).evtEnable := by
  unfold msix
  split
  · rfl
  · rw [tenant_modTenant_same]

/-- The enables take the value, whatever messages it sends. -/
theorem evtEnable_setEnables (t v : Nat) (c : Chip) : ((setEnables t v c).tenant t).evtEnable = v % 2 ^ 128 := by
  have hset : ((modTenant t (fun x => { x with evtEnable := v % 2 ^ 128 }) c).tenant t).evtEnable = v % 2 ^ 128 := by
    rw [tenant_modTenant_same]
  unfold setEnables
  dsimp only
  split
  · exact forEach_keeps (fun d => (d.tenant t).evtEnable = v % 2 ^ 128) _ _ _ (fun k _ d hd => (evtEnable_msix t k d).trans hd) hset
  · exact hset

/-- Below 128 bits the word written is the word enabled. -/
theorem bit_setEnableWord {t k : Nat} {w : Fin 4} {v : BitVec 32} {c : Chip} (hk : k < 128) :
    bit ((setEnableWord t w.val v.toNat c).tenant t).evtEnable k =
      if 32 * w.val ≤ k ∧ k < 32 * w.val + 32 then v.getLsbD (k - 32 * w.val) else bit (c.tenant t).evtEnable k := by
  have hword : ((setEnableWord t w.val v.toNat c).tenant t).evtEnable =
      putWord (c.tenant t).evtEnable (32 * w.val) v.toNat % 2 ^ 128 := evtEnable_setEnables t _ c
  rw [hword, bit, Nat.testBit_mod_two_pow, decide_eq_true hk, Bool.true_and, testBit_putWord, bit]

/-! ### Tenant.Events.Pending (R415) -/

theorem area_tenantEventsPending : ∀ t : Fin 16, objAreaOf (Obj.tenantEventsPending t.val) = 0x10 := by decide

/-- Every path carries at least 48 octets of data (R422). -/
theorem le_pathLimit (p : Path) : 48 ≤ pathLimit p := by
  unfold pathLimit
  split <;> decide

/-- A read of all 16 octets clears every pending source. -/
theorem pendingRead_all {t lim : Nat} (c : Chip) (hlim : 16 ≤ lim) :
    pendingRead t 0 lim c = (leBytes 16 (c.tenant t).evtStatus, modTenant t (fun x => { x with evtStatus := 0 }) c) := by
  have hlen : (leBytes 16 (c.tenant t).evtStatus).length = 16 := length_leBytes _ _
  have hout : ((leBytes 16 (c.tenant t).evtStatus).drop 0).take lim = leBytes 16 (c.tenant t).evtStatus := by
    rw [List.drop_zero, List.take_of_length_le (hlen.trans_le hlim)]
  have hkept : patch (leBytes 16 (c.tenant t).evtStatus) 0 (zeros 16) = zeros 16 := by
    have hrest : (leBytes 16 (c.tenant t).evtStatus).drop (0 + (zeros 16).length) = [] := List.drop_eq_nil_of_le hlen.le
    rw [patch, hrest, hlen]
    rfl
  unfold pendingRead
  dsimp only
  rw [hout, hlen, hkept]
  rfl

section
variable {r : Req} {t : Fin 16} {a : Nat} {s : State} (hr : Reaches r.path (readMsg r (Obj.tenantEventsPending t.val) 0) s)
  (ha : actingMaster s.chip r.path = some a)
include hr ha

theorem exec_pendingRead_noAccess (hm : (judged r.path s).chip.may 0x01 0x10 a 0 = false) :
    Leaves (.pendingRead r t) s (respond r.path (readMsg r (Obj.tenantEventsPending t.val) 0) (some a)
      { status := St.noAccess } (judged r.path s).chip) := by
  have hmay : mayReadArea (judged r.path s).chip (actingMaster s.chip r.path) (Obj.tenantEventsPending t.val) = false := by
    rw [ha, mayReadArea, area_tenantEventsPending, hm]
  rw [← ha]
  exact congrArg Host.Outcome.next ((serve_answers (x := (judged r.path s, { status := St.noAccess })) hr
    (if_neg (Bool.eq_false_iff.mp hmay)) rfl).trans (judged_state r.path s _))

theorem exec_pendingRead (hm : (judged r.path s).chip.may 0x01 0x10 a 0 = true) :
    Leaves (.pendingRead r t) s (respond r.path (readMsg r (Obj.tenantEventsPending t.val) 0) (some a)
      { status := St.ok, data := leBytes 16 ((judged r.path s).chip.tenant t.val).evtStatus }
      (modTenant t.val (fun x => { x with evtStatus := 0 }) (judged r.path s).chip)) := by
  have hmay : mayReadArea (judged r.path s).chip (actingMaster s.chip r.path) (Obj.tenantEventsPending t.val) = true := by
    rw [ha, mayReadArea, area_tenantEventsPending, hm]
  have hall := pendingRead_all (t := t.val) (judged r.path s).chip (le_trans (by decide) (le_pathLimit r.path))
  rw [← ha]
  refine congrArg Host.Outcome.next ((serve_answers hr (if_pos hmay) rfl).trans ?_)
  dsimp only
  rw [hall, judged_state]

end

/-! ### Mailboxes (R407) -/

section
variable {t : Fin 16} {m : Fin 4} {tag : BitVec 32} {request : List Byte} {s : State}

/-- The mailbox's record. -/
def mailbox (c : Chip) (i : Nat) : Mailbox := tget {} c.work.mailboxes i

theorem mailbox_modMail_same (c : Chip) (i : Nat) (f : Mailbox → Mailbox) : mailbox (modMail i f c) i = f (mailbox c i) :=
  tget_tmod_same _ _ _ _

/-- A doorbell changes nothing while the mailbox is in use. -/
theorem leaves_mailboxDoorbell_busy (h : (mailbox s.chip (4 * t.val + m.val)).state ≠ .idle) :
    Leaves (.mailboxDoorbell t m tag request) s s.chip :=
  leaves_onChip (execMailboxDoorbell.eq_def t m tag request s) (if_neg h)

/-- On an idle one, of a tenant that is active, it queues the request and takes the lease. -/
theorem leaves_mailboxDoorbell (h : (mailbox s.chip (4 * t.val + m.val)).state = .idle) (ht : s.chip.tenantState t.val = .active) :
    let i := 4 * t.val + m.val
    Leaves (.mailboxDoorbell t m tag request) s (leaseSet 6 i (0x10 + t.val) noTerm (modWork (fun w => { w with mailOrder := w.mailOrder ++ [i] })
      (modMail i (fun x => { x with state := .request })
        (modMail i (fun x => { x with tag := tag.toNat, length := request.length, request := request.take 2032 }) s.chip)))) := by
  intro i
  have hidle : (mailbox (modMail i (fun x => { x with tag := tag.toNat, length := request.length, request := request.take 2032 }) s.chip) i).state =
      .idle := (congrArg Mailbox.state (mailbox_modMail_same s.chip i _)).trans h
  exact leaves_onChip (execMailboxDoorbell.eq_def t m tag request s) ((if_pos h).trans (if_pos ⟨ht, hidle⟩))

/-- A request that is served is not withdrawn. -/
theorem leaves_mailboxWithdraw_busy (h : (mailbox s.chip (4 * t.val + m.val)).state = .busy) : Leaves (.mailboxWithdraw t m) s s.chip :=
  leaves_onChip (execMailboxWithdraw.eq_def t m s) (if_pos h)

/-- Any other leaves its mailbox idle and the order of service. -/
theorem completes_mailboxWithdraw (h : (mailbox s.chip (4 * t.val + m.val)).state ≠ .busy) : Completes (.mailboxWithdraw t m) s (fun u =>
    (mailbox u.chip (4 * t.val + m.val)).state = .idle ∧ 4 * t.val + m.val ∉ u.chip.work.mailOrder) := by
  refine ⟨_, leaves_onChip (execMailboxWithdraw.eq_def t m s) (if_neg h), ?_, ?_⟩
  · exact congrArg Mailbox.state (mailbox_modMail_same s.chip (4 * t.val + m.val) (fun x => { x with state := .idle }))
  · exact fun hmem => absurd (List.mem_filter.mp hmem).2 (by simp [mix])

/-- With no mailbox in the order, or during a restart, none is served. -/
theorem leaves_mailboxTake_none (h : s.chip.work.mailOrder = [] ∨ s.chip.work.supervisor.restarting = true) :
    Leaves .mailboxTake s s.chip := by
  refine (execMailboxTake.eq_def s).trans ?_
  dsimp only
  split
  · rfl
  · rename_i hr
    simp only [h.resolve_right hr]

/-- The first in the order is served over its own path. -/
theorem exec_mailboxTake {rest : List Nat} (hr : s.chip.work.supervisor.restarting = false)
    (h : s.chip.work.mailOrder = (4 * t.val + m.val) :: rest) : exec .mailboxTake s =
      .next (serveMsg (.mailbox t m) (parseMsg ((mailbox s.chip (4 * t.val + m.val)).request.take (mailbox s.chip (4 * t.val + m.val)).length) false)
        { s with chip := modWork (fun w => { w with mailOrder := rest }) (modMail (4 * t.val + m.val) (fun x => { x with state := .busy }) s.chip) }) := by
  have htenant : Fin.ofNat 16 ((4 * t.val + m.val) / 4) = t := Fin.ext (by simp [Fin.ofNat]; omega)
  have hmail : Fin.ofNat 4 (4 * t.val + m.val) = m := Fin.ext (by simp [Fin.ofNat])
  refine (execMailboxTake.eq_def s).trans ((if_neg (Bool.eq_false_iff.mp hr)).trans ?_)
  simp only [h, htenant, hmail]
  rfl

end

/-! ### Access tables (R411 to R414) -/

/-- The table a unit's key holds after the keys of a list took `tbl`, where the key is none of them. -/
theorem tget_foldl_tset_other {tbl : List Byte} {key : Nat} (keys : List Nat) (h : key ∉ keys) (t : Table (List Byte)) :
    tget [] (keys.foldl (fun t u => tset [] t u tbl) t) key = tget [] t key := by
  induction keys generalizing t with
  | nil => rfl
  | cons k keys ih =>
    obtain ⟨hk, hkeys⟩ := List.ne_and_not_mem_of_not_mem_cons h
    exact (ih hkeys _).trans (tget_tset_other _ _ _ hk)

section
variable (c : Chip) (store : Bool) (k first count : Nat) (tbl : List Byte)

/-- A fixed entry is what its table says (R412). -/
theorem may_applyAccess_const {kind unit master right : Nat} (h : accessConst kind master = true) :
    (applyAccess c store k first count tbl).may kind unit master right = c.may kind unit master right := by
  rw [Chip.may, Chip.may, Chip.accessEntry, Chip.accessEntry, if_pos h, if_pos h]

/-- A table of another kind is not reached. -/
theorem may_applyAccess_other {kind unit master right : Nat} (hk : kind ≠ k) (hu : unit < 65536) (hfit : first + count ≤ 65536) :
    (applyAccess c store k first count tbl).may kind unit master right = c.may kind unit master right := by
  have hkey : tget [] (applyAccess c store k first count tbl).work.access (kind * 65536 + unit) =
      tget [] c.work.access (kind * 65536 + unit) := by
    refine tget_foldl_tset_other _ (fun hmem => ?_) _
    obtain ⟨j, hj, he⟩ := List.mem_map.mp hmem
    have hj' : j < count := List.mem_range.mp hj
    omega
  rw [Chip.may, Chip.may, Chip.accessEntry, Chip.accessEntry, hkey]
  rfl

end

/-- Access.Write runs its rule, with or without the copy in flash. -/
theorem exec_accessApply (r : Req) (store : Bool) (s : State) :
    exec (if store then .accessApplyStore r else .accessApply r) s =
      serveRow r Obj.accessWrite [if store then 2 else 1] (accessAct store) s := by cases store <;> rfl

section
variable {r : Req} {a : Nat} {store : Bool} {s : State} (hw : Writes r a Obj.accessWrite [if store then 2 else 1] s)
include hw

/-- Units that the kind does not have are a bad value. -/
theorem answers_accessApply_badValue (h : (judged r.path s).chip.num Obj.accessKind = 0 ∨
      accessUnits ((judged r.path s).chip.num Obj.accessKind) <
        (judged r.path s).chip.num Obj.accessFirst + (judged r.path s).chip.num Obj.accessCount ∨
      (judged r.path s).chip.num Obj.accessCount = 0) :
    Answers (if store then .accessApplyStore r else .accessApply r) r a Obj.accessWrite [if store then 2 else 1] s
      (setNum Obj.accessResult 2 (judged r.path s).chip) St.badValue :=
  (exec_accessApply r store s).trans (serveRow_chip hw (if_pos h))

variable (hk : 0 < (judged r.path s).chip.num Obj.accessKind)
  (hfit : (judged r.path s).chip.num Obj.accessFirst + (judged r.path s).chip.num Obj.accessCount ≤
    accessUnits ((judged r.path s).chip.num Obj.accessKind))
  (hc : 0 < (judged r.path s).chip.num Obj.accessCount)
include hk hfit hc

/-- A unit on which the master lacks A refuses the table (R413). -/
theorem answers_accessApply_noAccess (h : ∃ j, j < (judged r.path s).chip.num Obj.accessCount ∧
      (judged r.path s).chip.may ((judged r.path s).chip.num Obj.accessKind) ((judged r.path s).chip.num Obj.accessFirst + j) a 3 = false) :
    Answers (if store then .accessApplyStore r else .accessApply r) r a Obj.accessWrite [if store then 2 else 1] s
      (setNum Obj.accessResult 6 (judged r.path s).chip) St.noAccess := by
  obtain ⟨j, hj, hmay⟩ := h
  refine (exec_accessApply r store s).trans (serveRow_chip hw ((if_neg (by omega)).trans (if_pos ?_)))
  simp only [Bool.not_eq_true', List.all_eq_false]
  exact ⟨j, List.mem_range.mpr hj, by rw [hmay]; decide⟩

/-- Else it lands on the units; only bus kinds have a quota to keep (R414). -/
theorem answers_accessApply (h6 : (judged r.path s).chip.num Obj.accessKind ≠ 6) (h7 : (judged r.path s).chip.num Obj.accessKind ≠ 7)
    (h : ∀ j, j < (judged r.path s).chip.num Obj.accessCount →
      (judged r.path s).chip.may ((judged r.path s).chip.num Obj.accessKind) ((judged r.path s).chip.num Obj.accessFirst + j) a 3 = true) :
    let c := (judged r.path s).chip
    Answers (if store then .accessApplyStore r else .accessApply r) r a Obj.accessWrite [if store then 2 else 1] s
      (setNum Obj.accessResult 0 (applyAccess c store (c.num Obj.accessKind) (c.num Obj.accessFirst) (c.num Obj.accessCount)
        (slice c.work.accessStaged 0 128))) St.ok := by
  intro c
  refine (exec_accessApply r store s).trans (serveRow_chip hw ((if_neg (by omega)).trans ((if_neg ?_).trans (if_pos ?_))))
  · refine not_negb_of_true (List.all_eq_true.mpr fun j hj => h j (List.mem_range.mp hj))
  · rw [List.isEmpty_iff, List.filter_eq_nil_iff]
    intro t _
    simp [h6, h7]

end

/-! ### The obligation -/

/-- Settles O41: registers by whether the tenant has a function, mailboxes by their state, tables by the master's rights. -/
theorem registersMailboxesAndTables : Obligations.RegistersMailboxesAndTables := by
  refine ⟨fun t frac w v s => ?_, fun r t a s => ?_, fun t m tag request s => ?_, fun r a store s => ?_⟩
  · intro c
    refine ⟨leaves_registers_none, fun h => ⟨⟨_, leaves_stcLoRead h, rfl, ?_, ?_, fun n hn => tenant_modTenant_other c _ hn⟩,
      ⟨_, leaves_evtStatusClear h, fun k => ?_⟩, ⟨_, leaves_evtEnable h, fun k hk _ => bit_setEnableWord hk⟩⟩⟩
    · exact congrArg Tenant.stcHi (tenant_modTenant_same c t.val _)
    · exact congrArg Tenant.stcFrac (tenant_modTenant_same c t.val _)
    · rw [show ((clearEvents t.val w.val v.toNat s.chip).tenant t.val).evtStatus = _ from
        congrArg Tenant.evtStatus (tenant_modTenant_same c t.val _), bit, testBit_sub_and, testBit_word, bit]
  · intro m c hr ha
    exact ⟨exec_pendingRead_noAccess hr ha, exec_pendingRead hr ha⟩
  · intro c i x
    refine ⟨leaves_mailboxDoorbell_busy, fun h ht => ⟨_, leaves_mailboxDoorbell h ht, ?_, rfl, ?_⟩, leaves_mailboxWithdraw_busy,
      completes_mailboxWithdraw, leaves_mailboxTake_none, fun rest hr h => exec_mailboxTake hr h⟩
    · have hput := mailbox_modMail_same c i (fun x => { x with tag := tag.toNat, length := request.length, request := request.take 2032 })
      exact (mailbox_modMail_same (modMail i _ c) i (fun x => { x with state := .request })).trans
        (congrArg (fun x : Mailbox => { x with state := .request }) hput)
    · exact List.mem_append_right _ List.mem_cons_self
  · intro c k first count data command applied hw
    exact ⟨answers_accessApply_badValue hw, fun hk hfit hc h => answers_accessApply_noAccess hw hk hfit hc h,
      fun hk h6 h7 hfit hc h => answers_accessApply hw hk hfit hc h6 h7 h, fun unit master right h => may_applyAccess_const _ _ _ _ _ _ h,
      fun kind unit master right h hu hf => may_applyAccess_other _ _ _ _ _ _ h hu hf⟩

end Sys2Proof.Machine
end

section
/-!
SUPPORT. O39: tenants that are enabled and reset (R386 to R389, R488, R489), queues that are enabled, disabled and halted (R390, R392,
R416), prefetch (R400), dispatch (R398), and the coalescing timer (R394, R408).
-/

namespace Sys2Proof.Machine

/-! ### Tenants -/

section
variable {r : Req} {a : Nat} {t : Fin 16} {s : State}

/-- An enable is always taken. -/
theorem answers_tenantEnable_on (hw : Writes r a (Obj.tenantEnable t.val) [1] s) : Answers (.tenantEnable r t true) r a (Obj.tenantEnable t.val) [1] s
    (setNum (Obj.tenantEnable t.val) 1 (judged r.path s).chip) St.ok := serveRow_chip hw rfl

/-- A disable is taken from a tenant other than 0 that owns nothing and whose queues are all DISABLED (R386). -/
theorem answers_tenantEnable_off {c : Chip} {x : Nat} (hw : Writes r a (Obj.tenantEnable t.val) [0] s)
    (h : (if t.val = 0 then ((judged r.path s).chip, St.refused)
      else if (upTo 28).any (fun q => ((judged r.path s).chip.queue (qix t.val q)).state != .disabled) || tenantOwns (judged r.path s).chip t.val
        then ((judged r.path s).chip, St.busy)
      else (setNum (Obj.tenantEnable t.val) 0 (judged r.path s).chip, St.ok)) = (c, x)) :
    Answers (.tenantEnable r t false) r a (Obj.tenantEnable t.val) [0] s c x := serveRow_chip hw h

/-- A tenant that owns something or has a queue that is not DISABLED keeps its enable. -/
theorem tenantInUse_iff {c : Chip} : ((upTo 28).any (fun q => (c.queue (qix t.val q)).state != .disabled) || tenantOwns c t.val) = true ↔
    (tenantOwns c t.val = true ∨ ∃ q, q < 28 ∧ (c.queue (32 * t.val + q)).state ≠ .disabled) := by
  rw [Bool.or_eq_true, List.any_eq_true, or_comm]
  refine or_congr_right (exists_congr fun q => and_congr List.mem_range bne_iff_ne)

/-- A path by which a WRITE reaches its object's rule is no BAR0 window. -/
theorem Writes.path_ne_bar {o : Nat} {data : List Byte} (hw : Writes r a o data s) (f : Fin 16) : r.path ≠ .bar f := by
  obtain ⟨-, hr, -⟩ := hw
  intro h
  have := hr.1
  rw [h] at this
  cases this

/-- A reset asked for through Tenant.Reset starts and answers OK. -/
theorem askReset_writes {discard : Bool} (hw : Writes r a (Obj.tenantReset t.val) [if discard then 2 else 1] s) :
    askReset r t.val discard s = .next (answered r a (Obj.tenantReset t.val) [if discard then 2 else 1]
      ({ s with chip := startTenantReset t.val discard (judged r.path s).chip }, St.ok)) := by
  unfold askReset
  split
  · exact absurd ‹_› (hw.path_ne_bar _)
  · exact serveRow_chip hw rfl

/-- One asked for through FN_CTL starts on the function's own tenant (R391). -/
theorem askReset_bar {t : Nat} {f : Fin 16} {discard : Bool} (hp : r.path = .bar f) (hf : s.chip.hasFunction f.val = true) :
    askReset r t discard s = .next { s with chip := startTenantReset f.val discard s.chip } := by
  unfold askReset
  rw [hp]
  dsimp only
  rw [State.onChip, hf]
  rfl

end

section
variable {t : Fin 16} {on : Bool} {s : State} {c : Chip}

theorem leaves_flr (h : (if s.chip.hasFunction t.val then
      startTenantReset t.val false (modTenant t.val (fun x => { x with inFlr := true }) s.chip) else s.chip) = c) : Leaves (.flr t) s c :=
  leaves_onChip (execFlr.eq_def t s) h

theorem leaves_resetDone (h : (if (s.chip.tenant t.val).resetting then
      raise t.val 35 (modTenant t.val (fun x => { x with resetting := false, inFlr := false }) s.chip) else s.chip) = c) :
    Leaves (.resetDone t) s c := leaves_onChip (execResetDone.eq_def t s) h

theorem leaves_vfEnable (h : (if t.val = 0 then s.chip else modTenant t.val (fun x => { x with vfEnabled := on }) s.chip) = c) :
    Leaves (.vfEnable t on) s c := leaves_onChip (execVfEnable.eq_def t on s) h

/-- An event source changes EVT_STATUS and the pending messages of its tenant alone. -/
theorem tenant_raise (t v : Nat) (c : Chip) : ∃ status pba, (raise t v c).tenant t = { c.tenant t with evtStatus := status, pba := pba } := by
  unfold raise when_ msix
  dsimp only
  split_ifs
  · exact ⟨_, _, rfl⟩
  · exact ⟨_, _, tenant_modTenant_same _ _ _⟩
  · exact ⟨_, _, by rw [tenant_modTenant_same, tenant_modTenant_same]⟩
  · exact ⟨_, _, tenant_modTenant_same _ _ _⟩

/-- The tenant whose reset is done stands as before it, and is told so (R488). -/
theorem completes_resetDone (h : (s.chip.tenant t.val).resetting = true) : Completes (.resetDone t) s (fun u =>
    (u.chip.tenant t.val).resetting = false ∧ (u.chip.tenant t.val).inFlr = false ∧ bit (u.chip.tenant t.val).evtStatus 35 = true ∧
    u.chip.mem = s.chip.mem) := by
  obtain ⟨status, pba, hx⟩ := tenant_raise t.val 35 (modTenant t.val (fun x => { x with resetting := false, inFlr := false }) s.chip)
  rw [tenant_modTenant_same] at hx
  exact ⟨_, leaves_resetDone (if_pos h), (congrArg Tenant.resetting hx :), (congrArg Tenant.inFlr hx :), evtStatus_raise _ _ _,
    (SameUnits.raise _ _ _).mem⟩

end

/-! ### Queues that halt (R389, R390) -/

section
variable {s : State}

/-- Where no queue was configured, none goes down with the link. -/
theorem leaves_linkDown_none (h : s.chip.work.queues = []) : Leaves .linkDown s s.chip := by
  refine leaves_onChip (execLinkDown.eq_def s) ?_
  rw [h]
  rfl

/-- The only queue of a function goes down with it, and keeps its place in the ring. -/
theorem completes_linkDown_one {i : Nat} {q : Queue} (h : s.chip.work.queues = [(i, q)]) (hi : i < 512) (hk : i % 32 < 28)
    (hf : s.chip.hasFunction (i / 32) = true) (hq : q.state ≠ .disabled) : Completes .linkDown s (fun u =>
      (u.chip.queue i).state = .halted ∧ (u.chip.queue i).error = .linkDown ∧ (u.chip.queue i).prefetch = [] ∧
      (u.chip.queue i).head = q.head ∧ (u.chip.queue i).tail = q.tail) := by
  have hx : s.chip.queue i = q := by simp [Chip.queue, h, tget]
  have hkeys : (tkeys s.chip.work.queues 0 512).filter (fun i => decide (i % 32 < 28) && s.chip.hasFunction (i / 32)) = [i] := by
    rw [h]
    simp [tkeys, hi, hk, hf]
  have hdown : Leaves .linkDown s (haltQueue i .linkDown (modQueue i (fun q => { q with prefetch := [] }) s.chip)) := by
    refine leaves_onChip (execLinkDown.eq_def s) ?_
    dsimp only
    rw [hkeys]
    exact if_neg (by rw [hx]; exact hq)
  have hhalt := queue_haltQueue_same i .linkDown (modQueue i (fun q => { q with prefetch := [] }) s.chip)
  rw [queue_modQueue_same, hx] at hhalt
  exact ⟨_, hdown, (congrArg Queue.state hhalt :), (congrArg Queue.error hhalt :), (congrArg Queue.prefetch hhalt :),
    (congrArg Queue.head hhalt :), (congrArg Queue.tail hhalt :)⟩

/-- A failed transfer halts a queue that runs (R390). -/
theorem leaves_dmaError {t : Fin 16} {q : Fin 28} {c : Chip} (h : (if (s.chip.queue (qix t.val q.val)).state = .running then
      haltQueue (qix t.val q.val) .dmaError s.chip else s.chip) = c) : Leaves (.dmaError t q) s c :=
  leaves_onChip (execDmaError.eq_def t q s) ((when_eq_ite beq_iff_eq _ _).trans h)

end

/-! ### Q_CFG and Q_SEQ (R392, R416) -/

theorem width_queueConfig : ∀ q : Fin 512, objWidth (Obj.queueConfig q.val) = 4 := by decide +kernel

section
variable {r : Req} {a w : Nat} {q : Fin 512} {s : State}

section
variable (hw : Writes r a (Obj.queueConfig q.val) (leBytes 4 w) s) (hm : queueMay (judged r.path s).chip r.path a q.val = true)
  (hk : q.val % 32 < 28)
include hw hm hk

/-- A write of Q_CFG by message that changes another field of a queue that is not DISABLED answers BUSY. -/
theorem serveRow_queueConfig_busy (hb : cfgBusy (judged r.path s).chip r.path q.val w = true) :
    serveRow r (Obj.queueConfig q.val) (leBytes 4 w) (cfgAct r.path q.val w) s =
      .next (answered r a (Obj.queueConfig q.val) (leBytes 4 w) ({ s with chip := (judged r.path s).chip }, St.busy)) :=
  serveRow_writes hw ((if_neg (not_negb_of_true hm)).trans ((if_neg (by omega)).trans ((if_pos hb).trans
    (congrArg (·, St.busy) (judged_state r.path s _)))))

/-- Any other takes effect. -/
theorem serveRow_queueConfig {c : Chip} (hb : cfgBusy (judged r.path s).chip r.path q.val w = false)
    (hc : (if bit w 31 then queueEnable q.val w (judged r.path s).chip else queueDisable q.val w (judged r.path s).chip) = c) :
    serveRow r (Obj.queueConfig q.val) (leBytes 4 w) (cfgAct r.path q.val w) s =
      .next (answered r a (Obj.queueConfig q.val) (leBytes 4 w) ({ s with chip := c }, St.ok)) := by
  subst hc
  exact serveRow_writes hw ((if_neg (not_negb_of_true hm)).trans ((if_neg (by omega)).trans ((if_neg (Bool.eq_false_iff.mp hb)).trans
    (congrArg (·, St.ok) (judged_state r.path s _)))))

end

/-- Through the BAR0 window of the queue's own tenant it takes effect with no answer (R391). -/
theorem serveRow_queueConfig_bar {f : Fin 16} {c : Chip} (hp : r.path = .bar f) (hf : s.chip.hasFunction f.val = true) (hown : f.val = q.val / 32)
    (hk : q.val % 32 < 28) (hm : s.chip.may 0x16 q.val (0x10 + f.val) 1 = true) (hb : barRegister f.val (Obj.queueConfig q.val) = true)
    (hc : (if bit w 31 then queueEnable q.val w s.chip else queueDisable q.val w s.chip) = c) :
    serveRow r (Obj.queueConfig q.val) (leBytes 4 w) (cfgAct r.path q.val w) s = .next { s with chip := c } := by
  subst hc
  have ho : (BitVec.ofNat 32 (Obj.queueConfig q.val)).toNat = Obj.queueConfig q.val := by
    rw [BitVec.toNat_ofNat]
    exact Nat.mod_eq_of_lt (by simp only [Obj.queueConfig]; omega)
  have hlen : ((leBytes 4 w).length == objWidth (Obj.queueConfig q.val)) = true := by rw [length_leBytes, width_queueConfig]; rfl
  have hmay : queueMay s.chip (.bar f) (0x10 + f.val) q.val = true := by rw [queueMay, hm, hown]; simp
  have hact : (cfgAct (.bar f) q.val w (0x10 + f.val) s).1 =
      { s with chip := if bit w 31 then queueEnable q.val w s.chip else queueDisable q.val w s.chip } :=
    congrArg Prod.fst ((if_neg (not_negb_of_true hmay)).trans ((if_neg (by omega)).trans (if_neg Bool.false_ne_true)))
  unfold serveRow
  rw [hp]
  refine congrArg Host.Outcome.next (Eq.trans (b := barWrite f.val (writeMsg r (Obj.queueConfig q.val) (leBytes 4 w)) (cfgAct (.bar f) q.val w) s)
    rfl ((if_pos ?_).trans hact))
  simp only [writeMsg, ho, hf, hb, hlen, Bool.and_self]

end

/-- ENABLE is bit 31 of the word written. -/
theorem bit_enable (fields : BitVec 31) : bit (0x80000000 + fields.toNat) 31 = true := by
  rw [bit, show 0x80000000 = 2 ^ 31 from rfl, Nat.testBit_two_pow_add_eq, Nat.testBit_lt_two_pow fields.isLt]
  rfl

theorem bit_disable (fields : BitVec 31) : bit fields.toNat 31 = false := Nat.testBit_lt_two_pow fields.isLt

section
variable {i w : Nat} {c : Chip}

/-- The record of a queue that was DISABLED once it has its fields. -/
def configured (i w : Nat) (c : Chip) : Queue := { c.queue i with cfg := (w ||| 0x80000000) &&& cfgFields }

/-- The chip once the queue has its fields. -/
def withConfig (i w : Nat) (c : Chip) : Chip := modQueue i (fun _ => configured i w c) c

variable (h : (c.queue i).state = .disabled)
include h

theorem queueEnable_of_badConfig (hb : badConfig (withConfig i w c) i (configured i w c) = true) :
    queueEnable i w c = haltQueue i .badConfig (withConfig i w c) := by
  unfold queueEnable
  dsimp only
  rw [if_neg (by rw [h]; exact nofun), if_pos h]
  exact if_pos hb

theorem queueEnable_of_overQuota (hb : badConfig (withConfig i w c) i (configured i w c) = false)
    (hq : overHostQuota (withConfig i w c) i (configured i w c) = true) :
    queueEnable i w c = raise (i / 32) 36 (haltQueue i .quota (withConfig i w c)) := by
  unfold queueEnable
  dsimp only
  rw [if_neg (by rw [h]; exact nofun), if_pos h]
  exact (if_neg (Bool.eq_false_iff.mp hb)).trans (if_pos hq)

/-- A queue that is neither an ESQ nor an NQ runs from its enable on. -/
theorem queueEnable_runs (hk : 16 ≤ i % 32) (hb : badConfig (withConfig i w c) i (configured i w c) = false)
    (hq : overHostQuota (withConfig i w c) i (configured i w c) = false) :
    ((queueEnable i w c).queue i).state = .running ∧ ((queueEnable i w c).queue i).phase = true := by
  have hesq : isEsq (i % 32) = false := by unfold isEsq; exact decide_eq_false (by omega)
  have hnq : isNq (i % 32) = false := by unfold isNq; rw [decide_eq_false (show ¬ i % 32 < 16 by omega), Bool.and_false]
  have hx : ∃ q : Queue, ∃ d, q.state = .running ∧ q.phase = true ∧ queueEnable i w c = modQueue i (fun _ => q) d := by
    unfold queueEnable
    dsimp only
    rw [if_neg (by rw [h]; exact nofun), if_pos h]
    refine ⟨_, _, ?_, ?_, (if_neg (Bool.eq_false_iff.mp hb)).trans ((if_neg (Bool.eq_false_iff.mp hq)).trans
      ((if_neg (Bool.eq_false_iff.mp hesq)).trans (if_neg (Bool.eq_false_iff.mp hnq))))⟩
    · rfl
    · exact if_neg (by rw [h]; exact nofun)
  obtain ⟨q, d, hs, hp, hx⟩ := hx
  rw [hx, queue_modQueue_same]
  exact ⟨hs, hp⟩
end

section
variable {i w : Nat} {c : Chip}

/-- A queue that is disabled keeps its SEQ and forgets the rest (R392). -/
theorem queueDisable_reads : ((queueDisable i w c).queue i).state = .disabled ∧ ((queueDisable i w c).queue i).head = 0 ∧
    ((queueDisable i w c).queue i).tail = 0 ∧ ((queueDisable i w c).queue i).prefetch = [] ∧
    ((queueDisable i w c).queue i).seq = (c.queue i).seq := by
  unfold queueDisable
  rw [queue_dropAllMade_same, queue_modQueue_same]
  exact ⟨rfl, rfl, rfl, rfl, rfl⟩

end

/-! ### Prefetch, the coalescing timer and dispatch -/
section
variable {t : Fin 16} {q : Fin 8} {s : State} {c : Chip}

theorem leaves_prefetch {fetched : List (List Byte)} (h : (if ((s.chip.queue (qix t.val q.val)).state == .running &&
      !s.chip.isBound (qix t.val q.val)) = true then prefetchN (qix t.val q.val) (!s.chip.hasFunction t.val) 8 fetched s.chip
      else s.chip) = c) : Leaves (.prefetch t q fetched) s c :=
  leaves_onChip (execPrefetch.eq_def t q fetched s) h

/-- One entry that host memory returned joins the buffer. -/
theorem prefetchN_one {i n : Nat} {e : List Byte} (ho : (c.queue i).outstanding ≠ 0) (hl : (c.queue i).prefetch.length < 8) :
    prefetchN i false (n + 2) [e] c =
      modQueue i (fun x => { x with prefetch := x.prefetch ++ [slice e 0 32], head := (x.head + 1) % x.size }) c := by
  refine (if_neg (by omega)).trans ?_
  exact ite_self _

theorem prefetch_entry {e : List Byte} (hs : (s.chip.queue (qix t.val q.val)).state = .running)
    (hb : s.chip.isBound (qix t.val q.val) = false) (hf : s.chip.hasFunction t.val = true)
    (ho : (s.chip.queue (qix t.val q.val)).outstanding ≠ 0) (hl : (s.chip.queue (qix t.val q.val)).prefetch.length < 8) :
    Leaves (.prefetch t q [e]) s (modQueue (qix t.val q.val) (fun x =>
      { x with prefetch := x.prefetch ++ [slice e 0 32], head := (x.head + 1) % x.size }) s.chip) := by
  refine leaves_prefetch ((if_pos (Bool.and_eq_true_iff.mpr ⟨beq_iff_eq.mpr hs, congrArg (!·) hb⟩)).trans ?_)
  rw [show (!s.chip.hasFunction t.val) = false from congrArg (!·) hf]
  exact prefetchN_one ho hl

/-- Nothing is fetched for a queue that does not run or that an internal producer feeds. -/
theorem prefetch_idle {fetched : List (List Byte)} (h : (s.chip.queue (qix t.val q.val)).state ≠ .running ∨ s.chip.isBound (qix t.val q.val) = true) :
    Leaves (.prefetch t q fetched) s s.chip := by
  refine leaves_prefetch (if_neg ?_)
  rw [Bool.and_eq_true]
  rintro ⟨hrun, hfree⟩
  obtain hs | hb := h
  · exact hs (beq_iff_eq.mp hrun)
  · exact Bool.eq_false_iff.mp ((Bool.not_eq_true' _).mp hfree) hb

/-- Has the first unsignalled entry of a notice queue waited COAL_TIME? -/
def coalDue (n : Queue) (now : Nat) : Bool := match n.unsignalledAt with
  | some a => bits n.bind 15 0 != 0 && decide (a + bits n.bind 15 0 * 1000 ≤ now)
  | none => false

theorem leaves_coalTime (h : (if coalDue (s.chip.queue (qix t.val (8 + q.val))) s.chip.now = true
      then raise t.val (8 + q.val) (modQueue (qix t.val (8 + q.val)) (fun q => { q with unsignalled := 0, unsignalledAt := none }) s.chip)
      else s.chip) = c) : Leaves (.coalTime t q) s c :=
  leaves_onChip (execCoalTime.eq_def t q s) h

theorem coalDue_some {n : Queue} {at_ now : Nat} (h : n.unsignalledAt = some at_) :
    coalDue n now = true ↔ bits n.bind 15 0 ≠ 0 ∧ at_ + bits n.bind 15 0 * 1000 ≤ now := by
  unfold coalDue
  rw [h]
  simp

theorem coalDue_none {n : Queue} {now : Nat} (h : n.unsignalledAt = none) : ¬ coalDue n now = true := by
  unfold coalDue
  rw [h]
  exact Bool.false_ne_true

/-- The queue whose entry has waited signals it (R394, R408). -/
theorem completes_coalTime (h : coalDue (s.chip.queue (qix t.val (8 + q.val))) s.chip.now = true) : Completes (.coalTime t q) s (fun u =>
    (u.chip.queue (qix t.val (8 + q.val))).unsignalled = 0 ∧ (u.chip.queue (qix t.val (8 + q.val))).unsignalledAt = none ∧
    bit (u.chip.tenant t.val).evtStatus (8 + q.val) = true) := by
  refine ⟨_, leaves_coalTime (if_pos h), ?_, ?_, evtStatus_raise _ _ _⟩
  · dsimp only
    rw [queue_raise, queue_modQueue_same]
  · dsimp only
    rw [queue_raise, queue_modQueue_same]

end

section
variable {fails t q p : Nat} {s : State} {c : Chip}

theorem leaves_dispatch_none (h : s.chip.chooseEsq = none) : Leaves (.dispatch fails) s s.chip := by
  refine leaves_onChip (execDispatch.eq_def fails s) ?_
  dsimp only
  rw [h]

/-- What the dispatcher has once it took the entry of the ESQ it chose. -/
def taken (t q p : Nat) (c : Chip) : Chip := servedEsq t q p (modQueue (qix t q) (fun x =>
  if x.made.isEmpty then { x with prefetch := x.prefetch.tail } else { x with made := x.made.tail }) c)

theorem leaves_dispatch_some (h : s.chip.chooseEsq = some (t, q, p))
    (hc : (if entryStatus (taken t q p s.chip) t q (s.chip.nextEntry t q) ≠ 0 then
        rejectEntry t q (entryStatus (taken t q p s.chip) t q (s.chip.nextEntry t q)) (s.chip.nextEntry t q) (taken t q p s.chip)
      else match (placeRecord fails 0 (taken t q p s.chip)).1 with
        | none => rejectEntry t q 8 (s.chip.nextEntry t q) (placeRecord fails 0 (taken t q p s.chip)).2
        | some p' => acceptEntry t q p' (s.chip.nextEntry t q) (placeRecord fails 0 (taken t q p s.chip)).2) = c) :
    Leaves (.dispatch fails) s c := by
  refine leaves_onChip (execDispatch.eq_def fails s) ?_
  dsimp only
  rw [h]
  exact hc
end
section
variable {r : Req} {a v : Nat} {q : Fin 512} {s : State} {c : Chip} {st : Nat}

/-- A write of Q_SEQ by message (R392, R416). -/
theorem serveRow_queueSeq (hw : Writes r a (Obj.queueSeq q.val) (leBytes 4 v) s)
    (h : seqAct r.path q.val v a (judged r.path s) = ({ judged r.path s with chip := c }, st)) :
    serveRow r (Obj.queueSeq q.val) (leBytes 4 v) (seqAct r.path q.val v) s =
      .next (answered r a (Obj.queueSeq q.val) (leBytes 4 v) ({ s with chip := c }, st)) :=
  serveRow_writes hw (h.trans (congrArg (·, st) (judged_state r.path s c)))

theorem seqAct_noAccess {p : Path} {i : Nat} (hm : queueMay s.chip p a i = false) : seqAct p i v a s = (s, St.noAccess) :=
  if_pos (congrArg (!·) hm)

theorem seqAct_busy {p : Path} {i : Nat} (hp : ∀ f, p ≠ .bar f) (hm : queueMay s.chip p a i = true) (hk : i % 32 < 28)
    (hs : (s.chip.queue i).state ≠ .disabled) : seqAct p i v a s = (s, St.busy) := by
  refine (if_neg (not_negb_of_true hm)).trans ((if_neg (by omega)).trans ((if_pos hs).trans ?_))
  cases p with
  | bar f => exact absurd rfl (hp f)
  | _ => rfl

/-- A DISABLED queue takes the SEQ. -/
theorem seqAct_ok {p : Path} {i : Nat} (hm : queueMay s.chip p a i = true) (hlo : 8 ≤ i % 32) (hk : i % 32 < 28)
    (hs : (s.chip.queue i).state = .disabled) :
    seqAct p i v a s = ({ s with chip := modQueue i (fun q => { q with seq := v }) s.chip }, St.ok) := by
  have hesq : ¬ isEsq (i % 32) = true := by unfold isEsq; rw [decide_eq_true_iff]; omega
  refine (if_neg (not_negb_of_true hm)).trans ((if_neg (by omega)).trans ((if_neg (not_not.mpr hs)).trans ?_))
  dsimp only
  rw [if_neg hesq]

/-- From an ESQ the journal expects it next. -/
theorem seqAct_esq {p : Path} {i : Nat} (hm : queueMay s.chip p a i = true) (hk : i % 32 < 8)
    (hs : (s.chip.queue i).state = .disabled) : seqAct p i v a s =
      ({ s with chip := modJournal (fun j => { j with expected := tset 0 j.expected (8 * (i / 32) + i % 32) v }) (modQueue i (fun q => { q with seq := v }) s.chip) },
        St.ok) := by
  have hesq : isEsq (i % 32) = true := by unfold isEsq; rw [decide_eq_true_iff]; exact hk
  refine (if_neg (not_negb_of_true hm)).trans ((if_neg (by omega)).trans ((if_neg (not_not.mpr hs)).trans ?_))
  dsimp only
  rw [if_pos hesq]

end

/-! ### The statement -/

/-- Settles O39: each command through the lemma of its service or of its function; a queue through the state its change leaves. -/
theorem tenantsAndQueues : Obligations.TenantsAndQueues := by
  refine ⟨fun r a t on s => ⟨answers_tenantEnable_on, fun hw => ⟨fun ht => ?_, fun ht hb => ?_, fun ht ho hq => ?_⟩,
      askReset_writes (discard := false), askReset_writes (discard := true), fun f hp hf => ⟨askReset_bar hp hf, askReset_bar hp hf⟩,
      fun h => if_pos h⟩,
    fun t on s => ⟨fun h => leaves_flr (if_neg (Bool.eq_false_iff.mp h)), fun h => leaves_flr (if_pos h),
      fun h => leaves_resetDone (if_neg (Bool.eq_false_iff.mp h)), completes_resetDone, fun h => leaves_vfEnable (if_pos h),
      fun h => leaves_vfEnable (if_neg h)⟩,
    fun s => ⟨leaves_linkDown_none, fun i q h hi hk hf hq => completes_linkDown_one h hi hk hf hq⟩,
    fun t q s => ⟨fun h => leaves_dmaError (if_neg h), fun h => ?_⟩, fun r a q fields v s => ⟨?_, ?_, ?_, ?_, queueDisable_reads, ?_⟩,
    fun t q s => ?_,
    fun fails s => ⟨leaves_dispatch_none, fun t q p h => ⟨fun hne => leaves_dispatch_some h (if_pos hne), fun x hz hp => ?_,
      fun place x hz hp => ?_⟩⟩⟩
  · exact answers_tenantEnable_off hw (if_pos (congrArg Fin.val ht))
  · exact answers_tenantEnable_off hw ((if_neg (Fin.val_ne_of_ne ht)).trans (if_pos (tenantInUse_iff.mpr hb)))
  · refine answers_tenantEnable_off hw ((if_neg (Fin.val_ne_of_ne ht)).trans (if_neg (tenantInUse_iff.not.mpr ?_)))
    rintro (h | ⟨q, hlt, hne⟩)
    · exact Bool.eq_false_iff.mp ho h
    · exact hne (hq q hlt)
  · have hhalt := queue_haltQueue_same (qix t.val q.val) .dmaError s.chip
    exact ⟨_, leaves_dmaError (if_pos h), (congrArg Queue.state hhalt :), (congrArg Queue.error hhalt :), (congrArg Queue.head hhalt :),
      (congrArg Queue.tail hhalt :)⟩
  · exact fun hw hm hk => ⟨serveRow_queueConfig_busy hw hm hk, fun hb => serveRow_queueConfig hw hm hk hb (if_pos (bit_enable fields))⟩
  · exact fun f hp hf hown hk hm hb => ⟨serveRow_queueConfig_bar hp hf hown hk hm hb (if_pos (bit_enable fields)),
      serveRow_queueConfig_bar hp hf hown hk hm hb (if_neg (Bool.eq_false_iff.mp (bit_disable fields)))⟩
  · refine fun hlo _ hs => ⟨fun hb => ?_, fun hb hq => ?_, queueEnable_runs hs hlo⟩
    · rw [queueEnable_of_badConfig hs hb, queue_haltQueue_same]
      exact ⟨rfl, rfl⟩
    · rw [queueEnable_of_overQuota hs hb hq, queue_raise, queue_haltQueue_same]
      exact ⟨rfl, rfl⟩
  · exact fun hw hm hk => ⟨serveRow_queueConfig_busy hw hm hk, fun hb =>
      serveRow_queueConfig hw hm hk hb (if_neg (Bool.eq_false_iff.mp (bit_disable fields)))⟩
  · exact fun hw => ⟨fun hm => serveRow_queueSeq hw (seqAct_noAccess hm),
      fun hm hk hs => serveRow_queueSeq hw (seqAct_busy hw.path_ne_bar hm hk hs),
      fun hm hlo hk hs => serveRow_queueSeq hw (seqAct_ok hm hlo hk hs), fun hm hk hs => serveRow_queueSeq hw (seqAct_esq hm hk hs)⟩
  · rw [show 32 * t.val + 8 + q.val = qix t.val (8 + q.val) from Nat.add_assoc _ _ _]
    exact ⟨fun fetched => prefetch_idle, fun e => prefetch_entry, fun h => leaves_coalTime (if_neg (coalDue_none h)),
      fun at_ hat hne hdue => completes_coalTime ((coalDue_some hat).mpr ⟨hne, hdue⟩),
      fun at_ hat hlt => leaves_coalTime (if_neg fun h => absurd ((coalDue_some hat).mp h).2 (Nat.not_le.mpr hlt))⟩
  · refine leaves_dispatch_some h ((if_neg (not_not.mpr hz)).trans ?_)
    rw [show placeRecord fails 0 (taken t q p s.chip) = (none, x) from hp]
  · refine leaves_dispatch_some h ((if_neg (not_not.mpr hz)).trans ?_)
    rw [show placeRecord fails 0 (taken t q p s.chip) = (some place, x) from hp]

end Sys2Proof.Machine
end

section
/-!
SUPPORT. O46: census records, votes and views (R352, R353, R357), elections (R365), and the two ticks of a loss (R361 to R363, R372).
-/

namespace Sys2Proof.Machine

/-! ### What a relay leaves alone -/

section
variable (p cls type tag : Nat) (fields : List Nat) (c : Chip)

@[simp] theorem relay_chain : (relay p cls type tag fields c).chain = c.chain := by rw [relay_eq]
@[simp] theorem relay_num (o : Nat) : (relay p cls type tag fields c).num o = c.num o := by rw [relay_eq]; rfl

end

/-! ### Census records (R352, R353) -/

/-- A new record is kept and relayed with one hop more. -/
def hearRecord (p : Nat) (r : CensusRec) (c : Chip) : Chip :=
  relay p 5 1 0 { r with hops := (r.hops + 1) % 256 }.fields
    (modChain (fun h => { h with relayed := ((r.serial, r.seq) :: h.relayed).take 1024, newAt := c.now,
                                 recs := h.recs.filter (fun x => x.1.serial != r.serial) ++ [(r, p)] }) c)

/-- Has the chip not sent its own record for 10 ms? -/
def joinsCensus (c : Chip) : Bool := match c.chain.sentAt with | some t => decide (t + 10000000 ≤ c.now) | none => true

section
variable {port : Fin 2} {fields : List Nat} {s : State} {c : Chip}

theorem leaves_chainCensus (h : (if (!s.chip.isUp port.val) = true then s.chip
      else if (CensusRec.ofFields fields).serial = mySerial then modChain (fun h => { h with ring := some (CensusRec.ofFields fields).hops }) s.chip
      else if s.chip.chain.relayed.contains ((CensusRec.ofFields fields).serial, (CensusRec.ofFields fields).seq) then s.chip
      else hearRecord port.val (CensusRec.ofFields fields) (when_ (joinsCensus s.chip) startCensus s.chip)) = c) :
    Leaves (.chainCensus port fields) s c := leaves_onChip (execChainCensus.eq_def port fields s) h

/-- A record of another chip that comes for the first time is heard, by a chip that joins the census if it must. -/
theorem leaves_chainCensus_new {join : Bool} (hu : s.chip.isUp port.val = true) (hs : (CensusRec.ofFields fields).serial ≠ mySerial)
    (hr : ((CensusRec.ofFields fields).serial, (CensusRec.ofFields fields).seq) ∉ s.chip.chain.relayed) (hj : joinsCensus s.chip = join) :
    Leaves (.chainCensus port fields) s (hearRecord port.val (CensusRec.ofFields fields) (when_ join startCensus s.chip)) := by
  subst hj
  exact leaves_chainCensus ((if_neg (not_negb_of_true hu)).trans ((if_neg hs).trans (if_neg (mt List.contains_iff_mem.mp hr))))

theorem joinsCensus_some {sent : Nat} (h : s.chip.chain.sentAt = some sent) : joinsCensus s.chip = decide (sent + 10000000 ≤ s.chip.now) := by
  unfold joinsCensus
  rw [h]

theorem joinsCensus_none (h : s.chip.chain.sentAt = none) : joinsCensus s.chip = true := by
  unfold joinsCensus
  rw [h]

/-! ### Votes (R353) -/

/-- A vote is kept in place of the chip's last one, and relayed. -/
def keepVote (p : Nat) (fields : List Nat) (c : Chip) : Chip :=
  relay p 5 1 1 fields (modChain (fun h => { h with voteRelayed := ((fields.getD 0 0, fields.getD 1 0) :: h.voteRelayed).take 1024,
                                                    votes := h.votes.filter (fun x => x.1 != fields.getD 0 0) ++ [(fields.getD 0 0, fields.getD 2 0)] }) c)

theorem leaves_viewVote (h : (if (!s.chip.isUp port.val || fields.getD 0 0 == mySerial ||
        s.chip.chain.voteRelayed.contains (fields.getD 0 0, fields.getD 1 0)) = true then s.chip
      else match (keepVote port.val fields s.chip).chain.computed with
        | some v => if fields.getD 2 0 ≠ v.digest then startCensus (keepVote port.val fields s.chip) else tryApply (keepVote port.val fields s.chip)
        | none => keepVote port.val fields s.chip) = c) : Leaves (.viewVote port fields) s c :=
  leaves_onChip (execViewVote.eq_def port fields s) h

theorem computed_keepVote (p : Nat) : (keepVote p fields c).chain.computed = c.chain.computed :=
  by
  unfold keepVote
  rw [relay_chain]
  rfl

/-- No vote comes by a port that is not UP, and one's own or one already relayed says nothing new. -/
theorem leaves_viewVote_ignored (h : s.chip.isUp port.val = false ∨ fields.getD 0 0 = mySerial ∨
    (fields.getD 0 0, fields.getD 1 0) ∈ s.chip.chain.voteRelayed) : Leaves (.viewVote port fields) s s.chip := by
  refine leaves_viewVote (if_pos ?_)
  rw [Bool.or_eq_true, Bool.or_eq_true, Bool.not_eq_true', beq_iff_eq, List.contains_iff_mem, or_assoc]
  exact h

/-- Any other is kept. -/
theorem leaves_viewVote_kept (hu : s.chip.isUp port.val = true) (hs : fields.getD 0 0 ≠ mySerial)
    (hr : (fields.getD 0 0, fields.getD 1 0) ∉ s.chip.chain.voteRelayed)
    (hc : (match s.chip.chain.computed with
      | some v => if fields.getD 2 0 ≠ v.digest then startCensus (keepVote port.val fields s.chip) else tryApply (keepVote port.val fields s.chip)
      | none => keepVote port.val fields s.chip) = c) : Leaves (.viewVote port fields) s c := by
  refine leaves_viewVote ((if_neg ?_).trans ?_)
  · rw [Bool.or_eq_true, Bool.or_eq_true, Bool.not_eq_true', beq_iff_eq, List.contains_iff_mem, hu]
    rintro ((h | h) | h)
    · cases h
    · exact hs h
    · exact hr h
  · rw [computed_keepVote]
    exact hc

/-! ### Views that are sent (R353) -/

/-- A VIEW_APPLY is remembered by its hash and tick, and relayed. -/
def keepApply (p : Nat) (fields : List Nat) (c : Chip) : Chip :=
  relay p 5 1 2 fields (modChain (fun h => { h with applyRelayed := ((fields.headD 0, fields.getD 1 0) :: h.applyRelayed).take 16 }) c)

/-- Is the chip's STC aligned to the chain that a view is of? -/
def alignedTo (v : View) (c : Chip) : Bool :=
  decide (2 ≤ c.num Obj.chainState) && c.chain.view.anchor == v.anchor && !bit (c.num Obj.chainQuarantineCause) 2

theorem leaves_viewApply (h : (if (!s.chip.isUp port.val || s.chip.chain.applyRelayed.contains (fields.headD 0, fields.getD 1 0)) = true then s.chip
      else if alignedTo (View.ofFields fields) (keepApply port.val fields s.chip) then
        modChain (fun h => { h with nextView := some (View.ofFields fields, fields.getD 1 0) }) (keepApply port.val fields s.chip)
      else applyView (View.ofFields fields) (keepApply port.val fields s.chip)) = c) : Leaves (.viewApply port fields) s c :=
  leaves_onChip (execViewApply.eq_def port fields s) h

theorem alignedTo_keepApply (v : View) (p : Nat) : alignedTo v (keepApply p fields c) = alignedTo v c := by
  unfold alignedTo keepApply
  rw [relay_num, relay_num, relay_chain]
  rfl

theorem leaves_viewApply_ignored (h : s.chip.isUp port.val = false ∨ (fields.headD 0, fields.getD 1 0) ∈ s.chip.chain.applyRelayed) :
    Leaves (.viewApply port fields) s s.chip := by
  refine leaves_viewApply (if_pos ?_)
  rw [Bool.or_eq_true, Bool.not_eq_true', List.contains_iff_mem]
  exact h

/-- A new one waits for its tick in a chip that is aligned, and takes effect at once in any other. -/
theorem leaves_viewApply_new (hu : s.chip.isUp port.val = true) (hk : (fields.headD 0, fields.getD 1 0) ∉ s.chip.chain.applyRelayed)
    (hc : (if alignedTo (View.ofFields fields) s.chip then
        modChain (fun h => { h with nextView := some (View.ofFields fields, fields.getD 1 0) }) (keepApply port.val fields s.chip)
      else applyView (View.ofFields fields) (keepApply port.val fields s.chip)) = c) : Leaves (.viewApply port fields) s c := by
  refine leaves_viewApply ((if_neg ?_).trans ?_)
  · rw [Bool.or_eq_true, Bool.not_eq_true', List.contains_iff_mem, hu]
    rintro (h | h)
    · cases h
    · exact hk h
  · rw [alignedTo_keepApply]
    exact hc

theorem alignedTo_iff {v : View} : alignedTo v c = true ↔
    2 ≤ c.num Obj.chainState ∧ c.chain.view.anchor = v.anchor ∧ bit (c.num Obj.chainQuarantineCause) 2 = false := by
  unfold alignedTo
  rw [Bool.and_eq_true, Bool.and_eq_true, decide_eq_true_iff, beq_iff_eq, Bool.not_eq_true', and_assoc]

end

/-! ### The computed view and its boundary (R353, R357) -/

section
variable {s : State} {c : Chip}

/-- The chip with its computed view and its own vote for it. -/
def settled (v : View) (c : Chip) : Chip :=
  modChain (fun h => { h with computed := some v, settledAt := c.now, nextView := none,
                              votes := h.votes.filter (fun x => x.1 != mySerial) ++ [(mySerial, v.digest)] }) c

theorem leaves_censusSettle (h : (if s.chip.chain.censusOn = true ∧ s.chip.chain.computed.isNone = true ∧ s.chip.chain.newAt + 20000000 ≤ s.chip.now then
        if s.chip.chain.votes.any (fun x => x.2 != (viewOf s.chip.ownRecord s.chip.chain.recs s.chip.chain.ring.isSome).digest) = true then
          startCensus (settled (viewOf s.chip.ownRecord s.chip.chain.recs s.chip.chain.ring.isSome) s.chip)
        else tryApply (sendUp 5 1 1 [mySerial, s.chip.chain.censusSeq, (viewOf s.chip.ownRecord s.chip.chain.recs s.chip.chain.ring.isSome).digest]
          (settled (viewOf s.chip.ownRecord s.chip.chain.recs s.chip.chain.ring.isSome) s.chip))
      else s.chip) = c) : Leaves .censusSettle s c := leaves_onChip (execCensusSettle.eq_def s) h

theorem leaves_viewApplyTimeout (h : (if (s.chip.chain.computed.isSome && s.chip.chain.nextView.isNone &&
      decide (s.chip.chain.settledAt + 100000000 ≤ s.chip.now)) = true then startCensus s.chip else s.chip) = c) :
    Leaves .viewApplyTimeout s c := leaves_onChip (execViewApplyTimeout.eq_def s) h

theorem viewOverdue (h : s.chip.chain.computed.isSome = true) (hn : s.chip.chain.nextView = none)
    (ht : s.chip.chain.settledAt + 100000000 ≤ s.chip.now) : Leaves .viewApplyTimeout s (startCensus s.chip) := by
  refine leaves_viewApplyTimeout (if_pos ?_)
  rw [h, hn, decide_eq_true ht]
  rfl

/-- The chip that starts a census, before its record goes out. -/
def censusBegun (c : Chip) : Chip :=
  let d := modChain (fun h => { h with
    ports := h.ports.map (fun x => (x.1, { x.2 with declared := false }))
    censusSeq := (h.censusSeq + 1) % 65536, censusOn := true, sentAt := some c.now, newAt := c.now
    recs := [], ring := none, computed := none, votes := [] }) c
  when_ (d.num Obj.chainState == 0) (setNum Obj.chainState 1) d

theorem startCensus_up (h : c.isUp 0 = true) : startCensus c = sendUp 5 1 0 (censusBegun c).ownRecord.fields (censusBegun c) :=
  if_neg (by rw [h]; exact Bool.false_ne_true)

theorem isUp_censusBegun {p : Nat} : (censusBegun c).isUp p = c.isUp p := by
  have hne : Obj.lathPortState p ≠ Obj.chainState := by simp only [Obj.lathPortState, Obj.chainState]; omega
  unfold censusBegun when_
  dsimp only
  split_ifs
  · exact congrArg (· == portUp) (num_setNum_other _ _ hne)
  · rfl

theorem chain_censusBegun : (censusBegun c).chain.censusSeq = (c.chain.censusSeq + 1) % 65536 ∧ (censusBegun c).chain.recs = [] ∧
    (censusBegun c).chain.votes = [] ∧ (censusBegun c).chain.computed = none ∧ (censusBegun c).out = c.out := by
  unfold censusBegun when_
  dsimp only
  split_ifs <;> exact ⟨rfl, rfl, rfl, rfl, rfl⟩

/-- With port 0 alone UP one message goes out. -/
theorem out_sendUp_one {cls type tag : Nat} {fields : List Nat} (h0 : c.isUp 0 = true) (h1 : c.isUp 1 = false) :
    (sendUp cls type tag fields c).out.length = c.out.length + 1 := by
  have h1' : (sendPort 0 cls type tag fields c).isUp 1 = false := h1
  have he : sendUp cls type tag fields c = sendPort 0 cls type tag fields c := by
    refine Eq.trans (b := when_ ((when_ (c.isUp 0) (sendPort 0 cls type tag fields) c).isUp 1) (sendPort 1 cls type tag fields)
      (when_ (c.isUp 0) (sendPort 0 cls type tag fields) c)) rfl ?_
    rw [h0, show when_ true (sendPort 0 cls type tag fields) c = sendPort 0 cls type tag fields c from rfl, h1']
    rfl
  rw [he]
  exact List.length_append

theorem leaves_applyBoundary (h : (match s.chip.chain.nextView with
      | some (v, t) => if t ≤ s.chip.time.stc ∧ s.chip.time.stc % 64 = 0 then applyView v s.chip else s.chip
      | none => s.chip) = c) : Leaves .applyBoundary s c := leaves_onChip (execApplyBoundary.eq_def s) h

/-- Off its boundary no view takes effect. -/
theorem leaves_applyBoundary_idle (h : s.chip.chain.nextView = none ∨ s.chip.time.stc % 64 ≠ 0) : Leaves .applyBoundary s s.chip := by
  refine leaves_applyBoundary ?_
  split
  case h_1 v t hv =>
    obtain hn | hm := h
    · rw [hn] at hv
      cases hv
    · exact if_neg fun hh => hm hh.2
  case h_2 => rfl

theorem leaves_applyBoundary_some {w : View} {t : Nat} (hv : s.chip.chain.nextView = some (w, t))
    (h : (if t ≤ s.chip.time.stc ∧ s.chip.time.stc % 64 = 0 then applyView w s.chip else s.chip) = c) : Leaves .applyBoundary s c := by
  refine leaves_applyBoundary ?_
  rw [hv]
  exact h

/-! ### Elections (R365) -/

/-- Is the time master in force of class 255? -/
def masterGone (c : Chip) : Bool := c.chain.view.entries.any (fun e => e.serial == c.chain.view.master && (c.recOf e).cls == 255)

theorem leaves_timeMasterElection (h : noteElection s.chip = c) : Leaves .timeMasterElection s c :=
  leaves_onChip (execTimeMasterElection.eq_def s) h

theorem noteElection_none (h : c.num Obj.chainState < 2 ∨ c.num Obj.chainState = 4 ∨ c.elected = none) : noteElection c = c := by
  unfold noteElection
  split_ifs with hst
  · rfl
  · rw [h.resolve_left (fun h => hst (.inl h)) |>.resolve_left (fun h => hst (.inr h))]

section
variable {n : Nat} (hlo : 2 ≤ c.num Obj.chainState) (hne : c.num Obj.chainState ≠ 4) (he : c.elected = some n)
include hlo hne he

theorem noteElection_same (hn : n = c.chain.view.master) : noteElection c = modChain (fun h => { h with elect := none }) c := by
  unfold noteElection
  rw [if_neg (by omega), he]
  exact if_pos hn

/-- A result that differs from the master in force. -/
theorem noteElection_other (hn : n ≠ c.chain.view.master) : noteElection c = match c.chain.elect with
    | some (m, t) => if m = n then (if masterGone c = true ∨ t + 1000000000 ≤ c.now then setMaster n c else c)
      else if masterGone c then setMaster n c else modChain (fun h => { h with elect := some (n, c.now) }) c
    | none => if masterGone c then setMaster n c else modChain (fun h => { h with elect := some (n, c.now) }) c := by
  unfold noteElection
  rw [if_neg (by omega), he]
  exact if_neg hn

theorem noteElection_gone (hn : n ≠ c.chain.view.master) (hg : masterGone c = true) : noteElection c = setMaster n c := by
  rw [noteElection_other hlo hne he hn, hg]
  split
  · split_ifs with h h'
    · rfl
    · exact absurd (.inl rfl) h'
    · rfl
    · exact absurd rfl ‹_›
  · rfl

theorem noteElection_first (hn : n ≠ c.chain.view.master) (hg : masterGone c = false) (hel : c.chain.elect = none) :
    noteElection c = modChain (fun h => { h with elect := some (n, c.now) }) c := by
  rw [noteElection_other hlo hne he hn, hg, hel]
  rfl

theorem noteElection_held {t : Nat} (hn : n ≠ c.chain.view.master) (hg : masterGone c = false) (hel : c.chain.elect = some (n, t)) :
    noteElection c = if t + 1000000000 ≤ c.now then setMaster n c else c := by
  rw [noteElection_other hlo hne he hn, hg, hel]
  simp

end

/-! ### The two ticks of a loss (R361 to R363, R372) -/

/-- From SWITCH on the neighbour out of each port that faces the lost chip counts as declared. -/
def facingPorts (lost : Nat) (c : Chip) : List Nat := [0, 1].filter (fun p => c.neighbourOf p == some lost)

/-- Ports that are declared. -/
def declarePorts (ps : List Nat) (c : Chip) : Chip := forEach ps (fun p c => modPort p (fun x => { x with declared := true }) c) c

/-- The chip that has noted SWITCH of a loss. -/
def switchNoted (l : Loss) (c : Chip) : Chip :=
  modChain (fun h => { h with oldCut := [0, 1].filter (fun p => c.flag (Obj.lathPortCut p)), switchAt := l.switch,
                              losses := h.losses.map (fun x => if x.lost = l.lost then { x with switched := true } else x) }) c

theorem leaves_lossSwitch (h : (match s.chip.chain.losses.find? (fun l => !l.switched && decide (l.switch ≤ s.chip.time.stc)) with
      | none => s.chip
      | some l => setNum (Obj.lathPortCut 0) 0 (setNum (Obj.lathPortCut 1) 0 (declarePorts (facingPorts l.lost s.chip) (switchNoted l s.chip)))) = c) :
    Leaves .lossSwitch s c := leaves_onChip (execLossSwitch.eq_def s) h

theorem leaves_lossSwitch_due {l : Loss} (h : s.chip.chain.losses.find? (fun l => !l.switched && decide (l.switch ≤ s.chip.time.stc)) = some l) :
    Leaves .lossSwitch s (setNum (Obj.lathPortCut 0) 0 (setNum (Obj.lathPortCut 1) 0
      (declarePorts (facingPorts l.lost s.chip) (switchNoted l s.chip)))) := by
  refine leaves_lossSwitch ?_
  rw [h]

theorem leaves_lossSwitch_idle (h : ∀ l ∈ s.chip.chain.losses, l.switched = true ∨ s.chip.time.stc < l.switch) : Leaves .lossSwitch s s.chip := by
  refine leaves_lossSwitch ?_
  rw [List.find?_eq_none.mpr]
  intro l hl
  rw [Bool.and_eq_true, Bool.not_eq_true', decide_eq_true_iff]
  rintro ⟨hs, hd⟩
  obtain h | h := h l hl
  · rw [h] at hs
    cases hs
  · omega

/-- Declaring ports changes their records alone. -/
theorem declarePorts_chain (ps : List Nat) : ∃ ports, declarePorts ps c = modChain (fun h => { h with ports := ports }) c := by
  refine forEach_keeps (fun d => ∃ ports, d = modChain (fun h => { h with ports := ports }) c) _ _ _ (fun p _ d hd => ?_) ⟨c.chain.ports, rfl⟩
  obtain ⟨ports, rfl⟩ := hd
  exact ⟨_, rfl⟩

/-- A port that is declared stays so. -/
theorem declared_modPort {p q : Nat} (h : (c.port p).declared = true) : ((modPort q (fun x => { x with declared := true }) c).port p).declared = true := by
  by_cases hq : q = p
  · subst hq
    rw [port_modPort_same]
  · rw [Chip.port, modPort, modChain, tget_tmod_other _ _ _ (Ne.symm hq)]
    exact h

theorem declared_declarePorts {p : Nat} (ps : List Nat) (hp : p ∈ ps) : ((declarePorts ps c).port p).declared = true := by
  induction ps generalizing c with
  | nil => cases hp
  | cons q ps ih =>
    obtain rfl | hp := List.mem_cons.mp hp
    · exact forEach_keeps (fun d : Chip => (d.port p).declared = true) _ ps
        (modPort p (fun x => { x with declared := true }) c) (fun q _ d hd => declared_modPort hd)
        (congrArg Port.declared (port_modPort_same p c _))
    · exact ih hp

theorem completes_lossSwitch {l : Loss} (h : s.chip.chain.losses = [l]) (hs : l.switched = false) (hd : l.switch ≤ s.chip.time.stc) :
    Completes .lossSwitch s (fun t => t.chip.chain.losses = [{ l with switched := true }] ∧ t.chip.chain.switchAt = l.switch ∧
      t.chip.chain.oldCut = [0, 1].filter (fun p => s.chip.flag (Obj.lathPortCut p)) ∧
      t.chip.num (Obj.lathPortCut 0) = 0 ∧ t.chip.num (Obj.lathPortCut 1) = 0 ∧ t.chip.chain.view = s.chip.chain.view ∧
      (∀ p, p < 2 → s.chip.neighbourOf p = some l.lost → (t.chip.port p).declared = true)) := by
  have hfind : s.chip.chain.losses.find? (fun l => !l.switched && decide (l.switch ≤ s.chip.time.stc)) = some l := by
    rw [h, List.find?_cons_of_pos (by rw [hs, decide_eq_true hd]; rfl)]
  have hl : (switchNoted l s.chip).chain.losses = [{ l with switched := true }] := by
    unfold switchNoted modChain
    simp [h]
  obtain ⟨ports, hp⟩ := declarePorts_chain (c := switchNoted l s.chip) (facingPorts l.lost s.chip)
  refine ⟨_, leaves_lossSwitch_due hfind, (congrArg (fun d => d.chain.losses) hp).trans hl, (congrArg (fun d => d.chain.switchAt) hp),
    (congrArg (fun d => d.chain.oldCut) hp), ?_, ?_, (congrArg (fun d => d.chain.view) hp), fun p hlt hn => ?_⟩
  · exact num_setNum_same _ _ _ |>.trans (Nat.zero_mod _)
  · exact (num_setNum_other _ _ (by decide)).trans ((num_setNum_same _ _ _).trans (Nat.zero_mod _))
  · refine declared_declarePorts _ (List.mem_filter.mpr ⟨?_, beq_iff_eq.mpr hn⟩)
    interval_cases p <;> simp

theorem leaves_lossEffective (h : (match (s.chip.chain.losses.filter (fun l => decide (l.effective ≤ s.chip.time.stc))).sortBy (fun a b => decide (a.switch ≤ b.switch)) with
      | l :: _ => lossEffective l s.chip
      | [] => s.chip) = c) : Leaves .lossEffective s c := leaves_onChip (execLossEffective.eq_def s) h

end

/-- Settles O46: each command through the condition it tests; the two clauses on what a census and a SWITCH leave through the chip each
has made before its messages and cuts. -/
theorem chainViews : Obligations.ChainViews := by
  refine ⟨fun port fields s => ⟨fun hu => ⟨?_, leaves_viewVote_ignored (.inl hu), leaves_viewApply_ignored (.inl hu)⟩, fun hu hs => ?_,
      fun hu hs hr => ?_, fun sent hu hs hr hsent => ⟨fun ht => ?_, fun ht => ?_⟩, fun hu hs hr hsent => ?_,
      ⟨fun h => leaves_viewVote_ignored (.inr h), fun hu hs hr hn => ?_, fun v hu hs hr hv => ?_⟩,
      ⟨fun h => leaves_viewApply_ignored (.inr h), fun hu hk hst => ?_, fun hu hk hst ha hq => ?_, fun hu hk hq => ?_⟩⟩,
    fun s => ⟨fun h => ?_, fun hon hn ht hv => ?_, fun h => ?_, viewOverdue, fun h0 h1 hc hn ht => ?_, leaves_applyBoundary_idle,
      fun w t hv => ⟨fun ht => ?_, fun ht hm => ?_⟩, fun h => leaves_timeMasterElection (noteElection_none h), ?_,
      leaves_lossSwitch_idle, fun l h hs hd => completes_lossSwitch h hs hd, fun h => ?_, fun l h hd => ?_⟩⟩
  · exact leaves_chainCensus (if_pos (congrArg (!·) hu))
  · exact leaves_chainCensus ((if_neg (not_negb_of_true hu)).trans (if_pos hs))
  · exact leaves_chainCensus ((if_neg (not_negb_of_true hu)).trans ((if_neg hs).trans (if_pos (List.contains_iff_mem.mpr hr))))
  · exact leaves_chainCensus_new (join := false) hu hs hr ((joinsCensus_some hsent).trans (decide_eq_false (Nat.not_le.mpr ht)))
  · exact leaves_chainCensus_new (join := true) hu hs hr ((joinsCensus_some hsent).trans (decide_eq_true ht))
  · exact leaves_chainCensus_new (join := true) hu hs hr (joinsCensus_none hsent)
  · exact leaves_viewVote_kept hu hs hr (by rw [hn]; rfl)
  · exact leaves_viewVote_kept hu hs hr (by rw [hv]; exact ite_not (p := fields.getD 2 0 = v.digest) _ _)
  · refine leaves_viewApply_new hu hk (if_neg fun h => ?_)
    have := (alignedTo_iff.mp h).1
    omega
  · exact leaves_viewApply_new hu hk (if_pos (alignedTo_iff.mpr ⟨hst, ha, hq⟩))
  · refine leaves_viewApply_new hu hk (if_neg fun h => ?_)
    rw [(alignedTo_iff.mp h).2.2] at hq
    cases hq
  · refine leaves_censusSettle (if_neg ?_)
    rintro ⟨hon, hn, ht⟩
    obtain h | h | h := h
    · rw [h] at hon
      cases hon
    · rw [Option.isNone_iff_eq_none.mp hn] at h
      cases h
    · omega
  · refine leaves_censusSettle ((if_pos ⟨hon, Option.isNone_iff_eq_none.mpr hn, ht⟩).trans ?_)
    rw [hv]
    rfl
  · refine leaves_viewApplyTimeout (if_neg ?_)
    rw [Bool.and_eq_true, Bool.and_eq_true, decide_eq_true_iff]
    rintro ⟨⟨hc, hn⟩, ht⟩
    obtain h | h | h := h
    · rw [h] at hc
      cases hc
    · rw [Option.isNone_iff_eq_none.mp hn] at h
      cases h
    · omega
  · obtain ⟨hseq, hrecs, hvotes, hcomp, hout⟩ := chain_censusBegun (c := s.chip)
    refine ⟨_, viewOverdue hc hn ht, ?_⟩
    dsimp only
    rw [startCensus_up h0, chain_sendUp, out_sendUp_one (isUp_censusBegun.trans h0) (isUp_censusBegun.trans h1), hout]
    exact ⟨hseq, hrecs, hvotes, hcomp, rfl⟩
  · exact leaves_applyBoundary_some hv (if_neg fun h => absurd h.1 (Nat.not_le.mpr ht))
  · exact leaves_applyBoundary_some hv (if_pos ⟨ht, hm⟩)
  · intro n hlo hne gone he
    exact ⟨fun hn => leaves_timeMasterElection (noteElection_same hlo hne he hn),
      fun hn hg => leaves_timeMasterElection (noteElection_gone hlo hne he hn hg),
      fun hn hg hel => leaves_timeMasterElection (noteElection_first hlo hne he hn hg hel),
      fun t hn hg hel => ⟨fun ht => leaves_timeMasterElection ((noteElection_held hlo hne he hn hg hel).trans (if_neg (Nat.not_le.mpr ht))),
        fun ht => leaves_timeMasterElection ((noteElection_held hlo hne he hn hg hel).trans (if_pos ht))⟩⟩
  · refine leaves_lossEffective ?_
    rw [List.filter_eq_nil_iff.mpr]
    · rfl
    · intro l hl
      rw [decide_eq_true_iff]
      exact Nat.not_le.mpr (h l hl)
  · refine leaves_lossEffective ?_
    rw [h, show [l].filter (fun l => decide (l.effective ≤ s.chip.time.stc)) = [l] from List.filter_cons_of_pos (decide_eq_true hd)]
    rfl

end Sys2Proof.Machine
end

section
/-!
SUPPORT. O47: chain writes from the writer to their apply tick (R373, R374), quarantine requests and resynchronisation (R378, R380),
replication and its acknowledgements (R376, R377), and the audit (R382).
-/

namespace Sys2Proof.Machine

/-! ### A write of a chain-scope object at its writer (R374) -/

/-- Tempo.Go is no chain-scope object. -/
theorem isScope_ne_tempoGo {n : Nat} (h : isScope n = true) : n ≠ Obj.plumbTempoGo := by
  rintro rfl
  revert h
  decide

theorem extraOf_scope {n : Nat} (c : Chip) (h : isScope n = true) : extraOf c n = [] := if_neg (isScope_ne_tempoGo h)

theorem isQuarantined_of_isMember {c : Chip} (h : c.isMember = true) : c.isQuarantined = false := by
  have hst : c.num Obj.chainState = 2 := beq_iff_eq.mp h
  unfold Chip.isQuarantined
  rw [hst]
  rfl

section
variable {w : ChainWriter} {v : Nat} {c : Chip}

theorem chainWrite_quarantined (h : c.isQuarantined = true) : chainWrite w v c = (some 2, c) := if_pos h

variable (hm : c.isMember = true)
include hm

theorem chainWrite_belowMin (hb : belowMin c w.object v = true) : chainWrite w v c = (some 4, c) :=
  (if_neg (Bool.eq_false_iff.mp (isQuarantined_of_isMember hm))).trans (if_pos hb)

theorem chainWrite_busy (hb : belowMin c w.object v = false)
    (h : c.chain.writer.isSome = true ∨ c.chain.proposal.isSome = true ∨ c.num Obj.chainAnchor = 0xFF) : chainWrite w v c = (some 1, c) := by
  refine (if_neg (Bool.eq_false_iff.mp (isQuarantined_of_isMember hm))).trans ((if_neg (Bool.eq_false_iff.mp hb)).trans (if_pos ?_))
  rw [Bool.or_eq_true, Bool.or_eq_true, beq_iff_eq, or_assoc]
  exact h

/-- A write that nothing stands against is noted, and proposed by the anchor or sent to it. -/
theorem chainWrite_sent {d : Chip} (hs : isScope w.object = true) (hb : belowMin c w.object v = false) (hw : c.chain.writer = none)
    (hp : c.chain.proposal = none) (ha : c.num Obj.chainAnchor ≠ 0xFF)
    (hd : (if c.num Obj.chainAnchor = c.me then propose w.object v [] (modChain (fun h => { h with writer := some w }) c)
      else sendLath 5 1 (c.num Obj.chainAnchor) 3 [w.object, v, 0, 0] (modChain (fun h => { h with writer := some w }) c)) = d) :
    chainWrite w v c = (none, d) := by
  have hfree : ¬ (c.chain.writer.isSome || c.chain.proposal.isSome || c.num Obj.chainAnchor == 0xFF) = true := by
    rw [hw, hp, Bool.or_eq_true, beq_iff_eq]
    rintro (h | h)
    · cases h
    · exact ha h
  refine (if_neg (Bool.eq_false_iff.mp (isQuarantined_of_isMember hm))).trans ((if_neg (Bool.eq_false_iff.mp hb)).trans ((if_neg hfree).trans ?_))
  dsimp only
  rw [extraOf_scope c hs]
  exact congrArg (Prod.mk none) hd

end

/-- The request that a chain write keeps of a WRITE message. -/
def writerOf (r : Req) (a n : Nat) (data : List Byte) : ChainWriter :=
  { path := r.path, txn := r.txn.toNat, op := 2, object := n, data := data, master := some a }

section
variable {r : Req} {a n : Nat} {data : List Byte} {s : State} (hw : Writes r a n data s)
  (hm : (judged r.path s).chip.isMember = true ∨ (judged r.path s).chip.isQuarantined = true)
include hw hm

/-- What the write service of a chain-scope object answers on a member, or on a chip in quarantine. -/
theorem runScope_shared : runScope r.path (writeMsg r n data) (actingMaster s.chip r.path) (judged r.path s) =
    if !(judged r.path s).chip.may 0x19 0 a 3 then (judged r.path s, { status := St.noAccess })
    else match (chainWrite (writerOf r a n data) (leNat data) (judged r.path s).chip).1 with
      | some k => ({ judged r.path s with chip := setNum Obj.chainWriteResult k (chainWrite (writerOf r a n data) (leNat data) (judged r.path s).chip).2 },
          { status := if k = 1 then St.busy else St.refused })
      | none => ({ judged r.path s with chip := (chainWrite (writerOf r a n data) (leNat data) (judged r.path s).chip).2 },
          { status := St.ok, later := true }) := by
  obtain ⟨ho, -, ha, hd⟩ := hw
  obtain ⟨d, ht, hv⟩ : ∃ d, writeTarget (judged r.path s).chip (some a) n = .ok d ∧ valueStatus d data = St.ok := by
    split at hd
    · exact ⟨_, ‹_›, of_decide_eq_true hd⟩
    · cases hd
  have e : (writeMsg r n data).object.toNat = n := by
    show (BitVec.ofNat 32 n).toNat = n
    rw [BitVec.toNat_ofNat]
    exact Nat.mod_eq_of_lt ho
  have hshared : ((judged r.path s).chip.isMember || (judged r.path s).chip.isQuarantined) = true := Bool.or_eq_true_iff.mpr hm
  unfold runScope
  dsimp only
  rw [if_pos hshared, e, ha, ht]
  refine (if_neg (by simp [writeMsg])).trans ?_
  exact if_neg (not_not.mpr hv)

/-- Without A on the chain target nothing happens (R374). -/
theorem scopeRow_noAccess (hmay : (judged r.path s).chip.may 0x19 0 a 3 = false) : scopeRow r n data s =
    .next { judged r.path s with chip := respond r.path (writeMsg r n data) (actingMaster s.chip r.path) { status := St.noAccess } (judged r.path s).chip } :=
  congrArg Host.Outcome.next (serve_answers hw.2.1 ((runScope_shared hw hm).trans (if_pos (congrArg (!·) hmay))) rfl)

/-- What a chain write that ends with a result is answered. -/
def resultReply (k : Nat) : Reply := { status := if k = 1 then St.busy else St.refused }

/-- A chain write that ends here leaves its result, and is answered with it. -/
theorem scopeRow_ends {k : Nat} {d : Chip} (hmay : (judged r.path s).chip.may 0x19 0 a 3 = true)
    (hr : chainWrite (writerOf r a n data) (leNat data) (judged r.path s).chip = (some k, d)) : scopeRow r n data s =
    .next { judged r.path s with chip := respond r.path (writeMsg r n data) (actingMaster s.chip r.path) (resultReply k) (setNum Obj.chainWriteResult k d) } := by
  have hrun := (runScope_shared hw hm).trans (if_neg (not_negb_of_true hmay))
  rw [hr] at hrun
  exact congrArg Host.Outcome.next (serve_answers hw.2.1 hrun rfl)

/-- One that goes on is answered at its end. -/
theorem scopeRow_goesOn {d : Chip} (hmay : (judged r.path s).chip.may 0x19 0 a 3 = true)
    (hr : chainWrite (writerOf r a n data) (leNat data) (judged r.path s).chip = (none, d)) : scopeRow r n data s = .next { s with chip := d } := by
  have hrun := (runScope_shared hw hm).trans (if_neg (not_negb_of_true hmay))
  rw [hr] at hrun
  refine congrArg Host.Outcome.next ((serve_reaches _ hw.2.1).trans ?_)
  rw [hrun]
  exact judged_state r.path s d

end

section
variable {r : Req} {a : Nat} {o : BitVec 32} {data : List Byte} {s : State}

theorem exec_chainWrite (h : isScope o.toNat = true) : exec (.chainWrite r o data) s = scopeRow r o.toNat data s := if_pos h

theorem leaves_chainWrite_none (h : isScope o.toNat = false) : Leaves (.chainWrite r o data) s s.chip := if_neg (Bool.eq_false_iff.mp h)

/-- On a chip of no chain a chain-scope object takes its value by the local rule (R374). -/
theorem answers_chainWrite_local {c : Chip} {st : Nat} (hw : Writes r a o.toNat data s) (hs : isScope o.toNat = true)
    (hm : (judged r.path s).chip.isMember = false) (hq : (judged r.path s).chip.isQuarantined = false)
    (h : serveRow r o.toNat data (localScope o.toNat (leNat data)) s = .next (answered r a o.toNat data ({ s with chip := c }, st))) :
    Answers (.chainWrite r o data) r a o.toNat data s c st :=
  (exec_chainWrite hs).trans ((scopeRow_local hw.1 hw.2.1 hm hq).trans h)

end

/-! ### The proposal of the anchor (R374) -/

section
variable {chip : Byte} {fields : List Nat} {s : State} {c : Chip}

/-- Is what a member proposed, or what the anchor proposes, this chip's own write? -/
def ownProposal (fields : List Nat) (c : Chip) : Bool :=
  match c.chain.writer with | some w => w.object == fields.getD 0 0 && leNat w.data == fields.getD 1 0 | none => true

/-- The chip takes the anchor's proposal and votes with the hash that it will hold. -/
def takeProposal (chip : Byte) (fields : List Nat) (c : Chip) : Chip :=
  let p : Proposal := { object := fields.getD 0 0, value := fields.getD 1 0, epoch := fields.getD 2 0, applyAt := fields.getD 3 0, extra := fields.drop 4 }
  let d := modChain (fun h => { h with proposal := some p, applySent := false }) c
  sendLath 5 1 chip.toNat 4 [fields.getD 2 0, hashAfter d (fields.getD 0 0) (fields.getD 1 0)] d

theorem leaves_configPropose (h : (if (!(s.chip.isMember || s.chip.isQuarantined)) = true then s.chip
      else if fields.getD 3 0 = 0 then
        (if s.chip.num Obj.chainAnchor = s.chip.me ∧ s.chip.chain.proposal.isNone = true then
          propose (fields.getD 0 0) (fields.getD 1 0) (fields.drop 4) s.chip else s.chip)
      else if chip.toNat ≠ s.chip.num Obj.chainAnchor then s.chip
      else takeProposal chip fields (when_ (!ownProposal fields s.chip) (endWrite 1) s.chip)) = c) : Leaves (.configPropose chip fields) s c :=
  leaves_onChip (execConfigPropose.eq_def chip fields s) h

theorem leaves_configPropose_none (hm : s.chip.isMember = false) (hq : s.chip.isQuarantined = false) :
    Leaves (.configPropose chip fields) s s.chip := leaves_configPropose (if_pos (by rw [hm, hq]; rfl))

section
variable (hm : s.chip.isMember = true)
include hm

theorem sharesChain : ¬ (!(s.chip.isMember || s.chip.isQuarantined)) = true := by
  rw [hm]
  exact Bool.false_ne_true

theorem leaves_configPropose_asked (hg : fields.getD 3 0 = 0)
    (h : (if s.chip.num Obj.chainAnchor = s.chip.me ∧ s.chip.chain.proposal.isNone = true then
      propose (fields.getD 0 0) (fields.getD 1 0) (fields.drop 4) s.chip else s.chip) = c) : Leaves (.configPropose chip fields) s c :=
  leaves_configPropose ((if_neg (sharesChain hm)).trans ((if_pos hg).trans h))

theorem leaves_configPropose_other (hg : fields.getD 3 0 ≠ 0) (hc : chip.toNat ≠ s.chip.num Obj.chainAnchor) :
    Leaves (.configPropose chip fields) s s.chip := leaves_configPropose ((if_neg (sharesChain hm)).trans ((if_neg hg).trans (if_pos hc)))

theorem leaves_configPropose_taken (hg : fields.getD 3 0 ≠ 0) (hc : chip.toNat = s.chip.num Obj.chainAnchor) (hw : s.chip.chain.writer = none) :
    Leaves (.configPropose chip fields) s (takeProposal chip fields s.chip) := by
  refine leaves_configPropose ((if_neg (sharesChain hm)).trans ((if_neg hg).trans ((if_neg (not_not.mpr hc)).trans ?_)))
  rw [show ownProposal fields s.chip = true by unfold ownProposal; rw [hw]]
  rfl

end

/-- The anchor keeps one vote of each member. -/
theorem leaves_configVote (h : (match s.chip.chain.proposal, s.chip.chain.anchorVotes with
      | some p, some vs =>
        if fields.getD 0 0 = p.epoch then
          modChain (fun h => { h with anchorVotes := some (vs.filter (fun x => x.1 != chip.toNat) ++ [(chip.toNat, fields.getD 1 0)]) }) s.chip
        else s.chip
      | _, _ => s.chip) = c) : Leaves (.configVote chip fields) s c := leaves_onChip (execConfigVote.eq_def chip fields s) (h ▸ rfl)

theorem leaves_configVote_none (h : s.chip.chain.proposal = none ∨ s.chip.chain.anchorVotes = none) : Leaves (.configVote chip fields) s s.chip := by
  refine leaves_configVote ?_
  split
  case h_1 hp hv =>
    obtain h | h := h
    · rw [h] at hp; cases hp
    · rw [h] at hv; cases hv
  case h_2 => rfl

theorem leaves_configVote_some {p : Proposal} {vs : List (Nat × Nat)} (hp : s.chip.chain.proposal = some p) (hv : s.chip.chain.anchorVotes = some vs)
    (h : (if fields.getD 0 0 = p.epoch then
        modChain (fun h => { h with anchorVotes := some (vs.filter (fun x => x.1 != chip.toNat) ++ [(chip.toNat, fields.getD 1 0)]) }) s.chip
      else s.chip) = c) : Leaves (.configVote chip fields) s c := by
  refine leaves_configVote ?_
  rw [hp, hv]
  exact h

/-- The hash that the members are to hold after a proposal, and the members of whom no such vote has come. -/
def unmatched (p : Proposal) (vs : List (Nat × Nat)) (c : Chip) : List Nat :=
  (c.chain.view.entries.filter (fun e => decide (e.number < 128) && !vs.contains (e.number, hashAfter c p.object p.value))).map (fun e => e.number)

/-- CONFIG_APPLY goes out, and lists them. -/
def sendApply (p : Proposal) (vs : List (Nat × Nat)) (c : Chip) : Chip :=
  sendLath 5 1 0xFF 5 ([p.epoch, hashAfter c p.object p.value, p.applyAt] ++ unmatched p vs c)
    (modChain (fun h => { h with applySent := true, proposal := some { p with listed := some (unmatched p vs c), hash := hashAfter c p.object p.value } }) c)

theorem leaves_configApplyTimer (h : (match s.chip.chain.proposal, s.chip.chain.anchorVotes with
      | some p, some vs => if (!s.chip.chain.applySent) = true ∧ p.applyAt ≤ s.chip.time.stc + s.chip.msTicks 5 then sendApply p vs s.chip else s.chip
      | _, _ => s.chip) = c) : Leaves .configApplyTimer s c := leaves_onChip (execConfigApplyTimer.eq_def s) (h ▸ rfl)

theorem leaves_configApplyTimer_none (h : s.chip.chain.proposal = none ∨ s.chip.chain.anchorVotes = none) : Leaves .configApplyTimer s s.chip := by
  refine leaves_configApplyTimer ?_
  split
  case h_1 hp hv =>
    obtain h | h := h
    · rw [h] at hp; cases hp
    · rw [h] at hv; cases hv
  case h_2 => rfl

theorem leaves_configApplyTimer_some {p : Proposal} {vs : List (Nat × Nat)} (hp : s.chip.chain.proposal = some p) (hv : s.chip.chain.anchorVotes = some vs)
    (h : (if (!s.chip.chain.applySent) = true ∧ p.applyAt ≤ s.chip.time.stc + s.chip.msTicks 5 then sendApply p vs s.chip else s.chip) = c) :
    Leaves .configApplyTimer s c := by
  refine leaves_configApplyTimer ?_
  rw [hp, hv]
  exact h

/-- The proposal that CONFIG_APPLY confirms. -/
def confirmed (p : Proposal) (fields : List Nat) (c : Chip) : Chip :=
  modChain (fun h => { h with proposal := some { p with listed := some (fields.drop 3), hash := fields.getD 1 0 } }) c

theorem leaves_configApply (h : (match s.chip.chain.proposal with
      | some p => if fields.getD 0 0 = p.epoch ∧ chip.toNat = s.chip.num Obj.chainAnchor then
          setCauses ((confirmed p fields s.chip).causes ((confirmed p fields s.chip).num Obj.chainQuarantineCause)) (confirmed p fields s.chip)
        else s.chip
      | none => s.chip) = c) : Leaves (.configApply chip fields) s c := leaves_onChip (execConfigApply.eq_def chip fields s) h

theorem leaves_configApply_none (h : s.chip.chain.proposal = none) : Leaves (.configApply chip fields) s s.chip :=
  leaves_configApply (by rw [h])

theorem leaves_configApply_some {p : Proposal} (hp : s.chip.chain.proposal = some p)
    (h : (if fields.getD 0 0 = p.epoch ∧ chip.toNat = s.chip.num Obj.chainAnchor then
        setCauses ((confirmed p fields s.chip).causes ((confirmed p fields s.chip).num Obj.chainQuarantineCause)) (confirmed p fields s.chip)
      else s.chip) = c) : Leaves (.configApply chip fields) s c := leaves_configApply (by rw [hp]; exact h)

/-! ### The apply tick (R374) -/

/-- No proposal is open any more. -/
def closeProposal (c : Chip) : Chip := modChain (fun h => { h with proposal := none, anchorVotes := none, applySent := false }) c

/-- The value of a proposal, and the record of a STORED object. -/
def proposedValue (p : Proposal) (c : Chip) : Chip := when_ (isStored p.object) (flashStore p.object) (applyScope p.object p.value p.applyAt p.extra c)

/-- Its epoch, and the hash that the view is held to. -/
def proposedEpoch (old : Nat) (p : Proposal) (c : Chip) : Chip :=
  modChain (fun h => { h with oldEpoch := old, epochFrom := p.applyAt, view := { h.view with epoch := p.epoch, hash := p.hash } }) (setNum Obj.chainEpoch p.epoch c)

/-- Causes are checked, CONFIG set on a chip that CONFIG_APPLY lists, and the writer has its answer. -/
def endProposal (l : List Nat) (c : Chip) : Chip :=
  let f := setCauses (if l.contains c.me then withBit (c.causes (c.num Obj.chainQuarantineCause)) 0 true else c.causes (c.num Obj.chainQuarantineCause)) c
  when_ f.chain.writer.isSome (endWrite 0) f

theorem leaves_chainWriteApply (h : (match s.chip.chain.proposal with
      | none => s.chip
      | some p => if s.chip.time.stc < p.applyAt then s.chip
        else match p.listed with
          | none => when_ (closeProposal s.chip).chain.writer.isSome (endWrite 3) (closeProposal s.chip)
          | some l => endProposal l (proposedEpoch (s.chip.num Obj.chainEpoch) p (proposedValue p (closeProposal s.chip)))) = c) :
    Leaves .chainWriteApply s c := leaves_onChip (execChainWriteApply.eq_def s) h

theorem leaves_chainWriteApply_none (h : s.chip.chain.proposal = none) : Leaves .chainWriteApply s s.chip :=
  leaves_chainWriteApply (by rw [h])

section
variable {p : Proposal} (hp : s.chip.chain.proposal = some p)
include hp

theorem leaves_chainWriteApply_early (ht : s.chip.time.stc < p.applyAt) : Leaves .chainWriteApply s s.chip :=
  leaves_chainWriteApply (by rw [hp]; exact if_pos ht)

theorem leaves_chainWriteApply_dropped (ht : p.applyAt ≤ s.chip.time.stc) (hl : p.listed = none) :
    Leaves .chainWriteApply s (when_ s.chip.chain.writer.isSome (endWrite 3) (closeProposal s.chip)) := by
  refine leaves_chainWriteApply ?_
  rw [hp]
  refine (if_neg (Nat.not_lt.mpr ht)).trans ?_
  rw [hl]
  rfl

theorem leaves_chainWriteApply_due {l : List Nat} (ht : p.applyAt ≤ s.chip.time.stc) (hl : p.listed = some l) :
    Leaves .chainWriteApply s (endProposal l (proposedEpoch (s.chip.num Obj.chainEpoch) p (proposedValue p (closeProposal s.chip)))) := by
  refine leaves_chainWriteApply ?_
  rw [hp]
  refine (if_neg (Nat.not_lt.mpr ht)).trans ?_
  rw [hl]

end

/-- The value of an object whose change has no other effect. -/
theorem proposedValue_heartbeatMiss {p : Proposal} (h : p.object = Obj.chainHeartbeatMiss) :
    proposedValue p c = flashStore p.object (setNum p.object p.value c) := by
  have hstored : isStored Obj.chainHeartbeatMiss = true := by decide +kernel
  unfold proposedValue applyScope
  rw [h, hstored]
  rfl

/-- The chip's number is no object of a chain write. -/
theorem me_proposedEpoch {p : Proposal} {old : Nat} (h : p.object = Obj.chainHeartbeatMiss) :
    (proposedEpoch old p (flashStore p.object (setNum p.object p.value (closeProposal c)))).me = c.me := by
  rw [h]
  exact (num_setNum_other _ _ (by decide)).trans ((num_setNum_other (closeProposal c) _ (by decide)).trans rfl)

/-! ### Resynchronisation (R380) -/

theorem leaves_configFetch (h : (if s.chip.num Obj.chainAnchor = s.chip.me then
      sendLath 5 1 chip.toNat 7 (scopeObjects.flatMap (fun o => [o, s.chip.num o]) ++ [s.chip.time.rebaseTick, s.chip.time.rebaseNs, s.chip.time.rebaseHz]) s.chip
      else s.chip) = c) : Leaves (.configFetch chip fields) s c := leaves_onChip (execConfigFetch.eq_def chip fields s) h

theorem leaves_configData_other (h : chip.toNat ≠ s.chip.num Obj.chainAnchor) : Leaves (.configData chip fields) s s.chip :=
  leaves_onChip (execConfigData.eq_def chip fields s) (if_pos h)

/-- The rebase point that CONFIG_DATA carries after the chain-scope values. -/
def rebaseOf (fields : List Nat) : Nat × Nat × Nat :=
  (fields.getD (2 * scopeObjects.length) 0, fields.getD (2 * scopeObjects.length + 1) 0, fields.getD (2 * scopeObjects.length + 2) 0)

/-- Where no Resync waits, CONFIG_DATA brings the rebase point alone. -/
theorem leaves_configData_rebase (ha : chip.toNat = s.chip.num Obj.chainAnchor) (hr : s.chip.chain.resync = false)
    (h : (if bit (s.chip.num Obj.chainQuarantineCause) 2 = true then
      modTime (fun t => { t with chainRebase := some (rebaseOf fields) }) s.chip
      else s.chip) = c) : Leaves (.configData chip fields) s c := by
  refine leaves_onChip (execConfigData.eq_def chip fields s) ((if_neg (not_not.mpr ha)).trans ?_)
  dsimp only
  rw [hr]
  exact h

/-! ### Replication (R376, R377) -/

theorem leaves_replicate (h : (if s.chip.num Obj.chainState < 2 ∨ s.chip.num Obj.chainState = 4 then s.chip
      else takeReplicas chip.toNat (((replicaLayer fields.length fields).map (fun n => s.chip.num (Obj.chainLayerHome n))).getD 0xFF)
        fields.length fields s.chip) = c) : Leaves (.replicate chip fields) s c := leaves_onChip (execReplicate.eq_def chip fields s) h

theorem takeReplicas_nil (m home fuel : Nat) : takeReplicas m home fuel [] c = c := by cases fuel <;> rfl

/-- A REPLICATE of one template alone carries no layer. -/
theorem replicaLayer_template (n tenant : Nat) (rest : List Nat) (fuel : Nat) :
    replicaLayer (fuel + 1) (0 :: n :: tenant :: rest.length :: rest) = none := by
  refine (if_neg (by decide)).trans ?_
  rw [List.drop_length]
  cases fuel <;> rfl

/-- A template of length 0 is withdrawn. -/
theorem takeReplicas_withdraw (m home n tenant fuel : Nat) : takeReplicas m home (fuel + 1) [0, n, tenant, 0] c = withdraw .template n c :=
  takeReplicas_nil m home fuel

/-- A committed template is acknowledged, where no layer names a home. -/
def acknowledged (m n : Nat) (x : (Nat × Nat) × Chip) : Chip :=
  let c := sendLath 5 1 m 9 [0, n, x.1.2, x.1.1] x.2
  let c := when_ (0xFF != m && 0xFF != c.me && 0xFF != 0xFF) (sendLath 5 1 0xFF 9 [0, n, x.1.2, x.1.1]) c
  when_ (0xFF == c.me && 0 == 0 && x.1.1 == 0) (fun c => noteHolder n x.1.2 m (noteHolder n x.1.2 c.me c)) c

/-- It is to its sender alone. -/
theorem acknowledged_sender {m n : Nat} {x : (Nat × Nat) × Chip} (hme : x.2.me ≠ 0xFF) :
    acknowledged m n x = sendLath 5 1 m 9 [0, n, x.1.2, x.1.1] x.2 := by
  have hme' : ((0xFF : Nat) == (sendLath 5 1 m 9 [0, n, x.1.2, x.1.1] x.2).me) = false := beq_eq_false_iff_ne.mpr (Ne.symm hme)
  have hff : ((0xFF : Nat) != 0xFF) = false := rfl
  unfold acknowledged
  dsimp only
  rw [hff, Bool.and_false, show when_ false (sendLath 5 1 0xFF 9 [0, n, x.1.2, x.1.1]) (sendLath 5 1 m 9 [0, n, x.1.2, x.1.1] x.2) =
    sendLath 5 1 m 9 [0, n, x.1.2, x.1.1] x.2 from rfl, hme']
  rfl

/-- One template is committed and acknowledged to its sender. -/
theorem takeReplicas_template {m n tenant fuel : Nat} {image : List Nat} (hlen : 0 < image.length)
    (hme : (commitReplica .template n (0x10 + tenant) (image.map (BitVec.ofNat 8)) c).2.me ≠ 0xFF) :
    takeReplicas m 0xFF (fuel + 1) (0 :: n :: tenant :: image.length :: image) c =
      sendLath 5 1 m 9 [0, n, (commitReplica .template n (0x10 + tenant) (image.map (BitVec.ofNat 8)) c).1.2,
        (commitReplica .template n (0x10 + tenant) (image.map (BitVec.ofNat 8)) c).1.1]
        (commitReplica .template n (0x10 + tenant) (image.map (BitVec.ofNat 8)) c).2 := by
  have htake : image.take image.length = image := List.take_length
  have hdrop : image.drop image.length = [] := List.drop_length
  have hstep : takeReplicas m 0xFF (fuel + 1) (0 :: n :: tenant :: image.length :: image) c =
      takeReplicas m 0xFF fuel (image.drop image.length) (if image.length = 0 then withdraw .template n c
        else acknowledged m n (commitReplica .template n (0x10 + tenant) ((image.take image.length).map (BitVec.ofNat 8)) c)) := rfl
  rw [hstep, hdrop, takeReplicas_nil, if_neg (by omega), htake]
  exact acknowledged_sender hme

end

/-! ### The audit (R382) -/

section
variable {chip : Byte} {fields : List Nat} {s : State} {c : Chip}

theorem leaves_replicateAck (h : (if fields.getD 3 0 ≠ 0 then bump Obj.chainCountersReplicationFailures s.chip
      else if fields.getD 0 0 = 0 then
        noteHolder (fields.getD 1 0) (fields.getD 2 0) s.chip.me (noteHolder (fields.getD 1 0) (fields.getD 2 0) chip.toNat s.chip)
      else s.chip) = c) : Leaves (.replicateAck chip fields) s c := leaves_onChip (execReplicateAck.eq_def chip fields s) h

/-- Count and CRC of the voices that this chip holds for a layer. -/
def heldAudit (n : Nat) (c : Chip) : Nat × Nat := auditOf ((c.layerVoices n).map (fun x => x.2.id))

theorem leaves_chainAudit (h : (if (fields.drop 1 != [(heldAudit (fields.getD 0 0) s.chip).1, (heldAudit (fields.getD 0 0) s.chip).2]) = true then
      sendInventory (fields.getD 0 0) chip.toNat s.chip else s.chip) = c) : Leaves (.chainAudit chip fields) s c :=
  leaves_onChip (execChainAudit.eq_def chip fields s) h

theorem leaves_auditTimer_none (h : s.chip.isMember = false) : Leaves .auditTimer s s.chip :=
  leaves_onChip (execAuditTimer.eq_def s) (if_pos (congrArg (!·) h))

/-- The home of one layer audits its one other member. -/
theorem leaves_auditTimer_one {n : Nat} {e : ViewEntry} (hm : s.chip.isMember = true) (hl : s.chip.setup.layers.map Prod.fst = [n])
    (hh : s.chip.num (Obj.chainLayerHome n) = s.chip.me)
    (he : s.chip.chain.view.entries.filter (fun e => decide (e.number < 128) && e.number != s.chip.me) = [e]) :
    Leaves .auditTimer s (sendLath 5 1 e.number 10 [n, (auditOf (s.chip.believed n e.number)).1, (auditOf (s.chip.believed n e.number)).2] s.chip) := by
  refine leaves_onChip (execAuditTimer.eq_def s) ((if_neg (not_negb_of_true hm)).trans ?_)
  dsimp only
  rw [hl, he, show [n].filter (fun n => s.chip.num (Obj.chainLayerHome n) == s.chip.me) = [n] from List.filter_cons_of_pos (beq_iff_eq.mpr hh)]
  rfl

end

/-! ### Quarantine requests, Resync and StealReserve (R378, R380, R106) -/

section
variable {r : Req} {a : Nat} {s : State}

/-- The rule of a quarantine request: an octet that takes effect in a chain (R378). -/
theorem answers_quarantineRequest {on : Bool} {c : Chip} (hw : Writes r a Obj.chainQuarantineRequest [if on then 1 else 0] s)
    (h : (if (setNum Obj.chainQuarantineRequest (if on then 1 else 0) (judged r.path s).chip).num Obj.chainState < 2 then
        setNum Obj.chainQuarantineRequest (if on then 1 else 0) (judged r.path s).chip
      else setCauses (withBit ((setNum Obj.chainQuarantineRequest (if on then 1 else 0) (judged r.path s).chip).num Obj.chainQuarantineCause) 3 on)
        (setNum Obj.chainQuarantineRequest (if on then 1 else 0) (judged r.path s).chip)) = c) :
    Answers (.quarantineRequest r on) r a Obj.chainQuarantineRequest [if on then 1 else 0] s c St.ok :=
  serveRow_chip hw (congrArg (·, St.ok) h)

end

/-- Settles O47: a chain write by what `chainWrite` makes of it, each message by the condition it meets, and the objects of the last clauses
by their rules. -/
theorem chainConfiguration : Obligations.ChainConfiguration := by
  refine ⟨fun r a o data s => ⟨leaves_chainWrite_none, fun hw hs hm hq hb => ?_, fun hw hs hm hq hb => ?_,
      fun hw hs hq => ⟨fun hmay => ?_, fun hmay => ?_⟩, fun hw hs hm hmay => ⟨fun hb => ?_, fun hb h => ?_, fun hb hwr hp ha => ⟨fun hme => ?_, fun hme => ?_⟩⟩⟩,
    ?_, fun r a s => ⟨fun on => ?_, fun hw => ⟨fun h => ?_, fun h => ?_⟩, fun v hw => ⟨fun h => ?_, fun h => ?_⟩⟩⟩
  · exact answers_chainWrite_local hw hs hm hq (serveRow_actWhen_refused hw (if_pos hb) (by decide))
  · exact answers_chainWrite_local hw hs hm hq (serveRow_actWhen_ok hw (if_neg (Bool.eq_false_iff.mp hb))
      (by rw [if_neg (isScope_ne_tempoGo hs)]))
  · exact (exec_chainWrite hs).trans (scopeRow_ends hw (.inr hq) hmay (chainWrite_quarantined hq))
  · exact (exec_chainWrite hs).trans (scopeRow_noAccess hw (.inr hq) hmay)
  · exact (exec_chainWrite hs).trans (scopeRow_ends hw (.inl hm) hmay (chainWrite_belowMin hm hb))
  · exact (exec_chainWrite hs).trans (scopeRow_ends hw (.inl hm) hmay (chainWrite_busy hm hb h))
  · exact (exec_chainWrite hs).trans (scopeRow_goesOn hw (.inl hm) hmay (chainWrite_sent hm hs hb hwr hp ha (if_pos hme)))
  · exact (exec_chainWrite hs).trans (scopeRow_goesOn hw (.inl hm) hmay (chainWrite_sent hm hs hb hwr hp ha (if_neg hme)))
  · intro chip fields s
    refine ⟨leaves_configPropose_none, fun hm hg => ⟨fun ha hp => ?_, fun h => ?_⟩, leaves_configPropose_other,
      fun hm hg hc hw => ⟨_, leaves_configPropose_taken hm hg hc hw, rfl, rfl, rfl⟩,
      fun h => ⟨leaves_configVote_none h, leaves_configApplyTimer_none h⟩,
      fun h => ⟨leaves_configApply_none h, leaves_chainWriteApply_none h⟩, fun p hp => ?_,
      fun h => leaves_configFetch (if_neg h), fun h => leaves_configFetch (if_pos h), leaves_configData_other,
      fun ha hr => ⟨fun h => leaves_configData_rebase ha hr (if_neg (Bool.eq_false_iff.mp h)), fun h => leaves_configData_rebase ha hr (if_pos h)⟩,
      fun h => leaves_replicate (if_pos h), fun n tenant image hlo hne => ⟨?_, ?_⟩, fun h => leaves_replicateAck (if_pos h),
      fun h h0 => leaves_replicateAck ((if_neg (not_not.mpr h)).trans (if_pos h0)),
      fun h h0 => leaves_replicateAck ((if_neg (not_not.mpr h)).trans (if_neg h0)),
      ⟨fun h => leaves_chainAudit (if_neg ?_), fun h => leaves_chainAudit (if_pos (bne_iff_ne.mpr h))⟩, leaves_auditTimer_none,
      fun n e hm hl hh he => leaves_auditTimer_one hm hl hh he⟩
    · exact leaves_configPropose_asked hm hg (if_pos ⟨ha, Option.isNone_iff_eq_none.mpr hp⟩)
    · refine leaves_configPropose_asked hm hg (if_neg ?_)
      rintro ⟨ha, hp⟩
      obtain h | h := h
      · exact h ha
      · rw [Option.isNone_iff_eq_none.mp hp] at h
        cases h
    · refine ⟨fun vs hv => ⟨fun h => leaves_configVote_some hp hv (if_pos h), fun h => leaves_configVote_some hp hv (if_neg h), fun h => ?_,
          fun hs ht => leaves_configApplyTimer_some hp hv (if_pos ⟨congrArg (!·) hs, ht⟩)⟩, fun h => ?_,
        fun he hc => leaves_configApply_some hp (if_pos ⟨he, hc⟩), leaves_chainWriteApply_early hp, ?_⟩
      · refine leaves_configApplyTimer_some hp hv (if_neg ?_)
        rintro ⟨hs, ht⟩
        obtain h | h := h
        · rw [h] at hs
          cases hs
        · omega
      · refine leaves_configApply_some hp (if_neg ?_)
        rintro ⟨he, hc⟩
        exact h.elim (absurd he) (absurd hc)
      · intro closed ht
        refine ⟨leaves_chainWriteApply_dropped hp ht, fun l hl ho => ?_⟩
        have h := leaves_chainWriteApply_due hp ht hl
        rw [proposedValue_heartbeatMiss ho] at h
        unfold endProposal at h
        rw [me_proposedEpoch ho] at h
        simp only [List.contains_iff_mem] at h
        exact h
    · rintro rfl
      exact leaves_replicate ((if_neg (by omega)).trans (takeReplicas_withdraw _ _ _ _ _))
    · rintro rfl hlen x hme
      refine leaves_replicate ((if_neg (by omega)).trans ?_)
      rw [show ([0, n, tenant, image.length] ++ image).length = (image.length + 3) + 1 by simp,
        show replicaLayer ((image.length + 3) + 1) ([0, n, tenant, image.length] ++ image) = none from replicaLayer_template _ _ _ _]
      exact takeReplicas_template hlen hme
    · rw [bne_iff_ne, not_not]
      exact h
  · have hst (d : Chip) (b : Nat) : (setNum Obj.chainQuarantineRequest b d).num Obj.chainState = d.num Obj.chainState :=
      num_setNum_other _ _ (by decide)
    have hcause (d : Chip) (b : Nat) : (setNum Obj.chainQuarantineRequest b d).num Obj.chainQuarantineCause = d.num Obj.chainQuarantineCause :=
      num_setNum_other _ _ (by decide)
    intro b hw
    refine ⟨fun h => answers_quarantineRequest hw (if_pos ((hst _ _).trans_lt h)), fun h => answers_quarantineRequest hw ?_⟩
    rw [if_neg (by rw [hst]; omega), hcause]
  · exact serveRow_actWhen_refused hw (if_neg (Bool.eq_false_iff.mp h)) (by decide)
  · exact serveRow_actWhen_ok hw (if_pos h) rfl
  · exact serveRow_chip hw (if_pos h)
  · exact serveRow_chip hw (if_neg (Bool.eq_false_iff.mp h))

end Sys2Proof.Machine
end

section
/-!
SUPPORT. O35: the key coat's run (R540 to R542, R550), the boot watchdog and the end of bring-up (R541, R543), and the commitment of images,
rollback floors and key slots (R538, R539).
-/

namespace Sys2Proof.Machine

/-! ### What bring-up leaves alone

The boot state and the objects of the areas below 0x20 (R556, R311). -/

/-- `d` has the boot state of `c`, and its number objects of the areas below 0x20. -/
structure KeepsCoat (c d : Chip) : Prop where
  boot : d.boot = c.boot
  num : ∀ o, o < 0x20000000 → d.num o = c.num o

namespace KeepsCoat

variable {b c d : Chip}

theorem refl (c : Chip) : KeepsCoat c c := ⟨rfl, fun _ _ => rfl⟩

theorem trans (h : KeepsCoat b c) (k : KeepsCoat c d) : KeepsCoat b d :=
  ⟨k.boot.trans h.boot, fun o ho => (k.num o ho).trans (h.num o ho)⟩

theorem of_eq (hb : d.boot = c.boot) (hn : d.nums = c.nums) : KeepsCoat c d := ⟨hb, fun o _ => by rw [Chip.num, Chip.num, hn]⟩

theorem setNum {p : Nat} (v : Nat) (c : Chip) (hp : 0x20000000 ≤ p) : KeepsCoat c (setNum p v c) :=
  ⟨rfl, fun _ ho => num_setNum_other c v (by omega)⟩

theorem modJournal (f : Journal → Journal) (c : Chip) : KeepsCoat c (modJournal f c) := of_eq rfl rfl

theorem when_ {f : Chip → Chip} (x : Bool) (c : Chip) (hf : KeepsCoat c (f c)) : KeepsCoat c (when_ x f c) := by
  cases x with
  | false => exact refl c
  | true => exact hf

theorem forEach {α : Type} {f : α → Chip → Chip} (l : List α) (c : Chip) (hf : ∀ a ∈ l, ∀ d, KeepsCoat d (f a d)) :
    KeepsCoat c (forEach l f c) := forEach_keeps (KeepsCoat c) f l c (fun a ha d h => h.trans (hf a ha d)) (refl c)

theorem snagWith (code unit tenant snap data : Nat) (c : Chip) : KeepsCoat c (snagWith code unit tenant snap data c) :=
  of_eq (SameUnits.snagWith _ _ _ _ _ c).boot (snagWith_nums _ _ _ _ _ c)

theorem raise (t v : Nat) (c : Chip) : KeepsCoat c (raise t v c) := of_eq (SameUnits.raise t v c).boot (raise_nums t v c)

theorem freeRecord (p : Nat) (c : Chip) : KeepsCoat c (freeRecord p c) := by
  unfold Machine.freeRecord noteRetire
  split
  · exact (modJournal _ c).trans (when_ _ _ (modJournal _ _))
  · exact refl c

theorem loseRecords (ps : List Nat) (c : Chip) : KeepsCoat c (loseRecords ps c) := by
  refine ((forEach ps c fun p _ d => freeRecord p d).trans (setNum _ _ (by decide))).trans (forEach _ _ fun t _ d => ?_)
  dsimp only
  split
  · refine trans ?_ (raise t 32 _)
    exact (snagWith _ _ _ _ _ d).trans (of_eq rfl rfl)
  · exact snagWith _ _ _ _ _ d

theorem readJournal (c : Chip) : KeepsCoat c (readJournal c) := by
  unfold Machine.readJournal
  dsimp only
  split
  · exact modJournal _ c
  · exact (when_ _ c (loseRecords _ c)).trans (modJournal _ _)

theorem slotStatus (f : CanFrame) (st : Nat) (c : Chip) : KeepsCoat c (slotStatus f st c) := by
  unfold Machine.slotStatus
  split
  · exact setNum _ c (by simp only [Obj.canSlotLastStatus]; omega)
  · exact refl c

theorem setCounts (k tec rec_ : Nat) (c : Chip) : KeepsCoat c (setCounts k tec rec_ c) := by
  have hstate (st : Nat) (d : Chip) : KeepsCoat d (Machine.setNum (Obj.canState k) st d) :=
    setNum st d (by simp only [Obj.canState]; omega)
  have hcounts : KeepsCoat c (Machine.setNum (Obj.canTec k) (min 255 tec) (Machine.setNum (Obj.canRec k) (min 255 rec_)
      (modCtl k (fun x => { x with tec := tec, rec_ := rec_ }) c))) :=
    ((of_eq rfl rfl : KeepsCoat c (modCtl k (fun x => { x with tec := tec, rec_ := rec_ }) c)).trans
      (setNum _ _ (by simp only [Obj.canRec]; omega))).trans (setNum _ _ (by simp only [Obj.canTec]; omega))
  unfold Machine.setCounts
  dsimp only
  split_ifs
  · exact hcounts.trans (hstate _ _)
  · exact hcounts.trans (hstate _ _)
  · exact hcounts

theorem enterMode (k : Nat) (c : Chip) : KeepsCoat c (enterMode k c) := by
  have hdiscard : KeepsCoat c (discardQueue k c) := by
    unfold discardQueue
    exact ((of_eq rfl rfl : KeepsCoat c (modCtl k (fun x => { x with queue := [] }) c)).trans
      (forEach _ _ fun f _ d => slotStatus f 4 d)).trans (forEach _ _ fun u _ d => of_eq rfl rfl)
  have hctl : KeepsCoat (discardQueue k c) (modCtl k (fun x => { x with collisions := [] }) (discardQueue k c)) := of_eq rfl rfl
  unfold Machine.enterMode
  exact ((hdiscard.trans hctl).trans (setNum _ _ (by simp only [Obj.canState]; omega))).trans (setCounts k 0 0 _)

theorem bringUp (c : Chip) : KeepsCoat c (bringUp c) := by
  unfold Machine.bringUp
  refine (((of_eq rfl rfl : KeepsCoat c (modUart 0 (fun x => { x with autobaud := true }) c)).trans (forEach _ _ fun k _ d => ?_)).trans
    (forEach _ _ fun p _ d => ?_)).trans (forEach _ _ fun p _ d => ?_)
  · exact when_ _ d (enterMode k d)
  · exact when_ _ d (setNum _ _ (by simp only [Obj.lathPortState]; omega))
  · exact when_ _ d (of_eq rfl rfl)

end KeepsCoat

/-! ### The key coat (R540 to R542, R550) -/

/-- The state once a life cycle that has advanced has wiped the Dust Sheet and its wrapped keys (R550). -/
def lifeWiped (s : State) : State :=
  if s.chip.num Obj.lifecycleLastApplied = s.chip.num Obj.lifecycleState then s
  else { wipeTrigger 0 s with chip := setNum Obj.lifecycleLastApplied (s.chip.num Obj.lifecycleState) (wipeTrigger 0 s).chip, dust := { (wipeTrigger 0 s).dust with store := [] } }

/-- The chip whose DRAM is trained. -/
def coatChip (s : State) : Chip := setNum Obj.powerCoreMv Config.avsFusedMv (lifeWiped s).chip

/-- What the objects say of the slot that runs and its image. -/
def namedSlot (slot : Nat) (c : Chip) : Chip :=
  setNum Obj.identityFirmwareVersion (imageVersion (c.boot.slotBytes slot))
    (setNum Obj.bootSlot slot (setNum Obj.bootError (if slot = c.boot.preferred then 0 else 3) c))

/-- The slot runs: its levels, the count of keys, and the start. -/
def startedSlot (keys slot : Nat) (c : Chip) : Chip :=
  modBoot (fun b => { b with started := true }) (setNum Obj.keyCount keys (setNum Obj.chainProtocolLevel (imageLevel (c.boot.slotBytes slot))
    (setNum Obj.chainLowestLevel (imageLowest (c.boot.slotBytes slot)) (namedSlot slot c))))

/-- The slot that the key coat picked runs; the supervisor brings up the rest. -/
def runSlot (st slot : Nat) (s : State) (c : Chip) : State :=
  { s with chip := bringUp (readJournal (startedSlot (unwrapAll st s.dust).keys.length slot c)), dust := unwrapAll st s.dust }

section
variable {s : State} {c : Chip}

theorem wipeTrigger_boot (n : Nat) : (wipeTrigger n s).chip.boot = s.chip.boot := by
  unfold wipeTrigger
  split_ifs <;> rfl

theorem num_wipeTrigger {n o : Nat} (hc : o ≠ Obj.dustSheetLastCause) (hw : o ≠ Obj.dustSheetLastWipeStc) :
    (wipeTrigger n s).chip.num o = s.chip.num o := by
  unfold wipeTrigger
  split
  · exact num_setNum_other _ _ hc
  · exact (num_setNum_other _ _ hw).trans (num_setNum_other _ _ hc)

theorem wipeTrigger_state (n : Nat) : (wipeTrigger n s).dust.state = .wiping := by
  unfold wipeTrigger
  split
  case isTrue h => exact h
  case isFalse => rfl

theorem coatChip_boot : (coatChip s).boot = s.chip.boot := by
  unfold coatChip lifeWiped
  split_ifs
  · rfl
  · exact wipeTrigger_boot 0

/-- The objects that the key coat writes before DRAM training. -/
def coatObjects : List Nat := [Obj.powerCoreMv, Obj.lifecycleLastApplied, Obj.dustSheetLastCause, Obj.dustSheetLastWipeStc]

theorem num_coatChip {o : Nat} (h : o ∉ coatObjects) : (coatChip s).num o = s.chip.num o := by
  simp only [coatObjects, List.mem_cons, List.not_mem_nil, or_false, not_or] at h
  obtain ⟨hmv, hlast, hcause, hstc⟩ := h
  unfold coatChip lifeWiped
  rw [num_setNum_other _ _ hmv]
  split_ifs
  · rfl
  · exact (num_setNum_other _ _ hlast).trans (num_wipeTrigger hcause hstc)

theorem dramRateFor_coatChip (found : Nat) : (coatChip s).dramRateFor found = s.chip.dramRateFor found := by
  unfold Chip.dramRateFor
  rw [num_coatChip (by decide)]

/-- The slot picked rests on the boot state, the life cycle and the rollback floor alone. -/
theorem pickSlot_congr {d : Chip} (hb : d.boot = c.boot) (hl : d.num Obj.lifecycleState = c.num Obj.lifecycleState)
    (hf : d.num Obj.bootRollbackFloor = c.num Obj.bootRollbackFloor) : d.pickSlot = c.pickSlot := by
  have hresult (img : List Byte) : d.imageResult img = c.imageResult img := by
    unfold Chip.imageResult
    rw [hb, hl, hf]
  unfold Chip.pickSlot Chip.slotRuns
  simp only [hresult, hb]

theorem pickSlot_coatChip (mts : Nat) : (setNum Obj.memoryDramRate mts (coatChip s)).pickSlot = s.chip.pickSlot :=
  pickSlot_congr coatChip_boot ((num_setNum_other _ _ (by decide)).trans (num_coatChip (by decide)))
    ((num_setNum_other _ _ (by decide)).trans (num_coatChip (by decide)))

/-- A slot that can be picked is one of the two. -/
theorem pickSlot_le {slot : Nat} (hp : c.boot.preferred ≤ 1) (h : c.pickSlot = some slot) : slot ≤ 1 := by
  unfold Chip.pickSlot at h
  dsimp only at h
  split_ifs at h <;> cases h <;> omega

/-! ### RECOVERY (R542) -/

theorem bootState_recovery (e : Nat) : (recovery e c).num Obj.bootState = 2 :=
  num_setNum_fits _ (show objWidth _ = 1 by decide +kernel) (by decide)

theorem bootError_recovery {e : Nat} (h : e < 256) : (recovery e c).num Obj.bootError = e :=
  (num_setNum_other _ _ (by decide)).trans (num_setNum_fits _ (show objWidth _ = 1 by decide +kernel) h)

theorem num_recovery {e o : Nat} (hs : o ≠ Obj.bootState) (he : o ≠ Obj.bootError) : (recovery e c).num o = c.num o :=
  (num_setNum_other _ _ hs).trans ((num_setNum_other _ _ he).trans (modUart_num c 0 _ o))

theorem recovery_boot (e : Nat) : (recovery e c).boot = c.boot := rfl

/-! ### The run of the key coat -/

theorem leaves_keyCoat_none {rate : Option (BitVec 16)} (h : s.chip.num Obj.bootState ≠ 0 ∨ s.chip.boot.started = true) :
    Leaves (.keyCoat rate) s s.chip := if_pos h

section
variable (h0 : s.chip.num Obj.bootState = 0) (hs : s.chip.boot.started = false)
include h0 hs

theorem exec_keyCoat (rate : Option (BitVec 16)) : exec (.keyCoat rate) s = match rate.map (fun r => (coatChip s).dramRateFor r.toNat) with
    | none => .next { lifeWiped s with chip := recovery 2 (coatChip s) }
    | some 0 => .next { lifeWiped s with chip := recovery 2 (coatChip s) }
    | some mts => match (setNum Obj.memoryDramRate mts (coatChip s)).pickSlot with
      | none => .next { lifeWiped s with chip := recovery 1 (setNum Obj.memoryDramRate mts (coatChip s)) }
      | some slot => .next (runSlot (s.chip.num Obj.lifecycleState) slot (lifeWiped s) (setNum Obj.memoryDramRate mts (coatChip s))) :=
  if_neg (by
    rw [hs]
    rintro (h | h)
    · exact h h0
    · cases h)

/-- Without DRAM the key coat stops. -/
theorem exec_keyCoat_untrained {rate : Option (BitVec 16)} (h : ∀ f, rate = some f → s.chip.dramRateFor f.toNat = 0) :
    exec (.keyCoat rate) s = .next { lifeWiped s with chip := recovery 2 (coatChip s) } := by
  rw [exec_keyCoat h0 hs]
  cases rate with
  | none => rfl
  | some f =>
    rw [Option.map_some, dramRateFor_coatChip, h f rfl]
    rfl

theorem exec_keyCoat_trained {f : BitVec 16} (h : s.chip.dramRateFor f.toNat ≠ 0) : exec (.keyCoat (some f)) s =
    match s.chip.pickSlot with
    | none => .next { lifeWiped s with chip := recovery 1 (setNum Obj.memoryDramRate (s.chip.dramRateFor f.toNat) (coatChip s)) }
    | some slot => .next (runSlot (s.chip.num Obj.lifecycleState) slot (lifeWiped s)
        (setNum Obj.memoryDramRate (s.chip.dramRateFor f.toNat) (coatChip s))) := by
  rw [exec_keyCoat h0 hs, Option.map_some, dramRateFor_coatChip]
  split
  case h_1 hx => cases hx
  case h_2 hx => exact absurd (Option.some.inj hx) h
  case h_3 mts _ hx =>
    cases hx
    rw [pickSlot_coatChip]

end

/-- A rate of DRAM is one of three. -/
theorem dramRateFor_lt (found : Nat) : c.dramRateFor found < 2 ^ (8 * 2) := by
  unfold Chip.dramRateFor
  cases h : [8533, 7500, 6400].find? (fun r => decide (r ≤ found) && decide (r ≤ c.num Obj.memoryDramMaxRate)) with
  | none => decide
  | some r =>
    have hr := List.mem_of_find?_eq_some h
    simp only [List.mem_cons, List.not_mem_nil, or_false] at hr
    rcases hr with rfl | rfl | rfl <;> decide

/-- The rate takes effect where nothing later writes it. -/
theorem num_dramRate (found : Nat) : (setNum Obj.memoryDramRate (c.dramRateFor found) (coatChip s)).num Obj.memoryDramRate = c.dramRateFor found :=
  num_setNum_fits _ (show objWidth _ = 2 by decide +kernel) (dramRateFor_lt found)

theorem num_startedSlot {keys slot o : Nat} (ho : o < 0x20000000) : (startedSlot keys slot c).num o = (namedSlot slot c).num o := by
  have hkeys : o ≠ Obj.keyCount := by simp only [Obj.keyCount]; omega
  have hlevel : o ≠ Obj.chainProtocolLevel := by simp only [Obj.chainProtocolLevel]; omega
  have hlowest : o ≠ Obj.chainLowestLevel := by simp only [Obj.chainLowestLevel]; omega
  unfold startedSlot
  exact (num_setNum_other _ _ hkeys).trans ((num_setNum_other _ _ hlevel).trans (num_setNum_other _ _ hlowest))

/-- What the objects of Boot say of a slot that runs (R556). -/
theorem runSlot_reads {st slot : Nat} {t : State} (hslot : slot ≤ 1) :
    (runSlot st slot t c).chip.boot.started = true ∧ (runSlot st slot t c).chip.num Obj.bootSlot = slot ∧
    (runSlot st slot t c).chip.num Obj.bootError = (if slot = c.boot.preferred then 0 else 3) ∧
    (runSlot st slot t c).chip.num Obj.identityFirmwareVersion = imageVersion (c.boot.slotBytes slot) % 2 ^ 32 ∧
    (runSlot st slot t c).chip.num Obj.bootState = c.num Obj.bootState ∧
    (runSlot st slot t c).chip.num Obj.memoryDramRate = c.num Obj.memoryDramRate := by
  let d := setNum Obj.bootSlot slot (setNum Obj.bootError (if slot = c.boot.preferred then 0 else 3) c)
  let k := (unwrapAll st t.dust).keys.length
  have hup : KeepsCoat (startedSlot k slot c) (runSlot st slot t c).chip := by
    unfold runSlot
    dsimp only
    exact (KeepsCoat.readJournal (startedSlot k slot c)).trans (KeepsCoat.bringUp (readJournal (startedSlot k slot c)))
  have hnum {o : Nat} (ho : o < 0x20000000) : (runSlot st slot t c).chip.num o = (namedSlot slot c).num o :=
    (hup.num o ho).trans (num_startedSlot ho)
  refine ⟨congrArg Boot.started hup.boot, ?_, ?_, ?_, ?_, ?_⟩
  · exact (hnum (by decide)).trans ((num_setNum_other d _ (by decide)).trans
      (num_setNum_fits _ (show objWidth _ = 1 by decide +kernel) (by omega)))
  · exact (hnum (by decide)).trans ((num_setNum_other d _ (by decide)).trans ((num_setNum_other _ _ (by decide)).trans
      (num_setNum_fits _ (show objWidth _ = 1 by decide +kernel) (by split <;> decide))))
  · exact (hnum (by decide)).trans ((num_setNum_same _ _ _).trans
      (congrArg (fun w => wrap (8 * w) _) (show objWidth Obj.identityFirmwareVersion = 4 by decide +kernel)))
  · exact (hnum (by decide)).trans ((num_setNum_other d _ (by decide)).trans ((num_setNum_other _ _ (by decide)).trans
      (num_setNum_other _ _ (by decide))))
  · exact (hnum (by decide)).trans ((num_setNum_other d _ (by decide)).trans ((num_setNum_other _ _ (by decide)).trans
      (num_setNum_other _ _ (by decide))))

end

/-! ### The boot watchdog and the end of bring-up (R541, R543) -/

section
variable {s : State} {c : Chip} {slot : Nat}

theorem fails_setFails (k : Nat) : (setFails slot k c).boot.fails slot = k := by
  unfold setFails modBoot Boot.fails
  dsimp only
  split_ifs <;> rfl

theorem preferred_setFails (k : Nat) : (setFails slot k c).boot.preferred = c.boot.preferred := by
  unfold setFails modBoot
  dsimp only
  split_ifs <;> rfl

theorem slots_setFails (k : Nat) : (setFails slot k c).boot.slotA = c.boot.slotA ∧ (setFails slot k c).boot.slotB = c.boot.slotB := by
  unfold setFails modBoot
  dsimp only
  split_ifs <;> exact ⟨rfl, rfl⟩

/-- The slot that a boot is of: the one that runs, else the one that the key coat is to run. -/
def bootedSlot (c : Chip) : Nat := if c.boot.started then c.num Obj.bootSlot else c.boot.preferred

/-- One more boot of a slot has failed; the third makes the other slot preferred. -/
def bootFailed (slot : Nat) (c : Chip) : Chip :=
  let d := setFails slot (c.boot.fails slot + 1) c
  when_ (decide (3 ≤ d.boot.fails slot)) (modBoot (fun b => { b with preferred := 1 - slot })) d

theorem bootFailed_boot : (bootFailed slot c).boot.fails slot = c.boot.fails slot + 1 ∧
    (bootFailed slot c).boot.preferred = if 3 ≤ c.boot.fails slot + 1 then 1 - slot else c.boot.preferred := by
  have hfails := fails_setFails (slot := slot) (c := c) (c.boot.fails slot + 1)
  unfold bootFailed when_
  dsimp only
  rw [hfails]
  simp only [decide_eq_true_iff]
  split
  · exact ⟨hfails, rfl⟩
  · exact ⟨hfails, preferred_setFails _⟩

theorem leaves_alwaysOnWatchdog_none (h : s.chip.num Obj.bootState ≠ 0) : Leaves .alwaysOnWatchdog s s.chip := if_pos h

theorem exec_alwaysOnWatchdog (h : s.chip.num Obj.bootState = 0) :
    exec .alwaysOnWatchdog s = .next (warmReset 4 { s with chip := bootFailed (bootedSlot s.chip) s.chip }) := if_neg (not_not.mpr h)

/-- The count of failed boots and the preferred slot last the reset that the watchdog makes. -/
theorem completes_alwaysOnWatchdog (h : s.chip.num Obj.bootState = 0) : Completes .alwaysOnWatchdog s (fun t =>
    t.chip.num Obj.faultLastReset = 4 ∧
    t.chip.boot.fails (bootedSlot s.chip) = s.chip.boot.fails (bootedSlot s.chip) + 1 ∧
    t.chip.boot.preferred = (if 3 ≤ s.chip.boot.fails (bootedSlot s.chip) + 1 then 1 - bootedSlot s.chip else s.chip.boot.preferred) ∧
    t.chip.boot.started = false) := by
  obtain ⟨hfails, hpreferred⟩ := bootFailed_boot (slot := bootedSlot s.chip) (c := s.chip)
  have hboot := (sameUnits_warmReset 4 { s with chip := bootFailed (bootedSlot s.chip) s.chip }).boot
  refine ⟨_, exec_alwaysOnWatchdog h, lastReset_warmReset _ (by decide), ?_, ?_, congrArg Boot.started hboot⟩
  · exact (congrArg (fun b => Boot.fails b (bootedSlot s.chip)) hboot).trans hfails
  · exact (congrArg Boot.preferred hboot).trans hpreferred

theorem leaves_bootReady {ms : BitVec 16} (h : (if s.chip.num Obj.bootState = 0 ∧ s.chip.boot.started = true then
      setNum Obj.bootState 1 (setNum Obj.bootReadyMs ms.toNat (setFails ((when_ s.chip.boot.warm (writeControl false) s.chip).num Obj.bootSlot) 0
        (when_ s.chip.boot.warm (writeControl false) s.chip)))
      else s.chip) = c) : Leaves (.bootReady ms) s c := leaves_onChip (execBootReady.eq_def ms s) h

/-- The control block is no object. -/
theorem num_controlWritten (b : Bool) (o : Nat) : (when_ b (writeControl false) c).num o = c.num o := by cases b <;> rfl

theorem completes_bootReady {ms : BitVec 16} (h0 : s.chip.num Obj.bootState = 0) (hs : s.chip.boot.started = true) :
    Completes (.bootReady ms) s (fun t => t.chip.num Obj.bootState = 1 ∧ t.chip.num Obj.bootReadyMs = ms.toNat ∧
      t.chip.boot.fails (s.chip.num Obj.bootSlot) = 0 ∧ (s.chip.boot.warm = true → t.chip.work.journal.control.isSealed = false)) := by
  refine ⟨_, leaves_bootReady (if_pos ⟨h0, hs⟩), ?_, ?_, ?_, fun hwarm => ?_⟩
  · exact num_setNum_fits _ (show objWidth _ = 1 by decide +kernel) (by decide)
  · exact (num_setNum_other _ _ (by decide)).trans (num_setNum_fits _ (show objWidth _ = 2 by decide +kernel) ms.isLt)
  · rw [num_controlWritten]
    exact fails_setFails 0
  · rw [hwarm]
    exact (control_writeControl false s.chip).1

end

/-! ### Image updates (R538, R539) -/

section
variable {r : Req} {a : Nat} {s : State} {c : Chip}

/-- The result of a commit is one of six. -/
theorem imageResult_lt (img : List Byte) : c.imageResult img < 2 ^ (8 * 1) := by
  unfold Chip.imageResult
  dsimp only
  split_ifs <;> decide

/-- The image of the slot that does not run is checked; a good one makes its slot the preferred one. -/
def committed (c : Chip) : Chip :=
  let d := setNum Obj.bootUpdateResult (c.imageResult (c.boot.slotBytes c.otherSlot)) c
  if c.imageResult (c.boot.slotBytes c.otherSlot) = 0 then setFails c.otherSlot 0 (modBoot (fun b => { b with preferred := c.otherSlot }) d) else d

/-- The slot that runs is no matter of a commit's result. -/
theorem otherSlot_setResult (v : Nat) : (setNum Obj.bootUpdateResult v c).otherSlot = c.otherSlot :=
  congrArg (1 - ·) (num_setNum_other c v (by decide))

theorem exec_updateCommit (hw : Writes r a Obj.bootUpdateCommit [1] s) : exec (.updateCommit r) s =
    .next (answered r a Obj.bootUpdateCommit [1] ({ s with chip := committed (judged r.path s).chip },
      if (judged r.path s).chip.imageResult ((judged r.path s).chip.boot.slotBytes (judged r.path s).chip.otherSlot) = 0 then St.ok else St.refused)) := by
  refine serveRow_chip hw ?_
  unfold committed
  dsimp only
  split_ifs
  · rw [otherSlot_setResult]
  · rfl

theorem committed_reads : (committed c).num Obj.bootUpdateResult = c.imageResult (c.boot.slotBytes c.otherSlot) ∧
    (committed c).boot.preferred = (if c.imageResult (c.boot.slotBytes c.otherSlot) = 0 then c.otherSlot else c.boot.preferred) ∧
    (committed c).boot.slotA = c.boot.slotA ∧ (committed c).boot.slotB = c.boot.slotB := by
  have hresult := num_setNum_fits c (show objWidth Obj.bootUpdateResult = 1 by decide +kernel) (imageResult_lt (c := c) (c.boot.slotBytes c.otherSlot))
  unfold committed
  dsimp only
  split
  · exact ⟨hresult, preferred_setFails 0, slots_setFails 0⟩
  · exact ⟨hresult, rfl, rfl, rfl⟩

end

/-! ### The statement -/

section
variable {s : State} (h0 : s.chip.num Obj.bootState = 0) (hs : s.chip.boot.started = false)
include h0 hs

theorem completes_keyCoat_untrained {rate : Option (BitVec 16)} (h : ∀ f, rate = some f → s.chip.dramRateFor f.toNat = 0) :
    Completes (.keyCoat rate) s (fun t => t.chip.num Obj.bootState = 2 ∧ t.chip.num Obj.bootError = 2 ∧ t.chip.boot.started = false) :=
  ⟨_, exec_keyCoat_untrained h0 hs h, bootState_recovery 2, bootError_recovery (by decide),
    (congrArg Boot.started ((recovery_boot 2).trans coatChip_boot)).trans hs⟩

theorem completes_keyCoat_trained {f : BitVec 16} (h : s.chip.dramRateFor f.toNat ≠ 0) (hp : s.chip.boot.preferred ≤ 1) :
    Completes (.keyCoat (some f)) s (fun t => t.chip.num Obj.memoryDramRate = s.chip.dramRateFor f.toNat ∧ match s.chip.pickSlot with
      | none => t.chip.num Obj.bootState = 2 ∧ t.chip.num Obj.bootError = 1 ∧ t.chip.boot.started = false
      | some slot => t.chip.num Obj.bootState = 0 ∧ t.chip.boot.started = true ∧ t.chip.num Obj.bootSlot = slot ∧
        t.chip.num Obj.bootError = (if slot = s.chip.boot.preferred then 0 else 3) ∧
        t.chip.num Obj.identityFirmwareVersion = imageVersion (s.chip.boot.slotBytes slot) % 2 ^ 32) := by
  have hexec := exec_keyCoat_trained h0 hs h
  have hboot : (setNum Obj.memoryDramRate (s.chip.dramRateFor f.toNat) (coatChip s)).boot = s.chip.boot := coatChip_boot
  cases hpick : s.chip.pickSlot with
  | none =>
    rw [hpick] at hexec
    exact ⟨_, hexec, (num_recovery (by decide) (by decide)).trans (num_dramRate f.toNat), bootState_recovery 1,
      bootError_recovery (by decide), (congrArg Boot.started hboot).trans hs⟩
  | some slot =>
    rw [hpick] at hexec
    obtain ⟨hstarted, hslot, herror, hversion, hstate, hrate⟩ := runSlot_reads (st := s.chip.num Obj.lifecycleState) (t := lifeWiped s)
      (c := setNum Obj.memoryDramRate (s.chip.dramRateFor f.toNat) (coatChip s)) (pickSlot_le hp hpick)
    rw [hboot] at herror hversion
    refine ⟨_, hexec, hrate.trans (num_dramRate f.toNat), ?_, hstarted, hslot, herror, hversion⟩
    exact hstate.trans ((num_setNum_other _ _ (by decide)).trans ((num_coatChip (by decide)).trans h0))

/-- A life cycle that has advanced wipes the Dust Sheet, whatever DRAM does. -/
theorem completes_keyCoat_wiped (h : s.chip.num Obj.lifecycleState ≠ s.chip.num Obj.lifecycleLastApplied) :
    Completes (.keyCoat none) s (fun t => t.dust.state = .wiping ∧ t.dust.store = []) := by
  refine ⟨_, exec_keyCoat_untrained h0 hs nofun, ?_⟩
  have hw : (lifeWiped s).dust = { (wipeTrigger 0 s).dust with store := [] } := by
    unfold lifeWiped
    rw [if_neg (Ne.symm h)]
  dsimp only
  rw [hw]
  exact ⟨wipeTrigger_state 0, rfl⟩

end

/-- Settles O35: the key coat by the chip that its life-cycle wipe and DRAM training leave and by the slot it picks; the watchdog through
the warm reset; the commitments by the rules of their objects. -/
theorem bootAndUpdates : Obligations.BootAndUpdates := by
  refine ⟨fun rate s => ⟨leaves_keyCoat_none, fun h0 hs => completes_keyCoat_untrained h0 hs nofun, fun f hf h0 hs hz => ?_, ?_,
      fun h0 hs h => completes_keyCoat_wiped h0 hs h⟩,
    fun s => ⟨leaves_alwaysOnWatchdog_none, completes_alwaysOnWatchdog, fun ms h0 hs => completes_bootReady h0 hs, fun ms h => ?_⟩,
    fun r a s => ⟨fun hw => ?_, fun hw => serveRow_chip hw rfl, fun slot hw => ⟨fun h => ?_, fun h => ?_⟩⟩⟩
  · obtain ⟨t, ht, hstate, herror, -⟩ := completes_keyCoat_untrained h0 hs (rate := rate) (fun g hg => by
      rw [hf] at hg
      cases hg
      exact hz)
    exact ⟨t, ht, hstate, herror⟩
  · rintro f rfl h0 hs hne hp
    exact completes_keyCoat_trained h0 hs hne hp
  · refine leaves_bootReady (if_neg ?_)
    rintro ⟨h0, hs⟩
    obtain h | h := h
    · exact h h0
    · rw [h] at hs
      cases hs
  · exact ⟨_, exec_updateCommit hw, committed (judged r.path s).chip, rfl, committed_reads⟩
  · exact serveRow_actWhen_refused hw ((if_neg (Nat.not_le.mpr slot.isLt)).trans (if_pos h)) (by decide)
  · exact serveRow_actWhen_ok hw ((if_neg (Nat.not_le.mpr slot.isLt)).trans (if_neg h)) rfl

end Sys2Proof.Machine
end
